-- ==== Sys2Proof/Word.lean ====
section
/-!
DEFINITION. Sys2Proof/Word.lean: the 32-bit register word, the byte, and the plainest arithmetic on signed numbers held
as bits.
-/

namespace Sys2Proof

/-- A 32-bit register word. -/
abbrev Word := BitVec 32

/-- A byte. -/
abbrev Byte := BitVec 8

/-- A 256-bit digest or key. -/
abbrev Digest := BitVec 256

end Sys2Proof
end

