-- ==== Sys2Proof/Machine/Registers.lean ====
section
/-!
DEFINITION. Sys2Proof/Machine/Registers.lean: the register map of the chapters' register tables (R1 to R503): each
register's address (`R.<REGISTER>`), each field's place (`F.<REGISTER>_<FIELD>`, and `F.<REGISTER>_EV_<NAME>` for a
named bit of an EVENTS field), and, per window, the access code and the reset value of every field.
A register with instances takes its instance numbers as arguments: Needle or slice `i`, actuator `a`, head `h`.
-/

namespace Sys2Proof.Machine

/-- One field of a register: the register's address, its lowest bit and its width. -/
structure Fld where
  addr : Nat
  lo : Nat
  width : Nat
  deriving DecidableEq, Repr

/-- The access codes of the register tables; `w1sHeld` is a W1S field that R502 says holds its value. -/
inductive Access where
  | ro | rw | w1c | w1s | w1sHeld | rwl | ros
  deriving DecidableEq, Repr

/-- What a write of a number outside a field's range does: R503 clamps it; a field may state that small numbers are
ignored; a guard key reads 0. -/
inductive Handling where
  | plain
  | clamp (least greatest : Nat)
  | ignoreBelow (least : Nat)
  | readsZero
  deriving DecidableEq, Repr

/-- One row of a register table, without the register it belongs to. -/
structure FieldSpec where
  lo : Nat
  width : Nat
  access : Access
  handling : Handling
  deriving DecidableEq, Repr

/-- One register of a window, with up to two instance strides. -/
structure RegSpec where
  base : Nat
  stride₁ : Nat
  count₁ : Nat
  stride₂ : Nat
  count₂ : Nat
  reset : Nat
  fields : List FieldSpec
  deriving DecidableEq, Repr

/-! ### Register addresses -/

/-- SYS_CAP_LO (R1). -/
def R.SYS_CAP_LO : Nat := 0x01000010
/-- SYS_CAP_HI (R1). -/
def R.SYS_CAP_HI : Nat := 0x01000014
/-- SYS_PAIR_STATUS (R17). -/
def R.SYS_PAIR_STATUS : Nat := 0x01000040
/-- ROWT_CTRL (R32). -/
def R.ROWT_CTRL : Nat := 0x01020000
/-- ROWT_STATUS (R33). -/
def R.ROWT_STATUS : Nat := 0x01020004
/-- ROWT_COUNT_LO (R34). -/
def R.ROWT_COUNT_LO : Nat := 0x01020008
/-- ROWT_COUNT_HI (R34). -/
def R.ROWT_COUNT_HI : Nat := 0x0102000C
/-- ROWT_PERIOD (R34). -/
def R.ROWT_PERIOD : Nat := 0x01020010
/-- ROWT_IDLE_PERIOD (R34). -/
def R.ROWT_IDLE_PERIOD : Nat := 0x01020014
/-- ROWT_AB_OFFSET (R34). -/
def R.ROWT_AB_OFFSET : Nat := 0x01020018
/-- ROWT_FAULTS (R34). -/
def R.ROWT_FAULTS : Nat := 0x0102001C
/-- PAT_STATUS (R65). -/
def R.PAT_STATUS : Nat := 0x01010000
/-- PAT_CTRL (R66). -/
def R.PAT_CTRL : Nat := 0x01010004
/-- PAT_RELOAD_ADDR (R66). -/
def R.PAT_RELOAD_ADDR : Nat := 0x01010008
/-- PAT_ERR_LOC (R66). -/
def R.PAT_ERR_LOC : Nat := 0x0101000C
/-- PAT_ID (R66). -/
def R.PAT_ID : Nat := 0x01010010
/-- PAT_SVN_LO (R66). -/
def R.PAT_SVN_LO : Nat := 0x01010014
/-- PAT_SVN_HI (R66). -/
def R.PAT_SVN_HI : Nat := 0x01010018
/-- PAT_GEOM_CRC (R66). -/
def R.PAT_GEOM_CRC : Nat := 0x0101001C
/-- PAT_DIGEST_n (R66). -/
def R.PAT_DIGEST (n : Nat) : Nat := 0x01010020 + 4 * n
/-- PAT_RT_DIGEST_n (R66). -/
def R.PAT_RT_DIGEST (n : Nat) : Nat := 0x01010040 + 4 * n
/-- SYS_BALL_FUNC (R74). -/
def R.SYS_BALL_FUNC : Nat := 0x01000060
/-- SYS_GPIO_OUT (R75). -/
def R.SYS_GPIO_OUT : Nat := 0x01000064
/-- SYS_GPIO_OE (R75). -/
def R.SYS_GPIO_OE : Nat := 0x01000068
/-- SYS_GPIO_IN (R75). -/
def R.SYS_GPIO_IN : Nat := 0x0100006C
/-- PWR_STATUS (R109). -/
def R.PWR_STATUS : Nat := 0x01030000
/-- PWR_CTRL (R109). -/
def R.PWR_CTRL : Nat := 0x01030004
/-- PWR_VIN (R109). -/
def R.PWR_VIN : Nat := 0x01030008
/-- PWR_IIN (R109). -/
def R.PWR_IIN : Nat := 0x0103000C
/-- PWR_EVENTS (R109). -/
def R.PWR_EVENTS : Nat := 0x01030010
/-- KEEP_MODEL (R110). -/
def R.KEEP_MODEL : Nat := 0x01040000
/-- KEEP_INERTIA (R110). -/
def R.KEEP_INERTIA : Nat := 0x01040004
/-- KEEP_DRAG (R110). -/
def R.KEEP_DRAG : Nat := 0x01040008
/-- KEEP_ENERGY (R110). -/
def R.KEEP_ENERGY : Nat := 0x0104000C
/-- KEEP_CEILING (R110). -/
def R.KEEP_CEILING : Nat := 0x01040010
/-- KEEP_DIRTY (R110). -/
def R.KEEP_DIRTY : Nat := 0x01040014
/-- KEEP_STATUS (R110). -/
def R.KEEP_STATUS : Nat := 0x01040018
/-- KEEP_PCC (R110). -/
def R.KEEP_PCC : Nat := 0x0104001C
/-- KEEP_OPTIME_LO (R110). -/
def R.KEEP_OPTIME_LO : Nat := 0x01040020
/-- KEEP_OPTIME_HI (R110). -/
def R.KEEP_OPTIME_HI : Nat := 0x01040024
/-- KEEP_BO_LAST (R110). -/
def R.KEEP_BO_LAST : Nat := 0x01040028
/-- SYS_RST_CAUSE (R125). -/
def R.SYS_RST_CAUSE : Nat := 0x01000020
/-- SYS_RST_CTRL (R125). -/
def R.SYS_RST_CTRL : Nat := 0x01000024
/-- SYS_WDOG (R125). -/
def R.SYS_WDOG : Nat := 0x01000028
/-- SYS_WDOG_KICK (R125). -/
def R.SYS_WDOG_KICK : Nat := 0x0100002C
/-- SYS_CASTON (R125). -/
def R.SYS_CASTON : Nat := 0x01000030
/-- SYS_CASTON_TIME (R125). -/
def R.SYS_CASTON_TIME : Nat := 0x01000034
/-- SPN_CMD (R149). -/
def R.SPN_CMD : Nat := 0x01100000
/-- SPN_STATUS (R149). -/
def R.SPN_STATUS : Nat := 0x01100004
/-- SPN_SPEED (R149). -/
def R.SPN_SPEED : Nat := 0x01100008
/-- SPN_UNC (R149). -/
def R.SPN_UNC : Nat := 0x0110000C
/-- SPN_ANGLE (R149). -/
def R.SPN_ANGLE : Nat := 0x01100010
/-- SPN_CURRENT (R149). -/
def R.SPN_CURRENT : Nat := 0x01100014
/-- SPN_DRIVE (R149). -/
def R.SPN_DRIVE : Nat := 0x01100018
/-- SPN_CTRL (R149). -/
def R.SPN_CTRL : Nat := 0x0110001C
/-- SPN_ILIM (R149). -/
def R.SPN_ILIM : Nat := 0x01100020
/-- SPN_FW (R149). -/
def R.SPN_FW : Nat := 0x01100024
/-- SPN_MOTOR_0 (R149). -/
def R.SPN_MOTOR_0 : Nat := 0x01100028
/-- SPN_MOTOR_1 (R149). -/
def R.SPN_MOTOR_1 : Nat := 0x0110002C
/-- SPN_SPEED_PI (R149). -/
def R.SPN_SPEED_PI : Nat := 0x01100030
/-- SPN_CUR_PI (R149). -/
def R.SPN_CUR_PI : Nat := 0x01100034
/-- SPN_SERVO_OFS (R149). -/
def R.SPN_SERVO_OFS : Nat := 0x01100038
/-- SPN_EVENTS (R149). -/
def R.SPN_EVENTS : Nat := 0x0110003C
/-- SPN_COUNTS (R149). -/
def R.SPN_COUNTS : Nat := 0x01100040
/-- SPN_SINE_n (R149). -/
def R.SPN_SINE (n : Nat) : Nat := 0x01100100 + 4 * n
/-- NDL_CTRL (R181). -/
def R.NDL_CTRL (i : Nat) : Nat := 0x01200000 + 0x10000 * i
/-- NDL_STATUS (R181). -/
def R.NDL_STATUS (i : Nat) : Nat := 0x01200004 + 0x10000 * i
/-- NDL_FLAGS (R181). -/
def R.NDL_FLAGS (i : Nat) : Nat := 0x01200008 + 0x10000 * i
/-- NDL_COUNTS (R181). -/
def R.NDL_COUNTS (i : Nat) : Nat := 0x0120000C + 0x10000 * i
/-- NDL_SP_POS (R181). -/
def R.NDL_SP_POS (i : Nat) : Nat := 0x01200010 + 0x10000 * i
/-- NDL_SP_VEL (R181). -/
def R.NDL_SP_VEL (i : Nat) : Nat := 0x01200014 + 0x10000 * i
/-- NDL_SP_ACC (R181). -/
def R.NDL_SP_ACC (i : Nat) : Nat := 0x01200018 + 0x10000 * i
/-- NDL_TARGET (R181). -/
def R.NDL_TARGET (i : Nat) : Nat := 0x0120001C + 0x10000 * i
/-- NDL_OFFSET (R181). -/
def R.NDL_OFFSET (i : Nat) : Nat := 0x01200020 + 0x10000 * i
/-- NDL_POSITION (R181). -/
def R.NDL_POSITION (i : Nat) : Nat := 0x01200024 + 0x10000 * i
/-- NDL_ERR (R181). -/
def R.NDL_ERR (i : Nat) : Nat := 0x01200028 + 0x10000 * i
/-- NDL_OUT (R181). -/
def R.NDL_OUT (i : Nat) : Nat := 0x0120002C + 0x10000 * i
/-- NDL_MANUAL (R181). -/
def R.NDL_MANUAL (i : Nat) : Nat := 0x01200030 + 0x10000 * i
/-- NDL_SETTLE (R181). -/
def R.NDL_SETTLE (i : Nat) : Nat := 0x01200034 + 0x10000 * i
/-- NDL_WRFAULT (R181). -/
def R.NDL_WRFAULT (i : Nat) : Nat := 0x01200038 + 0x10000 * i
/-- NDL_TIMING (R181). -/
def R.NDL_TIMING (i : Nat) : Nat := 0x0120003C + 0x10000 * i
/-- NDL_GRAPH (R181). -/
def R.NDL_GRAPH (i : Nat) : Nat := 0x01200040 + 0x10000 * i
/-- NDL_UCODE (R181). -/
def R.NDL_UCODE (i : Nat) : Nat := 0x01200044 + 0x10000 * i
/-- NDL_BUMP (R181). -/
def R.NDL_BUMP (i : Nat) : Nat := 0x01200048 + 0x10000 * i
/-- NDL_MBX_STATUS (R181). -/
def R.NDL_MBX_STATUS (i : Nat) : Nat := 0x0120004C + 0x10000 * i
/-- NDL_MBX_W0 (R181). -/
def R.NDL_MBX_W0 (i : Nat) : Nat := 0x01200050 + 0x10000 * i
/-- NDL_MBX_W1 (R181). -/
def R.NDL_MBX_W1 (i : Nat) : Nat := 0x01200054 + 0x10000 * i
/-- NDL_MBX_PUSH (R181). -/
def R.NDL_MBX_PUSH (i : Nat) : Nat := 0x01200058 + 0x10000 * i
/-- NDL_LIM_n_VMAX (R181). -/
def R.NDL_LIM_VMAX (i : Nat) (n : Nat) : Nat := 0x01200060 + 0x10000 * i + 16 * n
/-- NDL_LIM_n_AMAX (R181). -/
def R.NDL_LIM_AMAX (i : Nat) (n : Nat) : Nat := 0x01200064 + 0x10000 * i + 16 * n
/-- NDL_LIM_n_JMAX (R181). -/
def R.NDL_LIM_JMAX (i : Nat) (n : Nat) : Nat := 0x01200068 + 0x10000 * i + 16 * n
/-- NDL_SAT_LO (R181). -/
def R.NDL_SAT_LO (i : Nat) : Nat := 0x012000A0 + 0x10000 * i
/-- NDL_SAT_HI (R181). -/
def R.NDL_SAT_HI (i : Nat) : Nat := 0x012000A4 + 0x10000 * i
/-- ACT_CTRL (R202). -/
def R.ACT_CTRL (a : Nat) : Nat := 0x01300000 + 0x1000 * a
/-- ACT_CMD (R202). -/
def R.ACT_CMD (a : Nat) : Nat := 0x01300004 + 0x1000 * a
/-- ACT_STATUS (R202). -/
def R.ACT_STATUS (a : Nat) : Nat := 0x01300008 + 0x1000 * a
/-- ACT_WSTOP (R202). -/
def R.ACT_WSTOP (a : Nat) : Nat := 0x0130000C + 0x1000 * a
/-- ACT_EVENTS (R202). -/
def R.ACT_EVENTS (a : Nat) : Nat := 0x01300010 + 0x1000 * a
/-- ACT_COUNTS (R202). -/
def R.ACT_COUNTS (a : Nat) : Nat := 0x01300014 + 0x1000 * a
/-- ACT_VCM (R202). -/
def R.ACT_VCM (a : Nat) : Nat := 0x01300018 + 0x1000 * a
/-- ACT_MA (R202). -/
def R.ACT_MA (a : Nat) : Nat := 0x0130001C + 0x1000 * a
/-- ACT_LOAD (R202). -/
def R.ACT_LOAD (a : Nat) : Nat := 0x01300020 + 0x1000 * a
/-- ACT_TIMING (R202). -/
def R.ACT_TIMING (a : Nat) : Nat := 0x01300024 + 0x1000 * a
/-- ACT_COIL (R202). -/
def R.ACT_COIL (a : Nat) : Nat := 0x01300028 + 0x1000 * a
/-- ACT_PAMAP (R202). -/
def R.ACT_PAMAP (a : Nat) : Nat := 0x0130002C + 0x1000 * a
/-- ACT_PAFAULT (R202). -/
def R.ACT_PAFAULT (a : Nat) : Nat := 0x01300030 + 0x1000 * a
/-- ACT_LINK_CMD (R202). -/
def R.ACT_LINK_CMD (a : Nat) : Nat := 0x01300034 + 0x1000 * a
/-- ACT_LINK_RESP (R202). -/
def R.ACT_LINK_RESP (a : Nat) : Nat := 0x01300038 + 0x1000 * a
/-- ACT_LASER_ACC (R202). -/
def R.ACT_LASER_ACC (a : Nat) : Nat := 0x0130003C + 0x1000 * a
/-- ACT_HEAD_h_HEAT (R202). -/
def R.ACT_HEAD_HEAT (a : Nat) (h : Nat) : Nat := 0x01300040 + 0x1000 * a + 4 * h
/-- ACT_HEAD_h_ASSIST (R202). -/
def R.ACT_HEAD_ASSIST (a : Nat) (h : Nat) : Nat := 0x01300070 + 0x1000 * a + 4 * h
/-- ACT_HEAD_h_LLIM (R202). -/
def R.ACT_HEAD_LLIM (a : Nat) (h : Nat) : Nat := 0x013000A0 + 0x1000 * a + 4 * h
/-- ACT_LASER_FUSE (R203). -/
def R.ACT_LASER_FUSE : Nat := 0x01302000
/-- SLC_CTRL (R233). -/
def R.SLC_CTRL (i : Nat) : Nat := 0x01400000 + 0x10000 * i
/-- SLC_STATUS (R233). -/
def R.SLC_STATUS (i : Nat) : Nat := 0x01400004 + 0x10000 * i
/-- SLC_MARK (R233). -/
def R.SLC_MARK (i : Nat) : Nat := 0x01400008 + 0x10000 * i
/-- SLC_TENSION (R233). -/
def R.SLC_TENSION (i : Nat) : Nat := 0x0140000C + 0x10000 * i
/-- SLC_DEFECT (R233). -/
def R.SLC_DEFECT (i : Nat) : Nat := 0x01400010 + 0x10000 * i
/-- SLC_LDPC (R233). -/
def R.SLC_LDPC (i : Nat) : Nat := 0x01400014 + 0x10000 * i
/-- SLC_VERIFY (R233). -/
def R.SLC_VERIFY (i : Nat) : Nat := 0x01400018 + 0x10000 * i
/-- SLC_TWIN_MASK (R233). -/
def R.SLC_TWIN_MASK (i : Nat) : Nat := 0x0140001C + 0x10000 * i
/-- SLC_EVENTS (R233). -/
def R.SLC_EVENTS (i : Nat) : Nat := 0x01400020 + 0x10000 * i
/-- SLC_DROP (R233). -/
def R.SLC_DROP (i : Nat) : Nat := 0x01400024 + 0x10000 * i
/-- SLC_DROP_TOTAL (R233). -/
def R.SLC_DROP_TOTAL (i : Nat) : Nat := 0x01400028 + 0x10000 * i
/-- SLC_DECODE (R233). -/
def R.SLC_DECODE (i : Nat) : Nat := 0x0140002C + 0x10000 * i
/-- SLC_RECOV_CMD (R233). -/
def R.SLC_RECOV_CMD (i : Nat) : Nat := 0x01400030 + 0x10000 * i
/-- SLC_RECOV_STATUS (R233). -/
def R.SLC_RECOV_STATUS (i : Nat) : Nat := 0x01400034 + 0x10000 * i
/-- SLC_PIN_LO (R233). -/
def R.SLC_PIN_LO (i : Nat) : Nat := 0x01400038 + 0x10000 * i
/-- SLC_PIN_HI (R233). -/
def R.SLC_PIN_HI (i : Nat) : Nat := 0x0140003C + 0x10000 * i
/-- SLC_HEAD_h (R233). -/
def R.SLC_HEAD (i : Nat) (h : Nat) : Nat := 0x01400040 + 0x10000 * i + 4 * h
/-- SLC_FIR_k (R233). -/
def R.SLC_FIR (i : Nat) (k : Nat) : Nat := 0x01400080 + 0x10000 * i + 4 * k
/-- FMT_ZONE_SEL (R260). -/
def R.FMT_ZONE_SEL : Nat := 0x01500000
/-- FMT_ZONE_DESC_n (R260). -/
def R.FMT_ZONE_DESC (n : Nat) : Nat := 0x01500004 + 4 * n
/-- FMT_ZONE_PLACE (R260). -/
def R.FMT_ZONE_PLACE : Nat := 0x01500014
/-- FMT_ZONE_SHAPE (R260). -/
def R.FMT_ZONE_SHAPE : Nat := 0x01500018
/-- FMT_TOTALS (R260). -/
def R.FMT_TOTALS : Nat := 0x0150001C
/-- FMT_PARITY (R260). -/
def R.FMT_PARITY : Nat := 0x01500020
/-- STM_CTRL (R261). -/
def R.STM_CTRL : Nat := 0x01600000
/-- STM_STATUS (R261). -/
def R.STM_STATUS : Nat := 0x01600004
/-- STM_USAGE (R261). -/
def R.STM_USAGE : Nat := 0x01600008
/-- STM_LEAVES (R261). -/
def R.STM_LEAVES : Nat := 0x0160000C
/-- STM_CACHE_HIT (R261). -/
def R.STM_CACHE_HIT : Nat := 0x01600010
/-- STM_CACHE_MISS (R261). -/
def R.STM_CACHE_MISS : Nat := 0x01600014
/-- STM_JOURNAL (R261). -/
def R.STM_JOURNAL : Nat := 0x01600018
/-- STM_JSEQ_LO (R261). -/
def R.STM_JSEQ_LO : Nat := 0x0160001C
/-- STM_JSEQ_HI (R261). -/
def R.STM_JSEQ_HI : Nat := 0x01600020
/-- STM_EVENTS (R261). -/
def R.STM_EVENTS : Nat := 0x01600024
/-- HIF_PORT_n_STATUS (R295). -/
def R.HIF_PORT_STATUS (n : Nat) : Nat := 0x02000000 + 4 * n
/-- HIF_PORT_n_ERR (R295). -/
def R.HIF_PORT_ERR (n : Nat) : Nat := 0x02000008 + 4 * n
/-- HIF_CFS (R295). -/
def R.HIF_CFS : Nat := 0x02000010
/-- HIF_CTRL_EXIST (R295). -/
def R.HIF_CTRL_EXIST : Nat := 0x02000014
/-- HIF_CTRL_RDY (R295). -/
def R.HIF_CTRL_RDY : Nat := 0x02000018
/-- HIF_AEN_MASK (R295). -/
def R.HIF_AEN_MASK : Nat := 0x0200001C
/-- HIF_AEN_POST (R295). -/
def R.HIF_AEN_POST : Nat := 0x02000020
/-- HIF_SB_STATUS (R295). -/
def R.HIF_SB_STATUS : Nat := 0x02000024
/-- QUE_SKEIN_SEL (R296). -/
def R.QUE_SKEIN_SEL : Nat := 0x02100000
/-- QUE_SKEIN_SQ (R296). -/
def R.QUE_SKEIN_SQ : Nat := 0x02100004
/-- QUE_SKEIN_CQ (R296). -/
def R.QUE_SKEIN_CQ : Nat := 0x02100008
/-- QUE_SKEIN_LIVE (R296). -/
def R.QUE_SKEIN_LIVE : Nat := 0x0210000C
/-- QUE_SKEIN_SLOTS (R296). -/
def R.QUE_SKEIN_SLOTS : Nat := 0x02100010
/-- QUE_SLOTS (R296). -/
def R.QUE_SLOTS : Nat := 0x02100014
/-- QUE_FETCH_HOLD (R296). -/
def R.QUE_FETCH_HOLD : Nat := 0x02100018
/-- QUE_RING_SEL (R296). -/
def R.QUE_RING_SEL : Nat := 0x0210001C
/-- QUE_RING_STATE (R296). -/
def R.QUE_RING_STATE : Nat := 0x02100020
/-- QUE_RING_CFG (R296). -/
def R.QUE_RING_CFG : Nat := 0x02100024
/-- SCH_n_CTRL (R316). -/
def R.SCH_CTRL (n : Nat) : Nat := 0x02300000 + 0x100 * n
/-- SCH_n_SETTLE (R316). -/
def R.SCH_SETTLE (n : Nat) : Nat := 0x02300004 + 0x100 * n
/-- SCH_n_WINDOW (R316). -/
def R.SCH_WINDOW (n : Nat) : Nat := 0x02300008 + 0x100 * n
/-- SCH_n_BEST (R316). -/
def R.SCH_BEST (n : Nat) : Nat := 0x0230000C + 0x100 * n
/-- SCH_n_PICKS (R316). -/
def R.SCH_PICKS (n : Nat) : Nat := 0x02300010 + 0x100 * n
/-- SCH_n_EVALS (R316). -/
def R.SCH_EVALS (n : Nat) : Nat := 0x02300014 + 0x100 * n
/-- SCH_n_SEEK_k (R316). -/
def R.SCH_SEEK (n : Nat) (k : Nat) : Nat := 0x02300040 + 0x100 * n + 4 * k
/-- SCH_SLOT_CFG (R316). -/
def R.SCH_SLOT_CFG : Nat := 0x02300400
/-- SCH_SLOT_DIRTY (R316). -/
def R.SCH_SLOT_DIRTY : Nat := 0x02300404
/-- ORD_LEDGER_STATUS (R317). -/
def R.ORD_LEDGER_STATUS : Nat := 0x02200800
/-- ORD_LEDGER_CTRL (R317). -/
def R.ORD_LEDGER_CTRL : Nat := 0x02200804
/-- ORD_LEDGER_ACCTS (R317). -/
def R.ORD_LEDGER_ACCTS : Nat := 0x02200808
/-- ORD_LEDGER_FAULTS (R317). -/
def R.ORD_LEDGER_FAULTS : Nat := 0x0220080C
/-- ORD_LEDGER_SEL (R317). -/
def R.ORD_LEDGER_SEL : Nat := 0x02200810
/-- ORD_LEDGER_VAL (R317). -/
def R.ORD_LEDGER_VAL : Nat := 0x02200814
/-- ORD_LEDGER_CENSUS (R317). -/
def R.ORD_LEDGER_CENSUS : Nat := 0x02200818
/-- ORD_LEDGER_ROW_LO (R317). -/
def R.ORD_LEDGER_ROW_LO : Nat := 0x0220081C
/-- ORD_LEDGER_ROW_HI (R317). -/
def R.ORD_LEDGER_ROW_HI : Nat := 0x02200820
/-- ORD_OVL_STATUS (R344). -/
def R.ORD_OVL_STATUS : Nat := 0x02200000
/-- ORD_OVL_BLOCKED (R344). -/
def R.ORD_OVL_BLOCKED : Nat := 0x02200004
/-- ORD_OVL_EPOCH_LO (R344). -/
def R.ORD_OVL_EPOCH_LO : Nat := 0x02200008
/-- ORD_OVL_EPOCH_HI (R344). -/
def R.ORD_OVL_EPOCH_HI : Nat := 0x0220000C
/-- ORD_OVL_COUNTS (R344). -/
def R.ORD_OVL_COUNTS : Nat := 0x02200010
/-- ORD_OVL_EVENTS (R344). -/
def R.ORD_OVL_EVENTS : Nat := 0x02200014
/-- ORD_DUR_STATUS (R344). -/
def R.ORD_DUR_STATUS : Nat := 0x02200018
/-- ORD_CLAIM_DLA_LO (R344). -/
def R.ORD_CLAIM_DLA_LO : Nat := 0x02200020
/-- ORD_CLAIM_DLA_HI (R344). -/
def R.ORD_CLAIM_DLA_HI : Nat := 0x02200024
/-- ORD_CLAIM_CMD (R344). -/
def R.ORD_CLAIM_CMD : Nat := 0x02200028
/-- ORD_CLAIM_STATUS (R344). -/
def R.ORD_CLAIM_STATUS : Nat := 0x0220002C
/-- DRN_CTRL (R367). -/
def R.DRN_CTRL : Nat := 0x02400000
/-- DRN_SCRUB (R367). -/
def R.DRN_SCRUB : Nat := 0x02400004
/-- DRN_LADDER (R367). -/
def R.DRN_LADDER : Nat := 0x02400008
/-- DRN_STATUS (R367). -/
def R.DRN_STATUS : Nat := 0x0240000C
/-- DRN_SCRUB_POS_n (R367). -/
def R.DRN_SCRUB_POS (n : Nat) : Nat := 0x02400010 + 4 * n
/-- DRN_PASS_n (R367). -/
def R.DRN_PASS (n : Nat) : Nat := 0x02400018 + 4 * n
/-- DRN_STEP_k (R367). -/
def R.DRN_STEP (k : Nat) : Nat := 0x02400020 + 4 * (k - 1)
/-- DRN_UNRECOVERED (R367). -/
def R.DRN_UNRECOVERED : Nat := 0x0240003C
/-- DRN_RELOC (R367). -/
def R.DRN_RELOC : Nat := 0x02400040
/-- DRN_UNREAD (R367). -/
def R.DRN_UNREAD : Nat := 0x02400044
/-- DRN_DUE (R367). -/
def R.DRN_DUE : Nat := 0x02400048
/-- DRN_REWRITE (R367). -/
def R.DRN_REWRITE : Nat := 0x0240004C
/-- DRN_REWRITE_STATUS (R367). -/
def R.DRN_REWRITE_STATUS : Nat := 0x02400050
/-- DRN_EVENTS (R367). -/
def R.DRN_EVENTS : Nat := 0x02400054
/-- DRN_FAILOVER (R367). -/
def R.DRN_FAILOVER : Nat := 0x02400058
/-- MEM_CTRL (R382). -/
def R.MEM_CTRL : Nat := 0x03000000
/-- MEM_STATUS (R382). -/
def R.MEM_STATUS : Nat := 0x03000004
/-- MEM_THRESH (R382). -/
def R.MEM_THRESH : Nat := 0x03000008
/-- MEM_ERR_n (R382). -/
def R.MEM_ERR (n : Nat) : Nat := 0x03000010 + 4 * n
/-- MEM_PAGE_n (R382). -/
def R.MEM_PAGE (n : Nat) : Nat := 0x03000018 + 4 * n
/-- MEM_RETIRE_n (R382). -/
def R.MEM_RETIRE (n : Nat) : Nat := 0x03000020 + 4 * n
/-- MEM_REMAP_STATUS (R382). -/
def R.MEM_REMAP_STATUS : Nat := 0x03000028
/-- MEM_REMAP_SEL (R382). -/
def R.MEM_REMAP_SEL : Nat := 0x0300002C
/-- MEM_REMAP_ENTRY (R382). -/
def R.MEM_REMAP_ENTRY : Nat := 0x03000030
/-- MEM_LAST_ERR_LO (R382). -/
def R.MEM_LAST_ERR_LO : Nat := 0x03000034
/-- MEM_LAST_ERR_HI (R382). -/
def R.MEM_LAST_ERR_HI : Nat := 0x03000038
/-- MEM_EVENTS (R382). -/
def R.MEM_EVENTS : Nat := 0x0300003C
/-- MEM_TEST_n (R382). -/
def R.MEM_TEST (n : Nat) : Nat := 0x03000040 + 4 * n
/-- SRM_STATUS (R383). -/
def R.SRM_STATUS : Nat := 0x03100000
/-- SRM_ERR (R383). -/
def R.SRM_ERR : Nat := 0x03100004
/-- SRM_LAST_ERR (R383). -/
def R.SRM_LAST_ERR : Nat := 0x03100008
/-- SRM_EVENTS (R383). -/
def R.SRM_EVENTS : Nat := 0x0310000C
/-- TIR_STATUS (R406). -/
def R.TIR_STATUS : Nat := 0x04100000
/-- TIR_ALARM (R406). -/
def R.TIR_ALARM : Nat := 0x04100004
/-- TIR_SVN_SEL (R406). -/
def R.TIR_SVN_SEL : Nat := 0x04100008
/-- TIR_SVN_LO (R406). -/
def R.TIR_SVN_LO : Nat := 0x0410000C
/-- TIR_SVN_HI (R406). -/
def R.TIR_SVN_HI : Nat := 0x04100010
/-- TIR_MBX_n_CMD (R406). -/
def R.TIR_MBX_CMD (n : Nat) : Nat := 0x04100100 + 0x40 * n
/-- TIR_MBX_n_ARG_k (R406). -/
def R.TIR_MBX_ARG (n : Nat) (k : Nat) : Nat := 0x04100104 + 0x40 * n + 4 * k
/-- TIR_MBX_n_STATUS (R406). -/
def R.TIR_MBX_STATUS (n : Nat) : Nat := 0x04100124 + 0x40 * n
/-- TIR_MBX_n_RESP_k (R406). -/
def R.TIR_MBX_RESP (n : Nat) (k : Nat) : Nat := 0x04100128 + 0x40 * n + 4 * k
/-- CIP_CTRL (R430). -/
def R.CIP_CTRL : Nat := 0x04000000
/-- CIP_STATUS (R430). -/
def R.CIP_STATUS : Nat := 0x04000004
/-- CIP_HOOK_BIND (R430). -/
def R.CIP_HOOK_BIND : Nat := 0x04000008
/-- CIP_HOOK_ADDR (R430). -/
def R.CIP_HOOK_ADDR : Nat := 0x0400000C
/-- CIP_HOOK_DATA (R430). -/
def R.CIP_HOOK_DATA : Nat := 0x04000010
/-- CIP_HOOK_CRC (R430). -/
def R.CIP_HOOK_CRC : Nat := 0x04000014
/-- CIP_SLOT_SEL (R430). -/
def R.CIP_SLOT_SEL : Nat := 0x04000020
/-- CIP_SLOT_CFG (R430). -/
def R.CIP_SLOT_CFG : Nat := 0x04000024
/-- CIP_SLOT_BIND (R430). -/
def R.CIP_SLOT_BIND : Nat := 0x04000028
/-- CIP_SLOT_GEN (R430). -/
def R.CIP_SLOT_GEN : Nat := 0x0400002C
/-- CIP_SLOT_TAG (R430). -/
def R.CIP_SLOT_TAG : Nat := 0x04000030
/-- CIP_SLOT_USE_LO (R430). -/
def R.CIP_SLOT_USE_LO : Nat := 0x04000034
/-- CIP_SLOT_USE_HI (R430). -/
def R.CIP_SLOT_USE_HI : Nat := 0x04000038
/-- CIP_SLOT_CMD (R430). -/
def R.CIP_SLOT_CMD : Nat := 0x0400003C
/-- CIP_TESTKEY_k (R430). -/
def R.CIP_TESTKEY (k : Nat) : Nat := 0x04000040 + 4 * k
/-- CIP_TESTKEY_LOAD (R430). -/
def R.CIP_TESTKEY_LOAD : Nat := 0x04000080
/-- CIP_EVENTS (R430). -/
def R.CIP_EVENTS : Nat := 0x04000090
/-- CIP_COUNTS (R430). -/
def R.CIP_COUNTS : Nat := 0x04000094
/-- CIP_JOB_SRC (R430). -/
def R.CIP_JOB_SRC : Nat := 0x040000A0
/-- CIP_JOB_DST (R430). -/
def R.CIP_JOB_DST : Nat := 0x040000A4
/-- CIP_JOB_LEN (R430). -/
def R.CIP_JOB_LEN : Nat := 0x040000A8
/-- CIP_JOB_CTRL (R430). -/
def R.CIP_JOB_CTRL : Nat := 0x040000AC
/-- CIP_JOB_STATUS (R430). -/
def R.CIP_JOB_STATUS : Nat := 0x040000B0
/-- GAU_CMD (R440). -/
def R.GAU_CMD : Nat := 0x05000000
/-- GAU_STATUS (R440). -/
def R.GAU_STATUS : Nat := 0x05000004
/-- GAU_RAW (R440). -/
def R.GAU_RAW : Nat := 0x05000008
/-- GAU_CFG (R440). -/
def R.GAU_CFG : Nat := 0x0500000C
/-- GAU_CFG2 (R440). -/
def R.GAU_CFG2 : Nat := 0x05000010
/-- GAU_SWATCH (R440). -/
def R.GAU_SWATCH : Nat := 0x05000014
/-- GAU_TREF (R440). -/
def R.GAU_TREF : Nat := 0x05000018
/-- GAU_EVENTS (R440). -/
def R.GAU_EVENTS : Nat := 0x0500001C
/-- GAU_DRIFT (R440). -/
def R.GAU_DRIFT : Nat := 0x05000020
/-- GAU_ADC_n (R440). -/
def R.GAU_ADC (n : Nat) : Nat := 0x05000100 + 4 * n
/-- GAU_SKEW_n (R440). -/
def R.GAU_SKEW (n : Nat) : Nat := 0x05000120 + 4 * n
/-- GAU_RDR_a_h (R440). -/
def R.GAU_RDR (a : Nat) (h : Nat) : Nat := 0x05000200 + 0x40 * a + 4 * h
/-- GAU_ISENSE (R440). -/
def R.GAU_ISENSE : Nat := 0x05000300
/-- GAU_ISENSE_VCM (R440). -/
def R.GAU_ISENSE_VCM : Nat := 0x05000304
/-- GAU_TEMP (R440). -/
def R.GAU_TEMP : Nat := 0x05000308
/-- GAU_HEALTH_a_h (R440). -/
def R.GAU_HEALTH (a : Nat) (h : Nat) : Nat := 0x05000400 + 0x40 * a + 4 * h
/-- UPD_STATUS (R468). -/
def R.UPD_STATUS : Nat := 0x05100000
/-- UPD_CTRL (R468). -/
def R.UPD_CTRL : Nat := 0x05100004
/-- UPD_ERR (R468). -/
def R.UPD_ERR : Nat := 0x05100008
/-- UPD_PIECES (R468). -/
def R.UPD_PIECES : Nat := 0x0510000C
/-- UPD_TOTAL (R468). -/
def R.UPD_TOTAL : Nat := 0x05100010
/-- UPD_IDLE (R468). -/
def R.UPD_IDLE : Nat := 0x05100014
/-- UPD_HANDOVER (R468). -/
def R.UPD_HANDOVER : Nat := 0x05100018
/-- UPD_REC_ADDR (R468). -/
def R.UPD_REC_ADDR : Nat := 0x0510001C
/-- UPD_SEQ_LO (R468). -/
def R.UPD_SEQ_LO : Nat := 0x05100020
/-- UPD_SEQ_HI (R468). -/
def R.UPD_SEQ_HI : Nat := 0x05100024
/-- UPD_EVENTS (R468). -/
def R.UPD_EVENTS : Nat := 0x05100028
/-- UPD_DIGEST_n (R468). -/
def R.UPD_DIGEST (n : Nat) : Nat := 0x05100040 + 4 * n
/-- REC_STATUS (R488). -/
def R.REC_STATUS : Nat := 0x05200000
/-- REC_CTRL (R488). -/
def R.REC_CTRL : Nat := 0x05200004
/-- REC_NEXT (R488). -/
def R.REC_NEXT : Nat := 0x05200008
/-- REC_SEQ (R488). -/
def R.REC_SEQ : Nat := 0x0520000C
/-- REC_FILTER (R488). -/
def R.REC_FILTER : Nat := 0x05200010
/-- REC_SOURCES_LO (R488). -/
def R.REC_SOURCES_LO : Nat := 0x05200014
/-- REC_SOURCES_HI (R488). -/
def R.REC_SOURCES_HI : Nat := 0x05200018
/-- REC_LOST_n (R488). -/
def R.REC_LOST (n : Nat) : Nat := 0x05200020 + 4 * n
/-- REC_COAL_SEL (R488). -/
def R.REC_COAL_SEL : Nat := 0x05200040
/-- REC_COAL_VAL (R488). -/
def R.REC_COAL_VAL : Nat := 0x05200044
/-- REC_EVENTS (R488). -/
def R.REC_EVENTS : Nat := 0x05200048
/-- REC_ANCHOR_LO (R488). -/
def R.REC_ANCHOR_LO : Nat := 0x05200050
/-- REC_ANCHOR_HI (R488). -/
def R.REC_ANCHOR_HI : Nat := 0x05200054
/-- REC_FW_TYPE (R488). -/
def R.REC_FW_TYPE : Nat := 0x05200058
/-- REC_FW_PAYLOAD_k (R488). -/
def R.REC_FW_PAYLOAD (k : Nat) : Nat := 0x05200060 + 4 * k
/-- SNG_CTRL (R500). -/
def R.SNG_CTRL : Nat := 0x05300000
/-- SNG_STATUS (R500). -/
def R.SNG_STATUS : Nat := 0x05300004
/-- SNG_SEED (R500). -/
def R.SNG_SEED : Nat := 0x05300008
/-- SNG_COUNT (R500). -/
def R.SNG_COUNT : Nat := 0x0530000C
/-- SNG_EVENTS (R500). -/
def R.SNG_EVENTS : Nat := 0x05300010
/-- SNG_INJ_n_CFG (R500). -/
def R.SNG_INJ_CFG (n : Nat) : Nat := 0x05300100 + 16 * n
/-- SNG_INJ_n_TARGET (R500). -/
def R.SNG_INJ_TARGET (n : Nat) : Nat := 0x05300104 + 16 * n
/-- SNG_INJ_n_ADDR (R500). -/
def R.SNG_INJ_ADDR (n : Nat) : Nat := 0x05300108 + 16 * n
/-- SNG_INJ_n_COUNT (R500). -/
def R.SNG_INJ_COUNT (n : Nat) : Nat := 0x0530010C + 16 * n
/-- DBG_STATUS (R500). -/
def R.DBG_STATUS : Nat := 0x05400000
/-- DBG_CTRL (R500). -/
def R.DBG_CTRL : Nat := 0x05400004
/-- DBG_HALT (R500). -/
def R.DBG_HALT : Nat := 0x05400008
/-- DBG_EVENTS (R500). -/
def R.DBG_EVENTS : Nat := 0x0540000C
/-- DBG_UART_CTRL (R500). -/
def R.DBG_UART_CTRL : Nat := 0x05400010
/-- DBG_UART_TXD (R500). -/
def R.DBG_UART_TXD : Nat := 0x05400014
/-- DBG_UART_RXD (R500). -/
def R.DBG_UART_RXD : Nat := 0x05400018
/-- DBG_UART_STATUS (R500). -/
def R.DBG_UART_STATUS : Nat := 0x0540001C

/-! ### Fields -/

def F.SYS_CAP_LO_ACT_A : Fld := ⟨R.SYS_CAP_LO, 0, 1⟩
def F.SYS_CAP_LO_ACT_B : Fld := ⟨R.SYS_CAP_LO, 1, 1⟩
def F.SYS_CAP_LO_NDL_A : Fld := ⟨R.SYS_CAP_LO, 2, 1⟩
def F.SYS_CAP_LO_NDL_B : Fld := ⟨R.SYS_CAP_LO, 3, 1⟩
def F.SYS_CAP_LO_NDL_C : Fld := ⟨R.SYS_CAP_LO, 4, 1⟩
def F.SYS_CAP_LO_SLICE_PRESENT : Fld := ⟨R.SYS_CAP_LO, 5, 5⟩
def F.SYS_CAP_LO_ASSIST_LASER : Fld := ⟨R.SYS_CAP_LO, 10, 1⟩
def F.SYS_CAP_LO_ASSIST_STO : Fld := ⟨R.SYS_CAP_LO, 11, 1⟩
def F.SYS_CAP_LO_CIPHER : Fld := ⟨R.SYS_CAP_LO, 12, 1⟩
def F.SYS_CAP_LO_HOOK : Fld := ⟨R.SYS_CAP_LO, 13, 1⟩
def F.SYS_CAP_LO_TIRIUM : Fld := ⟨R.SYS_CAP_LO, 14, 1⟩
def F.SYS_CAP_LO_SPARE_PAIR : Fld := ⟨R.SYS_CAP_LO, 15, 1⟩
def F.SYS_CAP_LO_FRONT_PAIRS : Fld := ⟨R.SYS_CAP_LO, 16, 3⟩
def F.SYS_CAP_LO_MEDIA_PAIRS : Fld := ⟨R.SYS_CAP_LO, 19, 2⟩
def F.SYS_CAP_LO_SNAG : Fld := ⟨R.SYS_CAP_LO, 21, 1⟩
def F.SYS_CAP_HI_DEVICE_ID : Fld := ⟨R.SYS_CAP_HI, 0, 8⟩
def F.SYS_CAP_HI_VARIANT : Fld := ⟨R.SYS_CAP_HI, 8, 4⟩
def F.SYS_CAP_HI_N_SUFFIX : Fld := ⟨R.SYS_CAP_HI, 12, 1⟩
def F.SYS_CAP_HI_STEPPING : Fld := ⟨R.SYS_CAP_HI, 16, 8⟩
def F.SYS_PAIR_STATUS_FRONT_0 : Fld := ⟨R.SYS_PAIR_STATUS, 0, 4⟩
def F.SYS_PAIR_STATUS_FRONT_1 : Fld := ⟨R.SYS_PAIR_STATUS, 4, 4⟩
def F.SYS_PAIR_STATUS_FRONT_2 : Fld := ⟨R.SYS_PAIR_STATUS, 8, 4⟩
def F.SYS_PAIR_STATUS_MEDIA_0 : Fld := ⟨R.SYS_PAIR_STATUS, 12, 4⟩
def F.SYS_PAIR_STATUS_MEDIA_1 : Fld := ⟨R.SYS_PAIR_STATUS, 16, 4⟩
def F.SYS_PAIR_STATUS_SPARE : Fld := ⟨R.SYS_PAIR_STATUS, 20, 4⟩
def F.SYS_PAIR_STATUS_SPARE_FOR : Fld := ⟨R.SYS_PAIR_STATUS, 24, 4⟩
def F.ROWT_CTRL_MASTER : Fld := ⟨R.ROWT_CTRL, 0, 1⟩
def F.ROWT_CTRL_WEDGE_WIN : Fld := ⟨R.ROWT_CTRL, 4, 4⟩
def F.ROWT_CTRL_FLYWHEEL_MAX : Fld := ⟨R.ROWT_CTRL, 8, 4⟩
def F.ROWT_STATUS_SOURCE : Fld := ⟨R.ROWT_STATUS, 0, 2⟩
def F.ROWT_STATUS_LOCK_A : Fld := ⟨R.ROWT_STATUS, 2, 1⟩
def F.ROWT_STATUS_LOCK_B : Fld := ⟨R.ROWT_STATUS, 3, 1⟩
def F.ROWT_STATUS_GUARD : Fld := ⟨R.ROWT_STATUS, 4, 1⟩
def F.ROWT_STATUS_HANDOVER_PEND : Fld := ⟨R.ROWT_STATUS, 5, 1⟩
def F.ROWT_STATUS_OFFSET_VALID : Fld := ⟨R.ROWT_STATUS, 6, 1⟩
def F.ROWT_STATUS_EARLY_SEEN : Fld := ⟨R.ROWT_STATUS, 8, 1⟩
def F.ROWT_STATUS_FLYWHEEL_SEEN : Fld := ⟨R.ROWT_STATUS, 9, 1⟩
def F.ROWT_STATUS_IDLE_FALLBACK : Fld := ⟨R.ROWT_STATUS, 10, 1⟩
def F.ROWT_COUNT_LO_COUNT_LO : Fld := ⟨R.ROWT_COUNT_LO, 0, 32⟩
def F.ROWT_COUNT_HI_COUNT_HI : Fld := ⟨R.ROWT_COUNT_HI, 0, 32⟩
def F.ROWT_PERIOD_PERIOD_PS : Fld := ⟨R.ROWT_PERIOD, 0, 25⟩
def F.ROWT_IDLE_PERIOD_PERIOD_PS : Fld := ⟨R.ROWT_IDLE_PERIOD, 0, 25⟩
def F.ROWT_AB_OFFSET_OFFSET_NS : Fld := ⟨R.ROWT_AB_OFFSET, 0, 16⟩
def F.ROWT_FAULTS_MISSED_WEDGE : Fld := ⟨R.ROWT_FAULTS, 0, 16⟩
def F.ROWT_FAULTS_EARLY_BOUNDARY : Fld := ⟨R.ROWT_FAULTS, 16, 8⟩
def F.ROWT_FAULTS_IDLE_ENTRIES : Fld := ⟨R.ROWT_FAULTS, 24, 8⟩
def F.PAT_STATUS_STATE : Fld := ⟨R.PAT_STATUS, 0, 3⟩
def F.PAT_STATUS_LOCKED : Fld := ⟨R.PAT_STATUS, 3, 1⟩
def F.PAT_STATUS_LEGACY : Fld := ⟨R.PAT_STATUS, 4, 1⟩
def F.PAT_STATUS_RELOAD_BUSY : Fld := ⟨R.PAT_STATUS, 5, 1⟩
def F.PAT_STATUS_RELOAD_PEND : Fld := ⟨R.PAT_STATUS, 6, 1⟩
def F.PAT_STATUS_RELOAD_DONE : Fld := ⟨R.PAT_STATUS, 7, 1⟩
def F.PAT_STATUS_ERROR : Fld := ⟨R.PAT_STATUS, 8, 8⟩
def F.PAT_STATUS_RELOAD_ERR : Fld := ⟨R.PAT_STATUS, 16, 8⟩
def F.PAT_STATUS_ERROR_ALT : Fld := ⟨R.PAT_STATUS, 24, 8⟩
def F.PAT_CTRL_LOCK : Fld := ⟨R.PAT_CTRL, 0, 1⟩
def F.PAT_CTRL_RELOAD : Fld := ⟨R.PAT_CTRL, 1, 1⟩
def F.PAT_CTRL_CANCEL : Fld := ⟨R.PAT_CTRL, 2, 1⟩
def F.PAT_RELOAD_ADDR_ADDR : Fld := ⟨R.PAT_RELOAD_ADDR, 0, 32⟩
def F.PAT_ERR_LOC_PANEL : Fld := ⟨R.PAT_ERR_LOC, 0, 8⟩
def F.PAT_ERR_LOC_ENTRY : Fld := ⟨R.PAT_ERR_LOC, 16, 16⟩
def F.PAT_ID_ID : Fld := ⟨R.PAT_ID, 0, 32⟩
def F.PAT_SVN_LO_SVN_LO : Fld := ⟨R.PAT_SVN_LO, 0, 32⟩
def F.PAT_SVN_HI_SVN_HI : Fld := ⟨R.PAT_SVN_HI, 0, 32⟩
def F.PAT_GEOM_CRC_CRC : Fld := ⟨R.PAT_GEOM_CRC, 0, 32⟩
def F.PAT_DIGEST_DIGEST (n : Nat) : Fld := ⟨R.PAT_DIGEST n, 0, 32⟩
def F.PAT_RT_DIGEST_DIGEST (n : Nat) : Fld := ⟨R.PAT_RT_DIGEST n, 0, 32⟩
def F.SYS_BALL_FUNC_GPIO_FN : Fld := ⟨R.SYS_BALL_FUNC, 0, 2⟩
def F.SYS_BALL_FUNC_TRACE_FN : Fld := ⟨R.SYS_BALL_FUNC, 2, 2⟩
def F.SYS_BALL_FUNC_STATUS_FN : Fld := ⟨R.SYS_BALL_FUNC, 4, 2⟩
def F.SYS_BALL_FUNC_PORT1_SB_FN : Fld := ⟨R.SYS_BALL_FUNC, 6, 2⟩
def F.SYS_BALL_FUNC_SIDEBAND_FN : Fld := ⟨R.SYS_BALL_FUNC, 8, 2⟩
def F.SYS_GPIO_OUT_OUT : Fld := ⟨R.SYS_GPIO_OUT, 0, 23⟩
def F.SYS_GPIO_OE_OE : Fld := ⟨R.SYS_GPIO_OE, 0, 23⟩
def F.SYS_GPIO_IN_IN : Fld := ⟨R.SYS_GPIO_IN, 0, 23⟩
def F.PWR_STATUS_VIN12_OK : Fld := ⟨R.PWR_STATUS, 0, 1⟩
def F.PWR_STATUS_VIN5_OK : Fld := ⟨R.PWR_STATUS, 1, 1⟩
def F.PWR_STATUS_SW12_ON : Fld := ⟨R.PWR_STATUS, 2, 1⟩
def F.PWR_STATUS_SW5_ON : Fld := ⟨R.PWR_STATUS, 3, 1⟩
def F.PWR_STATUS_SPINUP_LIMITING : Fld := ⟨R.PWR_STATUS, 4, 1⟩
def F.PWR_STATUS_RAIL_PG : Fld := ⟨R.PWR_STATUS, 5, 6⟩
def F.PWR_CTRL_SPINUP_MA : Fld := ⟨R.PWR_CTRL, 0, 16⟩
def F.PWR_VIN_VIN12_MV : Fld := ⟨R.PWR_VIN, 0, 16⟩
def F.PWR_VIN_VIN5_MV : Fld := ⟨R.PWR_VIN, 16, 16⟩
def F.PWR_IIN_IIN12_MA : Fld := ⟨R.PWR_IIN, 0, 16⟩
def F.PWR_IIN_IIN5_MA : Fld := ⟨R.PWR_IIN, 16, 16⟩
def F.PWR_EVENTS_REV12 : Fld := ⟨R.PWR_EVENTS, 0, 1⟩
def F.PWR_EVENTS_REV5 : Fld := ⟨R.PWR_EVENTS, 1, 1⟩
def F.PWR_EVENTS_INRUSH_TIMEOUT : Fld := ⟨R.PWR_EVENTS, 2, 1⟩
def F.PWR_EVENTS_GLITCH : Fld := ⟨R.PWR_EVENTS, 3, 1⟩
def F.PWR_EVENTS_EARLY_LOSS : Fld := ⟨R.PWR_EVENTS, 4, 1⟩
def F.KEEP_MODEL_MIN_PCT : Fld := ⟨R.KEEP_MODEL, 0, 8⟩
def F.KEEP_MODEL_RESERVE_PCT : Fld := ⟨R.KEEP_MODEL, 8, 8⟩
def F.KEEP_MODEL_DIRTY_CEILING_MIB : Fld := ⟨R.KEEP_MODEL, 16, 10⟩
def F.KEEP_INERTIA_INERTIA : Fld := ⟨R.KEEP_INERTIA, 0, 24⟩
def F.KEEP_DRAG_DRAG_MW : Fld := ⟨R.KEEP_DRAG, 0, 16⟩
def F.KEEP_ENERGY_E_MECH_MJ : Fld := ⟨R.KEEP_ENERGY, 0, 20⟩
def F.KEEP_CEILING_ENERGY_MIB : Fld := ⟨R.KEEP_CEILING, 0, 10⟩
def F.KEEP_CEILING_EFFECTIVE_MIB : Fld := ⟨R.KEEP_CEILING, 16, 10⟩
def F.KEEP_DIRTY_PAGES : Fld := ⟨R.KEEP_DIRTY, 0, 18⟩
def F.KEEP_STATUS_EARLY_SAVE : Fld := ⟨R.KEEP_STATUS, 0, 1⟩
def F.KEEP_STATUS_ENERGY_HOLD : Fld := ⟨R.KEEP_STATUS, 1, 1⟩
def F.KEEP_STATUS_SAVE_PRESENT : Fld := ⟨R.KEEP_STATUS, 2, 1⟩
def F.KEEP_STATUS_RESTORE_LOSS : Fld := ⟨R.KEEP_STATUS, 3, 1⟩
def F.KEEP_PCC_COUNT : Fld := ⟨R.KEEP_PCC, 0, 32⟩
def F.KEEP_OPTIME_LO_MS_LO : Fld := ⟨R.KEEP_OPTIME_LO, 0, 32⟩
def F.KEEP_OPTIME_HI_MS_HI : Fld := ⟨R.KEEP_OPTIME_HI, 0, 32⟩
def F.KEEP_BO_LAST_RESULT : Fld := ⟨R.KEEP_BO_LAST, 0, 3⟩
def F.KEEP_BO_LAST_SAVED_MIB : Fld := ⟨R.KEEP_BO_LAST, 8, 10⟩
def F.KEEP_BO_LAST_END_SPEED_PCT : Fld := ⟨R.KEEP_BO_LAST, 24, 8⟩
def F.SYS_RST_CAUSE_LAST : Fld := ⟨R.SYS_RST_CAUSE, 0, 4⟩
def F.SYS_RST_CAUSE_WDOG_PAIR : Fld := ⟨R.SYS_RST_CAUSE, 8, 4⟩
def F.SYS_RST_CAUSE_WARM_COUNT : Fld := ⟨R.SYS_RST_CAUSE, 16, 16⟩
def F.SYS_RST_CTRL_WARM : Fld := ⟨R.SYS_RST_CTRL, 0, 1⟩
def F.SYS_RST_CTRL_RELEASE : Fld := ⟨R.SYS_RST_CTRL, 1, 1⟩
def F.SYS_RST_CTRL_KEY : Fld := ⟨R.SYS_RST_CTRL, 16, 16⟩
def F.SYS_WDOG_PERIOD : Fld := ⟨R.SYS_WDOG, 0, 16⟩
def F.SYS_WDOG_PAIRS : Fld := ⟨R.SYS_WDOG, 16, 5⟩
def F.SYS_WDOG_KICK_KICK : Fld := ⟨R.SYS_WDOG_KICK, 0, 5⟩
def F.SYS_CASTON_PHASE : Fld := ⟨R.SYS_CASTON, 0, 4⟩
def F.SYS_CASTON_HOST_READY : Fld := ⟨R.SYS_CASTON, 4, 1⟩
def F.SYS_CASTON_ERROR : Fld := ⟨R.SYS_CASTON, 8, 8⟩
def F.SYS_CASTON_TIME_MS : Fld := ⟨R.SYS_CASTON_TIME, 0, 32⟩
def F.SPN_CMD_START : Fld := ⟨R.SPN_CMD, 0, 1⟩
def F.SPN_CMD_STOP : Fld := ⟨R.SPN_CMD, 1, 1⟩
def F.SPN_CMD_COAST : Fld := ⟨R.SPN_CMD, 2, 1⟩
def F.SPN_CMD_CLEAR : Fld := ⟨R.SPN_CMD, 3, 1⟩
def F.SPN_STATUS_STATE : Fld := ⟨R.SPN_STATUS, 0, 4⟩
def F.SPN_STATUS_WRITE_OK : Fld := ⟨R.SPN_STATUS, 4, 1⟩
def F.SPN_STATUS_OBS_LOCK : Fld := ⟨R.SPN_STATUS, 5, 1⟩
def F.SPN_STATUS_SERVO_VALID : Fld := ⟨R.SPN_STATUS, 6, 1⟩
def F.SPN_STATUS_HOLD_MODE : Fld := ⟨R.SPN_STATUS, 7, 1⟩
def F.SPN_STATUS_FW_ACTIVE : Fld := ⟨R.SPN_STATUS, 8, 1⟩
def F.SPN_STATUS_START_PEND : Fld := ⟨R.SPN_STATUS, 9, 1⟩
def F.SPN_STATUS_COAST_CAUSE : Fld := ⟨R.SPN_STATUS, 10, 2⟩
def F.SPN_STATUS_RETRY : Fld := ⟨R.SPN_STATUS, 12, 2⟩
def F.SPN_STATUS_LOCK_CAUSE : Fld := ⟨R.SPN_STATUS, 14, 2⟩
def F.SPN_STATUS_CMD_ERR : Fld := ⟨R.SPN_STATUS, 16, 3⟩
def F.SPN_SPEED_RPM_X100 : Fld := ⟨R.SPN_SPEED, 0, 20⟩
def F.SPN_SPEED_REVERSE : Fld := ⟨R.SPN_SPEED, 20, 1⟩
def F.SPN_SPEED_SOURCE : Fld := ⟨R.SPN_SPEED, 21, 2⟩
def F.SPN_UNC_UNC : Fld := ⟨R.SPN_UNC, 0, 16⟩
def F.SPN_ANGLE_OBS : Fld := ⟨R.SPN_ANGLE, 0, 16⟩
def F.SPN_ANGLE_SERVO : Fld := ⟨R.SPN_ANGLE, 16, 16⟩
def F.SPN_CURRENT_IQ_MA : Fld := ⟨R.SPN_CURRENT, 0, 16⟩
def F.SPN_CURRENT_ID_MA : Fld := ⟨R.SPN_CURRENT, 16, 16⟩
def F.SPN_DRIVE_MARGIN : Fld := ⟨R.SPN_DRIVE, 0, 9⟩
def F.SPN_CTRL_WR_TOL : Fld := ⟨R.SPN_CTRL, 0, 8⟩
def F.SPN_CTRL_ALIGN_10MS : Fld := ⟨R.SPN_CTRL, 8, 8⟩
def F.SPN_CTRL_FORCED_ACC : Fld := ⟨R.SPN_CTRL, 16, 8⟩
def F.SPN_CTRL_AUTO_CATCH : Fld := ⟨R.SPN_CTRL, 24, 1⟩
def F.SPN_ILIM_PHASE_MA : Fld := ⟨R.SPN_ILIM, 0, 12⟩
def F.SPN_ILIM_BRAKE_MA : Fld := ⟨R.SPN_ILIM, 16, 12⟩
def F.SPN_FW_ID_MIN_MA : Fld := ⟨R.SPN_FW, 0, 12⟩
def F.SPN_MOTOR_0_R_MOHM : Fld := ⟨R.SPN_MOTOR_0, 0, 16⟩
def F.SPN_MOTOR_0_L_UH10 : Fld := ⟨R.SPN_MOTOR_0, 16, 16⟩
def F.SPN_MOTOR_1_PSI_UWB : Fld := ⟨R.SPN_MOTOR_1, 0, 16⟩
def F.SPN_SPEED_PI_KP : Fld := ⟨R.SPN_SPEED_PI, 0, 16⟩
def F.SPN_SPEED_PI_KI : Fld := ⟨R.SPN_SPEED_PI, 16, 16⟩
def F.SPN_CUR_PI_KP : Fld := ⟨R.SPN_CUR_PI, 0, 16⟩
def F.SPN_CUR_PI_KI : Fld := ⟨R.SPN_CUR_PI, 16, 16⟩
def F.SPN_SERVO_OFS_OFS : Fld := ⟨R.SPN_SERVO_OFS, 0, 16⟩
def F.SPN_SERVO_OFS_VALID : Fld := ⟨R.SPN_SERVO_OFS, 16, 1⟩
def F.SPN_EVENTS_EVENTS : Fld := ⟨R.SPN_EVENTS, 0, 10⟩
def F.SPN_EV_OBS_LOST : Fld := ⟨R.SPN_EVENTS, 0, 1⟩
def F.SPN_EV_HOLD_ENTRY : Fld := ⟨R.SPN_EVENTS, 1, 1⟩
def F.SPN_EV_RELOCK : Fld := ⟨R.SPN_EVENTS, 2, 1⟩
def F.SPN_EV_COAST_ENTRY : Fld := ⟨R.SPN_EVENTS, 3, 1⟩
def F.SPN_EV_LOCKED : Fld := ⟨R.SPN_EVENTS, 4, 1⟩
def F.SPN_EV_RETRY : Fld := ⟨R.SPN_EVENTS, 5, 1⟩
def F.SPN_EV_REVERSE_SEEN : Fld := ⟨R.SPN_EVENTS, 6, 1⟩
def F.SPN_EV_FW_ENTRY : Fld := ⟨R.SPN_EVENTS, 7, 1⟩
def F.SPN_EV_CMD_REFUSED : Fld := ⟨R.SPN_EVENTS, 8, 1⟩
def F.SPN_EV_WRITE_INHIBIT : Fld := ⟨R.SPN_EVENTS, 9, 1⟩
def F.SPN_COUNTS_HOLD_COUNT : Fld := ⟨R.SPN_COUNTS, 0, 16⟩
def F.SPN_COUNTS_COAST_COUNT : Fld := ⟨R.SPN_COUNTS, 16, 8⟩
def F.SPN_COUNTS_LOCKED_COUNT : Fld := ⟨R.SPN_COUNTS, 24, 8⟩
def F.SPN_SINE_ENTRY_EVEN (n : Nat) : Fld := ⟨R.SPN_SINE n, 0, 16⟩
def F.SPN_SINE_ENTRY_ODD (n : Nat) : Fld := ⟨R.SPN_SINE n, 16, 16⟩
def F.NDL_CTRL_MISS_MAX (i : Nat) : Fld := ⟨R.NDL_CTRL i, 0, 4⟩
def F.NDL_CTRL_HOLD_ROWS (i : Nat) : Fld := ⟨R.NDL_CTRL i, 8, 8⟩
def F.NDL_CTRL_PROFILE_FALLBACK (i : Nat) : Fld := ⟨R.NDL_CTRL i, 16, 1⟩
def F.NDL_CTRL_DISABLE (i : Nat) : Fld := ⟨R.NDL_CTRL i, 17, 1⟩
def F.NDL_STATUS_MODE (i : Nat) : Fld := ⟨R.NDL_STATUS i, 0, 3⟩
def F.NDL_STATUS_LOCK (i : Nat) : Fld := ⟨R.NDL_STATUS i, 3, 1⟩
def F.NDL_STATUS_POS_OK (i : Nat) : Fld := ⟨R.NDL_STATUS i, 4, 1⟩
def F.NDL_STATUS_ROLE (i : Nat) : Fld := ⟨R.NDL_STATUS i, 5, 3⟩
def F.NDL_STATUS_ACT (i : Nat) : Fld := ⟨R.NDL_STATUS i, 8, 2⟩
def F.NDL_STATUS_BANK (i : Nat) : Fld := ⟨R.NDL_STATUS i, 10, 1⟩
def F.NDL_STATUS_OVR_RUN (i : Nat) : Fld := ⟨R.NDL_STATUS i, 11, 2⟩
def F.NDL_STATUS_TRANSFER_PEND (i : Nat) : Fld := ⟨R.NDL_STATUS i, 13, 1⟩
def F.NDL_STATUS_HOLD_CMD (i : Nat) : Fld := ⟨R.NDL_STATUS i, 14, 1⟩
def F.NDL_FLAGS_FLAGS (i : Nat) : Fld := ⟨R.NDL_FLAGS i, 0, 9⟩
def F.NDL_FLAG_OVR (i : Nat) : Fld := ⟨R.NDL_FLAGS i, 0, 1⟩
def F.NDL_FLAG_MISS (i : Nat) : Fld := ⟨R.NDL_FLAGS i, 1, 1⟩
def F.NDL_FLAG_SAT (i : Nat) : Fld := ⟨R.NDL_FLAGS i, 2, 1⟩
def F.NDL_FLAG_MBX_REFUSED (i : Nat) : Fld := ⟨R.NDL_FLAGS i, 3, 1⟩
def F.NDL_FLAG_PROFILE_STEP (i : Nat) : Fld := ⟨R.NDL_FLAGS i, 4, 1⟩
def F.NDL_FLAG_PRESET_FAIL (i : Nat) : Fld := ⟨R.NDL_FLAGS i, 5, 1⟩
def F.NDL_FLAG_SETTLE_TIMEOUT (i : Nat) : Fld := ⟨R.NDL_FLAGS i, 6, 1⟩
def F.NDL_FLAG_DISABLE_REFUSED (i : Nat) : Fld := ⟨R.NDL_FLAGS i, 7, 1⟩
def F.NDL_FLAG_INT_CHECK (i : Nat) : Fld := ⟨R.NDL_FLAGS i, 8, 1⟩
def F.NDL_COUNTS_OVR_COUNT (i : Nat) : Fld := ⟨R.NDL_COUNTS i, 0, 16⟩
def F.NDL_COUNTS_MISS_COUNT (i : Nat) : Fld := ⟨R.NDL_COUNTS i, 16, 16⟩
def F.NDL_SP_POS_POS (i : Nat) : Fld := ⟨R.NDL_SP_POS i, 0, 32⟩
def F.NDL_SP_VEL_VEL (i : Nat) : Fld := ⟨R.NDL_SP_VEL i, 0, 32⟩
def F.NDL_SP_ACC_ACC (i : Nat) : Fld := ⟨R.NDL_SP_ACC i, 0, 32⟩
def F.NDL_TARGET_TARGET (i : Nat) : Fld := ⟨R.NDL_TARGET i, 0, 32⟩
def F.NDL_OFFSET_OFFSET (i : Nat) : Fld := ⟨R.NDL_OFFSET i, 0, 32⟩
def F.NDL_POSITION_POS (i : Nat) : Fld := ⟨R.NDL_POSITION i, 0, 32⟩
def F.NDL_ERR_ERR (i : Nat) : Fld := ⟨R.NDL_ERR i, 0, 32⟩
def F.NDL_OUT_VCM (i : Nat) : Fld := ⟨R.NDL_OUT i, 0, 16⟩
def F.NDL_OUT_MA (i : Nat) : Fld := ⟨R.NDL_OUT i, 16, 16⟩
def F.NDL_MANUAL_VCM (i : Nat) : Fld := ⟨R.NDL_MANUAL i, 0, 16⟩
def F.NDL_MANUAL_MA (i : Nat) : Fld := ⟨R.NDL_MANUAL i, 16, 16⟩
def F.NDL_SETTLE_WIN (i : Nat) : Fld := ⟨R.NDL_SETTLE i, 0, 16⟩
def F.NDL_SETTLE_ROWS (i : Nat) : Fld := ⟨R.NDL_SETTLE i, 16, 8⟩
def F.NDL_WRFAULT_THRESH (i : Nat) : Fld := ⟨R.NDL_WRFAULT i, 0, 16⟩
def F.NDL_TIMING_LAST_NS (i : Nat) : Fld := ⟨R.NDL_TIMING i, 0, 16⟩
def F.NDL_TIMING_WORST_NS (i : Nat) : Fld := ⟨R.NDL_TIMING i, 16, 16⟩
def F.NDL_GRAPH_COST (i : Nat) : Fld := ⟨R.NDL_GRAPH i, 0, 12⟩
def F.NDL_GRAPH_BLOCKS (i : Nat) : Fld := ⟨R.NDL_GRAPH i, 12, 7⟩
def F.NDL_UCODE_LEVEL_CUR (i : Nat) : Fld := ⟨R.NDL_UCODE i, 0, 16⟩
def F.NDL_UCODE_LEVEL_ALT (i : Nat) : Fld := ⟨R.NDL_UCODE i, 16, 16⟩
def F.NDL_BUMP_VCM_STEP (i : Nat) : Fld := ⟨R.NDL_BUMP i, 0, 16⟩
def F.NDL_BUMP_MA_STEP (i : Nat) : Fld := ⟨R.NDL_BUMP i, 16, 16⟩
def F.NDL_MBX_STATUS_CREDITS (i : Nat) : Fld := ⟨R.NDL_MBX_STATUS i, 0, 5⟩
def F.NDL_MBX_STATUS_LAST_RESULT (i : Nat) : Fld := ⟨R.NDL_MBX_STATUS i, 5, 3⟩
def F.NDL_MBX_STATUS_LAST_TAG (i : Nat) : Fld := ⟨R.NDL_MBX_STATUS i, 16, 16⟩
def F.NDL_MBX_W0_W0 (i : Nat) : Fld := ⟨R.NDL_MBX_W0 i, 0, 32⟩
def F.NDL_MBX_W1_W1 (i : Nat) : Fld := ⟨R.NDL_MBX_W1 i, 0, 32⟩
def F.NDL_MBX_PUSH_PUSH (i : Nat) : Fld := ⟨R.NDL_MBX_PUSH i, 0, 1⟩
def F.NDL_LIM_VMAX_VMAX (i : Nat) (n : Nat) : Fld := ⟨R.NDL_LIM_VMAX i n, 0, 32⟩
def F.NDL_LIM_AMAX_AMAX (i : Nat) (n : Nat) : Fld := ⟨R.NDL_LIM_AMAX i n, 0, 32⟩
def F.NDL_LIM_JMAX_JMAX (i : Nat) (n : Nat) : Fld := ⟨R.NDL_LIM_JMAX i n, 0, 32⟩
def F.NDL_SAT_LO_SAT (i : Nat) : Fld := ⟨R.NDL_SAT_LO i, 0, 32⟩
def F.NDL_SAT_HI_SAT (i : Nat) : Fld := ⟨R.NDL_SAT_HI i, 0, 32⟩
def F.ACT_CTRL_DISABLE (a : Nat) : Fld := ⟨R.ACT_CTRL a, 0, 1⟩
def F.ACT_CTRL_WG_INHIBIT (a : Nat) : Fld := ⟨R.ACT_CTRL a, 1, 1⟩
def F.ACT_CTRL_LINK_EN (a : Nat) : Fld := ⟨R.ACT_CTRL a, 2, 1⟩
def F.ACT_CTRL_HEAD_REQ (a : Nat) : Fld := ⟨R.ACT_CTRL a, 4, 4⟩
def F.ACT_CMD_LOAD (a : Nat) : Fld := ⟨R.ACT_CMD a, 0, 1⟩
def F.ACT_CMD_UNLOAD (a : Nat) : Fld := ⟨R.ACT_CMD a, 1, 1⟩
def F.ACT_CMD_ERETRACT (a : Nat) : Fld := ⟨R.ACT_CMD a, 2, 1⟩
def F.ACT_CMD_LINK_CLEAR (a : Nat) : Fld := ⟨R.ACT_CMD a, 3, 1⟩
def F.ACT_STATUS_LOAD_STATE (a : Nat) : Fld := ⟨R.ACT_STATUS a, 0, 3⟩
def F.ACT_STATUS_WG (a : Nat) : Fld := ⟨R.ACT_STATUS a, 3, 1⟩
def F.ACT_STATUS_AEN (a : Nat) : Fld := ⟨R.ACT_STATUS a, 4, 1⟩
def F.ACT_STATUS_HEAD (a : Nat) : Fld := ⟨R.ACT_STATUS a, 5, 4⟩
def F.ACT_STATUS_LINK_FAULT (a : Nat) : Fld := ⟨R.ACT_STATUS a, 9, 1⟩
def F.ACT_STATUS_CMD_ERR (a : Nat) : Fld := ⟨R.ACT_STATUS a, 10, 3⟩
def F.ACT_STATUS_RETRACT_CAUSE (a : Nat) : Fld := ⟨R.ACT_STATUS a, 13, 3⟩
def F.ACT_WSTOP_STOP (a : Nat) : Fld := ⟨R.ACT_WSTOP a, 0, 11⟩
def F.ACT_EVENTS_EVENTS (a : Nat) : Fld := ⟨R.ACT_EVENTS a, 0, 10⟩
def F.ACT_EV_LOAD_DONE (a : Nat) : Fld := ⟨R.ACT_EVENTS a, 0, 1⟩
def F.ACT_EV_LOAD_FAIL (a : Nat) : Fld := ⟨R.ACT_EVENTS a, 1, 1⟩
def F.ACT_EV_UNLOAD_DONE (a : Nat) : Fld := ⟨R.ACT_EVENTS a, 2, 1⟩
def F.ACT_EV_RETRACT_DONE (a : Nat) : Fld := ⟨R.ACT_EVENTS a, 3, 1⟩
def F.ACT_EV_LASER_CUT (a : Nat) : Fld := ⟨R.ACT_EVENTS a, 4, 1⟩
def F.ACT_EV_LINK_FAULT (a : Nat) : Fld := ⟨R.ACT_EVENTS a, 5, 1⟩
def F.ACT_EV_PREAMP_FAULT (a : Nat) : Fld := ⟨R.ACT_EVENTS a, 6, 1⟩
def F.ACT_EV_CMD_REFUSED (a : Nat) : Fld := ⟨R.ACT_EVENTS a, 7, 1⟩
def F.ACT_EV_DISABLE_REFUSED (a : Nat) : Fld := ⟨R.ACT_EVENTS a, 8, 1⟩
def F.ACT_EV_WG_DROPPED (a : Nat) : Fld := ⟨R.ACT_EVENTS a, 9, 1⟩
def F.ACT_COUNTS_LASER_CUTS (a : Nat) : Fld := ⟨R.ACT_COUNTS a, 0, 16⟩
def F.ACT_COUNTS_LINK_RETRIES (a : Nat) : Fld := ⟨R.ACT_COUNTS a, 16, 8⟩
def F.ACT_COUNTS_ERETRACTS (a : Nat) : Fld := ⟨R.ACT_COUNTS a, 24, 8⟩
def F.ACT_VCM_LIM_MA (a : Nat) : Fld := ⟨R.ACT_VCM a, 0, 11⟩
def F.ACT_VCM_RET_MA (a : Nat) : Fld := ⟨R.ACT_VCM a, 16, 11⟩
def F.ACT_MA_LIM_DV (a : Nat) : Fld := ⟨R.ACT_MA a, 0, 7⟩
def F.ACT_LOAD_LOAD_MV (a : Nat) : Fld := ⟨R.ACT_LOAD a, 0, 16⟩
def F.ACT_LOAD_UNLOAD_MV (a : Nat) : Fld := ⟨R.ACT_LOAD a, 16, 16⟩
def F.ACT_TIMING_HEAD_SETTLE (a : Nat) : Fld := ⟨R.ACT_TIMING a, 0, 8⟩
def F.ACT_TIMING_PREHEAT_ROWS (a : Nat) : Fld := ⟨R.ACT_TIMING a, 8, 8⟩
def F.ACT_TIMING_AEN_LEAD (a : Nat) : Fld := ⟨R.ACT_TIMING a, 16, 8⟩
def F.ACT_TIMING_LOAD_TIMEOUT (a : Nat) : Fld := ⟨R.ACT_TIMING a, 24, 8⟩
def F.ACT_COIL_R_MOHM (a : Nat) : Fld := ⟨R.ACT_COIL a, 0, 16⟩
def F.ACT_COIL_RET_MV (a : Nat) : Fld := ⟨R.ACT_COIL a, 16, 16⟩
def F.ACT_PAMAP_STATUS_ADDR (a : Nat) : Fld := ⟨R.ACT_PAMAP a, 0, 8⟩
def F.ACT_PAMAP_HEAD_ADDR (a : Nat) : Fld := ⟨R.ACT_PAMAP a, 8, 8⟩
def F.ACT_PAMAP_HEATER_ADDR (a : Nat) : Fld := ⟨R.ACT_PAMAP a, 16, 8⟩
def F.ACT_PAMAP_ASSIST_ADDR (a : Nat) : Fld := ⟨R.ACT_PAMAP a, 24, 8⟩
def F.ACT_PAFAULT_FAULT_MASK (a : Nat) : Fld := ⟨R.ACT_PAFAULT a, 0, 16⟩
def F.ACT_PAFAULT_HEAD_TPL (a : Nat) : Fld := ⟨R.ACT_PAFAULT a, 16, 16⟩
def F.ACT_LINK_CMD_ADDR (a : Nat) : Fld := ⟨R.ACT_LINK_CMD a, 0, 8⟩
def F.ACT_LINK_CMD_RW (a : Nat) : Fld := ⟨R.ACT_LINK_CMD a, 8, 1⟩
def F.ACT_LINK_CMD_GO (a : Nat) : Fld := ⟨R.ACT_LINK_CMD a, 9, 1⟩
def F.ACT_LINK_CMD_DATA (a : Nat) : Fld := ⟨R.ACT_LINK_CMD a, 16, 16⟩
def F.ACT_LINK_RESP_DATA (a : Nat) : Fld := ⟨R.ACT_LINK_RESP a, 0, 16⟩
def F.ACT_LINK_RESP_STATUS (a : Nat) : Fld := ⟨R.ACT_LINK_RESP a, 16, 8⟩
def F.ACT_LINK_RESP_DONE (a : Nat) : Fld := ⟨R.ACT_LINK_RESP a, 24, 1⟩
def F.ACT_LINK_RESP_ERR (a : Nat) : Fld := ⟨R.ACT_LINK_RESP a, 25, 1⟩
def F.ACT_LASER_ACC_ENERGY (a : Nat) : Fld := ⟨R.ACT_LASER_ACC a, 0, 16⟩
def F.ACT_LASER_ACC_HEAD (a : Nat) : Fld := ⟨R.ACT_LASER_ACC a, 16, 4⟩
def F.ACT_HEAD_HEAT_RD (a : Nat) (h : Nat) : Fld := ⟨R.ACT_HEAD_HEAT a h, 0, 16⟩
def F.ACT_HEAD_HEAT_WR (a : Nat) (h : Nat) : Fld := ⟨R.ACT_HEAD_HEAT a h, 16, 16⟩
def F.ACT_HEAD_ASSIST_CODE (a : Nat) (h : Nat) : Fld := ⟨R.ACT_HEAD_ASSIST a h, 0, 16⟩
def F.ACT_HEAD_ASSIST_MW (a : Nat) (h : Nat) : Fld := ⟨R.ACT_HEAD_ASSIST a h, 16, 12⟩
def F.ACT_HEAD_LLIM_LIMIT (a : Nat) (h : Nat) : Fld := ⟨R.ACT_HEAD_LLIM a h, 0, 16⟩
def F.ACT_LASER_FUSE_CEILING : Fld := ⟨R.ACT_LASER_FUSE, 0, 16⟩
def F.SLC_CTRL_DISABLE (i : Nat) : Fld := ⟨R.SLC_CTRL i, 0, 1⟩
def F.SLC_CTRL_FIR_ADAPT (i : Nat) : Fld := ⟨R.SLC_CTRL i, 1, 1⟩
def F.SLC_STATUS_ROLE (i : Nat) : Fld := ⟨R.SLC_STATUS i, 0, 3⟩
def F.SLC_STATUS_ACT (i : Nat) : Fld := ⟨R.SLC_STATUS i, 3, 2⟩
def F.SLC_STATUS_POSITION (i : Nat) : Fld := ⟨R.SLC_STATUS i, 5, 1⟩
def F.SLC_STATUS_MODE (i : Nat) : Fld := ⟨R.SLC_STATUS i, 6, 2⟩
def F.SLC_STATUS_FOR_SLICE (i : Nat) : Fld := ⟨R.SLC_STATUS i, 8, 3⟩
def F.SLC_STATUS_PINNED (i : Nat) : Fld := ⟨R.SLC_STATUS i, 11, 4⟩
def F.SLC_STATUS_FAULT_CAUSE (i : Nat) : Fld := ⟨R.SLC_STATUS i, 15, 3⟩
def F.SLC_STATUS_RECOV_BUSY (i : Nat) : Fld := ⟨R.SLC_STATUS i, 18, 1⟩
def F.SLC_MARK_WIN (i : Nat) : Fld := ⟨R.SLC_MARK i, 0, 6⟩
def F.SLC_MARK_TOL (i : Nat) : Fld := ⟨R.SLC_MARK i, 8, 4⟩
def F.SLC_TENSION_GAIN_MU (i : Nat) : Fld := ⟨R.SLC_TENSION i, 0, 4⟩
def F.SLC_TENSION_BASE_MU (i : Nat) : Fld := ⟨R.SLC_TENSION i, 4, 4⟩
def F.SLC_TENSION_ASYM_MU (i : Nat) : Fld := ⟨R.SLC_TENSION i, 8, 4⟩
def F.SLC_TENSION_ACQ_SHIFT (i : Nat) : Fld := ⟨R.SLC_TENSION i, 12, 4⟩
def F.SLC_DEFECT_LO_PCT (i : Nat) : Fld := ⟨R.SLC_DEFECT i, 0, 8⟩
def F.SLC_DEFECT_HI_PCT (i : Nat) : Fld := ⟨R.SLC_DEFECT i, 8, 8⟩
def F.SLC_DEFECT_BASE_JUMP (i : Nat) : Fld := ⟨R.SLC_DEFECT i, 16, 8⟩
def F.SLC_DEFECT_ERASE (i : Nat) : Fld := ⟨R.SLC_DEFECT i, 24, 1⟩
def F.SLC_LDPC_INLINE_ITER (i : Nat) : Fld := ⟨R.SLC_LDPC i, 0, 5⟩
def F.SLC_LDPC_RECOV_ITER (i : Nat) : Fld := ⟨R.SLC_LDPC i, 8, 8⟩
def F.SLC_VERIFY_MAX_ITER (i : Nat) : Fld := ⟨R.SLC_VERIFY i, 0, 5⟩
def F.SLC_VERIFY_RESTITCH_MAX (i : Nat) : Fld := ⟨R.SLC_VERIFY i, 8, 3⟩
def F.SLC_TWIN_MASK_MASK (i : Nat) : Fld := ⟨R.SLC_TWIN_MASK i, 0, 10⟩
def F.SLC_EVENTS_EVENTS (i : Nat) : Fld := ⟨R.SLC_EVENTS i, 0, 9⟩
def F.SLC_EV_DECODE_FAIL (i : Nat) : Fld := ⟨R.SLC_EVENTS i, 0, 1⟩
def F.SLC_EV_FALLBACK_OK (i : Nat) : Fld := ⟨R.SLC_EVENTS i, 1, 1⟩
def F.SLC_EV_PIN_FULL (i : Nat) : Fld := ⟨R.SLC_EVENTS i, 2, 1⟩
def F.SLC_EV_VERIFY_FAIL (i : Nat) : Fld := ⟨R.SLC_EVENTS i, 3, 1⟩
def F.SLC_EV_RESTITCH_EXHAUSTED (i : Nat) : Fld := ⟨R.SLC_EVENTS i, 4, 1⟩
def F.SLC_EV_DEFECT (i : Nat) : Fld := ⟨R.SLC_EVENTS i, 5, 1⟩
def F.SLC_EV_TAG_MISMATCH (i : Nat) : Fld := ⟨R.SLC_EVENTS i, 6, 1⟩
def F.SLC_EV_FAULT (i : Nat) : Fld := ⟨R.SLC_EVENTS i, 7, 1⟩
def F.SLC_EV_DISABLE_DONE (i : Nat) : Fld := ⟨R.SLC_EVENTS i, 8, 1⟩
def F.SLC_DROP_A_MISS (i : Nat) : Fld := ⟨R.SLC_DROP i, 0, 8⟩
def F.SLC_DROP_B_MISS (i : Nat) : Fld := ⟨R.SLC_DROP i, 8, 8⟩
def F.SLC_DROP_SPACING (i : Nat) : Fld := ⟨R.SLC_DROP i, 16, 8⟩
def F.SLC_DROP_REFRAME (i : Nat) : Fld := ⟨R.SLC_DROP i, 24, 8⟩
def F.SLC_DROP_TOTAL_TOTAL (i : Nat) : Fld := ⟨R.SLC_DROP_TOTAL i, 0, 32⟩
def F.SLC_DECODE_FAILS (i : Nat) : Fld := ⟨R.SLC_DECODE i, 0, 16⟩
def F.SLC_DECODE_FALLBACK_OK (i : Nat) : Fld := ⟨R.SLC_DECODE i, 16, 16⟩
def F.SLC_RECOV_CMD_SLOT (i : Nat) : Fld := ⟨R.SLC_RECOV_CMD i, 0, 6⟩
def F.SLC_RECOV_CMD_OP (i : Nat) : Fld := ⟨R.SLC_RECOV_CMD i, 8, 2⟩
def F.SLC_RECOV_CMD_SPAN (i : Nat) : Fld := ⟨R.SLC_RECOV_CMD i, 12, 4⟩
def F.SLC_RECOV_CMD_ITER (i : Nat) : Fld := ⟨R.SLC_RECOV_CMD i, 16, 8⟩
def F.SLC_RECOV_CMD_GO (i : Nat) : Fld := ⟨R.SLC_RECOV_CMD i, 31, 1⟩
def F.SLC_RECOV_STATUS_BUSY (i : Nat) : Fld := ⟨R.SLC_RECOV_STATUS i, 0, 1⟩
def F.SLC_RECOV_STATUS_DONE (i : Nat) : Fld := ⟨R.SLC_RECOV_STATUS i, 1, 1⟩
def F.SLC_RECOV_STATUS_OK (i : Nat) : Fld := ⟨R.SLC_RECOV_STATUS i, 2, 1⟩
def F.SLC_RECOV_STATUS_OFFSET (i : Nat) : Fld := ⟨R.SLC_RECOV_STATUS i, 8, 8⟩
def F.SLC_RECOV_STATUS_ITER_USED (i : Nat) : Fld := ⟨R.SLC_RECOV_STATUS i, 16, 8⟩
def F.SLC_RECOV_STATUS_READS (i : Nat) : Fld := ⟨R.SLC_RECOV_STATUS i, 24, 3⟩
def F.SLC_PIN_LO_PIN (i : Nat) : Fld := ⟨R.SLC_PIN_LO i, 0, 32⟩
def F.SLC_PIN_HI_PIN (i : Nat) : Fld := ⟨R.SLC_PIN_HI i, 0, 10⟩
def F.SLC_HEAD_VLAG_NS (i : Nat) (h : Nat) : Fld := ⟨R.SLC_HEAD i h, 0, 16⟩
def F.SLC_HEAD_RLAG_NS (i : Nat) (h : Nat) : Fld := ⟨R.SLC_HEAD i h, 16, 16⟩
def F.SLC_FIR_TAP_EVEN (i : Nat) (k : Nat) : Fld := ⟨R.SLC_FIR i k, 0, 16⟩
def F.SLC_FIR_TAP_ODD (i : Nat) (k : Nat) : Fld := ⟨R.SLC_FIR i k, 16, 16⟩
def F.FMT_ZONE_SEL_ZONE : Fld := ⟨R.FMT_ZONE_SEL, 0, 19⟩
def F.FMT_ZONE_DESC_DESC (n : Nat) : Fld := ⟨R.FMT_ZONE_DESC n, 0, 32⟩
def F.FMT_ZONE_PLACE_FIRST_TRACK : Fld := ⟨R.FMT_ZONE_PLACE, 0, 24⟩
def F.FMT_ZONE_PLACE_HEAD : Fld := ⟨R.FMT_ZONE_PLACE, 24, 4⟩
def F.FMT_ZONE_PLACE_ACT : Fld := ⟨R.FMT_ZONE_PLACE, 28, 1⟩
def F.FMT_ZONE_SHAPE_SPT : Fld := ⟨R.FMT_ZONE_SHAPE, 0, 11⟩
def F.FMT_ZONE_SHAPE_GROUPS : Fld := ⟨R.FMT_ZONE_SHAPE, 11, 11⟩
def F.FMT_ZONE_SHAPE_TRACKS : Fld := ⟨R.FMT_ZONE_SHAPE, 22, 10⟩
def F.FMT_TOTALS_ZONES : Fld := ⟨R.FMT_TOTALS, 0, 19⟩
def F.FMT_PARITY_RECON : Fld := ⟨R.FMT_PARITY, 0, 16⟩
def F.FMT_PARITY_NOPARITY : Fld := ⟨R.FMT_PARITY, 16, 16⟩
def F.STM_CTRL_CKPT_PAGES : Fld := ⟨R.STM_CTRL, 0, 16⟩
def F.STM_CTRL_LOW_LEAVES : Fld := ⟨R.STM_CTRL, 16, 8⟩
def F.STM_CTRL_CKPT_REQ : Fld := ⟨R.STM_CTRL, 24, 1⟩
def F.STM_STATUS_READY : Fld := ⟨R.STM_STATUS, 0, 1⟩
def F.STM_STATUS_REBUILDING : Fld := ⟨R.STM_STATUS, 1, 1⟩
def F.STM_STATUS_FULL : Fld := ⟨R.STM_STATUS, 2, 1⟩
def F.STM_STATUS_CKPT_BUSY : Fld := ⟨R.STM_STATUS, 3, 1⟩
def F.STM_STATUS_CKPT_SLOT : Fld := ⟨R.STM_STATUS, 4, 1⟩
def F.STM_USAGE_ENTRIES : Fld := ⟨R.STM_USAGE, 0, 23⟩
def F.STM_LEAVES_FREE : Fld := ⟨R.STM_LEAVES, 0, 15⟩
def F.STM_CACHE_HIT_HITS : Fld := ⟨R.STM_CACHE_HIT, 0, 32⟩
def F.STM_CACHE_MISS_MISSES : Fld := ⟨R.STM_CACHE_MISS, 0, 32⟩
def F.STM_JOURNAL_PENDING_KIB : Fld := ⟨R.STM_JOURNAL, 0, 12⟩
def F.STM_JSEQ_LO_SEQ_LO : Fld := ⟨R.STM_JSEQ_LO, 0, 32⟩
def F.STM_JSEQ_HI_SEQ_HI : Fld := ⟨R.STM_JSEQ_HI, 0, 32⟩
def F.STM_EVENTS_EVENTS : Fld := ⟨R.STM_EVENTS, 0, 5⟩
def F.STM_EV_FULL_ENTERED : Fld := ⟨R.STM_EVENTS, 0, 1⟩
def F.STM_EV_RESERVE_OUT : Fld := ⟨R.STM_EVENTS, 1, 1⟩
def F.STM_EV_REPLAY_GAP : Fld := ⟨R.STM_EVENTS, 2, 1⟩
def F.STM_EV_STALE_REFUSED : Fld := ⟨R.STM_EVENTS, 3, 1⟩
def F.STM_EV_LEAF_REBUILD : Fld := ⟨R.STM_EVENTS, 4, 1⟩
def F.HIF_PORT_STATUS_LINK_UP (n : Nat) : Fld := ⟨R.HIF_PORT_STATUS n, 0, 1⟩
def F.HIF_PORT_STATUS_SPEED (n : Nat) : Fld := ⟨R.HIF_PORT_STATUS n, 1, 3⟩
def F.HIF_PORT_STATUS_WIDTH (n : Nat) : Fld := ⟨R.HIF_PORT_STATUS n, 4, 3⟩
def F.HIF_PORT_STATUS_PERST (n : Nat) : Fld := ⟨R.HIF_PORT_STATUS n, 7, 1⟩
def F.HIF_PORT_STATUS_NUMVFS (n : Nat) : Fld := ⟨R.HIF_PORT_STATUS n, 8, 5⟩
def F.HIF_PORT_ERR_CORR (n : Nat) : Fld := ⟨R.HIF_PORT_ERR n, 0, 16⟩
def F.HIF_PORT_ERR_UNCORR (n : Nat) : Fld := ⟨R.HIF_PORT_ERR n, 16, 16⟩
def F.HIF_CFS_CFS : Fld := ⟨R.HIF_CFS, 0, 32⟩
def F.HIF_CTRL_EXIST_EXIST : Fld := ⟨R.HIF_CTRL_EXIST, 0, 32⟩
def F.HIF_CTRL_RDY_RDY : Fld := ⟨R.HIF_CTRL_RDY, 0, 32⟩
def F.HIF_AEN_MASK_MASK : Fld := ⟨R.HIF_AEN_MASK, 0, 32⟩
def F.HIF_AEN_POST_INFO : Fld := ⟨R.HIF_AEN_POST, 0, 8⟩
def F.HIF_AEN_POST_TYPE : Fld := ⟨R.HIF_AEN_POST, 8, 3⟩
def F.HIF_AEN_POST_GO : Fld := ⟨R.HIF_AEN_POST, 31, 1⟩
def F.HIF_SB_STATUS_EID : Fld := ⟨R.HIF_SB_STATUS, 0, 8⟩
def F.HIF_SB_STATUS_I3C : Fld := ⟨R.HIF_SB_STATUS, 8, 1⟩
def F.HIF_SB_STATUS_DROPPED : Fld := ⟨R.HIF_SB_STATUS, 16, 16⟩
def F.QUE_SKEIN_SEL_SKEIN : Fld := ⟨R.QUE_SKEIN_SEL, 0, 5⟩
def F.QUE_SKEIN_SQ_SQ_BASE : Fld := ⟨R.QUE_SKEIN_SQ, 0, 12⟩
def F.QUE_SKEIN_SQ_SQ_COUNT : Fld := ⟨R.QUE_SKEIN_SQ, 12, 13⟩
def F.QUE_SKEIN_CQ_CQ_BASE : Fld := ⟨R.QUE_SKEIN_CQ, 0, 12⟩
def F.QUE_SKEIN_CQ_CQ_COUNT : Fld := ⟨R.QUE_SKEIN_CQ, 12, 13⟩
def F.QUE_SKEIN_LIVE_SQ_LIVE : Fld := ⟨R.QUE_SKEIN_LIVE, 0, 13⟩
def F.QUE_SKEIN_LIVE_CQ_LIVE : Fld := ⟨R.QUE_SKEIN_LIVE, 16, 13⟩
def F.QUE_SKEIN_SLOTS_INFLIGHT : Fld := ⟨R.QUE_SKEIN_SLOTS, 0, 16⟩
def F.QUE_SKEIN_SLOTS_URGENT : Fld := ⟨R.QUE_SKEIN_SLOTS, 16, 16⟩
def F.QUE_SLOTS_FREE : Fld := ⟨R.QUE_SLOTS, 0, 16⟩
def F.QUE_FETCH_HOLD_HOLD : Fld := ⟨R.QUE_FETCH_HOLD, 0, 32⟩
def F.QUE_RING_SEL_RING : Fld := ⟨R.QUE_RING_SEL, 0, 13⟩
def F.QUE_RING_STATE_HEAD : Fld := ⟨R.QUE_RING_STATE, 0, 16⟩
def F.QUE_RING_STATE_TAIL : Fld := ⟨R.QUE_RING_STATE, 16, 16⟩
def F.QUE_RING_CFG_SIZE : Fld := ⟨R.QUE_RING_CFG, 0, 14⟩
def F.QUE_RING_CFG_VALID : Fld := ⟨R.QUE_RING_CFG, 14, 1⟩
def F.QUE_RING_CFG_QPRIO : Fld := ⟨R.QUE_RING_CFG, 15, 2⟩
def F.QUE_RING_CFG_LINK : Fld := ⟨R.QUE_RING_CFG, 17, 12⟩
def F.SCH_CTRL_AGE_WEIGHT (n : Nat) : Fld := ⟨R.SCH_CTRL n, 0, 8⟩
def F.SCH_CTRL_ZERO_LAT (n : Nat) : Fld := ⟨R.SCH_CTRL n, 8, 1⟩
def F.SCH_CTRL_PREEMPT (n : Nat) : Fld := ⟨R.SCH_CTRL n, 9, 1⟩
def F.SCH_SETTLE_SETTLE_US (n : Nat) : Fld := ⟨R.SCH_SETTLE n, 0, 16⟩
def F.SCH_SETTLE_HEAD_SWITCH_US (n : Nat) : Fld := ⟨R.SCH_SETTLE n, 16, 16⟩
def F.SCH_WINDOW_OPS (n : Nat) : Fld := ⟨R.SCH_WINDOW n, 0, 14⟩
def F.SCH_WINDOW_URGENT (n : Nat) : Fld := ⟨R.SCH_WINDOW n, 16, 14⟩
def F.SCH_BEST_INDEX (n : Nat) : Fld := ⟨R.SCH_BEST n, 0, 13⟩
def F.SCH_BEST_VALID (n : Nat) : Fld := ⟨R.SCH_BEST n, 13, 1⟩
def F.SCH_BEST_URGENT (n : Nat) : Fld := ⟨R.SCH_BEST n, 14, 1⟩
def F.SCH_BEST_COST_US (n : Nat) : Fld := ⟨R.SCH_BEST n, 15, 17⟩
def F.SCH_PICKS_PICKS (n : Nat) : Fld := ⟨R.SCH_PICKS n, 0, 32⟩
def F.SCH_EVALS_EVALS (n : Nat) : Fld := ⟨R.SCH_EVALS n, 0, 16⟩
def F.SCH_EVALS_PREEMPTS (n : Nat) : Fld := ⟨R.SCH_EVALS n, 16, 16⟩
def F.SCH_SEEK_DIST_X64 (n : Nat) (k : Nat) : Fld := ⟨R.SCH_SEEK n k, 0, 16⟩
def F.SCH_SEEK_TIME_US (n : Nat) (k : Nat) : Fld := ⟨R.SCH_SEEK n k, 16, 16⟩
def F.SCH_SLOT_CFG_URGENT_POOL : Fld := ⟨R.SCH_SLOT_CFG, 0, 12⟩
def F.SCH_SLOT_CFG_CTRL_RESERVE : Fld := ⟨R.SCH_SLOT_CFG, 12, 8⟩
def F.SCH_SLOT_DIRTY_DIRTY_MAX : Fld := ⟨R.SCH_SLOT_DIRTY, 0, 16⟩
def F.SCH_SLOT_DIRTY_IN_USE : Fld := ⟨R.SCH_SLOT_DIRTY, 16, 16⟩
def F.ORD_LEDGER_STATUS_LEDGER_FAULT : Fld := ⟨R.ORD_LEDGER_STATUS, 0, 1⟩
def F.ORD_LEDGER_STATUS_WRITE_HOLD : Fld := ⟨R.ORD_LEDGER_STATUS, 1, 1⟩
def F.ORD_LEDGER_STATUS_RECOUNT_PEND : Fld := ⟨R.ORD_LEDGER_STATUS, 2, 1⟩
def F.ORD_LEDGER_STATUS_RELEASE_PEND : Fld := ⟨R.ORD_LEDGER_STATUS, 3, 1⟩
def F.ORD_LEDGER_STATUS_FAULT_ROWS : Fld := ⟨R.ORD_LEDGER_STATUS, 8, 8⟩
def F.ORD_LEDGER_CTRL_RECOUNT : Fld := ⟨R.ORD_LEDGER_CTRL, 0, 1⟩
def F.ORD_LEDGER_CTRL_RELEASE : Fld := ⟨R.ORD_LEDGER_CTRL, 1, 1⟩
def F.ORD_LEDGER_ACCTS_ACCOUNTS : Fld := ⟨R.ORD_LEDGER_ACCTS, 0, 15⟩
def F.ORD_LEDGER_FAULTS_COUNT : Fld := ⟨R.ORD_LEDGER_FAULTS, 0, 32⟩
def F.ORD_LEDGER_SEL_CLASS : Fld := ⟨R.ORD_LEDGER_SEL, 0, 5⟩
def F.ORD_LEDGER_VAL_VALUE : Fld := ⟨R.ORD_LEDGER_VAL, 0, 32⟩
def F.ORD_LEDGER_CENSUS_VALUE : Fld := ⟨R.ORD_LEDGER_CENSUS, 0, 32⟩
def F.ORD_LEDGER_ROW_LO_ROW_LO : Fld := ⟨R.ORD_LEDGER_ROW_LO, 0, 32⟩
def F.ORD_LEDGER_ROW_HI_ROW_HI : Fld := ⟨R.ORD_LEDGER_ROW_HI, 0, 32⟩
def F.ORD_OVL_STATUS_WRITES : Fld := ⟨R.ORD_OVL_STATUS, 0, 16⟩
def F.ORD_OVL_STATUS_READS : Fld := ⟨R.ORD_OVL_STATUS, 16, 16⟩
def F.ORD_OVL_BLOCKED_ACT_A : Fld := ⟨R.ORD_OVL_BLOCKED, 0, 14⟩
def F.ORD_OVL_BLOCKED_ACT_B : Fld := ⟨R.ORD_OVL_BLOCKED, 16, 14⟩
def F.ORD_OVL_EPOCH_LO_EPOCH_LO : Fld := ⟨R.ORD_OVL_EPOCH_LO, 0, 32⟩
def F.ORD_OVL_EPOCH_HI_EPOCH_HI : Fld := ⟨R.ORD_OVL_EPOCH_HI, 0, 32⟩
def F.ORD_OVL_COUNTS_TRIMMED : Fld := ⟨R.ORD_OVL_COUNTS, 0, 16⟩
def F.ORD_OVL_COUNTS_ROLLBACKS : Fld := ⟨R.ORD_OVL_COUNTS, 16, 16⟩
def F.ORD_OVL_EVENTS_EVENTS : Fld := ⟨R.ORD_OVL_EVENTS, 0, 7⟩
def F.ORD_OVL_EV_TRIMMED : Fld := ⟨R.ORD_OVL_EVENTS, 0, 1⟩
def F.ORD_OVL_EV_ZONE_ROLLBACK : Fld := ⟨R.ORD_OVL_EVENTS, 1, 1⟩
def F.ORD_OVL_EV_GUARD_WRITE : Fld := ⟨R.ORD_OVL_EVENTS, 2, 1⟩
def F.ORD_OVL_EV_GUARD_READ : Fld := ⟨R.ORD_OVL_EVENTS, 3, 1⟩
def F.ORD_OVL_EV_SAVE_SHORT : Fld := ⟨R.ORD_OVL_EVENTS, 4, 1⟩
def F.ORD_OVL_EV_CLAIM_REFUSED : Fld := ⟨R.ORD_OVL_EVENTS, 5, 1⟩
def F.ORD_OVL_EV_REUSE_HOLD : Fld := ⟨R.ORD_OVL_EVENTS, 6, 1⟩
def F.ORD_DUR_STATUS_SAVE_MIB : Fld := ⟨R.ORD_DUR_STATUS, 0, 11⟩
def F.ORD_DUR_STATUS_SAVE_SHORT : Fld := ⟨R.ORD_DUR_STATUS, 11, 1⟩
def F.ORD_CLAIM_DLA_LO_DLA_LO : Fld := ⟨R.ORD_CLAIM_DLA_LO, 0, 32⟩
def F.ORD_CLAIM_DLA_HI_DLA_HI : Fld := ⟨R.ORD_CLAIM_DLA_HI, 0, 8⟩
def F.ORD_CLAIM_DLA_HI_LEN_M1 : Fld := ⟨R.ORD_CLAIM_DLA_HI, 16, 16⟩
def F.ORD_CLAIM_CMD_INDEX : Fld := ⟨R.ORD_CLAIM_CMD, 0, 6⟩
def F.ORD_CLAIM_CMD_OPEN : Fld := ⟨R.ORD_CLAIM_CMD, 8, 1⟩
def F.ORD_CLAIM_CMD_CLOSE : Fld := ⟨R.ORD_CLAIM_CMD, 9, 1⟩
def F.ORD_CLAIM_STATUS_OPENED : Fld := ⟨R.ORD_CLAIM_STATUS, 0, 6⟩
def F.ORD_CLAIM_STATUS_OK : Fld := ⟨R.ORD_CLAIM_STATUS, 6, 1⟩
def F.ORD_CLAIM_STATUS_FREE : Fld := ⟨R.ORD_CLAIM_STATUS, 8, 7⟩
def F.ORD_CLAIM_STATUS_SUPERSEDED : Fld := ⟨R.ORD_CLAIM_STATUS, 16, 16⟩
def F.DRN_CTRL_SCRUB_EN : Fld := ⟨R.DRN_CTRL, 0, 1⟩
def F.DRN_CTRL_RELOC_EN : Fld := ⟨R.DRN_CTRL, 1, 1⟩
def F.DRN_CTRL_RELOC_MIN_STEP : Fld := ⟨R.DRN_CTRL, 4, 4⟩
def F.DRN_CTRL_WEAK_ITER : Fld := ⟨R.DRN_CTRL, 8, 5⟩
def F.DRN_CTRL_WEAK_MARGIN : Fld := ⟨R.DRN_CTRL, 16, 8⟩
def F.DRN_SCRUB_PERIOD_DAYS : Fld := ⟨R.DRN_SCRUB, 0, 8⟩
def F.DRN_SCRUB_RATE_PCT : Fld := ⟨R.DRN_SCRUB, 8, 8⟩
def F.DRN_LADDER_OFFSET : Fld := ⟨R.DRN_LADDER, 0, 16⟩
def F.DRN_LADDER_SPAN : Fld := ⟨R.DRN_LADDER, 16, 4⟩
def F.DRN_STATUS_SCRUB_BUSY : Fld := ⟨R.DRN_STATUS, 0, 1⟩
def F.DRN_STATUS_BEHIND : Fld := ⟨R.DRN_STATUS, 1, 1⟩
def F.DRN_STATUS_UNREAD_FULL : Fld := ⟨R.DRN_STATUS, 2, 1⟩
def F.DRN_STATUS_RUNS_A : Fld := ⟨R.DRN_STATUS, 8, 5⟩
def F.DRN_STATUS_RUNS_B : Fld := ⟨R.DRN_STATUS, 16, 5⟩
def F.DRN_SCRUB_POS_ZONE (n : Nat) : Fld := ⟨R.DRN_SCRUB_POS n, 0, 19⟩
def F.DRN_PASS_PASSES (n : Nat) : Fld := ⟨R.DRN_PASS n, 0, 16⟩
def F.DRN_PASS_DAYS (n : Nat) : Fld := ⟨R.DRN_PASS n, 16, 16⟩
def F.DRN_STEP_RECOVERED (k : Nat) : Fld := ⟨R.DRN_STEP k, 0, 32⟩
def F.DRN_UNRECOVERED_COUNT : Fld := ⟨R.DRN_UNRECOVERED, 0, 32⟩
def F.DRN_RELOC_RELOCATED : Fld := ⟨R.DRN_RELOC, 0, 16⟩
def F.DRN_RELOC_WEAK : Fld := ⟨R.DRN_RELOC, 16, 16⟩
def F.DRN_UNREAD_ENTRIES : Fld := ⟨R.DRN_UNREAD, 0, 17⟩
def F.DRN_UNREAD_OVERFLOW : Fld := ⟨R.DRN_UNREAD, 17, 15⟩
def F.DRN_DUE_ZONE : Fld := ⟨R.DRN_DUE, 0, 19⟩
def F.DRN_DUE_VALID : Fld := ⟨R.DRN_DUE, 19, 1⟩
def F.DRN_DUE_DEPTH : Fld := ⟨R.DRN_DUE, 20, 7⟩
def F.DRN_REWRITE_ZONE : Fld := ⟨R.DRN_REWRITE, 0, 19⟩
def F.DRN_REWRITE_POP : Fld := ⟨R.DRN_REWRITE, 30, 1⟩
def F.DRN_REWRITE_GO : Fld := ⟨R.DRN_REWRITE, 31, 1⟩
def F.DRN_REWRITE_STATUS_ZONE : Fld := ⟨R.DRN_REWRITE_STATUS, 0, 19⟩
def F.DRN_REWRITE_STATUS_BUSY : Fld := ⟨R.DRN_REWRITE_STATUS, 19, 1⟩
def F.DRN_REWRITE_STATUS_DONE : Fld := ⟨R.DRN_REWRITE_STATUS, 20, 1⟩
def F.DRN_REWRITE_STATUS_ERR : Fld := ⟨R.DRN_REWRITE_STATUS, 21, 3⟩
def F.DRN_REWRITE_STATUS_PCT : Fld := ⟨R.DRN_REWRITE_STATUS, 24, 8⟩
def F.DRN_EVENTS_EVENTS : Fld := ⟨R.DRN_EVENTS, 0, 9⟩
def F.DRN_EV_UNRECOVERED : Fld := ⟨R.DRN_EVENTS, 0, 1⟩
def F.DRN_EV_RELOCATED : Fld := ⟨R.DRN_EVENTS, 1, 1⟩
def F.DRN_EV_REWRITE_DUE : Fld := ⟨R.DRN_EVENTS, 2, 1⟩
def F.DRN_EV_REWRITE_DONE : Fld := ⟨R.DRN_EVENTS, 3, 1⟩
def F.DRN_EV_BEHIND : Fld := ⟨R.DRN_EVENTS, 4, 1⟩
def F.DRN_EV_UNREAD_FULL : Fld := ⟨R.DRN_EVENTS, 5, 1⟩
def F.DRN_EV_DUE_FULL : Fld := ⟨R.DRN_EVENTS, 6, 1⟩
def F.DRN_EV_TAKEOVER : Fld := ⟨R.DRN_EVENTS, 7, 1⟩
def F.DRN_EV_UNCOVERED : Fld := ⟨R.DRN_EVENTS, 8, 1⟩
def F.DRN_FAILOVER_PAIR : Fld := ⟨R.DRN_FAILOVER, 0, 8⟩
def F.DRN_FAILOVER_NEEDLE : Fld := ⟨R.DRN_FAILOVER, 8, 8⟩
def F.DRN_FAILOVER_SLICE : Fld := ⟨R.DRN_FAILOVER, 16, 8⟩
def F.DRN_FAILOVER_UNCOVERED : Fld := ⟨R.DRN_FAILOVER, 24, 8⟩
def F.MEM_CTRL_SCRUB_EN : Fld := ⟨R.MEM_CTRL, 0, 1⟩
def F.MEM_CTRL_PERIOD_H : Fld := ⟨R.MEM_CTRL, 8, 8⟩
def F.MEM_STATUS_SCRUB_BUSY : Fld := ⟨R.MEM_STATUS, 0, 1⟩
def F.MEM_STATUS_REMAP_FULL : Fld := ⟨R.MEM_STATUS, 1, 1⟩
def F.MEM_STATUS_RETIRE_HIGH_0 : Fld := ⟨R.MEM_STATUS, 2, 1⟩
def F.MEM_STATUS_RETIRE_HIGH_1 : Fld := ⟨R.MEM_STATUS, 3, 1⟩
def F.MEM_STATUS_SCRUB_PAGE : Fld := ⟨R.MEM_STATUS, 8, 20⟩
def F.MEM_STATUS_SCRUB_DIE : Fld := ⟨R.MEM_STATUS, 28, 1⟩
def F.MEM_THRESH_HARD_CE : Fld := ⟨R.MEM_THRESH, 0, 4⟩
def F.MEM_THRESH_TEST_MAX : Fld := ⟨R.MEM_THRESH, 8, 8⟩
def F.MEM_THRESH_RETIRE_WARN : Fld := ⟨R.MEM_THRESH, 16, 16⟩
def F.MEM_ERR_WORD_CE (n : Nat) : Fld := ⟨R.MEM_ERR n, 0, 16⟩
def F.MEM_ERR_WORD_UE (n : Nat) : Fld := ⟨R.MEM_ERR n, 16, 16⟩
def F.MEM_PAGE_PAGE_FIXED (n : Nat) : Fld := ⟨R.MEM_PAGE n, 0, 16⟩
def F.MEM_PAGE_PAGE_UE (n : Nat) : Fld := ⟨R.MEM_PAGE n, 16, 16⟩
def F.MEM_RETIRE_RETIRED_SPARE (n : Nat) : Fld := ⟨R.MEM_RETIRE n, 0, 11⟩
def F.MEM_RETIRE_RETIRED_BUF (n : Nat) : Fld := ⟨R.MEM_RETIRE n, 16, 16⟩
def F.MEM_REMAP_STATUS_USED : Fld := ⟨R.MEM_REMAP_STATUS, 0, 7⟩
def F.MEM_REMAP_SEL_INDEX : Fld := ⟨R.MEM_REMAP_SEL, 0, 6⟩
def F.MEM_REMAP_ENTRY_GRANULE : Fld := ⟨R.MEM_REMAP_ENTRY, 0, 26⟩
def F.MEM_REMAP_ENTRY_DIE : Fld := ⟨R.MEM_REMAP_ENTRY, 26, 1⟩
def F.MEM_REMAP_ENTRY_VALID : Fld := ⟨R.MEM_REMAP_ENTRY, 27, 1⟩
def F.MEM_LAST_ERR_LO_ADDR : Fld := ⟨R.MEM_LAST_ERR_LO, 0, 32⟩
def F.MEM_LAST_ERR_HI_DIE : Fld := ⟨R.MEM_LAST_ERR_HI, 0, 1⟩
def F.MEM_LAST_ERR_HI_KIND : Fld := ⟨R.MEM_LAST_ERR_HI, 1, 3⟩
def F.MEM_LAST_ERR_HI_REGION : Fld := ⟨R.MEM_LAST_ERR_HI, 8, 8⟩
def F.MEM_EVENTS_EVENTS : Fld := ⟨R.MEM_EVENTS, 0, 9⟩
def F.MEM_EV_WORD_CE : Fld := ⟨R.MEM_EVENTS, 0, 1⟩
def F.MEM_EV_WORD_UE : Fld := ⟨R.MEM_EVENTS, 1, 1⟩
def F.MEM_EV_PAGE_FIXED : Fld := ⟨R.MEM_EVENTS, 2, 1⟩
def F.MEM_EV_PAGE_UE : Fld := ⟨R.MEM_EVENTS, 3, 1⟩
def F.MEM_EV_REMAPPED : Fld := ⟨R.MEM_EVENTS, 4, 1⟩
def F.MEM_EV_RETIRED : Fld := ⟨R.MEM_EVENTS, 5, 1⟩
def F.MEM_EV_REMAP_FULL : Fld := ⟨R.MEM_EVENTS, 6, 1⟩
def F.MEM_EV_RETIRE_HIGH : Fld := ⟨R.MEM_EVENTS, 7, 1⟩
def F.MEM_EV_REPAIR_ABORT : Fld := ⟨R.MEM_EVENTS, 8, 1⟩
def F.MEM_TEST_FAILS (n : Nat) : Fld := ⟨R.MEM_TEST n, 0, 16⟩
def F.SRM_STATUS_SPARES_FUSED : Fld := ⟨R.SRM_STATUS, 0, 8⟩
def F.SRM_STATUS_SPARES_SOFT : Fld := ⟨R.SRM_STATUS, 8, 8⟩
def F.SRM_STATUS_SPARES_FREE : Fld := ⟨R.SRM_STATUS, 16, 8⟩
def F.SRM_ERR_CE : Fld := ⟨R.SRM_ERR, 0, 16⟩
def F.SRM_ERR_UE : Fld := ⟨R.SRM_ERR, 16, 16⟩
def F.SRM_LAST_ERR_OFFSET : Fld := ⟨R.SRM_LAST_ERR, 0, 26⟩
def F.SRM_EVENTS_EVENTS : Fld := ⟨R.SRM_EVENTS, 0, 4⟩
def F.SRM_EV_CE : Fld := ⟨R.SRM_EVENTS, 0, 1⟩
def F.SRM_EV_UE : Fld := ⟨R.SRM_EVENTS, 1, 1⟩
def F.SRM_EV_SOFT_REPAIR : Fld := ⟨R.SRM_EVENTS, 2, 1⟩
def F.SRM_EV_CTX_UE : Fld := ⟨R.SRM_EVENTS, 3, 1⟩
def F.TIR_STATUS_STATE : Fld := ⟨R.TIR_STATUS, 0, 3⟩
def F.TIR_STATUS_SEALED : Fld := ⟨R.TIR_STATUS, 3, 1⟩
def F.TIR_STATUS_SNAG_ARMED : Fld := ⟨R.TIR_STATUS, 4, 1⟩
def F.TIR_STATUS_GRANTS : Fld := ⟨R.TIR_STATUS, 5, 4⟩
def F.TIR_STATUS_LOCKOUT : Fld := ⟨R.TIR_STATUS, 9, 1⟩
def F.TIR_ALARM_CAUSE : Fld := ⟨R.TIR_ALARM, 0, 5⟩
def F.TIR_ALARM_SIMULATED : Fld := ⟨R.TIR_ALARM, 5, 1⟩
def F.TIR_ALARM_COUNT : Fld := ⟨R.TIR_ALARM, 8, 8⟩
def F.TIR_ALARM_AUTH_FAILS : Fld := ⟨R.TIR_ALARM, 16, 8⟩
def F.TIR_SVN_SEL_COMPONENT : Fld := ⟨R.TIR_SVN_SEL, 0, 3⟩
def F.TIR_SVN_LO_SVN_LO : Fld := ⟨R.TIR_SVN_LO, 0, 32⟩
def F.TIR_SVN_HI_SVN_HI : Fld := ⟨R.TIR_SVN_HI, 0, 32⟩
def F.TIR_MBX_CMD_OPCODE (n : Nat) : Fld := ⟨R.TIR_MBX_CMD n, 0, 8⟩
def F.TIR_MBX_CMD_TAG (n : Nat) : Fld := ⟨R.TIR_MBX_CMD n, 8, 23⟩
def F.TIR_MBX_CMD_GO (n : Nat) : Fld := ⟨R.TIR_MBX_CMD n, 31, 1⟩
def F.TIR_MBX_ARG_ARG (n : Nat) (k : Nat) : Fld := ⟨R.TIR_MBX_ARG n k, 0, 32⟩
def F.TIR_MBX_STATUS_BUSY (n : Nat) : Fld := ⟨R.TIR_MBX_STATUS n, 0, 1⟩
def F.TIR_MBX_STATUS_DONE (n : Nat) : Fld := ⟨R.TIR_MBX_STATUS n, 1, 1⟩
def F.TIR_MBX_STATUS_RESULT (n : Nat) : Fld := ⟨R.TIR_MBX_STATUS n, 8, 8⟩
def F.TIR_MBX_RESP_RESP (n : Nat) (k : Nat) : Fld := ⟨R.TIR_MBX_RESP n k, 0, 32⟩
def F.CIP_CTRL_ENABLE : Fld := ⟨R.CIP_CTRL, 0, 1⟩
def F.CIP_CTRL_HOOK_WE : Fld := ⟨R.CIP_CTRL, 1, 1⟩
def F.CIP_STATUS_STATE : Fld := ⟨R.CIP_STATUS, 0, 3⟩
def F.CIP_STATUS_CORE_OK : Fld := ⟨R.CIP_STATUS, 3, 4⟩
def F.CIP_STATUS_KAT_FAIL : Fld := ⟨R.CIP_STATUS, 7, 1⟩
def F.CIP_HOOK_BIND_XTS_ENC : Fld := ⟨R.CIP_HOOK_BIND, 0, 4⟩
def F.CIP_HOOK_BIND_XTS_DEC : Fld := ⟨R.CIP_HOOK_BIND, 4, 4⟩
def F.CIP_HOOK_BIND_GCM_ENC : Fld := ⟨R.CIP_HOOK_BIND, 8, 4⟩
def F.CIP_HOOK_BIND_GCM_DEC : Fld := ⟨R.CIP_HOOK_BIND, 12, 4⟩
def F.CIP_HOOK_BIND_CTR_ENC : Fld := ⟨R.CIP_HOOK_BIND, 16, 4⟩
def F.CIP_HOOK_BIND_CTR_DEC : Fld := ⟨R.CIP_HOOK_BIND, 20, 4⟩
def F.CIP_HOOK_BIND_CMAC_GEN : Fld := ⟨R.CIP_HOOK_BIND, 24, 4⟩
def F.CIP_HOOK_BIND_CMAC_VER : Fld := ⟨R.CIP_HOOK_BIND, 28, 4⟩
def F.CIP_HOOK_ADDR_ADDR : Fld := ⟨R.CIP_HOOK_ADDR, 0, 10⟩
def F.CIP_HOOK_DATA_DATA : Fld := ⟨R.CIP_HOOK_DATA, 0, 32⟩
def F.CIP_HOOK_CRC_CRC : Fld := ⟨R.CIP_HOOK_CRC, 0, 32⟩
def F.CIP_SLOT_SEL_SLOT : Fld := ⟨R.CIP_SLOT_SEL, 0, 7⟩
def F.CIP_SLOT_CFG_ALG : Fld := ⟨R.CIP_SLOT_CFG, 0, 2⟩
def F.CIP_SLOT_CFG_MODE : Fld := ⟨R.CIP_SLOT_CFG, 2, 2⟩
def F.CIP_SLOT_CFG_TEST : Fld := ⟨R.CIP_SLOT_CFG, 4, 1⟩
def F.CIP_SLOT_CFG_RESERVED : Fld := ⟨R.CIP_SLOT_CFG, 5, 1⟩
def F.CIP_SLOT_CFG_CUR_BANK : Fld := ⟨R.CIP_SLOT_CFG, 6, 1⟩
def F.CIP_SLOT_CFG_DRAINING : Fld := ⟨R.CIP_SLOT_CFG, 7, 1⟩
def F.CIP_SLOT_CFG_EXHAUSTED : Fld := ⟨R.CIP_SLOT_CFG, 8, 1⟩
def F.CIP_SLOT_BIND_ZONE : Fld := ⟨R.CIP_SLOT_BIND, 0, 19⟩
def F.CIP_SLOT_BIND_NSID : Fld := ⟨R.CIP_SLOT_BIND, 19, 5⟩
def F.CIP_SLOT_BIND_KPIO : Fld := ⟨R.CIP_SLOT_BIND, 24, 1⟩
def F.CIP_SLOT_GEN_GEN : Fld := ⟨R.CIP_SLOT_GEN, 0, 32⟩
def F.CIP_SLOT_TAG_KEY_TAG : Fld := ⟨R.CIP_SLOT_TAG, 0, 10⟩
def F.CIP_SLOT_TAG_PINNED : Fld := ⟨R.CIP_SLOT_TAG, 16, 16⟩
def F.CIP_SLOT_USE_LO_USE_LO : Fld := ⟨R.CIP_SLOT_USE_LO, 0, 32⟩
def F.CIP_SLOT_USE_HI_USE_HI : Fld := ⟨R.CIP_SLOT_USE_HI, 0, 8⟩
def F.CIP_SLOT_CMD_ERASE : Fld := ⟨R.CIP_SLOT_CMD, 0, 1⟩
def F.CIP_TESTKEY_KEY (k : Nat) : Fld := ⟨R.CIP_TESTKEY k, 0, 32⟩
def F.CIP_TESTKEY_LOAD_ALG : Fld := ⟨R.CIP_TESTKEY_LOAD, 0, 2⟩
def F.CIP_TESTKEY_LOAD_MODE : Fld := ⟨R.CIP_TESTKEY_LOAD, 2, 2⟩
def F.CIP_TESTKEY_LOAD_SLOT : Fld := ⟨R.CIP_TESTKEY_LOAD, 4, 7⟩
def F.CIP_TESTKEY_LOAD_GO : Fld := ⟨R.CIP_TESTKEY_LOAD, 31, 1⟩
def F.CIP_EVENTS_EVENTS : Fld := ⟨R.CIP_EVENTS, 0, 10⟩
def F.CIP_EV_TAG_FAIL : Fld := ⟨R.CIP_EVENTS, 0, 1⟩
def F.CIP_EV_POISONED : Fld := ⟨R.CIP_EVENTS, 1, 1⟩
def F.CIP_EV_KEY_ERASED : Fld := ⟨R.CIP_EVENTS, 2, 1⟩
def F.CIP_EV_KEY_EXHAUSTED : Fld := ⟨R.CIP_EVENTS, 3, 1⟩
def F.CIP_EV_KEY_MISMATCH : Fld := ⟨R.CIP_EVENTS, 4, 1⟩
def F.CIP_EV_CORE_FAULT : Fld := ⟨R.CIP_EVENTS, 5, 1⟩
def F.CIP_EV_KAT_FAIL : Fld := ⟨R.CIP_EVENTS, 6, 1⟩
def F.CIP_EV_HOOK_WRITE_REFUSED : Fld := ⟨R.CIP_EVENTS, 7, 1⟩
def F.CIP_EV_DRAINED : Fld := ⟨R.CIP_EVENTS, 8, 1⟩
def F.CIP_EV_HOOK_FAULT : Fld := ⟨R.CIP_EVENTS, 9, 1⟩
def F.CIP_COUNTS_TAG_FAILS : Fld := ⟨R.CIP_COUNTS, 0, 16⟩
def F.CIP_COUNTS_POISONED_SECTORS : Fld := ⟨R.CIP_COUNTS, 16, 16⟩
def F.CIP_JOB_SRC_SRC : Fld := ⟨R.CIP_JOB_SRC, 0, 32⟩
def F.CIP_JOB_DST_DST : Fld := ⟨R.CIP_JOB_DST, 0, 32⟩
def F.CIP_JOB_LEN_BLOCKS : Fld := ⟨R.CIP_JOB_LEN, 0, 24⟩
def F.CIP_JOB_CTRL_SLOT : Fld := ⟨R.CIP_JOB_CTRL, 0, 7⟩
def F.CIP_JOB_CTRL_OP : Fld := ⟨R.CIP_JOB_CTRL, 8, 1⟩
def F.CIP_JOB_CTRL_GO : Fld := ⟨R.CIP_JOB_CTRL, 31, 1⟩
def F.CIP_JOB_STATUS_BUSY : Fld := ⟨R.CIP_JOB_STATUS, 0, 1⟩
def F.CIP_JOB_STATUS_DONE : Fld := ⟨R.CIP_JOB_STATUS, 1, 1⟩
def F.CIP_JOB_STATUS_RESULT : Fld := ⟨R.CIP_JOB_STATUS, 2, 2⟩
def F.GAU_CMD_KIND : Fld := ⟨R.GAU_CMD, 0, 4⟩
def F.GAU_CMD_SLICE : Fld := ⟨R.GAU_CMD, 4, 3⟩
def F.GAU_CMD_ACT : Fld := ⟨R.GAU_CMD, 7, 1⟩
def F.GAU_CMD_HEAD : Fld := ⟨R.GAU_CMD, 8, 4⟩
def F.GAU_CMD_GO : Fld := ⟨R.GAU_CMD, 31, 1⟩
def F.GAU_STATUS_BUSY : Fld := ⟨R.GAU_STATUS, 0, 1⟩
def F.GAU_STATUS_DONE : Fld := ⟨R.GAU_STATUS, 1, 1⟩
def F.GAU_STATUS_RESULT : Fld := ⟨R.GAU_STATUS, 2, 2⟩
def F.GAU_STATUS_WAIT : Fld := ⟨R.GAU_STATUS, 4, 1⟩
def F.GAU_STATUS_KIND : Fld := ⟨R.GAU_STATUS, 8, 4⟩
def F.GAU_RAW_RAW : Fld := ⟨R.GAU_RAW, 0, 32⟩
def F.GAU_CFG_TD_STEP : Fld := ⟨R.GAU_CFG, 0, 8⟩
def F.GAU_CFG_RD_BACKOFF : Fld := ⟨R.GAU_CFG, 8, 8⟩
def F.GAU_CFG_WR_BACKOFF : Fld := ⟨R.GAU_CFG, 16, 8⟩
def F.GAU_CFG_AP_HEADROOM : Fld := ⟨R.GAU_CFG, 24, 4⟩
def F.GAU_CFG2_AP_STEP : Fld := ⟨R.GAU_CFG2, 0, 16⟩
def F.GAU_CFG2_DRIFT_PCT : Fld := ⟨R.GAU_CFG2, 16, 8⟩
def F.GAU_SWATCH_TRACK : Fld := ⟨R.GAU_SWATCH, 0, 24⟩
def F.GAU_SWATCH_WRITE : Fld := ⟨R.GAU_SWATCH, 31, 1⟩
def F.GAU_TREF_TEMP : Fld := ⟨R.GAU_TREF, 0, 10⟩
def F.GAU_EVENTS_EVENTS : Fld := ⟨R.GAU_EVENTS, 0, 3⟩
def F.GAU_EV_SAT : Fld := ⟨R.GAU_EVENTS, 0, 1⟩
def F.GAU_EV_ABANDONED : Fld := ⟨R.GAU_EVENTS, 1, 1⟩
def F.GAU_EV_DRIFT : Fld := ⟨R.GAU_EVENTS, 2, 1⟩
def F.GAU_DRIFT_HEAD : Fld := ⟨R.GAU_DRIFT, 0, 4⟩
def F.GAU_DRIFT_ACT : Fld := ⟨R.GAU_DRIFT, 4, 1⟩
def F.GAU_ADC_OFFSET (n : Nat) : Fld := ⟨R.GAU_ADC n, 0, 8⟩
def F.GAU_ADC_GAIN (n : Nat) : Fld := ⟨R.GAU_ADC n, 8, 8⟩
def F.GAU_SKEW_SKEW (n : Nat) : Fld := ⟨R.GAU_SKEW n, 0, 32⟩
def F.GAU_RDR_GAIN_R1 (a : Nat) (h : Nat) : Fld := ⟨R.GAU_RDR a h, 0, 8⟩
def F.GAU_RDR_GAIN_R2 (a : Nat) (h : Nat) : Fld := ⟨R.GAU_RDR a h, 8, 8⟩
def F.GAU_RDR_ASYM_R1 (a : Nat) (h : Nat) : Fld := ⟨R.GAU_RDR a h, 16, 8⟩
def F.GAU_RDR_ASYM_R2 (a : Nat) (h : Nat) : Fld := ⟨R.GAU_RDR a h, 24, 8⟩
def F.GAU_ISENSE_SPN_U : Fld := ⟨R.GAU_ISENSE, 0, 8⟩
def F.GAU_ISENSE_SPN_V : Fld := ⟨R.GAU_ISENSE, 8, 8⟩
def F.GAU_ISENSE_SPN_W : Fld := ⟨R.GAU_ISENSE, 16, 8⟩
def F.GAU_ISENSE_VCM_A : Fld := ⟨R.GAU_ISENSE_VCM, 0, 8⟩
def F.GAU_ISENSE_VCM_B : Fld := ⟨R.GAU_ISENSE_VCM, 8, 8⟩
def F.GAU_TEMP_MON0 : Fld := ⟨R.GAU_TEMP, 0, 8⟩
def F.GAU_TEMP_MON1 : Fld := ⟨R.GAU_TEMP, 8, 8⟩
def F.GAU_TEMP_MON2 : Fld := ⟨R.GAU_TEMP, 16, 8⟩
def F.GAU_HEALTH_SHORT (a : Nat) (h : Nat) : Fld := ⟨R.GAU_HEALTH a h, 0, 16⟩
def F.GAU_HEALTH_LONG (a : Nat) (h : Nat) : Fld := ⟨R.GAU_HEALTH a h, 16, 16⟩
def F.UPD_STATUS_SESSION : Fld := ⟨R.UPD_STATUS, 0, 3⟩
def F.UPD_STATUS_SOURCES : Fld := ⟨R.UPD_STATUS, 3, 3⟩
def F.UPD_STATUS_ACT_STATE : Fld := ⟨R.UPD_STATUS, 6, 3⟩
def F.UPD_STATUS_COMPONENT : Fld := ⟨R.UPD_STATUS, 9, 3⟩
def F.UPD_STATUS_TENTATIVE : Fld := ⟨R.UPD_STATUS, 12, 1⟩
def F.UPD_STATUS_UNCONF : Fld := ⟨R.UPD_STATUS, 13, 2⟩
def F.UPD_STATUS_STAGED : Fld := ⟨R.UPD_STATUS, 15, 1⟩
def F.UPD_STATUS_AT_RESET : Fld := ⟨R.UPD_STATUS, 16, 1⟩
def F.UPD_CTRL_ABORT : Fld := ⟨R.UPD_CTRL, 0, 1⟩
def F.UPD_CTRL_FROG : Fld := ⟨R.UPD_CTRL, 1, 1⟩
def F.UPD_ERR_CODE : Fld := ⟨R.UPD_ERR, 0, 8⟩
def F.UPD_ERR_DETAIL : Fld := ⟨R.UPD_ERR, 8, 8⟩
def F.UPD_ERR_COMPONENT : Fld := ⟨R.UPD_ERR, 16, 3⟩
def F.UPD_PIECES_KEPT : Fld := ⟨R.UPD_PIECES, 0, 17⟩
def F.UPD_TOTAL_TOTAL : Fld := ⟨R.UPD_TOTAL, 0, 17⟩
def F.UPD_IDLE_MIN_LEFT : Fld := ⟨R.UPD_IDLE, 0, 14⟩
def F.UPD_HANDOVER_SPARE_READY : Fld := ⟨R.UPD_HANDOVER, 0, 1⟩
def F.UPD_HANDOVER_QUIESCED : Fld := ⟨R.UPD_HANDOVER, 1, 1⟩
def F.UPD_HANDOVER_TAKEN : Fld := ⟨R.UPD_HANDOVER, 2, 1⟩
def F.UPD_HANDOVER_REQUEST : Fld := ⟨R.UPD_HANDOVER, 3, 1⟩
def F.UPD_HANDOVER_PAIR : Fld := ⟨R.UPD_HANDOVER, 4, 4⟩
def F.UPD_HANDOVER_X_FOR : Fld := ⟨R.UPD_HANDOVER, 8, 4⟩
def F.UPD_REC_ADDR_ADDR : Fld := ⟨R.UPD_REC_ADDR, 0, 32⟩
def F.UPD_SEQ_LO_SEQ_LO : Fld := ⟨R.UPD_SEQ_LO, 0, 32⟩
def F.UPD_SEQ_HI_SEQ_HI : Fld := ⟨R.UPD_SEQ_HI, 0, 32⟩
def F.UPD_EVENTS_EVENTS : Fld := ⟨R.UPD_EVENTS, 0, 10⟩
def F.UPD_EV_SESSION_OPEN : Fld := ⟨R.UPD_EVENTS, 0, 1⟩
def F.UPD_EV_SESSION_DONE : Fld := ⟨R.UPD_EVENTS, 1, 1⟩
def F.UPD_EV_SESSION_ABORT : Fld := ⟨R.UPD_EVENTS, 2, 1⟩
def F.UPD_EV_SESSION_EXPIRED : Fld := ⟨R.UPD_EVENTS, 3, 1⟩
def F.UPD_EV_VERIFY_FAIL : Fld := ⟨R.UPD_EVENTS, 4, 1⟩
def F.UPD_EV_ACTIVATED : Fld := ⟨R.UPD_EVENTS, 5, 1⟩
def F.UPD_EV_ABORTED : Fld := ⟨R.UPD_EVENTS, 6, 1⟩
def F.UPD_EV_CONFIRMED : Fld := ⟨R.UPD_EVENTS, 7, 1⟩
def F.UPD_EV_FROGGED : Fld := ⟨R.UPD_EVENTS, 8, 1⟩
def F.UPD_EV_SETTINGS_RESET : Fld := ⟨R.UPD_EVENTS, 9, 1⟩
def F.UPD_DIGEST_DIGEST (n : Nat) : Fld := ⟨R.UPD_DIGEST n, 0, 32⟩
def F.REC_STATUS_STORE : Fld := ⟨R.REC_STATUS, 0, 2⟩
def F.REC_STATUS_FULL : Fld := ⟨R.REC_STATUS, 2, 1⟩
def F.REC_STATUS_CLEAR_BUSY : Fld := ⟨R.REC_STATUS, 3, 1⟩
def F.REC_STATUS_MIRROR_PENDING : Fld := ⟨R.REC_STATUS, 4, 1⟩
def F.REC_STATUS_FIFO_LEVEL : Fld := ⟨R.REC_STATUS, 8, 9⟩
def F.REC_CTRL_CLEAR : Fld := ⟨R.REC_CTRL, 0, 1⟩
def F.REC_CTRL_CLEAR_SEL : Fld := ⟨R.REC_CTRL, 1, 2⟩
def F.REC_NEXT_INDEX : Fld := ⟨R.REC_NEXT, 0, 19⟩
def F.REC_SEQ_SEQ : Fld := ⟨R.REC_SEQ, 0, 32⟩
def F.REC_FILTER_MIN : Fld := ⟨R.REC_FILTER, 0, 3⟩
def F.REC_SOURCES_LO_MASK_LO : Fld := ⟨R.REC_SOURCES_LO, 0, 32⟩
def F.REC_SOURCES_HI_MASK_HI : Fld := ⟨R.REC_SOURCES_HI, 0, 32⟩
def F.REC_LOST_LOST (n : Nat) : Fld := ⟨R.REC_LOST n, 0, 32⟩
def F.REC_COAL_SEL_SOURCE : Fld := ⟨R.REC_COAL_SEL, 0, 6⟩
def F.REC_COAL_VAL_COUNT : Fld := ⟨R.REC_COAL_VAL, 0, 32⟩
def F.REC_EVENTS_EVENTS : Fld := ⟨R.REC_EVENTS, 0, 9⟩
def F.REC_EV_OVERFLOW : Fld := ⟨R.REC_EVENTS, 0, 1⟩
def F.REC_EV_FULL : Fld := ⟨R.REC_EVENTS, 1, 1⟩
def F.REC_EV_STORE_FAIL : Fld := ⟨R.REC_EVENTS, 2, 1⟩
def F.REC_EV_FALLBACK_FULL : Fld := ⟨R.REC_EVENTS, 3, 1⟩
def F.REC_EV_CLEAR_DONE : Fld := ⟨R.REC_EVENTS, 4, 1⟩
def F.REC_EV_CLEAR_REFUSED : Fld := ⟨R.REC_EVENTS, 5, 1⟩
def F.REC_EV_TORN : Fld := ⟨R.REC_EVENTS, 6, 1⟩
def F.REC_EV_MIRROR_LOST : Fld := ⟨R.REC_EVENTS, 7, 1⟩
def F.REC_EV_FW_REFUSED : Fld := ⟨R.REC_EVENTS, 8, 1⟩
def F.REC_ANCHOR_LO_HOST_LO : Fld := ⟨R.REC_ANCHOR_LO, 0, 32⟩
def F.REC_ANCHOR_HI_HOST_HI : Fld := ⟨R.REC_ANCHOR_HI, 0, 16⟩
def F.REC_ANCHOR_HI_ATTR : Fld := ⟨R.REC_ANCHOR_HI, 16, 8⟩
def F.REC_ANCHOR_HI_GO : Fld := ⟨R.REC_ANCHOR_HI, 31, 1⟩
def F.REC_FW_TYPE_TYPE_LO : Fld := ⟨R.REC_FW_TYPE, 0, 8⟩
def F.REC_FW_TYPE_SOURCE : Fld := ⟨R.REC_FW_TYPE, 8, 6⟩
def F.REC_FW_TYPE_SEVERITY : Fld := ⟨R.REC_FW_TYPE, 16, 3⟩
def F.REC_FW_TYPE_GO : Fld := ⟨R.REC_FW_TYPE, 31, 1⟩
def F.REC_FW_PAYLOAD_PAYLOAD (k : Nat) : Fld := ⟨R.REC_FW_PAYLOAD k, 0, 32⟩
def F.SNG_CTRL_ARM : Fld := ⟨R.SNG_CTRL, 0, 1⟩
def F.SNG_CTRL_DISARM : Fld := ⟨R.SNG_CTRL, 1, 1⟩
def F.SNG_STATUS_ARMED : Fld := ⟨R.SNG_STATUS, 0, 1⟩
def F.SNG_STATUS_ACTIVE : Fld := ⟨R.SNG_STATUS, 1, 8⟩
def F.SNG_STATUS_HELD : Fld := ⟨R.SNG_STATUS, 9, 8⟩
def F.SNG_SEED_SEED : Fld := ⟨R.SNG_SEED, 0, 32⟩
def F.SNG_COUNT_INJECTED : Fld := ⟨R.SNG_COUNT, 0, 32⟩
def F.SNG_EVENTS_EVENTS : Fld := ⟨R.SNG_EVENTS, 0, 3⟩
def F.SNG_EV_ARM_REFUSED : Fld := ⟨R.SNG_EVENTS, 0, 1⟩
def F.SNG_EV_INJ_REFUSED : Fld := ⟨R.SNG_EVENTS, 1, 1⟩
def F.SNG_EV_INJ_DONE : Fld := ⟨R.SNG_EVENTS, 2, 1⟩
def F.SNG_INJ_CFG_POINT (n : Nat) : Fld := ⟨R.SNG_INJ_CFG n, 0, 8⟩
def F.SNG_INJ_CFG_TIMING (n : Nat) : Fld := ⟨R.SNG_INJ_CFG n, 8, 2⟩
def F.SNG_INJ_CFG_ACTION (n : Nat) : Fld := ⟨R.SNG_INJ_CFG n, 10, 4⟩
def F.SNG_INJ_CFG_FORCE (n : Nat) : Fld := ⟨R.SNG_INJ_CFG n, 14, 1⟩
def F.SNG_INJ_CFG_REPLAY (n : Nat) : Fld := ⟨R.SNG_INJ_CFG n, 15, 1⟩
def F.SNG_INJ_CFG_GO (n : Nat) : Fld := ⟨R.SNG_INJ_CFG n, 31, 1⟩
def F.SNG_INJ_TARGET_INSTANCE (n : Nat) : Fld := ⟨R.SNG_INJ_TARGET n, 0, 8⟩
def F.SNG_INJ_TARGET_PARAM (n : Nat) : Fld := ⟨R.SNG_INJ_TARGET n, 8, 8⟩
def F.SNG_INJ_TARGET_PERIOD (n : Nat) : Fld := ⟨R.SNG_INJ_TARGET n, 16, 16⟩
def F.SNG_INJ_ADDR_ADDR (n : Nat) : Fld := ⟨R.SNG_INJ_ADDR n, 0, 32⟩
def F.SNG_INJ_COUNT_LIMIT (n : Nat) : Fld := ⟨R.SNG_INJ_COUNT n, 0, 16⟩
def F.SNG_INJ_COUNT_DONE (n : Nat) : Fld := ⟨R.SNG_INJ_COUNT n, 16, 16⟩
def F.DBG_STATUS_GRANTS : Fld := ⟨R.DBG_STATUS, 0, 4⟩
def F.DBG_STATUS_TRACE_ON : Fld := ⟨R.DBG_STATUS, 4, 1⟩
def F.DBG_STATUS_HALTED : Fld := ⟨R.DBG_STATUS, 5, 6⟩
def F.DBG_CTRL_WARM : Fld := ⟨R.DBG_CTRL, 0, 1⟩
def F.DBG_CTRL_KEY : Fld := ⟨R.DBG_CTRL, 16, 16⟩
def F.DBG_HALT_PAIRS : Fld := ⟨R.DBG_HALT, 0, 6⟩
def F.DBG_HALT_NEEDLES : Fld := ⟨R.DBG_HALT, 6, 3⟩
def F.DBG_EVENTS_EVENTS : Fld := ⟨R.DBG_EVENTS, 0, 2⟩
def F.DBG_EV_REFUSED : Fld := ⟨R.DBG_EVENTS, 0, 1⟩
def F.DBG_EV_RELEASED_BY_REVOKE : Fld := ⟨R.DBG_EVENTS, 1, 1⟩
def F.DBG_UART_CTRL_DIV : Fld := ⟨R.DBG_UART_CTRL, 0, 16⟩
def F.DBG_UART_CTRL_EN : Fld := ⟨R.DBG_UART_CTRL, 16, 1⟩
def F.DBG_UART_CTRL_RX_POP : Fld := ⟨R.DBG_UART_CTRL, 17, 1⟩
def F.DBG_UART_TXD_DATA : Fld := ⟨R.DBG_UART_TXD, 0, 8⟩
def F.DBG_UART_RXD_DATA : Fld := ⟨R.DBG_UART_RXD, 0, 8⟩
def F.DBG_UART_RXD_VALID : Fld := ⟨R.DBG_UART_RXD, 8, 1⟩
def F.DBG_UART_STATUS_TX_LEVEL : Fld := ⟨R.DBG_UART_STATUS, 0, 5⟩
def F.DBG_UART_STATUS_RX_LEVEL : Fld := ⟨R.DBG_UART_STATUS, 8, 5⟩
def F.DBG_UART_STATUS_TX_DROP : Fld := ⟨R.DBG_UART_STATUS, 16, 1⟩
def F.DBG_UART_STATUS_RX_OVERRUN : Fld := ⟨R.DBG_UART_STATUS, 17, 1⟩
def F.DBG_UART_STATUS_FRAME_ERR : Fld := ⟨R.DBG_UART_STATUS, 18, 1⟩

/-! ### Access codes and reset values, window by window -/

/-- The registers of the SYS window. -/
def windowSYS : List RegSpec :=
  [⟨0x01000010, 0x0, 1, 0x0, 1, 0x00000000,
     [⟨0, 1, .ro, .plain⟩, ⟨1, 1, .ro, .plain⟩, ⟨2, 1, .ro, .plain⟩, ⟨3, 1, .ro, .plain⟩, ⟨4, 1, .ro, .plain⟩, ⟨5, 5, .ro, .plain⟩, ⟨10, 1, .ro, .plain⟩, ⟨11, 1, .ro, .plain⟩, ⟨12, 1, .ro, .plain⟩, ⟨13, 1, .ro, .plain⟩, ⟨14, 1, .ro, .plain⟩, ⟨15, 1, .ro, .plain⟩, ⟨16, 3, .ro, .plain⟩, ⟨19, 2, .ro, .plain⟩, ⟨21, 1, .ro, .plain⟩]⟩,
   ⟨0x01000014, 0x0, 1, 0x0, 1, 0x00000008,
     [⟨0, 8, .ro, .plain⟩, ⟨8, 4, .ro, .plain⟩, ⟨12, 1, .ro, .plain⟩, ⟨16, 8, .ro, .plain⟩]⟩,
   ⟨0x01000040, 0x0, 1, 0x0, 1, 0x0F000000,
     [⟨0, 4, .ro, .plain⟩, ⟨4, 4, .ro, .plain⟩, ⟨8, 4, .ro, .plain⟩, ⟨12, 4, .ro, .plain⟩, ⟨16, 4, .ro, .plain⟩, ⟨20, 4, .ro, .plain⟩, ⟨24, 4, .ro, .plain⟩]⟩,
   ⟨0x01000060, 0x0, 1, 0x0, 1, 0x00000000,
     [⟨0, 2, .ro, .plain⟩, ⟨2, 2, .ro, .plain⟩, ⟨4, 2, .ro, .plain⟩, ⟨6, 2, .ro, .plain⟩, ⟨8, 2, .ro, .plain⟩]⟩,
   ⟨0x01000064, 0x0, 1, 0x0, 1, 0x00000000,
     [⟨0, 23, .rw, .plain⟩]⟩,
   ⟨0x01000068, 0x0, 1, 0x0, 1, 0x00000000,
     [⟨0, 23, .rw, .plain⟩]⟩,
   ⟨0x0100006C, 0x0, 1, 0x0, 1, 0x00000000,
     [⟨0, 23, .ro, .plain⟩]⟩,
   ⟨0x01000020, 0x0, 1, 0x0, 1, 0x00000F00,
     [⟨0, 4, .ros, .plain⟩, ⟨8, 4, .ros, .plain⟩, ⟨16, 16, .ros, .plain⟩]⟩,
   ⟨0x01000024, 0x0, 1, 0x0, 1, 0x00000000,
     [⟨0, 1, .w1s, .plain⟩, ⟨1, 1, .w1s, .plain⟩, ⟨16, 16, .rw, .readsZero⟩]⟩,
   ⟨0x01000028, 0x0, 1, 0x0, 1, 0x00000000,
     [⟨0, 16, .rw, .plain⟩, ⟨16, 5, .rw, .plain⟩]⟩,
   ⟨0x0100002C, 0x0, 1, 0x0, 1, 0x00000000,
     [⟨0, 5, .w1s, .plain⟩]⟩,
   ⟨0x01000030, 0x0, 1, 0x0, 1, 0x00000000,
     [⟨0, 4, .ro, .plain⟩, ⟨4, 1, .w1sHeld, .plain⟩, ⟨8, 8, .ro, .plain⟩]⟩,
   ⟨0x01000034, 0x0, 1, 0x0, 1, 0x00000000,
     [⟨0, 32, .ros, .plain⟩]⟩]

/-- The registers of the ROWT window. -/
def windowROWT : List RegSpec :=
  [⟨0x01020000, 0x0, 1, 0x0, 1, 0x00000480,
     [⟨0, 1, .rwl, .plain⟩, ⟨4, 4, .rwl, (.clamp 1 15)⟩, ⟨8, 4, .rwl, (.clamp 1 8)⟩]⟩,
   ⟨0x01020004, 0x0, 1, 0x0, 1, 0x00000000,
     [⟨0, 2, .ro, .plain⟩, ⟨2, 1, .ro, .plain⟩, ⟨3, 1, .ro, .plain⟩, ⟨4, 1, .ro, .plain⟩, ⟨5, 1, .ro, .plain⟩, ⟨6, 1, .ro, .plain⟩, ⟨8, 1, .w1c, .plain⟩, ⟨9, 1, .w1c, .plain⟩, ⟨10, 1, .w1c, .plain⟩]⟩,
   ⟨0x01020008, 0x0, 1, 0x0, 1, 0x00000000,
     [⟨0, 32, .ros, .plain⟩]⟩,
   ⟨0x0102000C, 0x0, 1, 0x0, 1, 0x00000000,
     [⟨0, 32, .ros, .plain⟩]⟩,
   ⟨0x01020010, 0x0, 1, 0x0, 1, 0x00D3ED79,
     [⟨0, 25, .ro, .plain⟩]⟩,
   ⟨0x01020014, 0x0, 1, 0x0, 1, 0x00D3ED79,
     [⟨0, 25, .rwl, .plain⟩]⟩,
   ⟨0x01020018, 0x0, 1, 0x0, 1, 0x00000000,
     [⟨0, 16, .ro, .plain⟩]⟩,
   ⟨0x0102001C, 0x0, 1, 0x0, 1, 0x00000000,
     [⟨0, 16, .ros, .plain⟩, ⟨16, 8, .ros, .plain⟩, ⟨24, 8, .ros, .plain⟩]⟩]

/-- The registers of the PAT window. -/
def windowPAT : List RegSpec :=
  [⟨0x01010000, 0x0, 1, 0x0, 1, 0x00000000,
     [⟨0, 3, .ro, .plain⟩, ⟨3, 1, .ro, .plain⟩, ⟨4, 1, .ro, .plain⟩, ⟨5, 1, .ro, .plain⟩, ⟨6, 1, .ro, .plain⟩, ⟨7, 1, .w1c, .plain⟩, ⟨8, 8, .ro, .plain⟩, ⟨16, 8, .ro, .plain⟩, ⟨24, 8, .ro, .plain⟩]⟩,
   ⟨0x01010004, 0x0, 1, 0x0, 1, 0x00000000,
     [⟨0, 1, .w1s, .plain⟩, ⟨1, 1, .w1s, .plain⟩, ⟨2, 1, .w1s, .plain⟩]⟩,
   ⟨0x01010008, 0x0, 1, 0x0, 1, 0x00000000,
     [⟨0, 32, .rw, .plain⟩]⟩,
   ⟨0x0101000C, 0x0, 1, 0x0, 1, 0x000000FF,
     [⟨0, 8, .ro, .plain⟩, ⟨16, 16, .ro, .plain⟩]⟩,
   ⟨0x01010010, 0x0, 1, 0x0, 1, 0x00000000,
     [⟨0, 32, .ro, .plain⟩]⟩,
   ⟨0x01010014, 0x0, 1, 0x0, 1, 0x00000000,
     [⟨0, 32, .ro, .plain⟩]⟩,
   ⟨0x01010018, 0x0, 1, 0x0, 1, 0x00000000,
     [⟨0, 32, .ro, .plain⟩]⟩,
   ⟨0x0101001C, 0x0, 1, 0x0, 1, 0x00000000,
     [⟨0, 32, .ro, .plain⟩]⟩,
   ⟨0x01010020, 0x4, 8, 0x0, 1, 0x00000000,
     [⟨0, 32, .ro, .plain⟩]⟩,
   ⟨0x01010040, 0x4, 8, 0x0, 1, 0x00000000,
     [⟨0, 32, .ro, .plain⟩]⟩]

/-- The registers of the PWR window. -/
def windowPWR : List RegSpec :=
  [⟨0x01030000, 0x0, 1, 0x0, 1, 0x00000000,
     [⟨0, 1, .ro, .plain⟩, ⟨1, 1, .ro, .plain⟩, ⟨2, 1, .ro, .plain⟩, ⟨3, 1, .ro, .plain⟩, ⟨4, 1, .ro, .plain⟩, ⟨5, 6, .ro, .plain⟩]⟩,
   ⟨0x01030004, 0x0, 1, 0x0, 1, 0x000007D0,
     [⟨0, 16, .rwl, (.clamp 500 2500)⟩]⟩,
   ⟨0x01030008, 0x0, 1, 0x0, 1, 0x00000000,
     [⟨0, 16, .ro, .plain⟩, ⟨16, 16, .ro, .plain⟩]⟩,
   ⟨0x0103000C, 0x0, 1, 0x0, 1, 0x00000000,
     [⟨0, 16, .ro, .plain⟩, ⟨16, 16, .ro, .plain⟩]⟩,
   ⟨0x01030010, 0x0, 1, 0x0, 1, 0x00000000,
     [⟨0, 1, .w1c, .plain⟩, ⟨1, 1, .w1c, .plain⟩, ⟨2, 1, .w1c, .plain⟩, ⟨3, 1, .w1c, .plain⟩, ⟨4, 1, .w1c, .plain⟩]⟩]

/-- The registers of the KEEP window. -/
def windowKEEP : List RegSpec :=
  [⟨0x01040000, 0x0, 1, 0x0, 1, 0x00001428,
     [⟨0, 8, .rwl, (.clamp 25 60)⟩, ⟨8, 8, .rwl, (.clamp 10 50)⟩, ⟨16, 10, .rwl, (.clamp 0 512)⟩]⟩,
   ⟨0x01040004, 0x0, 1, 0x0, 1, 0x00000000,
     [⟨0, 24, .rwl, .plain⟩]⟩,
   ⟨0x01040008, 0x0, 1, 0x0, 1, 0x0000FFFF,
     [⟨0, 16, .rw, .plain⟩]⟩,
   ⟨0x0104000C, 0x0, 1, 0x0, 1, 0x00000000,
     [⟨0, 20, .ro, .plain⟩]⟩,
   ⟨0x01040010, 0x0, 1, 0x0, 1, 0x00000000,
     [⟨0, 10, .ro, .plain⟩, ⟨16, 10, .ro, .plain⟩]⟩,
   ⟨0x01040014, 0x0, 1, 0x0, 1, 0x00000000,
     [⟨0, 18, .ro, .plain⟩]⟩,
   ⟨0x01040018, 0x0, 1, 0x0, 1, 0x00000000,
     [⟨0, 1, .ro, .plain⟩, ⟨1, 1, .ro, .plain⟩, ⟨2, 1, .ro, .plain⟩, ⟨3, 1, .w1c, .plain⟩]⟩,
   ⟨0x0104001C, 0x0, 1, 0x0, 1, 0x00000000,
     [⟨0, 32, .ro, .plain⟩]⟩,
   ⟨0x01040020, 0x0, 1, 0x0, 1, 0x00000000,
     [⟨0, 32, .ro, .plain⟩]⟩,
   ⟨0x01040024, 0x0, 1, 0x0, 1, 0x00000000,
     [⟨0, 32, .ro, .plain⟩]⟩,
   ⟨0x01040028, 0x0, 1, 0x0, 1, 0x00000000,
     [⟨0, 3, .ro, .plain⟩, ⟨8, 10, .ro, .plain⟩, ⟨24, 8, .ro, .plain⟩]⟩]

/-- The registers of the SPN window. -/
def windowSPN : List RegSpec :=
  [⟨0x01100000, 0x0, 1, 0x0, 1, 0x00000000,
     [⟨0, 1, .w1s, .plain⟩, ⟨1, 1, .w1s, .plain⟩, ⟨2, 1, .w1s, .plain⟩, ⟨3, 1, .w1s, .plain⟩]⟩,
   ⟨0x01100004, 0x0, 1, 0x0, 1, 0x00000000,
     [⟨0, 4, .ro, .plain⟩, ⟨4, 1, .ro, .plain⟩, ⟨5, 1, .ro, .plain⟩, ⟨6, 1, .ro, .plain⟩, ⟨7, 1, .ro, .plain⟩, ⟨8, 1, .ro, .plain⟩, ⟨9, 1, .ro, .plain⟩, ⟨10, 2, .ro, .plain⟩, ⟨12, 2, .ro, .plain⟩, ⟨14, 2, .ro, .plain⟩, ⟨16, 3, .ro, .plain⟩]⟩,
   ⟨0x01100008, 0x0, 1, 0x0, 1, 0x00600000,
     [⟨0, 20, .ro, .plain⟩, ⟨20, 1, .ro, .plain⟩, ⟨21, 2, .ro, .plain⟩]⟩,
   ⟨0x0110000C, 0x0, 1, 0x0, 1, 0x0000FFFF,
     [⟨0, 16, .ro, .plain⟩]⟩,
   ⟨0x01100010, 0x0, 1, 0x0, 1, 0x00000000,
     [⟨0, 16, .ro, .plain⟩, ⟨16, 16, .ro, .plain⟩]⟩,
   ⟨0x01100014, 0x0, 1, 0x0, 1, 0x00000000,
     [⟨0, 16, .ro, .plain⟩, ⟨16, 16, .ro, .plain⟩]⟩,
   ⟨0x01100018, 0x0, 1, 0x0, 1, 0x00000000,
     [⟨0, 9, .ro, .plain⟩]⟩,
   ⟨0x0110001C, 0x0, 1, 0x0, 1, 0x010A1432,
     [⟨0, 8, .rwl, (.clamp 10 100)⟩, ⟨8, 8, .rwl, (.clamp 5 100)⟩, ⟨16, 8, .rwl, (.clamp 1 100)⟩, ⟨24, 1, .rwl, .plain⟩]⟩,
   ⟨0x01100020, 0x0, 1, 0x0, 1, 0x05DC09C4,
     [⟨0, 12, .rwl, (.clamp 500 2500)⟩, ⟨16, 12, .rwl, (.clamp 200 2500)⟩]⟩,
   ⟨0x01100024, 0x0, 1, 0x0, 1, 0x00000320,
     [⟨0, 12, .rwl, (.clamp 0 1500)⟩]⟩,
   ⟨0x01100028, 0x0, 1, 0x0, 1, 0x00000000,
     [⟨0, 16, .rwl, .plain⟩, ⟨16, 16, .rwl, .plain⟩]⟩,
   ⟨0x0110002C, 0x0, 1, 0x0, 1, 0x00000000,
     [⟨0, 16, .rwl, .plain⟩]⟩,
   ⟨0x01100030, 0x0, 1, 0x0, 1, 0x04001000,
     [⟨0, 16, .rw, .plain⟩, ⟨16, 16, .rw, .plain⟩]⟩,
   ⟨0x01100034, 0x0, 1, 0x0, 1, 0x01000800,
     [⟨0, 16, .rw, .plain⟩, ⟨16, 16, .rw, .plain⟩]⟩,
   ⟨0x01100038, 0x0, 1, 0x0, 1, 0x00000000,
     [⟨0, 16, .rw, .plain⟩, ⟨16, 1, .rw, .plain⟩]⟩,
   ⟨0x0110003C, 0x0, 1, 0x0, 1, 0x00000000,
     [⟨0, 10, .w1c, .plain⟩]⟩,
   ⟨0x01100040, 0x0, 1, 0x0, 1, 0x00000000,
     [⟨0, 16, .ros, .plain⟩, ⟨16, 8, .ros, .plain⟩, ⟨24, 8, .ros, .plain⟩]⟩,
   ⟨0x01100100, 0x4, 512, 0x0, 1, 0x00000000,
     [⟨0, 16, .rwl, .plain⟩, ⟨16, 16, .rwl, .plain⟩]⟩]

/-- The registers of the NDL window. -/
def windowNDL : List RegSpec :=
  [⟨0x01200000, 0x0, 1, 0x0, 1, 0x00004003,
     [⟨0, 4, .rw, (.ignoreBelow 1)⟩, ⟨8, 8, .rw, (.clamp 1 255)⟩, ⟨16, 1, .rw, .plain⟩, ⟨17, 1, .rw, .plain⟩]⟩,
   ⟨0x01200004, 0x0, 1, 0x0, 1, 0x00000300,
     [⟨0, 3, .ro, .plain⟩, ⟨3, 1, .ro, .plain⟩, ⟨4, 1, .ro, .plain⟩, ⟨5, 3, .ro, .plain⟩, ⟨8, 2, .ro, .plain⟩, ⟨10, 1, .ro, .plain⟩, ⟨11, 2, .ro, .plain⟩, ⟨13, 1, .ro, .plain⟩, ⟨14, 1, .ro, .plain⟩]⟩,
   ⟨0x01200008, 0x0, 1, 0x0, 1, 0x00000000,
     [⟨0, 9, .w1c, .plain⟩]⟩,
   ⟨0x0120000C, 0x0, 1, 0x0, 1, 0x00000000,
     [⟨0, 16, .ros, .plain⟩, ⟨16, 16, .ros, .plain⟩]⟩,
   ⟨0x01200010, 0x0, 1, 0x0, 1, 0x00000000,
     [⟨0, 32, .ro, .plain⟩]⟩,
   ⟨0x01200014, 0x0, 1, 0x0, 1, 0x00000000,
     [⟨0, 32, .ro, .plain⟩]⟩,
   ⟨0x01200018, 0x0, 1, 0x0, 1, 0x00000000,
     [⟨0, 32, .ro, .plain⟩]⟩,
   ⟨0x0120001C, 0x0, 1, 0x0, 1, 0x00000000,
     [⟨0, 32, .ro, .plain⟩]⟩,
   ⟨0x01200020, 0x0, 1, 0x0, 1, 0x00000000,
     [⟨0, 32, .ro, .plain⟩]⟩,
   ⟨0x01200024, 0x0, 1, 0x0, 1, 0x00000000,
     [⟨0, 32, .ro, .plain⟩]⟩,
   ⟨0x01200028, 0x0, 1, 0x0, 1, 0x00000000,
     [⟨0, 32, .ro, .plain⟩]⟩,
   ⟨0x0120002C, 0x0, 1, 0x0, 1, 0x00000000,
     [⟨0, 16, .ro, .plain⟩, ⟨16, 16, .ro, .plain⟩]⟩,
   ⟨0x01200030, 0x0, 1, 0x0, 1, 0x00000000,
     [⟨0, 16, .rw, .plain⟩, ⟨16, 16, .rw, .plain⟩]⟩,
   ⟨0x01200034, 0x0, 1, 0x0, 1, 0x00081999,
     [⟨0, 16, .rw, .plain⟩, ⟨16, 8, .rw, (.clamp 1 255)⟩]⟩,
   ⟨0x01200038, 0x0, 1, 0x0, 1, 0x00002666,
     [⟨0, 16, .rw, .plain⟩]⟩,
   ⟨0x0120003C, 0x0, 1, 0x0, 1, 0x00000000,
     [⟨0, 16, .ro, .plain⟩, ⟨16, 16, .ro, .plain⟩]⟩,
   ⟨0x01200040, 0x0, 1, 0x0, 1, 0x00000000,
     [⟨0, 12, .ro, .plain⟩, ⟨12, 7, .ro, .plain⟩]⟩,
   ⟨0x01200044, 0x0, 1, 0x0, 1, 0x00000000,
     [⟨0, 16, .ro, .plain⟩, ⟨16, 16, .ro, .plain⟩]⟩,
   ⟨0x01200048, 0x0, 1, 0x0, 1, 0x00000000,
     [⟨0, 16, .ro, .plain⟩, ⟨16, 16, .ro, .plain⟩]⟩,
   ⟨0x0120004C, 0x0, 1, 0x0, 1, 0x00000000,
     [⟨0, 5, .ro, .plain⟩, ⟨5, 3, .ro, .plain⟩, ⟨16, 16, .ro, .plain⟩]⟩,
   ⟨0x01200050, 0x0, 1, 0x0, 1, 0x00000000,
     [⟨0, 32, .rw, .plain⟩]⟩,
   ⟨0x01200054, 0x0, 1, 0x0, 1, 0x00000000,
     [⟨0, 32, .rw, .plain⟩]⟩,
   ⟨0x01200058, 0x0, 1, 0x0, 1, 0x00000000,
     [⟨0, 1, .w1s, .plain⟩]⟩,
   ⟨0x01200060, 0x10, 4, 0x0, 1, 0x00000000,
     [⟨0, 32, .rw, .plain⟩]⟩,
   ⟨0x01200064, 0x10, 4, 0x0, 1, 0x00000000,
     [⟨0, 32, .rw, .plain⟩]⟩,
   ⟨0x01200068, 0x10, 4, 0x0, 1, 0x00000000,
     [⟨0, 32, .rw, .plain⟩]⟩,
   ⟨0x012000A0, 0x0, 1, 0x0, 1, 0x00000000,
     [⟨0, 32, .w1c, .plain⟩]⟩,
   ⟨0x012000A4, 0x0, 1, 0x0, 1, 0x00000000,
     [⟨0, 32, .w1c, .plain⟩]⟩]

/-- The registers of the ACT window. -/
def windowACT : List RegSpec :=
  [⟨0x01300000, 0x0, 1, 0x0, 1, 0x00000002,
     [⟨0, 1, .rw, .plain⟩, ⟨1, 1, .rw, .plain⟩, ⟨2, 1, .rw, .plain⟩, ⟨4, 4, .rw, .plain⟩]⟩,
   ⟨0x01300004, 0x0, 1, 0x0, 1, 0x00000000,
     [⟨0, 1, .w1s, .plain⟩, ⟨1, 1, .w1s, .plain⟩, ⟨2, 1, .w1s, .plain⟩, ⟨3, 1, .w1s, .plain⟩]⟩,
   ⟨0x01300008, 0x0, 1, 0x0, 1, 0x00000000,
     [⟨0, 3, .ro, .plain⟩, ⟨3, 1, .ro, .plain⟩, ⟨4, 1, .ro, .plain⟩, ⟨5, 4, .ro, .plain⟩, ⟨9, 1, .ro, .plain⟩, ⟨10, 3, .ro, .plain⟩, ⟨13, 3, .ro, .plain⟩]⟩,
   ⟨0x0130000C, 0x0, 1, 0x0, 1, 0x00000089,
     [⟨0, 11, .ro, .plain⟩]⟩,
   ⟨0x01300010, 0x0, 1, 0x0, 1, 0x00000000,
     [⟨0, 10, .w1c, .plain⟩]⟩,
   ⟨0x01300014, 0x0, 1, 0x0, 1, 0x00000000,
     [⟨0, 16, .ros, .plain⟩, ⟨16, 8, .ros, .plain⟩, ⟨24, 8, .ros, .plain⟩]⟩,
   ⟨0x01300018, 0x0, 1, 0x0, 1, 0x02580708,
     [⟨0, 11, .rw, (.clamp 100 1800)⟩, ⟨16, 11, .rw, (.clamp 200 1000)⟩]⟩,
   ⟨0x0130001C, 0x0, 1, 0x0, 1, 0x0000005A,
     [⟨0, 7, .rw, (.clamp 0 90)⟩]⟩,
   ⟨0x01300020, 0x0, 1, 0x0, 1, 0x012C012C,
     [⟨0, 16, .rw, .plain⟩, ⟨16, 16, .rw, .plain⟩]⟩,
   ⟨0x01300024, 0x0, 1, 0x0, 1, 0x0A140814,
     [⟨0, 8, .rw, .plain⟩, ⟨8, 8, .rw, (.clamp 1 255)⟩, ⟨16, 8, .rw, (.clamp 0 100)⟩, ⟨24, 8, .rw, (.clamp 1 50)⟩]⟩,
   ⟨0x01300028, 0x0, 1, 0x0, 1, 0x01900000,
     [⟨0, 16, .rw, .plain⟩, ⟨16, 16, .rw, .plain⟩]⟩,
   ⟨0x0130002C, 0x0, 1, 0x0, 1, 0x00000000,
     [⟨0, 8, .rwl, .plain⟩, ⟨8, 8, .rwl, .plain⟩, ⟨16, 8, .rwl, .plain⟩, ⟨24, 8, .rwl, .plain⟩]⟩,
   ⟨0x01300030, 0x0, 1, 0x0, 1, 0x00000000,
     [⟨0, 16, .rwl, .plain⟩, ⟨16, 16, .rwl, .plain⟩]⟩,
   ⟨0x01300034, 0x0, 1, 0x0, 1, 0x00000000,
     [⟨0, 8, .rw, .plain⟩, ⟨8, 1, .rw, .plain⟩, ⟨9, 1, .w1s, .plain⟩, ⟨16, 16, .rw, .plain⟩]⟩,
   ⟨0x01300038, 0x0, 1, 0x0, 1, 0x00000000,
     [⟨0, 16, .ro, .plain⟩, ⟨16, 8, .ro, .plain⟩, ⟨24, 1, .ro, .plain⟩, ⟨25, 1, .ro, .plain⟩]⟩,
   ⟨0x0130003C, 0x0, 1, 0x0, 1, 0x00000000,
     [⟨0, 16, .ro, .plain⟩, ⟨16, 4, .ro, .plain⟩]⟩,
   ⟨0x01300040, 0x4, 10, 0x0, 1, 0x00000000,
     [⟨0, 16, .rw, .plain⟩, ⟨16, 16, .rw, .plain⟩]⟩,
   ⟨0x01300070, 0x4, 10, 0x0, 1, 0x00320000,
     [⟨0, 16, .rw, .plain⟩, ⟨16, 12, .rw, (.clamp 50 400)⟩]⟩,
   ⟨0x013000A0, 0x4, 10, 0x0, 1, 0x00000000,
     [⟨0, 16, .ro, .plain⟩]⟩,
   ⟨0x01302000, 0x0, 1, 0x0, 1, 0x00000000,
     [⟨0, 16, .ro, .plain⟩]⟩]

/-- The registers of the SLC window. -/
def windowSLC : List RegSpec :=
  [⟨0x01400000, 0x0, 1, 0x0, 1, 0x00000002,
     [⟨0, 1, .rw, .plain⟩, ⟨1, 1, .rw, .plain⟩]⟩,
   ⟨0x01400004, 0x0, 1, 0x0, 1, 0x00000718,
     [⟨0, 3, .ro, .plain⟩, ⟨3, 2, .ro, .plain⟩, ⟨5, 1, .ro, .plain⟩, ⟨6, 2, .ro, .plain⟩, ⟨8, 3, .ro, .plain⟩, ⟨11, 4, .ro, .plain⟩, ⟨15, 3, .ro, .plain⟩, ⟨18, 1, .ro, .plain⟩]⟩,
   ⟨0x01400008, 0x0, 1, 0x0, 1, 0x00000310,
     [⟨0, 6, .rw, (.clamp 4 32)⟩, ⟨8, 4, .rw, (.clamp 0 6)⟩]⟩,
   ⟨0x0140000C, 0x0, 1, 0x0, 1, 0x00003A98,
     [⟨0, 4, .rw, .plain⟩, ⟨4, 4, .rw, .plain⟩, ⟨8, 4, .rw, .plain⟩, ⟨12, 4, .rw, .plain⟩]⟩,
   ⟨0x01400010, 0x0, 1, 0x0, 1, 0x01409632,
     [⟨0, 8, .rw, .plain⟩, ⟨8, 8, .rw, .plain⟩, ⟨16, 8, .rw, .plain⟩, ⟨24, 1, .rw, .plain⟩]⟩,
   ⟨0x01400014, 0x0, 1, 0x0, 1, 0x0000C810,
     [⟨0, 5, .rw, (.clamp 1 16)⟩, ⟨8, 8, .rw, (.clamp 1 200)⟩]⟩,
   ⟨0x01400018, 0x0, 1, 0x0, 1, 0x00000308,
     [⟨0, 5, .rw, (.clamp 1 16)⟩, ⟨8, 3, .rw, (.clamp 1 7)⟩]⟩,
   ⟨0x0140001C, 0x0, 1, 0x0, 1, 0x00000000,
     [⟨0, 10, .rw, .plain⟩]⟩,
   ⟨0x01400020, 0x0, 1, 0x0, 1, 0x00000000,
     [⟨0, 9, .w1c, .plain⟩]⟩,
   ⟨0x01400024, 0x0, 1, 0x0, 1, 0x00000000,
     [⟨0, 8, .ros, .plain⟩, ⟨8, 8, .ros, .plain⟩, ⟨16, 8, .ros, .plain⟩, ⟨24, 8, .ros, .plain⟩]⟩,
   ⟨0x01400028, 0x0, 1, 0x0, 1, 0x00000000,
     [⟨0, 32, .ros, .plain⟩]⟩,
   ⟨0x0140002C, 0x0, 1, 0x0, 1, 0x00000000,
     [⟨0, 16, .ros, .plain⟩, ⟨16, 16, .ros, .plain⟩]⟩,
   ⟨0x01400030, 0x0, 1, 0x0, 1, 0x00004000,
     [⟨0, 6, .rw, .plain⟩, ⟨8, 2, .rw, .plain⟩, ⟨12, 4, .rw, (.clamp 1 15)⟩, ⟨16, 8, .rw, .plain⟩, ⟨31, 1, .w1s, .plain⟩]⟩,
   ⟨0x01400034, 0x0, 1, 0x0, 1, 0x00000000,
     [⟨0, 1, .ro, .plain⟩, ⟨1, 1, .w1c, .plain⟩, ⟨2, 1, .ro, .plain⟩, ⟨8, 8, .ro, .plain⟩, ⟨16, 8, .ro, .plain⟩, ⟨24, 3, .ro, .plain⟩]⟩,
   ⟨0x01400038, 0x0, 1, 0x0, 1, 0x00000000,
     [⟨0, 32, .w1c, .plain⟩]⟩,
   ⟨0x0140003C, 0x0, 1, 0x0, 1, 0x00000000,
     [⟨0, 10, .w1c, .plain⟩]⟩,
   ⟨0x01400040, 0x4, 10, 0x0, 1, 0x00000000,
     [⟨0, 16, .rw, .plain⟩, ⟨16, 16, .rw, .plain⟩]⟩,
   ⟨0x01400080, 0x4, 16, 0x0, 1, 0x00000000,
     [⟨0, 16, .rw, .plain⟩, ⟨16, 16, .rw, .plain⟩]⟩]

/-- The registers of the FMT window. -/
def windowFMT : List RegSpec :=
  [⟨0x01500000, 0x0, 1, 0x0, 1, 0x00000000,
     [⟨0, 19, .rw, .plain⟩]⟩,
   ⟨0x01500004, 0x4, 4, 0x0, 1, 0x00000000,
     [⟨0, 32, .ro, .plain⟩]⟩,
   ⟨0x01500014, 0x0, 1, 0x0, 1, 0x00000000,
     [⟨0, 24, .ro, .plain⟩, ⟨24, 4, .ro, .plain⟩, ⟨28, 1, .ro, .plain⟩]⟩,
   ⟨0x01500018, 0x0, 1, 0x0, 1, 0x00000000,
     [⟨0, 11, .ro, .plain⟩, ⟨11, 11, .ro, .plain⟩, ⟨22, 10, .ro, .plain⟩]⟩,
   ⟨0x0150001C, 0x0, 1, 0x0, 1, 0x00000000,
     [⟨0, 19, .ro, .plain⟩]⟩,
   ⟨0x01500020, 0x0, 1, 0x0, 1, 0x00000000,
     [⟨0, 16, .ros, .plain⟩, ⟨16, 16, .ros, .plain⟩]⟩]

/-- The registers of the STM window. -/
def windowSTM : List RegSpec :=
  [⟨0x01600000, 0x0, 1, 0x0, 1, 0x00401000,
     [⟨0, 16, .rwl, (.clamp 256 16384)⟩, ⟨16, 8, .rwl, .plain⟩, ⟨24, 1, .w1s, .plain⟩]⟩,
   ⟨0x01600004, 0x0, 1, 0x0, 1, 0x00000000,
     [⟨0, 1, .ro, .plain⟩, ⟨1, 1, .ro, .plain⟩, ⟨2, 1, .ro, .plain⟩, ⟨3, 1, .ro, .plain⟩, ⟨4, 1, .ro, .plain⟩]⟩,
   ⟨0x01600008, 0x0, 1, 0x0, 1, 0x00000000,
     [⟨0, 23, .ro, .plain⟩]⟩,
   ⟨0x0160000C, 0x0, 1, 0x0, 1, 0x00004000,
     [⟨0, 15, .ro, .plain⟩]⟩,
   ⟨0x01600010, 0x0, 1, 0x0, 1, 0x00000000,
     [⟨0, 32, .ro, .plain⟩]⟩,
   ⟨0x01600014, 0x0, 1, 0x0, 1, 0x00000000,
     [⟨0, 32, .ro, .plain⟩]⟩,
   ⟨0x01600018, 0x0, 1, 0x0, 1, 0x00000000,
     [⟨0, 12, .ro, .plain⟩]⟩,
   ⟨0x0160001C, 0x0, 1, 0x0, 1, 0x00000000,
     [⟨0, 32, .ro, .plain⟩]⟩,
   ⟨0x01600020, 0x0, 1, 0x0, 1, 0x00000000,
     [⟨0, 32, .ro, .plain⟩]⟩,
   ⟨0x01600024, 0x0, 1, 0x0, 1, 0x00000000,
     [⟨0, 5, .w1c, .plain⟩]⟩]

/-- The registers of the HIF window. -/
def windowHIF : List RegSpec :=
  [⟨0x02000000, 0x4, 2, 0x0, 1, 0x00000000,
     [⟨0, 1, .ro, .plain⟩, ⟨1, 3, .ro, .plain⟩, ⟨4, 3, .ro, .plain⟩, ⟨7, 1, .ro, .plain⟩, ⟨8, 5, .ro, .plain⟩]⟩,
   ⟨0x02000008, 0x4, 2, 0x0, 1, 0x00000000,
     [⟨0, 16, .ro, .plain⟩, ⟨16, 16, .ro, .plain⟩]⟩,
   ⟨0x02000010, 0x0, 1, 0x0, 1, 0x00000000,
     [⟨0, 32, .w1sHeld, .plain⟩]⟩,
   ⟨0x02000014, 0x0, 1, 0x0, 1, 0x00000000,
     [⟨0, 32, .ro, .plain⟩]⟩,
   ⟨0x02000018, 0x0, 1, 0x0, 1, 0x00000000,
     [⟨0, 32, .ro, .plain⟩]⟩,
   ⟨0x0200001C, 0x0, 1, 0x0, 1, 0x00000000,
     [⟨0, 32, .rw, .plain⟩]⟩,
   ⟨0x02000020, 0x0, 1, 0x0, 1, 0x00000000,
     [⟨0, 8, .rw, .plain⟩, ⟨8, 3, .rw, .plain⟩, ⟨31, 1, .w1s, .plain⟩]⟩,
   ⟨0x02000024, 0x0, 1, 0x0, 1, 0x00000000,
     [⟨0, 8, .ro, .plain⟩, ⟨8, 1, .ro, .plain⟩, ⟨16, 16, .ro, .plain⟩]⟩]

/-- The registers of the QUE window. -/
def windowQUE : List RegSpec :=
  [⟨0x02100000, 0x0, 1, 0x0, 1, 0x00000000,
     [⟨0, 5, .rw, .plain⟩]⟩,
   ⟨0x02100004, 0x0, 1, 0x0, 1, 0x00000000,
     [⟨0, 12, .ro, .plain⟩, ⟨12, 13, .ro, .plain⟩]⟩,
   ⟨0x02100008, 0x0, 1, 0x0, 1, 0x00000000,
     [⟨0, 12, .ro, .plain⟩, ⟨12, 13, .ro, .plain⟩]⟩,
   ⟨0x0210000C, 0x0, 1, 0x0, 1, 0x00000000,
     [⟨0, 13, .ro, .plain⟩, ⟨16, 13, .ro, .plain⟩]⟩,
   ⟨0x02100010, 0x0, 1, 0x0, 1, 0x00000000,
     [⟨0, 16, .ro, .plain⟩, ⟨16, 16, .ro, .plain⟩]⟩,
   ⟨0x02100014, 0x0, 1, 0x0, 1, 0x00008000,
     [⟨0, 16, .ro, .plain⟩]⟩,
   ⟨0x02100018, 0x0, 1, 0x0, 1, 0x00000000,
     [⟨0, 32, .rw, .plain⟩]⟩,
   ⟨0x0210001C, 0x0, 1, 0x0, 1, 0x00000000,
     [⟨0, 13, .rw, .plain⟩]⟩,
   ⟨0x02100020, 0x0, 1, 0x0, 1, 0x00000000,
     [⟨0, 16, .ro, .plain⟩, ⟨16, 16, .ro, .plain⟩]⟩,
   ⟨0x02100024, 0x0, 1, 0x0, 1, 0x00000000,
     [⟨0, 14, .ro, .plain⟩, ⟨14, 1, .ro, .plain⟩, ⟨15, 2, .ro, .plain⟩, ⟨17, 12, .ro, .plain⟩]⟩]

/-- The registers of the SCH window. -/
def windowSCH : List RegSpec :=
  [⟨0x02300000, 0x100, 2, 0x0, 1, 0x00000304,
     [⟨0, 8, .rw, .plain⟩, ⟨8, 1, .rw, .plain⟩, ⟨9, 1, .rw, .plain⟩]⟩,
   ⟨0x02300004, 0x100, 2, 0x0, 1, 0x00640096,
     [⟨0, 16, .rw, .plain⟩, ⟨16, 16, .rw, .plain⟩]⟩,
   ⟨0x02300008, 0x100, 2, 0x0, 1, 0x00000000,
     [⟨0, 14, .ro, .plain⟩, ⟨16, 14, .ro, .plain⟩]⟩,
   ⟨0x0230000C, 0x100, 2, 0x0, 1, 0x00000000,
     [⟨0, 13, .ro, .plain⟩, ⟨13, 1, .ro, .plain⟩, ⟨14, 1, .ro, .plain⟩, ⟨15, 17, .ro, .plain⟩]⟩,
   ⟨0x02300010, 0x100, 2, 0x0, 1, 0x00000000,
     [⟨0, 32, .ro, .plain⟩]⟩,
   ⟨0x02300014, 0x100, 2, 0x0, 1, 0x00000000,
     [⟨0, 16, .ro, .plain⟩, ⟨16, 16, .ro, .plain⟩]⟩,
   ⟨0x02300040, 0x100, 2, 0x4, 16, 0x00000000,
     [⟨0, 16, .rw, .plain⟩, ⟨16, 16, .rw, .plain⟩]⟩,
   ⟨0x02300400, 0x0, 1, 0x0, 1, 0x00020200,
     [⟨0, 12, .rwl, (.clamp 0 4095)⟩, ⟨12, 8, .rwl, (.clamp 0 255)⟩]⟩,
   ⟨0x02300404, 0x0, 1, 0x0, 1, 0x00006000,
     [⟨0, 16, .rwl, (.clamp 0 32768)⟩, ⟨16, 16, .ro, .plain⟩]⟩]

/-- The registers of the ORD window. -/
def windowORD : List RegSpec :=
  [⟨0x02200800, 0x0, 1, 0x0, 1, 0x00000000,
     [⟨0, 1, .ro, .plain⟩, ⟨1, 1, .ro, .plain⟩, ⟨2, 1, .ro, .plain⟩, ⟨3, 1, .ro, .plain⟩, ⟨8, 8, .ro, .plain⟩]⟩,
   ⟨0x02200804, 0x0, 1, 0x0, 1, 0x00000000,
     [⟨0, 1, .w1s, .plain⟩, ⟨1, 1, .w1s, .plain⟩]⟩,
   ⟨0x02200808, 0x0, 1, 0x0, 1, 0x00000000,
     [⟨0, 15, .ro, .plain⟩]⟩,
   ⟨0x0220080C, 0x0, 1, 0x0, 1, 0x00000000,
     [⟨0, 32, .ro, .plain⟩]⟩,
   ⟨0x02200810, 0x0, 1, 0x0, 1, 0x00000000,
     [⟨0, 5, .rw, .plain⟩]⟩,
   ⟨0x02200814, 0x0, 1, 0x0, 1, 0x00000000,
     [⟨0, 32, .ro, .plain⟩]⟩,
   ⟨0x02200818, 0x0, 1, 0x0, 1, 0x00000000,
     [⟨0, 32, .ro, .plain⟩]⟩,
   ⟨0x0220081C, 0x0, 1, 0x0, 1, 0x00000000,
     [⟨0, 32, .ro, .plain⟩]⟩,
   ⟨0x02200820, 0x0, 1, 0x0, 1, 0x00000000,
     [⟨0, 32, .ro, .plain⟩]⟩,
   ⟨0x02200000, 0x0, 1, 0x0, 1, 0x00000000,
     [⟨0, 16, .ro, .plain⟩, ⟨16, 16, .ro, .plain⟩]⟩,
   ⟨0x02200004, 0x0, 1, 0x0, 1, 0x00000000,
     [⟨0, 14, .ro, .plain⟩, ⟨16, 14, .ro, .plain⟩]⟩,
   ⟨0x02200008, 0x0, 1, 0x0, 1, 0x00000000,
     [⟨0, 32, .ro, .plain⟩]⟩,
   ⟨0x0220000C, 0x0, 1, 0x0, 1, 0x00000000,
     [⟨0, 32, .ro, .plain⟩]⟩,
   ⟨0x02200010, 0x0, 1, 0x0, 1, 0x00000000,
     [⟨0, 16, .ros, .plain⟩, ⟨16, 16, .ros, .plain⟩]⟩,
   ⟨0x02200014, 0x0, 1, 0x0, 1, 0x00000000,
     [⟨0, 7, .w1c, .plain⟩]⟩,
   ⟨0x02200018, 0x0, 1, 0x0, 1, 0x00000000,
     [⟨0, 11, .ro, .plain⟩, ⟨11, 1, .ro, .plain⟩]⟩,
   ⟨0x02200020, 0x0, 1, 0x0, 1, 0x00000000,
     [⟨0, 32, .rw, .plain⟩]⟩,
   ⟨0x02200024, 0x0, 1, 0x0, 1, 0x00000000,
     [⟨0, 8, .rw, .plain⟩, ⟨16, 16, .rw, .plain⟩]⟩,
   ⟨0x02200028, 0x0, 1, 0x0, 1, 0x00000000,
     [⟨0, 6, .rw, .plain⟩, ⟨8, 1, .w1s, .plain⟩, ⟨9, 1, .w1s, .plain⟩]⟩,
   ⟨0x0220002C, 0x0, 1, 0x0, 1, 0x00004000,
     [⟨0, 6, .ro, .plain⟩, ⟨6, 1, .ro, .plain⟩, ⟨8, 7, .ro, .plain⟩, ⟨16, 16, .ro, .plain⟩]⟩]

/-- The registers of the DRN window. -/
def windowDRN : List RegSpec :=
  [⟨0x02400000, 0x0, 1, 0x0, 1, 0x00400C13,
     [⟨0, 1, .rw, .plain⟩, ⟨1, 1, .rw, .plain⟩, ⟨4, 4, .rw, (.clamp 1 7)⟩, ⟨8, 5, .rw, (.clamp 1 16)⟩, ⟨16, 8, .rw, .plain⟩]⟩,
   ⟨0x02400004, 0x0, 1, 0x0, 1, 0x0000051C,
     [⟨0, 8, .rw, (.clamp 1 255)⟩, ⟨8, 8, .rw, (.clamp 1 50)⟩]⟩,
   ⟨0x02400008, 0x0, 1, 0x0, 1, 0x00040CCD,
     [⟨0, 16, .rw, .plain⟩, ⟨16, 4, .rw, (.clamp 1 15)⟩]⟩,
   ⟨0x0240000C, 0x0, 1, 0x0, 1, 0x00000000,
     [⟨0, 1, .ro, .plain⟩, ⟨1, 1, .ro, .plain⟩, ⟨2, 1, .ro, .plain⟩, ⟨8, 5, .ro, .plain⟩, ⟨16, 5, .ro, .plain⟩]⟩,
   ⟨0x02400010, 0x4, 2, 0x0, 1, 0x00000000,
     [⟨0, 19, .ro, .plain⟩]⟩,
   ⟨0x02400018, 0x4, 2, 0x0, 1, 0x00000000,
     [⟨0, 16, .ros, .plain⟩, ⟨16, 16, .ros, .plain⟩]⟩,
   ⟨0x02400020, 0x4, 7, 0x0, 1, 0x00000000,
     [⟨0, 32, .ros, .plain⟩]⟩,
   ⟨0x0240003C, 0x0, 1, 0x0, 1, 0x00000000,
     [⟨0, 32, .ros, .plain⟩]⟩,
   ⟨0x02400040, 0x0, 1, 0x0, 1, 0x00000000,
     [⟨0, 16, .ros, .plain⟩, ⟨16, 16, .ros, .plain⟩]⟩,
   ⟨0x02400044, 0x0, 1, 0x0, 1, 0x00000000,
     [⟨0, 17, .ro, .plain⟩, ⟨17, 15, .ro, .plain⟩]⟩,
   ⟨0x02400048, 0x0, 1, 0x0, 1, 0x00000000,
     [⟨0, 19, .ro, .plain⟩, ⟨19, 1, .ro, .plain⟩, ⟨20, 7, .ro, .plain⟩]⟩,
   ⟨0x0240004C, 0x0, 1, 0x0, 1, 0x00000000,
     [⟨0, 19, .rw, .plain⟩, ⟨30, 1, .w1s, .plain⟩, ⟨31, 1, .w1s, .plain⟩]⟩,
   ⟨0x02400050, 0x0, 1, 0x0, 1, 0x00000000,
     [⟨0, 19, .ro, .plain⟩, ⟨19, 1, .ro, .plain⟩, ⟨20, 1, .w1c, .plain⟩, ⟨21, 3, .ro, .plain⟩, ⟨24, 8, .ro, .plain⟩]⟩,
   ⟨0x02400054, 0x0, 1, 0x0, 1, 0x00000000,
     [⟨0, 9, .w1c, .plain⟩]⟩,
   ⟨0x02400058, 0x0, 1, 0x0, 1, 0x00000000,
     [⟨0, 8, .ros, .plain⟩, ⟨8, 8, .ros, .plain⟩, ⟨16, 8, .ros, .plain⟩, ⟨24, 8, .ros, .plain⟩]⟩]

/-- The registers of the MEM window. -/
def windowMEM : List RegSpec :=
  [⟨0x03000000, 0x0, 1, 0x0, 1, 0x00000101,
     [⟨0, 1, .rw, .plain⟩, ⟨8, 8, .rw, (.ignoreBelow 1)⟩]⟩,
   ⟨0x03000004, 0x0, 1, 0x0, 1, 0x00000000,
     [⟨0, 1, .ro, .plain⟩, ⟨1, 1, .ro, .plain⟩, ⟨2, 1, .ro, .plain⟩, ⟨3, 1, .ro, .plain⟩, ⟨8, 20, .ro, .plain⟩, ⟨28, 1, .ro, .plain⟩]⟩,
   ⟨0x03000008, 0x0, 1, 0x0, 1, 0x01001003,
     [⟨0, 4, .rw, (.clamp 1 15)⟩, ⟨8, 8, .rwl, .plain⟩, ⟨16, 16, .rw, .plain⟩]⟩,
   ⟨0x03000010, 0x4, 2, 0x0, 1, 0x00000000,
     [⟨0, 16, .ros, .plain⟩, ⟨16, 16, .ros, .plain⟩]⟩,
   ⟨0x03000018, 0x4, 2, 0x0, 1, 0x00000000,
     [⟨0, 16, .ros, .plain⟩, ⟨16, 16, .ros, .plain⟩]⟩,
   ⟨0x03000020, 0x4, 2, 0x0, 1, 0x00000000,
     [⟨0, 11, .ro, .plain⟩, ⟨16, 16, .ro, .plain⟩]⟩,
   ⟨0x03000028, 0x0, 1, 0x0, 1, 0x00000000,
     [⟨0, 7, .ro, .plain⟩]⟩,
   ⟨0x0300002C, 0x0, 1, 0x0, 1, 0x00000000,
     [⟨0, 6, .rw, .plain⟩]⟩,
   ⟨0x03000030, 0x0, 1, 0x0, 1, 0x00000000,
     [⟨0, 26, .ro, .plain⟩, ⟨26, 1, .ro, .plain⟩, ⟨27, 1, .ro, .plain⟩]⟩,
   ⟨0x03000034, 0x0, 1, 0x0, 1, 0x00000000,
     [⟨0, 32, .ro, .plain⟩]⟩,
   ⟨0x03000038, 0x0, 1, 0x0, 1, 0x00000000,
     [⟨0, 1, .ro, .plain⟩, ⟨1, 3, .ro, .plain⟩, ⟨8, 8, .ro, .plain⟩]⟩,
   ⟨0x0300003C, 0x0, 1, 0x0, 1, 0x00000000,
     [⟨0, 9, .w1c, .plain⟩]⟩,
   ⟨0x03000040, 0x4, 2, 0x0, 1, 0x00000000,
     [⟨0, 16, .ro, .plain⟩]⟩]

/-- The registers of the SRM window. -/
def windowSRM : List RegSpec :=
  [⟨0x03100000, 0x0, 1, 0x0, 1, 0x00C00000,
     [⟨0, 8, .ro, .plain⟩, ⟨8, 8, .ro, .plain⟩, ⟨16, 8, .ro, .plain⟩]⟩,
   ⟨0x03100004, 0x0, 1, 0x0, 1, 0x00000000,
     [⟨0, 16, .ros, .plain⟩, ⟨16, 16, .ros, .plain⟩]⟩,
   ⟨0x03100008, 0x0, 1, 0x0, 1, 0x00000000,
     [⟨0, 26, .ro, .plain⟩]⟩,
   ⟨0x0310000C, 0x0, 1, 0x0, 1, 0x00000000,
     [⟨0, 4, .w1c, .plain⟩]⟩]

/-- The registers of the TIR window. -/
def windowTIR : List RegSpec :=
  [⟨0x04100000, 0x0, 1, 0x0, 1, 0x00000000,
     [⟨0, 3, .ro, .plain⟩, ⟨3, 1, .ro, .plain⟩, ⟨4, 1, .ro, .plain⟩, ⟨5, 4, .ro, .plain⟩, ⟨9, 1, .ro, .plain⟩]⟩,
   ⟨0x04100004, 0x0, 1, 0x0, 1, 0x00000000,
     [⟨0, 5, .ros, .plain⟩, ⟨5, 1, .ros, .plain⟩, ⟨8, 8, .ros, .plain⟩, ⟨16, 8, .ros, .plain⟩]⟩,
   ⟨0x04100008, 0x0, 1, 0x0, 1, 0x00000000,
     [⟨0, 3, .rw, .plain⟩]⟩,
   ⟨0x0410000C, 0x0, 1, 0x0, 1, 0x00000000,
     [⟨0, 32, .ro, .plain⟩]⟩,
   ⟨0x04100010, 0x0, 1, 0x0, 1, 0x00000000,
     [⟨0, 32, .ro, .plain⟩]⟩,
   ⟨0x04100100, 0x40, 4, 0x0, 1, 0x00000000,
     [⟨0, 8, .rw, .plain⟩, ⟨8, 23, .rw, .plain⟩, ⟨31, 1, .w1s, .plain⟩]⟩,
   ⟨0x04100104, 0x40, 4, 0x4, 8, 0x00000000,
     [⟨0, 32, .rw, .plain⟩]⟩,
   ⟨0x04100124, 0x40, 4, 0x0, 1, 0x00000000,
     [⟨0, 1, .ro, .plain⟩, ⟨1, 1, .w1c, .plain⟩, ⟨8, 8, .ro, .plain⟩]⟩,
   ⟨0x04100128, 0x40, 4, 0x4, 6, 0x00000000,
     [⟨0, 32, .ro, .plain⟩]⟩]

/-- The registers of the CIP window. -/
def windowCIP : List RegSpec :=
  [⟨0x04000000, 0x0, 1, 0x0, 1, 0x00000000,
     [⟨0, 1, .rw, .plain⟩, ⟨1, 1, .rw, .plain⟩]⟩,
   ⟨0x04000004, 0x0, 1, 0x0, 1, 0x00000000,
     [⟨0, 3, .ro, .plain⟩, ⟨3, 4, .ro, .plain⟩, ⟨7, 1, .ro, .plain⟩]⟩,
   ⟨0x04000008, 0x0, 1, 0x0, 1, 0x00000000,
     [⟨0, 4, .rw, .plain⟩, ⟨4, 4, .rw, .plain⟩, ⟨8, 4, .rw, .plain⟩, ⟨12, 4, .rw, .plain⟩, ⟨16, 4, .rw, .plain⟩, ⟨20, 4, .rw, .plain⟩, ⟨24, 4, .rw, .plain⟩, ⟨28, 4, .rw, .plain⟩]⟩,
   ⟨0x0400000C, 0x0, 1, 0x0, 1, 0x00000000,
     [⟨0, 10, .rw, .plain⟩]⟩,
   ⟨0x04000010, 0x0, 1, 0x0, 1, 0x00000000,
     [⟨0, 32, .rw, .plain⟩]⟩,
   ⟨0x04000014, 0x0, 1, 0x0, 1, 0x00000000,
     [⟨0, 32, .ro, .plain⟩]⟩,
   ⟨0x04000020, 0x0, 1, 0x0, 1, 0x00000000,
     [⟨0, 7, .rw, .plain⟩]⟩,
   ⟨0x04000024, 0x0, 1, 0x0, 1, 0x00000000,
     [⟨0, 2, .ro, .plain⟩, ⟨2, 2, .ro, .plain⟩, ⟨4, 1, .rw, .plain⟩, ⟨5, 1, .ro, .plain⟩, ⟨6, 1, .ro, .plain⟩, ⟨7, 1, .ro, .plain⟩, ⟨8, 1, .ro, .plain⟩]⟩,
   ⟨0x04000028, 0x0, 1, 0x0, 1, 0x00000000,
     [⟨0, 19, .ro, .plain⟩, ⟨19, 5, .ro, .plain⟩, ⟨24, 1, .ro, .plain⟩]⟩,
   ⟨0x0400002C, 0x0, 1, 0x0, 1, 0x00000000,
     [⟨0, 32, .ro, .plain⟩]⟩,
   ⟨0x04000030, 0x0, 1, 0x0, 1, 0x00000000,
     [⟨0, 10, .ro, .plain⟩, ⟨16, 16, .ro, .plain⟩]⟩,
   ⟨0x04000034, 0x0, 1, 0x0, 1, 0x00000000,
     [⟨0, 32, .ro, .plain⟩]⟩,
   ⟨0x04000038, 0x0, 1, 0x0, 1, 0x00000000,
     [⟨0, 8, .ro, .plain⟩]⟩,
   ⟨0x0400003C, 0x0, 1, 0x0, 1, 0x00000000,
     [⟨0, 1, .w1s, .plain⟩]⟩,
   ⟨0x04000040, 0x4, 16, 0x0, 1, 0x00000000,
     [⟨0, 32, .rw, .readsZero⟩]⟩,
   ⟨0x04000080, 0x0, 1, 0x0, 1, 0x00000000,
     [⟨0, 2, .rw, .plain⟩, ⟨2, 2, .rw, .plain⟩, ⟨4, 7, .rw, .plain⟩, ⟨31, 1, .w1s, .plain⟩]⟩,
   ⟨0x04000090, 0x0, 1, 0x0, 1, 0x00000000,
     [⟨0, 10, .w1c, .plain⟩]⟩,
   ⟨0x04000094, 0x0, 1, 0x0, 1, 0x00000000,
     [⟨0, 16, .ros, .plain⟩, ⟨16, 16, .ros, .plain⟩]⟩,
   ⟨0x040000A0, 0x0, 1, 0x0, 1, 0x00000000,
     [⟨0, 32, .rw, .plain⟩]⟩,
   ⟨0x040000A4, 0x0, 1, 0x0, 1, 0x00000000,
     [⟨0, 32, .rw, .plain⟩]⟩,
   ⟨0x040000A8, 0x0, 1, 0x0, 1, 0x00000000,
     [⟨0, 24, .rw, .plain⟩]⟩,
   ⟨0x040000AC, 0x0, 1, 0x0, 1, 0x00000000,
     [⟨0, 7, .rw, .plain⟩, ⟨8, 1, .rw, .plain⟩, ⟨31, 1, .w1s, .plain⟩]⟩,
   ⟨0x040000B0, 0x0, 1, 0x0, 1, 0x00000000,
     [⟨0, 1, .ro, .plain⟩, ⟨1, 1, .w1c, .plain⟩, ⟨2, 2, .ro, .plain⟩]⟩]

/-- The registers of the GAU window. -/
def windowGAU : List RegSpec :=
  [⟨0x05000000, 0x0, 1, 0x0, 1, 0x00000000,
     [⟨0, 4, .rw, .plain⟩, ⟨4, 3, .rw, .plain⟩, ⟨7, 1, .rw, .plain⟩, ⟨8, 4, .rw, .plain⟩, ⟨31, 1, .w1s, .plain⟩]⟩,
   ⟨0x05000004, 0x0, 1, 0x0, 1, 0x00000000,
     [⟨0, 1, .ro, .plain⟩, ⟨1, 1, .w1c, .plain⟩, ⟨2, 2, .ro, .plain⟩, ⟨4, 1, .ro, .plain⟩, ⟨8, 4, .ro, .plain⟩]⟩,
   ⟨0x05000008, 0x0, 1, 0x0, 1, 0x00000000,
     [⟨0, 32, .ro, .plain⟩]⟩,
   ⟨0x0500000C, 0x0, 1, 0x0, 1, 0x02503010,
     [⟨0, 8, .rw, .plain⟩, ⟨8, 8, .rw, .plain⟩, ⟨16, 8, .rw, .plain⟩, ⟨24, 4, .rw, .plain⟩]⟩,
   ⟨0x05000010, 0x0, 1, 0x0, 1, 0x00140040,
     [⟨0, 16, .rw, .plain⟩, ⟨16, 8, .rw, .plain⟩]⟩,
   ⟨0x05000014, 0x0, 1, 0x0, 1, 0x80000000,
     [⟨0, 24, .rw, .plain⟩, ⟨31, 1, .rw, .plain⟩]⟩,
   ⟨0x05000018, 0x0, 1, 0x0, 1, 0x00000000,
     [⟨0, 10, .rw, .plain⟩]⟩,
   ⟨0x0500001C, 0x0, 1, 0x0, 1, 0x00000000,
     [⟨0, 3, .w1c, .plain⟩]⟩,
   ⟨0x05000020, 0x0, 1, 0x0, 1, 0x00000000,
     [⟨0, 4, .ro, .plain⟩, ⟨4, 1, .ro, .plain⟩]⟩,
   ⟨0x05000100, 0x4, 5, 0x0, 1, 0x00000000,
     [⟨0, 8, .rw, .plain⟩, ⟨8, 8, .rw, .plain⟩]⟩,
   ⟨0x05000120, 0x4, 5, 0x0, 1, 0x00000000,
     [⟨0, 32, .rw, .plain⟩]⟩,
   ⟨0x05000200, 0x40, 2, 0x4, 10, 0x00000000,
     [⟨0, 8, .rw, .plain⟩, ⟨8, 8, .rw, .plain⟩, ⟨16, 8, .rw, .plain⟩, ⟨24, 8, .rw, .plain⟩]⟩,
   ⟨0x05000300, 0x0, 1, 0x0, 1, 0x00000000,
     [⟨0, 8, .rw, .plain⟩, ⟨8, 8, .rw, .plain⟩, ⟨16, 8, .rw, .plain⟩]⟩,
   ⟨0x05000304, 0x0, 1, 0x0, 1, 0x00000000,
     [⟨0, 8, .rw, .plain⟩, ⟨8, 8, .rw, .plain⟩]⟩,
   ⟨0x05000308, 0x0, 1, 0x0, 1, 0x00000000,
     [⟨0, 8, .rw, .plain⟩, ⟨8, 8, .rw, .plain⟩, ⟨16, 8, .rw, .plain⟩]⟩,
   ⟨0x05000400, 0x40, 2, 0x4, 10, 0x00000000,
     [⟨0, 16, .ro, .plain⟩, ⟨16, 16, .ro, .plain⟩]⟩]

/-- The registers of the UPD window. -/
def windowUPD : List RegSpec :=
  [⟨0x05100000, 0x0, 1, 0x0, 1, 0x00000000,
     [⟨0, 3, .ro, .plain⟩, ⟨3, 3, .ro, .plain⟩, ⟨6, 3, .ro, .plain⟩, ⟨9, 3, .ro, .plain⟩, ⟨12, 1, .ro, .plain⟩, ⟨13, 2, .ro, .plain⟩, ⟨15, 1, .ro, .plain⟩, ⟨16, 1, .ro, .plain⟩]⟩,
   ⟨0x05100004, 0x0, 1, 0x0, 1, 0x00000000,
     [⟨0, 1, .w1s, .plain⟩, ⟨1, 1, .w1s, .plain⟩]⟩,
   ⟨0x05100008, 0x0, 1, 0x0, 1, 0x00000000,
     [⟨0, 8, .ro, .plain⟩, ⟨8, 8, .ro, .plain⟩, ⟨16, 3, .ro, .plain⟩]⟩,
   ⟨0x0510000C, 0x0, 1, 0x0, 1, 0x00000000,
     [⟨0, 17, .ro, .plain⟩]⟩,
   ⟨0x05100010, 0x0, 1, 0x0, 1, 0x00000000,
     [⟨0, 17, .ro, .plain⟩]⟩,
   ⟨0x05100014, 0x0, 1, 0x0, 1, 0x00000000,
     [⟨0, 14, .ro, .plain⟩]⟩,
   ⟨0x05100018, 0x0, 1, 0x0, 1, 0x00000FF0,
     [⟨0, 1, .w1sHeld, .plain⟩, ⟨1, 1, .w1sHeld, .plain⟩, ⟨2, 1, .w1sHeld, .plain⟩, ⟨3, 1, .ro, .plain⟩, ⟨4, 4, .ro, .plain⟩, ⟨8, 4, .ro, .plain⟩]⟩,
   ⟨0x0510001C, 0x0, 1, 0x0, 1, 0x00000000,
     [⟨0, 32, .rw, .plain⟩]⟩,
   ⟨0x05100020, 0x0, 1, 0x0, 1, 0x00000000,
     [⟨0, 32, .ro, .plain⟩]⟩,
   ⟨0x05100024, 0x0, 1, 0x0, 1, 0x00000000,
     [⟨0, 32, .ro, .plain⟩]⟩,
   ⟨0x05100028, 0x0, 1, 0x0, 1, 0x00000000,
     [⟨0, 10, .w1c, .plain⟩]⟩,
   ⟨0x05100040, 0x4, 8, 0x0, 1, 0x00000000,
     [⟨0, 32, .ro, .plain⟩]⟩]

/-- The registers of the REC window. -/
def windowREC : List RegSpec :=
  [⟨0x05200000, 0x0, 1, 0x0, 1, 0x00000000,
     [⟨0, 2, .ro, .plain⟩, ⟨2, 1, .ro, .plain⟩, ⟨3, 1, .ro, .plain⟩, ⟨4, 1, .ro, .plain⟩, ⟨8, 9, .ro, .plain⟩]⟩,
   ⟨0x05200004, 0x0, 1, 0x0, 1, 0x00000000,
     [⟨0, 1, .w1s, .plain⟩, ⟨1, 2, .rw, .plain⟩]⟩,
   ⟨0x05200008, 0x0, 1, 0x0, 1, 0x00000000,
     [⟨0, 19, .ro, .plain⟩]⟩,
   ⟨0x0520000C, 0x0, 1, 0x0, 1, 0x00000000,
     [⟨0, 32, .ro, .plain⟩]⟩,
   ⟨0x05200010, 0x0, 1, 0x0, 1, 0x00000000,
     [⟨0, 3, .ro, .plain⟩]⟩,
   ⟨0x05200014, 0x0, 1, 0x0, 1, 0xFFFFFFFF,
     [⟨0, 32, .ro, .plain⟩]⟩,
   ⟨0x05200018, 0x0, 1, 0x0, 1, 0xFFFFFFFF,
     [⟨0, 32, .ro, .plain⟩]⟩,
   ⟨0x05200020, 0x4, 8, 0x0, 1, 0x00000000,
     [⟨0, 32, .ros, .plain⟩]⟩,
   ⟨0x05200040, 0x0, 1, 0x0, 1, 0x00000000,
     [⟨0, 6, .rw, .plain⟩]⟩,
   ⟨0x05200044, 0x0, 1, 0x0, 1, 0x00000000,
     [⟨0, 32, .ro, .plain⟩]⟩,
   ⟨0x05200048, 0x0, 1, 0x0, 1, 0x00000000,
     [⟨0, 9, .w1c, .plain⟩]⟩,
   ⟨0x05200050, 0x0, 1, 0x0, 1, 0x00000000,
     [⟨0, 32, .rw, .plain⟩]⟩,
   ⟨0x05200054, 0x0, 1, 0x0, 1, 0x00000000,
     [⟨0, 16, .rw, .plain⟩, ⟨16, 8, .rw, .plain⟩, ⟨31, 1, .w1s, .plain⟩]⟩,
   ⟨0x05200058, 0x0, 1, 0x0, 1, 0x00000000,
     [⟨0, 8, .rw, .plain⟩, ⟨8, 6, .rw, .plain⟩, ⟨16, 3, .rw, .plain⟩, ⟨31, 1, .w1s, .plain⟩]⟩,
   ⟨0x05200060, 0x4, 8, 0x0, 1, 0x00000000,
     [⟨0, 32, .rw, .plain⟩]⟩]

/-- The registers of the SNG window. -/
def windowSNG : List RegSpec :=
  [⟨0x05300000, 0x0, 1, 0x0, 1, 0x00000000,
     [⟨0, 1, .w1s, .plain⟩, ⟨1, 1, .w1s, .plain⟩]⟩,
   ⟨0x05300004, 0x0, 1, 0x0, 1, 0x00000000,
     [⟨0, 1, .ro, .plain⟩, ⟨1, 8, .ro, .plain⟩, ⟨9, 8, .ro, .plain⟩]⟩,
   ⟨0x05300008, 0x0, 1, 0x0, 1, 0x00000001,
     [⟨0, 32, .rw, (.ignoreBelow 1)⟩]⟩,
   ⟨0x0530000C, 0x0, 1, 0x0, 1, 0x00000000,
     [⟨0, 32, .ros, .plain⟩]⟩,
   ⟨0x05300010, 0x0, 1, 0x0, 1, 0x00000000,
     [⟨0, 3, .w1c, .plain⟩]⟩,
   ⟨0x05300100, 0x10, 8, 0x0, 1, 0x00000000,
     [⟨0, 8, .rw, .plain⟩, ⟨8, 2, .rw, .plain⟩, ⟨10, 4, .rw, .plain⟩, ⟨14, 1, .rw, .plain⟩, ⟨15, 1, .rw, .plain⟩, ⟨31, 1, .w1s, .plain⟩]⟩,
   ⟨0x05300104, 0x10, 8, 0x0, 1, 0x00010000,
     [⟨0, 8, .rw, .plain⟩, ⟨8, 8, .rw, .plain⟩, ⟨16, 16, .rw, (.ignoreBelow 1)⟩]⟩,
   ⟨0x05300108, 0x10, 8, 0x0, 1, 0x00000000,
     [⟨0, 32, .rw, .plain⟩]⟩,
   ⟨0x0530010C, 0x10, 8, 0x0, 1, 0x00000000,
     [⟨0, 16, .rw, .plain⟩, ⟨16, 16, .ro, .plain⟩]⟩]

/-- The registers of the DBG window. -/
def windowDBG : List RegSpec :=
  [⟨0x05400000, 0x0, 1, 0x0, 1, 0x00000000,
     [⟨0, 4, .ro, .plain⟩, ⟨4, 1, .ro, .plain⟩, ⟨5, 6, .ro, .plain⟩]⟩,
   ⟨0x05400004, 0x0, 1, 0x0, 1, 0x00000000,
     [⟨0, 1, .w1s, .plain⟩, ⟨16, 16, .rw, .readsZero⟩]⟩,
   ⟨0x05400008, 0x0, 1, 0x0, 1, 0x00000000,
     [⟨0, 6, .rw, .plain⟩, ⟨6, 3, .rw, .plain⟩]⟩,
   ⟨0x0540000C, 0x0, 1, 0x0, 1, 0x00000000,
     [⟨0, 2, .w1c, .plain⟩]⟩,
   ⟨0x05400010, 0x0, 1, 0x0, 1, 0x000000D9,
     [⟨0, 16, .rw, (.ignoreBelow 16)⟩, ⟨16, 1, .rw, .plain⟩, ⟨17, 1, .w1s, .plain⟩]⟩,
   ⟨0x05400014, 0x0, 1, 0x0, 1, 0x00000000,
     [⟨0, 8, .rw, .plain⟩]⟩,
   ⟨0x05400018, 0x0, 1, 0x0, 1, 0x00000000,
     [⟨0, 8, .ro, .plain⟩, ⟨8, 1, .ro, .plain⟩]⟩,
   ⟨0x0540001C, 0x0, 1, 0x0, 1, 0x00000000,
     [⟨0, 5, .ro, .plain⟩, ⟨8, 5, .ro, .plain⟩, ⟨16, 1, .w1c, .plain⟩, ⟨17, 1, .w1c, .plain⟩, ⟨18, 1, .w1c, .plain⟩]⟩]

/-- The registers of the window whose base has these upper 16 bits. -/
def windowSpecs (w : Nat) : List RegSpec :=
  if w = 0x0100 then windowSYS else
  if w = 0x0102 then windowROWT else
  if w = 0x0101 then windowPAT else
  if w = 0x0103 then windowPWR else
  if w = 0x0104 then windowKEEP else
  if w = 0x0110 then windowSPN else
  if w = 0x0120 then windowNDL else
  if w = 0x0130 then windowACT else
  if w = 0x0140 then windowSLC else
  if w = 0x0150 then windowFMT else
  if w = 0x0160 then windowSTM else
  if w = 0x0200 then windowHIF else
  if w = 0x0210 then windowQUE else
  if w = 0x0230 then windowSCH else
  if w = 0x0220 then windowORD else
  if w = 0x0240 then windowDRN else
  if w = 0x0300 then windowMEM else
  if w = 0x0310 then windowSRM else
  if w = 0x0410 then windowTIR else
  if w = 0x0400 then windowCIP else
  if w = 0x0500 then windowGAU else
  if w = 0x0510 then windowUPD else
  if w = 0x0520 then windowREC else
  if w = 0x0530 then windowSNG else
  if w = 0x0540 then windowDBG else
  []

/-- The address a register of a repeated window has in the first window of its kind: NDL_B and NDL_C as NDL_A, SLC_1 to
SLC_4 as SLC_0, and actuator B's half of the ACT window as actuator A's. -/
def foldWindow (addr : Nat) : Nat :=
  let w := addr / 0x10000
  if w = 0x0121 ∨ w = 0x0122 then 0x01200000 + addr % 0x10000
  else if 0x0141 ≤ w ∧ w ≤ 0x0144 then 0x01400000 + addr % 0x10000
  else if 0x01301000 ≤ addr ∧ addr < 0x01302000 then addr - 0x1000
  else addr

/-- Whether the address is one of a register's instances. -/
def RegSpec.holds (r : RegSpec) (addr : Nat) : Bool :=
  let d := addr - r.base
  decide (r.base ≤ addr) &&
    (if r.stride₁ = 0 then decide (d = 0)
     else if r.stride₂ = 0 then decide (d % r.stride₁ = 0 ∧ d / r.stride₁ < r.count₁)
     else decide (d / r.stride₁ < r.count₁ ∧ d % r.stride₁ % r.stride₂ = 0 ∧
       d % r.stride₁ / r.stride₂ < r.count₂))

/-- The register at an address, if the register tables give one there. -/
def specAt (addr : Nat) : Option RegSpec :=
  let a := foldWindow addr
  (windowSpecs (a / 0x10000)).find? (fun r => r.holds a)

/-- round(32767 · sin(2πk/1024)) for k = 0 to 256, the first quarter of the sine table of R128. -/
def sineQuarter : List Nat :=
  [0, 201, 402, 603, 804, 1005, 1206, 1407, 1608, 1809, 2009, 2210, 2410, 2611, 2811, 3012, 3212, 3412, 3612, 3811, 4011, 4210, 4410, 4609] ++
  [4808, 5007, 5205, 5404, 5602, 5800, 5998, 6195, 6393, 6590, 6786, 6983, 7179, 7375, 7571, 7767, 7962, 8157, 8351, 8545, 8739, 8933, 9126, 9319] ++
  [9512, 9704, 9896, 10087, 10278, 10469, 10659, 10849, 11039, 11228, 11417, 11605, 11793, 11980, 12167, 12353, 12539, 12725, 12910, 13094, 13279, 13462, 13645, 13828] ++
  [14010, 14191, 14372, 14553, 14732, 14912, 15090, 15269, 15446, 15623, 15800, 15976, 16151, 16325, 16499, 16673, 16846, 17018, 17189, 17360, 17530, 17700, 17869, 18037] ++
  [18204, 18371, 18537, 18703, 18868, 19032, 19195, 19357, 19519, 19680, 19841, 20000, 20159, 20317, 20475, 20631, 20787, 20942, 21096, 21250, 21403, 21554, 21705, 21856] ++
  [22005, 22154, 22301, 22448, 22594, 22739, 22884, 23027, 23170, 23311, 23452, 23592, 23731, 23870, 24007, 24143, 24279, 24413, 24547, 24680, 24811, 24942, 25072, 25201] ++
  [25329, 25456, 25582, 25708, 25832, 25955, 26077, 26198, 26319, 26438, 26556, 26674, 26790, 26905, 27019, 27133, 27245, 27356, 27466, 27575, 27683, 27790, 27896, 28001] ++
  [28105, 28208, 28310, 28411, 28510, 28609, 28706, 28803, 28898, 28992, 29085, 29177, 29268, 29358, 29447, 29534, 29621, 29706, 29791, 29874, 29956, 30037, 30117, 30195] ++
  [30273, 30349, 30424, 30498, 30571, 30643, 30714, 30783, 30852, 30919, 30985, 31050, 31113, 31176, 31237, 31297, 31356, 31414, 31470, 31526, 31580, 31633, 31685, 31736] ++
  [31785, 31833, 31880, 31926, 31971, 32014, 32057, 32098, 32137, 32176, 32213, 32250, 32285, 32318, 32351, 32382, 32412, 32441, 32469, 32495, 32521, 32545, 32567, 32589] ++
  [32609, 32628, 32646, 32663, 32678, 32692, 32705, 32717, 32728, 32737, 32745, 32752, 32757, 32761, 32765, 32766, 32767]

/-- Entry k of the sine table at reset, as 16 bits in two's complement (R128). -/
def sineEntry (k : Nat) : Nat :=
  let k := k % 1024
  if k ≤ 256 then sineQuarter.getD k 0
  else if k ≤ 512 then sineQuarter.getD (512 - k) 0
  else
    let v := if k ≤ 768 then sineQuarter.getD (k - 512) 0 else sineQuarter.getD (1024 - k) 0
    (0x10000 - v) % 0x10000

/-- The registers of the tables whose instances do not all reset alike: the sine table (R128) and SLC_FIR_4 (R233). -/
def resetOverride (addr : Nat) : Option Nat :=
  if R.SPN_SINE 0 ≤ addr ∧ addr ≤ R.SPN_SINE 511 ∧ addr % 4 = 0 then
    let k := (addr - R.SPN_SINE 0) / 4 * 2
    some (sineEntry k + 0x10000 * sineEntry (k + 1))
  else if foldWindow addr = R.SLC_FIR 0 4 then some 0x4000
  else none

/-- What a register holds at reset: the Reset column of its table. An address that holds no register reads 0. -/
def resetValue (addr : Nat) : Nat :=
  match resetOverride addr with
  | some v => v
  | none =>
    match specAt addr with
    | some r => r.reset
    | none => 0

end Sys2Proof.Machine
end

