-- ==== Sys2Proof/Syntax.lean ====
section
/-!
DEFINITION. Sys2Proof/Syntax.lean: the commands of the BZ8, one constructor for each row of spec/opcode_table.json, with the
operands of the row: what a processor, a host, a pin or the drive brings with it. What the block itself knows when a
command is carried out is no operand.
Actuators are 0 (A) and 1 (B); Needles 0 (A), 1 (B) and 2 (C); pairs 0 to 2 FRONT_0 to FRONT_2, 3 MEDIA_0, 4 MEDIA_1 and
5 SPARE, as SYS_PAIR_STATUS.SPARE_FOR codes them. Instants are picoseconds of the 1.0 GHz timebase.
-/

namespace Sys2Proof

/-- A submission queue entry: the dwords of the NVM Express command the BZ8 reads, and the rest of its 64 bytes. -/
structure Sqe where
  opcode : Nat
  cid : Nat
  nsid : Nat
  cdw10 : Nat
  cdw11 : Nat
  cdw12 : Nat
  cdw13 : Nat
  cdw14 : Nat
  cdw15 : Nat
  /-- Byte 1, dwords 2 and 3, the metadata pointer and the data pointer. -/
  flags : Nat := 0
  cdw2 : Nat := 0
  cdw3 : Nat := 0
  mptr : Nat := 0
  dptr : Nat := 0
  deriving DecidableEq, Repr

/-- The memories a core pair stores to (R15). -/
inductive Space where
  | sram | dram
  deriving DecidableEq, Repr

/-- An end of a Cable packet: a core pair, or a unit by the address of its part of its window. -/
inductive CableUnit where
  | pair (p : Nat)
  | unit (addr : Nat)
  deriving DecidableEq, Repr

/-- A Cable packet as a link receives it (R18 to R20). -/
structure CablePacket where
  crcOk : Bool
  seq : Nat
  /-- A processor's register access; any other packet is data, a command or a mailbox entry. -/
  register : Bool
  source : CableUnit
  target : CableUnit
  /-- What it carries. -/
  content : Nat
  deriving DecidableEq, Repr

/-- What a slice samples of a sector frame: the ADC samples of its reader, one per channel bit from the first preamble bit that the
sector timer predicts, and those of reader 2 that slice Q passes on in PAIR. -/
structure FrameObs where
  samples : List Int
  second : List Int
  deriving DecidableEq, Repr

/-- How a decode ended. -/
structure DecodeObs where
  converged : Bool
  iterations : Nat
  /-- Unsatisfied parity checks after the first iteration. -/
  unsatisfied : Nat
  deriving DecidableEq, Repr

/-- What an uncorrectable SRAM word holds (R373). -/
inductive SramContents where
  | slice (i : Nat)
  | needle (n : Nat)
  | stitchMap (leaf : Nat)
  | zoneTable (zone : Nat)
  | slotContext (slot : Nat)
  | firmware (proc : Nat)
  | checkpoint (pair : Nat)
  deriving DecidableEq, Repr

/-- What a DRAM page holds (R379): the places of buffer pages are no state of the model. -/
inductive PageHolds where
  | free
  | clean (dla : Nat)
  /-- Sector `index` of the write in a slot; a mirror, or the primary; the copy on the other die passes both codes. -/
  | dirty (slot index dla : Nat) (mirror copyOk : Bool)
  | hostIn (slot : Nat)
  | mediaOut (slot index : Nat)
  | leaf (leaf : Nat)
  | journal
  | ladder (runs : List Nat)
  /-- The CODE copy on the other die is sound; the pair that fetches. -/
  | code (copyOk : Bool) (pair : Nat)
  deriving DecidableEq, Repr

/-- The parts of the Lifeline (R365). -/
inductive LifelinePart where
  | settings
  | mapCheckpoint
  | firmwareSlot (component slot : Nat)
  | staging (piece : Nat)
  | saveArea
  | recorderArea (first : Nat)
  deriving DecidableEq, Repr

/-- The transport errors of R265. -/
inductive TlpError where
  | writeData
  | sqeRead
  | listRead
  | completionWrite
  | correctable
  | malformed
  deriving DecidableEq, Repr

/-- The NVMe-MI commands of R294. -/
inductive MiCommand where
  | readDataStructure
  | subsystemHealth
  | controllerHealth (cntlid : Nat)
  | configGet (id : Nat)
  | configSet (id value : Nat)
  | vpdRead
  | admin (sqe : Sqe) (cntlid : Nat) (payload : List Byte)
  deriving DecidableEq, Repr


/-- What a Needle's demodulator finds at a wedge instant (R152, R154). -/
structure WedgeObs where
  mark : Bool
  trackOk : Bool
  track : Nat
  index : Nat
  /-- PES in Q16.16. -/
  pes : Int
  deriving DecidableEq, Repr

/-- What the spindle engine samples for one run of its current loop (R129 to R138). Currents in mA, angles in 1/65,536 of
an electrical turn, speeds in 0.01 rpm of the stack. -/
structure LoopObs where
  iu : Int
  iv : Int
  iw : Int
  vin12 : Nat
  /-- The DC-link current flows toward VIN_12. -/
  backward : Bool
  deriving DecidableEq, Repr

/-- How far a bind-off came (R102): the last step completed, the chunks then written, and the stack's speed in % of
rated. -/
structure BindOffObs where
  /-- Each input still lies above its threshold: not both of a bind-off. -/
  vin12 : Bool
  vin5 : Bool
  step : Nat
  chunks : Nat
  speed : Nat
  deriving DecidableEq, Repr

/-- What a register write carries: the value, the bits that the hardware sets in the clock cycle of the write (R10), and the sequence
number of the Stitch slot that the processor works for (R16). -/
structure BusWrite where
  value : Nat
  raised : Nat
  seq : Nat
  deriving DecidableEq, Repr

/-- A mailbox push: the Needle, the pushing pair, and the sequence number of the Stitch slot that it works for (R16). -/
structure MailboxPush where
  needle : Nat
  proc : Nat
  seq : Nat
  deriving DecidableEq, Repr

/-- What a preamplifier answers before its CRC-8: the STATUS byte and DATA (R185). -/
structure PreampAnswer where
  status : Nat
  data : Nat
  deriving DecidableEq, Repr

/-- The place that a MAP gives: PHYS, and whether the parity of its group is not on media (R249). -/
structure MapPlace where
  phys : Nat
  noParity : Bool
  deriving DecidableEq, Repr

/-- The commands, in the order of the table. -/
inductive Instr where
  /-- R10: processor, whether debug makes the access, byte address, bytes, and what the write carries. -/
  | registerWrite (proc : Nat) (debug : Bool) (addr size : Nat) (w : BusWrite)
  | lockstepMismatch (pair : Nat)
  | pairStore (pair : Nat) (space : Space) (addr : Nat) (bytes : List Byte)
  | cablePacketReceive (segment : Nat) (fromHub : Bool) (packet : CablePacket)
  | cableFail (segment : Nat) (fromHub : Bool)
  | wedgeSample (act : Nat) (t : Nat) (obs : WedgeObs)
  | idlePeriodExpiry
  | flywheelBoundary
  | flywheelMaxReached
  | longRowTimeout
  | guardStart
  | ledgerCheck
  | writeHoldEnter
  | pairTakeover
  | logicDieResetEnd
  | vin5AonRise
  | keeperQualifyDone
  /-- The node: 0 VIN_12, 1 VIN_5. -/
  | switchRampDone (node : Nat)
  | inrushTimeout
  | powerRetry
  | earlyLoss
  | railPowerGood
  /-- Spare rows that March C- switches in, and whether the arrays, the word checker and the page checker are sound. -/
  | selftestDone (repaired : Nat) (sramOk wordOk pageOk : Bool)
  | patternPhaseDone
  /-- The granules that fail the pattern test of the reserved region, per die. -/
  | dramTrainDone (failing : List (Nat × Nat))
  | loadDone
  | legacyRelease
  | hostReady
  | controllerReady (cntlid : Nat)
  | patLockCmd
  | patReload
  | patCancel
  | repatternValidated
  | repatternApply
  | testModeRise
  | testModeRelease
  | outputRelease
  /-- Whether the reading now lies above the threshold, or has fallen back below it. -/
  | tempWarning (above : Bool)
  | tempCritical (above : Bool)
  | thermalBindOff
  | thermalRelease
  | reverseTrip (node : Nat)
  | switchReclose (node : Nat)
  | spinupCurrentSample (iin12 iin5 : Nat)
  | energyUpdate
  | earlySaveDone
  | energyHoldClear
  | bindOffStart (obs : BindOffObs)
  | inputGlitch
  | inputReturn
  | inputLossInHold
  | saveRestore
  | warmReset (key : Nat)
  | watchdogExpiry (pair : Nat)
  | watchdogKick (pairs : Nat)
  | watchdogConfig (period pairs : Nat)
  | nssr (value : Nat)
  | perstAssert (port : Nat)
  | perstDeassert (port : Nat)
  | flr (port function : Nat)
  | vfEnableClear (port : Nat)
  | controllerReset (cntlid : Nat)
  /-- CC.CSS and the sizes of the admin queues. -/
  | controllerEnable (cntlid css asqs acqs : Nat)
  | spnStart
  | spnStop
  | spnCoast
  | spnClear
  | currentLoopRun (obs : LoopObs)
  | servoOffsetLearn
  /-- Direction, the speed from the rotation rate in 0.01 rpm, the line-to-line amplitude in mV, and the angle. -/
  | catchMeasureDone (forward : Bool) (rate amplitude angle : Nat)
  | catchTimeout
  /-- The stage on-resistance measured, in mΩ. -/
  | alignDone (stage : Nat)
  | commutationTimeout
  | speedBandReached
  /-- Offset of the crossing from its prediction, back-EMF amplitude of the phase in mV, and the interval since the last
  crossing in ns. -/
  | holdFloatWindow (offset : Int) (amplitude interval : Nat)
  | holdTimeout
  | lockedRotor
  | coastStopped
  | coastRetractTimeout
  | brakeDone
  /-- Latch instant in ns after the wedge, charge sense and coil current in Q16.16. -/
  | needleLatch (needle ns : Nat) (maPos vcmI : Int)
  | needleDeadline (needle : Nat)
  | needleInternalFault (needle : Nat)
  | needleTakeover (needle : Nat)
  | settleReached (needle : Nat)
  | settleTimeout (needle : Nat)
  | missMaxReached (needle : Nat)
  | holdRowsExpired (needle : Nat)
  | ndlMbxPush (push : MailboxPush)
  | ndlSeek (needle : Nat)
  | ndlOffset (needle : Nat)
  | ndlEngage (needle : Nat)
  | ndlHold (needle : Nat)
  | ndlRelease (needle : Nat)
  | ndlManual (needle : Nat)
  | ndlRetract (needle : Nat)
  | ndlUnknownOpcode (needle : Nat)
  | needleSwap (act : Nat)
  /-- The Needle that fails during the swap. -/
  | swapFaultAbort (needle : Nat)
  | ndlDisable (needle : Nat) (disable : Bool)
  | actLoad (act : Nat)
  | actUnload (act : Nat)
  | actEretract (act : Nat)
  | retractConstantPhase (act : Nat)
  | retractEnd (act : Nat)
  | actLinkClear (act : Nat)
  | actDisable (act : Nat) (disable : Bool)
  | actLinkEnable (act : Nat)
  | headRequest (act head : Nat)
  /-- The instant at which the head-select frame is sent. -/
  | headSelect (act t : Nat)
  | actLinkGo (act addr : Nat) (read : Bool) (data : Nat)
  /-- The instant at which the frame ends, and the response: its CRC-8, and what that covers. -/
  | preampFrame (act t crc : Nat) (answer : PreampAnswer)
  /-- The coil inductance measured during the load, in 0.1 µH. -/
  | loadComplete (act inductance : Nat)
  | loadTimeout (act : Nat)
  | unloadRampStop (act : Nat)
  | unloadHoldEnd (act : Nat)
  | unloadTimeout (act : Nat)
  /-- Coil voltage in mV, coil current in mA, its rate in mA/µs. -/
  | vcmCurrentLoop (act : Nat) (mv ma rate : Int)
  | aenLeadStart (act slice t : Nat)
  | writeGateRaise (act t : Nat)
  | laserCut (act t : Nat)
  | sectorFrame (slice : Nat) (obs : FrameObs)
  | sectorBoundary (act : Nat)
  | inlineDecodeDone (slice : Nat) (obs : DecodeObs)
  /-- The offset at which the re-frame search decoded, when it did. -/
  | autoActionDone (slice : Nat) (offset : Int) (obs : DecodeObs)
  | slcReDecode (slice slot iterations : Nat)
  | slcReframe (slice slot span iterations : Nat)
  | slcCombine (slice slot iterations : Nat)
  | recoveryRequestDone (slice : Nat) (offset : Int) (obs : DecodeObs)
  | slcUnpin (slice lo hi : Nat)
  | sliceFault (slice cause : Nat)
  | sliceTakeover (slice : Nat)
  | slcDisable (slice : Nat) (disable : Bool)
  | sliceDisabled (slice : Nat)
  /-- `hit`: the on-die cache held the answer. -/
  | walkerLookup (dla count : Nat) (hit : Bool)
  | walkerMap (lstart length : Nat) (place : MapPlace) (cache unwritten unreadable : Bool) (gen : Nat) (claim : Option Nat)
  | walkerExtend (dla length gen : Nat)
  /-- Flag masks as byte 15 of an entry numbers them. -/
  | walkerFlags (dla count set clear gen : Nat) (claim : Option Nat)
  | walkerGenBump (zone : Nat)
  | walkerDesc (zone wp state restitchUsed : Nat)
  | leafMerge
  | staleEntryDelete
  | journalPageWrite
  | journalOnMedia
  | checkpointStart
  | ckptReq
  | checkpointDone
  /-- Sequence numbers missing from both copies of the journal, if any. -/
  | mapRebuild (missing : Option Nat)
  | cacheZoneClean (act : Nat)
  /-- Controller, queue, completion queue head or submission queue tail, the value, and the entries that the host has
  placed up to the tail. -/
  | doorbellWrite (cntlid qid : Nat) (head : Bool) (value : Nat) (entries : List Sqe)
  | fetchRound (pair : Nat)
  | tlpError (error : TlpError) (port cntlid slot : Nat)
  | deleteIoSq (slot : Nat)
  | deleteIoCq (slot : Nat)
  | createIoSq (slot : Nat)
  | createIoCq (slot : Nat)
  | getLogPage (slot : Nat)
  | identify (slot : Nat)
  | abort (slot : Nat)
  | setFeatures (slot : Nat) (data : List Byte)
  | setDirtyCeiling (slot : Nat)
  | setReadPath (slot : Nat)
  | setConfirmActivation (slot : Nat)
  | getFeatures (slot : Nat)
  | asyncEventRequest (slot : Nat)
  | firmwareImageDownload (slot : Nat) (piece : List Byte)
  | commitVerifyWrite (slot : Nat)
  | commitActivateAtReset (slot : Nat)
  | commitActivateStaged (slot : Nat)
  | commitActivateNow (slot : Nat)
  | deviceSelfTest (slot : Nat)
  | virtualizationManagement (slot : Nat)
  | nvmeMiSend (slot : Nat) (command : MiCommand)
  | nvmeMiReceive (slot : Nat)
  | formatNvm (slot : Nat)
  | securitySend (slot : Nat) (payload : List Byte)
  | securityReceive (slot : Nat)
  | sanitize (slot : Nat)
  | sanitizeStepDone
  | invalidAdminOpcode (slot : Nat)
  | flush (slot : Nat)
  | read (slot : Nat)
  | write (slot : Nat)
  | compare (slot : Nat) (data : List (List Byte))
  | verify (slot : Nat)
  | writeZeroes (slot : Nat)
  /-- The ranges of the command's list: first LBA and LBAs. -/
  | datasetManagement (slot : Nat) (ranges : List (Nat × Nat))
  | writeUncorrectable (slot : Nat)
  | zoneOpen (slot : Nat)
  | zoneClose (slot : Nat)
  | zoneFinish (slot : Nat)
  | zoneReset (slot : Nat)
  | zoneOffline (slot : Nat)
  | zoneSetDescExt (slot : Nat)
  | zoneMgmtReceive (slot : Nat)
  | zoneAppend (slot : Nat)
  | invalidIoOpcode (slot : Nat)
  | hifAenPost (type info : Nat)
  | hifCfsSet (mask : Nat)
  | fetchHold (mask : Nat)
  | interruptCoalesceTimer (cntlid vector : Nat)
  /-- Transport 0 the sideband over SMBus, 1 port 0, 2 port 1, 3 the sideband over I3C; the MCTP message type. -/
  | mctpMessage (transport type : Nat)
  | setEndpointId (eid : Nat)
  | nvmeMiBasic
  | nvmeMiCommand (command : MiCommand)
  | miReset
  | spdmGetVersion (transport : Nat)
  | spdmGetCapabilities (transport : Nat)
  | spdmNegotiateAlgorithms (transport : Nat) (sm2 sm3 : Bool)
  | spdmGetDigests (transport : Nat)
  | spdmGetCertificate (transport slot offset length : Nat)
  | spdmChallenge (transport slot : Nat) (nonce : List Byte)
  | spdmGetMeasurements (transport index : Nat) (signed : Bool) (nonce : List Byte)
  | spdmRespondIfReady (transport token : Nat)
  | spdmUnsupported (transport code : Nat)
  | writeAdmit
  /-- The write's data, one sector per LBA, and its protection information when the format carries it. -/
  | writeDataComplete (slot : Nat) (data pi : List (List Byte))
  | windowEnter (act : Nat)
  /-- The evaluations that the access-cost engine has made since the pick before (R305). -/
  | mediaPick (act evals : Nat)
  | preempt (act : Nat)
  | ledgerRecount
  | ledgerRelease
  | writeHoldRelease
  | mediaCompletion (slot : Nat)
  | readPoint (slot : Nat)
  /-- The slot and the LBA of its range to transfer; whether the recomputed guard matches the stored one. -/
  | readTransfer (slot index : Nat) (guardOk : Bool)
  | claimOpen (owner : Nat)
  | claimClose (index : Nat)
  | ladderRunStart (act : Nat)
  | ladderStepDone (run : Nat) (recovered : Bool)
  | scrubOperation (act : Nat)
  | drnRewriteGo (zone : Nat)
  | drnDuePop
  | rewriteDone
  | lifelineBlockFail (part : LifelinePart)
  /-- Die and page; the granules of the page with a corrected word, one place per word; those with an uncorrectable word;
  whether the page code agrees; what the page holds. -/
  | memoryScrubRead (die page : Nat) (corrected uncorrectable : List Nat) (codeOk : Bool) (holds : PageHolds)
  /-- Symbol errors beside the erasures; what the page holds. -/
  | pageDecodeDone (die page symbolErrors : Nat) (holds : PageHolds)
  | repairPost
  /-- Offset of a word; none when it needed nothing, corrected, or uncorrectable with what it holds. -/
  | sramPatrol (offset : Nat) (corrected : Bool) (uncorrectable : Option SramContents)
  /-- Mailbox 0 to 3, command tag, then the arguments of R405. -/
  | verifyImage (mailbox tag addr component : Nat)
  | commitMeasurement (mailbox tag component : Nat) (digest : Digest)
  | loadKey (mailbox tag slot nsid zone generation : Nat) (keyTag : Option Nat)
  | nsKeyNew (mailbox tag nsid : Nat)
  /-- The payload's injected keys: add (key) or remove (none), by namespace and tag. -/
  | kpio (mailbox tag : Nat) (keys : List (Nat × Nat × Option Digest))
  | random (mailbox tag count : Nat)
  /-- Channel 0 to 3 a mailbox, 4 the JTAG mailbox. -/
  | tirChallenge (channel tag scopes : Nat)
  | tirResponse (channel tag : Nat) (key signature : List Byte)
  | revoke (channel tag scopes : Nat)
  | svnAdvance (mailbox tag component version : Nat)
  /-- The three hashes, and whether the fuses read back as programmed. -/
  | provision (mailbox tag : Nat) (maker pattern debug : Digest) (readBackOk : Bool)
  | genIdentity (mailbox tag : Nat)
  | tirUnknownOpcode (mailbox tag opcode : Nat)
  | challengeExpiry (channel : Nat)
  /-- Causes as TIR_ALARM.CAUSE numbers them. -/
  | tamperAlarm (causes : Nat)
  | alarmClear
  | cipherEnable
  /-- Cores that passed every known-answer test, as a mask. -/
  | katDone (passed : Nat)
  | cipherDisable
  | cipherDrained
  | cipherCoreFault (core : Nat)
  | hookLdi (thread : Nat)
  | hookEnc (thread : Nat)
  | hookDec (thread : Nat)
  | hookXor (thread : Nat)
  | hookGmul (thread : Nat)
  | hookInc32 (thread : Nat)
  | hookLen (thread : Nat)
  | hookOut (thread : Nat)
  | hookTag (thread : Nat)
  | hookLoop (thread : Nat)
  | hookEnd (thread : Nat)
  | hookIllegalOp (thread : Nat)
  | blockReturn (core : Nat)
  | tokenPost
  | hookDataWrite (value : Word)
  | hookBindWrite (value : Word)
  | keySlotErase
  | bankDrainEnd (slot : Nat)
  | testkeyLoad (alg mode slot : Nat)
  | cipherJob (slot op : Nat)
  | cipherJobDone
  | gauAdcOffset (slice : Nat)
  | gauAdcGain (slice : Nat)
  | gauAdcSkew (slice : Nat)
  | gauReaderBias (act head : Nat)
  | gauTouchdown (act head : Nat)
  | gauAssist (act head : Nat)
  | gauIsenseSpn
  | gauIsenseVcm (act : Nat)
  | gauTemp
  | gaugeTargetIdle
  /-- What the calibration measured, in the units of its fields: one number per field; PES variances per step for
  TOUCHDOWN; per code tried, 0 where no sector was weak for ASSIST. -/
  | calibrationEnd (measured : List Int)
  | sessionExpiry
  | bundleWritten
  | tiriumHandover
  | tiriumReady
  | tiriumReadyTimeout
  | handoverSpareReady
  | handoverRequest
  | handoverQuiesced
  | handoverSwitch
  | handoverTaken
  | handoverDeadlineMiss
  | quiescedActivation
  | quiescedTimeout
  | autoConfirm
  | updAbort
  | updFrog
  | recFwPost (source typeLo severity : Nat)
  | recordProgrammed
  /-- 1 program, 2 read-back, 3 erase, 4 no answer. -/
  | recStoreFail (kind : Nat)
  | recordMirrorCopy
  | fallbackUnitProgram
  | recClear (select : Nat)
  | clearSectorErased
  | timeAnchor (hostHi attr : Nat)
  /-- The store answers and reads back as it should. -/
  | recorderCastonScan (sound : Bool)
  | sngArm
  | sngDisarm
  | snagInjectorGo (injector : Nat) (cfg : Word)
  | snagHeldRelease (injector : Nat)
  | dbgWarmReset (key : Nat)
  | dbgHalt (pairs needles : Nat)
  | jtagBypass (tdi : Bool)
  | jtagIdcode
  /-- The balls as captured, and the levels preloaded. -/
  | jtagSamplePreload (captured preload : List Bool)
  | jtagExtest (captured : List Bool)
  | jtagTmbx (opcode tag : Nat) (args : List Byte)
  /-- A core pair's register or the spindle engine's: unit 0 to 5 a pair, 6 to 8 a Needle, 9 the spindle engine. -/
  | jtagDbgap (unit : Nat) (write : Bool)
  | uartTxWrite (byte : Byte)
  | uartTxByteSent
  | uartRxByte (byte : Byte) (stop : Bool)
  | uartRxPop
  | registerRead (proc : Nat) (addr size : Nat)
  | linkUp (port speed width : Nat)
  | linkDown (port : Nat)
  | vfEnableSet (port numVfs : Nat)
  | statActRelease
  | leafRebuildDone (leaf : Nat)
  | formatNvmDone (nsid : Nat)
  deriving DecidableEq, Repr

end Sys2Proof
end

