-- ==== Sys2Proof/Machine/State.lean ====
section
/-!
DEFINITION. Sys2Proof/Machine/State.lean: the state of the BZ8 as plain data. The registers of the register tables are one
canonical list; what the spec gives the machine beyond them (queues, contexts, stores, counters a unit keeps for itself)
stands in one structure per unit. Beside it the reasons a command can stop, and the state at reset.
-/

namespace Sys2Proof.Machine

/-- Why the machine stops. No command of this block stops it: a failure the spec describes is part of the next state. -/
inductive Fault where
  /-- Raised by no command: kept so that the outcome has a name for it; safe. -/
  | machineCheck
  deriving DecidableEq, Repr

/-- Why a command is turned away without a meaning. -/
inductive Refusal where
  /-- Raised by the dispatcher for a command that has no meaning yet; safe. -/
  | notModelled (mnemonic : String)
  deriving DecidableEq, Repr

/-! ### Fuses -/

/-- The parts a fuse map can describe (R2). -/
inductive Variant where
  | d2h | d2m | s1h
  deriving DecidableEq, Repr

/-- What the fuses of a part hold (R1, R203, R374, R384): they never change but for Tirium's own. -/
structure Fuses where
  variant : Variant
  nSuffix : Bool
  stepping : Nat
  /-- The fused laser energy ceiling (R203). -/
  laserCeiling : Nat
  /-- Spare SRAM rows switched in by the fuse map (R383). -/
  sramSpares : Nat
  /-- Llynter's manufacturer identity of the JTAG IDCODE, 11 bits (R496). -/
  manufacturer : Nat
  llynterKeyHash : Digest
  faKeyHash : Digest
  makerKeyHash : Digest
  patternKeyHash : Digest
  debugKeyHash : Digest
  /-- IDENTITY_WRAP: ciphertext and tag, once GEN_IDENTITY has run (R385). -/
  identityWrap : Option (Digest × Digest)
  /-- The fuse read-back of PROVISION failed (R386): the part cannot be provisioned again. -/
  partlyFused : Bool
  /-- LIFECYCLE is SEALED (R386). -/
  isSealed : Bool
  /-- The programmed SVN banks of the five components, oldest first (R387). -/
  svnBanks : List (List Nat)
  deriving DecidableEq, Repr

/-! ### Event recorder (chapter 20) -/

/-- A 64-byte event record (R469), its CRC left to `Record.bytes`. -/
structure Record where
  type : Nat
  source : Nat
  severity : Nat
  coalesced : Bool
  shadowed : Bool
  pcc : Nat
  optime : Nat
  row : Nat
  payload : List Word
  seq : Nat
  deriving DecidableEq, Repr

/-- A record as a store holds it; `torn` when power was lost before its CRC was programmed (R472, R486). -/
structure Stored where
  index : Nat
  record : Record
  torn : Bool
  deriving DecidableEq, Repr

/-- A clear in progress (R485). -/
structure Clearing where
  /-- 0 the Recorder store, 1 the fallback area. -/
  area : Nat
  nextSector : Nat
  /-- The index reached before the clear. -/
  reached : Nat
  /-- LOG_CLEARED has been written. -/
  headWritten : Bool
  deriving DecidableEq, Repr

structure Recorder where
  fifo : List Record
  /-- Records that go out ahead of the FIFO: shadow records appended at cast-on, COALESCED records, the records carried
  over a store failure. -/
  carry : List Record
  /-- The record being programmed. -/
  writing : Option Record
  /-- The coalescing counters that are not 0, by source, ascending (R479). -/
  coal : List (Nat × Nat)
  store : List Stored
  fallback : List Stored
  /-- The fallback unit not yet programmed (R483). -/
  unit : List Record
  /-- The Keeper shadow, oldest first, each with the note whether the event entered the FIFO (R480). -/
  shadow : List (Record × Bool)
  /-- The shadow, the unit buffer and the clear as bind-off step 11 wrote them to the Lifeline (R102). -/
  savedShadow : List (Record × Bool)
  /-- Records of the Lifeline reserve that wait to be copied (R482). -/
  reserve : List Record
  /-- Records mirrored to system zone place 7 (R482). -/
  place7 : List Record
  clearing : Option Clearing
  /-- The Recorder store has failed, until a cold cast-on finds it sound (R482). -/
  storeFailed : Bool
  /-- The Lifeline cannot take records either (R483). -/
  lifelineFailed : Bool
  /-- The cast-on scan of R486 has completed. -/
  scanned : Bool
  deriving DecidableEq, Repr

/-! ### Snag unit and debug (chapter 21) -/

/-- What an injector keeps beside its registers. -/
structure Injector where
  running : Bool
  /-- It waits under R494. -/
  held : Bool
  /-- Eligible events since GO or since the last injection of TIMING 1. -/
  seen : Nat
  lfsr : Word
  deriving DecidableEq, Repr

structure Snag where
  injectors : List Injector
  /-- The scopes under which the unit was armed (R490). -/
  armedBy : Nat
  deriving DecidableEq, Repr

structure Debug where
  txFifo : List Byte
  rxFifo : List Byte
  /-- The TAP instruction in force (R496): 0 BYPASS, 1 IDCODE, 2 SAMPLE/PRELOAD, 3 EXTEST, 4 TMBX, 5 DBGAP. -/
  tap : Nat
  /-- The balls as the boundary-scan register last captured and drives them. -/
  scanCaptured : List Bool
  scanDriven : List Bool
  /-- The data register shifted out last. -/
  tdo : List Word
  deriving DecidableEq, Repr

/-! ### Tirium (chapter 16) -/

/-- A challenge issued and not yet answered (R401). -/
structure Challenge where
  scopes : Nat
  bytes : List Byte
  deriving DecidableEq, Repr

/-- The last completed command of a mailbox (R405). -/
structure MailboxDone where
  tag : Nat
  result : Nat
  response : List Word
  deriving DecidableEq, Repr

/-- A wrapped NMEK in its key record (R396). -/
structure KeyRecord where
  nsid : Nat
  counter : BitVec 128
  wrapped : Digest
  tag : Digest
  deriving DecidableEq, Repr

/-- A zone key in Tirium's cache (R397). -/
structure CachedKey where
  nsid : Nat
  zone : Nat
  generation : Nat
  keyTag : Nat
  key : Nat
  deriving DecidableEq, Repr

/-- What an SPDM error answer names (R394, R395). -/
inductive SpdmError where
  | busy | unexpectedRequest | unsupportedRequest | negotiationFail | invalidRequest
  deriving DecidableEq, Repr

/-- An SPDM answer, by its content (R394). -/
inductive SpdmReply where
  | version
  | capabilities
  | algorithms
  /-- The digest of each provisioned slot's chain. -/
  | digests (slots : List (Nat × Digest))
  /-- A portion of slot 0's chain, and the bytes that remain. -/
  | certificate (portion : List Byte) (remainder : Nat)
  | challengeAuth (chain : Digest) (nonce : List Byte) (summary : Digest) (signature : List Byte)
  /-- Blocks by index, with the nonce and the signature of a signed answer. -/
  | measurements (blocks : List (Nat × List Byte)) (nonce signature : List Byte)
  | error (e : SpdmError)
  deriving DecidableEq, Repr

/-- An SPDM request (R394). -/
inductive SpdmRequest where
  | getVersion
  | getCapabilities
  | negotiateAlgorithms (sm2 sm3 : Bool)
  | getDigests
  | getCertificate (slot offset length : Nat)
  | challenge (slot : Nat) (nonce : List Byte)
  | getMeasurements (index : Nat) (signed : Bool) (nonce : List Byte)
  | respondIfReady
  | unsupported
  deriving DecidableEq, Repr

/-- The SPDM connection of one transport (R395). -/
structure SpdmLink where
  version : Bool
  capabilities : Bool
  algorithms : Bool
  /-- Requests held and not yet answered, at most four, in arrival order. -/
  waiting : List SpdmRequest
  /-- The last response. -/
  reply : Option SpdmReply
  deriving DecidableEq, Repr

structure Tirium where
  /-- Measurement blocks 1 to 8, block n at place n - 1 (R391). -/
  blocks : List Digest
  /-- Component measurements verified since the last cold cast-on. -/
  verified : List (Nat × Digest)
  /-- One challenge per channel: mailboxes 0 to 3, then JTAG. -/
  challenges : List (Option Challenge)
  /-- The last completed command per channel. -/
  last : List (Option MailboxDone)
  keyRecords : List KeyRecord
  keyCache : List CachedKey
  /-- Injected Key Per I/O keys: namespace, tag, key (R397). -/
  injected : List (Nat × Nat × Digest)
  /-- Namespaces whose NMEK is unwrapped in SRAM. -/
  unwrapped : List (Nat × Digest)
  identity : Option Digest
  aliasT : Option Digest
  aliasD : Option Digest
  spdm : List SpdmLink
  /-- Bytes the TRNG has given. -/
  trngUsed : Nat
  /-- Recorded sanitize step in the Lifeline settings and the last finished zone (R399); 0 none. -/
  sanitizeStep : Nat
  /-- Zones of the step in hand that have been finished, and passes of step 4, as the Lifeline settings record them (R399). -/
  sanitizeZone : Nat
  sanitizePass : Nat
  deriving DecidableEq, Repr

/-! ### The Pattern (chapter 2) -/

/-- A BAND entry with its SPACING values (R43). -/
structure Band where
  act : Nat
  band : Nat
  pitch : Nat
  firstTrack : Nat
  lastTrack : Nat
  rate : Nat
  spt : Nat
  twin : Bool
  deriving DecidableEq, Repr

/-- A ZONES entry (R43). -/
structure ZonesEntry where
  act : Nat
  selvedge : Nat
  system : Nat
  conv : Nat
  cache : Nat
  seq : Nat
  deriving DecidableEq, Repr

structure Geometry where
  rpm : Nat
  wedges : Nat
  platters : Nat
  headsA : Nat
  headsB : Nat
  bands : List Band
  /-- Reader spacings: actuator, band, one value per head. -/
  spacing : List (Nat × Nat × List Nat)
  zones : List ZonesEntry
  deriving DecidableEq, Repr

/-- An ACTUATOR entry with the actuator's MODES (R45). -/
structure ActuatorEntry where
  act : Nat
  needle : Nat
  sliceP : Nat
  sliceQ : Nat
  twinEn : Bool
  pairEn : Bool
  deriving DecidableEq, Repr

structure Topology where
  actuators : List ActuatorEntry
  spareSlice : Nat
  standby : Nat
  master : Nat
  wedgeWin : Nat
  flywheelMax : Nat
  portMode : Nat
  legacy : Bool
  deriving DecidableEq, Repr

/-- A BLOCK entry of the Loop panel (R46). -/
structure LoopBlock where
  act : Nat
  id : Nat
  kind : Nat
  coefs : List Int
  deriving DecidableEq, Repr

/-- A WIRE entry (R46). -/
structure LoopWire where
  act : Nat
  src : Nat
  srcPort : Nat
  dst : Nat
  dstPort : Nat
  deriving DecidableEq, Repr

/-- A GAIN_TABLE entry (R46). -/
structure GainTable where
  act : Nat
  table : Nat
  points : List (Int × Nat)
  deriving DecidableEq, Repr

structure Loop where
  blocks : List LoopBlock
  wires : List LoopWire
  gains : List GainTable
  level : Nat
  deriving DecidableEq, Repr

/-- A REGION entry of the Memory panel (R47): kind, dies, base and size in MiB. -/
structure Region where
  kind : Nat
  dieMask : Nat
  base : Nat
  size : Nat
  deriving DecidableEq, Repr

/-- A CONTROLLER entry (R48). -/
structure ControllerEntry where
  port : Nat
  function : Nat
  frontPair : Nat
  sqMax : Nat
  cqMax : Nat
  msix : Nat
  deriving DecidableEq, Repr

/-- A NAMESPACE entry (R48). -/
structure NamespaceEntry where
  nsid : Nat
  type : Nat
  act : Nat
  firstZone : Nat
  zoneCount : Nat
  controllers : Nat
  deriving DecidableEq, Repr

structure HostPanel where
  controllers : List ControllerEntry
  namespaces : List NamespaceEntry
  /-- Controller, HIGH, MEDIUM, LOW. -/
  arbitration : List (Nat × Nat × Nat × Nat)
  /-- Controller, URGENT_EN. -/
  urgent : List (Nat × Nat)
  deriving DecidableEq, Repr

structure SecurityPanel where
  /-- NSID, MODE, KPIO. -/
  nsCipher : List (Nat × Nat × Nat)
  readPath : Nat
  autoConfirm : Bool
  deriving DecidableEq, Repr

structure EnergyPanel where
  dirtyCeiling : Nat
  spinup : Nat
  /-- Actuator, head, limit. -/
  laser : List (Nat × Nat × Nat)
  reserve : Nat
  deriving DecidableEq, Repr

structure RecorderPanel where
  min : Nat
  sources : Nat
  deriving DecidableEq, Repr

/-- A Pattern as the loader reads it out of a container. -/
structure Pattern where
  id : Nat
  svn : Nat
  digest : Digest
  geometry : Geometry
  topology : Topology
  loop : Loop
  memory : List Region
  host : HostPanel
  /-- PLL code and kHz. -/
  clock : List (Nat × Nat)
  /-- Group, function, drive. -/
  pins : List (Nat × Nat × Nat)
  security : SecurityPanel
  energy : EnergyPanel
  recorder : RecorderPanel
  geomCrc : Nat
  deriving DecidableEq, Repr

/-- A validated entry as it stands in a panel: panel, index, code and payload after the 4-byte header. -/
structure PatternEntry where
  panel : Nat
  index : Nat
  code : Nat
  payload : List Byte
  deriving DecidableEq, Repr

structure PatternUnit where
  active : Pattern
  /-- The entries of the active panels, for the comparison of R60. -/
  entries : List PatternEntry
  /-- The loader's own copy of a runtime container (R59). -/
  buffer : List Byte
  /-- The address it was copied from. -/
  source : Nat
  /-- The container that waits for its boundary: its entries, DIGEST and SVN. -/
  waiting : Option (List PatternEntry × Digest × Nat)
  /-- SVN of the last runtime container applied since cast-on. -/
  runtimeSvn : Option Nat
  deriving DecidableEq, Repr

/-! ### Media and the Stitch map (chapter 10) -/

/-- A sector's 4,096 data bytes. -/
abbrev Sector := List Byte

/-- The content of a sector slot on the media: data and metadata (R234), the data as sent to the serialiser. -/
structure MediaSector where
  dla : Nat
  nsid : Nat
  wcount : Nat
  gen : Nat
  pi : List Byte
  auth : List Byte
  data : Sector
  /-- A parity sector carries no metadata of its own (R243). -/
  parity : Bool
  deriving DecidableEq, Repr

/-- A Stitch map entry (R249). -/
structure MapEntry where
  lstart : Nat
  length : Nat
  phys : Nat
  gen : Nat
  cache : Bool
  unwritten : Bool
  unreadable : Bool
  noParity : Bool
  pending : Bool
  deriving DecidableEq, Repr

/-- The STATE codes of a zone descriptor (R258). -/
inductive ZoneState where
  | empty | implicitOpen | explicitOpen | closed | full | readOnly | offline | conventional | cache | system | rewrite
  deriving DecidableEq, Repr

/-- A zone descriptor (R258). -/
structure ZoneDesc where
  gen : Nat
  wcount : Nat
  wp : Nat
  state : ZoneState
  restitchUsed : Nat
  deriving DecidableEq, Repr

/-- A request of a media pair, the Darning unit or the restore to the walker (R252). -/
inductive WalkerRequest where
  | lookup (dla count : Nat)
  | map (entry : MapEntry) (gen : Nat) (claim : Option Nat)
  | extend (dla : Nat) (length : Nat) (gen : Nat)
  | flags (dla count : Nat) (set clear : Nat) (gen : Nat) (claim : Option Nat)
  | genBump (zone : Nat)
  | desc (zone : Nat) (wp : Nat) (state : ZoneState) (restitchUsed : Nat)
  deriving DecidableEq, Repr

/-- A journal record (R255). -/
structure JournalRecord where
  seq : Nat
  request : WalkerRequest
  /-- The resulting entry, or none for GEN_BUMP and DESC. -/
  entry : Option MapEntry
  zone : Nat
  desc : ZoneDesc
  deriving DecidableEq, Repr

/-- A complete checkpoint (R256). -/
structure Checkpoint where
  startSeq : Nat
  leaves : List (List MapEntry)
  zones : List (Nat × ZoneDesc)
  /-- Its trailer is written and valid. -/
  complete : Bool
  deriving DecidableEq, Repr

/-- A host-visible segment of a LOOKUP answer (R252). -/
inductive Segment where
  | place (psa count : Nat)
  | unwritten (count : Nat)
  | unreadable (count : Nat)
  deriving DecidableEq, Repr

/-- The answer of the walker to its last request. -/
inductive WalkerReply where
  | none
  | done
  | segments (s : List Segment)
  | stale
  | noEntry
  | offline
  | held
  deriving DecidableEq, Repr

structure Stitch where
  /-- The leaves in directory order, each sorted by LSTART. -/
  leaves : List (List MapEntry)
  /-- The zone table: zones whose descriptor differs from a fresh one. -/
  zones : List (Nat × ZoneDesc)
  /-- Requests held while no leaf is free (R254). -/
  held : List WalkerRequest
  /-- Requests held on leaves under rebuild (R253). -/
  heldRebuild : List WalkerRequest
  /-- Leaves being rebuilt. -/
  rebuilding : List Nat
  reply : WalkerReply
  /-- The next journal sequence number. -/
  nextSeq : Nat
  /-- The journal page filling. -/
  page : List JournalRecord
  /-- Pages written to both copies and not yet verified. -/
  written : List (List JournalRecord)
  /-- Records on media. -/
  journal : List JournalRecord
  /-- Journal pages written since the last checkpoint began. -/
  pagesSince : Nat
  /-- Rows since the first record of the filling page. -/
  pageAge : Nat
  checkpoints : List Checkpoint
  /-- The checkpoint being written and its slot. -/
  writing : Option (Nat × Checkpoint)
  /-- The journal tail that bind-off saved (R102). -/
  savedTail : List JournalRecord
  /-- Stitch map snapshots of zones in REWRITE (R360): zone, old generation, entries, state before. -/
  snapshots : List (Nat × Nat × List MapEntry × ZoneState)
  /-- Cache log: zones in log order, with the records (first PSA, first DLA, count). -/
  cacheLog : List (Nat × List (Nat × Nat × Nat))
  /-- The content of the media, by PSA. -/
  media : List (Nat × MediaSector)
  /-- The slots in which WG fell: no sector can be read there, and media lists what was to be written (R197, R243). -/
  torn : List Nat
  deriving DecidableEq, Repr

/-! ### Host interface, command flow and ordering (chapters 11 to 13) -/

/-- The stages of a Stitch slot (R298). -/
inductive Stage where
  | free | fetched | admitWait | xferIn | media | xferOut | doneEarly | completing
  deriving DecidableEq, Repr

/-- The pools of R299. -/
inductive Pool where
  | shared | reserve | urgent
  deriving DecidableEq, Repr

/-- A held Stitch slot (R297) with what the hardware keeps for its command. -/
structure Slot where
  num : Nat
  sqe : Sqe
  seq : Nat
  ring : Nat
  skein : Nat
  stage : Stage
  pool : Pool
  urgent : Bool
  fua : Bool
  limitedRetry : Bool
  atomicStaged : Bool
  writeHeld : Bool
  /-- Media operations outstanding. -/
  ops : Nat
  dla : Nat
  lbas : Nat
  pages : Nat
  status : Nat
  fetchRow : Nat
  epoch : Nat
  /-- A read or write that the tracker holds (R326). -/
  isWrite : Bool
  isRead : Bool
  visible : Bool
  mediaComplete : Bool
  readPoint : Bool
  /-- The completion has been posted. -/
  completed : Bool
  /-- The controller was reset: no completion is ever posted (R118). -/
  orphan : Bool
  /-- An admin command that the sideband carries (R294): it has no queue. -/
  sideband : Bool
  /-- Write data, one sector per LBA, and its protection information. -/
  data : List Sector
  pi : List (List Byte)
  /-- LBAs whose verify was OK, and the consecutive failed verifies of each. -/
  verified : List Bool
  verifyFails : List Nat
  /-- The zone's generation and write counter at acceptance (R235). -/
  zoneGen : Nat
  wcount : Nat
  /-- The same of the zone that follows, for a write that runs on into it. -/
  zoneGen2 : Nat
  wcount2 : Nat
  /-- A write admitted in pieces (R301): LBAs of the pieces that are on media, LBAs that are visible, and the LBAs of the
  piece in hand; 0 for a write admitted whole. -/
  done : Nat
  shown : Nat
  piece : Nat
  /-- The zones of a zone action whose parity is awaited. -/
  zones : List Nat
  /-- Read data as it lands, one place per LBA. -/
  got : List (Option (Sector × List Byte))
  /-- LBAs transferred to the host with a passed verdict. -/
  sent : List Bool
  /-- LBAs of a cut-through read with bytes at the host and no passed verdict (R424). -/
  unproven : List Nat
  /-- A read of authenticated sectors fetched under cut-through (R275). -/
  cut : Bool
  /-- Result dword 0 and 1 of the completion entry. -/
  result : Nat
  /-- The DLA ranges that the tracker holds for it. -/
  ranges : List (Nat × Nat)
  /-- FLAGS bit 1: early completion allowed (R302). -/
  early : Bool
  /-- The source of each sector of a read: 0 media, 1 a clean page, 2 a dirty page, 3 no page (zeros), 4 the mirror of a dirty
  page, 5 the media again after a guard mismatch. -/
  src : List Nat
  /-- The PSA of the copy of each sector of a write whose verify was OK. -/
  placed : List Nat
  deriving DecidableEq, Repr

/-- The kinds of media operation (R303). -/
inductive OpKind where
  | read | write | recover | background
  deriving DecidableEq, Repr

/-- What a media operation is for. -/
inductive OpPurpose where
  | host | restitch | overwrite | relocate | scrub | rewriteZone | ladder | clean | parity | restore
  deriving DecidableEq, Repr

/-- The reader modes (R220). -/
inductive ReadMode where
  | single | twin | pair | verify
  deriving DecidableEq, Repr

/-- Where a media operation stands: in the media pair's list, in the window, issued. -/
inductive OpPlace where
  | listed | window | issued
  deriving DecidableEq, Repr

/-- A media operation (R303, R304). -/
structure MediaOp where
  id : Nat
  act : Nat
  kind : OpKind
  purpose : OpPurpose
  /-- The slot it works for. -/
  slot : Option Nat
  urgent : Bool
  dla : Nat
  psa : Nat
  count : Nat
  /-- The PSA of each sector, and its DLA. -/
  places : List Nat
  dlas : List Nat
  mode : ReadMode
  /-- The loop variant of R220: 0 none, 1 larger steps, 2 smaller steps, 3 cold start; 4 to 7 the offsets
  +o, -o, +2o and -2o of ladder step 4. -/
  variant : Nat
  place : OpPlace
  /-- Its entry of the result table (R305), in ns; none until it has been costed since it entered the window. -/
  cost : Option Nat
  /-- Instant of its entry to the window, in ps of the timebase. -/
  entered : Nat
  /-- It has begun to transfer; its next sector. -/
  transferring : Bool
  next : Nat
  /-- The CRC-32C of each sector's payload as written (R224): sector and CRC. -/
  kept : List (Nat × Nat)
  /-- Sectors that have passed under the head, and sectors whose result has been acted on. -/
  framed : List Nat
  settled : List Nat
  /-- Generation of the physical zone at lookup (R328). -/
  physGen : Nat
  keySlot : Option Nat
  claim : Option Nat
  /-- Generation that the sectors' tags are expected to carry (R214). -/
  zoneGen : Nat
  /-- The sectors a write carries, as the pages hold them. -/
  payload : List MediaSector
  /-- Ciphertext ready for the serialiser (R410), by sector. -/
  cipherOut : List (Nat × MediaSector)
  /-- Sectors during which WG fell (R197). -/
  wgDropped : List Nat
  /-- A ladder read that met PIN_FULL is repeated once a sample-buffer slot of this slice is free (R348). -/
  awaits : Option Nat
  deriving DecidableEq, Repr

/-- One ring of QUE (R277): a created submission or completion queue. -/
structure Ring where
  num : Nat
  size : Nat
  head : Nat
  tail : Nat
  qprio : Nat
  /-- The completion queue of a submission ring, the vector of a completion ring. -/
  link : Nat
  /-- Submission entries in host memory from head on. -/
  entries : List Sqe
  deriving DecidableEq, Repr

/-- What the BZ8 sends to a host or a management controller. -/
inductive HostMsg where
  | completion (cntlid cqid sqid cid status dw0 : Nat)
  | data (cntlid cid lba : Nat) (bytes : List Byte)
  | page (cntlid cid : Nat) (bytes : List Byte)
  /-- The bytes that overwrite what a sector's buffer, with its protection information behind it, holds (R425). -/
  | poison (cntlid cid lba : Nat) (bytes : List Byte)
  | interrupt (cntlid vector : Nat)
  | sideband (bytes : List Byte)
  deriving DecidableEq, Repr

/-- A controller of the host interface (R266 to R281). -/
structure Controller where
  cntlid : Nat
  /-- CC.EN as last written, and CC.CSS. -/
  enabled : Bool
  css : Nat
  /-- Admin queues: sizes written by the host before enabling. -/
  asqs : Nat
  acqs : Nat
  /-- The cause of CSTS.CFS persists until device reset. -/
  cfsSticky : Bool
  /-- CSTS.PP, processing paused (R458). -/
  paused : Bool
  /-- Arbitration weights HIGH, MEDIUM, LOW and burst as the host set them (R278). -/
  weights : Option (Nat × Nat × Nat × Nat)
  /-- Commands of Asynchronous Event Request outstanding. -/
  aers : List Nat
  /-- Posted events not yet carried by a request: type, information. -/
  aerQueue : List (Nat × Nat)
  /-- Masked type and information pairs. -/
  aerMasked : List (Nat × Nat)
  /-- Asynchronous Event Configuration of types 0x1 and 0x2. -/
  aecMask : Nat
  /-- Controller-scope features set, by FID. -/
  features : List (Nat × Nat)
  /-- Vectors exempt from coalescing. -/
  noCoalesce : List Nat
  /-- Vectors whose interrupt waits for the aggregation: vector, completions waiting. -/
  coalescing : List (Nat × Nat)
  /-- Snapshots of vendor pages, by LID (R283). -/
  snapshots : List (Nat × List Byte)
  /-- Round-robin position among its submission queues. -/
  lastQueue : Nat
  /-- Credits left of the weighted classes HIGH, MEDIUM and LOW. -/
  credits : Nat × Nat × Nat
  /-- Errors logged, and the Error Information entries, newest first: error count, status and first LBA. -/
  errors : Nat
  errorLog : List (Nat × Nat × Nat)
  /-- Taken offline by Virtualization Management (R269). -/
  offline : Bool
  deriving DecidableEq, Repr

/-- The PCIe state of a function (R263, R115, R117): what the host sets in its configuration space, its BARs and its MSI-X
table. No row of the table is a Configuration Request or a memory write to BAR2, so each stays as phase 6 or a reset leaves it
(assumption log 98). -/
structure PcieFunction where
  cntlid : Nat
  deviceId : Nat
  classCode : Nat
  /-- The Command register of the configuration space. -/
  command : Nat
  /-- BAR0 and BAR2, as the host placed them. -/
  bars : List Nat
  /-- Entries of the MSI-X table, and those that the host has set: vector, address, data. -/
  msixSize : Nat
  msixTable : List (Nat × Nat × Nat)
  msixEnabled : Bool
  deriving DecidableEq, Repr

structure HostUnit where
  controllers : List Controller
  /-- The PCIe functions that phase 6 built (R115). -/
  functions : List PcieFunction
  rings : List Ring
  /-- Everything sent to the host, newest first. -/
  sent : List HostMsg
  /-- SR-IOV VF Enable per port, NumVFs in HIF_PORT_n_STATUS. -/
  vfEnable : List Bool
  /-- Links that may train, configuration space ready (R115). -/
  linkTraining : List Bool
  perst : List Bool
  /-- The shared snapshot counter of R282. -/
  snapSeq : Nat
  /-- Commands of page 0xC1 that wait for the next check (R285). -/
  ledgerReads : List Nat
  /-- Subsystem-scope features, by FID: current and saved values. -/
  features : List (Nat × Nat)
  savedFeatures : List (Nat × Nat)
  /-- Feature 0xC1 per namespace. -/
  readPath : List (Nat × Nat)
  /-- LBA format per namespace (R288). -/
  lbaFormat : List (Nat × Nat)
  /-- PI type per namespace in LBA format 1. -/
  piType : List (Nat × Nat)
  /-- Namespaces under Format: NSID, CDW10, and the slot of the command plus 1, 0 for none. -/
  formatting : List (Nat × Nat × Nat)
  /-- A sanitize in progress: CDW10 and CDW11 (R399); CDW10 of the one that ended last. -/
  sanitize : Option (Nat × Nat)
  sanitizeDone : Option Nat
  /-- SMART critical warning bits. -/
  smart : Nat
  /-- Zones whose state changed without a host command (R291). -/
  changedZones : List Nat
  changedNamespaces : List Nat
  /-- Device self-test log: code and result. -/
  selfTest : Option (Nat × Nat)
  /-- Round-robin positions of the front pairs over their Skeins: pair, next skein of step 1 and of step 2. -/
  roundRobin : List (Nat × Nat)
  /-- The response of the last sideband command, and that of the last NVMe-MI Send (R269, R294). -/
  sidebandReply : List Byte
  miReply : List Byte
  /-- NVMe-MI reset and configuration values set over the sideband. -/
  miConfig : List (Nat × Nat)
  deriving DecidableEq, Repr

/-- A claim of the overlap tracker (R329). -/
structure Claim where
  index : Nat
  dla : Nat
  count : Nat
  /-- DLAs superseded. -/
  superseded : List Nat
  /-- The pair that opened it; 6 the Darning unit. -/
  owner : Nat
  deriving DecidableEq, Repr

/-- A clean page: a sector's data and guard in the read cache. -/
structure CleanPage where
  dla : Nat
  data : Sector
  pi : List Byte
  deriving DecidableEq, Repr

/-- Buffers, slots, windows and the Ledger. -/
structure Flow where
  slots : List Slot
  /-- The slot sequence number of the next fetch. -/
  nextSeq : Nat
  nextOp : Nat
  ops : List MediaOp
  clean : List CleanPage
  /-- The 23 classes of ORD_LEDGER_SEL: the Ledger's counts and the owning units' census. -/
  ledger : List Int
  census : List Nat
  /-- Both as they stood at the last check. -/
  ledgerSeen : List Int
  censusSeen : List Nat
  /-- Account totals: slots, pages, tokens per core, credits per Needle. -/
  pageTotal : Nat
  /-- Transfers held since guard start (R29): from class, to class, count. -/
  held : List (Nat × Nat × Nat)
  /-- The check of this Row has run; the last check passed. -/
  checked : Bool
  lastPassed : Bool
  /-- WRITE_HOLD begins, or ends, at the next boundary. -/
  enterHold : Bool
  leaveHold : Bool
  /-- Checks are stopped by bind-off (R312). -/
  checksOff : Bool
  /-- Zone accept pointers: zone, pointer, room reserved for appends (R331, R332). -/
  accept : List (Nat × Nat × Nat)
  claims : List Claim
  /-- Fetched commands of the front pairs that finished: tags of R16 seen (Row, sequence). -/
  tags : List (Nat × Nat)
  /-- Physical write positions of sequential zones: zone, next data slot, LBAs placed. -/
  wpos : List (Nat × Nat × Nat)
  /-- Zones written while implicitly open, least recently first (R290). -/
  openOrder : List Nat
  /-- Per actuator, the window index that the access-cost engine evaluates next, and its evaluations in this Row (R305). -/
  engineAt : List Nat
  engineEvals : List Nat
  deriving DecidableEq, Repr

/-! ### Slices (chapter 9) -/

/-- A sector received by a slice and not yet settled. -/
structure SectorJob where
  op : Nat
  index : Nat
  psa : Nat
  isVerify : Bool
  /-- Mark positions found. -/
  markA : Option Int
  markB : Option Int
  /-- Payload start used and the framing code (0 Mark A, 1 Mark B, 2 timer). -/
  start : Int
  framing : Nat
  /-- Dropped-stitch bits of the result. -/
  drops : Nat
  /-- Sample slot, if one was free. -/
  slot : Nat
  deriving DecidableEq, Repr

/-- What the timing loop and the three tension loops hold (R206), in units of 2^-24. -/
structure Loops where
  phase : Int
  freq : Int
  gain : Int
  base : Int
  asym : Int
  deriving DecidableEq, Repr

/-- A slot of the sample buffer (R215): the raw samples, and its descriptor. -/
structure SampleSlot where
  slot : Nat
  psa : Nat
  head : Nat
  band : Nat
  markA : Option Int
  markB : Option Int
  samples : List Int
  deriving DecidableEq, Repr

/-- An entry of the LLR store (R215). -/
structure LlrEntry where
  op : Nat
  index : Nat
  values : List Int
  deriving DecidableEq, Repr

/-- A sample-buffer slot that is pinned. -/
structure PinnedSlot where
  slot : Nat
  psa : Nat
  op : Nat
  index : Nat
  markA : Option Int
  markB : Option Int
  start : Int
  framing : Nat
  margin : Nat
  deriving DecidableEq, Repr

/-- A 16-byte sector result (R218). -/
structure SectorResult where
  psa : Nat
  slice : Nat
  isVerify : Bool
  slot : Nat
  code : Nat
  iterations : Nat
  framing : Nat
  foundA : Bool
  foundB : Bool
  offset : Int
  drops : Nat
  margin : Nat
  crc : Nat
  deriving DecidableEq, Repr

/-- A firmware recovery request in progress (R217). -/
structure RecoveryRequest where
  op : Nat
  slot : Nat
  span : Nat
  iterations : Nat
  /-- The ladder run that made it, if any. -/
  run : Option Nat
  deriving DecidableEq, Repr

structure Slice where
  /-- Sectors received, oldest first, that wait for the inline decode. -/
  received : List SectorJob
  /-- The automatic queue of R211, at most 4. -/
  automatic : List SectorJob
  pinned : List PinnedSlot
  /-- Next slot of the ring. -/
  ring : Nat
  request : Option RecoveryRequest
  /-- Register writes that wait for the sector boundary (R228): address and value. -/
  delayed : List (Nat × Word)
  /-- Inside a frame. -/
  inFrame : Bool
  /-- DISABLE waits for the sector boundary. -/
  disabling : Bool
  /-- Role before DISABLE, as coded by ROLE; and actuator and position then served. -/
  formerRole : Nat
  formerAct : Nat
  formerPos : Nat
  /-- The defect detector holds the loops; clean bits counted since. -/
  defect : Bool
  cleanBits : Nat
  /-- The loops as they stand at the end of the last frame, and the taps of the cross-track canceller (R222). -/
  loops : Loops
  cancel : List Int
  /-- The equalised samples of the last frame, which the other slice of a TWIN pair takes (R222). -/
  equalised : List Int
  /-- The sample buffer, a slot once, and the LLR store, the newest entry first, at most 8 (R215). -/
  buffer : List SampleSlot
  llrs : List LlrEntry
  /-- The bits of the frame that the serialiser sends or sent last (R208). -/
  serial : List Bool
  /-- A takeover of this slice waits for the sector boundary. -/
  takeover : Bool
  bufferFault : Bool
  lastResult : Option SectorResult
  /-- Its 16 bytes, as posted over the Cable network. -/
  resultBytes : List Byte
  deriving DecidableEq, Repr

/-! ### Error recovery and Darning (chapter 14) -/

/-- A ladder run (R346). -/
structure LadderRun where
  id : Nat
  act : Nat
  psa : Nat
  dla : Nat
  /-- The step it works on, 1 to 8. -/
  step : Nat
  tagMismatch : Bool
  urgent : Bool
  /-- Sectors of host reads that joined: operation, place in it, Limited Retry bit. -/
  joined : List (Nat × Nat × Bool)
  /-- It was started or joined by the Darning unit. -/
  darning : Bool
  slice : Nat
  claim : Option Nat
  deriving DecidableEq, Repr

/-- An unreadable-list entry (R366). -/
structure UnreadableEntry where
  dla : Nat
  length : Nat
  row : Nat
  cause : Nat
  step : Nat
  deriving DecidableEq, Repr

/-- A zone rewrite in progress (R360). -/
structure Rewrite where
  zone : Nat
  gen : Nat
  step : Nat
  formerState : ZoneState
  deriving DecidableEq, Repr

/-- A sector whose result starts a ladder run (R346). -/
structure FailedSector where
  act : Nat
  dla : Nat
  psa : Nat
  /-- Its result code, the slice that read it, and whether its slot was pinned. -/
  code : Nat
  slice : Nat
  pinned : Bool
  urgent : Bool
  /-- A scrub read. -/
  darning : Bool
  /-- The claim of the scrub operation. -/
  claim : Option Nat
  /-- The operation that read it, and the sector's place in it. -/
  op : Nat
  index : Nat
  deriving DecidableEq, Repr

structure Darning where
  runs : List LadderRun
  /-- Sectors that failed their decodes and wait for a ladder run, oldest first. -/
  failed : List FailedSector
  nextRun : Nat
  unreadable : List UnreadableEntry
  /-- Sectors placed at the head of the scrub queue (R349), by DLA. -/
  priority : List Nat
  /-- Next data slot to scrub in the zone of DRN_SCRUB_POS_n, per actuator. -/
  scrubNext : List Nat
  /-- Operating time at which the pass under way began, per actuator. -/
  passStart : List Nat
  due : List Nat
  rewrite : Option Rewrite
  /-- Rewrites that WCOUNT wrap requires, waiting (R259). -/
  required : List Nat
  /-- Lifeline blocks retired, save-area blocks lost, failed programs. -/
  blocksRetired : Nat
  saveBlocksLost : Nat
  programFails : Nat
  eraseMax : Nat
  eraseAvg : Nat
  eccCorrected : Nat
  deriving DecidableEq, Repr

/-! ### Memory protection (chapter 15) -/

/-- A repair that waits to be posted (R380). -/
structure PageRepair where
  die : Nat
  page : Nat
  holds : PageHolds
  /-- The content could be read: the page is retired all the same. -/
  good : Bool
  deriving DecidableEq, Repr

structure Protection where
  /-- Remap entries: granule and die (R375). -/
  remap : List (Nat × Nat)
  /-- Corrected errors per granule and die. -/
  corrected : List (Nat × Nat × Nat)
  /-- Pages that needed page correction in this pass: page and die. -/
  fixedOnce : List (Nat × Nat)
  /-- Pages redirected to spare pages: page and die (R376). -/
  retired : List (Nat × Nat)
  /-- Buffer pages quarantined: page and die. -/
  quarantined : List (Nat × Nat)
  /-- Pages whose decode runs: page, die, the granules with an uncorrectable word. -/
  decoding : List (Nat × Nat × List Nat)
  repairs : List PageRepair
  /-- Bits flipped in DRAM and not yet corrected: die and bit address. -/
  flipped : List (Nat × Nat)
  /-- Granules with an uncorrectable word that has been written back: granule and die (R375). -/
  writtenBack : List (Nat × Nat)
  /-- Parity symbols of DRAM pages, by page of the data space; a page that is not listed holds zeros (R368, R371). -/
  pageParity : List (Nat × BitVec 256)
  deriving DecidableEq, Repr

/-! ### Cipher engine (chapter 17) -/

/-- One bank of a key slot (R416). -/
structure Bank where
  alg : Nat
  mode : Nat
  key : BitVec 512
  nsid : Nat
  zone : Nat
  generation : Nat
  keyTag : Option Nat
  h : BitVec 128
  deriving DecidableEq, Repr

structure KeySlot where
  test : Bool
  current : Nat
  bank0 : Option Bank
  bank1 : Option Bank
  draining : Bool
  /-- Operations pinned to the old and to the current bank. -/
  pinnedOld : List Nat
  pinnedCur : List Nat
  use : Nat
  exhausted : Bool
  /-- The usage reservation on the Lifeline and one being written (R421). -/
  reservation : Nat
  deriving DecidableEq, Repr

/-- A register of a Hook thread: a value, or the result of a block still in a core (R412). -/
inductive VReg where
  | ready (v : BitVec 128)
  | waiting
  deriving DecidableEq, Repr

/-- A sector, or a firmware job, for the Hook sequencer. -/
structure CipherWork where
  /-- The media operation; 0 a firmware job. -/
  op : Nat
  sector : Nat
  slot : Nat
  encrypt : Bool
  /-- 0 XTS, 1 GCM, 2 CTR, 3 CMAC. -/
  mode : Nat
  context : BitVec 128
  blocks : List (BitVec 128)
  aad0 : BitVec 128
  aad1 : BitVec 128
  tag : BitVec 128
  /-- The core that it must not run on again (R409, R412); 4 none. -/
  avoid : Nat
  deriving DecidableEq, Repr

structure HookThread where
  work : Option CipherWork
  pc : Nat
  regs : List VReg
  input : List (BitVec 128)
  output : List (BitVec 128)
  /-- LOOP: first word, word count, turns left. -/
  loop : Option (Nat × Nat × Nat)
  authTag : Option (BitVec 128)
  verdict : Option Bool
  /-- A block of the sector has been dispatched. -/
  begun : Bool
  deriving DecidableEq, Repr

/-- A block in a core: thread, register, result. -/
structure CoreBlock where
  thread : Nat
  reg : Nat
  result : BitVec 128
  deriving DecidableEq, Repr

structure Cipher where
  slots : List KeySlot
  program : List Word
  testKey : List Word
  threads : List HookThread
  /-- Blocks in each core, oldest first. -/
  cores : List (List CoreBlock)
  /-- Tokens taken and freed since the last posted transfer, per core. -/
  taken : List Nat
  freed : List Nat
  /-- Sectors that wait for a thread. -/
  queue : List CipherWork
  /-- Cores faulted (R409), as a mask. -/
  faulted : Nat
  /-- The job's output has been formed; its result. -/
  jobResult : Option Nat
  /-- Usage reservations in the Lifeline settings: NSID, zone, generation, value (R421). -/
  reservations : List (Nat × Nat × Nat × Nat)
  /-- Cipher work is held by an alarm, with the state before. -/
  heldState : Nat
  deriving DecidableEq, Repr

/-! ### The Row machine, the core pairs and the Cable network (chapter 1) -/

structure RowMachine where
  /-- Instant of the last boundary, in ps of the timebase. -/
  last : Nat
  /-- The latest instant that a command has given. -/
  now : Nat
  /-- The Row in progress began in IDLE and a lock has ended IDLE (R23). -/
  leaving : Bool
  flywheelRun : Nat
  /-- Index of the master's wedge that the last boundary stands for. -/
  index : Nat
  /-- The last boundary was a wedge instant. -/
  lastWasWedge : Bool
  /-- Wedge instants of the two actuators in this Row. -/
  wedgeAt : List (Option Nat)
  /-- The last differences B minus A, in ps, at most 256, newest first. -/
  offsets : List Int
  /-- A FLYWHEEL boundary was placed and the actuator's Needle has not demodulated since (R24). -/
  flyStop : List Bool
  /-- A hand-over, a microcode swap or a re-Pattern has been taken at the last boundary (R31). -/
  swapped : Bool
  /-- Upper halves latched by reads of lower halves: processor, register, value (R26). -/
  latched : List (Nat × Nat × Nat)
  deriving DecidableEq, Repr

/-- A prior value in an undo log (R15): the space and the 64-bit location, with the bytes that stood there. -/
structure UndoEntry where
  space : Space
  addr : Nat
  bytes : List Byte
  deriving DecidableEq, Repr

/-- A checkpoint of a pair (R15): the Row it was captured in, the architectural registers, and the Cable requests then
outstanding. -/
structure PairCheckpoint where
  row : Nat
  regs : Nat
  requests : List (CableUnit × Nat)
  deriving DecidableEq, Repr

/-- What the hardware keeps for one core pair. -/
structure CorePair where
  /-- Newest first; one entry for each location of a store. -/
  undo : List UndoEntry
  /-- Stores that wait for the boundary, oldest first: space, address, bytes. -/
  stalled : List (Space × Nat × List Byte)
  /-- The architectural registers, as one number: the spec gives their content to the program of the pair. -/
  regs : Nat
  /-- Cable requests outstanding: where each went and what it carried, oldest first. -/
  requests : List (CableUnit × Nat)
  checkpoint : Option PairCheckpoint
  /-- The Row that the pair executes again after a takeover, until the next boundary (R16). -/
  replay : Option Nat
  /-- A takeover waits for the boundary; the pair whose work it did. -/
  takeover : Bool
  takeoverFor : Nat
  /-- Halted under R497. -/
  halted : Bool
  deriving DecidableEq, Repr

/-- One link of a segment with the hub. -/
structure CableLink where
  expected : Nat
  replays : Nat
  discarding : Bool
  /-- Packets of the replay buffer that are still to come again, at most 32. -/
  awaited : Nat
  deriving DecidableEq, Repr

/-- A packet by its ends and its content. -/
structure CableItem where
  source : CableUnit
  target : CableUnit
  content : Nat
  deriving DecidableEq, Repr

structure CableNet where
  /-- Links 0 to 11 toward the hub, 12 to 23 from the hub. -/
  links : List CableLink
  /-- Segments declared failed. -/
  failed : List Nat
  /-- Packets that the hub has accepted and not yet delivered, oldest first. -/
  hub : List CableItem
  /-- Packets delivered, newest first. -/
  delivered : List CableItem
  /-- The hub's own answers, newest first: the source that gets it, the target it addressed, and whether it is an error. -/
  answers : List (CableUnit × CableUnit × Bool)
  deriving DecidableEq, Repr

/-- The answer to a processor's last register access. -/
structure BusReply where
  proc : Nat
  value : Nat
  error : Bool
  deriving DecidableEq, Repr

/-! ### Package, power and cast-on (chapters 3 to 5) -/

/-- The level of a ball. -/
inductive Level where
  | hiZ | low | high
  deriving DecidableEq, Repr

structure Pins where
  /-- Actuators A and B. -/
  wg : List Level
  aen : List Level
  sen : List Level
  statRdy : Level
  statActN : Level
  statFaultN : Level
  testMode : Bool
  deriving DecidableEq, Repr

/-- The holds in device reset (R70, R91). -/
inductive Hold where
  | none | thermal | testMode
  deriving DecidableEq, Repr

/-- A descriptor of the save and the page it names (R102). -/
structure SavedPage where
  nsid : Nat
  dla : Nat
  wcount : Nat
  gen : Nat
  seq : Nat
  pi : List Byte
  data : Sector
  deriving DecidableEq, Repr

/-- A save in the Lifeline save area (R102, R107). -/
structure Save where
  seq : Nat
  zones : List Nat
  descriptors : List SavedPage
  descCommit : Bool
  /-- Chunks whose CRC is valid. -/
  chunks : List (List SavedPage)
  commit : Bool
  deriving DecidableEq, Repr

structure Keeper where
  powered : Bool
  halted : Bool
  /-- It started from halt or from loss of VIN5_AON, and not from a hold (R506). -/
  fresh : Bool
  hold : Hold
  /-- A retry of R94 waits. -/
  retry : Bool
  closing : Bool
  ramp12 : Bool
  ramp5 : Bool
  /-- Rails that have power-good, in the order of R96. -/
  railsGood : Nat
  /-- A device reset is in force. -/
  inReset : Bool
  /-- The outputs are driven (after I/O release). -/
  released : Bool
  /-- Bind-off runs; the last step completed. -/
  bindOff : Bool
  boStep : Nat
  /-- Its copies in the Lifeline (R110). -/
  savedPcc : Nat
  savedOptime : Nat
  savedSeq : Nat
  saves : List Save
  nextSave : Nat
  /-- D_E waiting for the boundary (R99). -/
  pendingEnergy : Option Nat
  /-- A restore under R107 is outstanding. -/
  restoring : Bool
  deriving DecidableEq, Repr

structure CastOn where
  /-- Row count of each watched pair's last kick, by bit of PAIRS (R124); while the pair is halted, the Rows counted so far (R497). -/
  kicked : List Nat
  /-- Units that legacy mode still holds in reset (R114). -/
  legacyHeld : Bool
  /-- The build from a Pattern has been made (end of phase 6). -/
  built : Bool
  /-- A cold cast-on is under way, not a warm one. -/
  cold : Bool
  /-- Slots that the boot takes, per component (R451). -/
  bootSlots : List (Nat × Nat)
  /-- A controller has set CSTS.RDY since I/O release (R79). -/
  firstReady : Bool
  /-- RECOVERY under R113. -/
  recovery : Bool
  deriving DecidableEq, Repr

/-! ### Spindle engine (chapter 6) -/

structure Spindle where
  /-- Runs with the residual within 10°, above 30°, and with the speed 2 % off. -/
  residOk : Nat
  residBad : Nat
  speedBad : Nat
  idRef : Int
  iqRef : Int
  intD : Int
  intQ : Int
  intSpeed : Int
  /-- Voltages of the last run in mV. -/
  vd : Int
  vq : Int
  /-- Current samples in mA after the offsets are taken off. -/
  iu : Int
  iv : Int
  iw : Int
  /-- Observer speed in 0.01 rpm, signed, and the last 16 values. -/
  obsSpeed : Int
  obsRecent : List Int
  /-- The last 16 Row periods and the last 6 crossing intervals. -/
  rowRecent : List Nat
  crossRecent : List Nat
  /-- Time of the runs since the last commutation event, in ps. -/
  sinceEvent : Nat
  eventInWindow : Bool
  /-- HOLD: electrical angle run through since entry; the angle that the rotating vector of mode 1 starts from, and what it has
  turned since. -/
  holdAngle : Nat
  holdBase : Nat
  holdSince : Nat
  /-- The phase that floats in this run, and the one whose current is driven below 50 mA before it does (R131, R145). -/
  floating : Option Nat
  quiet : Option Nat
  /-- Runs of the current loop in this Row. -/
  runInRow : Nat
  /-- The voltage vector applied, in mV, the phase duties that the next PWM reload loads in counts of 1,389 (R129), and the
  vector of the currents of the last run. -/
  va : Int
  vb : Int
  duties : List Nat
  ia : Int
  ib : Int
  /-- Angle of the estimated back-EMF vector. -/
  emfAngle : Nat
  /-- Electrical angle run through since the last reliable speed estimate. -/
  uncAngle : Nat
  /-- Uncertainty of the last reliable estimate. -/
  reliableUnc : Nat
  /-- Speed of the last reliable estimate, in 0.01 rpm. -/
  reliableRpm : Nat
  crossOk : Nat
  crossLow : Nat
  measurements : Nat
  /-- CATCH: the measurement is over and the catch runs; angle run through. -/
  catching : Bool
  catchAngle : Nat
  /-- The q reference of a catch (R143). -/
  catchIq : Int
  /-- Time in ALIGN, and time in BRAKE below the target, in ps. -/
  alignPs : Nat
  belowPs : Nat
  /-- Angle of the forced ramp and its speed in 0.01 Hz. -/
  forced : Nat
  forcedHz : Nat
  /-- The ramp has handed over to the observer. -/
  closedLoop : Bool
  bandRows : Nat
  ofsSum : Int
  ofsRows : Nat
  /-- Measured stage on-resistance in mΩ. -/
  stage : Nat
  /-- Rock at the start of ALIGN: 0 none, 1 negative first, 2 positive first. -/
  rock : Nat
  /-- BRAKE ends below this many tenths of a per cent of rated. -/
  brakeTarget : Nat
  /-- The write-unsafe stop toward both actuators. -/
  writeStop : Bool
  /-- Phase current taken off the limit by R97, in mA. -/
  cut : Nat
  /-- Generator operation (R102). -/
  generator : Bool
  /-- The zero vector is applied in the next half-period (R148). -/
  zeroVector : Bool
  driving : Bool
  deriving DecidableEq, Repr

/-! ### Needles (chapter 7) -/

/-- The states of one block of the graph. -/
abbrev BlockStates := List (Nat × List Int)

/-- What a driving Needle mirrors (R151). -/
structure Mirror where
  states : BlockStates
  prev : BlockStates
  pos : Int
  vel : Int
  acc : Int
  target : Int
  limitSet : Nat
  mode : Nat
  holdCmd : Bool
  settle : Nat
  offset : Int
  mailbox : List (Word × Word)
  deriving DecidableEq, Repr

structure Needle where
  validRun : Nat
  missRun : Nat
  holdRows : Nat
  settleRun : Nat
  settleRows : Nat
  timeoutSeen : Bool
  mailbox : List (Word × Word)
  /-- Tags of the latest pushes: issuing Row, slot sequence number, W0 and W1 (R16). -/
  pushed : List (Nat × Nat × Word × Word)
  /-- Committed at the end of this Row and of the Row before (R160). -/
  states : BlockStates
  prev : BlockStates
  /-- The post-deadline phase of the Row is open, and the entries that it may still take (R171). -/
  phase : Bool
  due : Nat
  /-- A RETRACT has been taken in this phase (R173). -/
  retractTaken : Bool
  pendingMode : Option Nat
  /-- PES and ERR of the last valid wedge, and its measured position before saturation, in Q16.16 (R153, R154). -/
  pes : Int
  lastErr : Int
  measured : Int
  wedgeValid : Bool
  lastIndex : Option Nat
  /-- The inputs of this Row, as the INPUT block carries them. -/
  inputs : List Int
  /-- The inputs of the Row whose deadline came last, for the trial pass of R166. -/
  doneInputs : List Int
  latched : Bool
  latchedPrev : Bool
  closed : Bool
  limitSet : Nat
  /-- The other bank holds new microcode to activate. -/
  fresh : Bool
  shadowRows : Nat
  /-- A SHADOW Needle that takes its states from the next mirror (R178). -/
  awaitMirror : Bool
  formerRole : Nat
  formerAct : Nat
  disabled : Bool
  mirrors : List (Nat × Mirror)
  /-- The Needle has arrived at its target (R170). -/
  arrived : Bool
  /-- A takeover waits for the boundary. -/
  takeover : Bool
  /-- A NDL_BUMP waits for the first output. -/
  bumpFrom : Option (Int × Int)
  /-- Jerk of the generator's last run, in units of 2^-28 (R159, SP_JERK). -/
  jerk : Int
  halted : Bool
  deriving DecidableEq, Repr

/-! ### Actuators (chapter 8) -/

/-- What a preamplifier frame is for (R187). -/
inductive FrameKind where
  | poll | headSelect (head : Nat) | heater (write : Bool) | assist | firmware
  deriving DecidableEq, Repr

structure Frame where
  kind : FrameKind
  read : Bool
  addr : Nat
  data : Nat
  deriving DecidableEq, Repr

/-- What drives the coil bridge. -/
inductive Coil where
  | off | follow | loadEmf | unloadEmf | rampHold | retractEmf | retractConst
  deriving DecidableEq, Repr

structure Actuator where
  linkOn : Bool
  pollDue : Bool
  queue : List Frame
  inFlight : Option Frame
  attempts : Nat
  /-- The 33 bits of the last request sent on SDATA, RW highest (R185). -/
  sent : Nat
  fwFrame : Option Frame
  pollOk : Bool
  pollOkPrev : Bool
  preampFault : Bool
  /-- A head change waits for WG and the deadline. -/
  selecting : Option Nat
  settleUntil : Option Nat
  /-- Row boundaries of preheat left; none: not preheated for a write. -/
  preheat : Option Nat
  /-- Heater at the write level requested. -/
  writeHeat : Bool
  coil : Coil
  coilCmd : Int
  coilCurrent : Int
  bemf : Int
  /-- Runs of the current loop in a row with the back-EMF below 10 % of UNLOAD_MV, while an unload drives outward (R191). -/
  still : Nat
  /-- Coil inductance measured at the last load, in 0.1 µH. -/
  inductance : Nat
  xff : Int
  ma : Int
  /-- Accumulators of the heads in 0.1 pJ. -/
  acc : List Nat
  /-- The heads that the energy limit has cut in this revolution. -/
  cut : List Nat
  /-- AEN high since this instant. -/
  aenSince : Option Nat
  /-- The power the accumulator counts since AEN rose, in 0.1 mW (R199). -/
  aenMw : Nat
  /-- Limits of a re-Pattern that wait for the revolution boundary. -/
  limits : List (Nat × Nat)
  /-- A slice requests a write of the current sector. -/
  wgRequest : Option Nat
  /-- WG is held low by a lead that runs. -/
  lead : Bool
  overrun : Bool
  wedgeIndex : Nat
  /-- wedgeIndex is that of the Row which the next boundary begins: its wedge has come (R198). -/
  ahead : Bool
  /-- Where the loops of a head start its next sector (R206): head, band and values. -/
  loops : List (Nat × Nat × Loops)
  retracting : Bool
  deriving DecidableEq, Repr

/-! ### Gauge (chapter 18) -/

structure Calibration where
  kind : Nat
  slice : Nat
  act : Nat
  head : Nat
  /-- It waits: 0 running, 1 for the sector boundary, 2 for the actuator to go idle. -/
  waits : Nat
  /-- The spare stands in for the slice. -/
  spare : Bool
  formerRole : Nat
  formerAct : Nat
  formerPos : Nat
  deriving DecidableEq, Repr

/-- Averages of a head under R439, in units of 2^-24. -/
structure HeadTrend where
  act : Nat
  head : Nat
  short : Nat
  long : Nat
  results : Nat
  reported : Bool
  deriving DecidableEq, Repr

structure Gauge where
  running : Option Calibration
  /-- Picks are withheld from an actuator for a calibration. -/
  holdPicks : List Nat
  trends : List HeadTrend
  /-- A calibration ended; its slice returns at the sector boundary. -/
  returning : Option Calibration
  deriving DecidableEq, Repr

/-! ### Update (chapter 19) -/

/-- An entry of the activation record (R450). -/
structure SlotEntry where
  component : Nat
  level : Nat
  slot : Nat
  valid : Bool
  length : Nat
  digest : Digest
  accept : List (Nat × Nat)
  deriving DecidableEq, Repr

/-- STATE of an activation record. -/
inductive RecordState where
  | confirmed | tentative | frogRequested
  deriving DecidableEq, Repr

structure ActRecord where
  seq : Nat
  state : RecordState
  unconf : Nat
  svnPending : Bool
  staged : Bool
  atReset : Bool
  actOptime : Nat
  faultOptime : Nat
  current : List SlotEntry
  fallback : List SlotEntry
  stagedSet : List SlotEntry
  deriving DecidableEq, Repr

/-- A component of a bundle's manifest (R444). -/
structure BundleEntry where
  component : Nat
  level : Nat
  offset : Nat
  length : Nat
  digest : Digest
  accept : List (Nat × Nat)
  deriving DecidableEq, Repr

structure Session where
  digest : Digest
  length : Nat
  entries : List BundleEntry
  /-- SETTING_ID and FORMAT of the manifest's table. -/
  settings : List (Nat × Nat)
  /-- The 4 KiB units kept, with their bytes. -/
  units : List (Nat × List Byte)
  lastProgress : Nat
  /-- Member sources: bit 0 port 0, bit 1 port 1, bit 2 the sideband (R467). -/
  members : Nat
  deriving DecidableEq, Repr

/-- A Firmware Commit that runs on (R448): its slot, its action. -/
structure Commit where
  slot : Option Nat
  action : Nat
  deriving DecidableEq, Repr

/-- An activation at runtime (R453 to R458). -/
structure Activation where
  components : List Nat
  commit : Option Nat
  /-- Needle microcode: actuator, leg 1 or 2, and whether the shadow has loaded. -/
  act : Nat
  leg : Nat
  /-- Pairs still to hand over, X first. -/
  pairs : List Nat
  step : Nat
  /-- Row count of boundary b. -/
  start : Nat
  attempts : Nat
  quiesced : Bool
  /-- The next boundary that R31 allows carries it on. -/
  ready : Bool
  /-- It runs at an NVM subsystem reset: readiness waits for its end (R448). -/
  atNssr : Bool
  deriving DecidableEq, Repr

structure Update where
  records : List ActRecord
  session : Option Session
  verifying : Option Commit
  activation : Option Activation
  /-- Images in the firmware slots: component, slot, bytes. -/
  images : List (Nat × Nat × List Byte)
  /-- Setting records: SETTING_ID, FORMAT, content. -/
  settings : List (Nat × Nat × List Byte)
  /-- REVISION of the bundle that brought the front image of a slot (R443). -/
  revisions : List (Nat × List Byte)
  /-- Settings tables of the manifests of the front images, by slot. -/
  tables : List (Nat × List (Nat × Nat))
  deriving DecidableEq, Repr

/-! ### The whole machine -/

/-- The BZ8. -/
structure State where
  /-- The registers that differ from their reset values. -/
  regs : List (Nat × Word)
  fuse : Fuses
  /-- The free values drawn so far: the model's own counter. -/
  draws : Nat
  row : RowMachine
  pairs : List CorePair
  cable : CableNet
  bus : BusReply
  pins : Pins
  keeper : Keeper
  cast : CastOn
  pattern : PatternUnit
  spn : Spindle
  needles : List Needle
  acts : List Actuator
  slices : List Slice
  stitch : Stitch
  host : HostUnit
  flow : Flow
  darn : Darning
  prot : Protection
  tir : Tirium
  cip : Cipher
  gauge : Gauge
  upd : Update
  recorder : Recorder
  snag : Snag
  dbg : Debug
  /-- The logic-die SRAM and the DRAM data space, as far as commands store to them. -/
  sram : List Host.Cell
  dram : List Host.Cell
  /-- The commands that wait, the next one first. -/
  pending : List Instr
  deriving DecidableEq, Repr

/-! ### Reset -/

/-- The fuses of a part at stepping 0x00. The hashes, the manufacturer's identity and the spare rows are values the
spec does not give (DESIGN CHOICE, assumption log 2). -/
def Fuses.of (v : Variant) : Fuses :=
  { variant := v, nSuffix := false, stepping := 0, laserCeiling := if v = .d2m then 0 else 2500, sramSpares := 0,
    manufacturer := 0, llynterKeyHash := 0, faKeyHash := 0, makerKeyHash := 0, patternKeyHash := 0, debugKeyHash := 0,
    identityWrap := none, partlyFused := false, isSealed := false, svnBanks := [[], [], [], [], []] }

def RowMachine.reset : RowMachine :=
  { last := 0, now := 0, leaving := false, flywheelRun := 0, index := 0, lastWasWedge := false, wedgeAt := [none, none],
    offsets := [], flyStop := [false, false], swapped := false, latched := [] }

def CorePair.reset : CorePair :=
  { undo := [], stalled := [], regs := 0, requests := [], checkpoint := none, replay := none, takeover := false, takeoverFor := 15,
    halted := false }

def CableLink.reset : CableLink := { expected := 0, replays := 0, discarding := false, awaited := 0 }

def CableNet.reset : CableNet :=
  { links := List.replicate 24 CableLink.reset, failed := [], hub := [], delivered := [], answers := [] }

/-- Every output is high-impedance while the device is unpowered (R76). -/
def Pins.reset : Pins :=
  { wg := [.hiZ, .hiZ], aen := [.hiZ, .hiZ], sen := [.hiZ, .hiZ], statRdy := .hiZ, statActN := .hiZ,
    statFaultN := .hiZ, testMode := false }

def Keeper.reset : Keeper :=
  { powered := false, halted := false, fresh := true, hold := .none, retry := false, closing := false, ramp12 := false,
    ramp5 := false, railsGood := 0, inReset := true, released := false, bindOff := false, boStep := 0, savedPcc := 0,
    savedOptime := 0, savedSeq := 0, saves := [], nextSave := 1, pendingEnergy := none, 
    restoring := false }

def CastOn.reset : CastOn :=
  { kicked := [0, 0, 0, 0, 0], legacyHeld := false, built := false, cold := true, bootSlots := [], firstReady := false, recovery := false }

/-- No Pattern: empty panels. -/
def Pattern.empty : Pattern :=
  { id := 0, svn := 0, digest := 0,
    geometry := { rpm := 7200, wedges := 600, platters := 0, headsA := 0, headsB := 0, bands := [], spacing := [], zones := [] },
    topology := { actuators := [], spareSlice := 4, standby := 2, master := 0, wedgeWin := 8, flywheelMax := 4,
                  portMode := 0, legacy := false },
    loop := { blocks := [], wires := [], gains := [], level := 0 }, memory := [],
    host := { controllers := [], namespaces := [], arbitration := [], urgent := [] }, clock := [], pins := [],
    security := { nsCipher := [], readPath := 0, autoConfirm := false },
    energy := { dirtyCeiling := 0, spinup := 2000, laser := [], reserve := 20 },
    recorder := { min := 0, sources := 2 ^ 64 - 1 }, geomCrc := 0 }

def PatternUnit.reset : PatternUnit :=
  { active := Pattern.empty, entries := [], buffer := [], source := 0, waiting := none, runtimeSvn := none }

def Spindle.reset : Spindle :=
  { residOk := 0, residBad := 0, speedBad := 0, idRef := 0, iqRef := 0, intD := 0, intQ := 0, intSpeed := 0, vd := 0,
    vq := 0, iu := 0, iv := 0, iw := 0, obsSpeed := 0, obsRecent := [], rowRecent := [], crossRecent := [],
    sinceEvent := 0, eventInWindow := false, holdAngle := 0, holdBase := 0, holdSince := 0, floating := none, quiet := none,
    runInRow := 0, va := 0, vb := 0, duties := [0, 0, 0], ia := 0, ib := 0, emfAngle := 0, catchIq := 0, alignPs := 0, belowPs := 0, uncAngle := 0, reliableUnc := 0xFFFF, reliableRpm := 0, crossOk := 0,
    crossLow := 0, measurements := 0, catching := false, catchAngle := 0, forced := 0, forcedHz := 0,
    closedLoop := false, bandRows := 0, ofsSum := 0, ofsRows := 0, stage := 0, rock := 0, brakeTarget := 3,
    writeStop := false, cut := 0, generator := false, zeroVector := false, driving := false }

def Needle.reset : Needle :=
  { validRun := 0, missRun := 0, holdRows := 0, settleRun := 0, settleRows := 0, timeoutSeen := false, mailbox := [], pushed := [],
    phase := false, due := 0, retractTaken := false, states := [], prev := [], pendingMode := none, pes := 0, lastErr := 0, measured := 0,
    wedgeValid := false, lastIndex := none, inputs := [0, 0, 0, 0, 0, 0, 0, 0], doneInputs := [0, 0, 0, 0, 0, 0, 0, 0], latched := false, latchedPrev := false,
    closed := false, limitSet := 0, fresh := false, shadowRows := 0, awaitMirror := false, formerRole := 0,
    formerAct := 3, disabled := false, mirrors := [], arrived := false, takeover := false, bumpFrom := none,
    jerk := 0, halted := false }

def Actuator.reset : Actuator :=
  { linkOn := false, pollDue := false, queue := [], inFlight := none, attempts := 0, sent := 0, fwFrame := none, pollOk := false,
    pollOkPrev := false, preampFault := false, selecting := none, settleUntil := none, preheat := none,
    writeHeat := false, coil := .off, coilCmd := 0, coilCurrent := 0, bemf := 0, still := 0, inductance := 0, xff := 0, ma := 0,
    acc := List.replicate 10 0, cut := [], aenSince := none, aenMw := 0, limits := [], wgRequest := none, lead := false,
    overrun := false, wedgeIndex := 0, ahead := false, loops := [], retracting := false }

def Slice.reset : Slice :=
  { received := [], automatic := [], pinned := [], ring := 0, request := none, delayed := [], inFrame := false,
    disabling := false, formerRole := 0, formerAct := 3, formerPos := 0, defect := false, cleanBits := 0,
    loops := { phase := 0, freq := 0, gain := 2 ^ 24, base := 0, asym := 0 }, cancel := List.replicate 16 0, equalised := [], buffer := [],
    llrs := [], serial := [],
    takeover := false, bufferFault := false, lastResult := none, resultBytes := [] }

def Stitch.reset : Stitch :=
  { leaves := [], zones := [], held := [], heldRebuild := [], rebuilding := [], reply := .none, nextSeq := 1,
    page := [], written := [], journal := [], pagesSince := 0, pageAge := 0, checkpoints := [], writing := none,
    savedTail := [], snapshots := [], cacheLog := [], media := [], torn := [] }

def HostUnit.reset : HostUnit :=
  { controllers := [], functions := [], rings := [], sent := [], vfEnable := [false, false], linkTraining := [false, false],
    perst := [true, true], snapSeq := 0, ledgerReads := [], features := [], savedFeatures := [], readPath := [],
    lbaFormat := [], piType := [], formatting := [], sanitize := none, sanitizeDone := none, smart := 0,
    changedZones := [], changedNamespaces := [], selfTest := none, roundRobin := [], sidebandReply := [], miReply := [],
    miConfig := [] }

def Flow.reset : Flow :=
  { slots := [], nextSeq := 0, nextOp := 1, ops := [], clean := [], ledger := List.replicate 23 0,
    census := List.replicate 23 0, ledgerSeen := List.replicate 23 0, censusSeen := List.replicate 23 0,
    pageTotal := 0, held := [], checked := false, lastPassed := true, enterHold := false, leaveHold := false,
    checksOff := true, accept := [], wpos := [], claims := [], tags := [], openOrder := [],
    engineAt := [0, 0], engineEvals := [0, 0] }

def Darning.reset : Darning :=
  { runs := [], failed := [], nextRun := 1, unreadable := [], priority := [], scrubNext := [0, 0], passStart := [0, 0], due := [],
    rewrite := none, required := [], blocksRetired := 0, saveBlocksLost := 0, programFails := 0,
    eraseMax := 0, eraseAvg := 0, eccCorrected := 0 }

def Protection.reset : Protection :=
  { remap := [], corrected := [], fixedOnce := [], retired := [], quarantined := [], decoding := [], repairs := [],
    flipped := [], writtenBack := [], pageParity := [] }

def Tirium.reset : Tirium :=
  { blocks := List.replicate 8 0, verified := [], challenges := List.replicate 5 none, last := List.replicate 5 none,
    keyRecords := [], keyCache := [], injected := [], unwrapped := [], identity := none, aliasT := none, aliasD := none,
    spdm := List.replicate 3 { version := false, capabilities := false, algorithms := false, waiting := [], reply := none },
    trngUsed := 0, sanitizeStep := 0, sanitizeZone := 0, sanitizePass := 0 }

def KeySlot.reset : KeySlot :=
  { test := false, current := 0, bank0 := none, bank1 := none, draining := false, pinnedOld := [], pinnedCur := [],
    use := 0, exhausted := false, reservation := 0 }

def HookThread.reset : HookThread :=
  { work := none, pc := 0, regs := List.replicate 8 (.ready 0), input := [], output := [], loop := none,
    authTag := none, verdict := none, begun := false }

def Cipher.reset : Cipher :=
  { slots := List.replicate 128 KeySlot.reset, program := List.replicate 1024 0, testKey := [],
    threads := List.replicate 4 HookThread.reset, cores := List.replicate 4 [], taken := [0, 0, 0, 0],
    freed := [0, 0, 0, 0], queue := [], faulted := 0, jobResult := none, reservations := [], heldState := 0 }

def Gauge.reset : Gauge := { running := none, holdPicks := [], trends := [], returning := none }

/-- The record of a drive that has installed nothing (DESIGN CHOICE, assumption log 3). -/
def ActRecord.blank : ActRecord :=
  { seq := 0, state := .confirmed, unconf := 0, svnPending := false, staged := false, atReset := false, actOptime := 0,
    faultOptime := 0, current := [], fallback := [], stagedSet := [] }

def Update.reset : Update :=
  { records := [ActRecord.blank], session := none, verifying := none, activation := none, images := [], settings := [],
    revisions := [], tables := [] }

def Recorder.reset : Recorder :=
  { fifo := [], carry := [], writing := none, coal := [], store := [], fallback := [], unit := [], shadow := [],
    savedShadow := [], reserve := [], place7 := [], clearing := none, storeFailed := false,
    lifelineFailed := false, scanned := false }

def Snag.reset : Snag :=
  { injectors := List.replicate 8 { running := false, held := false, seen := 0, lfsr := 1 }, armedBy := 0 }

def Debug.reset : Debug :=
  { txFifo := [], rxFifo := [], tap := 0, scanCaptured := [], scanDriven := [], tdo := [] }

/-- A part of a variant before power is first applied: every register at its reset value, the stores empty. -/
def State.resetOf (v : Variant) : State :=
  { regs := [], fuse := Fuses.of v, draws := 0, row := RowMachine.reset, pairs := List.replicate 6 CorePair.reset,
    cable := CableNet.reset, bus := { proc := 0, value := 0, error := false }, pins := Pins.reset,
    keeper := Keeper.reset, cast := CastOn.reset, pattern := PatternUnit.reset, spn := Spindle.reset,
    needles := List.replicate 3 Needle.reset, acts := List.replicate 2 Actuator.reset,
    slices := List.replicate 5 Slice.reset, stitch := Stitch.reset, host := HostUnit.reset, flow := Flow.reset,
    darn := Darning.reset, prot := Protection.reset, tir := Tirium.reset, cip := Cipher.reset, gauge := Gauge.reset,
    upd := Update.reset, recorder := Recorder.reset, snag := Snag.reset, dbg := Debug.reset, sram := [], dram := [],
    pending := [] }

/-- The machine at reset: a BZ8-D2H (DESIGN CHOICE, assumption log 1). -/
def State.reset : State := State.resetOf .d2h

end Sys2Proof.Machine
end

