-- ==== Sys2Proof/Config.lean ====
section
/-!
DEFINITION. Sys2Proof/Config.lean: what the spec fixes outside itself or leaves open. Every constant here has no body, so
nothing can be proved about its value: a statement that mentions one holds for every value of it.
The algorithms are named by the spec and defined by other standards (assumption log 4); the rest are free values.
-/

namespace Sys2Proof.Config

/-! ### Cryptographic functions named by the spec and defined elsewhere -/

/-- SM3 (R40, R389). -/
opaque sm3 : List Byte → Digest
/-- SM2 signature check of a digest under a public key, with the distinguishing identifier of R40. -/
opaque sm2Verify : (publicKey signature : List Byte) → Digest → Bool
/-- The SM2 public key of a private key (R385). -/
opaque sm2Public : Digest → List Byte
/-- An SM2 signature of a digest; the number is the nonce drawn from the TRNG (R393). -/
opaque sm2Sign : Digest → Digest → Nat → List Byte
/-- HMAC with SM3 (R392). -/
opaque hmacSm3 : Digest → List Byte → Digest
/-- The counter-mode KDF of R392: key, label, context and output bits. -/
opaque kdf : Digest → String → List Byte → Nat → Nat
/-- One SM4 block operation under a 128-bit key (R385, R408). -/
opaque sm4Encrypt : BitVec 128 → BitVec 128 → BitVec 128
opaque sm4Decrypt : BitVec 128 → BitVec 128 → BitVec 128
/-- One AES-256 block operation (R408). -/
opaque aesEncrypt : BitVec 256 → BitVec 128 → BitVec 128
opaque aesDecrypt : BitVec 256 → BitVec 128 → BitVec 128
/-- One AES-128 block operation (R408). -/
opaque aes128Encrypt : BitVec 128 → BitVec 128 → BitVec 128
opaque aes128Decrypt : BitVec 128 → BitVec 128 → BitVec 128

/-- The certificate chain of slot 0 over the public keys and measurements it certifies (R393). -/
opaque certChain : (keys : List (List Byte)) → (measurements : List Digest) → List Byte

/-- SM3 over the boot ROM followed by the Tirium ROM (R391). -/
opaque romMeasurement : Digest
/-- SM3 over the ROM Pattern (R56). -/
opaque romPattern : Digest

/-- The keys that a Key Per I/O payload injects or clears: namespace, key tag, key (R397 names the TCG Storage Key Per I/O SSC
for its layout). -/
opaque kpioPayload : List Byte → List (Nat × Nat × Option Digest)

/-! ### Free values -/

/-- Byte n of the output of the TRNG (R405). -/
opaque trng : Nat → Byte
/-- The two PUF secrets of a part (R384). -/
opaque uds : Digest
opaque wrapSeed : Digest
/-- Whether a draw of the Snag unit's register injects, given the register and PERIOD (R491 gives the probability only). -/
opaque snagDraw : Word → Nat → Bool
/-- A number of the spec that it does not state, drawn by the state's counter. -/
opaque freeValue : Nat → Nat
/-- The contents of a frame that the spec gives lengths only (R208): preamble, run-in, postamble, and the LDPC parity of the bytes of
a sector. -/
opaque preamble : List Bool
opaque runIn : List Bool
opaque postamble : List Bool
opaque ldpcParity : List Byte → List Bool
/-- The corrected samples of a frame (R205, R431): from the offset, the gain and the skew word of the ADC, the gain and the asymmetry
trim of the reader, and the samples. -/
opaque correct : Int → Int → Nat → Int → Int → List Int → List Int
/-- The target level of the equalised signal in ADC LSB (R206). -/
opaque targetLevel : Nat
/-- The errors of the gain, baseline and asymmetry loops at an equalised sample, and the fixed steps of the timing loop's phase and
frequency (R206). -/
opaque loopError : Int → Int × Int × Int
opaque timingStep : Int → Int × Int
/-- The least-mean-squares step of a tap, from the equalised sample and the tap's own (R205, R222). -/
opaque lmsStep : Int → Int → Int
/-- The log-likelihood ratios of the soft-output detector over a frame's equalised samples (R205). -/
opaque llr : List Int → List Int
/-- The coil current that a back-EMF control drives: from the back-EMF asked for, the back-EMF as it stands and the current as it
stands, in mV and mA; the spec gives the control no law (R191, R193). -/
opaque emfControl : Int → Int → Int → Int
/-- What the phase-locked loop of R132 adds to its angle, and to its speed in 0.01 rpm, for a residual: the spec gives it no
gains. -/
opaque pllAngle : Int → Int
opaque pllSpeed : Int → Int
/-- The cost of an operation whose age outweighs its time, by how far (R305). -/
opaque costBelow : Nat → Nat
/-- The change of a page's parity (R370, R371) from the difference of one of its 2,048 data symbols. -/
opaque parityChange : Nat → BitVec 16 → BitVec 256

/-- The type codes of the walker's requests in a journal record (R255). -/
opaque requestType : Nat → Byte
/-- The data bytes of a Swatch sector, by its PSA (R438 names the polynomial and the seed; the bit order is open). -/
opaque swatchData : Nat → List Byte
/-- Spare blocks of the Lifeline's pool (R365 gives no number). -/
opaque sparePool : Nat
/-- NAND blocks of the Lifeline store (R286 gives no number). -/
opaque nandBlocks : Nat
/-- Serial number, model number, and the vendor identities of R263 and R268: set at drive manufacture. -/
opaque serialNumber : List Byte
opaque modelNumber : List Byte
opaque vendorIds : List Byte
/-- The vital product data (R294). -/
opaque vpd : List Byte

end Sys2Proof.Config
end

