-- ==== Sys2Proof/Machine/Ops.lean ====
section
/-!
DEFINITION. Sys2Proof/Machine/Ops.lean: the named operations every meaning is written with: lists keyed by numbers,
the register file and its fields, saturating counters and event bits, byte strings and CRCs, and the free values.
-/

namespace Sys2Proof.Machine

/-! ### Lists keyed by numbers, keys rising -/

/-- The value under a key. -/
def kget {α : Type} (k : Nat) : List (Nat × α) → Option α
  | [] => none
  | (j, v) :: rest => if j = k then some v else kget k rest

/-- The list with a key's value set, keys kept rising. -/
def kput {α : Type} (k : Nat) (v : α) : List (Nat × α) → List (Nat × α)
  | [] => [(k, v)]
  | (j, w) :: rest =>
    if k < j then (k, v) :: (j, w) :: rest
    else if k = j then (k, v) :: rest
    else (j, w) :: kput k v rest

/-- The list without a key. -/
def kdel {α : Type} (k : Nat) (l : List (Nat × α)) : List (Nat × α) := l.filter fun e => e.1 != k

/-- The value under a key, or a default. -/
def kgetD {α : Type} (k : Nat) (l : List (Nat × α)) (d : α) : α := (kget k l).getD d

/-- Replace the elements that satisfy a test. -/
def replaceIf {α : Type} (p : α → Bool) (f : α → α) (l : List α) : List α := l.map fun x => if p x then f x else x

/-- A list with the element at a position changed; unchanged where it has none. -/
def updAt {α : Type} (i : Nat) (f : α → α) : List α → List α
  | [] => []
  | x :: rest => if i = 0 then f x :: rest else x :: updAt (i - 1) f rest

/-- A list with the element at a position replaced. -/
def putAt {α : Type} (i : Nat) (v : α) (l : List α) : List α := updAt i (fun _ => v) l


/-! ### Bit fields of words -/

/-- The field of `width` bits from bit `lo` up, as a number. -/
def getBits (w : Word) (lo width : Nat) : Nat := (w >>> lo).toNat % 2 ^ width

/-- The word with a field replaced by a number, truncated to the field. -/
def setBits (w : Word) (lo width v : Nat) : Word :=
  (w &&& ~~~((BitVec.ofNat 32 (2 ^ width - 1)) <<< lo)) ||| ((BitVec.ofNat 32 (v % 2 ^ width)) <<< lo)

/-- A number read as two's complement of a width. -/
def toSigned (width v : Nat) : Int := if v % 2 ^ width < 2 ^ (width - 1) then (v % 2 ^ width : Nat) else ((v % 2 ^ width : Nat) : Int) - 2 ^ width

/-- An integer as two's complement of a width. -/
def ofSigned (width : Nat) (v : Int) : Nat := (v % (2 ^ width : Int)).toNat

/-- An integer clamped to an interval. -/
def clampInt (lo hi v : Int) : Int := max lo (min hi v)

/-! ### The register file -/

/-- What a register of the list holds; an address the list does not name holds its reset value. -/
def regLookup (addr : Nat) (l : List (Nat × Word)) : Word := (kget addr l).getD (BitVec.ofNat 32 (resetValue addr))

/-- The register list with one register written, in canonical form: an entry equal to the reset value is dropped. -/
def regStore (addr : Nat) (w : Word) (l : List (Nat × Word)) : List (Nat × Word) :=
  if w = BitVec.ofNat 32 (resetValue addr) then kdel addr l else kput addr w l

/-- The canonical form of a register list: addresses strictly rising, no entry equal to its reset value. -/
def regsWf : List (Nat × Word) → Bool
  | [] => true
  | [e] => decide (e.2 ≠ BitVec.ofNat 32 (resetValue e.1))
  | e :: f :: rest => decide (e.2 ≠ BitVec.ofNat 32 (resetValue e.1)) && decide (e.1 < f.1) && regsWf (f :: rest)

/-- A register's word. -/
def State.reg (s : State) (addr : Nat) : Word := regLookup addr s.regs

/-- The state with a register's word replaced. -/
def State.setReg (s : State) (addr : Nat) (w : Word) : State := { s with regs := regStore addr w s.regs }

/-- A field's value. -/
def State.fld (s : State) (f : Fld) : Nat := getBits (s.reg f.addr) f.lo f.width

/-- The state with a field's value replaced. -/
def State.setFld (s : State) (f : Fld) (v : Nat) : State := s.setReg f.addr (setBits (s.reg f.addr) f.lo f.width v)

/-- A field reads nonzero. -/
def State.on (s : State) (f : Fld) : Bool := s.fld f != 0

/-- A field's value in two's complement. -/
def State.sfld (s : State) (f : Fld) : Int := toSigned f.width (s.fld f)

/-- The state with a signed field replaced. -/
def State.setSfld (s : State) (f : Fld) (v : Int) : State := s.setFld f (ofSigned f.width v)

/-- Set an event or status bit. -/
def State.flag (s : State) (f : Fld) : State := s.setFld f 1

/-- Clear a field. -/
def State.clr (s : State) (f : Fld) : State := s.setFld f 0

/-- Write a truth value into a bit. -/
def State.setBit (s : State) (f : Fld) (b : Bool) : State := s.setFld f (if b then 1 else 0)

/-- Add to a saturating counter. -/
def State.addSat (s : State) (f : Fld) (n : Nat) : State := s.setFld f (min (s.fld f + n) (2 ^ f.width - 1))

/-- Count one on a saturating counter. -/
def State.count (s : State) (f : Fld) : State := s.addSat f 1

/-- One bit of a field that holds one bit per instance. -/
def Fld.at (f : Fld) (i : Nat) : Fld := ⟨f.addr, f.lo + i, 1⟩

/-- A 64-bit number held in a LO and a HI register. -/
def State.wide (s : State) (lo hi : Fld) : Nat := s.fld lo + 2 ^ 32 * s.fld hi

/-- The state with a 64-bit number of two registers replaced. -/
def State.setWide (s : State) (lo hi : Fld) (v : Nat) : State := (s.setFld lo (v % 2 ^ 32)).setFld hi (v / 2 ^ 32)

/-- The 64-bit Row count (R25). -/
def State.rowCount (s : State) : Nat := s.wide F.ROWT_COUNT_LO_COUNT_LO F.ROWT_COUNT_HI_COUNT_HI

/-- Operating time in ms (R110). -/
def State.optime (s : State) : Nat := s.wide F.KEEP_OPTIME_LO_MS_LO F.KEEP_OPTIME_HI_MS_HI

/-! ### The units of the state -/

/-- The state with its row part changed. -/
def State.modRow (s : State) (f : RowMachine → RowMachine) : State := { s with row := f s.row }

/-- The state with its pairs part changed. -/
def State.modPairs (s : State) (f : List CorePair → List CorePair) : State := { s with pairs := f s.pairs }

/-- The state with its cable part changed. -/
def State.modCable (s : State) (f : CableNet → CableNet) : State := { s with cable := f s.cable }

/-- The state with the answer on a processor's bus changed. -/
def State.modBus (s : State) (f : BusReply → BusReply) : State := { s with bus := f s.bus }

/-- The state with its pins part changed. -/
def State.modPins (s : State) (f : Pins → Pins) : State := { s with pins := f s.pins }

/-- The state with its keeper part changed. -/
def State.modKeeper (s : State) (f : Keeper → Keeper) : State := { s with keeper := f s.keeper }

/-- The state with its cast part changed. -/
def State.modCast (s : State) (f : CastOn → CastOn) : State := { s with cast := f s.cast }

/-- The state with its pattern part changed. -/
def State.modPattern (s : State) (f : PatternUnit → PatternUnit) : State := { s with pattern := f s.pattern }

/-- The state with its spn part changed. -/
def State.modSpn (s : State) (f : Spindle → Spindle) : State := { s with spn := f s.spn }

/-- The state with its needles part changed. -/
def State.modNeedles (s : State) (f : List Needle → List Needle) : State := { s with needles := f s.needles }

/-- The state with its acts part changed. -/
def State.modActs (s : State) (f : List Actuator → List Actuator) : State := { s with acts := f s.acts }

/-- The state with its slices part changed. -/
def State.modSlices (s : State) (f : List Slice → List Slice) : State := { s with slices := f s.slices }

/-- The state with its stitch part changed. -/
def State.modStitch (s : State) (f : Stitch → Stitch) : State := { s with stitch := f s.stitch }

/-- The state with its host part changed. -/
def State.modHost (s : State) (f : HostUnit → HostUnit) : State := { s with host := f s.host }

/-- The state with its flow part changed. -/
def State.modFlow (s : State) (f : Flow → Flow) : State := { s with flow := f s.flow }

/-- The state with its darn part changed. -/
def State.modDarn (s : State) (f : Darning → Darning) : State := { s with darn := f s.darn }

/-- The state with its prot part changed. -/
def State.modProt (s : State) (f : Protection → Protection) : State := { s with prot := f s.prot }

/-- The state with its tir part changed. -/
def State.modTir (s : State) (f : Tirium → Tirium) : State := { s with tir := f s.tir }

/-- The state with its cip part changed. -/
def State.modCip (s : State) (f : Cipher → Cipher) : State := { s with cip := f s.cip }

/-- The state with its gauge part changed. -/
def State.modGauge (s : State) (f : Gauge → Gauge) : State := { s with gauge := f s.gauge }

/-- The state with its upd part changed. -/
def State.modUpd (s : State) (f : Update → Update) : State := { s with upd := f s.upd }

/-- The state with its recorder part changed. -/
def State.modRec (s : State) (f : Recorder → Recorder) : State := { s with recorder := f s.recorder }

/-- The state with its snag part changed. -/
def State.modSnag (s : State) (f : Snag → Snag) : State := { s with snag := f s.snag }

/-- The state with its dbg part changed. -/
def State.modDbg (s : State) (f : Debug → Debug) : State := { s with dbg := f s.dbg }

/-- Needle n. -/
def State.needle (s : State) (n : Nat) : Needle := s.needles.getD n Needle.reset

/-- The state with Needle n changed. -/
def State.modNeedle (s : State) (n : Nat) (f : Needle → Needle) : State := s.modNeedles (updAt n f)

/-- What is kept for actuator a. -/
def State.act (s : State) (a : Nat) : Actuator := s.acts.getD a Actuator.reset

/-- The state with actuator a changed. -/
def State.modAct (s : State) (a : Nat) (f : Actuator → Actuator) : State := s.modActs (updAt a f)

/-- Slice i. -/
def State.slice (s : State) (i : Nat) : Slice := s.slices.getD i Slice.reset

/-- The state with slice i changed. -/
def State.modSlice (s : State) (i : Nat) (f : Slice → Slice) : State := s.modSlices (updAt i f)

/-- What is kept for core pair p. -/
def State.pair (s : State) (p : Nat) : CorePair := s.pairs.getD p CorePair.reset

/-- The state with core pair p changed. -/
def State.modPair (s : State) (p : Nat) (f : CorePair → CorePair) : State := s.modPairs (updAt p f)

/-! ### Fuses -/

/-- SYS_CAP_LO of a variant at stepping 0x00 (R2). -/
def Fuses.capLo (f : Fuses) : Nat :=
  (match f.variant with | .d2h => 0x0033F7FF | .d2m => 0x0033FBFF | .s1h => 0x0033F675) - (if f.nSuffix then 0x3000 else 0)

/-- SYS_CAP_HI (R1, R2). -/
def Fuses.capHi (f : Fuses) : Nat :=
  0x08 + (match f.variant with | .d2h => 0x100 | .d2m => 0x200 | .s1h => 0x300) + (if f.nSuffix then 0x1000 else 0) +
    f.stepping % 0x100 * 0x10000

/-- A presence bit of SYS_CAP_LO. -/
def State.cap (s : State) (bit : Nat) : Bool := s.fuse.capLo.testBit bit

/-- Actuator a is present. -/
def State.hasAct (s : State) (a : Nat) : Bool := a < 2 && s.cap a

/-- Needle n is present. -/
def State.hasNeedle (s : State) (n : Nat) : Bool := n < 3 && s.cap (2 + n)

/-- Slice i is present. -/
def State.hasSlice (s : State) (i : Nat) : Bool := i < 5 && s.cap (5 + i)

/-- The laser assist is bonded out. -/
def State.hasLaser (s : State) : Bool := s.cap 10

/-- The cipher engine is present. -/
def State.hasCipher (s : State) : Bool := s.cap 12

/-- A BZ8-S1H. -/
def State.isS1H (s : State) : Bool := s.fuse.variant == .s1h

/-! ### Free values -/

/-- Draw a number that the spec does not state: a free value of its own for each draw. -/
def State.draw (s : State) : Nat × State := (Config.freeValue s.draws, { s with draws := s.draws + 1 })

/-- Draw bytes from the TRNG. -/
def State.drawBytes (s : State) (n : Nat) : List Byte × State :=
  ((List.range n).map fun i => Config.trng (s.tir.trngUsed + i),
   { s with tir := { s.tir with trngUsed := s.tir.trngUsed + n } })

/-! ### Byte strings -/

/-- A number as n bytes, least significant first. -/
def leBytes (n v : Nat) : List Byte := (List.range n).map fun i => BitVec.ofNat 8 (v / 256 ^ i)

/-- The number that bytes spell, least significant first. -/
def ofLe : List Byte → Nat
  | [] => 0
  | b :: rest => b.toNat + 256 * ofLe rest

/-- The number that bytes spell, most significant first. -/
def ofBe (l : List Byte) : Nat := l.foldl (fun a b => a * 256 + b.toNat) 0

/-- A number as n bytes, most significant first. -/
def beBytes (n v : Nat) : List Byte := (leBytes n v).reverse

/-- Bytes `off` to `off + n - 1`, short where the string ends. -/
def cutBytes (l : List Byte) (off n : Nat) : List Byte := (l.drop off).take n

/-- A little-endian field of a byte string. -/
def leField (l : List Byte) (off n : Nat) : Nat := ofLe (cutBytes l off n)

/-- A string padded with zeros, or cut, to a length. -/
def padTo (n : Nat) (l : List Byte) : List Byte := (l ++ List.replicate (n - l.length) 0).take n

/-- Every byte is 0. -/
def allZero (l : List Byte) : Bool := l.all (· == 0)

/-- A 256-bit digest as bytes, most significant first, as SM3 writes it. -/
def digestBytes (d : Digest) : List Byte := beBytes 32 d.toNat

/-- A digest from 32 bytes. -/
def ofDigestBytes (l : List Byte) : Digest := BitVec.ofNat 256 (ofBe l)

/-- One bit of a reflected CRC-32C. -/
def crcBit (c : BitVec 32) : BitVec 32 := if c.getLsbD 0 then (c >>> 1) ^^^ 0x82F63B78#32 else c >>> 1

/-- One byte of a reflected CRC-32C. -/
def crcByte (c : BitVec 32) (b : Byte) : BitVec 32 :=
  crcBit (crcBit (crcBit (crcBit (crcBit (crcBit (crcBit (crcBit (c ^^^ b.zeroExtend 32))))))))

/-- One bit of the CRC-8 of the preamplifier link, x⁸ + x² + x + 1, the most significant bit first (R185). -/
def crc8Bit (c : Nat) (b : Bool) : Nat :=
  let x := c * 2 % 256
  if c.testBit 7 != b then x ^^^ 0x07 else x

/-- CRC-8 over the low bits of a number, the highest first, from 0x00 (R185). -/
def crc8 (bits value : Nat) : Nat := ((List.range bits).reverse.map value.testBit).foldl crc8Bit 0

/-- CRC-32C. -/
def crc32c (l : List Byte) : BitVec 32 := ~~~(l.foldl crcByte 0xFFFFFFFF#32)

/-! ### Memories -/

/-- A byte of a memory; an address it does not list reads 0. -/
def memByte (addr : Nat) (m : List Host.Cell) : Byte := (kget addr m).getD 0

/-- A memory with a byte written, in canonical form: addresses rising, no entry that reads as an unlisted address. -/
def memStore (addr : Nat) (b : Byte) (m : List Host.Cell) : List Host.Cell := if b = 0 then kdel addr m else kput addr b m

/-- The canonical form of a memory. -/
def memWf : List Host.Cell → Bool
  | [] => true
  | [e] => decide (e.2 ≠ 0)
  | e :: f :: rest => decide (e.2 ≠ 0) && decide (e.1 < f.1) && memWf (f :: rest)

/-- n bytes of a memory from an address on. -/
def memBytes (addr n : Nat) (m : List Host.Cell) : List Byte := (List.range n).map fun i => memByte (addr + i) m

/-- A memory with a string written from an address on. -/
def memStoreAll (addr : Nat) : List Byte → List Host.Cell → List Host.Cell
  | [], m => m
  | b :: rest, m => memStoreAll (addr + 1) rest (memStore addr b m)

/-- The memory of a space. -/
def State.mem (s : State) : Space → List Host.Cell
  | .sram => s.sram
  | .dram => s.dram

/-- The parity of the pages after one byte of the data space changes (R371): the old byte is read, and the parity changes by the
difference of its symbol. -/
def parityStore (m : List Host.Cell) (p : List (Nat × BitVec 256)) (e : Nat × Byte) : List (Nat × BitVec 256) :=
  let diff := (memByte e.1 m ^^^ e.2).zeroExtend 16 <<< (8 * (e.1 % 2))
  kput (e.1 / 4096) (kgetD (e.1 / 4096) p 0 ^^^ Config.parityChange (e.1 % 4096 / 2) diff) p

/-- The state with a string stored in a memory; a write to DRAM updates the parity of its pages with it (R371). -/
def State.store (s : State) (sp : Space) (addr : Nat) (bytes : List Byte) : State :=
  match sp with
  | .sram => { s with sram := memStoreAll addr bytes s.sram }
  | .dram =>
    let parity := (bytes.zipIdx.map fun b => (addr + b.2, b.1)).foldl (parityStore s.dram) s.prot.pageParity
    { s with dram := memStoreAll addr bytes s.dram, prot := { s.prot with pageParity := parity } }

end Sys2Proof.Machine
end

