-- ==== Sys2Proof/Machine/Operands.lean ====
section
/-!
DEFINITION. Sys2Proof/Machine/Operands.lean: the number formats of the operands: signed fixed point of the Needles (R156,
R157), gain tables (R162), angles and the sine table of the spindle engine (R128), integer square roots, and the fields of
register words that commands carry.
-/

namespace Sys2Proof.Machine

/-! ### Rounding and saturation (R157) -/

/-- A number divided by 2^k, rounded by adding half a unit and truncating toward minus infinity. -/
def roundShift (k : Nat) (x : Int) : Int := if k = 0 then x else (x + 2 ^ (k - 1)) / (2 ^ k : Int)

/-- A quotient rounded by adding one half and truncating toward minus infinity. -/
def roundDiv (x : Int) (d : Nat) : Int := (2 * x + d) / (2 * d : Int)

/-- The signed range of a width. -/
def satTo (width : Nat) (x : Int) : Int := clampInt (-(2 ^ (width - 1))) (2 ^ (width - 1) - 1) x

/-- A value does not lie in the signed range of a width. -/
def overflows (width : Nat) (x : Int) : Bool := satTo width x != x

/-- A Q4.28 coefficient times a Q16.16 signal, exact, in units of 2^-44. -/
def mulCoef (c x : Int) : Int := c * x

/-- A sum of coefficient products as a Q16.16 signal. -/
def toSignal (sum : Int) : Int := satTo 32 (roundShift 28 sum)

/-- A signal saturated to [-1, 1) and converted to s16 Q1.15 (R158, OUTPUT). -/
def toCommand (x : Int) : Int := satTo 16 (roundShift 1 x)

/-! ### Gain tables (R162) -/

/-- The gain of a table at a Q4.12 point, the points ascending. -/
def gainAt (x : Int) : List (Int × Nat) → Int
  | [] => 0
  | [(_, g)] => g
  | (e₀, g₀) :: (e₁, g₁) :: rest =>
    if x < e₀ then g₀
    else if x < e₁ then (g₀ : Int) + roundDiv (((g₁ : Int) - g₀) * (x - e₀)) (e₁ - e₀).toNat
    else gainAt x ((e₁, g₁) :: rest)

/-! ### Square roots -/

/-- Bits of an integer square root, from the highest down. -/
def isqrtFrom : Nat → Nat → Nat → Nat
  | 0, _, r => r
  | k + 1, n, r => if (r + 2 ^ k) * (r + 2 ^ k) ≤ n then isqrtFrom k n (r + 2 ^ k) else isqrtFrom k n r

/-- The integer square root of a number below 2^192. -/
def isqrt (n : Nat) : Nat := isqrtFrom 96 n 0

/-! ### Angles (R128) -/

/-- Entry k of the sine table as the registers hold it, Q1.15. -/
def State.sineEntry (s : State) (k : Nat) : Int :=
  let j := k % 1024
  s.sfld (if j % 2 = 0 then F.SPN_SINE_ENTRY_EVEN (j / 2) else F.SPN_SINE_ENTRY_ODD (j / 2))

/-- The sine of a 16-bit angle: bits 15:6 index, bits 5:0 interpolate. -/
def State.sine (s : State) (angle : Nat) : Int :=
  let k := angle % 65536 / 64
  let e := s.sineEntry k
  e + (s.sineEntry (k + 1) - e) * ((angle % 64 : Nat) : Int) / 64

/-- The cosine: the sine at the index plus 256. -/
def State.cosine (s : State) (angle : Nat) : Int := s.sine (angle + 16384)

/-- An integer angle taken modulo one turn. -/
def toAngle (x : Int) : Nat := (x % 65536).toNat

/-- The arctangents of 1, 1/2, 1/4 and so on, in 1/65,536 of a turn. -/
def arctangents : List Nat := [8192, 4836, 2555, 1297, 651, 326, 163, 81, 41, 20, 10, 5, 3, 1]

/-- Turns a vector onto the first axis by the arctangents in turn; the angle that it had. -/
def turnDown : List Nat → Nat → Int → Int → Int → Int
  | [], _, _, _, a => a
  | t :: rest, k, x, y, a =>
    if 0 ≤ y then turnDown rest (k + 1) (x + y / 2 ^ k) (y - x / 2 ^ k) (a + t)
    else turnDown rest (k + 1) (x - y / 2 ^ k) (y + x / 2 ^ k) (a - t)

/-- The angle of a vector, to about a unit (R132 gives no rounding). -/
def vectorAngle (x y : Int) : Nat :=
  let x := x * 2 ^ 16
  let y := y * 2 ^ 16
  if 0 ≤ x then toAngle (turnDown arctangents 0 x y 0) else toAngle (turnDown arctangents 0 (-x) (-y) 32768)

/-- The signed difference of two angles, from -32,768 to 32,767. -/
def angleDiff (a b : Nat) : Int := toSigned 16 (toAngle ((a : Int) - b))

/-! ### Physical sector addresses (R237) -/

/-- Pack a PSA. -/
def packPsa (act head track sector : Nat) : Nat :=
  act % 2 * 2 ^ 39 + head % 16 * 2 ^ 35 + track % 2 ^ 24 * 2 ^ 11 + sector % 2 ^ 11

def psaAct (p : Nat) : Nat := p / 2 ^ 39 % 2
def psaHead (p : Nat) : Nat := p / 2 ^ 35 % 16
def psaTrack (p : Nat) : Nat := p / 2 ^ 11 % 2 ^ 24
def psaSector (p : Nat) : Nat := p % 2 ^ 11

/-- Fields packed into a word: lowest bit, width, value. -/
def packWord (l : List (Nat × Nat × Nat)) : Nat := l.foldl (fun m f => m + f.2.2 % 2 ^ f.2.1 * 2 ^ f.1) 0

end Sys2Proof.Machine
end

