-- ==== Sys2Proof/Machine/Flags.lean ====
section
/-!
DEFINITION. Sys2Proof/Machine/Flags.lean: what the BZ8 signals: asynchronous events to the host (R281), SMART warning
bits, CSTS.CFS, the status balls (R79), interrupts of completion queues (R279), and the activation record that every fault
of R463 is written into.
-/

namespace Sys2Proof.Machine

/-! ### Messages to the host -/

/-- The port's link carries the message: none goes out on a link that is down (R262). -/
def State.reaches (s : State) (m : HostMsg) : Bool :=
  let up (c : Nat) : Bool := s.on (F.HIF_PORT_STATUS_LINK_UP (c / 16))
  match m with
  | .completion c _ _ _ _ _ => up c
  | .data c _ _ _ => up c
  | .page c _ _ => up c
  | .poison c _ _ _ => up c
  | .interrupt c _ => up c
  | .sideband _ => true

/-- Send a message: the newest stands first. -/
def State.send (s : State) (m : HostMsg) : State :=
  if s.reaches m then s.modHost fun h => { h with sent := m :: h.sent } else s

/-- The controller with a CNTLID. -/
def State.controller (s : State) (c : Nat) : Option Controller := s.host.controllers.find? fun x => x.cntlid == c

/-- The state with a controller changed. -/
def State.modController (s : State) (c : Nat) (f : Controller → Controller) : State :=
  s.modHost fun h => { h with controllers := replaceIf (fun x => x.cntlid == c) f h.controllers }

/-- CSTS.RDY of a controller. -/
def State.rdy (s : State) (c : Nat) : Bool := s.on (F.HIF_CTRL_RDY_RDY.at c)

/-- A PF controller: function 0 of its port (R266). -/
def isPf (c : Nat) : Bool := c % 16 == 0

/-- The NAMESPACE entry of an NSID. -/
def State.namespaceOf (s : State) (nsid : Nat) : Option NamespaceEntry :=
  s.pattern.active.host.namespaces.find? fun n => n.nsid == nsid

/-- The position of a controller's entry in the Host panel, as the rings count it (R277). -/
def State.entryIndex (s : State) (c : Nat) : Nat :=
  (s.pattern.active.host.controllers.findIdx? fun e => 16 * e.port + e.function == c).getD 32

/-! ### Rings (R277) -/

/-- First submission ring of the controller of entry k. -/
def State.sqBase (s : State) (k : Nat) : Nat :=
  (s.pattern.active.host.controllers.take k).foldl (fun m e => m + e.sqMax) 0

/-- First completion ring of the controller of entry k. -/
def State.cqBase (s : State) (k : Nat) : Nat :=
  4096 + (s.pattern.active.host.controllers.take k).foldl (fun m e => m + e.cqMax) 0

/-- The CONTROLLER entry of a CNTLID. -/
def State.entryOf (s : State) (c : Nat) : Option ControllerEntry :=
  s.pattern.active.host.controllers.find? fun e => 16 * e.port + e.function == c

/-- The controller's submission queue q as a ring number. -/
def State.sqRing (s : State) (c q : Nat) : Nat := s.sqBase (s.entryIndex c) + q

/-- The controller's completion queue q as a ring number. -/
def State.cqRing (s : State) (c q : Nat) : Nat := s.cqBase (s.entryIndex c) + q

/-- A created ring. -/
def State.ring (s : State) (r : Nat) : Option Ring := s.host.rings.find? fun x => x.num == r

/-- The state with a ring changed. -/
def State.modRing (s : State) (r : Nat) (f : Ring → Ring) : State :=
  s.modHost fun h => { h with rings := replaceIf (fun x => x.num == r) f h.rings }

/-! ### Asynchronous events (R281) -/

/-- The controllers attached to a namespace. -/
def State.attachedTo (s : State) (nsid c : Nat) : Bool :=
  match s.namespaceOf nsid with
  | some n => n.controllers.testBit c
  | none => false

/-- The log page an asynchronous event names (R281). -/
def asyncPage (type info : Nat) : Nat :=
  match type, info with
  | 1, _ => 0x02
  | 2, 0 => 0x04
  | 2, 1 => 0x03
  | 2, 0xEF => 0xBF
  | 7, i => 0xC0 + i
  | _, _ => 0

/-- The bits of the Asynchronous Event Configuration value that let an event out, as the NVMe specification places them
(PRESUMED, assumption log 12); vendor events cannot be masked (R281). -/
def asyncConfigMasks (config type info : Nat) : Bool :=
  match type, info with
  | 1, 0 => config % 256 == 0
  | 1, 1 => !config.testBit 1
  | 1, 2 => !config.testBit 0
  | 2, 0 => !config.testBit 8
  | 2, 1 => !config.testBit 9
  | 2, 0xEF => !config.testBit 27
  | _, _ => false

/-- Post one event to one controller: carried by an outstanding request, whose completion enters the admin queue, or kept for
the next request, which a controller that is not enabled yet makes once it is (R281). -/
def State.postTo (s : State) (type info c : Nat) : State :=
  match s.controller c with
  | none => s
  | some x =>
    if x.aerMasked.contains (type, info) || asyncConfigMasks x.aecMask type info then s
    else
      let s := s.modController c fun y => { y with aerMasked := (type, info) :: y.aerMasked }
      match x.aers with
      | [] => s.modController c fun y => { y with aerQueue := y.aerQueue ++ [(type, info)] }
      | cid :: rest =>
        let s := s.modController c fun y => { y with aers := rest }
        let s := s.modRing (s.cqRing c 0) fun r => { r with tail := if r.size = 0 then 0 else (r.tail + 1) % r.size }
        let s := s.send (.completion c 0 0 cid 0 (type + 0x100 * info + 0x10000 * asyncPage type info))
        s.send (.interrupt c (((s.ring (s.cqRing c 0)).map (·.link)).getD 0))

/-- Post an asynchronous event to the controllers a test picks. -/
def State.postAsync (s : State) (type info : Nat) (takes : Nat → Bool) : State :=
  (s.host.controllers.filter fun c => takes c.cntlid).foldl (fun s c => s.postTo type info c.cntlid) s

/-- A vendor event, to the PF controllers. -/
def State.postVendor (s : State) (info : Nat) : State := s.postAsync 7 info isPf

/-- Set a SMART critical warning bit and post the event of R281 when it was clear. -/
def State.smartSet (s : State) (bit : Nat) : State :=
  if s.host.smart.testBit bit then s
  else (s.modHost fun h => { h with smart := h.smart ||| 2 ^ bit }).postAsync 1 0 fun _ => true

/-- Clear a SMART critical warning bit. -/
def State.smartClear (s : State) (bit : Nat) : State :=
  s.modHost fun h => { h with smart := if h.smart.testBit bit then h.smart - 2 ^ bit else h.smart }

/-! ### Interrupts (R279) -/

/-- Threshold and time of Interrupt Coalescing: feature 0x08 of the controller. -/
def Controller.coalesceThreshold (c : Controller) : Nat := (kgetD 0x08 c.features 0) % 256

/-- Raise the interrupt of a completion queue: at once for an urgent completion, an exempt vector or no aggregation. -/
def State.raiseVector (s : State) (c vector : Nat) (urgent : Bool) : State :=
  match s.controller c with
  | none => s
  | some ctl =>
    let waiting := kgetD vector ctl.coalescing 0 + 1
    if urgent || ctl.noCoalesce.contains vector || ctl.coalesceThreshold == 0 || kgetD 0x08 ctl.features 0 / 256 == 0 ||
        ctl.coalesceThreshold < waiting then
      (s.modController c fun x => { x with coalescing := kdel vector x.coalescing }).send (.interrupt c vector)
    else s.modController c fun x => { x with coalescing := kput vector waiting x.coalescing }

/-! ### Status balls (R79) -/

/-- The status group carries its function 0 (R74). -/
def State.statusBalls (s : State) : Bool := s.fld F.SYS_BALL_FUNC_STATUS_FN == 0

/-- STAT_RDY and STAT_FAULT_N as R79 drives them; high-impedance in device reset or in GPIO function. -/
def State.driveStatus (s : State) : State :=
  s.modPins fun p =>
    if !s.keeper.released then { p with statRdy := .hiZ, statFaultN := .hiZ, statActN := .hiZ }
    else if !s.statusBalls then { p with statRdy := .hiZ, statFaultN := .hiZ, statActN := .hiZ }
    else
      let fault := !s.cast.firstReady || s.on F.HIF_CFS_CFS || s.fld F.PAT_STATUS_STATE == 3
      { p with statRdy := if s.on F.HIF_CTRL_RDY_RDY then .high else .low,
               statFaultN := if fault then .low else .high }

/-! ### The activation record (R450, R463) -/

/-- The later of two records. -/
def ActRecord.later (a b : ActRecord) : ActRecord := if a.seq ≤ b.seq then b else a

/-- The record in force: the valid copy with the higher SEQ. -/
def State.record (s : State) : ActRecord := s.upd.records.foldl ActRecord.later ActRecord.blank

/-- UPD_STATUS and UPD_SEQ follow the record in force (R468). -/
def State.loadRecordRegs (s : State) : State :=
  let r := s.record
  ((((s.setBit F.UPD_STATUS_TENTATIVE (r.state == .tentative)).setFld F.UPD_STATUS_UNCONF r.unconf).setBit
    F.UPD_STATUS_STAGED r.staged).setBit F.UPD_STATUS_AT_RESET r.atReset).setWide F.UPD_SEQ_LO_SEQ_LO F.UPD_SEQ_HI_SEQ_HI r.seq

/-- Write a record, with SEQ one higher, over the copy not in force (R450). -/
def State.putRecord (s : State) (f : ActRecord → ActRecord) : State :=
  let r := s.record
  (s.modUpd fun u => { u with records := [{ f r with seq := r.seq + 1 }, r] }).loadRecordRegs

/-- A fault of R463: FAULT_OPTIME is written. -/
def State.noteFault (s : State) : State := s.putRecord fun r => { r with faultOptime := s.optime }

/-- Set CSTS.CFS of the controllers of a mask; `sticky` when the cause persists until device reset (R295, R364). -/
def State.setCfs (s : State) (mask : Nat) (sticky : Bool) : State :=
  if mask % 2 ^ 32 = 0 then s
  else
    let s := s.setFld F.HIF_CFS_CFS (s.fld F.HIF_CFS_CFS ||| mask)
    let s := if sticky then s.modHost fun h =>
        { h with controllers := h.controllers.map fun c => if mask.testBit c.cntlid then { c with cfsSticky := true } else c }
      else s
    s.noteFault.driveStatus

/-- The mask of every controller that exists. -/
def State.allControllers (s : State) : Nat := s.fld F.HIF_CTRL_EXIST_EXIST

/-- The mask of the controllers a test picks. -/
def State.controllerMask (s : State) (p : Nat → Bool) : Nat :=
  (s.host.controllers.filter fun c => p c.cntlid).foldl (fun m c => m ||| 2 ^ c.cntlid) 0

end Sys2Proof.Machine
end

