-- ==== Sys2Proof/Machine/Injection.lean ====
section
/-!
DEFINITION. Sys2Proof/Machine/Injection.lean: the passage of an eligible event through the Snag unit's injectors (R491 to
R495), used by every unit at the points of R492.
-/

namespace Sys2Proof.Machine

/-- One step of the LFSR with polynomial x^32 + x^22 + x^2 + x + 1 (R491), the new bit entering at bit 0. -/
def lfsrStep (w : Word) : Word :=
  (w <<< 1) ||| (if (w.getLsbD 31 ^^ w.getLsbD 21 ^^ w.getLsbD 1 ^^ w.getLsbD 0) then 1 else 0)

/-- The injector has reached its LIMIT after this injection; timing 0 injects once (R491). -/
def State.limitReached (s : State) (n : Nat) : Bool :=
  s.fld (F.SNG_INJ_CFG_TIMING n) == 0 ||
    (s.fld (F.SNG_INJ_COUNT_LIMIT n) != 0 && s.fld (F.SNG_INJ_COUNT_LIMIT n) ≤ s.fld (F.SNG_INJ_COUNT_DONE n))

/-- SNG_STATUS follows the injectors. -/
def State.snagStatus (s : State) : State :=
  let bits (p : Injector → Bool) : Nat :=
    (s.snag.injectors.zipIdx.filter fun x => p x.1).foldl (fun m x => m + 2 ^ x.2) 0
  (s.setFld F.SNG_STATUS_ACTIVE (bits (·.running))).setFld F.SNG_STATUS_HELD (bits (·.held))

/-- Injector n watches this event. -/
def State.watches (s : State) (n point inst : Nat) (replay : Bool) : Bool :=
  let inj := s.snag.injectors.getD n { running := false, held := false, seen := 0, lfsr := 1 }
  inj.running && !inj.held &&
    s.fld (F.SNG_INJ_CFG_POINT n) == point &&
    (point == 9 || s.fld (F.SNG_INJ_TARGET_INSTANCE n) == inst) &&
    (!replay || s.on (F.SNG_INJ_CFG_REPLAY n))

/-- Hold the injectors whose injection would fault a unit that nothing can take over from (R494), unless FORCE is 1. -/
def State.holdInjectors (s : State) (point inst : Nat) (wouldFault : Bool) : State :=
  if !wouldFault then s
  else
    (s.modSnag fun u =>
      { u with injectors := u.injectors.zipIdx.map fun x =>
          if s.watches x.2 point inst false && !s.on (F.SNG_INJ_CFG_FORCE x.2) then { x.1 with held := true } else x.1 }).snagStatus

/-- The timing of injector n chooses this event: the state with its counters advanced, and whether it injects. -/
def State.timingHits (s : State) (n : Nat) : State × Bool :=
  let inj := s.snag.injectors.getD n { running := false, held := false, seen := 0, lfsr := 1 }
  let period := s.fld (F.SNG_INJ_TARGET_PERIOD n)
  let upd (f : Injector → Injector) := s.modSnag fun u => { u with injectors := updAt n f u.injectors }
  match s.fld (F.SNG_INJ_CFG_TIMING n) with
  | 0 => (s, true)
  | 1 =>
    if period ≤ inj.seen + 1 then (upd fun i => { i with seen := 0 }, true)
    else (upd fun i => { i with seen := i.seen + 1 }, false)
  | _ => (upd fun i => { i with lfsr := lfsrStep i.lfsr }, Config.snagDraw (lfsrStep inj.lfsr) period)

end Sys2Proof.Machine
end

