-- ==== Sys2Proof/Machine/Views.lean ====
section
/-!
DEFINITION. Sys2Proof/Machine/Views.lean: what a read of a register shows where that is not the word the register file
holds: fuse-loaded registers, identification registers, windows of absent units, ball levels, fused versions.
-/

namespace Sys2Proof.Machine

/-- The address lies in the window of an absent unit (R5, R202, R427). -/
def State.absent (s : State) (addr : Nat) : Bool :=
  let w := addr / 0x10000
  (w == 0x0121 && !s.hasNeedle 1) ||
  (0x0140 ≤ w && w ≤ 0x0144 && !s.hasSlice (w - 0x0140)) ||
  (0x01301000 ≤ addr && addr < 0x01302000 && !s.hasAct 1) ||
  (w == 0x0400 && !s.hasCipher)

/-- Heads of actuator a under the Geometry panel. -/
def State.headCount (s : State) (a : Nat) : Nat :=
  if a = 0 then s.pattern.active.geometry.headsA else s.pattern.active.geometry.headsB

/-- The register of an actuator's head at or above its head count: it reads 0 and ignores writes (R202). -/
def State.pastHeads (s : State) (addr : Nat) : Bool :=
  let w := foldWindow addr
  let a := if addr = w then 0 else 1
  let past (r : Nat) : Bool := decide (r + 4 * s.headCount a ≤ w ∧ w < r + 40)
  past (R.ACT_HEAD_HEAT 0 0) || past (R.ACT_HEAD_ASSIST 0 0) || past (R.ACT_HEAD_LLIM 0 0)

/-- The selected head's accumulator at an instant, in 0.1 pJ (R198): with the energy of an AEN that is high. -/
def State.accAt (s : State) (a t : Nat) : Nat :=
  let x := s.act a
  let h := s.fld (F.ACT_STATUS_HEAD a)
  x.acc.getD h 0 + (match x.aenSince with | some t₀ => x.aenMw * ((t - t₀) / 1000) | none => 0)

/-- ACT_LASER_ACC (R202): the accumulator of the selected head as it stands, in 0.1 µJ; 0 on BZ8-D2M (R200). -/
def State.laserView (s : State) (a : Nat) : Nat :=
  if s.hasLaser then packWord [(0, 16, min (s.accAt a s.row.now / 10 ^ 6) 65535), (16, 4, s.fld (F.ACT_STATUS_HEAD a))] else 0

/-- The fused version of a component: the value of its last programmed bank, 0 if none (R387). -/
def Fuses.svn (f : Fuses) (component : Nat) : Nat := ((f.svnBanks.getD component []).getLast?).getD 0

/-- The identification register of a window (R6). -/
def blkId (addr : Nat) : Nat := addr / 0x10000 + 0x010000 + 0xB8000000

/-- The BALL_GROUPs whose balls are in a GPIO function, as a mask over GPIO0 to GPIO22 (R71): none before the build from the
Pattern (R74), so none in a device reset either (R76). -/
def State.gpioMask (s : State) : Nat :=
  if !s.cast.built then 0
  else (if s.fld F.SYS_BALL_FUNC_GPIO_FN == 0 then 0xFF else 0xFC) +
  (if s.fld F.SYS_BALL_FUNC_TRACE_FN == 2 then 0x1FF00 else 0) +
  (if s.fld F.SYS_BALL_FUNC_STATUS_FN == 1 then 0xE0000 else 0) +
  (if s.fld F.SYS_BALL_FUNC_PORT1_SB_FN == 1 then 0x700000 else 0)

/-- The GPIO balls whose group is open-drain (R72). -/
def State.gpioOpenDrain (s : State) : Nat :=
  let od (g mask : Nat) : Nat :=
    match s.pattern.active.pins.find? fun e => e.1 == g with
    | some e => if e.2.2.testBit 3 then mask else 0
    | none => 0
  od 1 0xFF + od 2 0x1FF00 + od 3 0xE0000 + od 4 0x700000

/-- The bits of OE that drive a ball: none once every output is released (R81). -/
def State.gpioEnables (s : State) : Nat := if s.keeper.released then s.fld F.SYS_GPIO_OE_OE else 0

/-- The GPIO balls that the BZ8 does not drive: those with OE 0, and those an open-drain output of 1 releases (R72, R75). -/
def State.gpioUndriven (s : State) : Nat :=
  let oe := s.gpioEnables
  (s.gpioMask ^^^ (s.gpioMask &&& oe)) ||| (s.gpioMask &&& oe &&& s.fld F.SYS_GPIO_OUT_OUT &&& s.gpioOpenDrain)

/-- The word a processor read shows, without the views of the units' own select registers. -/
def State.peekBasic (s : State) (addr : Nat) : Nat :=
  if s.absent addr then 0
  else if addr % 0x10000 = 0xFFFC ∧ !(windowSpecs (foldWindow addr / 0x10000)).isEmpty then blkId addr
  else if addr = R.SYS_CAP_LO then s.fuse.capLo
  else if addr = R.SYS_CAP_HI then s.fuse.capHi
  else if addr = R.SYS_GPIO_OUT ∨ addr = R.SYS_GPIO_OE then (s.reg addr).toNat &&& s.gpioMask
  else if addr = R.SYS_GPIO_IN then
    -- the balls that the BZ8 drives; the level of any other is the board's
    s.fld F.SYS_GPIO_OUT_OUT &&& s.gpioEnables &&& s.gpioMask
  else if addr = R.CIP_HOOK_DATA then (s.cip.program.getD (s.fld F.CIP_HOOK_ADDR_ADDR) 0).toNat
  else if addr = R.TIR_SVN_LO then s.fuse.svn (s.fld F.TIR_SVN_SEL_COMPONENT) % 2 ^ 32
  else if addr = R.TIR_SVN_HI then s.fuse.svn (s.fld F.TIR_SVN_SEL_COMPONENT) / 2 ^ 32
  else if s.pastHeads addr then 0
  else if addr = R.ACT_LASER_ACC 0 ∨ addr = R.ACT_LASER_ACC 1 then
    s.laserView (if addr = R.ACT_LASER_ACC 0 then 0 else 1)
  else if !s.hasLaser && R.ACT_HEAD_ASSIST 0 0 ≤ foldWindow addr && foldWindow addr < R.ACT_HEAD_ASSIST 0 10 then
    -- MW is no field of a BZ8-D2M, whose assist is a spin-torque oscillator (R200)
    (s.reg addr).toNat % 65536
  else (s.reg addr).toNat

end Sys2Proof.Machine
end

