-- ==== Sys2Proof/Machine/Recorder.lean ====
section
/-!
DEFINITION. Sys2Proof/Machine/Recorder.lean: the event recorder of chapter 20 (R469 to R488) and, because it records, the
last step of a Snag injection (R495).
-/

namespace Sys2Proof.Machine

/-! ### Records -/

/-- Bytes 0 to 59 of a record, with a FLAGS byte (R469). -/
def Record.body (r : Record) (adj : Bool) : List Byte :=
  leBytes 2 r.type ++ leBytes 1 r.source ++
  leBytes 1 (r.severity % 8 + (if r.coalesced then 8 else 0) + (if r.shadowed then 16 else 0) + (if adj then 32 else 0)) ++
  leBytes 4 r.pcc ++ leBytes 8 r.optime ++ leBytes 8 r.row ++
  padTo 32 (r.payload.flatMap fun w => leBytes 4 w.toNat) ++ leBytes 4 r.seq

/-- The 64 bytes of a record; CRC_ADJ keeps the CRC off the erased state (R472). -/
def Record.bytes (r : Record) : List Byte :=
  let c := crc32c (r.body false)
  if c = 0xFFFFFFFF#32 then r.body true ++ leBytes 4 (crc32c (r.body true)).toNat else r.body false ++ leBytes 4 c.toNat

/-- The base of the window that gives a source's payload (R471, R487). -/
def sourceWindow (src : Nat) : Option Nat :=
  match src with
  | 1 => some 0x01000000 | 2 => some 0x01010000 | 3 => some 0x01020000 | 4 => some 0x01040000 | 5 => some 0x01100000
  | 6 => some 0x01200000 | 7 => some 0x01210000 | 8 => some 0x01220000 | 9 => some 0x01300000 | 10 => some 0x01301000
  | 11 => some 0x01400000 | 12 => some 0x01410000 | 13 => some 0x01420000 | 14 => some 0x01430000 | 15 => some 0x01440000
  | 16 => some 0x01600000 | 17 => some 0x02000000 | 18 => some 0x02200000 | 19 => some 0x02300000 | 20 => some 0x02400000
  | 21 => some 0x03000000 | 22 => some 0x03100000 | 23 => some 0x04000000 | 24 => some 0x04100000 | 25 => some 0x05000000
  | 26 => some 0x05100000 | 27 => some 0x05300000 | 28 => some 0x05400000
  | _ => none

/-- The payload of a unit's event: instance, cause and the first six words of the source's window (R471). -/
def State.payload (s : State) (src inst cause : Nat) : List Word :=
  BitVec.ofNat 32 inst :: BitVec.ofNat 32 cause ::
    match sourceWindow src with
    | some b => (List.range 6).map fun k => BitVec.ofNat 32 (s.peekBasic (b + 4 * k))
    | none => List.replicate 6 0

/-- A record of an event that happens now (R470), its number still to be given. -/
def State.makeRecord (s : State) (src idx sev : Nat) (payload : List Word) : Record :=
  { type := src * 0x100 + idx, source := src, severity := sev, coalesced := false, shadowed := false,
    pcc := s.fld F.KEEP_PCC_COUNT, optime := s.optime, row := s.rowCount, payload := payload, seq := 0 }

/-- Take the next sequence number (R473). -/
def State.takeSeq (s : State) : Nat × State := (s.fld F.REC_SEQ_SEQ, s.setFld F.REC_SEQ_SEQ (s.fld F.REC_SEQ_SEQ + 1))

/-- The filters of R476; source 0 is never filtered. -/
def State.recPasses (s : State) (r : Record) : Bool :=
  r.source == 0 ||
    (s.fld F.REC_FILTER_MIN ≤ r.severity &&
      (if r.source < 32 then s.on (F.REC_SOURCES_LO_MASK_LO.at r.source)
       else s.on (F.REC_SOURCES_HI_MASK_HI.at (r.source - 32))))

/-- Put a record into the Keeper shadow; the newest replaces the oldest of 16 (R480). -/
def Recorder.addShadow (r : Record) (entered : Bool) (u : Recorder) : Recorder :=
  { u with shadow := (if u.shadow.length < 16 then u.shadow else u.shadow.drop 1) ++ [(r, entered)] }

/-- REC_STATUS.FIFO_LEVEL follows the FIFO. -/
def State.fifoLevel (s : State) : State := s.setFld F.REC_STATUS_FIFO_LEVEL s.recorder.fifo.length

/-- Split the coalescing counters into COALESCED payloads of up to 4 entries (R479). -/
def coalescedPayloads : Nat → List (Nat × Nat) → List (List Word)
  | 0, _ => []
  | _, [] => []
  | k + 1, l =>
    ((l.take 4).flatMap fun e => [BitVec.ofNat 32 e.1, BitVec.ofNat 32 (min e.2 (2 ^ 32 - 1))]) ::
      coalescedPayloads k (l.drop 4)

/-- One COALESCED record into the carry. -/
def State.carryCoalesced (s : State) (p : List Word) : State :=
  let (n, s) := s.takeSeq
  let r := { s.makeRecord 0 2 3 p with coalesced := true, seq := n }
  s.modRec fun u => { u with carry := u.carry ++ [r] }

/-- Generate the COALESCED records: each counter is captured and cleared in one step. -/
def State.coalesce (s : State) : State :=
  let l := s.recorder.coal
  (coalescedPayloads 64 l).foldl State.carryCoalesced (s.modRec fun u => { u with coal := [] })

/-- The last index of the store in use: LOG_FULL stands there (R481, R483). -/
def State.lastIndex (s : State) : Nat := if s.fld F.REC_STATUS_STORE == 0 then 262143 else 16383

/-- The index the next record would take is not under an unerased sector of a clear (R485). -/
def State.indexFree (s : State) : Bool :=
  match s.recorder.clearing with
  | some c => c.area != s.fld F.REC_STATUS_STORE || (c.headWritten && s.fld F.REC_NEXT_INDEX < 1024 * c.nextSector)
  | none => true

/-- The writer takes the oldest entry when it is free (R478); COALESCED records follow when the FIFO empties (R479). -/
def State.startWriter (s : State) : State :=
  if s.recorder.writing.isSome || !s.recorder.scanned || s.on F.REC_STATUS_FULL || s.fld F.REC_STATUS_STORE == 2 ||
      !s.indexFree || 8 ≤ s.recorder.unit.length then s
  else
    match s.recorder.carry with
    | r :: rest => s.modRec fun u => { u with writing := some r, carry := rest }
    | [] =>
      match s.recorder.fifo with
      | r :: rest =>
        let s := (s.modRec fun u => { u with writing := some r, fifo := rest }).fifoLevel
        if rest.isEmpty && !s.recorder.coal.isEmpty then s.coalesce else s
      | [] =>
        if s.recorder.coal.isEmpty then s
        else
          let s := s.coalesce
          match s.recorder.carry with
          | r :: rest => s.modRec fun u => { u with writing := some r, carry := rest }
          | [] => s

/-- An event of a severity reaches the shadow alone (R480). -/
def State.shadowAlone (s : State) (r : Record) : State :=
  let (n, s) := s.takeSeq
  s.modRec fun u => u.addShadow { r with seq := n } false

/-- An event enters the recorder (R473, R476 to R481). -/
def State.enterRecord (s : State) (r : Record) : State :=
  let high := 6 ≤ r.severity
  if s.keeper.inReset then s.shadowAlone r
  else if !s.recPasses r then (if high then s.shadowAlone r else s)
  else if s.fld F.REC_STATUS_STORE == 2 then (if high then s.shadowAlone r else s)
  else if s.on F.REC_STATUS_FULL then
    let s := s.count (F.REC_LOST_LOST r.severity)
    if high then s.shadowAlone r else s
  else if (if high then 256 else 240) ≤ s.recorder.fifo.length then
    let n := min (kgetD r.source s.recorder.coal 0 + 1) (2 ^ 32 - 1)
    let s := (s.modRec fun u => { u with coal := kput r.source n u.coal }).flag F.REC_EV_OVERFLOW
    if high then s.shadowAlone r else s
  else
    let (n, s) := s.takeSeq
    let r := { r with seq := n }
    let s := (s.modRec fun u => { u with fifo := u.fifo ++ [r] }).fifoLevel
    let s := if high then s.modRec fun u => u.addShadow r true else s
    s.startWriter

/-- A unit's event with its payload of R471. -/
def State.event (s : State) (src idx sev inst cause : Nat) : State :=
  s.enterRecord (s.makeRecord src idx sev (s.payload src inst cause))

/-- An event with a payload of its own. -/
def State.eventWith (s : State) (src idx sev : Nat) (payload : List Word) : State :=
  s.enterRecord (s.makeRecord src idx sev payload)

/-! ### Injections (R491 to R495) -/

/-- Injector n injects: it is counted, recorded, and stops at its limit. -/
def State.inject (s : State) (n : Nat) : State :=
  let s := (s.count F.SNG_COUNT_INJECTED).count (F.SNG_INJ_COUNT_DONE n)
  let s := if s.limitReached n then
      (s.modSnag fun u => { u with injectors := updAt n (fun i => { i with running := false, held := false }) u.injectors }).flag
        F.SNG_EV_INJ_DONE
    else s
  s.snagStatus.eventWith 27 3 3
    [BitVec.ofNat 32 n, BitVec.ofNat 32 (s.fld (F.SNG_INJ_CFG_POINT n) + 0x100 * s.fld (F.SNG_INJ_CFG_ACTION n))]

/-- One injector meets an eligible event: a hit replaces the earlier answer. -/
def State.injectorMeets (point inst : Nat) (replay : Bool) (acc : Option (Nat × Nat) × State) (n : Nat) :
    Option (Nat × Nat) × State :=
  let s := acc.2
  if s.watches n point inst replay then
    match s.timingHits n with
    | (s, true) =>
      (acc.1.or (some (s.fld (F.SNG_INJ_CFG_ACTION n), s.fld (F.SNG_INJ_TARGET_PARAM n))), s.inject n)
    | (s, false) => (acc.1, s)
  else acc

/-- An eligible event passes the injectors: the ACTION and PARAM injected, if any. -/
def State.snagPass (s : State) (point inst : Nat) (replay : Bool) : Option (Nat × Nat) × State :=
  (List.range 8).foldl (State.injectorMeets point inst replay) (none, s)

/-! ### Programming (R478, R481 to R483) -/

/-- The area in use is full: what waits is lost, but COALESCED records, which are held for the next clear (R481, R485). -/
def State.becomeFull (s : State) : State :=
  let waiting := s.recorder.carry.filter (fun r => !r.coalesced) ++ s.recorder.fifo
  let s := ((s.flag F.REC_STATUS_FULL).flag F.REC_EV_FULL).postVendor 2
  let s := if s.fld F.REC_STATUS_STORE == 1 then s.flag F.REC_EV_FALLBACK_FULL else s
  let s := waiting.foldl (fun s r => s.count (F.REC_LOST_LOST r.severity)) s
  (s.modRec fun u => { u with fifo := [], carry := u.carry.filter (·.coalesced) }).fifoLevel

/-- A LOG_FULL record goes out next, ahead of everything (R481). -/
def State.carryLogFull (s : State) : State :=
  let (n, s) := s.takeSeq
  let r := { s.makeRecord 0 4 5 (leWords s.rowCount) with seq := n }
  s.modRec fun u => { u with carry := r :: u.carry }
where
  leWords (v : Nat) : List Word := [BitVec.ofNat 32 v, BitVec.ofNat 32 (v / 2 ^ 32)]

/-- The record that was being written stands at an index; the writer goes on. -/
def State.afterRecord (s : State) (i : Nat) : State :=
  let s := (s.modRec fun u => { u with writing := none }).setFld F.REC_NEXT_INDEX (i + 1)
  if i = s.lastIndex then s.becomeFull
  else if i + 1 = s.lastIndex then s.carryLogFull.startWriter
  else s.startWriter

/-- The mirror of a REC_STORE_FAIL record can be written to place 7: its actuator is LOADED and the map is ready (R482). -/
def State.place7Ready (s : State) : Bool :=
  let a := if 7 < (((s.pattern.active.geometry.zones.find? fun z => z.act == 0).map (·.system)).getD 0) then 0 else 1
  s.fld (F.ACT_STATUS_LOAD_STATE a) == 2 && s.on F.STM_STATUS_READY

/-- Mirror a record to place 7 or to the recorder reserve (R482). -/
def State.mirrorRecord (s : State) (r : Record) : State :=
  if s.place7Ready then s.modRec fun u => { u with place7 := u.place7 ++ [r] }
  else if s.recorder.reserve.length < 1024 then
    (s.modRec fun u => { u with reserve := u.reserve ++ [r] }).flag F.REC_STATUS_MIRROR_PENDING
  else s.flag F.REC_EV_MIRROR_LOST

/-- The write position of an area: the first index whose 64 bytes are still erased (R482, R486). -/
def writePosition (l : List Stored) : Nat :=
  ((List.range (l.length + 1)).find? fun i => !l.any fun e => e.index == i).getD l.length

/-- The write position of the fallback area, behind the unit buffer (R482, R483). -/
def State.fallbackPosition (s : State) : Nat := writePosition s.recorder.fallback + s.recorder.unit.length

/-- The Recorder store has failed: recording goes on in the fallback area (R482). -/
def State.storeFailed (s : State) (kind : Nat) : State :=
  let index := s.fld F.REC_NEXT_INDEX
  let (n, s) := s.takeSeq
  let r := { s.makeRecord 0 3 6 [BitVec.ofNat 32 index, BitVec.ofNat 32 kind] with seq := n }
  let s := (s.modRec fun u => u.addShadow r true).mirrorRecord r
  let full := s.recorder.fallback.any fun e => e.index == 16383
  let late := s.recorder.writing.toList
  let s := s.modRec fun u =>
    { u with writing := none, storeFailed := true, carry := (if full then [] else [r]) ++ (late ++ u.carry),
             clearing := u.clearing.filter fun c => c.area != 0 }
  let s := (((s.setFld F.REC_STATUS_STORE 1).flag F.REC_EV_STORE_FAIL).setBit F.REC_STATUS_CLEAR_BUSY
    s.recorder.clearing.isSome).setFld F.REC_NEXT_INDEX s.fallbackPosition
  let s := s.postVendor 2
  if full then s.becomeFull else s.startWriter

/-- The Lifeline cannot take the records: only the shadow records (R483). -/
def State.shadowOnly (s : State) : State :=
  ((s.modRec fun u => { u with lifelineFailed := true, writing := none, carry := [], unit := [], fifo := [] }).setFld
    F.REC_STATUS_STORE 2).fifoLevel.postVendor 2

/-- RECORD_PROGRAMMED (R478): the record being written is programmed, unless the Snag unit fails the program. -/
def execRecordProgrammed (s : State) : Host.Outcome State Fault Refusal :=
  match s.recorder.writing with
  | none => .next s
  | some r =>
    if s.fld F.REC_STATUS_STORE == 0 then
      match s.snagPass 8 0 false with
      | (some _, s) => .next (s.storeFailed 1)
      | (none, s) =>
        let i := s.fld F.REC_NEXT_INDEX
        .next ((s.modRec fun u => { u with store := { index := i, record := r, torn := false } :: u.store }).afterRecord i)
    else
      .next ((s.modRec fun u => { u with unit := u.unit ++ [r] }).afterRecord (s.fld F.REC_NEXT_INDEX))

/-- Program the fallback unit in one piece of up to 8 records (R483). -/
def State.programUnit (s : State) : State :=
  let base := writePosition s.recorder.fallback
  s.modRec fun u =>
    { u with unit := [],
             fallback := ((u.unit.zipIdx.map fun x => { index := base + x.2, record := x.1, torn := false : Stored }).reverse) ++ u.fallback }

/-- FALLBACK_UNIT_PROGRAM (R483). -/
def execFallbackUnitProgram (s : State) : Host.Outcome State Fault Refusal :=
  if s.recorder.unit.isEmpty then .next s
  else
    match s.snagPass 8 1 false with
    | (some _, s) => .next s.shadowOnly
    | (none, s) => .next s.programUnit.startWriter

/-- REC_STORE_FAIL (R482); of the Lifeline, once recording is there (R483). -/
def execRecStoreFail (kind : Nat) (s : State) : Host.Outcome State Fault Refusal :=
  match s.fld F.REC_STATUS_STORE with
  | 0 => .next (s.storeFailed kind)
  | 1 => .next s.shadowOnly
  | _ => .next s

/-- The reserve is copied to place 7, oldest first (R482). -/
def State.copyMirror (s : State) : State :=
  (s.modRec fun u => { u with place7 := u.place7 ++ u.reserve, reserve := [] }).clr F.REC_STATUS_MIRROR_PENDING

/-- RECORD_MIRROR_COPY (R482): at a boundary at which place 7 can be written. -/
def execRecordMirrorCopy (s : State) : Host.Outcome State Fault Refusal :=
  if s.recorder.reserve.isEmpty || !s.place7Ready then .next s else .next s.copyMirror

/-! ### Firmware records and anchors -/

/-- REC_FW_POST (R477). -/
def execRecFwPost (source typeLo severity : Nat) (s : State) : Host.Outcome State Fault Refusal :=
  let s := ((s.setFld F.REC_FW_TYPE_TYPE_LO typeLo).setFld F.REC_FW_TYPE_SOURCE source).setFld F.REC_FW_TYPE_SEVERITY severity
  let src := s.fld F.REC_FW_TYPE_SOURCE
  let lo := s.fld F.REC_FW_TYPE_TYPE_LO
  if src < 48 ∨ lo = 0 then .next (s.flag F.REC_EV_FW_REFUSED)
  else .next (s.eventWith src lo (s.fld F.REC_FW_TYPE_SEVERITY)
    ((List.range 8).map fun k => s.reg (R.REC_FW_PAYLOAD k)))

/-- TIME_ANCHOR (R474). -/
def execTimeAnchor (hostHi attr : Nat) (s : State) : Host.Outcome State Fault Refusal :=
  let s := (s.setFld F.REC_ANCHOR_HI_HOST_HI hostHi).setFld F.REC_ANCHOR_HI_ATTR attr
  .next (s.eventWith 0 1 1
    [s.reg R.REC_ANCHOR_LO,
     BitVec.ofNat 32 (s.fld F.REC_ANCHOR_HI_HOST_HI + 0x10000 * s.fld F.REC_ANCHOR_HI_ATTR)])

/-! ### Clearing (R485) -/

/-- CORE_DEBUG or FA is granted (R400). -/
def State.clearGranted (s : State) : Bool := s.on (F.TIR_STATUS_GRANTS.at 2) || s.on (F.TIR_STATUS_GRANTS.at 3)

/-- REC_CLEAR (R485). -/
def execRecClear (select : Nat) (s : State) : Host.Outcome State Fault Refusal :=
  let s := s.setFld F.REC_CTRL_CLEAR_SEL select
  let sel := s.fld F.REC_CTRL_CLEAR_SEL
  if !s.clearGranted || sel == 3 || s.on F.REC_STATUS_CLEAR_BUSY then .next (s.flag F.REC_EV_CLEAR_REFUSED)
  else if sel == 2 then .next (s.modRec fun u => { u with shadow := [] })
  else
    let inUse := sel == s.fld F.REC_STATUS_STORE
    let area := if sel == 0 then s.recorder.store else s.recorder.fallback
    let reached := if inUse then s.fld F.REC_NEXT_INDEX else writePosition area
    let s := (s.modRec fun u =>
      { u with clearing := some { area := sel, nextSector := 0, reached := reached, headWritten := false },
               carry := if inUse then u.writing.toList ++ u.carry else u.carry,
               writing := if inUse then none else u.writing,
               unit := if inUse && sel == 1 then [] else u.unit }).flag F.REC_STATUS_CLEAR_BUSY
    .next (if inUse then s.setFld F.REC_NEXT_INDEX 0 else s)

/-- The sum of the lost counters. -/
def State.lostSum (s : State) : Nat := (List.range 8).foldl (fun m n => m + s.fld (F.REC_LOST_LOST n)) 0

/-- Sector 0 is erased: LOG_CLEARED stands at index 0, and recording resumes behind it in the area in use (R485). -/
def State.writeLogCleared (s : State) (c : Clearing) : State :=
  let inUse := c.area == s.fld F.REC_STATUS_STORE
  let (n, s) := s.takeSeq
  let r := { s.makeRecord 0 5 5 [BitVec.ofNat 32 c.reached, BitVec.ofNat 32 (if inUse then s.lostSum else 0)] with seq := n }
  let e : Stored := { index := 0, record := r, torn := false }
  let s := s.modRec fun u =>
    { u with clearing := some { c with headWritten := true },
             store := if c.area = 0 then e :: u.store else u.store,
             fallback := if c.area = 0 then u.fallback else e :: u.fallback }
  if inUse then
    let s := (List.range 8).foldl (fun s k => s.clr (F.REC_LOST_LOST k)) s
    let s := (s.clr F.REC_STATUS_FULL).setFld F.REC_NEXT_INDEX 1
    if s.recorder.coal.isEmpty then s else s.coalesce
  else s

/-- CLEAR_SECTOR_ERASED (R485): the next sector of 1,024 records is erased. -/
def execClearSectorErased (s : State) : Host.Outcome State Fault Refusal :=
  match s.recorder.clearing with
  | none => .next s
  | some c =>
    let keep (l : List Stored) := l.filter fun e => e.index / 1024 != c.nextSector || (c.headWritten && e.index == 0)
    let c' := { c with nextSector := c.nextSector + 1 }
    let s := s.modRec fun u =>
      { u with clearing := some c', store := if c.area = 0 then keep u.store else u.store,
               fallback := if c.area = 0 then u.fallback else keep u.fallback }
    let s := if c.headWritten then s else s.writeLogCleared c'
    let s := if (if c.area = 0 then 256 else 16) ≤ c.nextSector + 1 then
        ((s.modRec fun u => { u with clearing := none }).clr F.REC_STATUS_CLEAR_BUSY).flag F.REC_EV_CLEAR_DONE
      else s
    .next s.startWriter

/-! ### Cast-on (R486) -/

/-- b is later than a in serial-number order modulo 2^32. -/
def serialLater (a b : Nat) : Bool := let d := (b + 2 ^ 32 - a % 2 ^ 32) % 2 ^ 32; 0 < d && d < 2 ^ 31

/-- The highest valid SEQ of an area. -/
def highestSeq (l : List Stored) : Option Nat :=
  l.foldl (fun m e => if e.torn then m else match m with
    | none => some e.record.seq
    | some a => if serialLater a e.record.seq then some e.record.seq else m) none

/-- The store in use after a cast-on: the Recorder store, unless it failed and no cold cast-on has found it sound. -/
def State.chooseStore (s : State) (sound : Bool) : State :=
  let ok := if s.cast.cold then sound else !s.recorder.storeFailed
  let s := s.modRec fun u => { u with storeFailed := !ok, lifelineFailed := u.lifelineFailed && !ok }
  s.setFld F.REC_STATUS_STORE (if ok then 0 else if s.recorder.lifelineFailed then 2 else 1)

/-- A torn record below the write position is counted and recorded (R486). -/
def State.recordTorn (s : State) (e : Stored) : State :=
  if e.torn then (s.flag F.REC_EV_TORN).eventWith 0 6 3 [BitVec.ofNat 32 e.index] else s

/-- RECORDER_CASTON_SCAN (R486). -/
def execRecorderCastonScan (sound : Bool) (s : State) : Host.Outcome State Fault Refusal :=
  if s.recorder.scanned || s.keeper.inReset then .next s
  else
    let failedBefore := s.recorder.storeFailed
    let s := s.chooseStore sound
    let inStore := s.fld F.REC_STATUS_STORE == 0
    let area := if inStore then s.recorder.store else s.recorder.fallback
    let s := s.setFld F.REC_NEXT_INDEX (if inStore then writePosition area else s.fallbackPosition)
    let top := highestSeq area
    let s := match top with
      | some t => if serialLater (s.fld F.REC_SEQ_SEQ) (t + 1) then s.setFld F.REC_SEQ_SEQ (t + 1) else s
      | none => s
    let late := (s.recorder.shadow.filter fun x => x.2 && (match top with | some t => serialLater t x.1.seq | none => true)).map
      fun x => { x.1 with shadowed := true }
    let s := s.modRec fun u => { u with scanned := true, carry := late ++ u.carry }
    let s := s.setBit F.REC_STATUS_CLEAR_BUSY s.recorder.clearing.isSome
    let s := s.setBit F.REC_STATUS_MIRROR_PENDING (!s.recorder.reserve.isEmpty)
    let s := (area.reverse.filter fun e => e.index < writePosition area).foldl State.recordTorn s
    let s := if s.lastIndex < writePosition area then (s.flag F.REC_STATUS_FULL) else s
    .next (if !inStore && !failedBefore then s.storeFailed 4 else s.startWriter)

end Sys2Proof.Machine
end

