-- ==== Sys2Proof/Machine/Ledger.lean ====
section
/-!
DEFINITION. Sys2Proof/Machine/Ledger.lean: the Ledger of chapter 12: transfers (R310, R311), the balance check (R312,
R313), WRITE_HOLD (R314) and its recovery (R315). A class is coded as ORD_LEDGER_SEL codes it (R317).
-/

namespace Sys2Proof.Machine

/-! ### Classes -/

def Class.slotFree : Nat := 0
def Class.slotHeld : Nat := 1
def Class.free : Nat := 2
def Class.hostIn : Nat := 3
def Class.clean : Nat := 4
def Class.dirtyPrimary : Nat := 5
def Class.dirtyMirror : Nat := 6
def Class.mediaOut : Nat := 7
def Class.quarantined : Nat := 8
def Class.tokenFree (core : Nat) : Nat := 9 + 2 * core
def Class.tokenHeld (core : Nat) : Nat := 10 + 2 * core
def Class.creditFree (needle : Nat) : Nat := 17 + 2 * needle
def Class.creditHeld (needle : Nat) : Nat := 18 + 2 * needle

/-- The census of a class. -/
def State.census (s : State) (c : Nat) : Nat := s.flow.census.getD c 0

/-- What a class holds that no held transfer takes away (R29). -/
def State.avail (s : State) (c : Nat) : Nat :=
  s.census c - s.flow.held.foldl (fun m t => if t.1 = c then m + t.2.2 else m) 0

/-- The Ledger's count of a class. -/
def State.ledger (s : State) (c : Nat) : Int := s.flow.ledger.getD c 0

/-- Set the Ledger and the census of a class, as a role change or a cast-on loads them. -/
def State.loadClass (s : State) (c n : Nat) : State :=
  s.modFlow fun f => { f with ledger := putAt c (n : Int) f.ledger, census := putAt c n f.census }

/-- Pages in the dirty account with the incoming ones: KEEP_DIRTY (R110). -/
def State.dirtyPages (s : State) : Nat := s.census Class.dirtyPrimary + s.census Class.hostIn

/-- The same with the transfers that the guard holds (R29): what a write is admitted against (R99). -/
def State.dirtyAhead (s : State) : Nat :=
  let inAccount (c : Nat) : Bool := c == Class.dirtyPrimary || c == Class.hostIn
  (s.flow.held.foldl (fun (m : Int) t =>
    m + (if inAccount t.2.1 then (t.2.2 : Int) else 0) - (if inAccount t.1 then (t.2.2 : Int) else 0)) s.dirtyPages).toNat

/-- KEEP_DIRTY and QUE_SLOTS follow the census. -/
def State.accountRegs (s : State) : State :=
  (s.setFld F.KEEP_DIRTY_PAGES s.dirtyPages).setFld F.QUE_SLOTS_FREE (s.census Class.slotFree)

/-- Carry out one transfer: the census changes in the cycle of the change, the Ledger when the transfer reaches it. -/
def State.transferNow (s : State) (from_ dst n : Nat) : State :=
  let s := s.modFlow fun f =>
    { f with census := updAt dst (· + n) (updAt from_ (· - n) f.census) }
  let s := s.accountRegs
  let (a, s) := s.snagPass 10 from_ false
  let (b, s) := s.snagPass 10 dst false
  if a.isSome || b.isSome then s
  else s.modFlow fun f => { f with ledger := updAt dst (· + (n : Int)) (updAt from_ (· - (n : Int)) f.ledger) }

/-- Post a transfer; from guard start on it is held until the boundary (R29). A request whose from class does not hold the quantity
is refused and changes nothing (R310). -/
def State.transfer (s : State) (from_ dst n : Nat) : State :=
  if n = 0 || s.avail from_ < n then s
  else if s.on F.ROWT_STATUS_GUARD then s.modFlow fun f => { f with held := f.held ++ [(from_, dst, n)] }
  else s.transferNow from_ dst n

/-- A request that moves one quantity through several classes: all of its transfers, or none (R310). -/
def State.transferSet (s : State) (l : List (Nat × Nat × Nat)) : State :=
  if l.any fun t => s.avail t.1 < t.2.2 then s else l.foldl (fun s t => s.transfer t.1 t.2.1 t.2.2) s

/-- The transfers held since guard start go out at the boundary. -/
def State.releaseTransfers (s : State) : State :=
  s.flow.held.foldl (fun s t => s.transferNow t.1 t.2.1 t.2.2) (s.modFlow fun f => { f with held := [] })

/-! ### The check (R312, R285) -/

/-- The accounts: their first class, classes, total and first failure bit. -/
def State.accounts (s : State) : List (Nat × Nat × Nat × Nat) :=
  [(0, 2, 32768, 0), (2, 7, s.flow.pageTotal, 1)] ++
  ((List.range 4).map fun c => (9 + 2 * c, 2, if s.hasCipher then 64 else 0, 8 + c)) ++
  ((List.range 3).map fun n =>
    -- the credits of a faulted Needle move at the takeover (R176)
    let drives := s.fld (F.NDL_STATUS_ROLE n) == 1 || s.fld (F.NDL_STATUS_ROLE n) == 4
    (17 + 2 * n, 2, if drives || (s.needle n).takeover && (s.needle n).formerRole != 3 then 16 else 0, 12 + n))

/-- The failure bits of one account (R285): of slots and pages each class its own bit, of the others one bit. -/
def State.accountFails (s : State) (a : Nat × Nat × Nat × Nat) : Nat :=
  let classes := (List.range a.2.1).map (a.1 + ·)
  let bad := classes.filter fun c => s.ledger c != (s.census c : Int)
  let bitOf (c : Nat) : Nat := if a.1 = 2 then a.2.2.2 + (c - 2) else a.2.2.2
  let sum := classes.foldl (fun (m : Int) c => m + s.ledger c) 0
  let own := bad.foldl (fun m c => m ||| 2 ^ bitOf c) 0
  let all := if bad.isEmpty && sum != (a.2.2.1 : Int) then classes.foldl (fun m c => m ||| 2 ^ bitOf c) 0 else 0
  let mirror := if a.1 = 2 && s.ledger Class.dirtyPrimary != s.ledger Class.dirtyMirror then 2 ^ 4 ||| 2 ^ 5 else 0
  own ||| all ||| mirror

/-- The accounts that fail now, in the bit order of R285. -/
def State.failingAccounts (s : State) : Nat := s.accounts.foldl (fun m a => m ||| s.accountFails a) 0

/-- A failed check (R313, R314). -/
def State.ledgerFails (s : State) (accts : Nat) : State :=
  let rows := min (s.fld F.ORD_LEDGER_STATUS_FAULT_ROWS + 1) 255
  let s := ((s.flag F.ORD_LEDGER_STATUS_LEDGER_FAULT).setFld F.ORD_LEDGER_STATUS_FAULT_ROWS rows).setFld
    F.ORD_LEDGER_ACCTS_ACCOUNTS accts
  let s := (s.count F.ORD_LEDGER_FAULTS_COUNT).setWide F.ORD_LEDGER_ROW_LO_ROW_LO F.ORD_LEDGER_ROW_HI_ROW_HI s.rowCount
  let s := (s.event 18 1 5 0 accts).postVendor 1
  let s := s.noteFault
  s.modFlow fun f => { f with lastPassed := false, enterHold := f.enterHold || (rows == 2 && !s.on F.ORD_LEDGER_STATUS_WRITE_HOLD) }

/-- A passing check. -/
def State.ledgerPasses (s : State) : State :=
  let s := (s.clr F.ORD_LEDGER_STATUS_LEDGER_FAULT).clr F.ORD_LEDGER_STATUS_FAULT_ROWS
  let release := s.on F.ORD_LEDGER_STATUS_RELEASE_PEND
  s.modFlow fun f => { f with lastPassed := true, leaveHold := f.leaveHold || release }

/-- A recount waits: every Ledger count takes the census before the check (R315). -/
def State.recountNow (s : State) : State :=
  if s.on F.ORD_LEDGER_STATUS_RECOUNT_PEND then
    let s := (s.modFlow fun f => { f with ledger := f.census.map Int.ofNat }).clr F.ORD_LEDGER_STATUS_RECOUNT_PEND
    s.event 18 2 4 0 0
  else s

/-- The check of this Row (R312). -/
def State.runCheck (s : State) : State :=
  if s.flow.checked || s.flow.checksOff then s
  else
    let s := s.recountNow
    let accts := s.failingAccounts
    let s := if accts = 0 then s.ledgerPasses else s.ledgerFails accts
    s.modFlow fun f => { f with checked := true, ledgerSeen := f.ledger, censusSeen := f.census }

/-- GUARD_START (R28, R29): from now on actions are held until the boundary. -/
def execGuardStart (s : State) : Host.Outcome State Fault Refusal := .next (s.flag F.ROWT_STATUS_GUARD)

/-- LEDGER_RECOUNT (R315): a RECOUNT while WRITE_HOLD is not in force sets nothing. -/
def execLedgerRecount (s : State) : Host.Outcome State Fault Refusal :=
  if s.on F.ORD_LEDGER_STATUS_WRITE_HOLD then .next (s.flag F.ORD_LEDGER_STATUS_RECOUNT_PEND) else .next s

/-- LEDGER_RELEASE (R315). -/
def execLedgerRelease (s : State) : Host.Outcome State Fault Refusal :=
  if s.on F.ORD_LEDGER_STATUS_WRITE_HOLD then .next (s.flag F.ORD_LEDGER_STATUS_RELEASE_PEND) else .next s

/-- WRITE_HOLD begins (R314): writes that wait for admission carry FLAGS bit 5. -/
def State.enterWriteHold (s : State) : State :=
  let s := (s.flag F.ORD_LEDGER_STATUS_WRITE_HOLD).postVendor 1
  s.modFlow fun f =>
    { f with enterHold := false,
             slots := replaceIf (fun x => x.stage == .admitWait) (fun x => { x with writeHeld := true }) f.slots }

/-- WRITE_HOLD ends (R315). -/
def State.leaveWriteHold (s : State) : State :=
  let s := ((s.clr F.ORD_LEDGER_STATUS_WRITE_HOLD).clr F.ORD_LEDGER_STATUS_RELEASE_PEND).event 18 3 2 0 0
  s.modFlow fun f =>
    { f with leaveHold := false, slots := f.slots.map fun x => { x with writeHeld := false } }

/-- WRITE_HOLD_ENTER (R314): at the boundary after the second consecutive failed check. -/
def execWriteHoldEnter (s : State) : Host.Outcome State Fault Refusal :=
  if s.flow.enterHold && !s.flow.checked then .next s.enterWriteHold else .next s

end Sys2Proof.Machine
end

