-- ==== Sys2Proof/Machine/Drive.lean ====
section
/-!
DEFINITION. Sys2Proof/Machine/Drive.lean: what the spindle engine, the Needles, the actuators and the power sequences share:
which Needle drives an actuator, pending mode changes (R163), write gate and assist enable (R195 to R198), unload and
emergency retract (R191, R193, R194), and the abandoning of a calibration (R437).
-/

namespace Sys2Proof.Machine

/-! ### Who drives what -/

/-- The Needle drives an actuator: ACTIVE or STANDING_IN (R150). -/
def State.drives (s : State) (n : Nat) : Bool :=
  s.fld (F.NDL_STATUS_ROLE n) == 1 || s.fld (F.NDL_STATUS_ROLE n) == 4

/-- The Needle that drives actuator a. -/
def State.driver (s : State) (a : Nat) : Option Nat :=
  (List.range 3).find? fun n => s.drives n && s.fld (F.NDL_STATUS_ACT n) == a

/-- Heads are off the ramp, or on their way. -/
def State.headsLoaded (s : State) (a : Nat) : Bool := s.fld (F.ACT_STATUS_LOAD_STATE a) != 0

/-- The microactuator at its command, or at 0 V while the heads are not loaded or leave (R183, R184): in
0.1 V, clamped to LIM_DV, whose greatest value, 9.0 V about the common mode of 5.0 V, keeps each ball within the range of R84. -/
def State.maDrive (s : State) (a : Nat) : Int :=
  match s.driver a with
  | some n =>
    if s.fld (F.ACT_STATUS_LOAD_STATE a) = 2 then
      let lim : Int := s.fld (F.ACT_MA_LIM_DV a)
      clampInt (-lim) lim (roundDiv (s.sfld (F.NDL_OUT_MA n) * 90) 32768)
    else 0
  | none => 0

/-- The driver follows the latched command and its limit (R183). -/
def State.driveMa (s : State) (a : Nat) : State := s.modAct a fun x => { x with ma := s.maDrive a }

/-- Some actuator has heads loaded. -/
def State.anyLoaded (s : State) : Bool := s.headsLoaded 0 || s.headsLoaded 1

/-- The state with a mode change of a Needle pending for the next boundary, without a preset. -/
def State.pendMode (s : State) (n m : Nat) : State :=
  (s.modNeedle n fun x => { x with pendingMode := some m }).clr (F.NDL_STATUS_TRANSFER_PEND n)

/-! ### Calibrations abandoned (R437) -/

/-- The calibration in progress ends without a correction; its slice, actuator and picks return to service. -/
def State.abandonCalibration (s : State) : State :=
  match s.gauge.running with
  | none => s
  | some c =>
    let s := s.modGauge fun g => { g with running := none, holdPicks := [], returning := if c.kind ≤ 3 && c.spare then some c else none }
    ((((s.clr F.GAU_STATUS_BUSY).clr F.GAU_STATUS_WAIT).flag F.GAU_STATUS_DONE).setFld F.GAU_STATUS_RESULT 2).flag
      F.GAU_EV_ABANDONED

/-- Abandon the calibration if its target satisfies a test. -/
def State.abandonIf (s : State) (p : Calibration → Bool) : State :=
  match s.gauge.running with
  | some c => if p c then s.abandonCalibration else s
  | none => s

/-! ### Write gate and assist enable -/

/-- The laser limit of a head in 0.1 pJ (R198). -/
def State.laserLimit (s : State) (a h : Nat) : Nat := s.fld (F.ACT_HEAD_LLIM_LIMIT a h) * 10 ^ 6

/-- AEN falls at an instant: the energy of the lead and the write is counted. -/
def State.lowerAen (s : State) (a t : Nat) : State :=
  let e := s.accAt a t
  let h := s.fld (F.ACT_STATUS_HEAD a)
  let laser := s.hasLaser
  let s := s.modAct a fun x => { x with aenSince := none, lead := false, acc := if laser then putAt h e x.acc else x.acc }
  (s.clr (F.ACT_STATUS_AEN a)).modPins fun p => { p with aen := putAt a .low p.aen }

/-- WG falls. -/
def State.lowerWg (s : State) (a : Nat) : State :=
  (s.clr (F.ACT_STATUS_WG a)).modPins fun p => { p with wg := putAt a .low p.wg }

/-- The slice serves the actuator. -/
def State.serves (s : State) (i a : Nat) : Bool :=
  (s.fld (F.SLC_STATUS_ROLE i) == 1 || s.fld (F.SLC_STATUS_ROLE i) == 3) && s.fld (F.SLC_STATUS_ACT i) == a

/-- Slice P of the actuator is inside the frame of a sector (R197). -/
def State.sectorInFrame (s : State) (a : Nat) : Bool :=
  (List.range 5).any fun i => s.serves i a && s.fld (F.SLC_STATUS_POSITION i) == 0 && (s.slice i).inFrame

/-- WG falls while a sector is being written: the sector is treated as a failed verify (R197). At a sector boundary nothing is
lost. -/
def State.wgDropped (s : State) (a : Nat) : State :=
  if !s.sectorInFrame a then s
  else
    let s := s.flag (F.ACT_EV_WG_DROPPED a)
    s.modFlow fun f =>
      { f with ops := replaceIf (fun o => o.act == a && o.kind == .write && o.place == .issued && o.transferring)
                        (fun o => { o with wgDropped := o.next :: o.wgDropped }) f.ops }

/-- A head change is on its way to the preamplifier. -/
def Actuator.selects (x : Actuator) : Bool :=
  (x.inFlight.toList ++ x.queue).any fun f => match f.kind with | .headSelect _ => true | _ => false

/-- Head settle or preheat is running (R195, R196): the settle counts from the end of the head-select frame, the preheat from that
of the heater frame of a write. -/
def Actuator.settling (x : Actuator) : Bool :=
  x.settleUntil.isSome || x.selects || (x.writeHeat && x.preheat != some 0) ||
    (match x.preheat with | some n => n != 0 | none => false)

/-- The conditions that hold WG low now, in the bit order of ACT_WSTOP (R196). -/
def State.stops (s : State) (a : Nat) : List Bool :=
  let x := s.act a
  let pos := match s.driver a with | some n => s.on (F.NDL_STATUS_POS_OK n) | none => false
  [ !pos, s.spn.writeStop, s.row.flyStop.getD a false, s.fld (F.ACT_STATUS_LOAD_STATE a) != 2,
    x.settling,
    s.on (F.ACT_STATUS_LINK_FAULT a) || (x.linkOn && !x.pollOk && !x.pollOkPrev), x.preampFault,
    s.on (F.ACT_CTRL_WG_INHIBIT a) || s.on (F.ACT_CTRL_DISABLE a),
    s.hasLaser && x.cut.contains (s.fld (F.ACT_STATUS_HEAD a)), s.keeper.bindOff || !s.cable.failed.isEmpty, x.overrun ]

/-- Bits as a number, the first lowest. -/
def bitsToNat (l : List Bool) : Nat := l.foldr (fun b m => (if b then 1 else 0) + 2 * m) 0

/-- Every condition of R195 but the slice's request holds. -/
def State.mayWrite (s : State) (a : Nat) : Bool :=
  let x := s.act a
  (s.stops a).all (! ·) && (x.pollOk || x.pollOkPrev) && x.preheat == some 0 &&
    (!s.hasLaser || x.acc.getD (s.fld (F.ACT_STATUS_HEAD a)) 0 < s.laserLimit a (s.fld (F.ACT_STATUS_HEAD a)))

/-- ACT_WSTOP follows the conditions, and WG and AEN fall when one of them has ended (R195). -/
def State.gate (s : State) (a : Nat) : State :=
  if !s.hasAct a then s
  else
    let bits := bitsToNat (s.stops a)
    let s := s.setFld (F.ACT_WSTOP_STOP a) bits
    if s.mayWrite a then s
    else
      let wasWriting := s.on (F.ACT_STATUS_WG a)
      let s := if s.on (F.ACT_STATUS_AEN a) then s.lowerAen a s.row.now else s
      if wasWriting then
        let s := s.lowerWg a
        if (s.act a).wgRequest.isSome then s.wgDropped a else s
      else s

/-- Both actuators' gates. -/
def State.gates (s : State) : State := (s.gate 0).gate 1

/-- WG and AEN fall cleanly: at a servo field or a sector boundary nothing is lost (R195, R197). -/
def State.endGate (s : State) (a : Nat) : State :=
  let s := if s.on (F.ACT_STATUS_AEN a) then s.lowerAen a s.row.now else s
  if s.on (F.ACT_STATUS_WG a) then s.lowerWg a else s

/-! ### The preamplifier link -/

/-- The head-select frame (R189). -/
def State.selectFrame (s : State) (a h : Nat) : Frame :=
  { kind := .headSelect h, read := false, addr := s.fld (F.ACT_PAMAP_HEAD_ADDR a),
    data := s.fld (F.ACT_PAFAULT_HEAD_TPL a) / 16 * 16 + h % 16 }

/-- A heater frame with a level. -/
def State.heaterFrame (s : State) (a : Nat) (write : Bool) (level : Nat) : Frame :=
  { kind := .heater write, read := false, addr := s.fld (F.ACT_PAMAP_HEATER_ADDR a), data := level }

/-- The heater frame that brings a head to its write level (R190). -/
def State.writeFrame (s : State) (a h : Nat) : Frame := s.heaterFrame a true (s.fld (F.ACT_HEAD_HEAT_WR a h))

/-- Frames of the link engine for a selected head: heater at its read level and the assist code (R189, R190); a write that has
been issued brings the head to its write level behind them. -/
def State.headFrames (s : State) (a h : Nat) : List Frame :=
  [ s.selectFrame a h, s.heaterFrame a false (s.fld (F.ACT_HEAD_HEAT_RD a h)),
    { kind := .assist, read := false, addr := s.fld (F.ACT_PAMAP_ASSIST_ADDR a), data := s.fld (F.ACT_HEAD_ASSIST_CODE a h) } ] ++
    (if (s.act a).writeHeat then [s.writeFrame a h] else [])

/-- Queue frames of the link engine; nothing while the link does not run. -/
def State.queueFrames (s : State) (a : Nat) (l : List Frame) : State :=
  if (s.act a).linkOn then s.modAct a fun x => { x with queue := x.queue ++ l } else s

/-- Heater level 0 to every head when an unload or retract starts (R190): each head is selected for its frame, the head selected
until then last (DESIGN CHOICE, assumption log 108). -/
def State.heatersOff (s : State) (a : Nat) : State :=
  let h := s.fld (F.ACT_STATUS_HEAD a)
  let heads := (List.range (s.headCount a)).filter (· != h) ++ (if h < s.headCount a then [h] else [])
  (s.queueFrames a (heads.flatMap fun h => [s.selectFrame a h, s.heaterFrame a false 0])).modAct a fun x => { x with writeHeat := false }

/-- The operation that runs on an actuator: the oldest issued one with a sector to pass or to verify. -/
def State.runningOp (s : State) (a : Nat) : Option MediaOp :=
  s.flow.ops.find? fun o => o.act == a && o.place == .issued &&
    (o.framed.length < o.count || (o.kind == .write && o.settled.length < o.count))

/-- The head that the BZ8 selects (R189): of the operation that runs on the actuator, else the head of HEAD_REQ. -/
def State.wantedHead (s : State) (a : Nat) : Nat :=
  match s.runningOp a with
  | some o => psaHead ((o.places.head?).getD o.psa)
  | none => s.fld (F.ACT_CTRL_HEAD_REQ a)

/-- The head that the preamplifier has selected, or will have when the frames on their way have ended. -/
def State.aimedHead (s : State) (a : Nat) : Nat :=
  let x := s.act a
  (x.inFlight.toList ++ x.queue).foldl (fun h f => match f.kind with | .headSelect k => k | _ => h) (s.fld (F.ACT_STATUS_HEAD a))

/-- A head outside the actuator is ignored (R189); a change to any other waits for WG and the deadline. -/
def State.requestHead (s : State) (a h : Nat) : State :=
  if s.headCount a ≤ h then s.flag (F.ACT_EV_CMD_REFUSED a)
  else
    let change := h != s.aimedHead a
    s.modAct a fun x => { x with selecting := if change then some h else none }

/-- The head selection follows the operation that runs (R189). -/
def State.followHead (s : State) (a : Nat) : State := s.requestHead a (s.wantedHead a)

/-- The selected head is the one of an operation. -/
def State.onHead (s : State) (o : MediaOp) (k : Nat) : Bool :=
  s.fld (F.ACT_STATUS_HEAD o.act) == psaHead (o.places.getD k o.psa) && !(s.act o.act).selects

/-- The heater before a write (R190), when its operation is issued: a head change that the operation waits for brings the frame
with it, and a head that an earlier write has brought to its write level stays there (DEDUCED, assumption log 107). -/
def State.preheat (s : State) (a h : Nat) : State :=
  if (s.act a).writeHeat && h == s.aimedHead a then s
  else
  let s := s.modAct a fun x => { x with writeHeat := true, preheat := none }
  if h = s.aimedHead a then s.queueFrames a [s.writeFrame a h] else s

/-- The read level is restored when the operation of a write has ended (R190), unless another write that has been issued needs the
write level (DEDUCED, assumption log 107). -/
def State.readHeat (s : State) (a : Nat) : State :=
  let wanted := s.flow.ops.any fun o => o.act == a && o.kind == .write && o.place == .issued && o.settled.length < o.count
  if !(s.act a).writeHeat || wanted then s
  else
    let h := s.aimedHead a
    (s.queueFrames a [s.heaterFrame a false (s.fld (F.ACT_HEAD_HEAT_RD a h))]).modAct a fun x =>
      { x with writeHeat := false, preheat := none }

/-- An operation of the actuator has begun or ended: the heater and the head selection follow (R189, R190). -/
def State.followOps (s : State) (a : Nat) : State := if s.hasAct a then (s.readHeat a).followHead a else s

/-! ### Unload and retract -/

/-- The heads leave the media: LOAD_STATE and the coil; WG falls before the coil moves, and the driving Needle goes to
RETRACT at the boundary. -/
def State.leaveMedia (s : State) (a st : Nat) (coil : Coil) : State :=
  let s := (s.setFld (F.ACT_STATUS_LOAD_STATE a) st).modAct a fun x => { x with coil := coil, ma := 0, still := 0 }
  let s := match s.driver a with | some n => s.pendMode n 5 | none => s
  ((s.gate a).heatersOff a).abandonIf fun c => c.kind ≥ 4 && c.kind ≠ 7 && c.kind ≠ 9 && c.act == a

/-- Ordinary unload of LOADED heads (R191); also after a failed load. -/
def State.startUnload (s : State) (a : Nat) : State :=
  let st := s.fld (F.ACT_STATUS_LOAD_STATE a)
  if st = 1 ∨ st = 2 then s.leaveMedia a 3 .unloadEmf else s

/-- Emergency retract of heads in LOADING, LOADED or UNLOADING, the first cause recorded (R193, R194). -/
def State.eretract (s : State) (a cause : Nat) : State :=
  let st := s.fld (F.ACT_STATUS_LOAD_STATE a)
  if st = 1 ∨ st = 2 ∨ st = 3 then
    let coil := if s.fld (F.ACT_COIL_R_MOHM a) = 0 then Coil.retractConst else Coil.retractEmf
    (((s.setFld (F.ACT_STATUS_RETRACT_CAUSE a) cause).count (F.ACT_COUNTS_ERETRACTS a)).leaveMedia a 4 coil)
  else s

/-- Both actuators retract. -/
def State.eretractBoth (s : State) (cause : Nat) : State := (s.eretract 0 cause).eretract 1 cause

/-- The heads are on the ramp: the bridge is off, and the driving Needle leaves RETRACT with NDL_MANUAL cleared (R163). -/
def State.unloaded (s : State) (a : Nat) (event : Fld) : State :=
  let s := ((s.setFld (F.ACT_STATUS_LOAD_STATE a) 0).flag event).modAct a fun x => { x with coil := .off, coilCmd := 0, ma := 0 }
  let s := match s.driver a with
    | some n => (((s.pendMode n 0).setReg (R.NDL_MANUAL n) 0))
    | none => s
  s.gate a

/-- Emergency retracts run to their end within a sequence that outlasts them (R80, R122). -/
def State.finishRetracts (s : State) : State :=
  (List.range 2).foldl
    (fun s a => if s.fld (F.ACT_STATUS_LOAD_STATE a) = 4 then s.unloaded a (F.ACT_EV_RETRACT_DONE a) else s) s

end Sys2Proof.Machine
end

