-- ==== Sys2Proof/Machine/Actuator.lean ====
section
/-!
DEFINITION. Sys2Proof/Machine/Actuator.lean: the actuators of chapter 8: coil and microactuator drivers, the preamplifier
link, head selection, load, unload and retract, write gate and assist energy (R182 to R203).
-/

namespace Sys2Proof.Machine

/-! ### Coil drivers -/

/-- The limit of the coil current in mA: LIM_MA, and never more than the 1.8 A of R84 (R182). -/
def State.coilLimit (s : State) (a : Nat) : Int := min (s.fld (F.ACT_VCM_LIM_MA a)) 1800

/-- What the coil is driven to at a back-EMF, current outward positive (R191, R193): the latched VCM command while the heads
follow their Needle; LOAD_MV inward, UNLOAD_MV or RET_MV outward under back-EMF control, whose law is Config's (assumption log
106); a constant RET_MA outward at the ramp and at the end of a retract. -/
def State.coilDemand (s : State) (a : Nat) (bemf ma : Int) : Int :=
  let ret : Int := s.fld (F.ACT_VCM_RET_MA a)
  match (s.act a).coil with
  | .off => 0
  | .follow => roundDiv ((match s.driver a with | some n => s.sfld (F.NDL_OUT_VCM n) | none => 0) * 1800) 32768
  | .loadEmf => Config.emfControl (-(s.fld (F.ACT_LOAD_LOAD_MV a) : Int)) bemf ma
  | .unloadEmf => Config.emfControl (s.fld (F.ACT_LOAD_UNLOAD_MV a)) bemf ma
  | .retractEmf => clampInt (-ret) ret (Config.emfControl (s.fld (F.ACT_COIL_RET_MV a)) bemf ma)
  | .rampHold | .retractConst => ret

/-- VCM_CURRENT_LOOP (R182): one PWM period of the coil current loop; the back-EMF is V - I × R_MOHM - L di/dt, with the current
less the offset of its sense. -/
def execVcmCurrentLoop (a : Nat) (mv ma rate : Int) (s : State) : Host.Outcome State Fault Refusal :=
  if !s.hasAct a then .next s
  else
    let off := if a = 0 then s.sfld F.GAU_ISENSE_VCM_A else s.sfld F.GAU_ISENSE_VCM_B
    let ma := ma - roundDiv off 2
    let x := s.act a
    let bemf := mv - roundDiv (ma * s.fld (F.ACT_COIL_R_MOHM a)) 1000 - roundDiv (x.inductance * rate) 10
    let cmd := clampInt (-s.coilLimit a) (s.coilLimit a) (s.coilDemand a bemf ma)
    let slow := x.coil == .unloadEmf && bemf.natAbs * 10 < s.fld (F.ACT_LOAD_UNLOAD_MV a)
    .next (s.modAct a fun x => { x with bemf := bemf, coilCurrent := ma, coilCmd := cmd, still := if slow then x.still + 1 else 0 })

/-! ### Load and unload (R191, R192) -/

/-- The first refusal code of LOAD that applies, 0 for none. -/
def State.loadRefusal (s : State) (a : Nat) : Nat :=
  if s.fld F.SPN_STATUS_STATE ≠ 3 then 1
  else if s.fld (F.ACT_STATUS_LOAD_STATE a) ≠ 0 then 2
  else if (match s.driver a with | some n => s.fld (F.NDL_STATUS_MODE n) != 0 | none => true) then 3
  else if s.on (F.ACT_CTRL_DISABLE a) then 4
  else if s.fld (F.ACT_COIL_R_MOHM a) = 0 then 5
  else 0

/-- A refused actuator command. -/
def State.refuseAct (s : State) (a code : Nat) : State :=
  (s.setFld (F.ACT_STATUS_CMD_ERR a) code).flag (F.ACT_EV_CMD_REFUSED a)

/-- ACT_LOAD (R192). -/
def execActLoad (a : Nat) (s : State) : Host.Outcome State Fault Refusal :=
  if !s.hasAct a then .next s
  else
    let code := s.loadRefusal a
    if code ≠ 0 then .next (s.refuseAct a code)
    else .next (((s.setFld (F.ACT_STATUS_LOAD_STATE a) 1).modAct a fun x => { x with coil := .loadEmf }).gate a)

/-- ACT_UNLOAD (R191, R192): no effect but in LOADED. -/
def execActUnload (a : Nat) (s : State) : Host.Outcome State Fault Refusal :=
  if s.hasAct a && s.fld (F.ACT_STATUS_LOAD_STATE a) == 2 then .next (s.startUnload a) else .next s

/-- ACT_ERETRACT (R192, R194). -/
def execActEretract (a : Nat) (s : State) : Host.Outcome State Fault Refusal :=
  if s.hasAct a then .next (s.eretract a 1) else .next s

/-- RETRACT_CONSTANT_PHASE (R193): 10 ms into a retract. -/
def execRetractConstantPhase (a : Nat) (s : State) : Host.Outcome State Fault Refusal :=
  if s.fld (F.ACT_STATUS_LOAD_STATE a) = 4 then .next (s.modAct a fun x => { x with coil := .retractConst }) else .next s

/-- LOAD_COMPLETE (R191): the Needle locks during LOADING. -/
def execLoadComplete (a inductance : Nat) (s : State) : Host.Outcome State Fault Refusal :=
  match s.driver a with
  | some n =>
    if s.fld (F.ACT_STATUS_LOAD_STATE a) = 1 ∧ s.on (F.NDL_STATUS_LOCK n) then
      let cmd := satTo 16 (roundDiv ((s.act a).coilCmd * 32768) 1800)
      let s := ((s.setFld (F.ACT_STATUS_LOAD_STATE a) 2).setSfld (F.NDL_MANUAL_VCM n) cmd).clr (F.NDL_MANUAL_MA n)
      let s := (s.setSfld (F.NDL_OUT_VCM n) cmd).clr (F.NDL_OUT_MA n)
      let s := (s.flag (F.ACT_EV_LOAD_DONE a)).modAct a fun x => { x with coil := .follow, inductance := inductance }
      .next ((s.driveMa a).gate a)
    else .next s
  | none => .next s

/-- LOAD_TIMEOUT (R191). -/
def execLoadTimeout (a : Nat) (s : State) : Host.Outcome State Fault Refusal :=
  if s.fld (F.ACT_STATUS_LOAD_STATE a) = 1 then .next ((s.flag (F.ACT_EV_LOAD_FAIL a)).startUnload a) else .next s

/-- Runs of the coil's current loop in 2 ms at 288 kHz (R182, R191). -/
def rampStopRuns : Nat := 576

/-- UNLOAD_RAMP_STOP (R191): the back-EMF has stayed below 10 % of UNLOAD_MV for 2 ms, so the heads are at the ramp stop, and
RET_MA is held outward for 20 ms. -/
def execUnloadRampStop (a : Nat) (s : State) : Host.Outcome State Fault Refusal :=
  if s.fld (F.ACT_STATUS_LOAD_STATE a) = 3 ∧ (s.act a).coil = .unloadEmf ∧ rampStopRuns ≤ (s.act a).still then .next (s.modAct a fun x => { x with coil := .rampHold }) else .next s

/-- UNLOAD_TIMEOUT (R191, R194 cause 7). -/
def execUnloadTimeout (a : Nat) (s : State) : Host.Outcome State Fault Refusal :=
  if s.fld (F.ACT_STATUS_LOAD_STATE a) = 3 ∧ (s.act a).coil = .unloadEmf then .next (s.eretract a 7) else .next s

/-! ### The preamplifier link (R185 to R188) -/

/-- The link of an actuator starts with a status poll (R188, R201); one that has faulted sends nothing before LINK_CLEAR
(R186). -/
def State.startLink (s : State) (a : Nat) : State :=
  if !s.on (F.ACT_CTRL_LINK_EN a) || s.on (F.ACT_CTRL_DISABLE a) || s.on (F.ACT_STATUS_LINK_FAULT a) then s
  else s.modAct a fun x => { x with linkOn := true, pollDue := true }

/-- ACT_LINK_ENABLE (R188). -/
def State.enableLink (s : State) (a : Nat) : State :=
  if s.on (F.ACT_CTRL_LINK_EN a) then s else ((s.flag (F.ACT_CTRL_LINK_EN a)).startLink a).gate a

/-- ACT_LINK_ENABLE (R188): setting ACT_CTRL.LINK_EN. -/
def execActLinkEnable (a : Nat) (s : State) : Host.Outcome State Fault Refusal :=
  if s.hasAct a then .next (s.enableLink a) else .next s

/-- ACT_LINK_CLEAR (R186): a status poll goes out; LINK_FAULT clears when it succeeds. -/
def execActLinkClear (a : Nat) (s : State) : Host.Outcome State Fault Refusal :=
  if s.hasAct a && s.on (F.ACT_STATUS_LINK_FAULT a) && s.on (F.ACT_CTRL_LINK_EN a) && !s.on (F.ACT_CTRL_DISABLE a) then
    .next (s.modAct a fun x => { x with linkOn := true, pollDue := true, inFlight := none, attempts := 0 })
  else .next s

/-- A firmware frame (R187): one that writes a protected register is refused. -/
def State.linkGo (s : State) (a addr : Nat) (read : Bool) (data : Nat) : State :=
  let s := ((s.setFld (F.ACT_LINK_CMD_ADDR a) addr).setBit (F.ACT_LINK_CMD_RW a) read).setFld (F.ACT_LINK_CMD_DATA a) data
  let s := (s.clr (F.ACT_LINK_RESP_DONE a)).clr (F.ACT_LINK_RESP_ERR a)
  let addr := s.fld (F.ACT_LINK_CMD_ADDR a)
  let guarded := addr == s.fld (F.ACT_PAMAP_HEAD_ADDR a) || addr == s.fld (F.ACT_PAMAP_HEATER_ADDR a) ||
    addr == s.fld (F.ACT_PAMAP_ASSIST_ADDR a)
  if !read && guarded then s.flag (F.ACT_LINK_RESP_ERR a)
  else
    let f : Frame := { kind := .firmware, read := read, addr := addr, data := if read then 0 else s.fld (F.ACT_LINK_CMD_DATA a) }
    s.modAct a fun x => { x with fwFrame := some f }

/-- ACT_LINK_GO (R187). -/
def execActLinkGo (a addr : Nat) (read : Bool) (data : Nat) (s : State) : Host.Outcome State Fault Refusal :=
  if s.hasAct a then .next (s.linkGo a addr read data) else .next s

/-- The frame that a slot carries: the one in flight, else by the priority of R187; a faulted link polls only. -/
def State.nextFrame (s : State) (a : Nat) : Option Frame :=
  let x := s.act a
  let poll : Frame := { kind := .poll, read := true, addr := s.fld (F.ACT_PAMAP_STATUS_ADDR a), data := 0 }
  if !x.linkOn then none
  else match x.inFlight with
    | some f => some f
    | none =>
      if x.pollDue then some poll
      else if s.on (F.ACT_STATUS_LINK_FAULT a) then none
      else x.queue.head?.or x.fwFrame

/-- The 33 bits that the BZ8 drives: RW, ADDR, DATA and the CRC-8 over them, the most significant first (R185). -/
def Frame.request (f : Frame) : Nat :=
  let head := (if f.read then 2 ^ 24 else 0) + f.addr % 256 * 2 ^ 16 + (if f.read then 0 else f.data % 65536)
  head * 256 + crc8 25 head

/-- Take the frame off the list it came from: it is in flight. -/
def Actuator.take (f : Frame) (x : Actuator) : Actuator :=
  if x.inFlight.isSome then x
  else match f.kind with
    | .poll => { x with inFlight := some f, attempts := 0, pollDue := false }
    | .firmware => { x with inFlight := some f, attempts := 0, fwFrame := none }
    | _ => { x with inFlight := some f, attempts := 0, queue := x.queue.drop 1 }

/-- A frame has succeeded at an instant: what it was for takes effect; head settle runs from the end of the head-select frame
(R189). -/
def State.frameDone (s : State) (a : Nat) (f : Frame) (t status data : Nat) : State :=
  let off := s.on (F.ACT_CTRL_DISABLE a) || !s.on (F.ACT_CTRL_LINK_EN a)
  let s := s.modAct a fun x => { x with inFlight := none, linkOn := x.linkOn && !off }
  match f.kind with
  | .poll =>
    let fault := data &&& s.fld (F.ACT_PAFAULT_FAULT_MASK a) != 0
    let s := if fault && !(s.act a).preampFault then s.flag (F.ACT_EV_PREAMP_FAULT a) else s
    let s := (s.clr (F.ACT_STATUS_LINK_FAULT a)).modAct a fun x => { x with pollOk := true, preampFault := fault }
    s.gate a
  | .headSelect h =>
    let until_ := t + s.fld (F.ACT_TIMING_HEAD_SETTLE a) * 100000
    ((s.setFld (F.ACT_STATUS_HEAD a) h).modAct a fun x => { x with settleUntil := some until_ }).gate a
  | .heater true =>
    (s.modAct a fun x => { x with preheat := some (s.fld (F.ACT_TIMING_PREHEAT_ROWS a)) }).gate a
  | .heater false | .assist => s
  | .firmware =>
    ((s.setFld (F.ACT_LINK_RESP_DATA a) data).setFld (F.ACT_LINK_RESP_STATUS a) status).flag (F.ACT_LINK_RESP_DONE a)

/-- The fourth attempt has failed: the link stops (R186); the frames that wait are gone, and a head change waits again. -/
def State.linkFault (s : State) (a : Nat) (f : Frame) : State :=
  let s := s.modAct a fun x => { x with inFlight := none, attempts := 0, linkOn := false, pollOk := false, pollOkPrev := false, queue := [] }
  let s := ((s.flag (F.ACT_STATUS_LINK_FAULT a)).flag (F.ACT_EV_LINK_FAULT a)).event (9 + a) 1 5 a 0
  let s := match f.kind with
    | .firmware => (s.flag (F.ACT_LINK_RESP_ERR a)).flag (F.ACT_LINK_RESP_DONE a)
    | _ => s
  (s.followHead a).gate a

/-- A frame has failed: it is repeated in the next slot, up to 3 times (R186). -/
def State.frameFailed (s : State) (a : Nat) (f : Frame) : State :=
  if (s.act a).attempts < 3 then
    (s.count (F.ACT_COUNTS_LINK_RETRIES a)).modAct a fun x => { x with attempts := x.attempts + 1 }
  else s.linkFault a f

/-- PREAMP_FRAME (R185 to R187): a frame ends at an instant, after 67 clocks of 200 MHz with SEN high, with the response that the
preamplifier has driven: STATUS, DATA and the CRC-8 over them. -/
def execPreampFrame (a t crc : Nat) (x : PreampAnswer) (s : State) : Host.Outcome State Fault Refusal :=
  match s.nextFrame a with
  | none => .next s
  | some f =>
    let s := (s.modRow fun r => { r with now := max r.now t }).modAct a fun x => { Actuator.take f x with sent := f.request }
    match s.snagPass 2 a false with
    | (hit, s) =>
      let crcOk := crc == crc8 24 (x.status * 65536 + x.data) && (match hit with | some (0, _) => false | _ => true)
      let ack := x.status / 16 == 10 && (match hit with | some (1, _) => false | _ => true)
      if crcOk && ack && (f.read || x.data == f.data) then .next (s.frameDone a f t x.status x.data)
      else .next (s.frameFailed a f)

/-! ### Head selection (R189) -/

/-- HEAD_REQUEST (R189): a write of ACT_CTRL.HEAD_REQ; it acts once no media operation runs on the actuator. -/
def execHeadRequest (a head : Nat) (s : State) : Host.Outcome State Fault Refusal :=
  if !s.hasAct a then .next s
  else if s.headCount a ≤ head then .next (s.flag (F.ACT_EV_CMD_REFUSED a))
  else .next ((s.setFld (F.ACT_CTRL_HEAD_REQ a) head).followHead a)

/-- HEAD_SELECT (R189): with WG low and after the driving Needle's deadline, the frames of a head change go to the link. -/
def execHeadSelect (a t : Nat) (s : State) : Host.Outcome State Fault Refusal :=
  match (s.act a).selecting with
  | none => .next s
  | some h =>
    let closed := match s.driver a with | some n => (s.needle n).closed || s.fld (F.NDL_STATUS_MODE n) == 0 | none => true
    if s.on (F.ACT_STATUS_WG a) || !closed || !(s.act a).linkOn || s.on (F.ACT_STATUS_LINK_FAULT a) then .next s
    else
      let s := s.queueFrames a (s.headFrames a h)
      let s := (s.modRow fun r => { r with now := max r.now t }).modAct a fun x => { x with selecting := none }
      .next (s.gate a)

/-- The head settle has elapsed at an instant. -/
def State.settleElapsed (s : State) (a t : Nat) : State :=
  match (s.act a).settleUntil with
  | some u => if u ≤ t then s.modAct a fun x => { x with settleUntil := none } else s
  | none => s

/-! ### Write gate, assist enable and the energy limit (R195, R196, R198) -/

/-- The write that runs on an actuator and whose head is selected. -/
def State.writesHere (s : State) (a : Nat) : Bool :=
  match s.runningOp a with
  | some o => o.kind == .write && s.onHead o 0
  | none => false

/-- AEN_LEAD_START (R196): a slice requests a write, and AEN rises when every other condition holds. -/
def execAenLeadStart (a slice t : Nat) (s : State) : Host.Outcome State Fault Refusal :=
  if !s.hasAct a || !s.serves slice a || !s.writesHere a then .next s
  else
    let s := ((s.modRow fun r => { r with now := max r.now t }).settleElapsed a t).modAct a fun x => { x with wgRequest := some slice }
    let s := s.gate a
    if s.mayWrite a && !s.on (F.ACT_STATUS_AEN a) then
      let mw := s.fld (F.ACT_HEAD_ASSIST_MW a (s.fld (F.ACT_STATUS_HEAD a)))
      let s := s.modAct a fun x => { x with aenSince := some t, aenMw := mw, lead := true }
      .next ((s.flag (F.ACT_STATUS_AEN a)).modPins fun p => { p with aen := putAt a .high p.aen })
    else .next s

/-- WRITE_GATE_RAISE (R195): the lead has elapsed with every condition still holding. -/
def execWriteGateRaise (a t : Nat) (s : State) : Host.Outcome State Fault Refusal :=
  let x := s.act a
  if x.lead && x.wgRequest.isSome && s.mayWrite a &&
      (match x.aenSince with | some u => u + s.fld (F.ACT_TIMING_AEN_LEAD a) * 10000 ≤ t | none => false) then
    let s := (s.modRow fun r => { r with now := max r.now t }).modAct a fun x => { x with lead := false }
    .next ((s.flag (F.ACT_STATUS_WG a)).modPins fun p => { p with wg := putAt a .high p.wg })
  else .next s

/-- LASER_CUT (R198): the selected head's accumulator has reached its limit. -/
def execLaserCut (a t : Nat) (s : State) : Host.Outcome State Fault Refusal :=
  let h := s.fld (F.ACT_STATUS_HEAD a)
  if s.hasLaser && s.on (F.ACT_STATUS_AEN a) && s.laserLimit a h ≤ s.accAt a t then
    let s := s.modRow fun r => { r with now := max r.now t }
    let s := s.lowerAen a t
    let s := s.modAct a fun x => { x with cut := h :: x.cut }
    let s := ((s.flag (F.ACT_EV_LASER_CUT a)).count (F.ACT_COUNTS_LASER_CUTS a)).event (9 + a) 2 3 a h
    .next (s.gate a)
  else .next s

/-- The revolution boundary (R198): every accumulator of the actuator is cleared, the cut ends, and changed limits take
effect. -/
def State.revolution (s : State) (a : Nat) : State :=
  let limits := (s.act a).limits
  let s := s.modAct a fun x => { x with acc := List.replicate 10 0, cut := [], limits := [] }
  let s := limits.foldl (fun s l => s.setFld (F.ACT_HEAD_LLIM_LIMIT a l.1) l.2) s
  s.gate a

/-! ### Disabling (R201) -/

/-- ACT_DISABLE (R201). -/
def execActDisable (a : Nat) (disable : Bool) (s : State) : Host.Outcome State Fault Refusal :=
  if !s.hasAct a then .next s
  else if disable then
    if s.fld (F.ACT_STATUS_LOAD_STATE a) ≠ 0 then .next (s.flag (F.ACT_EV_DISABLE_REFUSED a))
    else
      let s := (s.flag (F.ACT_CTRL_DISABLE a)).modAct a fun x =>
        { x with linkOn := x.inFlight.isSome, queue := [], fwFrame := none, pollDue := false, coil := .off, ma := 0 }
      .next (s.gate a)
  else
    .next (((s.clr (F.ACT_CTRL_DISABLE a)).startLink a).gate a)

end Sys2Proof.Machine
end

