-- ==== Sys2Proof/Machine/Slots.lean ====
section
/-!
DEFINITION. Sys2Proof/Machine/Slots.lean: Stitch slots and the posting of completions (R277, R297, R298), and the end of an
activation that is aborted (R462), which completes its Commit.
-/

namespace Sys2Proof.Machine

/-! ### Slots -/

/-- A held slot. -/
def State.slot (s : State) (n : Nat) : Option Slot := s.flow.slots.find? fun x => x.num == n

/-- The state with a slot changed. -/
def State.modSlot (s : State) (n : Nat) (f : Slot → Slot) : State :=
  s.modFlow fun w => { w with slots := replaceIf (fun x => x.num == n) f w.slots }

/-- The stage codes of R298. -/
def Stage.code : Stage → Nat
  | .free => 0 | .fetched => 1 | .admitWait => 2 | .xferIn => 3 | .media => 4 | .xferOut => 5 | .doneEarly => 6 | .completing => 7

/-- The 64 bytes of a submission queue entry (in the layout of NVMe, assumption log 13). -/
def Sqe.bytes (q : Sqe) : List Byte :=
  leBytes 1 q.opcode ++ leBytes 1 q.flags ++ leBytes 2 q.cid ++ leBytes 4 q.nsid ++ leBytes 4 q.cdw2 ++ leBytes 4 q.cdw3 ++
    leBytes 8 q.mptr ++ leBytes 16 q.dptr ++ leBytes 4 q.cdw10 ++ leBytes 4 q.cdw11 ++ leBytes 4 q.cdw12 ++ leBytes 4 q.cdw13 ++
    leBytes 4 q.cdw14 ++ leBytes 4 q.cdw15

/-- FLAGS of a slot (R297). -/
def Slot.flagBits (x : Slot) : Nat :=
  [x.urgent, x.early, x.fua, x.limitedRetry, x.atomicStaged, x.writeHeld].zipIdx.foldl (fun m b => if b.1 then m + 2 ^ b.2 else m) 0

/-- Bytes 0 to 111 of a slot as R297 lays them out; bytes 112 to 255 are drive firmware's. -/
def Slot.context (x : Slot) : List Byte :=
  Sqe.bytes x.sqe ++ leBytes 8 x.seq ++ leBytes 2 x.ring ++ leBytes 1 x.skein ++ leBytes 1 x.stage.code ++ leBytes 2 x.flagBits ++
    leBytes 2 x.ops ++ leBytes 8 x.dla ++ leBytes 4 x.pages ++ leBytes 4 (x.status % 65536) ++ leBytes 8 x.fetchRow ++ leBytes 8 x.epoch

/-- SCH_SLOT_DIRTY.IN_USE: slots in DONE_EARLY. -/
def State.earlySlots (s : State) : Nat := (s.flow.slots.filter fun x => x.stage == .doneEarly).length

/-- The slot returns to its pool (R298): its transfer is posted in this Row. What runs on without its command (R119) names no
slot any more. -/
def State.freeSlot (s : State) (n : Nat) : State :=
  if (s.slot n).isNone then s
  else
    let s := s.modFlow fun w => { w with slots := w.slots.filter fun x => x.num != n }
    let s := s.modHost fun h => { h with formatting := h.formatting.map fun f => if f.2.2 = n + 1 then (f.1, f.2.1, 0) else f }
    let s := s.modUpd fun u =>
      { u with verifying := u.verifying.map (fun c => if c.slot = some n then { c with slot := none } else c),
               activation := u.activation.map (fun a => if a.commit = some n then { a with commit := none } else a) }
    let s := s.setFld F.SCH_SLOT_DIRTY_IN_USE s.earlySlots
    s.transfer Class.slotHeld Class.slotFree 1

/-- A TLP passes a port's link, received or sent: the Snag unit may drop it or corrupt its LCRC, which a replay on the link
makes good and the port counts as correctable (R265, R492). -/
def State.tlpPass (s : State) (port : Nat) (received : Bool) : State :=
  match s.snagPass 3 (port + if received then 128 else 0) false with
  | (some (a, _), s) => if a ≤ 1 then s.count (F.HIF_PORT_ERR_CORR port) else s
  | (none, s) => s

/-- Post the completion entry of a slot (R16, R318): once, and never for a command of a controller that was reset since
(R118). -/
def State.postCompletion (s : State) (n status dw0 : Nat) : State :=
  match s.slot n with
  | none => s
  | some x =>
    let s := s.modSlot n fun y => { y with completed := true, status := status, result := dw0 }
    if x.orphan || x.completed then s
    else if x.sideband then
      let r := leBytes 4 status ++ leBytes 8 dw0 ++ s.host.sidebandReply
      (s.modHost fun h => { h with sidebandReply := r }).send (.sideband r)
    else
      let s := s.tlpPass (x.skein / 16) false
      let cq := ((s.ring x.ring).map (·.link)).getD 0
      let s := s.modRing (s.cqRing x.skein cq) fun r => { r with tail := if r.size = 0 then 0 else (r.tail + 1) % r.size }
      let s := s.send (.completion x.skein cq (x.ring - s.sqBase (s.entryIndex x.skein)) x.sqe.cid status dw0)
      let s := s.modFlow fun w => { w with tags := (x.fetchRow, x.seq) :: w.tags.take 255 }
      match s.ring (s.cqRing x.skein cq) with
      | some r => s.raiseVector x.skein r.link x.urgent
      | none => s

/-- A command ends: its completion is posted and its slot is freed (R298, COMPLETING). -/
def State.completeSlot (s : State) (n status dw0 : Nat) : State := (s.postCompletion n status dw0).freeSlot n

/-- Bytes that a command returns: to the host's buffer, or in the sideband's response (R294). -/
def State.sendBytes (s : State) (x : Slot) (bytes : List Byte) : State :=
  if x.orphan then s
  else if x.sideband then s.modHost fun h => { h with sidebandReply := h.sidebandReply ++ bytes }
  else s.send (.page x.skein x.sqe.cid bytes)

/-- An error enters the Error Information page of a controller, 64 entries long (R271). -/
def State.logError (s : State) (c status lba : Nat) : State :=
  s.modController c fun x => { x with errors := x.errors + 1, errorLog := ((x.errors + 1, status, lba) :: x.errorLog).take 64 }

/-! ### An activation aborts (R462) -/

/-- The activation in progress aborts: its Commit completes with Firmware Activation Requires Conventional Reset. -/
def State.abortActivation (s : State) (code : Nat) : State :=
  match s.upd.activation with
  | none => s
  | some a =>
    let comp := a.components.headD 0
    let s := s.modUpd fun u => { u with activation := none }
    -- a pair that was staging holds no new image any more
    let s := (List.range 6).foldl (fun s p => if s.fld ⟨R.SYS_PAIR_STATUS, 4 * p, 4⟩ = 4 then s.setFld ⟨R.SYS_PAIR_STATUS, 4 * p, 4⟩ 3 else s) s
    let s := ((s.clr F.UPD_STATUS_ACT_STATE).clr F.UPD_STATUS_COMPONENT).setFld F.UPD_HANDOVER_PAIR 0xF
    let s := ((s.clr F.UPD_HANDOVER_REQUEST).clr F.UPD_HANDOVER_SPARE_READY).clr F.UPD_HANDOVER_QUIESCED
    let s := ((s.clr F.UPD_HANDOVER_TAKEN).setFld F.UPD_ERR_CODE code).setFld F.UPD_ERR_COMPONENT comp
    let s := (s.clr F.UPD_ERR_DETAIL).flag F.UPD_EV_ABORTED
    let s := s.modHost fun h => { h with controllers := h.controllers.map fun c => { c with paused := false } }
    let s := s.event 26 2 4 comp code
    match a.commit with
    | some n => s.completeSlot n 0x10B 0
    | none => s

end Sys2Proof.Machine
end

