-- ==== Sys2Proof/Machine/Graph.lean ====
section
/-!
DEFINITION. Sys2Proof/Machine/Graph.lean: the arithmetic of a Needle without its registers: the loop graph (R157 to R162),
the feedthrough and the preset of a transfer (R166, R167), and the profile generator (R168, R169).
-/

namespace Sys2Proof.Machine

/-! ### Blocks (R158) -/

/-- Coefficient k of a block. -/
def LoopBlock.c (b : LoopBlock) (k : Nat) : Int := b.coefs.getD k 0

/-- Ports out of a block kind. -/
def outPorts (kind : Nat) : Nat := if kind = 0x10 then 8 else if kind = 0x0B then 2 else if kind = 0x11 then 0 else 1

/-- The outputs of one Row's evaluation of a block, its new states, and whether something saturated. -/
structure Eval where
  outs : List Int
  states : List Int
  sat : Bool
  deriving DecidableEq, Repr

/-- A rounded sum of coefficient products as a signal, with its saturation. -/
def rnd (k : Nat) (x : Int) : Int × Bool := (satTo 32 (roundShift k x), overflows 32 (roundShift k x))

/-- One BIQUAD section, transposed direct form II: the output, its states and saturation. -/
def biquad (b0 b1 b2 a1 a2 x s1 s2 : Int) : Int × Int × Int × Bool :=
  let y := rnd 28 (b0 * x + s1 * 2 ^ 28)
  let n1 := rnd 28 (b1 * x - a1 * y.1 + s2 * 2 ^ 28)
  let n2 := rnd 28 (b2 * x - a2 * y.1)
  (y.1, n1.1, n2.1, y.2 || n1.2 || n2.2)

/-- The sections of a CASCADE in series. -/
def cascade : List Int → List Int → Int → List Int → Bool → Eval
  | b0 :: b1 :: b2 :: a1 :: a2 :: cs, st, x, acc, sat =>
    let r := biquad b0 b1 b2 a1 a2 x (st.getD 0 0) (st.getD 1 0)
    cascade cs (st.drop 2) r.1 (acc ++ [r.2.1, r.2.2.1]) (sat || r.2.2.2)
  | _, _, x, acc, sat => { outs := [x], states := acc, sat := sat }

/-- Σ cᵢ·xᵢ, exact. -/
def dot (cs xs : List Int) : Int := (cs.zip xs).foldl (fun m p => m + p.1 * p.2) 0

/-- What the evaluation of a graph depends on beside its signals: gain tables and the mode. -/
structure GraphMode where
  tables : List (List (Int × Nat))
  /-- SETTLE or FOLLOW (R158, integrating modes). -/
  integrating : Bool
  /-- FOLLOW or HOLD: GAIN_SCHED uses its second table. -/
  following : Bool
  deriving DecidableEq, Repr

/-- The gain of a GAIN_SCHED block, Q4.12. -/
def schedGain (g : GraphMode) (b : LoopBlock) (x : Int) : Int :=
  gainAt (satTo 16 (roundShift 4 x)) (g.tables.getD (if g.following then b.c 1 else b.c 0).toNat [])

/-- One block's evaluation on its inputs and states (R158). -/
def evalBlock (g : GraphMode) (b : LoopBlock) (ins st inputs : List Int) : Eval :=
  let i0 := ins.getD 0 0
  let i1 := ins.getD 1 0
  match b.kind with
  | 0x01 => let r := rnd 28 (b.c 0 * i0); { outs := [r.1], states := [], sat := r.2 }
  | 0x02 => let r := rnd 28 (dot b.coefs ins); { outs := [r.1], states := [], sat := r.2 }
  | 0x03 =>
    let r := biquad (b.c 0) (b.c 1) (b.c 2) (b.c 3) (b.c 4) i0 (st.getD 0 0) (st.getD 1 0)
    { outs := [r.1], states := [r.2.1, r.2.2.1], sat := r.2.2.2 }
  | 0x04 => cascade b.coefs st i0 [] false
  | 0x05 =>
    let i := st.getD 0 0
    let d := st.getD 1 0
    let d' := rnd 56 (d * 2 ^ 56 + b.c 3 * (b.c 2 * (i0 - st.getD 2 0) - d * 2 ^ 28))
    let o := rnd 28 (b.c 0 * i0 + (i + d'.1) * 2 ^ 28)
    let n := rnd 28 (i * 2 ^ 28 + b.c 1 * i0)
    let i' := if g.integrating then clampInt (-b.c 4) (b.c 4) n.1 else i
    { outs := [o.1], states := [i', d'.1, i0], sat := d'.2 || o.2 || (g.integrating && n.2) }
  | 0x06 => { outs := [st.getD 0 0], states := [i0], sat := false }
  | 0x07 => { outs := [clampInt (b.c 0) (b.c 1) i0], states := [], sat := false }
  | 0x08 => let r := rnd 12 (schedGain g b i1 * i0); { outs := [r.1], states := [], sat := r.2 }
  | 0x09 => let r := rnd 28 (b.c 0 * i0 + b.c 1 * i1 + b.c 2 * 2 ^ 28); { outs := [r.1], states := [], sat := r.2 }
  | 0x0A =>
    let line := i0 :: st
    let r := rnd 28 (dot b.coefs line)
    { outs := [r.1], states := line.take (b.coefs.length - 1), sat := r.2 }
  | 0x0B =>
    let i := st.getD 0 0
    let t := clampInt (-b.c 2) (b.c 2) i0
    let e := rnd 16 (t * 2 ^ 16 - b.c 4 * i1)
    let o := rnd 28 (b.c 5 * t + b.c 0 * e.1 + i * 2 ^ 28)
    let n := rnd 28 (i * 2 ^ 28 + b.c 1 * e.1)
    let i' := if g.integrating then clampInt (-b.c 3) (b.c 3) n.1 else i
    { outs := [o.1, satTo 32 (i0 - t)], states := [i'], sat := e.2 || o.2 || (g.integrating && n.2) }
  | 0x10 => { outs := inputs, states := [], sat := false }
  | _ => { outs := [], states := [], sat := false }

/-! ### The graph (R160) -/

/-- The blocks and wires of one actuator. -/
structure Graph where
  blocks : List LoopBlock
  wires : List LoopWire
  deriving DecidableEq, Repr

/-- The wire into an input port. -/
def Graph.wireTo (g : Graph) (dst port : Nat) : Option LoopWire := g.wires.find? fun w => w.dst == dst && w.dstPort == port

/-- Every source of a block has its outputs; a DELAY is a source. -/
def Graph.readyBlock (g : Graph) (done : List Nat) (b : LoopBlock) : Bool :=
  g.wires.all fun w => w.dst != b.id || done.contains w.src ||
    (g.blocks.any fun x => x.id == w.src && x.kind == 0x06)

/-- The block of the lowest ID among some. -/
def lowestId : List LoopBlock → Option LoopBlock
  | [] => none
  | b :: rest => match lowestId rest with
    | some c => some (if c.id < b.id then c else b)
    | none => some b

/-- Blocks in topological order, ties to the lower ID; blocks on a cycle never come. -/
def Graph.orderFrom (g : Graph) : Nat → List LoopBlock → List Nat → List LoopBlock
  | 0, _, _ => []
  | k + 1, rest, done =>
    match lowestId (rest.filter (g.readyBlock done)) with
    | none => []
    | some b => b :: g.orderFrom k (rest.filter fun x => x.id != b.id) (b.id :: done)

/-- The order of evaluation: DELAY blocks take their inputs last. -/
def Graph.order (g : Graph) : List LoopBlock :=
  let plain := g.blocks.filter fun b => b.kind != 0x06
  g.orderFrom plain.length plain [] ++ g.blocks.filter fun b => b.kind == 0x06

/-- A signal of the outputs formed so far. -/
def Graph.signal (g : Graph) (outs : List (Nat × List Int)) (dst port : Nat) : Int :=
  match g.wireTo dst port with
  | some w => (kgetD w.src outs []).getD w.srcPort 0
  | none => 0

/-- The inputs of a block. -/
def Graph.ins (g : Graph) (outs : List (Nat × List Int)) (b : LoopBlock) : List Int :=
  (List.range 4).map fun p => g.signal outs b.id p

/-- The result of a pass over the graph. -/
structure Pass where
  outs : List (Nat × List Int)
  states : BlockStates
  /-- Saturation bits by block ID. -/
  sat : List Nat
  vcm : Int
  ma : Int
  deriving DecidableEq, Repr

/-- Evaluate one block and keep what it gives. -/
def Graph.evalInto (g : Graph) (m : GraphMode) (st : BlockStates) (inputs : List Int) (p : Pass) (b : LoopBlock) : Pass :=
  let ins := g.ins p.outs b
  let r := evalBlock m b ins (kgetD b.id st []) inputs
  if b.kind = 0x11 then
    let above (x : Int) : Bool := overflows 16 (roundShift 1 x)
    { p with vcm := ins.getD 0 0, ma := ins.getD 1 0,
             sat := if above (ins.getD 0 0) || above (ins.getD 1 0) then b.id :: p.sat else p.sat }
  else
    { p with outs := kput b.id r.outs p.outs, states := if r.states.isEmpty then p.states else kput b.id r.states p.states,
             sat := if r.sat then b.id :: p.sat else p.sat }

/-- Outputs of DELAY blocks stand before the pass begins. -/
def Graph.delays (g : Graph) (st : BlockStates) : List (Nat × List Int) :=
  (g.blocks.filter fun b => b.kind == 0x06).foldl (fun o b => kput b.id [(kgetD b.id st []).getD 0 0] o) []

/-- One pass over the graph from given states (R160). -/
def Graph.run (g : Graph) (m : GraphMode) (st : BlockStates) (inputs : List Int) : Pass :=
  g.order.foldl (g.evalInto m st inputs) { outs := g.delays st, states := [], sat := [], vcm := 0, ma := 0 }

/-! ### Feedthrough and preset (R166, R167) -/

/-- The unit of a feedthrough: 2^-48. -/
def one48 : Int := 2 ^ 48

/-- The feedthrough of a block's outputs, given that of its inputs, in 2^-48; `own` marks the preset block itself. -/
def blockSlope (m : GraphMode) (b : LoopBlock) (ins slopes : List Int) (own : Bool) : List Int :=
  let s0 := slopes.getD 0 0
  let s1 := slopes.getD 1 0
  let i0 := ins.getD 0 0
  let k (c x : Int) : Int := c * x / 2 ^ 28
  let one : Int := if own then one48 else 0
  match b.kind with
  | 0x01 => [k (b.c 0) s0]
  | 0x02 => [dot b.coefs slopes / 2 ^ 28]
  | 0x03 => [k (b.c 0) s0]
  | 0x04 => [(List.range (b.coefs.length / 5)).foldl (fun x j => k (b.c (5 * j)) x) s0]
  | 0x05 => [k (b.c 0) s0 + k (b.c 3) (k (b.c 2) s0) + one]
  | 0x07 => [if b.c 0 ≤ i0 ∧ i0 ≤ b.c 1 then s0 else 0]
  | 0x08 => [schedGain m b (ins.getD 1 0) * s0 / 2 ^ 12]
  | 0x09 => [k (b.c 0) s0 + k (b.c 1) s1]
  | 0x0A => [k (b.c 0) s0]
  | 0x0B =>
    if clampInt (-b.c 2) (b.c 2) i0 = i0 then [k (b.c 5) s0 + k (b.c 0) s0 + one, 0] else [one, s0]
  | _ => [0, 0, 0, 0, 0, 0, 0, 0]

/-- Feedthrough from the integrator of a block to the two OUTPUT ports, over a pass. -/
def Graph.feedthrough (g : Graph) (m : GraphMode) (p : Pass) (preset : Nat) : Int × Int :=
  let step (acc : List (Nat × List Int) × Int × Int) (b : LoopBlock) : List (Nat × List Int) × Int × Int :=
    let sl := g.ins acc.1 b
    if b.kind = 0x11 then (acc.1, sl.getD 0 0, sl.getD 1 0)
    else if b.kind = 0x06 then (kput b.id [0] acc.1, acc.2)
    else (kput b.id (blockSlope m b (g.ins p.outs b) sl (b.id == preset)) acc.1, acc.2)
  ((g.blocks.filter (fun b => b.kind == 0x06) ++ g.order).foldl step ([], 0, 0)).2

/-- The output a block presets: 1 VCM, 2 MA, 0 none. -/
def LoopBlock.preset (b : LoopBlock) : Nat :=
  if b.kind = 0x05 then (b.c 5).toNat else if b.kind = 0x0B then (b.c 6).toNat else 0

/-- Its integrator limit. -/
def LoopBlock.ilim (b : LoopBlock) : Int := if b.kind = 0x05 then b.c 4 else b.c 3

/-- A quotient of signed numbers, rounded. -/
def roundDivInt (x d : Int) : Int := if d < 0 then roundDiv (-x) d.natAbs else roundDiv x d.natAbs

/-- The preset of every preset block (R166): the states with i_new, and whether some |g| lies below 2^-16. `target` is
the command latched at the analog die, Q1.15. -/
def Graph.presets (g : Graph) (m : GraphMode) (p : Pass) (targetVcm targetMa : Int) (st : BlockStates) : BlockStates × Bool :=
  (g.blocks.filter fun b => b.preset != 0).foldl
    (fun acc b =>
      let ft := g.feedthrough m p b.id
      let gain := if b.preset = 1 then ft.1 else ft.2
      let target := 2 * (if b.preset = 1 then targetVcm else targetMa)
      let u0 := if b.preset = 1 then p.vcm else p.ma
      if gain.natAbs < 2 ^ 32 then (acc.1, true)
      else
        let old := kgetD b.id acc.1 []
        let i' := clampInt (-b.ilim) b.ilim (satTo 32 (old.getD 0 0 + roundDivInt ((target - u0) * one48) gain))
        (kput b.id (i' :: old.drop 1) acc.1, acc.2)) (st, false)

/-! ### Profile generator (R168, R169) -/

/-- The generator's numbers are held in units of 2^-60 inside stop_dist. -/
def unit60 : Int := 2 ^ 60

/-- A product of two numbers in units of 2^-60. -/
def mul60 (a b : Int) : Int := a * b / unit60

/-- A quotient of two numbers in units of 2^-60. -/
def div60 (a b : Int) : Int := if b = 0 then 0 else a * unit60 / b

/-- brake(w). -/
def brakeDist (w am jm : Int) : Int :=
  if div60 (mul60 am am) jm ≤ w then mul60 w (div60 w am + div60 am jm) / 2
  else mul60 w (isqrt ((div60 w jm) * unit60).toNat : Nat)

/-- stop_dist(v, a). -/
def stopDist (v a am jm : Int) : Int :=
  if 0 < a then
    let t := div60 a jm
    mul60 v t + mul60 a (mul60 t t) / 2 - mul60 jm (mul60 t (mul60 t t)) / 6 + brakeDist (v + div60 (mul60 a a) (2 * jm)) am jm
  else
    let t := div60 (-a) jm
    let w := v + div60 (mul60 a a) (2 * jm)
    brakeDist w am jm - (mul60 w t - mul60 jm (mul60 t (mul60 t t)) / 6)

/-- The set-point state and what the run did. -/
structure GenStep where
  p : Int
  v : Int
  a : Int
  jerk : Int
  stepped : Bool
  /-- A generator state saturated (R157). -/
  sat : Bool
  deriving DecidableEq, Repr

/-- The set-point steps to its goal. -/
def GenStep.jump (goal : Int) (event : Bool) : GenStep := { p := goal, v := 0, a := 0, jerk := 0, stepped := event, sat := false }

/-- The acceleration wanted (R168), everything in units of 2^-60. -/
def wantedAcc (d v a vm am jm : Int) : Int :=
  let s : Int := if 0 < d then 1 else -1
  if s * v < 0 then s * am
  else if s * d ≤ stopDist (s * v) (s * a) am jm then
    if s * v ≤ div60 (mul60 a a) (2 * jm) then 0 else -(s * am)
  else if s * v + s * div60 (mul60 a (a.natAbs : Int)) (2 * jm) < vm then s * am
  else 0

/-- One run of the generator: p and goal Q24.8, v and VMAX Q16.16, a and AMAX Q8.24, JMAX Q4.28. Limits are held on the
states at the end of the Row. -/
def generate (p v a goal vm am jm : Int) (fallback : Bool) : GenStep :=
  -- in units of 2^-28
  let v28 := v * 2 ^ 12
  let a28 := a * 2 ^ 4
  let vm28 := vm * 2 ^ 12
  let am28 := am * 2 ^ 4
  let lo := max (-jm) (max (-am28 - a28) (2 * (-vm28 - v28 - a28)))
  let hi := min jm (min (am28 - a28) (2 * (vm28 - v28 - a28)))
  if fallback ∨ vm ≤ 0 ∨ am ≤ 0 ∨ jm ≤ 0 ∨ vm28 < v28.natAbs ∨ am28 < a28.natAbs ∨ hi < lo then GenStep.jump goal true
  else
    let d28 := (goal - p) * 2 ^ 20
    if (d28.natAbs : Int) ≤ jm ∧ (v28.natAbs : Int) ≤ jm ∧ (a28.natAbs : Int) ≤ jm then GenStep.jump goal false
    else
      let u : Int := 2 ^ 32
      let want := wantedAcc (d28 * u) (v28 * u) (a28 * u) (vm28 * u) (am28 * u) (jm * u) / u
      let j := clampInt lo hi (clampInt (-jm) jm (want - a28))
      let p' := roundDiv (6 * (p * 2 ^ 20 + v28) + 3 * a28 + j) (6 * 2 ^ 20)
      let v' := roundDiv (2 * (v28 + a28) + j) (2 ^ 13)
      let a' := roundShift 4 (a28 + j)
      { p := satTo 32 p', v := satTo 32 v', a := satTo 32 a', jerk := j, stepped := false,
        sat := overflows 32 p' || overflows 32 v' || overflows 32 a' }

end Sys2Proof.Machine
end

