-- ==== Sys2Proof/Machine/Needle.lean ====
section
/-!
DEFINITION. Sys2Proof/Machine/Needle.lean: the Needles of chapter 7: demodulation, latch, deadline and what follows it
(R151 to R165), bumpless transfer (R166), the mailbox (R171 to R173), overrun and takeover (R174 to R177), disabling (R180).
and the faults of a microcode swap (R179). The swap itself stands with
the activation.
-/

namespace Sys2Proof.Machine

/-! ### Graph of a Needle -/

/-- The loop graph of actuator a. -/
def State.graph (s : State) (a : Nat) : Graph :=
  { blocks := s.pattern.active.loop.blocks.filter fun b => b.act == a,
    wires := s.pattern.active.loop.wires.filter fun w => w.act == a }

/-- The gain tables of actuator a by number. -/
def State.gainTables (s : State) (a : Nat) : List (List (Int × Nat)) :=
  (List.range 8).map fun t =>
    ((s.pattern.active.loop.gains.find? fun g => g.act == a && g.table == t).map (·.points)).getD []

/-- The conditions of a pass in a mode. -/
def State.graphMode (s : State) (a mode : Nat) : GraphMode :=
  { tables := s.gainTables a, integrating := mode == 2 || mode == 3, following := mode == 3 || mode == 4 }

/-- Saturation bits of a pass (R157). -/
def State.flagSat (s : State) (n : Nat) (ids : List Nat) : State :=
  if ids.isEmpty then s
  else
    (ids.foldl (fun s i => if i < 32 then s.flag (⟨R.NDL_SAT_LO n, i, 1⟩ : Fld) else s.flag (⟨R.NDL_SAT_HI n, i - 32, 1⟩ : Fld)) s).flag
      (F.NDL_FLAG_SAT n)

/-- Modes in which the graph runs. -/
def graphRuns (mode : Nat) : Bool := 1 ≤ mode && mode ≤ 4

/-- SEEK and SETTLE on the one side, FOLLOW and HOLD on the other (R166). -/
def modeGroup (mode : Nat) : Nat := if mode = 1 ∨ mode = 2 then 1 else if mode = 3 ∨ mode = 4 then 2 else 0

/-- A mode change takes a preset (R166). -/
def presetsNeeded (old new : Nat) : Bool := graphRuns new && modeGroup old != modeGroup new

/-! ### Mode changes (R163, R166) -/

/-- The mode that the commands so far have left. -/
def State.modeSoFar (s : State) (n : Nat) : Nat := (s.needle n).pendingMode.getD (s.fld (F.NDL_STATUS_MODE n))

/-- A mode change for the next boundary; TRANSFER_PEND while it takes a preset. -/
def State.requestMode (s : State) (n m : Nat) : State :=
  (s.pendMode n m).setBit (F.NDL_STATUS_TRANSFER_PEND n) (presetsNeeded (s.fld (F.NDL_STATUS_MODE n)) m)

/-- The trial pass of R166 in mode m for actuator a, and the states to start from: `trial` the states committed at the
start of Row m, `last` those committed at its end. -/
def State.trialPass (s : State) (n a m : Nat) (trial last : BlockStates) (inputs : List Int) (vcm ma : Int) : BlockStates × State :=
  let g := s.graph a
  let gm := s.graphMode a m
  let pass := g.run gm trial inputs
  let r := g.presets gm pass vcm ma last
  let s := if r.2 then (s.flag (F.NDL_FLAG_PRESET_FAIL n)).event (6 + n) 4 3 a 0 else s
  (r.1, s)

/-- Target plus offset in Q24.8. -/
def State.goal (s : State) (n : Nat) : Int :=
  satTo 32 (roundShift 8 (s.sfld (F.NDL_TARGET_TARGET n) * 2 ^ 8 + s.sfld (F.NDL_OFFSET_OFFSET n)))

/-- The set-point stands at target plus offset (R163, SETTLE). -/
def State.settlePoint (s : State) (n : Nat) : State :=
  (((s.setSfld (F.NDL_SP_POS_POS n) (s.goal n)).clr (F.NDL_SP_VEL_VEL n)).clr (F.NDL_SP_ACC_ACC n)).modNeedle n fun x => { x with jerk := 0 }

/-- Entry to a mode at a boundary: set-point, counters and outputs of R163. -/
def State.enterMode (s : State) (n m : Nat) : State :=
  let old := s.fld (F.NDL_STATUS_MODE n)
  let s := s.setFld (F.NDL_STATUS_MODE n) m
  let s := s.modNeedle n fun x => { x with holdRows := 0, arrived := false }
  let s := if m = 4 then s else s.clr (F.NDL_STATUS_HOLD_CMD n)
  match m with
  | 2 =>
    let s := s.settlePoint n
    if old = 2 then s else s.modNeedle n fun x => { x with settleRun := 0, settleRows := 0, timeoutSeen := false }
  | 0 => s.modNeedle n fun x => { x with states := [], prev := [] }
  | 5 =>
    let s := (s.clr (F.NDL_STATUS_LOCK n)).modNeedle n fun x => { x with states := [], prev := [], validRun := 0 }
    let a := s.fld (F.NDL_STATUS_ACT n)
    let s := if a = 0 then s.clr F.ROWT_STATUS_LOCK_A else if a = 1 then s.clr F.ROWT_STATUS_LOCK_B else s
    (s.clr (F.NDL_STATUS_POS_OK n)).clr (F.NDL_STATUS_TRANSFER_PEND n)
  | _ => s

/-- A pending mode change of a driving Needle takes effect at the boundary. -/
def State.applyMode (s : State) (n : Nat) : State :=
  match (s.needle n).pendingMode with
  | none => s
  | some m =>
    let old := s.fld (F.NDL_STATUS_MODE n)
    let a := s.fld (F.NDL_STATUS_ACT n)
    let x := s.needle n
    let r := if presetsNeeded old m then
        s.trialPass n a m x.prev x.states x.doneInputs (s.sfld (F.NDL_OUT_VCM n)) (s.sfld (F.NDL_OUT_MA n))
      else (x.states, s)
    let s := r.2
    let s := if presetsNeeded old m then s.modNeedle n fun y =>
        { y with states := r.1, bumpFrom := some (s.sfld (F.NDL_OUT_VCM n), s.sfld (F.NDL_OUT_MA n)) } else s
    let s := (s.clr (F.NDL_STATUS_TRANSFER_PEND n)).modNeedle n fun y => { y with pendingMode := none }
    let s := s.enterMode n m
    -- RETRACT of LOADED heads is the unload of R191; with no heads off the ramp the Needle goes on to MANUAL, NDL_MANUAL cleared
    if m = 5 then
      let st := s.fld (F.ACT_STATUS_LOAD_STATE a)
      if st = 2 ∨ st = 1 then (s.startUnload a).modNeedle n fun y => { y with pendingMode := none }
      else if st = 0 then (s.pendMode n 0).setReg (R.NDL_MANUAL n) 0
      else s
    else s

/-- Both Needles' pending modes at a boundary. -/
def State.applyModes (s : State) : State :=
  (List.range 3).foldl (fun s n => if s.drives n then s.applyMode n else s) s

/-! ### Demodulation (R152 to R155) -/

/-- LOCK of a Needle and of the actuator it drives. -/
def State.setLock (s : State) (n a : Nat) (b : Bool) : State :=
  (s.setBit (F.NDL_STATUS_LOCK n) b).setBit (if a = 0 then F.ROWT_STATUS_LOCK_A else F.ROWT_STATUS_LOCK_B) b

/-- A missed wedge. -/
def State.missedWedge (s : State) (n a : Nat) (discontinuity : Bool) : State :=
  let x := s.needle n
  let miss := x.missRun + 1
  let s := s.modNeedle n fun y => { y with missRun := miss, validRun := 0, wedgeValid := false }
  let s := (s.flag (F.NDL_FLAG_MISS n)).count (F.NDL_COUNTS_MISS_COUNT n)
  if discontinuity || 3 ≤ miss then s.setLock n a false else s

/-- The input block's ports that do not wait for the latch: SP_VEL, SP_ACC, SP_JERK and XFF (R153, R159). -/
def State.xff (s : State) (a : Nat) : Int :=
  if s.isS1H || (s.driver (1 - a)).isNone then 0 else (s.act (1 - a)).xff

/-- The INPUT ports of a Row, in Q16.16; ERR and PES are 0 in HOLD (R163). -/
def State.formInputs (s : State) (n a : Nat) (err pes : Int) : State :=
  let hold := s.fld (F.NDL_STATUS_MODE n) == 4
  let err' := if hold then 0 else err
  let pes' := if hold then 0 else pes
  let old := (s.needle n).inputs
  let ins := [satTo 32 err', pes', s.sfld (F.NDL_SP_VEL_VEL n), satTo 32 (roundShift 8 (s.sfld (F.NDL_SP_ACC_ACC n))),
    satTo 32 (roundShift 12 (s.needle n).jerk), s.xff a, old.getD 6 0, old.getD 7 0]
  let ids := (s.graph a).blocks.filter fun b => b.kind == 0x10
  let s := if overflows 32 err' then s.flagSat n (ids.map (·.id)) else s
  (s.setSfld (F.NDL_ERR_ERR n) (satTo 32 err')).modNeedle n fun y => { y with inputs := ins, lastErr := satTo 32 err }

/-- ERR before saturation: set-point plus offset less the measured position (R153), the position in Q16.16. -/
def State.errAt (s : State) (n : Nat) (pos : Int) : Int :=
  s.sfld (F.NDL_SP_POS_POS n) * 2 ^ 8 + s.sfld (F.NDL_OFFSET_OFFSET n) - pos

/-- A Needle demodulates the wedge of its actuator (R152 to R155): validity, LOCK, PES and the measured position; `inWindow` says
that ROWT's window held the mark. -/
def State.sampleWedge (s : State) (n a : Nat) (o : WedgeObs) (inWindow : Bool) : State :=
  let w := s.pattern.active.geometry.wedges
  let x := s.needle n
  let expected := x.lastIndex.map fun i => (i + 1) % w
  let seen := o.mark && inWindow
  let cont := match expected with | some e => o.index == e | none => true
  let valid := seen && o.trackOk && cont
  let s := s.modNeedle n fun y =>
    { y with closed := false, latched := false, lastIndex := if seen then some o.index else expected }
  if valid then
    let pos := (o.track : Int) * 2 ^ 16 + o.pes
    let s := s.modNeedle n fun y => { y with validRun := y.validRun + 1, missRun := 0, wedgeValid := true, pes := o.pes, measured := pos }
    let s := if 7 ≤ x.validRun then s.setLock n a true else s
    s.setSfld (F.NDL_POSITION_POS n) (satTo 32 (roundShift 8 pos))
  else s.missedWedge n a (seen && !cont)

/-- The inputs of the Row that a wedge begins, behind its boundary where the wedge has placed one: ERR is of the set-point that the
boundary left, XFF of the coil as it was at the boundary (R153); with a missed wedge ERR and PES are the last valid ones (R154). -/
def State.formRow (s : State) (n a : Nat) : State :=
  let x := s.needle n
  s.formInputs n a (if x.wedgeValid then s.errAt n x.measured else x.lastErr) x.pes

/-- A Needle times its Row from the predicted instant: no wedge was sampled for it. -/
def State.predictedRow (s : State) (n a : Nat) : State :=
  if (s.needle n).closed then
    (s.sampleWedge n a { mark := false, trackOk := false, track := 0, index := 0, pes := 0 } false).formRow n a
  else s

/-- What the Needle does with outputs only in the modes that run the graph. -/
def State.runsGraph (s : State) (n : Nat) : Bool := graphRuns (s.fld (F.NDL_STATUS_MODE n))

/-! ### The latch (R152, R158 to R160) -/

/-- Commit the states of a pass. -/
def State.commitPass (s : State) (n : Nat) (p : Pass) : State :=
  (s.flagSat n p.sat).modNeedle n fun y => { y with prev := y.states, states := p.states, latched := true }

/-- The outputs pass to the analog die. -/
def State.latchOutputs (s : State) (n ns : Nat) (p : Pass) : State :=
  let vcm := toCommand p.vcm
  let ma := toCommand p.ma
  let s := (s.setSfld (F.NDL_OUT_VCM n) vcm).setSfld (F.NDL_OUT_MA n) ma
  let s := match (s.needle n).bumpFrom with
    | some (v, m) => ((s.setSfld (F.NDL_BUMP_VCM_STEP n) (satTo 16 (vcm - v))).setSfld (F.NDL_BUMP_MA_STEP n)
        (satTo 16 (ma - m))).modNeedle n fun y => { y with bumpFrom := none }
    | none => s
  ((s.setFld (F.NDL_TIMING_LAST_NS n) ns).setFld (F.NDL_TIMING_WORST_NS n) (max ns (s.fld (F.NDL_TIMING_WORST_NS n)))).clr
    (F.NDL_STATUS_OVR_RUN n)

/-- NEEDLE_LATCH (R152, R158, R160): the graph runs on the Row's inputs, and the analog die latches its outputs; a SHADOW
Needle runs beside the Needle that drives. -/
def execNeedleLatch (n ns : Nat) (maPos vcmI : Int) (s : State) : Host.Outcome State Fault Refusal :=
  let a := s.fld (F.NDL_STATUS_ACT n)
  if s.drives n then
    let s := s.predictedRow n a
    if (s.needle n).latched || 4500 < ns || (s.needle n).halted then .next s
    else
      let s := s.holdInjectors 6 n (s.fld (F.NDL_STATUS_OVR_RUN n) == 1 && s.fld (F.NDL_STATUS_ROLE s.pattern.active.topology.standby) != 2)
      match s.snagPass 6 n false with
      | (some _, s) => .next s
      | (none, s) =>
        let ins := (s.needle n).inputs.take 6 ++ [satTo 32 maPos, satTo 32 vcmI]
        let s := s.modNeedle n fun y => { y with inputs := ins }
        if !s.runsGraph n then .next s
        else
          let p := (s.graph a).run (s.graphMode a (s.fld (F.NDL_STATUS_MODE n))) (s.needle n).states ins
          .next (((s.commitPass n p).latchOutputs n ns p).driveMa a)
  else if s.fld (F.NDL_STATUS_ROLE n) = 3 then
    match s.driver a with
    | none => .next s
    | some d =>
      if !s.runsGraph d || (s.needle n).awaitMirror then .next s
      else
        let ins := (s.needle d).inputs
        let p := (s.graph a).run (s.graphMode a (s.fld (F.NDL_STATUS_MODE d))) (s.needle n).states ins
        .next ((s.commitPass n p).modNeedle n fun y => { y with inputs := ins })
  else .next s

/-! ### The mailbox (R171 to R173) -/

/-- CREDITS follows the Needle's account, with the transfers that the guard holds; it reads 0 unless the Needle drives (R171). -/
def State.creditsReg (s : State) (n : Nat) : State :=
  s.setFld (F.NDL_MBX_STATUS_CREDITS n) (if s.drives n then s.avail (Class.creditFree n) else 0)

/-- Push W0 and W1 with the tag of R16: it takes one credit, and without one it is dropped. A push with the tag and the words of
one already made is a duplicate and is discarded (R16; that the words belong to the comparison is assumption log 36). -/
def State.mbxPush (s : State) (n row seq : Nat) : State :=
  let w0 := s.reg (R.NDL_MBX_W0 n)
  let w1 := s.reg (R.NDL_MBX_W1 n)
  if (s.needle n).pushed.contains (row, seq, w0, w1) then s
  else if !s.drives n || s.avail (Class.creditFree n) = 0 then s.flag (F.NDL_FLAG_MBX_REFUSED n)
  else
    let s := s.modNeedle n fun x =>
      { x with mailbox := x.mailbox ++ [(w0, w1)], pushed := ((row, seq, w0, w1) :: x.pushed).take 64 }
    (s.transfer (Class.creditFree n) (Class.creditHeld n) 1).creditsReg n

/-- NDL_MBX_PUSH (R16, R171): by a pair, for the Stitch slot with a sequence number. -/
def execNdlMbxPush (p : MailboxPush) (s : State) : Host.Outcome State Fault Refusal :=
  if s.hasNeedle p.needle then .next (s.mbxPush p.needle (((s.pair p.proc).replay).getD s.rowCount) p.seq) else .next s

/-- The tracks of an actuator (R43). -/
def State.trackIn (s : State) (a : Nat) (target : Int) : Bool :=
  s.pattern.active.geometry.bands.any fun b =>
    b.act == a && (b.firstTrack : Int) * 256 ≤ target && target ≤ (b.lastTrack : Int) * 256

/-- A new target and offset; to SEEK when target plus offset moves (R172). A SEEK behind an ENGAGE or RELEASE of the same Row starts
from the set-point of the SETTLE that it left (R173). -/
def State.moveTo (s : State) (n : Nat) (target offset : Int) : State :=
  let before := s.goal n
  let s := if (s.needle n).pendingMode = some 2 then s.settlePoint n else s
  let s := (s.setSfld (F.NDL_TARGET_TARGET n) target).setSfld (F.NDL_OFFSET_OFFSET n) offset
  if s.goal n = before then s else s.requestMode n 1

/-- The LAST_RESULT code of a command in the mode that the commands so far have left (R172). -/
def State.commandCode (s : State) (n : Nat) (w0 w1 : Word) : Nat :=
  let mode := s.modeSoFar n
  let moving := mode = 1 ∨ mode = 2 ∨ mode = 3
  let ls := getBits w0 8 2
  let v := toSigned 32 w1.toNat
  if (s.needle n).retractTaken then 2
  else match getBits w0 0 8 with
  | 1 =>
    if ¬ moving then 2
    else if s.fld (F.NDL_LIM_VMAX_VMAX n ls) = 0 ∨ s.fld (F.NDL_LIM_AMAX_AMAX n ls) = 0 ∨ s.fld (F.NDL_LIM_JMAX_JMAX n ls) = 0 then 3
    else if s.trackIn (s.fld (F.NDL_STATUS_ACT n)) v then 0
    else 4
  | 2 => if ¬ moving then 2 else if -(4 * 65536) ≤ v ∧ v ≤ 4 * 65536 then 0 else 4
  | 3 => if mode ≠ 0 then 2 else if s.on (F.NDL_STATUS_LOCK n) then 0 else 5
  | 4 => if moving then 0 else 2
  | 5 => if mode ≠ 4 then 2 else if s.on (F.NDL_STATUS_LOCK n) then 0 else 5
  | 6 => if mode = 5 then 2 else 0
  | 7 => 0
  | _ => 1

/-- What an accepted command does (R172). -/
def State.commandEffect (s : State) (n : Nat) (w0 w1 : Word) : State :=
  let v := toSigned 32 w1.toNat
  match getBits w0 0 8 with
  | 1 => (s.modNeedle n fun x => { x with limitSet := getBits w0 8 2 }).moveTo n v (s.sfld (F.NDL_OFFSET_OFFSET n))
  | 2 => s.moveTo n (s.sfld (F.NDL_TARGET_TARGET n)) v
  | 3 => ((s.setSfld (F.NDL_TARGET_TARGET n) (s.sfld (F.NDL_POSITION_POS n))).clr (F.NDL_OFFSET_OFFSET n)).requestMode n 2
  | 4 => (s.flag (F.NDL_STATUS_HOLD_CMD n)).requestMode n 4
  | 5 => (s.setSfld (F.NDL_TARGET_TARGET n) (s.sfld (F.NDL_SP_POS_POS n))).requestMode n 2
  | 6 => (if getBits w0 8 1 = 1 then s.setReg (R.NDL_MANUAL n) (s.reg (R.NDL_OUT n)) else s).requestMode n 0
  | 7 => (s.modNeedle n fun x => { x with retractTaken := true }).requestMode n 5
  | _ => s

/-- Take the oldest entry: its credit returns, and the command is applied or refused. -/
def State.takeEntry (s : State) (n : Nat) : State :=
  match (s.needle n).mailbox with
  | [] => s
  | (w0, w1) :: rest =>
    let s := s.modNeedle n fun x => { x with mailbox := rest, due := x.due - 1 }
    let s := (s.transfer (Class.creditHeld n) (Class.creditFree n) 1).creditsReg n
    let code := s.commandCode n w0 w1
    let s := if code = 0 then s.commandEffect n w0 w1 else s
    (s.setFld (F.NDL_MBX_STATUS_LAST_RESULT n) code).setFld (F.NDL_MBX_STATUS_LAST_TAG n) (getBits w0 16 16)

/-- A command row takes the head entry when its opcode is the row's, in the post-deadline phase and of the entries due in it: those
pushed before the deadline, at most 4 (R171). -/
def State.takeCommand (s : State) (n : Nat) (mine : Nat → Bool) : State :=
  match (s.needle n).mailbox with
  | [] => s
  | (w0, _) :: _ =>
    if s.drives n && (s.needle n).phase && 0 < (s.needle n).due && mine (getBits w0 0 8) then s.takeEntry n else s

/-- NDL_SEEK (R172). -/
def execNdlSeek (n : Nat) (s : State) : Host.Outcome State Fault Refusal := .next (s.takeCommand n (· == 1))

/-- NDL_OFFSET (R172). -/
def execNdlOffset (n : Nat) (s : State) : Host.Outcome State Fault Refusal := .next (s.takeCommand n (· == 2))

/-- NDL_ENGAGE (R172). -/
def execNdlEngage (n : Nat) (s : State) : Host.Outcome State Fault Refusal := .next (s.takeCommand n (· == 3))

/-- NDL_HOLD (R172). -/
def execNdlHold (n : Nat) (s : State) : Host.Outcome State Fault Refusal := .next (s.takeCommand n (· == 4))

/-- NDL_RELEASE (R172). -/
def execNdlRelease (n : Nat) (s : State) : Host.Outcome State Fault Refusal := .next (s.takeCommand n (· == 5))

/-- NDL_MANUAL (R172). -/
def execNdlManual (n : Nat) (s : State) : Host.Outcome State Fault Refusal := .next (s.takeCommand n (· == 6))

/-- NDL_RETRACT (R172). -/
def execNdlRetract (n : Nat) (s : State) : Host.Outcome State Fault Refusal := .next (s.takeCommand n (· == 7))

/-- NDL_UNKNOWN_OPCODE (R172): code 1. -/
def execNdlUnknownOpcode (n : Nat) (s : State) : Host.Outcome State Fault Refusal :=
  .next (s.takeCommand n fun o => o == 0 || 7 < o)

/-! ### Faults (R174 to R177) -/

/-- The standby: a Needle in STANDBY or SHADOW. -/
def State.standby (s : State) : Option Nat :=
  (List.range 3).find? fun k => s.fld (F.NDL_STATUS_ROLE k) == 2 || s.fld (F.NDL_STATUS_ROLE k) == 3

/-- The Needle that Topology gives an actuator. -/
def State.ownNeedle (s : State) (a : Nat) : Option Nat :=
  (s.pattern.active.topology.actuators.find? fun e => e.act == a).map (·.needle)

/-- The standby that a microcode swap has made ACTIVE, and the actuator it drives (R178). -/
def State.swappedIn (s : State) : Option (Nat × Nat) :=
  let k := s.pattern.active.topology.standby
  if s.fld (F.NDL_STATUS_ROLE k) = 1 || (s.fld (F.NDL_STATUS_ROLE k) = 5 && (s.needle k).takeover && (s.needle k).formerRole = 1) then
    some (k, if s.fld (F.NDL_STATUS_ROLE k) = 5 then (s.needle k).formerAct else s.fld (F.NDL_STATUS_ACT k))
  else none

/-- The Needle becomes FAULTED; its actuator waits for the takeover at the next boundary, where the standby takes a preset. A fault
of the Needle that a microcode swap has set aside waits for it too (R179). -/
def State.needleFaulted (s : State) (n : Nat) : State :=
  let a := s.fld (F.NDL_STATUS_ACT n)
  let role := s.fld (F.NDL_STATUS_ROLE n)
  let drove := s.drives n
  let aside := match s.swappedIn with | some (_, b) => role == 3 && s.ownNeedle b == some n | none => false
  let s := ((s.setFld (F.NDL_STATUS_ROLE n) 5).clr (F.NDL_STATUS_POS_OK n)).event (6 + n) 2 6 n a
  let s := (s.modNeedle n fun x =>
    { x with formerRole := role, formerAct := a, takeover := drove || aside, latched := false, phase := false, due := 0, retractTaken := false })
  let s := s.setFld (F.NDL_MBX_STATUS_CREDITS n) 0
  let s := match (if drove then s.standby else none) with | some k => s.flag (F.NDL_STATUS_TRANSFER_PEND k) | none => s
  let s := if role = 3 then s.abortActivation 0x0E else s
  s.gates

/-- The outputs of the Row are not applied (R174): the previous commands stay, writing stops, and nothing that the Row computed is
committed. -/
def State.rowLost (s : State) (n a : Nat) : State :=
  let s := ((s.flag (F.NDL_FLAG_OVR n)).count (F.NDL_COUNTS_OVR_COUNT n)).count (F.NDL_STATUS_OVR_RUN n)
  let s := (s.setFld (F.NDL_TIMING_LAST_NS n) 0xFFFF).clr (F.NDL_STATUS_POS_OK n)
  let s := (s.modNeedle n fun x =>
    let kept := if x.latched then x.prev else x.states
    { x with states := kept, prev := kept, latched := false, doneInputs := x.inputs }).event (6 + n) 1 4 n (s.fld (F.NDL_STATUS_OVR_RUN n))
  (s.modAct a fun x => { x with overrun := true }).gate a

/-- An internal check of Needle n fails (R175): of one that drives, the outputs of the Row are treated as under R174. -/
def State.internalFault (s : State) (n : Nat) : State :=
  let role := s.fld (F.NDL_STATUS_ROLE n)
  if !s.hasNeedle n || role == 0 || role == 5 then s
  else
    let s := s.flag (F.NDL_FLAG_INT_CHECK n)
    let s := if s.drives n && graphRuns (s.fld (F.NDL_STATUS_MODE n)) then s.rowLost n (s.fld (F.NDL_STATUS_ACT n)) else s
    s.needleFaulted n

/-- NEEDLE_INTERNAL_FAULT (R175): declared at once. -/
def execNeedleInternalFault (n : Nat) (s : State) : Host.Outcome State Fault Refusal := .next (s.internalFault n)

/-- The driving Needle has not latched at its deadline (R174, R175). -/
def State.overrun (s : State) (n a : Nat) : State :=
  let s := s.rowLost n a
  if 2 ≤ s.fld (F.NDL_STATUS_OVR_RUN n) then s.needleFaulted n else s

/-! ### After the deadline (R152) -/

/-- Take what is left of the entries due in this phase. -/
def State.takeEntries (s : State) (n : Nat) : State :=
  (List.range (s.needle n).due).foldl (fun s _ => s.takeEntry n) s

/-- The generator runs in every Row in SEEK (R168 to R170). -/
def State.runGenerator (s : State) (n : Nat) : State :=
  if s.fld (F.NDL_STATUS_MODE n) ≠ 1 then s
  else
    let ls := (s.needle n).limitSet
    let g := generate (s.sfld (F.NDL_SP_POS_POS n)) (s.sfld (F.NDL_SP_VEL_VEL n)) (s.sfld (F.NDL_SP_ACC_ACC n)) (s.goal n)
      (s.sfld (F.NDL_LIM_VMAX_VMAX n ls)) (s.sfld (F.NDL_LIM_AMAX_AMAX n ls)) (s.sfld (F.NDL_LIM_JMAX_JMAX n ls))
      (s.on (F.NDL_CTRL_PROFILE_FALLBACK n))
    let s := ((s.setSfld (F.NDL_SP_POS_POS n) g.p).setSfld (F.NDL_SP_VEL_VEL n) g.v).setSfld (F.NDL_SP_ACC_ACC n) g.a
    let s := s.modNeedle n fun x => { x with jerk := g.jerk }
    let s := if g.sat then s.flag (F.NDL_FLAG_SAT n) else s
    let s := if g.stepped then (s.flag (F.NDL_FLAG_PROFILE_STEP n)).event (6 + n) 5 3 n 0 else s
    if g.p = s.goal n ∧ g.v = 0 ∧ g.a = 0 ∧ s.modeSoFar n = 1 then (s.modNeedle n fun x => { x with arrived := true }).requestMode n 2 else s

/-- Settle and hold counts of the Row (R163, R165); HOLD from missed wedges ends when LOCK has returned. -/
def State.countRow (s : State) (n : Nat) : State :=
  match s.fld (F.NDL_STATUS_MODE n) with
  | 2 =>
    let inside := (s.sfld (F.NDL_ERR_ERR n)).natAbs ≤ s.fld (F.NDL_SETTLE_WIN n)
    s.modNeedle n fun x => { x with settleRun := if inside then x.settleRun + 1 else 0, settleRows := x.settleRows + 1 }
  | 4 =>
    if s.on (F.NDL_STATUS_LOCK n) then
      let s := s.modNeedle n fun x => { x with holdRows := 0 }
      if s.on (F.NDL_STATUS_HOLD_CMD n) || (s.needle n).pendingMode.isSome then s else s.requestMode n 2
    else s.modNeedle n fun x => { x with holdRows := x.holdRows + 1 }
  | _ => s

/-- POS_OK of this Row (R164). -/
def State.posOk (s : State) (n : Nat) : State :=
  let x := s.needle n
  s.setBit (F.NDL_STATUS_POS_OK n)
    (s.fld (F.NDL_STATUS_MODE n) == 3 && x.wedgeValid && x.latched && x.latchedPrev &&
      (s.sfld (F.NDL_ERR_ERR n)).natAbs ≤ s.fld (F.NDL_WRFAULT_THRESH n))

/-- What a driving Needle mirrors (R151). -/
def State.mirrorOf (s : State) (n : Nat) : Mirror :=
  let x := s.needle n
  { states := x.states, prev := x.prev, pos := s.sfld (F.NDL_SP_POS_POS n), vel := s.sfld (F.NDL_SP_VEL_VEL n),
    acc := s.sfld (F.NDL_SP_ACC_ACC n), target := s.sfld (F.NDL_TARGET_TARGET n), limitSet := x.limitSet,
    mode := s.fld (F.NDL_STATUS_MODE n), holdCmd := s.on (F.NDL_STATUS_HOLD_CMD n), settle := x.settleRun,
    offset := s.sfld (F.NDL_OFFSET_OFFSET n), mailbox := x.mailbox }

/-- A Needle that takes a mirror: in STANDBY or SHADOW, or a disabled standby whose DISABLE was written 0, which returns to STANDBY
with it (R151, R180). -/
def State.takesMirror (s : State) (k : Nat) : Bool :=
  let role := s.fld (F.NDL_STATUS_ROLE k)
  role == 2 || role == 3 || (role == 6 && !s.on (F.NDL_CTRL_DISABLE k) && (s.needle k).formerRole == 2)

/-- The mirror goes to those Needles; on a BZ8-S1H only Needle A's. A SHADOW Needle takes its states from the first one of its
actuator (R178). -/
def State.sendMirror (s : State) (n a : Nat) : State :=
  let m := s.mirrorOf n
  if s.isS1H && n != 0 then s
  else
    (List.range 3).foldl (fun s k =>
      if s.takesMirror k then
        let first := s.fld (F.NDL_STATUS_ROLE k) == 3 && s.fld (F.NDL_STATUS_ACT k) == a && (s.needle k).awaitMirror
        let s := s.modNeedle k fun x => { x with mirrors := kput a m x.mirrors }
        let s := if first then s.modNeedle k fun x => { x with states := m.states, prev := m.prev, awaitMirror := false } else s
        if s.fld (F.NDL_STATUS_ROLE k) = 6 then s.setFld (F.NDL_STATUS_ROLE k) 2 else s
      else s) s

/-- The end of the post-deadline phase of Needle n's Row: what is left of the mailbox take, the generator for the next Row, and the
mirror (R151, R152). -/
def State.finishPhase (s : State) (n : Nat) : State :=
  if !(s.needle n).phase then s
  else
    (((s.takeEntries n).runGenerator n).sendMirror n (s.fld (F.NDL_STATUS_ACT n))).modNeedle n fun x =>
      { x with phase := false, due := 0, retractTaken := false }

/-- The phase ends before the next Row (R152). -/
def State.finishPhases (s : State) : State := (List.range 3).foldl State.finishPhase s

/-- The post-deadline phase opens: the entries pushed before the deadline are due in it, at most 4 (R171). -/
def State.openPhase (s : State) (n : Nat) : State :=
  (s.countRow n).modNeedle n fun x => { x with phase := true, due := min 4 x.mailbox.length, doneInputs := x.inputs }

/-- NEEDLE_DEADLINE (R152, R164, R171, R174). -/
def execNeedleDeadline (n : Nat) (s : State) : Host.Outcome State Fault Refusal :=
  let a := s.fld (F.NDL_STATUS_ACT n)
  if s.drives n then
    let s := (s.finishPhase n).predictedRow n a
    let s := s.modNeedle n fun x => { x with closed := true }
    let x := s.needle n
    if s.runsGraph n && !x.latched then
      let s := s.overrun n a
      if s.drives n then .next ((s.modNeedle n fun y => { y with latchedPrev := false }).openPhase n)
      else .next s
    else
      let s := if s.fld (F.NDL_STATUS_MODE n) = 0 then (s.setReg (R.NDL_OUT n) (s.reg (R.NDL_MANUAL n))).driveMa a else s
      let s := (s.posOk n).modNeedle n fun y => { y with latchedPrev := y.latched, latched := false }
      let s := (s.modAct a fun y => { y with overrun := false }).gate a
      .next (s.openPhase n)
  else if s.fld (F.NDL_STATUS_ROLE n) = 3 then
    let s := s.modNeedle n fun x => { x with shadowRows := if x.awaitMirror then 0 else x.shadowRows + 1, latched := false }
    -- 256 Rows of shadowing come before a swap (R455), whose preset then waits for an allowed boundary
    .next (if 256 ≤ (s.needle n).shadowRows then
      (s.modUpd fun u => { u with activation := u.activation.map fun v => { v with ready := true } }).flag (F.NDL_STATUS_TRANSFER_PEND n) else s)
  else .next s

/-! ### Rows that follow a count -/

/-- SETTLE_REACHED (R163): the settle criterion is met. -/
def execSettleReached (n : Nat) (s : State) : Host.Outcome State Fault Refusal :=
  if s.drives n && s.fld (F.NDL_STATUS_MODE n) == 2 && (s.needle n).pendingMode.isNone &&
      max 1 (s.fld (F.NDL_SETTLE_ROWS n)) ≤ (s.needle n).settleRun then .next (s.requestMode n 3) else .next s

/-- SETTLE_TIMEOUT (R165): 512 Rows in SETTLE without the criterion met. -/
def execSettleTimeout (n : Nat) (s : State) : Host.Outcome State Fault Refusal :=
  let x := s.needle n
  if s.drives n && s.fld (F.NDL_STATUS_MODE n) == 2 && 512 ≤ x.settleRows && x.settleRun < max 1 (s.fld (F.NDL_SETTLE_ROWS n)) &&
      x.pendingMode != some 3 && !x.timeoutSeen then
    .next (((s.flag (F.NDL_FLAG_SETTLE_TIMEOUT n)).event (6 + n) 3 3 n 0).modNeedle n fun x => { x with timeoutSeen := true })
  else .next s

/-- MISS_MAX_REACHED (R154): to HOLD, not as commanded. -/
def execMissMaxReached (n : Nat) (s : State) : Host.Outcome State Fault Refusal :=
  let m := s.fld (F.NDL_STATUS_MODE n)
  let soFar := s.modeSoFar n
  if s.drives n && 1 ≤ m && m ≤ 3 && soFar != 4 && soFar != 5 && s.fld (F.NDL_CTRL_MISS_MAX n) ≤ (s.needle n).missRun then
    .next ((s.clr (F.NDL_STATUS_HOLD_CMD n)).requestMode n 4)
  else .next s

/-- HOLD_ROWS_EXPIRED (R163, R194 cause 5). -/
def execHoldRowsExpired (n : Nat) (s : State) : Host.Outcome State Fault Refusal :=
  if s.drives n && s.fld (F.NDL_STATUS_MODE n) == 4 && s.modeSoFar n != 5 &&
      max 1 (s.fld (F.NDL_CTRL_HOLD_ROWS n)) ≤ (s.needle n).holdRows then
    .next ((s.requestMode n 5).eretract (s.fld (F.NDL_STATUS_ACT n)) 5)
  else .next s

/-! ### Takeover (R176, R177) -/

/-- A driving role begins: the credits of its account are 16. -/
def State.loadCredits (s : State) (n held : Nat) : State :=
  ((s.loadClass (Class.creditFree n) (16 - held)).loadClass (Class.creditHeld n) held).creditsReg n

/-- A takeover resource is held by a fault (R363). -/
def State.resourceHeld (s : State) (counter : Fld) : State :=
  ((s.count counter).flag F.DRN_EV_TAKEOVER).smartSet 2

/-- A fault has no takeover resource (R364). -/
def State.uncovered (s : State) : State := (s.flag F.DRN_EV_UNCOVERED).count F.DRN_FAILOVER_UNCOVERED

/-- The account of a Needle that no longer drives goes to the one that takes over, as Ledger transfers posted in this Row (R176). -/
def State.moveCredits (s : State) (n k : Nat) : State :=
  let s := s.transfer (Class.creditFree n) (Class.creditFree k) (s.census (Class.creditFree n))
  ((s.transfer (Class.creditHeld n) (Class.creditHeld k) (s.census (Class.creditHeld n))).creditsReg n).creditsReg k

/-- The credits of a Needle that no longer drives. -/
def State.dropCredits (s : State) (n : Nat) : State :=
  ((s.loadClass (Class.creditFree n) 0).loadClass (Class.creditHeld n) 0).creditsReg n

/-- Needle k takes actuator a over from Needle n, from its mirror and states: after a fault in SETTLE where it followed, or in a
microcode swap keeping the mode, whose Row counts as latched on time if n did latch it (R176, R178). A mirrored SETTLE goes on with
its settle count. -/
def State.standIn (s : State) (n k a : Nat) (swap onTime : Bool) : State :=
  let x := s.needle n
  let m := s.fld (F.NDL_STATUS_MODE n)
  let m' := if m = 3 && !swap then 2 else m
  let vcm := s.sfld (F.NDL_OUT_VCM n)
  let ma := s.sfld (F.NDL_OUT_MA n)
  let r := if graphRuns m' then s.trialPass k a m' x.prev x.states x.doneInputs vcm ma else (x.states, s)
  let s := r.2
  let copy (f : Nat → Fld) (s : State) : State := s.setFld (f k) (s.fld (f n))
  let s := copy F.NDL_SP_ACC_ACC (copy F.NDL_SP_VEL_VEL (copy F.NDL_SP_POS_POS (copy F.NDL_TARGET_TARGET
    (copy F.NDL_OFFSET_OFFSET (copy F.NDL_POSITION_POS (copy F.NDL_ERR_ERR (copy F.NDL_OUT_VCM (copy F.NDL_OUT_MA
    (copy F.NDL_STATUS_LOCK (copy F.NDL_STATUS_HOLD_CMD s))))))))))
  let s := (s.setReg (R.NDL_MANUAL k) (s.reg (R.NDL_MANUAL n))).setReg (R.NDL_GRAPH k) (s.reg (R.NDL_GRAPH n))
  let s := (s.setFld (F.NDL_STATUS_ROLE k) (if swap then 1 else 4)).setFld (F.NDL_STATUS_ACT k) a
  let s := if swap then copy F.NDL_STATUS_POS_OK s else s
  let s := s.modNeedle k fun y =>
    { x with fresh := y.fresh, mirrors := y.mirrors, formerRole := 2, formerAct := 3,
             takeover := false, disabled := false, halted := y.halted, states := r.1, prev := x.states, pendingMode := none, latched := false,
             awaitMirror := false, phase := false, due := 0, retractTaken := false, latchedPrev := onTime, closed := true, bumpFrom := if graphRuns m' then some (vcm, ma) else none }
  let s := (s.clr (F.NDL_STATUS_OVR_RUN k)).clr (F.NDL_STATUS_TRANSFER_PEND k)
  let s := if swap || m == 2 then s.setFld (F.NDL_STATUS_MODE k) m' else s.enterMode k m'
  (s.moveCredits n k).modNeedle n fun y => { y with takeover := false, mailbox := [] }

/-- A SHADOW standby returns to the microcode it kept (R36, R176). -/
def State.keepBank (s : State) (k : Nat) : State :=
  let s := s.setFld (F.NDL_STATUS_BANK k) (1 - s.fld (F.NDL_STATUS_BANK k))
  (((s.setFld (F.NDL_UCODE_LEVEL_CUR k) (s.fld (F.NDL_UCODE_LEVEL_ALT k))).setFld (F.NDL_UCODE_LEVEL_ALT k)
    (s.fld (F.NDL_UCODE_LEVEL_CUR k))).clr (F.NDL_STATUS_TRANSFER_PEND k)).modNeedle k fun x =>
      { x with fresh := false, shadowRows := 0, awaitMirror := false }

/-- No takeover resource is left: emergency retract (R177, R364). -/
def State.needleUncovered (s : State) (n a : Nat) : State :=
  let s := ((s.modNeedle n fun x => { x with takeover := false, mailbox := [] }).dropCredits n).uncovered
  (((s.enterMode n 5).eretract a 5).setFld (F.NDL_STATUS_ACT n) 3).gate a

/-- Needle `own`, in SHADOW, takes its actuator back from k on its current microcode (R179); a Row that k has not latched is none
that POS_OK counts (R164). -/
def State.takeBack (s : State) (k own a : Nat) : State :=
  let onTime := s.fld (F.NDL_STATUS_ROLE k) != 5
  ((s.keepBank own).standIn k own a true onTime).setFld (F.NDL_STATUS_ACT k) 3

/-- Needle n has failed while the standby k drives actuator a in a microcode swap (R179). -/
def State.swapFault (s : State) (n k a : Nat) : State :=
  let s := (s.abortActivation 0x0E).noteFault
  let own := (s.ownNeedle a).getD 3
  let backed := s.fld (F.NDL_STATUS_ROLE own) == 3
  if n = own then
    -- the standby stays, on its old microcode bank
    let x := s.needle k
    let r := if s.runsGraph k then
        s.trialPass k a (s.fld (F.NDL_STATUS_MODE k)) x.prev x.states x.doneInputs (s.sfld (F.NDL_OUT_VCM k)) (s.sfld (F.NDL_OUT_MA k))
      else (x.states, s)
    let last := (s.sfld (F.NDL_OUT_VCM k), s.sfld (F.NDL_OUT_MA k))
    let bump := if s.runsGraph k then some last else none
    let s := (r.2.keepBank k).modNeedle k fun y => { y with states := r.1, bumpFrom := bump }
    let s := s.modNeedle n fun y => { y with takeover := false }
    ((s.setFld (F.NDL_STATUS_ROLE k) 4).setFld (F.NDL_STATUS_ACT n) 3).resourceHeld F.DRN_FAILOVER_NEEDLE
  else if n = k then
    if backed then ((s.takeBack k own a).resourceHeld F.DRN_FAILOVER_NEEDLE).gate a else s.needleUncovered k a
  else
    let b := (s.needle n).formerAct
    if backed then
      let s := ((s.takeBack k own a).keepBank k).setFld (F.NDL_STATUS_ROLE k) 2
      let s := (s.standIn n k b false false).resourceHeld F.DRN_FAILOVER_NEEDLE
      ((s.setFld (F.NDL_STATUS_ACT n) 3).gate a).gate b
    else s.needleUncovered n b

/-- SWAP_FAULT_ABORT (R179): Needle n fails while a microcode swap has the standby drive; while the standby is in SHADOW, R176
and R36 hold. -/
def execSwapFaultAbort (n : Nat) (s : State) : Host.Outcome State Fault Refusal :=
  let shadowing := (List.range 3).any fun k => s.fld (F.NDL_STATUS_ROLE k) == 3
  match s.swappedIn with
  | some (k, a) =>
    let s := s.internalFault n
    if s.fld (F.NDL_STATUS_ROLE n) = 5 then .next (s.swapFault n k a) else .next s
  | none => if shadowing then .next (s.internalFault n) else .next s

/-- NEEDLE_TAKEOVER (R176, R177, R179): at the boundary behind the fault. -/
def execNeedleTakeover (n : Nat) (s : State) : Host.Outcome State Fault Refusal :=
  if !(s.needle n).takeover then .next s
  else if let some (k, a) := s.swappedIn then .next (s.swapFault n k a)
  else
    let a := (s.needle n).formerAct
    let stood := (s.needle n).formerRole == 4
    let s := s.noteFault
    match (if stood then none else s.standby) with
    | some k =>
      let s := if s.fld (F.NDL_STATUS_ROLE k) = 3 then (s.abortActivation 0x0E).keepBank k else s
      let s := (s.standIn n k a false false).resourceHeld F.DRN_FAILOVER_NEEDLE
      .next ((s.setFld (F.NDL_STATUS_ACT n) 3).gate a)
    | none => .next (s.needleUncovered n a)

/-! ### Disabling (R180) -/

/-- NDL_DISABLE (R180). -/
def execNdlDisable (n : Nat) (disable : Bool) (s : State) : Host.Outcome State Fault Refusal :=
  if !s.hasNeedle n then .next s
  else if disable then
    let role := s.fld (F.NDL_STATUS_ROLE n)
    if s.drives n && s.headsLoaded (s.fld (F.NDL_STATUS_ACT n)) then .next (s.flag (F.NDL_FLAG_DISABLE_REFUSED n))
    else
      let s := s.flag (F.NDL_CTRL_DISABLE n)
      if role = 0 ∨ role = 5 ∨ role = 6 then .next s
      else
        let s := if role = 3 then (s.abortActivation 0x0E).keepBank n else s
        let a := s.fld (F.NDL_STATUS_ACT n)
        let s := s.modNeedle n fun x => { x with disabled := true, formerRole := if role = 3 then 2 else role, formerAct := a }
        let s := if role = 1 ∨ role = 4 then s.dropCredits n else s
        .next (((s.setFld (F.NDL_STATUS_ROLE n) 6).clr (F.NDL_STATUS_POS_OK n)).gates)
  else
    let s := s.clr (F.NDL_CTRL_DISABLE n)
    let x := s.needle n
    if s.fld (F.NDL_STATUS_ROLE n) = 6 ∧ (x.formerRole = 1 ∨ x.formerRole = 4) then
      let s := (s.setFld (F.NDL_STATUS_ROLE n) x.formerRole).modNeedle n fun y => { y with disabled := false, mailbox := [], closed := true }
      .next ((s.loadCredits n 0).gates)
    else .next (s.modNeedle n fun y => { y with disabled := false })

end Sys2Proof.Machine
end

