-- ==== Sys2Proof/Machine/Spindle.lean ====
section
/-!
DEFINITION. Sys2Proof/Machine/Spindle.lean: the spindle engine of chapter 6: commands, the current loop, speed and its
uncertainty, write safety, start, HOLD, COAST and BRAKE (R126 to R149). Speeds are in 0.01 rpm, angles in 1/65,536 of an
electrical turn, currents in mA, voltages in mV.
-/

namespace Sys2Proof.Machine

/-! ### States -/

def Spn.stopped : Nat := 0
def Spn.align : Nat := 1
def Spn.accel : Nat := 2
def Spn.run : Nat := 3
def Spn.hold : Nat := 4
def Spn.coast : Nat := 5
def Spn.brake : Nat := 6
def Spn.catchState : Nat := 7
def Spn.locked : Nat := 8

/-- STATE. -/
def State.spnState (s : State) : Nat := s.fld F.SPN_STATUS_STATE

/-- The rated speed. -/
def State.ratedSpeed (s : State) : Nat := s.pattern.active.geometry.rpm * 100

/-- A speed in thousandths of rated, for the thresholds of R142 and R147. -/
def State.permille (s : State) (speed : Nat) : Nat := if s.ratedSpeed = 0 then 0 else speed * 1000 / s.ratedSpeed

/-- The measured speed lies within a tolerance of rated, in 0.01 %. -/
def State.speedWithin (s : State) (tol : Nat) : Bool :=
  let v := s.fld F.SPN_SPEED_RPM_X100
  !s.on F.SPN_SPEED_REVERSE && (max v s.ratedSpeed - min v s.ratedSpeed) * 10000 ≤ tol * s.ratedSpeed

/-- WRITE_OK and the write-unsafe stop (R138). -/
def State.evalWriteOk (s : State) : State :=
  let st := s.spnState
  let ok := (st == Spn.run || st == Spn.hold) && s.fld F.SPN_UNC_UNC ≤ 500 && s.speedWithin (s.fld F.SPN_CTRL_WR_TOL)
  let was := s.on F.SPN_STATUS_WRITE_OK
  -- the stop is asserted when WRITE_OK falls, until WRITE_OK is 1 again
  let s := (s.setBit F.SPN_STATUS_WRITE_OK ok).modSpn fun x => { x with writeStop := !ok && (was || x.writeStop) }
  let s := if was && !ok then (s.flag F.SPN_EV_WRITE_INHIBIT).event 5 1 4 0 st else s
  s.gates

/-- The d-axis reference, and FW_ACTIVE with it (R137). -/
def State.setIdRef (s : State) (i : Int) : State :=
  (s.modSpn fun x => { x with idRef := i }).setBit F.SPN_STATUS_FW_ACTIVE (decide (i < 0))

/-- The bridge opens once all three currents are below 50 mA, and the low-side zero vector is applied until then (R131). -/
def State.openBridge (s : State) : State :=
  let small := s.spn.iu.natAbs < 50 && s.spn.iv.natAbs < 50 && s.spn.iw.natAbs < 50
  s.modSpn fun x => { x with driving := !small, zeroVector := !small, va := 0, vb := 0, duties := [0, 0, 0], floating := none, quiet := none }

/-- Drive off under R131. The speed controller stays frozen as it is (R136). -/
def State.driveOff (s : State) : State :=
  (s.openBridge.setIdRef 0).modSpn fun x => { x with intD := 0, intQ := 0, cut := 0 }

/-- Enter a state; leaving RUN abandons a calibration of a head (R437). -/
def State.toSpn (s : State) (st : Nat) : State :=
  let left := s.spnState == Spn.run && st != Spn.run
  let s := (s.setFld F.SPN_STATUS_STATE st).evalWriteOk
  if left then s.abandonIf fun c => 4 ≤ c.kind && c.kind ≤ 6 else s

/-- Speed without a source (R135). -/
def State.noSpeed (s : State) : State := (s.setFld F.SPN_SPEED_SOURCE 3).setFld F.SPN_UNC_UNC 0xFFFF

/-- To STOPPED. -/
def State.spnStopped (s : State) : State := (s.driveOff.noSpeed.clr F.SPN_STATUS_START_PEND).toSpn Spn.stopped

/-- To CATCH: the phases float and the measurement begins (R142). RETRY returns to 0 here and on entry to RUN: R144 does not say
when it does (DESIGN CHOICE, assumption log 102). -/
def State.spnCatch (s : State) : State :=
  let s := (s.driveOff.noSpeed.clr F.SPN_STATUS_RETRY).clr F.SPN_STATUS_OBS_LOCK
  let s := ((s.clr F.SPN_SPEED_RPM_X100).clr F.SPN_SPEED_REVERSE).clr F.SPN_STATUS_START_PEND
  (s.modSpn fun x =>
    { x with measurements := 0, catching := false, catchAngle := 0, closedLoop := false, residOk := 0, residBad := 0, rock := 0 }).toSpn Spn.catchState

/-- To BRAKE with a target in thousandths of rated. -/
def State.spnBrake (s : State) (target : Nat) (pend : Bool) : State :=
  ((s.modSpn fun x => { x with driving := true, zeroVector := true, va := 0, vb := 0, brakeTarget := target, belowPs := 0, generator := false }).setBit
    F.SPN_STATUS_START_PEND pend).toSpn Spn.brake

/-- To ALIGN; `rock` as the Spindle structure codes it. -/
def State.spnAlign (s : State) (rock : Nat) : State :=
  ((s.noSpeed.clr F.SPN_STATUS_START_PEND).modSpn fun x =>
    { x with driving := true, zeroVector := false, rock := rock, alignPs := 0, closedLoop := false, forced := 0, forcedHz := 0, cut := 0 }).toSpn Spn.align

/-- To COAST with a cause (R147). -/
def State.spnCoast (s : State) (cause : Nat) : State :=
  let s := s.driveOff.flag F.SPN_EV_COAST_ENTRY
  let s := if cause = 1 then (s.count F.SPN_COUNTS_COAST_COUNT).event 5 5 5 0 1 else s
  ((s.setFld F.SPN_STATUS_COAST_CAUSE cause).clr F.SPN_STATUS_START_PEND).toSpn Spn.coast

/-- To LOCKED with a cause: the write-unsafe stop, and emergency retract of both actuators (R140, R194 cause 4). -/
def State.spnLocked (s : State) (cause : Nat) : State :=
  let s := s.modSpn fun x => { x with writeStop := true }
  let s := ((s.driveOff.setFld F.SPN_STATUS_LOCK_CAUSE cause).flag F.SPN_EV_LOCKED).count F.SPN_COUNTS_LOCKED_COUNT
  ((s.event 5 4 6 0 cause).toSpn Spn.locked).eretractBoth 4

/-- To HOLD on observer loss (R140, R145). -/
def State.spnHold (s : State) : State :=
  let mode := !(s.anyLoaded && s.on F.SPN_STATUS_SERVO_VALID)
  let s := (s.flag F.SPN_EV_OBS_LOST).flag F.SPN_EV_HOLD_ENTRY
  let s := ((s.count F.SPN_COUNTS_HOLD_COUNT).setBit F.SPN_STATUS_HOLD_MODE mode).modSpn fun x =>
    { x with holdAngle := 0, holdBase := s.fld F.SPN_ANGLE_OBS, holdSince := 0, crossOk := 0, crossLow := 0, crossRecent := [] }
  s.toSpn Spn.hold

/-! ### Commands (R127, R139, R141) -/

/-- A parameter of R127 is unset. -/
def State.motorUnset (s : State) : Bool :=
  !s.on F.SPN_MOTOR_0_R_MOHM || !s.on F.SPN_MOTOR_0_L_UH10 || !s.on F.SPN_MOTOR_1_PSI_UWB

/-- COAST for bind-off or reset. -/
def State.coastForced (s : State) : Bool := s.spnState == Spn.coast && 2 ≤ s.fld F.SPN_STATUS_COAST_CAUSE

/-- The refusal code of a write of SPN_CMD: the first of 4, 3, 2, 1, 5 that applies, else 0. Bits 0 START, 1 STOP, 2 COAST,
3 CLEAR. -/
def State.spnRefusal (s : State) (cmd : Nat) : Nat :=
  if cmd ≠ 1 ∧ cmd ≠ 2 ∧ cmd ≠ 4 ∧ cmd ≠ 8 ∧ cmd ≠ 0 then 4
  else if s.coastForced ∧ cmd ≠ 0 then 3
  else if s.spnState = Spn.locked ∧ (cmd = 1 ∨ cmd = 2 ∨ cmd = 4) then 2
  else if (cmd = 2 ∨ cmd = 4) ∧ s.anyLoaded then 1
  else if cmd = 1 ∧ s.motorUnset then 5
  else 0

/-- What an accepted command does. -/
def State.spnEffect (s : State) (cmd : Nat) : State :=
  let st := s.spnState
  let pend := s.on F.SPN_STATUS_START_PEND
  match cmd with
  | 1 =>
    -- under the ROM Pattern the spindle stays stopped (R56): the command has no effect (assumption log 93)
    if s.fld F.PAT_STATUS_STATE = 3 then s
    else if st = Spn.stopped ∨ st = Spn.coast ∨ (st = Spn.brake ∧ !pend) then s.spnCatch else s
  | 2 =>
    if st = Spn.align ∨ st = Spn.accel ∨ st = Spn.catchState ∨ st = Spn.run ∨ st = Spn.hold ∨ st = Spn.coast then
      s.spnBrake 3 false
    else if st = Spn.brake then s.clr F.SPN_STATUS_START_PEND
    else s
  | 4 =>
    if st = Spn.stopped ∨ st = Spn.coast then s
    else s.spnCoast 0
  -- LOCK_CAUSE goes back to 0: R149 does not say whether it stays (DESIGN CHOICE, assumption log 103)
  | 8 => if st = Spn.locked then (s.clr F.SPN_STATUS_LOCK_CAUSE).spnStopped else s
  | _ => s

/-- A write of SPN_CMD. -/
def State.spnCommand (s : State) (cmd : Nat) : State :=
  let code := s.spnRefusal cmd
  let s := s.setFld F.SPN_STATUS_CMD_ERR code
  if code = 0 then s.spnEffect cmd else s.flag F.SPN_EV_CMD_REFUSED

/-- SPN_START (R141, R127). -/
def execSpnStart (s : State) : Host.Outcome State Fault Refusal := .next (s.spnCommand 1)

/-- SPN_STOP (R141, R139). -/
def execSpnStop (s : State) : Host.Outcome State Fault Refusal := .next (s.spnCommand 2)

/-- SPN_COAST (R141, R139). -/
def execSpnCoast (s : State) : Host.Outcome State Fault Refusal := .next (s.spnCommand 4)

/-- SPN_CLEAR (R141). -/
def execSpnClear (s : State) : Host.Outcome State Fault Refusal := .next (s.spnCommand 8)

/-! ### Speed (R133 to R136) -/

/-- The spread of some values in 0.001 % of their mean. -/
def spread (l : List Nat) : Nat :=
  match l with
  | [] => 0xFFFF
  | x :: rest =>
    let hi := rest.foldl max x
    let lo := rest.foldl min x
    let sum := l.foldl (· + ·) 0
    if sum = 0 then 0xFFFF else min 0xFFFF ((hi - lo) * l.length * 100000 / sum)

/-- The raw servo angle of a Row at its wedge instant: without OFS. -/
def State.rawServo (s : State) (index : Nat) : Nat :=
  4 * 65536 * index / max 1 s.pattern.active.geometry.wedges % 65536

/-- Electrical units the rotor turns in a time in ps at a speed in 0.01 rpm. -/
def turned (speed : Int) (ps : Nat) : Int := 4 * 65536 * speed * ps / (6000 * 10 ^ 12)

/-- The servo speed: one wedge spacing per Row. -/
def State.servoSpeed (s : State) : Nat :=
  let p := s.fld F.ROWT_PERIOD_PERIOD_PS * s.pattern.active.geometry.wedges
  if p = 0 then 0 else (6000 * 10 ^ 12 + p / 2) / p

/-- The first 16 of a list with a new value in front. -/
def recent16 {α : Type} (x : α) (l : List α) : List α := (x :: l).take 16

/-- The servo angle of the Row (R133) at its boundary, which stands for the wedge instant: the time term begins at 0 and grows in
the runs of the Row. The observer is corrected by an eighth of the difference; in HOLD mode 0 it is seeded from the servo angle
(R145). -/
def State.servoAngle (s : State) (source index : Nat) : State :=
  let valid := (source == 1 || source == 2) && s.on F.SPN_SERVO_OFS_VALID
  let s := s.setBit F.SPN_STATUS_SERVO_VALID valid
  if !valid then s.clr F.SPN_ANGLE_SERVO
  else
    let a := (s.rawServo index + s.fld F.SPN_SERVO_OFS_OFS) % 65536
    let obs := s.fld F.SPN_ANGLE_OBS
    let s := s.setFld F.SPN_ANGLE_SERVO a
    if s.spnState = Spn.hold ∧ !s.on F.SPN_STATUS_HOLD_MODE then
      (s.setFld F.SPN_ANGLE_OBS a).modSpn fun x => { x with obsSpeed := x.reliableRpm }
    else s.setFld F.SPN_ANGLE_OBS (toAngle ((obs : Int) + angleDiff a obs / 8))

/-- The speed of the float windows: 24 crossings to a mechanical turn, 60 s / (24 × interval). -/
def State.crossSpeed (s : State) : Nat :=
  match s.spn.crossRecent with
  | [] => s.spn.reliableRpm
  | l => (6000 * 10 ^ 9 / 24) * l.length / max 1 (l.foldl (· + ·) 0)

/-- Speed and uncertainty from the best source of the Row (R135). In HOLD before a relock the speed is that of the last reliable
estimate; in mode 0 SOURCE stays that of the servo, since float windows are a source in mode 1 only (DEDUCED, assumption
log 104). -/
def State.measureSpeed (s : State) (source : Nat) : State :=
  let st := s.spnState
  let observing := st = Spn.accel ∨ st = Spn.run ∨ st = Spn.hold ∨ st = Spn.brake
  if source = 1 ∧ s.anyLoaded ∧ observing then
    let unc := max 1 (spread s.spn.rowRecent)
    let v := s.servoSpeed
    let s := (((s.setFld F.SPN_SPEED_RPM_X100 v).clr F.SPN_SPEED_REVERSE).clr F.SPN_SPEED_SOURCE).setFld F.SPN_UNC_UNC unc
    s.modSpn fun x => { x with reliableUnc := unc, reliableRpm := v, uncAngle := 0 }
  else if s.on F.SPN_STATUS_OBS_LOCK ∧ st ≠ Spn.hold ∧ observing then
    let v := s.spn.obsSpeed
    let unc := spread (s.spn.obsRecent.map Int.natAbs)
    let s := (((s.setFld F.SPN_SPEED_RPM_X100 v.natAbs).setBit F.SPN_SPEED_REVERSE (decide (v < 0))).setFld F.SPN_SPEED_SOURCE 1).setFld
      F.SPN_UNC_UNC unc
    s.modSpn fun x => { x with reliableUnc := unc, reliableRpm := v.natAbs, uncAngle := 0 }
  else if st = Spn.hold then
    let mode1 := s.on F.SPN_STATUS_HOLD_MODE
    let unc := min 0xFFFF (s.spn.reliableUnc + 20 * s.spn.uncAngle / 65536)
    ((s.setFld F.SPN_SPEED_RPM_X100 (if mode1 then s.crossSpeed else s.spn.reliableRpm)).setFld F.SPN_SPEED_SOURCE
      (if mode1 then 2 else 0)).setFld F.SPN_UNC_UNC unc
  else s.noSpeed

/-- The clamp of the q reference (R136, R137). -/
def State.iqLimit (s : State) : Int := isqrt ((s.fld F.SPN_ILIM_PHASE_MA) ^ 2 - s.spn.idRef.natAbs ^ 2)

/-- Rated less measured speed, in 0.01 rpm. -/
def State.speedError (s : State) : Int :=
  (s.ratedSpeed : Int) - (if s.on F.SPN_SPEED_REVERSE then -(s.fld F.SPN_SPEED_RPM_X100 : Int) else s.fld F.SPN_SPEED_RPM_X100)

/-- What the speed controller demands with an integrator (R136): gains in mA per rpm. -/
def State.speedDemand (s : State) (i : Int) : Int :=
  clampInt (-s.iqLimit) s.iqLimit (roundShift 12 (roundDiv (s.speedError * s.fld F.SPN_SPEED_PI_KP) 100 + i))

/-- The speed controller, once per Row in RUN and HOLD; elsewhere it is frozen (R136). -/
def State.speedControl (s : State) : State :=
  let st := s.spnState
  if st ≠ Spn.run ∧ st ≠ Spn.hold then s
  else
    let lim := s.iqLimit * 2 ^ 12
    let i := clampInt (-lim) lim (s.spn.intSpeed + roundDiv (s.speedError * s.fld F.SPN_SPEED_PI_KI) 100)
    s.modSpn fun x => { x with intSpeed := i, iqRef := s.speedDemand i }

/-- HOLD changes its mode with the validity of the servo angle, and its angles run on (R145). -/
def State.holdRow (s : State) (ps : Nat) : State :=
  if s.spnState ≠ Spn.hold then s
  else
    let t := (turned s.spn.reliableRpm ps).toNat
    let s := s.setBit F.SPN_STATUS_HOLD_MODE (!(s.anyLoaded && s.on F.SPN_STATUS_SERVO_VALID))
    -- the rotating vector of mode 1 starts from the last angle of mode 0
    let mode1 := s.on F.SPN_STATUS_HOLD_MODE
    let base := s.fld F.SPN_ANGLE_SERVO
    s.modSpn fun x =>
      { x with holdAngle := x.holdAngle + t, uncAngle := x.uncAngle + t, holdSince := if mode1 then x.holdSince + t else 0,
               holdBase := if mode1 then x.holdBase else base }

/-- The offset average of R134: 4,096 Rows in RUN with a servo angle and the observer locked. -/
def State.offsetRow (s : State) (source index : Nat) : State :=
  if s.spnState = Spn.run ∧ s.on F.SPN_STATUS_OBS_LOCK ∧ (source = 1 ∨ source = 2) then
    s.modSpn fun x => { x with ofsSum := x.ofsSum + angleDiff (s.fld F.SPN_ANGLE_OBS) (s.rawServo index), ofsRows := x.ofsRows + 1 }
  else s

/-- The heads are off the media after a HOLD timeout: to CATCH with AUTO_CATCH (R147). -/
def State.coastCatch (s : State) : State :=
  if s.spnState = Spn.coast ∧ s.fld F.SPN_STATUS_COAST_CAUSE = 1 ∧ !s.anyLoaded ∧ s.on F.SPN_CTRL_AUTO_CATCH then s.spnCatch else s

/-- The spindle engine at a Row boundary: its source, the index of the wedge that the boundary stands for, the length of the Row
that ended. -/
def State.spindleRow (s : State) (source index ps : Nat) : State :=
  let s := s.modSpn fun x => { x with runInRow := 0 }
  let s := if source = 1 then s.modSpn fun x => { x with rowRecent := recent16 (s.fld F.ROWT_PERIOD_PERIOD_PS) x.rowRecent } else s
  let s := s.offsetRow source index
  let s := ((s.servoAngle source index).holdRow ps).measureSpeed source
  let s := s.modSpn fun x => { x with bandRows := if s.speedWithin 10 then x.bandRows + 1 else 0,
                                      catchAngle := if x.catching then x.catchAngle + (turned x.reliableRpm ps).toNat else x.catchAngle }
  s.speedControl.coastCatch

/-! ### The current loop (R129 to R132, R137, R148) -/

/-- Time from one run of the current loop to the next, in ps: a quarter of ROWT_PERIOD, or of ROWT_IDLE_PERIOD in IDLE (R129). -/
def State.runPs (s : State) : Nat :=
  (if s.fld F.ROWT_STATUS_SOURCE = 0 then s.fld F.ROWT_IDLE_PERIOD_PERIOD_PS else s.fld F.ROWT_PERIOD_PERIOD_PS) / 4

/-- The amplitude-invariant Clarke transform of the phase currents, in mA (R130). -/
def clarke (iu iv iw : Int) : Int × Int := (roundDiv (2 * iu - iv - iw) 3, roundShift 15 ((iv - iw) * 18919))

/-- The Park transform of a vector at an angle: d and q components (R130). -/
def State.park (s : State) (angle : Nat) (v : Int × Int) : Int × Int :=
  let c := s.cosine angle
  let n := s.sine angle
  (roundShift 15 (v.1 * c + v.2 * n), roundShift 15 (v.2 * c - v.1 * n))

/-- A d and q vector turned back to the phases' plane. -/
def State.unpark (s : State) (angle : Nat) (v : Int × Int) : Int × Int :=
  let c := s.cosine angle
  let n := s.sine angle
  (roundShift 15 (v.1 * c - v.2 * n), roundShift 15 (v.1 * n + v.2 * c))

/-- Phase duties of a voltage vector in counts of the up-down counter, 0 to 1,389 (R129). The midpoint of the three is centred, so
that a vector of VIN_12 / √3 can be applied: how the duties share the zero sequence is not stated (DESIGN CHOICE, assumption
log 105). -/
def pwmDuties (vin : Nat) (v : Int × Int) : List Nat :=
  let r := roundShift 16 (v.2 * 56756)
  let p := [v.1, r - roundDiv v.1 2, -r - roundDiv v.1 2]
  let hi := p.foldl max v.1
  let lo := p.foldl min v.1
  p.map fun x => (clampInt 0 1389 (roundDiv ((2 * x - hi - lo + vin) * 1389) (2 * max 1 vin))).toNat

/-- Time from a run to the centre of the half-period in which its result applies (R130): the result is ready after 0.5 µs, and the
next counter peak or valley, 3.4725 µs apart, loads it (R129). Peaks and valleys are counted from the start of the timebase, since
the spec gives the counter no phase (DESIGN CHOICE, assumption log 105). -/
def State.toCentre (s : State) (ps : Nat) : Nat :=
  let ready := s.row.last + s.spn.runInRow * ps + 500000
  (ready / 3472500 + 1) * 3472500 + 1736250 - ready + 500000

/-- Winding and stage resistance in mΩ (R127). -/
def State.motorR (s : State) : Nat := s.fld F.SPN_MOTOR_0_R_MOHM + s.spn.stage

/-- Peak phase back-EMF at a speed in 0.01 rpm, in mV: PSI in µWb times the electrical speed, 4 pole pairs. -/
def State.emfAt (s : State) (speed : Nat) : Nat := s.fld F.SPN_MOTOR_1_PSI_UWB * (speed * 4 * 6283 / 6000) / 10 ^ 6

/-- The speed, in 0.01 rpm, of a line-to-line back-EMF amplitude in mV (R142). -/
def State.speedOfEmf (s : State) (amplitude : Nat) : Nat :=
  let phase := amplitude * 18919 / 32768
  phase * 6000 * 10 ^ 6 / max 1 (s.fld F.SPN_MOTOR_1_PSI_UWB * 4 * 6283)

/-- The estimated back-EMF vector of a run, in mV (R132): the applied voltage less the drops in R and, over the run, in L. -/
def State.backEmf (s : State) (ps : Nat) (i : Int × Int) : Int × Int :=
  let l : Int := s.fld F.SPN_MOTOR_0_L_UH10
  let drop (v now before : Int) : Int := v - roundDiv (s.motorR * now) 1000 - roundDiv (l * (now - before) * 10 ^ 5) (max 1 ps)
  (drop s.spn.va i.1 s.spn.ia, drop s.spn.vb i.2 s.spn.ib)

/-- The 60° sector between zero crossings of the phase back-EMFs that an angle of their vector lies in. -/
def emfSector (angle : Nat) : Nat := (angle + 5461) % 65536 * 6 / 65536

/-- The observer in one run (R132): the phase-locked loop, lock and loss, commutation events (R144). In HOLD mode 1 only the float
windows find the rotor again (R145). -/
def State.observe (s : State) (ps : Nat) (i : Int × Int) : State :=
  let e := s.backEmf ps i
  let emf := vectorAngle e.1 e.2
  -- the back-EMF leads the rotor by 90° forward, and lags it backward
  let rotor := toAngle ((emf : Int) - (if s.spn.obsSpeed < 0 then -16384 else 16384))
  let ahead := toAngle ((s.fld F.SPN_ANGLE_OBS : Int) + turned s.spn.obsSpeed ps)
  let resid := angleDiff rotor ahead
  let angle := toAngle ((ahead : Int) + Config.pllAngle resid)
  let speed := s.spn.obsSpeed + Config.pllSpeed resid
  let float := s.spnState == Spn.hold && s.on F.SPN_STATUS_HOLD_MODE
  let ok := if resid.natAbs ≤ 1820 && !float then s.spn.residOk + 1 else 0
  let bad := if 5461 < resid.natAbs then s.spn.residBad + 1 else 0
  let servo : Int := s.servoSpeed
  let off := s.on F.SPN_STATUS_SERVO_VALID && decide (servo * 2 < 100 * ((speed - servo).natAbs : Int))
  let sp := if off then s.spn.speedBad + 1 else 0
  let inRamp := s.spnState == Spn.accel && !s.spn.closedLoop
  let crossing := emfSector emf != emfSector s.spn.emfAngle && decide (0 < angleDiff emf s.spn.emfAngle)
  let counts := crossing && (!inRamp || decide ((angleDiff angle s.spn.forced).natAbs ≤ 5461))
  let s := s.modSpn fun x =>
    { x with residOk := ok, residBad := bad, speedBad := sp, obsSpeed := speed, obsRecent := recent16 speed x.obsRecent, emfAngle := emf,
             ia := i.1, ib := i.2, sinceEvent := if counts then 0 else x.sinceEvent + ps, eventInWindow := x.eventInWindow || counts }
  let s := s.setFld F.SPN_ANGLE_OBS angle
  if 4 ≤ bad ∨ 4 ≤ sp then s.clr F.SPN_STATUS_OBS_LOCK
  else if 64 ≤ ok then s.flag F.SPN_STATUS_OBS_LOCK
  else s

/-- The estimated angle that commutates in this run, and the speed that it turns at. ALIGN on a retry rocks for 25 ms along one
angle and 25 ms along the opposite one before the current along angle 0 (R144). -/
def State.driveAngle (s : State) (ps : Nat) : Nat × Int :=
  let x := s.spn
  let inRow := x.runInRow * ps
  match s.spnState with
  | 1 =>
    let first := if x.rock = 1 then 49152 else 16384
    (if x.rock = 0 ∨ 50 * 10 ^ 9 ≤ x.alignPs then 0 else if x.alignPs < 25 * 10 ^ 9 then first else 65536 - first, 0)
  | 2 => if x.closedLoop then (s.fld F.SPN_ANGLE_OBS, x.obsSpeed) else (x.forced, (x.forcedHz * 1500 / 10 ^ 12 : Nat))
  | 4 =>
    if s.on F.SPN_STATUS_HOLD_MODE then (toAngle ((x.holdBase + x.holdSince : Nat) + turned x.reliableRpm inRow), x.reliableRpm)
    else (toAngle ((s.fld F.SPN_ANGLE_SERVO : Int) + turned x.reliableRpm inRow), x.reliableRpm)
  | _ => (s.fld F.SPN_ANGLE_OBS, x.obsSpeed)

/-- The phase current limit under R97. -/
def State.phaseLimit (s : State) : Int := s.fld F.SPN_ILIM_PHASE_MA - min s.spn.cut (s.fld F.SPN_ILIM_PHASE_MA)

/-- The braking references of R148: none while the low-side zero vector is applied. -/
def State.brakeRefs (s : State) (speed : Int) : Option (Int × Int) :=
  -- ω_e in 0.001 rad/s: 4 pole pairs, 2π / 60; R in mΩ, L in 0.1 µH, PSI in µWb
  let we : Nat := speed.natAbs * 4 * 6283 / 6000
  let r : Nat := s.motorR
  let x : Nat := we * s.fld F.SPN_MOTOR_0_L_UH10 / 10 ^ 7
  let emf : Nat := s.emfAt speed.natAbs
  let lim : Nat := s.fld F.SPN_ILIM_BRAKE_MA
  if emf * 1000 ≤ lim * isqrt (r ^ 2 + x ^ 2) then none
  else
    let iq := min lim (r * lim ^ 2 / max 1 (emf * 1000))
    some (-(isqrt (lim ^ 2 - iq ^ 2) : Nat), -(iq : Nat))

/-- The references of a run: d and q; none for the low-side zero vector, which backflow toward VIN_12 calls for in BRAKE (R148). -/
def State.loopRefs (s : State) (obs : LoopObs) : Option (Int × Int) :=
  match s.spnState with
  | 1 => some (s.phaseLimit, 0)
  | 2 => if s.spn.closedLoop then some (s.spn.idRef, min s.phaseLimit (isqrt (s.phaseLimit.toNat ^ 2 - s.spn.idRef.natAbs ^ 2) : Nat)) else some (s.phaseLimit, 0)
  | 3 | 4 => some (s.spn.idRef, s.spn.iqRef)
  | 6 => if obs.backward then none else s.brakeRefs s.spn.obsSpeed
  | 7 => if s.spn.catching then some (0, clampInt (-s.phaseLimit) s.phaseLimit s.spn.catchIq) else none
  | _ => none

/-- The voltage limit VIN_12 / √3, in mV (R130). -/
def vectorLimit (vin : Nat) : Int := vin * 18919 / 32768

/-- One run of the two current controllers with the voltage limit (R130). -/
def State.currentPi (s : State) (vmax : Int) (refs dq : Int × Int) : State :=
  let kp := s.fld F.SPN_CUR_PI_KP
  let ki := s.fld F.SPN_CUR_PI_KI
  let lim := vmax * 2 ^ 12
  let ed := refs.1 - dq.1
  let eq := refs.2 - dq.2
  let nd := clampInt (-lim) lim (s.spn.intD + ki * ed)
  let nq := clampInt (-lim) lim (s.spn.intQ + ki * eq)
  let vd := roundShift 12 (kp * ed + nd)
  let vq := roundShift 12 (kp * eq + nq)
  let m : Int := isqrt (vd.natAbs ^ 2 + vq.natAbs ^ 2)
  let beyond := vmax < m
  s.modSpn fun x =>
    { x with intD := nd, intQ := nq, vd := if beyond then vd * vmax / m else vd, vq := if beyond then vq * vmax / m else vq }

/-- The voltage of a run goes to the PWM at the advanced angle (R130): a later result before the reload replaces it (R129). -/
def State.applyVoltage (s : State) (vin angle : Nat) : State :=
  let v := s.unpark angle (s.spn.vd, s.spn.vq)
  s.modSpn fun x => { x with va := v.1, vb := v.2, duties := pwmDuties vin v, zeroVector := false, driving := true }

/-- The low-side zero vector. -/
def State.applyZero (s : State) : State :=
  s.modSpn fun x => { x with vd := 0, vq := 0, va := 0, vb := 0, duties := [0, 0, 0], zeroVector := true, driving := true }

/-- SPN_DRIVE.MARGIN, and the field weakening that follows it in each run (R130, R137): 5 % is 20 and 8 % is 32 quarters of a per
cent. -/
def State.fieldWeaken (s : State) (vmax : Int) : State :=
  let m : Int := isqrt (s.spn.vd.natAbs ^ 2 + s.spn.vq.natAbs ^ 2)
  let room := 400 * (vmax - min m vmax)
  let s := s.setFld F.SPN_DRIVE_MARGIN (if vmax ≤ 0 then 0 else (room / vmax).toNat)
  let st := s.spnState
  if st ≠ Spn.accel ∧ st ≠ Spn.run ∧ st ≠ Spn.hold then s
  else
    let i := s.spn.idRef
    let low : Int := -(s.fld F.SPN_FW_ID_MIN_MA : Int)
    let i' := if room < 20 * vmax then max low (i - 20) else if 32 * vmax < room then min 0 (i + 20) else i
    let s := if i = 0 ∧ i' < 0 then s.flag F.SPN_EV_FW_ENTRY else s
    s.setIdRef i'

/-- The float windows of HOLD mode 1 (R145): within 8° of a predicted crossing the phase due to cross floats, once its current has
been driven below 50 mA in the run before (R131). Phases 0 U, 1 V, 2 W. -/
def State.floatWindow (s : State) (angle : Nat) (step : Int) : State :=
  -- the back-EMF leads the angle by 90°; crossings stand at odd multiples of 30°, in the order V, U, W
  let near (a : Nat) : Option Nat :=
    let emf := (a + 16384) % 65536
    let k := emfSector (toAngle ((emf : Int) + 5461))
    let crossing := k * 65536 / 6 + 65536 - 5461
    if (angleDiff emf (crossing % 65536)).natAbs ≤ 1456 then some (2 - k % 3) else none
  let small (p : Nat) : Bool := decide (([s.spn.iu, s.spn.iv, s.spn.iw].getD p 0).natAbs < 50)
  let due := near angle
  s.modSpn fun x =>
    { x with floating := due.filter small, quiet := match due with
               | some p => if small p then none else some p
               | none => near (toAngle ((angle : Int) + step)) }

/-- A relock in HOLD: to RUN within WR_TOL, else to ACCEL. -/
def State.relock (s : State) : State :=
  let s := (s.flag F.SPN_EV_RELOCK).modSpn fun x => { x with floating := none, quiet := none }
  if s.speedWithin (s.fld F.SPN_CTRL_WR_TOL) then s.toSpn Spn.run
  else (s.modSpn fun x => { x with closedLoop := true, bandRows := 0, eventInWindow := false }).toSpn Spn.accel

/-- What the observer's lock or loss does to the state (R140, R143, R145). -/
def State.observerState (s : State) (wasLocked : Bool) : State :=
  let locked := s.on F.SPN_STATUS_OBS_LOCK
  let fast := 30 ≤ s.permille s.spn.obsSpeed.natAbs
  match s.spnState with
  | 2 =>
    if s.spn.closedLoop then if wasLocked && !locked && fast then s.spnHold else s
    else if locked && fast then s.modSpn fun x => { x with closedLoop := true } else s
  | 3 => if locked then s else s.spnHold
  | 4 => if locked && !s.on F.SPN_STATUS_HOLD_MODE then s.relock else s
  | 7 =>
    if s.spn.catching && locked then
      (s.modSpn fun x => { x with catching := false, closedLoop := true, bandRows := 0, eventInWindow := false }).toSpn Spn.accel
    else s
  | _ => s

/-- What runs on with time over one run (R140, R143, R144, R148): the time in ALIGN, the forced ramp, the catch's q reference on its
way to the speed controller's demand, and the time of BRAKE below its target. -/
def State.rampRun (s : State) (ps : Nat) : State :=
  let st := s.spnState
  if st = Spn.align then s.modSpn fun x => { x with alignPs := x.alignPs + ps }
  else if st = Spn.accel ∧ !s.spn.closedLoop then
    -- FORCED_ACC in 10 Hz/s; the frequency is held in 10^-12 Hz
    let hz := s.spn.forcedHz + s.fld F.SPN_CTRL_FORCED_ACC * 10 * ps
    s.modSpn fun x => { x with forcedHz := hz, forced := (x.forced + 65536 * (hz / 10 ^ 12) * ps / 10 ^ 12) % 65536 }
  else if st = Spn.catchState ∧ s.spn.catching then
    let demand := clampInt (-s.phaseLimit) s.phaseLimit (s.speedDemand s.spn.intSpeed)
    s.modSpn fun x => { x with catchIq := if x.catchIq < demand then min demand (x.catchIq + 100) else max demand (x.catchIq - 100) }
  else if st = Spn.brake then
    let below := s.spn.obsSpeed.natAbs * 1000 < s.spn.brakeTarget * s.ratedSpeed
    s.modSpn fun x => { x with belowPs := if below then x.belowPs + ps else 0 }
  else s

/-- The voltage of a run (R130, R145): the controllers on the references, the zero vector, or in HOLD mode 1 the last amplitude on a
rotating vector. -/
def State.drive (s : State) (obs : LoopObs) (ps : Nat) (dq : Int × Int) : State :=
  let d := s.driveAngle ps
  let vmax := vectorLimit obs.vin12
  let at_ := toAngle ((d.1 : Int) + turned d.2 (s.toCentre ps))
  if s.spnState = Spn.hold ∧ s.on F.SPN_STATUS_HOLD_MODE then
    ((s.applyVoltage obs.vin12 at_).fieldWeaken vmax).floatWindow d.1 (turned d.2 ps)
  else
    match s.loopRefs obs with
    | some refs => ((s.currentPi vmax refs dq).applyVoltage obs.vin12 at_).fieldWeaken vmax
    | none => s.applyZero.fieldWeaken vmax

/-- CURRENT_LOOP_RUN (R129, R130): one of the four runs of a Row. The currents are sampled, the observer estimates, and the drive
follows; where nothing is driven the bridge opens once the currents are small, in device reset too (R131). -/
def execCurrentLoopRun (obs : LoopObs) (s : State) : Host.Outcome State Fault Refusal :=
  let iu := obs.iu - roundDiv (s.sfld F.GAU_ISENSE_SPN_U) 2
  let iv := obs.iv - roundDiv (s.sfld F.GAU_ISENSE_SPN_V) 2
  let iw := obs.iw - roundDiv (s.sfld F.GAU_ISENSE_SPN_W) 2
  let s := s.modSpn fun x => { x with iu := iu, iv := iv, iw := iw }
  let off := if s.spn.driving && !s.spn.generator then s.openBridge else s
  let st := s.spnState
  let measuring := st = Spn.catchState ∧ !s.spn.catching
  if s.keeper.inReset then .next off
  else if st = Spn.stopped ∨ st = Spn.coast ∨ st = Spn.locked ∨ measuring then .next off.evalWriteOk
  else
    let ps := s.runPs
    let wasLocked := s.on F.SPN_STATUS_OBS_LOCK
    let i := clarke iu iv iw
    let s := s.observe ps i
    let dq := s.park (s.driveAngle ps).1 i
    let s := (s.setSfld F.SPN_CURRENT_IQ_MA (satTo 16 dq.2)).setSfld F.SPN_CURRENT_ID_MA (satTo 16 dq.1)
    let s := ((s.drive obs ps dq).rampRun ps).modSpn fun x => { x with runInRow := x.runInRow + 1 }
    .next (s.observerState wasLocked).evalWriteOk

/-- SERVO_OFFSET_LEARN (R134): the average over 4,096 Rows is written and becomes valid. -/
def execServoOffsetLearn (s : State) : Host.Outcome State Fault Refusal :=
  if s.spn.ofsRows < 4096 then .next s
  else
    let avg := roundDiv s.spn.ofsSum s.spn.ofsRows
    .next (((s.setFld F.SPN_SERVO_OFS_OFS (toAngle avg)).flag F.SPN_SERVO_OFS_VALID).modSpn fun x => { x with ofsSum := 0, ofsRows := 0 })

/-! ### Start (R142 to R144) -/

/-- CATCH_MEASURE_DONE (R142, R143). -/
def execCatchMeasureDone (forward : Bool) (rate amplitude angle : Nat) (s : State) : Host.Outcome State Fault Refusal :=
  if s.spnState ≠ Spn.catchState ∨ s.spn.catching then .next s
  else
    let s := s.modSpn fun x => { x with measurements := x.measurements + 1 }
    let slow (v : Nat) : Bool := v * 1000 < 3 * s.ratedSpeed
    let second := s.speedOfEmf amplitude
    let big := max rate second
    let consistent := (slow rate && slow second) || (big - min rate second) * 5 ≤ big
    if !consistent then .next (if 5 ≤ s.spn.measurements then s.spnBrake 3 true else s)
    else
      let s := (s.setFld F.SPN_SPEED_RPM_X100 rate).setBit F.SPN_SPEED_REVERSE (!forward)
      if slow rate then .next (s.spnAlign 0)
      else if forward then
        if s.ratedSpeed * 5 ≤ rate * 100 then
          .next ((s.setFld F.SPN_ANGLE_OBS angle).modSpn fun x =>
            { x with catching := true, catchAngle := 0, obsSpeed := rate, reliableRpm := rate, obsRecent := [], catchIq := 0,
                     -- the first voltage equals the measured back-EMF, whose phase peak is the line-to-line one over √3
                     intD := 0, intQ := (amplitude * 18919 / 32768 : Nat) * 2 ^ 12, driving := true, zeroVector := false,
                     residOk := 0, residBad := 0, cut := 0 })
        else .next (s.spnBrake 3 true)
      else if rate * 1000 ≤ 5 * s.ratedSpeed then .next (s.spnAlign 0)
      else .next (((s.flag F.SPN_EV_REVERSE_SEEN).event 5 2 3 0 0).spnBrake 5 true)

/-- CATCH_TIMEOUT (R143): 64 electrical cycles without a lock. -/
def execCatchTimeout (s : State) : Host.Outcome State Fault Refusal :=
  if s.spnState = Spn.catchState ∧ s.spn.catching ∧ 64 * 65536 ≤ s.spn.catchAngle then
    .next ((s.modSpn fun x => { x with catching := false }).spnBrake 3 true)
  else .next s

/-- ALIGN_DONE (R140, R127): the stage on-resistance has been measured; to ACCEL. -/
def execAlignDone (stage : Nat) (s : State) : Host.Outcome State Fault Refusal :=
  if s.spnState ≠ Spn.align then .next s
  else
    .next (((s.setIdRef 0).modSpn fun x =>
      { x with stage := stage, rock := 0, forced := 0, forcedHz := 0, closedLoop := false, eventInWindow := false, bandRows := 0,
               residOk := 0, residBad := 0 }).toSpn Spn.accel)

/-- COMMUTATION_TIMEOUT (R144): a 300 ms window has ended; without an event a retry starts, and the fourth locks. -/
def execCommutationTimeout (s : State) : Host.Outcome State Fault Refusal :=
  if s.spnState ≠ Spn.accel then .next s
  else if s.spn.eventInWindow then .next (s.modSpn fun x => { x with eventInWindow := false })
  else
    let n := s.fld F.SPN_STATUS_RETRY
    if n = 3 then .next (s.spnLocked 1)
    else
      let s := ((s.setFld F.SPN_STATUS_RETRY (n + 1)).flag F.SPN_EV_RETRY).event 5 3 3 0 (n + 1)
      .next (s.driveOff.spnAlign (if n = 1 then 2 else 1))

/-- SPEED_BAND_REACHED (R140): within 0.1 % of rated for 256 consecutive Rows. -/
def execSpeedBandReached (s : State) : Host.Outcome State Fault Refusal :=
  if s.spnState = Spn.accel ∧ 256 ≤ s.spn.bandRows then
    .next (((s.clr F.SPN_STATUS_RETRY).modSpn fun x => { x with sinceEvent := 0, ofsSum := 0, ofsRows := 0, cut := 0 }).toSpn Spn.run)
  else .next s

/-! ### HOLD and locked rotors (R145, R146) -/

/-- HOLD_FLOAT_WINDOW (R145): a float window of mode 1 has closed. -/
def execHoldFloatWindow (offset : Int) (amplitude interval : Nat) (s : State) : Host.Outcome State Fault Refusal :=
  if s.spnState ≠ Spn.hold ∨ !s.on F.SPN_STATUS_HOLD_MODE then .next s
  else
    let inside := offset.natAbs ≤ 728
    let s := s.modSpn fun x =>
      { x with crossOk := if inside then x.crossOk + 1 else 0,
               -- weak: below 10 % of the back-EMF expected at the held speed (R146)
               crossLow := if amplitude * 10 < s.emfAt x.reliableRpm then x.crossLow + 1 else 0, floating := none,
               crossRecent := (interval :: x.crossRecent).take 6 }
    if s.spn.crossOk < 6 then .next s
    else
      -- the six crossings are a reliable estimate, and the observer is seeded from them (R135)
      let unc := spread s.spn.crossRecent
      let v := s.crossSpeed
      let s := (((s.setFld F.SPN_SPEED_RPM_X100 v).setFld F.SPN_SPEED_SOURCE 2).setFld F.SPN_UNC_UNC unc).flag F.SPN_STATUS_OBS_LOCK
      let s := s.setFld F.SPN_ANGLE_OBS (toAngle ((s.driveAngle s.runPs).1 + offset))
      .next (s.modSpn fun x =>
        { x with residOk := 64, residBad := 0, obsSpeed := v, obsRecent := [], sinceEvent := 0, reliableUnc := unc, reliableRpm := v,
                 uncAngle := 0 }).relock

/-- HOLD_TIMEOUT (R140, R147): 64 electrical cycles without a relock. -/
def execHoldTimeout (s : State) : Host.Outcome State Fault Refusal :=
  if s.spnState = Spn.hold ∧ 64 * 65536 ≤ s.spn.holdAngle then
    let s := ((s.spnCoast 1).startUnload 0).startUnload 1
    .next (if !s.anyLoaded && s.on F.SPN_CTRL_AUTO_CATCH then s.spnCatch else s)
  else .next s

/-- LOCKED_ROTOR (R146): in RUN no commutation event over 8 expected intervals, in HOLD 8 weak windows. -/
def execLockedRotor (s : State) : Host.Outcome State Fault Refusal :=
  if s.spnState = Spn.run ∧ 8 * 65536 / 6 ≤ (turned s.spn.reliableRpm s.spn.sinceEvent).toNat then .next (s.spnLocked 2)
  else if s.spnState = Spn.hold ∧ s.on F.SPN_STATUS_HOLD_MODE ∧ 8 ≤ s.spn.crossLow then .next (s.spnLocked 3)
  else .next s

/-- COAST_STOPPED (R147): below 0.3 % of rated. -/
def execCoastStopped (s : State) : Host.Outcome State Fault Refusal :=
  if s.spnState = Spn.coast ∧ s.fld F.SPN_STATUS_COAST_CAUSE = 0 then .next s.spnStopped else .next s

/-- COAST_RETRACT_TIMEOUT (R147, R194 cause 4): heads still loaded 50 ms after a HOLD timeout. -/
def execCoastRetractTimeout (s : State) : Host.Outcome State Fault Refusal :=
  if s.spnState = Spn.coast ∧ s.fld F.SPN_STATUS_COAST_CAUSE = 1 then .next (s.eretractBoth 4) else .next s

/-- BRAKE_DONE (R148): the speed has been below its target for 50 ms. -/
def execBrakeDone (s : State) : Host.Outcome State Fault Refusal :=
  if s.spnState ≠ Spn.brake ∨ s.spn.belowPs < 50 * 10 ^ 9 then .next s
  else .next (if s.on F.SPN_STATUS_START_PEND then s.spnAlign 0 else s.spnStopped)

/-! ### The heads reach the ramp (R147) -/

/-- UNLOAD_HOLD_END (R191); after a HOLD timeout the spindle is caught once no heads are loaded (R147). -/
def execUnloadHoldEnd (a : Nat) (s : State) : Host.Outcome State Fault Refusal :=
  if s.fld (F.ACT_STATUS_LOAD_STATE a) = 3 ∧ (s.act a).coil = .rampHold then
    .next (s.unloaded a (F.ACT_EV_UNLOAD_DONE a)).coastCatch
  else .next s

/-- RETRACT_END (R193): at 15 ms; as above (R147). -/
def execRetractEnd (a : Nat) (s : State) : Host.Outcome State Fault Refusal :=
  if s.fld (F.ACT_STATUS_LOAD_STATE a) = 4 then .next (s.unloaded a (F.ACT_EV_RETRACT_DONE a)).coastCatch else .next s

end Sys2Proof.Machine
end

