-- ==== Sys2Proof/Machine/Row.lean ====
section
/-!
DEFINITION. Sys2Proof/Machine/Row.lean: the Row of chapter 1: the boundary and everything that happens at it (R22 to R31),
the commands that place it, stores of the core pairs and their undo log (R15), and the Cable links (R18 to R20).
Instants are picoseconds of the timebase.
-/

namespace Sys2Proof.Machine

/-! ### Core pairs (R17) -/

/-- The state field of a pair: 0 to 2 FRONT_0 to FRONT_2, 3 MEDIA_0, 4 MEDIA_1, 5 SPARE. -/
def pairFld (p : Nat) : Fld := ⟨R.SYS_PAIR_STATUS, 4 * min p 5, 4⟩

/-- A pair's state code. -/
def State.pairState (s : State) (p : Nat) : Nat := s.fld (pairFld p)

/-- The pair runs: ACTIVE or STANDING_IN. -/
def State.pairRuns (s : State) (p : Nat) : Bool := s.pairState p == 1 || s.pairState p == 5

/-- The pair that stands in for pair p: SPARE, or during a hand-over the pair X of UPD_HANDOVER (R17, R457). -/
def State.standsInFor (s : State) (p : Nat) : Option Nat :=
  if s.pairState 5 == 5 && s.fld F.SYS_PAIR_STATUS_SPARE_FOR == p then some 5
  else (List.range 5).find? fun k => s.pairState k == 5 && s.fld F.UPD_HANDOVER_X_FOR == p

/-- The work of pair p is done: by the pair itself, or by the one that stands in for it; a halted pair does none. -/
def State.pairServed (s : State) (p : Nat) : Bool :=
  (s.pairState p == 1 && !(s.pair p).halted) ||
    (match s.standsInFor p with | some k => !(s.pair k).halted | none => false)

/-- The 64-bit locations that a store of n bytes at an address touches (R15). A location of the undo log is an aligned 64-bit
word (PRESUMED for an L64 core, assumption log 86). -/
def storeWords (addr n : Nat) : List Nat :=
  if n = 0 then [] else (List.range ((addr + n - 1) / 8 + 1 - addr / 8)).map fun i => 8 * (addr / 8 + i)

/-- The prior values of a store, newest first. -/
def State.priorValues (s : State) (sp : Space) (addr n : Nat) : List UndoEntry :=
  ((storeWords addr n).map fun a => ({ space := sp, addr := a, bytes := memBytes a 8 (s.mem sp) } : UndoEntry)).reverse

/-- A store of pair p: its prior values go to the undo log. One that the log has no room for waits for the boundary, and every
later one of the pair behind it; the first counts UNDO_FULL (R15). -/
def State.pairStore (s : State) (p : Nat) (sp : Space) (addr : Nat) (bytes : List Byte) : State :=
  let x := s.pair p
  if !x.stalled.isEmpty then s.modPair p fun y => { y with stalled := y.stalled ++ [(sp, addr, bytes)] }
  else if !x.undo.isEmpty && 4096 < x.undo.length + (storeWords addr bytes.length).length then
    (s.modPair p fun y => { y with stalled := [(sp, addr, bytes)] }).event 1 1 3 p 0
  else (s.modPair p fun y => { y with undo := s.priorValues sp addr bytes.length ++ y.undo }).store sp addr bytes

/-- PAIR_STORE (R15): a store of a pair that runs. -/
def execPairStore (p : Nat) (sp : Space) (addr : Nat) (bytes : List Byte) (s : State) : Host.Outcome State Fault Refusal :=
  if 5 < p || !s.pairRuns p || (s.pair p).halted then .next s else .next (s.pairStore p sp addr bytes)

/-- The checkpoint of a pair at a boundary (R15). -/
def CorePair.capture (x : CorePair) (row : Nat) : PairCheckpoint := { row := row, regs := x.regs, requests := x.requests }

/-- The boundary for pair p while it runs: what its program left in its registers is a free value; the checkpoint captures them,
the undo log starts anew, and the stores that waited are carried out (R15). -/
def State.checkpointPair (s : State) (p : Nat) : State :=
  if s.pairRuns p then
    let (v, s) := s.draw
    let waiting := (s.pair p).stalled
    let s := s.modPair p fun x =>
      let x := { x with regs := v, undo := [], stalled := [], replay := none }
      { x with checkpoint := some (x.capture s.rowCount) }
    waiting.foldl (fun (s : State) w => s.pairStore p w.1 w.2.1 w.2.2) s
  else s

/-- The checkpoints that a boundary captures (R15). -/
def State.checkpoints (s : State) : State := (List.range 6).foldl State.checkpointPair s

/-! ### Log pages (R282, R283) and the check that page 0xC1 waits for (R285) -/

/-- A vendor log page: the 32-byte header of R282 and the body; the next snapshot number is taken. -/
def State.vendorPage (s : State) (lid entries : Nat) (body : List Byte) : List Byte × State :=
  let n := s.host.snapSeq
  let head := leBytes 1 lid ++ leBytes 1 1 ++ leBytes 2 0 ++ leBytes 4 (32 + body.length) ++ leBytes 8 s.rowCount ++
    leBytes 8 n ++ leBytes 4 entries
  (head ++ leBytes 4 (crc32c head).toNat ++ body, s.modHost fun h => { h with snapSeq := n + 1 })

/-- The Log Page Offset of a Get Log Page. -/
def logOffset (q : Sqe) : Nat := q.cdw12 + 2 ^ 32 * q.cdw13

/-- The bytes a Get Log Page asks for. -/
def logBytes (q : Sqe) : Nat := 4 * (q.cdw10 / 2 ^ 16 % 2 ^ 16 + 2 ^ 16 * (q.cdw11 % 2 ^ 16) + 1)

/-- Send the part of a page that a slot's Get Log Page asks for, and complete it. -/
def State.sendPage (s : State) (n : Nat) (page : List Byte) : State :=
  match s.slot n with
  | some x => (s.sendBytes x (cutBytes page (logOffset x.sqe) (logBytes x.sqe))).completeSlot n 0 0
  | none => s

/-- Keep a page as the controller's snapshot (R283). -/
def State.keepSnapshot (s : State) (c lid : Nat) (page : List Byte) : State :=
  s.modController c fun x => { x with snapshots := kput lid page x.snapshots }

/-- The body of page 0xC1 (R285). -/
def State.ledgerBody (s : State) : List Byte :=
  let seen (c : Nat) : Nat := ofSigned 32 (s.flow.ledgerSeen.getD c 0)
  leBytes 8 s.rowCount ++ leBytes 1 (if s.on F.ORD_LEDGER_STATUS_LEDGER_FAULT then 1 else 0) ++
  leBytes 1 (if s.on F.ORD_LEDGER_STATUS_WRITE_HOLD then 1 else 0) ++ leBytes 2 0 ++
  leBytes 4 (s.fld F.ORD_LEDGER_STATUS_FAULT_ROWS) ++
  ((List.range 9).flatMap fun c => leBytes 4 (seen c)) ++ leBytes 4 s.flow.pageTotal ++
  ((List.range 8).flatMap fun c => leBytes 4 (seen (9 + c))) ++ ((List.range 6).flatMap fun c => leBytes 2 (seen (17 + c))) ++
  leBytes 4 (s.fld F.ORD_LEDGER_FAULTS_COUNT) ++ leBytes 8 (s.wide F.ORD_LEDGER_ROW_LO_ROW_LO F.ORD_LEDGER_ROW_HI_ROW_HI) ++
  leBytes 4 (s.fld F.ORD_LEDGER_ACCTS_ACCOUNTS) ++ leBytes 12 0

/-- A Get Log Page of 0xC1 that has waited for the check takes its snapshot and completes. -/
def State.finishLedgerRead (s : State) (n : Nat) : State :=
  match s.slot n with
  | none => s
  | some x =>
    let r := s.vendorPage 0xC1 0 s.ledgerBody
    (r.2.keepSnapshot x.skein 0xC1 r.1).sendPage n r.1

/-- The check of the Row, and what waits for it. -/
def State.ledgerCheck (s : State) : State :=
  if s.flow.checked || s.flow.checksOff then s
  else
    let s := s.runCheck
    let waiting := s.host.ledgerReads
    waiting.foldl State.finishLedgerRead (s.modHost fun h => { h with ledgerReads := [] })

/-- LEDGER_CHECK (R312, R313): at predicted Row end minus 0.5 µs. -/
def execLedgerCheck (s : State) : Host.Outcome State Fault Refusal := .next s.ledgerCheck

/-! ### The boundary -/

/-- The period that predicts the end of the Row: ROWT_PERIOD, or ROWT_IDLE_PERIOD in IDLE. -/
def State.rowPeriod (s : State) : Nat :=
  if s.fld F.ROWT_STATUS_SOURCE = 0 then s.fld F.ROWT_IDLE_PERIOD_PERIOD_PS else s.fld F.ROWT_PERIOD_PERIOD_PS

/-- The check comes first where it has not run in this Row; before its instant that is an early boundary (R30). -/
def State.checkFirst (s : State) (t : Nat) : State :=
  if s.flow.checked then s
  else
    let early := t + 500000 < s.row.last + s.rowPeriod
    let s := if early then (s.count F.ROWT_FAULTS_EARLY_BOUNDARY).flag F.ROWT_STATUS_EARLY_SEEN else s
    s.ledgerCheck

/-- Operating time runs in whole milliseconds of the timebase. -/
def State.addOptime (s : State) (from_ until_ : Nat) : State :=
  s.setWide F.KEEP_OPTIME_LO_MS_LO F.KEEP_OPTIME_HI_MS_HI (s.optime + (until_ / 10 ^ 9 - from_ / 10 ^ 9))

/-- The input voltages as the Keeper reads them in each Row: free values (R109). -/
def State.readInputs (s : State) : State :=
  let (v, s) := s.draw
  s.setReg R.PWR_VIN (BitVec.ofNat 32 v)

/-- The ceiling computed by ENERGY_UPDATE takes effect (R99). When KEEP_CEILING.ENERGY_MIB shows a new D_E is open: here it changes
with EFFECTIVE_MIB at the boundary after the computation (DESIGN CHOICE, assumption log 96). -/
def State.applyCeiling (s : State) : State :=
  match s.keeper.pendingEnergy with
  | some d =>
    ((s.setFld F.KEEP_CEILING_ENERGY_MIB (min d 1023)).setFld F.KEEP_CEILING_EFFECTIVE_MIB
      (min d (s.fld F.KEEP_MODEL_DIRTY_CEILING_MIB))).modKeeper fun k => { k with pendingEnergy := none }
  | none => s

/-- What the coil of an actuator carries at the boundary, as the other Needle's XFF (R153). -/
def State.coilCommand (s : State) (a : Nat) : Int :=
  let x := s.act a
  match x.coil with
  | .off => 0
  | .follow => match s.driver a with | some n => 2 * s.sfld (F.NDL_OUT_VCM n) | none => 0
  | _ => roundDiv (x.coilCurrent * 65536) 1800

/-- An accepted wedge of an actuator gives its index (R198): of the Row that the next boundary begins, or of the Row that has begun
less than half a Row ago; in that one an index 0 that the prediction did not give makes the revolution boundary now. -/
def State.seeIndex (s : State) (a t index : Nat) : State :=
  let ahead := s.rowPeriod ≤ 2 * (t - s.row.last)
  let late := !ahead && index == 0 && (s.act a).wedgeIndex != 0
  let s := s.modAct a fun x => { x with wedgeIndex := index, ahead := ahead }
  if late then s.revolution a else s

/-- A Row boundary of an actuator whose heads its Needle follows: the index of its wedge, or the index that a missed wedge would have
had; index 0 makes it the revolution boundary (R198). -/
def State.indexRow (s : State) (a : Nat) : State :=
  if (s.driver a).isNone || !s.headsLoaded a then s
  else
    let x := s.act a
    let index := if x.ahead then x.wedgeIndex else (x.wedgeIndex + 1) % max 1 s.pattern.active.geometry.wedges
    let s := s.modAct a fun x => { x with wedgeIndex := index, ahead := false }
    if index = 0 then s.revolution a else s

/-- An actuator at the boundary: servo fields end the gate, polls fall due, preheat counts, the revolution ends. -/
def State.actuatorRow (s : State) (a : Nat) : State :=
  if !s.hasAct a then s
  else
    let s := s.endGate a
    let xff := s.coilCommand a
    let s := s.modAct a fun x =>
      { x with xff := xff, pollOkPrev := x.pollOk, pollOk := false, pollDue := x.linkOn,
               preheat := x.preheat.map fun n => n - 1 }
    ((s.indexRow a).followOps a).gate a

/-- A hand-over waits for a boundary behind a passing check (R31). -/
def State.handoverPend (s : State) : State :=
  let waits := (match s.upd.activation with | some a => a.ready | none => false) || s.pattern.waiting.isSome
  s.setBit F.ROWT_STATUS_HANDOVER_PEND (waits && !s.flow.lastPassed)

/-- The hand-over of pair p holds its fetching or its picks (R456). -/
def State.handoverHolds (s : State) (p : Nat) : Bool := s.on F.UPD_HANDOVER_REQUEST && s.fld F.UPD_HANDOVER_PAIR == p

/-- Picks for actuator a are held by an activation: of its media pair, or quiesced of its Needle (R456, R458). -/
def State.picksHeld (s : State) (a : Nat) : Bool :=
  s.handoverHolds (3 + a) ||
    (match s.upd.activation with
     | some v => v.components.headD 0 == 2 && v.quiesced && v.act == a && v.step != 0
     | none => false)

/-- SCH_n_EVALS shows the evaluations of the Row that ends (R305). -/
def State.countEvals (s : State) : State :=
  let s := (List.range 2).foldl (fun s a => s.setFld (F.SCH_EVALS_EVALS a) (min (s.flow.engineEvals.getD a 0) 65535)) s
  s.modFlow fun f => { f with engineEvals := [0, 0] }

/-- A Row boundary at an instant, placed by a source of R33: the Row count advances, and every unit takes the boundary. -/
def State.boundary (s : State) (t source : Nat) : State :=
  let s := s.finishPhases.checkFirst t
  let length := t - s.row.last
  let wedge := source == 1 || source == 2
  let s := s.addOptime s.row.last t
  let s := if wedge && s.row.lastWasWedge then s.setFld F.ROWT_PERIOD_PERIOD_PS length else s
  let s := s.setWide F.ROWT_COUNT_LO_COUNT_LO F.ROWT_COUNT_HI_COUNT_HI (s.rowCount + 1)
  let s := (s.setFld F.ROWT_STATUS_SOURCE source).clr F.ROWT_STATUS_GUARD
  -- a boundary stands for a wedge of the master: the one that came, or the next one
  let wedges := max 1 s.pattern.active.geometry.wedges
  let index := if source = 1 then (s.act (s.fld F.ROWT_CTRL_MASTER)).wedgeIndex else (s.row.index + 1) % wedges
  let s := s.modRow fun r => { r with last := t, index := index, lastWasWedge := wedge, swapped := false }
  let s := (s.modFlow fun f => { f with checked := false }).countEvals.releaseTransfers
  let s := s.readInputs.applyCeiling.applyModes
  let s := (s.actuatorRow 0).actuatorRow 1
  let s := s.spindleRow source index length
  let s := s.modStitch fun x => { x with pageAge := if x.page.isEmpty then 0 else x.pageAge + 1 }
  (s.handoverPend).checkpoints

/-- A boundary at an instant of the timebase. -/
def State.timedBoundary (s : State) (t source : Nat) : State :=
  (s.boundary t source).modRow fun r => { r with now := max r.now t }

/-! ### The Row state machine (R22, R23) -/

/-- LOCK of an actuator as ROWT_STATUS reports it. -/
def State.actLocked (s : State) (a : Nat) : Bool := if a = 0 then s.on F.ROWT_STATUS_LOCK_A else s.on F.ROWT_STATUS_LOCK_B

/-- Boundaries are placed at all: the logic die is out of reset. -/
def State.rowsRun (s : State) : Bool := !s.keeper.inReset

/-- The state the locks call for, once some actuator is locked: WEDGE by the master, else PROXY. -/
def State.lockedSource (s : State) : Nat := if s.actLocked (s.fld F.ROWT_CTRL_MASTER) then 1 else 2

/-- Average the offset of the two actuators' instants over the last 256 Rows in which both were locked (R22). Instants less than
half a Row apart are of one wedge; an instant whose partner was missed waits for no other (log 32). -/
def State.averageOffset (s : State) : State :=
  match s.row.wedgeAt with
  | [some ta, some tb] =>
    if s.rowPeriod ≤ 2 * ((tb : Int) - ta).natAbs then s
    else if s.on F.ROWT_STATUS_LOCK_A && s.on F.ROWT_STATUS_LOCK_B && s.fld F.ROWT_STATUS_SOURCE == 1 then
      let l := ((tb : Int) - ta) :: s.row.offsets |>.take 256
      let s := s.modRow fun r => { r with offsets := l, wedgeAt := [none, none] }
      if l.length = 256 then
        ((s.setSfld F.ROWT_AB_OFFSET_OFFSET_NS (roundDiv (l.foldl (· + ·) 0) 256000)).flag F.ROWT_STATUS_OFFSET_VALID)
      else s
    else s.modRow fun r => { r with wedgeAt := [none, none] }
  | _ => s

/-- The instant of the master's wedge that the other actuator's stands for (R22, PROXY). -/
def State.proxyInstant (s : State) (t : Nat) : Nat :=
  if !s.on F.ROWT_STATUS_OFFSET_VALID then t
  else
    let off := s.sfld F.ROWT_AB_OFFSET_OFFSET_NS * 1000
    ((if s.fld F.ROWT_CTRL_MASTER = 0 then (t : Int) - off else (t : Int) + off)).toNat

/-- Enter FLYWHEEL. -/
def State.enterFlywheel (s : State) : State :=
  ((s.setFld F.ROWT_STATUS_SOURCE 3).flag F.ROWT_STATUS_FLYWHEEL_SEEN).modRow fun r => { r with flywheelRun := 0, leaving := false }

/-- A wedge's instant that may end the Row: no Row is ever shorter than one idle period less the wedge window (R23). An accepted
wedge of a locked actuator before that ends no Row and changes SOURCE at once: the Row's boundary has been placed already, from
the other actuator or from the flywheel (DEDUCED, assumption log 87). -/
def State.endsRow (s : State) (t : Nat) : Bool :=
  s.row.last + s.fld F.ROWT_IDLE_PERIOD_PERIOD_PS ≤ t + s.fld F.ROWT_CTRL_WEDGE_WIN * 250000

/-- What an accepted wedge does to the Row (R22, R23). -/
def State.acceptedWedge (s : State) (a t : Nat) : State :=
  let master := s.fld F.ROWT_CTRL_MASTER
  let proxyOk := !s.isS1H
  match s.fld F.ROWT_STATUS_SOURCE with
  | 0 =>
    let s := if (s.on F.ROWT_STATUS_LOCK_A || (proxyOk && s.on F.ROWT_STATUS_LOCK_B)) then s.modRow fun r => { r with leaving := true } else s
    if s.row.leaving && s.row.last + s.fld F.ROWT_IDLE_PERIOD_PERIOD_PS ≤ t && s.actLocked a &&
        (a == master || (proxyOk && !s.actLocked master)) then
      let s := s.modRow fun r => { r with leaving := false }
      if a = master then s.boundary t 1 else s.boundary (s.proxyInstant t) 2
    else s
  | 1 => if a = master && s.endsRow t then s.boundary t 1 else s
  | 2 =>
    if a = master then
      if s.actLocked master then
        if s.endsRow t then s.boundary t 1 else s.setFld F.ROWT_STATUS_SOURCE 1
      else s
    else if s.endsRow t then s.boundary (s.proxyInstant t) 2 else s
  | _ =>
    if !s.actLocked a then s
    else if a = master then (if s.endsRow t then s.boundary t 1 else s.setFld F.ROWT_STATUS_SOURCE 1)
    else if proxyOk && !s.actLocked master then
      (if s.endsRow t then s.boundary (s.proxyInstant t) 2 else s.setFld F.ROWT_STATUS_SOURCE 2)
    else s

/-- The wedge in use has been missed: to PROXY while the other actuator is locked, else to FLYWHEEL (R22, R38). Where the other
actuator's wedge of this Row has come already, PROXY places the boundary at it. -/
def State.wedgeInUseMissed (s : State) : State :=
  let other := 1 - s.fld F.ROWT_CTRL_MASTER
  match s.fld F.ROWT_STATUS_SOURCE with
  | 1 =>
    if s.actLocked other && !s.isS1H then
      match s.row.wedgeAt.getD other none with
      | some t => if s.endsRow t then s.boundary (s.proxyInstant t) 2 else s.setFld F.ROWT_STATUS_SOURCE 2
      | none => s.setFld F.ROWT_STATUS_SOURCE 2
    else s.enterFlywheel
  | 2 => s.enterFlywheel
  | _ => s

/-- The wedge of actuator a lies within the window around its prediction; in IDLE nothing predicts one. -/
def State.inWedgeWindow (s : State) (a t : Nat) : Bool :=
  if s.fld F.ROWT_STATUS_SOURCE = 0 then true
  else
    let win := s.fld F.ROWT_CTRL_WEDGE_WIN * 250000
    let off := if s.on F.ROWT_STATUS_OFFSET_VALID && a != s.fld F.ROWT_CTRL_MASTER then
        (if a = 1 then s.sfld F.ROWT_AB_OFFSET_OFFSET_NS else -s.sfld F.ROWT_AB_OFFSET_OFFSET_NS) * 1000 else 0
    -- a wedge of the Row that a boundary has just begun is predicted at that boundary
    let near (p : Int) : Bool := ((t : Int) - p).natAbs ≤ win
    near (s.row.last + s.rowPeriod + off) ||
      ((a != s.fld F.ROWT_CTRL_MASTER || s.fld F.ROWT_STATUS_SOURCE == 2) && near (s.row.last + off))

/-- WEDGE_SAMPLE (R22, R152): the wedge of actuator a; its driving Needle demodulates, and the Row machine accepts or misses
it. -/
def execWedgeSample (a t : Nat) (obs : WedgeObs) (s : State) : Host.Outcome State Fault Refusal :=
  if !s.rowsRun || !s.hasAct a || t < s.row.now then .next s
  else
    let s := s.modRow fun r => { r with now := t }
    let ok := obs.mark && s.inWedgeWindow a t
    -- WG is low over every servo field of the actuator (R195)
    let s := (s.endGate a).settleElapsed a t
    let inUse := a == (if s.fld F.ROWT_STATUS_SOURCE = 2 then 1 - s.fld F.ROWT_CTRL_MASTER else s.fld F.ROWT_CTRL_MASTER)
    let mine := (s.driver a).filter fun _ => s.headsLoaded a
    let s := match mine with
      | some n => (s.finishPhase n).sampleWedge n a obs ok
      | none => s
    let s := if ok then
        let s := s.modRow fun r => { r with flyStop := putAt a false r.flyStop, wedgeAt := putAt a (some t) r.wedgeAt }
        let s := s.seeIndex a t obs.index
        (s.gate a).averageOffset.acceptedWedge a t
      else (if inUse then s.wedgeInUseMissed else s).gate a
    -- the inputs of the Row form behind the boundary that the wedge may have placed
    match mine with
    | some n => .next (s.formRow n a)
    | none => .next s

/-- IDLE_PERIOD_EXPIRY (R22): a boundary from the timebase. -/
def execIdlePeriodExpiry (s : State) : Host.Outcome State Fault Refusal :=
  if s.rowsRun && s.fld F.ROWT_STATUS_SOURCE == 0 && !s.row.leaving then
    .next (s.timedBoundary (s.row.last + s.fld F.ROWT_IDLE_PERIOD_PERIOD_PS) 0)
  else .next s

/-- A boundary at the predicted instant: it is counted, and both gates are withdrawn until a wedge is demodulated (R24). -/
def State.flywheelBoundary (s : State) : State :=
  let s := (s.count F.ROWT_FAULTS_MISSED_WEDGE).modRow fun r => { r with flywheelRun := r.flywheelRun + 1, flyStop := [true, true] }
  (s.timedBoundary (s.row.last + s.fld F.ROWT_PERIOD_PERIOD_PS) 3).gates

/-- FLYWHEEL_BOUNDARY (R22): the predicted instant arrives without the wedge in use. -/
def execFlywheelBoundary (s : State) : Host.Outcome State Fault Refusal :=
  if !s.rowsRun then .next s
  else
    match s.fld F.ROWT_STATUS_SOURCE with
    | 0 => .next s
    | 3 => .next s.flywheelBoundary
    | _ =>
      let s := s.wedgeInUseMissed
      .next (if s.fld F.ROWT_STATUS_SOURCE = 3 then s.flywheelBoundary else s)

/-- FLYWHEEL_MAX_REACHED (R22). -/
def execFlywheelMaxReached (s : State) : Host.Outcome State Fault Refusal :=
  if s.fld F.ROWT_STATUS_SOURCE = 3 ∧ s.fld F.ROWT_CTRL_FLYWHEEL_MAX ≤ s.row.flywheelRun then
    .next (((s.setFld F.ROWT_STATUS_SOURCE 0).flag F.ROWT_STATUS_IDLE_FALLBACK).count F.ROWT_FAULTS_IDLE_ENTRIES)
  else .next s

/-- LONG_ROW_TIMEOUT (R23): the Row begun on leaving IDLE lasts two idle periods. -/
def execLongRowTimeout (s : State) : Host.Outcome State Fault Refusal :=
  if s.fld F.ROWT_STATUS_SOURCE = 0 ∧ s.row.leaving then
    let s := (s.modRow fun r => { r with leaving := false }).timedBoundary (s.row.last + 2 * s.fld F.ROWT_IDLE_PERIOD_PERIOD_PS) 0
    .next (if s.on F.ROWT_STATUS_LOCK_A || s.on F.ROWT_STATUS_LOCK_B then s.enterFlywheel else s)
  else .next s

/-! ### Cable links (R18 to R20) -/

/-- A link's record: links 0 to 11 toward the hub, 12 to 23 from it. -/
def State.link (s : State) (segment : Nat) (fromHub : Bool) : CableLink :=
  s.cable.links.getD (segment + if fromHub then 12 else 0) CableLink.reset

/-- The state with a link changed. -/
def State.modLink (s : State) (segment : Nat) (fromHub : Bool) (f : CableLink → CableLink) : State :=
  s.modCable fun c => { c with links := updAt (segment + if fromHub then 12 else 0) f c.links }

/-- An end of a packet that belongs to an absent unit. -/
def State.unitAbsent (s : State) : CableUnit → Bool
  | .pair _ => false
  | .unit addr => s.absent addr

/-- The address that an end of a packet stands for in an event; a pair by its number. -/
def unitNumber : CableUnit → Nat
  | .pair p => p
  | .unit addr => addr

/-- The requests of a pair follow its packets: one that it sends is outstanding until its target answers. -/
def State.trackRequest (s : State) (x : CableItem) : State :=
  let s := match x.source with
    | .pair p => s.modPair p fun y => { y with requests := y.requests ++ [(x.target, x.content)] }
    | .unit _ => s
  match x.target with
  | .pair p => s.modPair p fun y => { y with requests := y.requests.eraseP fun r => decide (r.1 = x.source) }
  | .unit _ => s

/-- A packet that the hub accepts (R18, R20): it goes on to its target behind the earlier ones of its source to that target. One
for an absent unit gets an error response to its source, with a CABLE_NO_TARGET event, unless it is a register access, which
the hub answers. -/
def State.hubTakes (s : State) (p : CablePacket) : State :=
  let x : CableItem := { source := p.source, target := p.target, content := p.content }
  if s.unitAbsent p.target then
    let s := if p.register then s else s.event 1 3 4 (unitNumber p.target) 0
    s.modCable fun c => { c with answers := (p.source, p.target, !p.register) :: c.answers }
  else (s.modCable fun c => { c with hub := c.hub ++ [x] }).trackRequest x

/-- A packet that a unit takes from its link (R18): of the packets of one source to one target that the hub holds, the oldest. -/
def State.unitTakes (s : State) (p : CablePacket) : State :=
  let mine (x : CableItem) : Bool := decide (x.source = p.source) && decide (x.target = p.target)
  match s.cable.hub.find? mine with
  | some x => s.modCable fun c => { c with hub := c.hub.eraseP mine, delivered := x :: c.delivered }
  | none => s

/-- The packet is a new one of a pair that is fenced: it never left the pair (R14). A replay was issued before the fence. -/
def State.neverSent (s : State) (l : CableLink) (fromHub : Bool) (p : CablePacket) : Bool :=
  match p.source with
  | .pair k => !fromHub && l.awaited == 0 && s.pairState k == 2
  | .unit _ => false

/-- A link that discards a packet: it and the later ones up to it come again from the replay buffer, 32 at most (R19). -/
def CableLink.discard (l : CableLink) (p : CablePacket) : CableLink :=
  let ahead := if p.crcOk then (p.seq + 256 - l.expected) % 256 + 1 else 1
  let awaited := max l.awaited (if ahead ≤ 32 then ahead else 1)
  if !l.discarding then { l with discarding := true, replays := 0, awaited := awaited }
  -- a replay of the first discarded packet that fails again
  else if p.seq % 256 = l.expected then { l with replays := l.replays + 1, awaited := awaited }
  else { l with awaited := awaited }

/-- A link that accepts the packet it expects. -/
def CableLink.accept (l : CableLink) : CableLink :=
  { expected := (l.expected + 1) % 256, replays := 0, discarding := false, awaited := l.awaited - 1 }

/-- CABLE_PACKET_RECEIVE (R14, R18 to R20). -/
def execCablePacketReceive (segment : Nat) (fromHub : Bool) (p : CablePacket) (s : State) : Host.Outcome State Fault Refusal :=
  let l := s.link segment fromHub
  if 11 < segment || s.neverSent l fromHub p then .next s
  else
    match s.snagPass 1 (segment + if fromHub then 128 else 0) (l.discarding && p.seq % 256 == l.expected) with
    | (some (0, _), s) => .next s
    | (hit, s) =>
      let crcOk := p.crcOk && (match hit with | some (1, _) => false | _ => true)
      let inOrder := p.seq % 256 == l.expected && (match hit with | some (2, _) => false | _ => true)
      if crcOk && inOrder then
        let s := s.modLink segment fromHub CableLink.accept
        .next (if fromHub then s.unitTakes p else s.hubTakes p)
      else .next (s.modLink segment fromHub fun l => l.discard { p with crcOk := crcOk })

/-- CABLE_FAIL (R19): the eighth consecutive failed replay. -/
def execCableFail (segment : Nat) (fromHub : Bool) (s : State) : Host.Outcome State Fault Refusal :=
  if (s.link segment fromHub).replays < 8 || s.cable.failed.contains segment then .next s
  else
    let s := (s.modCable fun c => { c with failed := segment :: c.failed }).gates
    let s := (s.eretractBoth 6).setCfs s.allControllers true
    .next ((s.event 1 2 7 segment (if fromHub then 1 else 0)).uncovered)

end Sys2Proof.Machine
end

