-- ==== Sys2Proof/Machine/Geometry.lean ====
section
/-!
DEFINITION. Sys2Proof/Machine/Geometry.lean: where zones and sectors lie: physical sector addresses (R237), zone types,
placement and shapes (R238 to R242), parity groups (R243), zone descriptors (R258).
-/

namespace Sys2Proof.Machine

/-! ### Shapes (R241, R242) -/

/-- Sectors of a zone. -/
def zoneSectors : Nat := 65536

/-- A quotient rounded up. -/
def ceilDiv (a b : Nat) : Nat := if b = 0 then 0 else (a + b - 1) / b

/-- Written tracks of a sequential zone at s sectors per track. -/
def seqTracks (s : Nat) : Nat := ceilDiv 67914 s

/-- Parity groups of a sequential zone. -/
def seqGroups (s : Nat) : Nat := min (seqTracks s * s / 66) 1055

/-- Data slots of a sequential zone. -/
def seqDataSlots (s : Nat) : Nat := seqGroups s * 64

/-- Tracks a spaced zone occupies. -/
def spacedTracks (s : Nat) : Nat := 2 * ceilDiv zoneSectors s

/-- Slot of data slot d of a sequential zone. -/
def slotOfData (d : Nat) : Nat := 66 * (d / 64) + d % 64

/-- A zone in its place. -/
structure ZoneShape where
  sequential : Bool
  act : Nat
  head : Nat
  first : Nat
  spt : Nat
  /-- Tracks occupied, selvedge included. -/
  tracks : Nat
  deriving DecidableEq, Repr

/-- The PSA of data slot d of a sequential zone, or of place d of a spaced zone. -/
def ZoneShape.psa (z : ZoneShape) (d : Nat) : Nat :=
  if z.sequential then
    let n := slotOfData d
    packPsa z.act z.head (z.first + n / z.spt) (n % z.spt)
  else packPsa z.act z.head (z.first + 2 * (d / z.spt)) (d % z.spt)

/-- The PSA of the parity sector P (0) or Q (1) of a group. -/
def ZoneShape.parityPsa (z : ZoneShape) (group which : Nat) : Nat :=
  let n := 66 * group + 64 + which
  packPsa z.act z.head (z.first + n / z.spt) (n % z.spt)

/-- The data slot that lies at a PSA of the zone; none at a parity slot or an odd track. -/
def ZoneShape.slotAt (z : ZoneShape) (p : Nat) : Option Nat :=
  let t := psaTrack p - z.first
  if z.sequential then
    let n := t * z.spt + psaSector p
    if n % 66 < 64 then some (64 * (n / 66) + n % 66) else none
  else if t % 2 = 0 then some (t / 2 * z.spt + psaSector p)
  else none

/-! ### Zones of the drive (R238 to R240) -/

/-- The ZONES entry of an actuator. -/
def State.zonesEntry (s : State) (a : Nat) : ZonesEntry :=
  (s.pattern.active.geometry.zones.find? fun z => z.act == a).getD
    { act := a, selvedge := 0, system := 0, conv := 0, cache := 0, seq := 0 }

/-- Zones with the spaced layout of an actuator. -/
def ZonesEntry.spaced (z : ZonesEntry) : Nat := z.system + z.conv + z.cache

/-- Zones of an actuator. -/
def State.actZones (s : State) (a : Nat) : Nat := if s.hasAct a then (s.zonesEntry a).spaced + (s.zonesEntry a).seq else 0

/-- Zones of the drive: FMT_TOTALS.ZONES. -/
def State.zoneTotal (s : State) : Nat := s.actZones 0 + s.actZones 1

/-- The actuator of a global zone and the zone's number on it. -/
def State.zoneHome (s : State) (z : Nat) : Nat × Nat := if z < s.actZones 0 then (0, z) else (1, z - s.actZones 0)

/-- The bands of an actuator, from the outer diameter inward. -/
def State.bands (s : State) (a : Nat) : List Band := s.pattern.active.geometry.bands.filter fun b => b.act == a

/-- How many of n numbers, counted from 0, fall on head h of H. -/
def shareOf (n h heads : Nat) : Nat := (n + heads - 1 - h) / heads

/-- Find zone j of a surface that holds `sp` spaced zones first: its band's sectors per track and its first track. -/
def placeZone (selvedge : Nat) : List Band → Nat → Nat → Option (Nat × Nat)
  | [], _, _ => none
  | b :: rest, sp, j =>
    let n := b.lastTrack + 1 - b.firstTrack
    let w := spacedTracks b.spt
    let fit := min sp (if w = 0 then 0 else n / w)
    if j < fit then some (b.spt, b.firstTrack + j * w)
    else if fit < sp then placeZone selvedge rest (sp - fit) (j - fit)
    else
      let v := seqTracks b.spt + selvedge
      let g := if v = 0 then 0 else (n - fit * w) / v
      if j - fit < g then some (b.spt, b.firstTrack + fit * w + (j - fit) * v)
      else placeZone selvedge rest 0 (j - fit - g)

/-- The zone of a surface that a track lies in: its number on the surface. -/
def zoneOnTrack (selvedge track : Nat) : List Band → Nat → Nat → Option Nat
  | [], _, _ => none
  | b :: rest, sp, base =>
    let n := b.lastTrack + 1 - b.firstTrack
    let w := spacedTracks b.spt
    let v := seqTracks b.spt + selvedge
    let fit := min sp (if w = 0 then 0 else n / w)
    let g := if fit < sp ∨ v = 0 then 0 else (n - fit * w) / v
    if b.firstTrack ≤ track ∧ track ≤ b.lastTrack then
      let t := track - b.firstTrack
      if t < fit * w then some (base + t / w)
      else if t < fit * w + g * v then some (base + fit + (t - fit * w) / v)
      else none
    else zoneOnTrack selvedge track rest (sp - fit) (base + fit + g)

/-- The shape and place of a global zone (R239, R260). -/
def State.zoneShape (s : State) (z : Nat) : Option ZoneShape :=
  if s.zoneTotal ≤ z then none
  else
    let (a, k) := s.zoneHome z
    let e := s.zonesEntry a
    let heads := s.headCount a
    if heads = 0 then none
    else
      match placeZone e.selvedge (s.bands a) (shareOf e.spaced (k % heads) heads) (k / heads) with
      | none => none
      | some (spt, first) =>
        let sq := e.spaced ≤ k
        some { sequential := sq, act := a, head := k % heads, first := first, spt := spt,
               tracks := if sq then seqTracks spt + e.selvedge else spacedTracks spt }

/-- The global zone that a PSA lies in. -/
def State.zoneOfPsa (s : State) (p : Nat) : Option Nat :=
  let a := psaAct p
  let e := s.zonesEntry a
  let heads := s.headCount a
  if heads = 0 then none
  else (zoneOnTrack e.selvedge (psaTrack p) (s.bands a) (shareOf e.spaced (psaHead p) heads) 0).map fun j =>
    (if a = 0 then 0 else s.actZones 0) + j * heads + psaHead p

/-- The data slot n places past the slot at a PSA, counted along its zone (R249). -/
def State.psaAdd (s : State) (p n : Nat) : Nat :=
  if n = 0 then p
  else
    match s.zoneOfPsa p with
    | none => p
    | some z =>
      match s.zoneShape z with
      | none => p
      | some sh => match sh.slotAt p with | some d => sh.psa (d + n) | none => p

/-- The place that a zone's own layout gives a DLA. -/
def State.layoutPsa (s : State) (dla : Nat) : Nat :=
  match s.zoneShape (dla / zoneSectors) with
  | some sh => sh.psa (dla % zoneSectors)
  | none => 0

/-! ### Types and descriptors (R238, R258) -/

/-- The STATE that a zone's type gives its first descriptor. -/
def State.freshState (s : State) (z : Nat) : ZoneState :=
  let (a, k) := s.zoneHome z
  let e := s.zonesEntry a
  if k < e.system then .system
  else if k < e.system + e.conv then .conventional
  else if k < e.spaced then .cache
  else .empty

/-- The descriptor of a zone that nothing has written. -/
def State.freshDesc (s : State) (z : Nat) : ZoneDesc :=
  { gen := 0, wcount := 0, wp := 0, state := s.freshState z, restitchUsed := 0 }

/-- A zone's descriptor. -/
def State.zdesc (s : State) (z : Nat) : ZoneDesc := kgetD z s.stitch.zones (s.freshDesc z)

/-- Replace a zone's descriptor. -/
def State.setZdesc (s : State) (z : Nat) (d : ZoneDesc) : State :=
  s.modStitch fun x => { x with zones := if d = s.freshDesc z then kdel z x.zones else kput z d x.zones }

/-- A sequential zone, by its type. -/
def State.isSequential (s : State) (z : Nat) : Bool := s.freshState z == .empty

/-- The STATE code (R258). -/
def ZoneState.code : ZoneState → Nat
  | .empty => 0 | .implicitOpen => 1 | .explicitOpen => 2 | .closed => 3 | .full => 4 | .readOnly => 5 | .offline => 6
  | .conventional => 8 | .cache => 9 | .system => 10 | .rewrite => 11

/-- The state that a STATE code names. -/
def ZoneState.ofCode : Nat → Option ZoneState
  | 0 => some .empty | 1 => some .implicitOpen | 2 => some .explicitOpen | 3 => some .closed | 4 => some .full
  | 5 => some .readOnly | 6 => some .offline | 8 => some .conventional | 9 => some .cache | 10 => some .system
  | 11 => some .rewrite | _ => none

/-- Bytes 8 to 11 of a descriptor. -/
def ZoneDesc.word2 (d : ZoneDesc) : Nat := d.wp % 2 ^ 17 + d.state.code * 2 ^ 17 + d.restitchUsed % 2 ^ 11 * 2 ^ 21

/-- The host-visible write pointer of a zone, in LBAs from its start (R258). -/
def ZoneDesc.hostWp (d : ZoneDesc) : Nat := d.wp - d.restitchUsed

/-- Sectors of a zone that were written: all of a spaced zone. -/
def State.writtenRange (s : State) (z : Nat) : Nat := if s.isSequential z then min zoneSectors (s.zdesc z).hostWp else zoneSectors

/-! ### Parity (R243) -/

/-- A product by x in GF(2^8) with x^8 + x^4 + x^3 + x^2 + 1. -/
def gfDouble (b : Byte) : Byte := if b.getLsbD 7 then (b <<< 1) ^^^ 0x1D#8 else b <<< 1

/-- P and Q of one byte position, the data bytes given with the last place first: Q by Horner's rule. -/
def parityByte (l : List Byte) : Byte × Byte := l.foldl (fun a b => (a.1 ^^^ b, gfDouble a.2 ^^^ b)) (0, 0)

/-- The 64 metadata bytes of a data sector (R234). -/
def MediaSector.metadata (x : MediaSector) : List Byte :=
  leBytes 5 x.dla ++ leBytes 1 x.nsid ++ leBytes 2 0 ++ leBytes 4 x.wcount ++ leBytes 4 x.gen ++ padTo 16 x.pi ++
    padTo 16 x.auth ++ List.replicate 16 0

/-- The 4,160 bytes as sent to the serialiser; a parity sector carries them as they are. -/
def MediaSector.bytes (x : MediaSector) : List Byte :=
  if x.parity then padTo 4160 x.data else padTo 4096 x.data ++ x.metadata

/-- The content of a sector slot on the media. -/
def State.onMedia (s : State) (p : Nat) : Option MediaSector := if s.stitch.torn.contains p then none else kget p s.stitch.media

/-- Write a sector slot. -/
def State.writeMedia (s : State) (p : Nat) (x : MediaSector) : State :=
  s.modStitch fun t => { t with media := kput p x t.media, torn := t.torn.filter (· != p) }

/-- Write a sector slot in which WG fell: nothing can be read there. -/
def State.tearMedia (s : State) (p : Nat) (x : MediaSector) : State :=
  s.modStitch fun t => { t with media := kput p x t.media, torn := p :: t.torn.filter (· != p) }

/-- A slot of a sequential zone was written in a generation of the zone: what stands there from an older one counts as unwritten. -/
def State.slotWritten (s : State) (gen p : Nat) : Bool :=
  match kget p s.stitch.media with
  | some x => x.gen == gen
  | none => false

/-- The bytes that a slot contributes to its group's parity (R243, R244): those sent to the serialiser, zero for an unwritten slot. -/
def State.parityBytes (s : State) (gen p : Nat) : List Byte :=
  match kget p s.stitch.media with
  | some x => if x.gen = gen then x.bytes else List.replicate 4160 0
  | none => List.replicate 4160 0

/-- P and Q of a group in its zone's generation (R243, R244). -/
def State.groupParity (s : State) (sh : ZoneShape) (group : Nat) : List Byte × List Byte :=
  let gen := ((s.zoneOfPsa (sh.psa 0)).map fun z => (s.zdesc z).gen).getD 0
  let cols := (List.range 64).reverse.map fun k => s.parityBytes gen (sh.psa (64 * group + k))
  let pq := (List.range 4160).map fun i => parityByte (cols.map fun c => c.getD i 0)
  (pq.map (·.1), pq.map (·.2))

/-! ### Namespaces (R48, R240) -/

/-- DLA of an LBA of a namespace. -/
def NamespaceEntry.dla (n : NamespaceEntry) (lba : Nat) : Nat := n.firstZone * zoneSectors + lba

/-- LBAs of a namespace. -/
def NamespaceEntry.lbas (n : NamespaceEntry) : Nat := n.zoneCount * zoneSectors

/-- The namespace a DLA belongs to, and the LBA. -/
def State.nsOfDla (s : State) (dla : Nat) : Option (NamespaceEntry × Nat) :=
  (s.pattern.active.host.namespaces.find? fun n =>
    n.firstZone * zoneSectors ≤ dla && dla < (n.firstZone + n.zoneCount) * zoneSectors).map fun n =>
      (n, dla - n.firstZone * zoneSectors)

end Sys2Proof.Machine
end

