-- ==== Sys2Proof/Machine/Stitch.lean ====
section
/-!
DEFINITION. Sys2Proof/Machine/Stitch.lean: the Stitch map and its walker (R249 to R254), the journal (R103, R255), checkpoints
(R256), the rebuild at cast-on (R257), generations (R259), and the claims through which relocations reach the map (R329,
R345).
-/

namespace Sys2Proof.Machine

/-! ### Resolving an address (R249, R250) -/

/-- The DLA after an entry's last. -/
def MapEntry.stop (e : MapEntry) : Nat := e.lstart + e.length

/-- The entry covers a DLA. -/
def MapEntry.covers (e : MapEntry) (d : Nat) : Bool := e.lstart ≤ d && d < e.stop

/-- The entry's generation is not its zone's. -/
def State.stale (s : State) (e : MapEntry) : Bool := e.gen != (s.zdesc (e.lstart / zoneSectors)).gen % 65536

/-- All entries, in DLA order. -/
def State.entries (s : State) : List MapEntry := s.stitch.leaves.flatten

/-- The entry that applies to a DLA. -/
def State.entryAt (s : State) (d : Nat) : Option MapEntry := s.entries.find? fun e => e.covers d && !s.stale e

/-- Where a sector is found. -/
inductive SectorPlace where
  | at (psa : Nat)
  | unwritten
  | unreadable
  deriving DecidableEq, Repr

/-- The snapshot of a zone in REWRITE (R360): its old generation and its entries. -/
def State.snapshotOf (s : State) (z : Nat) : Option (Nat × List MapEntry) :=
  (s.stitch.snapshots.find? fun x => x.1 == z).map fun x => (x.2.1, x.2.2.1)

/-- What an entry answers for a DLA it covers. -/
def State.placeIn (s : State) (e : MapEntry) (d : Nat) : SectorPlace :=
  if e.unreadable then .unreadable else if e.unwritten then .unwritten else .at (s.psaAdd e.phys (d - e.lstart))

/-- Resolve a DLA (R250); in a zone under rewrite, what has no entry of the new generation through the snapshot (R360). -/
def State.resolve (s : State) (d : Nat) : SectorPlace :=
  match s.entryAt d with
  | some e => s.placeIn e d
  | none =>
    match (s.snapshotOf (d / zoneSectors)).bind fun x => x.2.find? fun e => e.covers d with
    | some e => s.placeIn e d
    | none => .at (s.layoutPsa d)

/-- The generation that a read of a DLA expects (R214, R360). -/
def State.expectedGen (s : State) (d : Nat) : Nat :=
  match s.entryAt d, s.snapshotOf (d / zoneSectors) with
  | none, some x => x.1
  | _, _ => (s.zdesc (d / zoneSectors)).gen

/-- One segment from a DLA on, of at most `count` sectors. -/
def State.segment (s : State) (d count : Nat) : Segment × Nat :=
  let zoneEnd := (d / zoneSectors + 1) * zoneSectors
  match s.entryAt d with
  | some e =>
    let n := min count (e.stop - d)
    (match s.resolve d with | .at p => .place p n | .unwritten => .unwritten n | .unreadable => .unreadable n, n)
  | none =>
    let next := s.entries.foldl (fun m e => if d < e.lstart ∧ !s.stale e then min m e.lstart else m) zoneEnd
    let n := min count (next - d)
    (.place (s.layoutPsa d) n, n)

/-- Up to k segments covering a range (R252, LOOKUP). -/
def State.segments (s : State) : Nat → Nat → Nat → List Segment
  | 0, _, _ => []
  | k + 1, d, count =>
    if count = 0 then []
    else
      let r := s.segment d count
      if r.2 = 0 then [] else r.1 :: s.segments k (d + r.2) (count - r.2)

/-! ### Leaves (R251) -/

/-- An entry cut to the part from DLA `a` up to `b`. -/
def State.cutEntry (s : State) (e : MapEntry) (a b : Nat) : List MapEntry :=
  let lo := max a e.lstart
  let hi := min b e.stop
  if lo < hi then
    [{ e with lstart := lo, length := hi - lo,
              phys := if e.unwritten || e.unreadable then 0 else s.psaAdd e.phys (lo - e.lstart) }]
  else []

/-- An entry with a range taken out: what is left of it at either side. -/
def State.trimEntry (s : State) (a b : Nat) (e : MapEntry) : List MapEntry :=
  if e.stop ≤ a ∨ b ≤ e.lstart then [e] else s.cutEntry e 0 a ++ s.cutEntry e b e.stop

/-- Insert an entry in LSTART order. -/
def insertEntry (e : MapEntry) : List MapEntry → List MapEntry
  | [] => [e]
  | f :: rest => if e.lstart < f.lstart then e :: f :: rest else f :: insertEntry e rest

/-- A leaf's lowest LSTART. -/
def leafKey (l : List MapEntry) : Nat := ((l.head?).map (·.lstart)).getD 0

/-- Insert an entry into the leaf that its LSTART belongs to. -/
def insertInLeaves (e : MapEntry) : List (List MapEntry) → List (List MapEntry)
  | [] => [[e]]
  | [l] => [insertEntry e l]
  | l :: m :: rest => if leafKey m ≤ e.lstart then l :: insertInLeaves e (m :: rest) else insertEntry e l :: m :: rest

/-- Leaves beyond 256 entries split; empty leaves are freed. -/
def splitLeaves (l : List (List MapEntry)) : List (List MapEntry) :=
  (l.filter fun x => !x.isEmpty).flatMap fun x =>
    if x.length ≤ 256 then [x] else [x.take (x.length / 2), x.drop (x.length / 2)]

/-- Leaves in STITCH_MAP. -/
def leafTotal : Nat := 16384

/-- An entry that only says what the layout of its zone says is none. -/
def State.isLayout (s : State) (e : MapEntry) : Bool :=
  !e.unwritten && !e.unreadable && !e.noParity && !e.cache && e.phys == s.layoutPsa e.lstart

/-- The leaves with the mapping of a range replaced by an entry. -/
def State.leavesWith (s : State) (e : MapEntry) : List (List MapEntry) :=
  let cut := s.stitch.leaves.map fun l => l.flatMap (s.trimEntry e.lstart e.stop)
  let cut := cut.filter fun x => !x.isEmpty
  splitLeaves (if s.isLayout e then cut else insertInLeaves e cut)

/-- STM_USAGE and STM_LEAVES follow the map. -/
def State.mapUsage (s : State) : State :=
  (s.setFld F.STM_USAGE_ENTRIES (s.stitch.leaves.foldl (fun m l => m + l.length) 0)).setFld F.STM_LEAVES_FREE
    (leafTotal - s.stitch.leaves.length)

/-- The map with the mapping of a range replaced. -/
def State.replaceRange (s : State) (e : MapEntry) : State :=
  (s.modStitch fun x => { x with leaves := s.leavesWith e }).mapUsage

/-! ### The layouts of a map entry, a zone descriptor and a journal record (R249, R255, R258) -/

/-- The 16 bytes of a map entry (R249). -/
def MapEntry.bytes (e : MapEntry) : List Byte :=
  leBytes 5 e.lstart ++ leBytes 3 e.length ++ leBytes 5 e.phys ++ leBytes 2 e.gen ++
    leBytes 1 (([e.cache, e.unwritten, e.unreadable, e.noParity, e.pending].zipIdx.map fun b => if b.1 then 2 ^ b.2 else 0).sum)

/-- The 16 bytes of a zone descriptor (R258). -/
def ZoneDesc.bytes (d : ZoneDesc) : List Byte :=
  leBytes 4 d.gen ++ leBytes 4 d.wcount ++ leBytes 4 d.word2 ++ leBytes 4 0

/-- The place of a request in R252's table, from which its type code comes (assumption log 114). -/
def WalkerRequest.place : WalkerRequest → Nat
  | .lookup .. => 0
  | .map .. => 1
  | .extend .. => 2
  | .flags .. => 3
  | .genBump .. => 4
  | .desc .. => 5

/-- Bytes 12 to 27 of a journal record: the resulting entry, or the zone with its generation and WCOUNT or its descriptor from
byte 8 on. -/
def JournalRecord.result (r : JournalRecord) : List Byte :=
  match r.entry, r.request with
  | some e, _ => e.bytes
  | none, .genBump _ => leBytes 4 r.zone ++ r.desc.bytes.take 8 ++ leBytes 4 0
  | none, _ => leBytes 4 r.zone ++ r.desc.bytes.drop 8 ++ leBytes 4 0

/-- The 32 bytes of a journal record (R255). -/
def JournalRecord.bytes (r : JournalRecord) : List Byte :=
  let body := leBytes 8 r.seq ++ [Config.requestType r.request.place] ++ leBytes 3 0 ++ r.result
  body ++ leBytes 4 (crc32c body).toNat

/-! ### The journal (R255) -/

/-- Records not yet on media. -/
def State.offMedia (s : State) : Nat := s.stitch.page.length + s.stitch.written.foldl (fun m p => m + p.length) 0

/-- STM_JOURNAL follows the records. -/
def State.journalReg (s : State) : State := s.setFld F.STM_JOURNAL_PENDING_KIB (ceilDiv (s.offMedia * 32) 1024)

/-- Journal a completed request. -/
def State.journalOne (s : State) (r : WalkerRequest) (e : Option MapEntry) (zone : Nat) : State :=
  (s.modStitch fun x =>
    { x with nextSeq := x.nextSeq + 1,
             page := x.page ++ [{ seq := x.nextSeq, request := r, entry := e, zone := zone, desc := s.zdesc zone }] }).journalReg

/-- The limit of R103 applies: the effective ceiling is above 0. -/
def State.journalBound (s : State) : Bool := s.on F.KEEP_CEILING_EFFECTIVE_MIB

/-- 2 MiB of records are not on media while the effective ceiling is above 0 (R103). -/
def State.journalFull (s : State) : Bool := s.journalBound && 65536 ≤ s.offMedia

/-- A request's own records took the journal past the limit (R103). -/
def State.journalOver (s : State) : Bool := s.journalBound && 65536 < s.offMedia

/-! ### Claims (R329) -/

/-- An open claim. -/
def State.claim (s : State) (i : Nat) : Option Claim := s.flow.claims.find? fun c => c.index == i

/-- The parts of a range that its claim leaves: runs of sectors that are not superseded. -/
def claimRuns (sup : List Nat) : Nat → Nat → List (Nat × Nat)
  | _, 0 => []
  | d, n + 1 =>
    if sup.contains d then claimRuns sup (d + 1) n
    else
      match claimRuns sup (d + 1) n with
      | (a, k) :: rest => if a = d + 1 then (d, k + 1) :: rest else (d, 1) :: (a, k) :: rest
      | [] => [(d, 1)]

/-- The runs of a request's range that pass the tracker, and the state with the sectors removed counted. -/
def State.throughClaim (s : State) (claim : Option Nat) (d n : Nat) : List (Nat × Nat) × State :=
  match claim.bind s.claim with
  | none => (if n = 0 then [] else [(d, n)], s)
  | some c =>
    let cut := (c.superseded.filter fun x => d ≤ x && x < d + n).length
    if cut = 0 then ([(d, n)], s)
    else (claimRuns c.superseded d n, (s.addSat F.ORD_OVL_COUNTS_TRIMMED cut).flag F.ORD_OVL_EV_TRIMMED)

/-! ### Requests (R252) -/

/-- A generation that a request expects is the zone's. -/
def State.genOk (s : State) (zone gen : Nat) : Bool := (s.zdesc zone).gen == gen

/-- Replace a range and journal the result; none when the free leaves do not suffice. -/
def State.putEntry (s : State) (r : WalkerRequest) (e : MapEntry) : Option State :=
  if leafTotal < (s.leavesWith { e with pending := true }).length then none
  else some ((s.replaceRange { e with pending := true }).journalOne r (some e) (e.lstart / zoneSectors))

/-- Put several entries, all or none. -/
def State.putEntries (r : WalkerRequest) : List MapEntry → State → Option State
  | [], s => some s
  | e :: rest, s => (s.putEntry r e).bind (State.putEntries r rest)

/-- The flags that byte 15 of an entry numbers. -/
def MapEntry.flagBits (e : MapEntry) : Nat :=
  (if e.cache then 1 else 0) + (if e.unwritten then 2 else 0) + (if e.unreadable then 4 else 0) + (if e.noParity then 8 else 0)

/-- The entry with flags as a mask gives them; a flag that gives no place clears PHYS. -/
def MapEntry.withFlags (e : MapEntry) (m layout : Nat) : MapEntry :=
  let e := { e with cache := m.testBit 0, unwritten := m.testBit 1, unreadable := m.testBit 2, noParity := m.testBit 3 }
  if e.unwritten || e.unreadable then { e with phys := 0 } else if e.phys = 0 then { e with phys := layout } else e

/-- The pieces of a range as FLAGS sees them: what its entries cover, and between them what the layout gives. -/
def State.pieces (s : State) : Nat → Nat → Nat → List MapEntry
  | 0, _, _ => []
  | k + 1, d, count =>
    if count = 0 then []
    else
      let gen := (s.zdesc (d / zoneSectors)).gen % 65536
      let r := s.segment d count
      if r.2 = 0 then []
      else
        let e := match s.entryAt d with
          | some e => s.cutEntry e d (d + r.2)
          | none => [{ lstart := d, length := r.2, phys := s.layoutPsa d, gen := gen, cache := false, unwritten := false,
                       unreadable := false, noParity := false, pending := false }]
        e ++ s.pieces k (d + r.2) (count - r.2)

/-- A range kept within its zone. -/
def clipToZone (d n : Nat) : Nat := min n ((d / zoneSectors + 1) * zoneSectors - d)

/-- A stale request is refused. -/
def State.refuseStale (s : State) : WalkerReply × State := (.stale, s.flag F.STM_EV_STALE_REFUSED)

/-- MAP. -/
def State.walkMap (s : State) (r : WalkerRequest) (e : MapEntry) (gen : Nat) (claim : Option Nat) : Option (WalkerReply × State) :=
  let z := e.lstart / zoneSectors
  if s.zoneTotal ≤ z then some (.noEntry, s)
  else if !s.genOk z gen then some s.refuseStale
  else
    let (runs, s) := s.throughClaim claim e.lstart (clipToZone e.lstart e.length)
    let parts := runs.flatMap fun p => s.cutEntry { e with gen := gen % 65536 } p.1 (p.1 + p.2)
    (State.putEntries r parts s).map fun s => (.done, s)

/-- EXTEND. -/
def State.walkExtend (s : State) (r : WalkerRequest) (d length gen : Nat) : Option (WalkerReply × State) :=
  let z := d / zoneSectors
  if !s.genOk z gen then some s.refuseStale
  else
    match s.entryAt d with
    | none => some (.noEntry, s)
    | some e =>
      let e' := { e with length := clipToZone e.lstart (max e.length length) }
      (s.putEntry r e').map fun s => (.done, s)

/-- FLAGS. -/
def State.walkFlags (s : State) (r : WalkerRequest) (d n set clear gen : Nat) (claim : Option Nat) : Option (WalkerReply × State) :=
  let z := d / zoneSectors
  if s.zoneTotal ≤ z then some (.noEntry, s)
  else if !s.genOk z gen then some s.refuseStale
  else
    let (runs, s) := s.throughClaim claim d (clipToZone d n)
    let parts := runs.flatMap fun p => (s.pieces zoneSectors p.1 p.2).map fun e =>
      e.withFlags ((e.flagBits ||| set) &&& (15 ^^^ (clear % 16))) (s.layoutPsa e.lstart)
    (State.putEntries r parts s).map fun s => (.done, s)

/-- Increment a zone's generation; past its end the zone is OFFLINE (R259). -/
def State.bumpGen (s : State) (z : Nat) : WalkerReply × State :=
  let d := s.zdesc z
  if d.gen = 0xFFFFFFFF then (.offline, s.setZdesc z { d with state := .offline })
  else (.done, s.setZdesc z { d with gen := d.gen + 1, wcount := 0 })

/-- GEN_BUMP. -/
def State.walkGenBump (s : State) (z : Nat) : WalkerReply × State :=
  let r := s.bumpGen z
  (r.1, r.2.journalOne (.genBump z) none z)

/-- DESC. -/
def State.walkDesc (s : State) (z wp : Nat) (st : ZoneState) (used : Nat) : WalkerReply × State :=
  (.done, (s.setZdesc z { s.zdesc z with wp := wp, state := st, restitchUsed := used }).journalOne (.desc z wp st used) none z)

/-- The zone a request concerns, and its DLA range. -/
def WalkerRequest.range : WalkerRequest → Nat × Nat
  | .lookup d n => (d, n)
  | .map e _ _ => (e.lstart, e.length)
  | .extend d n _ => (d, n)
  | .flags d n _ _ _ _ => (d, n)
  | .genBump z => (z * zoneSectors, zoneSectors)
  | .desc z _ _ _ => (z * zoneSectors, zoneSectors)

/-- The part of the map that a rebuild names: a leaf by its lowest LSTART, or a zone's descriptor beyond 2^40 (R253). -/
def zonePart (z : Nat) : Nat := 2 ^ 40 + z

/-- The DLAs that the leaf with a key stands for: up to the next leaf's key, the first leaf from 0 on (R251). -/
def leafSpan (k : Nat) : List (List MapEntry) → Nat → Option (Nat × Option Nat)
  | [], _ => none
  | l :: rest, from_ => if leafKey l = k then some (from_, (rest.head?).map leafKey) else leafSpan k rest (((rest.head?).map leafKey).getD from_)

/-- A range touches a leaf, or the descriptor of a zone, under rebuild. -/
def State.underRebuild (s : State) (d n : Nat) : Bool :=
  s.stitch.rebuilding.any fun k =>
    if 2 ^ 40 ≤ k then zonePart (d / zoneSectors) == k
    else match leafSpan k s.stitch.leaves 0 with
      | some (lo, hi) => decide (lo < d + max n 1) && hi.all fun h => decide (d < h)
      | none => false

/-- A request that updates the map. -/
def WalkerRequest.updates : WalkerRequest → Bool
  | .lookup _ _ => false
  | _ => true

/-- Carry out one request; none when it needs more entries than the free leaves provide (R254). -/
def State.carryOut (s : State) (r : WalkerRequest) : Option (WalkerReply × State) :=
  match r with
  | .lookup d n => some (.segments (s.segments 8 d n), s)
  | .map e gen c => s.walkMap r e gen c
  | .extend d n gen => s.walkExtend r d n gen
  | .flags d n set clr gen c => s.walkFlags r d n set clr gen c
  | .genBump z => some (s.walkGenBump z)
  | .desc z wp st used => some (s.walkDesc z wp st used)

/-- The answer of the walker. -/
def State.answer (s : State) (a : WalkerReply) : State := s.modStitch fun x => { x with reply := a }

/-- Hold an update until a leaf is free or the journal has room. -/
def State.holdUpdate (s : State) (r : WalkerRequest) : State :=
  (s.modStitch fun x => { x with held := x.held ++ [r] }).answer .held

/-- No leaf is free: FULL (R254). -/
def State.mapFull (s : State) : State :=
  if s.on F.STM_STATUS_FULL then s else ((s.flag F.STM_STATUS_FULL).flag F.STM_EV_FULL_ENTERED).event 16 1 5 0 0

/-- A request reaches the walker (R252 to R254). -/
def State.walker (s : State) (r : WalkerRequest) : State :=
  if s.underRebuild r.range.1 r.range.2 then
    (s.modStitch fun x => { x with heldRebuild := x.heldRebuild ++ [r] }).answer .held
  else if r.updates && !s.stitch.held.isEmpty then s.holdUpdate r
  else
    match s.carryOut r with
    | some (a, s') => if r.updates && s'.journalOver then s.holdUpdate r else s'.answer a
    | none => (s.mapFull).holdUpdate r

/-- The requests held go on, in order, as far as they can. -/
def State.retryHeld (s : State) : List WalkerRequest → State
  | [] => (s.modStitch fun x => { x with held := [] }).clr F.STM_STATUS_FULL
  | r :: rest =>
    match s.carryOut r with
    | some (a, s') => if s'.journalOver then s.modStitch fun x => { x with held := r :: rest } else (s'.answer a).retryHeld rest
    | none => s.modStitch fun x => { x with held := r :: rest }

/-- The walker holds requests. -/
def State.walkerHolds (s : State) : Bool := !s.stitch.held.isEmpty || !s.stitch.heldRebuild.isEmpty

/-- The generation that a zone has once the requests that wait have been carried out (R252: arrival order). -/
def State.genSoon (s : State) (z : Nat) : Nat :=
  (s.zdesc z).gen + ((s.stitch.held ++ s.stitch.heldRebuild).filter fun r => r == .genBump z).length

/-- Requests held, if any, are tried again. -/
def State.releaseHeld (s : State) : State := if s.stitch.held.isEmpty then s else s.retryHeld s.stitch.held

/-! ### The rows of the walker -/

/-- WALKER_LOOKUP (R252, R253): answered from the on-die cache or from DRAM. -/
def execWalkerLookup (d n : Nat) (hit : Bool) (s : State) : Host.Outcome State Fault Refusal :=
  .next ((s.count (if hit then F.STM_CACHE_HIT_HITS else F.STM_CACHE_MISS_MISSES)).walker (.lookup d n))

/-- WALKER_MAP (R252). -/
def execWalkerMap (lstart length : Nat) (place : MapPlace) (cache unwritten unreadable : Bool) (gen : Nat) (claim : Option Nat) (s : State) :
    Host.Outcome State Fault Refusal :=
  .next (s.walker (.map
    { lstart := lstart, length := length, phys := if unwritten || unreadable then 0 else place.phys, gen := gen % 65536,
      cache := cache, unwritten := unwritten, unreadable := unreadable, noParity := place.noParity, pending := false } gen claim))

/-- WALKER_EXTEND (R252). -/
def execWalkerExtend (d length gen : Nat) (s : State) : Host.Outcome State Fault Refusal := .next (s.walker (.extend d length gen))

/-- WALKER_FLAGS (R252). -/
def execWalkerFlags (d n set clear gen : Nat) (claim : Option Nat) (s : State) : Host.Outcome State Fault Refusal :=
  .next (s.walker (.flags d n set clear gen claim))

/-- WALKER_GEN_BUMP (R252, R259). -/
def execWalkerGenBump (z : Nat) (s : State) : Host.Outcome State Fault Refusal :=
  if s.zoneTotal ≤ z then .next s else .next (s.walker (.genBump z))

/-- WALKER_DESC (R252): a reserved STATE code writes nothing. -/
def execWalkerDesc (z wp st used : Nat) (s : State) : Host.Outcome State Fault Refusal :=
  match ZoneState.ofCode st with
  | some st => if s.zoneTotal ≤ z then .next s else .next (s.walker (.desc z (wp % 2 ^ 17) st (used % 2 ^ 11)))
  | none => .next s

/-- The first two adjacent leaves that are each less than half full, merged. -/
def mergeLeaves : List (List MapEntry) → Option (List (List MapEntry))
  | [] => none
  | [_] => none
  | l :: m :: rest =>
    if l.length < 128 ∧ m.length < 128 then some ((l ++ m) :: rest) else (mergeLeaves (m :: rest)).map (l :: ·)

/-- LEAF_MERGE (R251, R254). -/
def execLeafMerge (s : State) : Host.Outcome State Fault Refusal :=
  if s.fld F.STM_CTRL_LOW_LEAVES ≤ s.fld F.STM_LEAVES_FREE || !s.stitch.rebuilding.isEmpty then .next s
  else
    match mergeLeaves s.stitch.leaves with
    | some l => .next ((s.modStitch fun x => { x with leaves := l }).mapUsage.releaseHeld)
    | none => .next s

/-- The leaves without the first stale entry. -/
def State.dropStale (s : State) : List (List MapEntry) → List (List MapEntry)
  | [] => []
  | l :: rest =>
    match l.find? s.stale with
    | some e => (if (l.erase e).isEmpty then rest else l.erase e :: rest)
    | none => l :: s.dropStale rest

/-- STALE_ENTRY_DELETE (R250). -/
def execStaleEntryDelete (s : State) : Host.Outcome State Fault Refusal :=
  if s.stitch.rebuilding.isEmpty then
    .next ((s.modStitch fun x => { x with leaves := s.dropStale x.leaves }).mapUsage.releaseHeld)
  else .next s

/-- JOURNAL_PAGE_WRITE (R255): a full page, or a partial page that is 4 Rows old. -/
def execJournalPageWrite (s : State) : Host.Outcome State Fault Refusal :=
  let n := if 128 ≤ s.stitch.page.length then 128 else if 4 ≤ s.stitch.pageAge then s.stitch.page.length else 0
  if n = 0 then .next s
  else .next (s.modStitch fun x =>
    { x with page := x.page.drop n, written := x.written ++ [x.page.take n], pagesSince := x.pagesSince + 1, pageAge := 0 })

/-- The PENDING flag of an entry falls when its record is on media. -/
def clearPending (l : List JournalRecord) (e : MapEntry) : MapEntry :=
  if l.any fun r => match r.entry with | some f => f.lstart ≤ e.lstart && e.stop ≤ f.stop | none => false then
    { e with pending := false } else e

/-- JOURNAL_ON_MEDIA (R255): both copies of the oldest page written verify. -/
def execJournalOnMedia (s : State) : Host.Outcome State Fault Refusal :=
  match s.stitch.written with
  | [] => .next s
  | p :: rest =>
    let later := rest.flatten ++ s.stitch.page
    let s := s.modStitch fun x =>
      { x with written := rest, journal := x.journal ++ p,
               leaves := x.leaves.map fun l => l.map fun e =>
                 if (clearPending later e).pending == e.pending then clearPending p e else e }
    let s := s.setWide F.STM_JSEQ_LO_SEQ_LO F.STM_JSEQ_HI_SEQ_HI ((p.getLast?.map (·.seq)).getD 0)
    .next s.journalReg.releaseHeld

/-! ### Checkpoints (R256) -/

/-- Start a checkpoint, to the slot that does not hold the newer complete one. -/
def State.startCheckpoint (s : State) : State :=
  if s.stitch.writing.isSome then s
  else
    let slot := if s.stitch.checkpoints.isEmpty then 0 else 1 - s.fld F.STM_STATUS_CKPT_SLOT
    (s.modStitch fun x =>
      { x with pagesSince := 0, checkpoints := x.checkpoints.take 1,
               writing := some (slot, { startSeq := x.nextSeq - 1, leaves := x.leaves, zones := x.zones, complete := false }) }).flag
      F.STM_STATUS_CKPT_BUSY

/-- CHECKPOINT_START (R256). -/
def execCheckpointStart (s : State) : Host.Outcome State Fault Refusal :=
  if s.fld F.STM_CTRL_CKPT_PAGES ≤ s.stitch.pagesSince then .next s.startCheckpoint else .next s

/-- CKPT_REQ (R256). -/
def execCkptReq (s : State) : Host.Outcome State Fault Refusal := .next s.startCheckpoint

/-- CHECKPOINT_DONE (R256): the trailer is written; journal zones whose every record is older are reset. -/
def execCheckpointDone (s : State) : Host.Outcome State Fault Refusal :=
  match s.stitch.writing with
  | none => .next s
  | some (slot, c) =>
    .next (((s.modStitch fun x =>
      { x with writing := none, checkpoints := { c with complete := true } :: x.checkpoints,
               journal := x.journal.filter fun r => c.startSeq < r.seq }).setFld F.STM_STATUS_CKPT_SLOT slot).clr
      F.STM_STATUS_CKPT_BUSY)

/-! ### Notices of a zone (R281, R291) -/

/-- A zone's state changed without a host command: the changed zone list, and the notice to the attached controllers. -/
def State.zoneNotice (s : State) (z : Nat) : State :=
  let s := s.modHost fun h => { h with changedZones := if h.changedZones.contains z then h.changedZones else h.changedZones ++ [z] }
  match s.nsOfDla (z * zoneSectors) with
  | some (n, _) => s.postAsync 2 0xEF fun c => s.attachedTo n.nsid c
  | none => s

/-! ### Rebuild at cast-on (R257) -/

/-- Insert a record in sequence order, once. -/
def insertRecord (r : JournalRecord) : List JournalRecord → List JournalRecord
  | [] => [r]
  | q :: rest => if r.seq < q.seq then r :: q :: rest else if r.seq = q.seq then q :: rest else q :: insertRecord r rest

/-- Replay one record: it carries the result. -/
def State.replay (s : State) (r : JournalRecord) : State :=
  match r.entry with
  | some e => s.replaceRange e
  | none => s.setZdesc r.zone r.desc

/-- A zone named after the gap: FULL, its written range UNREADABLE. -/
def State.loseZone (s : State) (r : JournalRecord) : State :=
  let d := if (s.zdesc r.zone).wp ≤ r.desc.wp then r.desc else { s.zdesc r.zone with gen := r.desc.gen }
  let s := s.setZdesc r.zone { d with state := .full }
  let n := s.writtenRange r.zone
  if n = 0 then s
  else s.replaceRange
    { lstart := r.zone * zoneSectors, length := n, phys := 0, gen := d.gen % 65536, cache := false, unwritten := false,
      unreadable := true, noParity := false, pending := false }

/-- The records that a rebuild replays, in sequence order. -/
def State.replayList (s : State) (start : Nat) : List JournalRecord :=
  ((s.stitch.journal ++ s.stitch.savedTail).filter fun r => start < r.seq).foldl (fun l r => insertRecord r l) []

/-- Rebuild the map from the newest checkpoint and the journal. -/
def State.rebuildMap (s : State) (missing : Option Nat) : State :=
  let c := ((s.stitch.checkpoints.filter (·.complete)).head?).getD { startSeq := 0, leaves := [], zones := [], complete := true }
  let l := s.replayList c.startSeq
  let s := (s.modStitch fun x =>
    { x with leaves := c.leaves, zones := c.zones, held := [], heldRebuild := [], rebuilding := [], page := [], written := [],
             writing := none, pagesSince := 0, pageAge := 0, journal := l,
             nextSeq := max x.nextSeq (((l.getLast?).map fun r => r.seq + 1).getD (c.startSeq + 1)) }).mapUsage
  let before := l.filter fun r => match missing with | some m => r.seq < m | none => true
  let after := l.filter fun r => match missing with | some m => m < r.seq | none => false
  let s := before.foldl State.replay s
  let s := if after.isEmpty then s
    else ((after.map (·.zone)).eraseDups.foldl State.zoneNotice (after.foldl State.loseZone s)).flag F.STM_EV_REPLAY_GAP
  let s := s.setWide F.STM_JSEQ_LO_SEQ_LO F.STM_JSEQ_HI_SEQ_HI ((l.getLast?.map (·.seq)).getD c.startSeq)
  (((s.clr F.STM_STATUS_REBUILDING).clr F.STM_STATUS_FULL).clr F.STM_STATUS_CKPT_BUSY).journalReg.flag F.STM_STATUS_READY

/-- MAP_REBUILD (R257): once the logic die runs and the map is not ready. -/
def execMapRebuild (missing : Option Nat) (s : State) : Host.Outcome State Fault Refusal :=
  if s.keeper.inReset || !s.cast.built || s.on F.STM_STATUS_READY then .next s else .next (s.rebuildMap missing)

/-! ### Rebuild of a part (R253) -/

/-- Mark a leaf, or a zone's descriptor, for rebuild (R373, R379). -/
def State.startRebuild (s : State) (k : Nat) : State :=
  if s.stitch.rebuilding.contains k then s
  else (s.modStitch fun x => { x with rebuilding := x.rebuilding ++ [k] }).flag F.STM_EV_LEAF_REBUILD

/-- A rebuild of a part ends: the requests held on it go on. -/
def State.endRebuild (s : State) (k : Nat) : State :=
  let waiting := s.stitch.heldRebuild
  let s := s.modStitch fun x => { x with rebuilding := x.rebuilding.filter (· != k), heldRebuild := [] }
  waiting.foldl State.walker s

/-! ### Claims (R345) -/

/-- FREE and SUPERSEDED follow the claims. -/
def State.claimRegs (s : State) : State :=
  (s.setFld F.ORD_CLAIM_STATUS_FREE (64 - s.flow.claims.length)).setFld F.ORD_CLAIM_STATUS_SUPERSEDED
    (min (((s.claim (s.fld F.ORD_CLAIM_CMD_INDEX)).map fun c => c.superseded.length).getD 0) 65535)

/-- The lowest claim index that is not open. -/
def State.freeClaim (s : State) : Option Nat := (List.range 64).find? fun i => (s.claim i).isNone

/-- DLAs of a range that a write not yet media-complete covers (R329). -/
def State.writesOver (s : State) (d n : Nat) : List Nat :=
  (List.range n).map (d + ·) |>.filter fun x =>
    s.flow.slots.any fun w => w.isWrite && !w.mediaComplete && w.dla ≤ x && x < w.dla + w.lbas

/-- Open a claim over a range; none when no claim is free or the range crosses a zone. -/
def State.openClaim (s : State) (owner d n : Nat) : Option Nat × State :=
  match s.freeClaim with
  | none => (none, s)
  | some i =>
    if n = 0 ∨ d / zoneSectors ≠ (d + n - 1) / zoneSectors then (none, s)
    else
      (some i, (s.modFlow fun f =>
        { f with claims := f.claims ++ [{ index := i, dla := d, count := n, superseded := s.writesOver d n, owner := owner }] }).claimRegs)

/-- Close a claim. -/
def State.closeClaim (s : State) (i : Nat) : State :=
  (s.modFlow fun f => { f with claims := f.claims.filter fun c => c.index != i }).claimRegs

/-- CLAIM_OPEN (R345): the range of ORD_CLAIM_DLA. -/
def execClaimOpen (owner : Nat) (s : State) : Host.Outcome State Fault Refusal :=
  let d := s.fld F.ORD_CLAIM_DLA_LO_DLA_LO + 2 ^ 32 * s.fld F.ORD_CLAIM_DLA_HI_DLA_HI
  match s.openClaim owner d (s.fld F.ORD_CLAIM_DLA_HI_LEN_M1 + 1) with
  | (some i, s) => .next ((s.setFld F.ORD_CLAIM_STATUS_OPENED i).flag F.ORD_CLAIM_STATUS_OK)
  | (none, s) => .next ((s.clr F.ORD_CLAIM_STATUS_OK).flag F.ORD_OVL_EV_CLAIM_REFUSED)

/-- CLAIM_CLOSE (R345). -/
def execClaimClose (index : Nat) (s : State) : Host.Outcome State Fault Refusal :=
  let s := s.setFld F.ORD_CLAIM_CMD_INDEX index
  let i := s.fld F.ORD_CLAIM_CMD_INDEX
  if (s.claim i).isSome then .next ((s.closeClaim i).flag F.ORD_CLAIM_STATUS_OK)
  else .next ((s.clr F.ORD_CLAIM_STATUS_OK).flag F.ORD_OVL_EV_CLAIM_REFUSED)

/-! ### Zone generations and cache zones (R247, R259) -/

/-- The cache zones of an actuator as global zone numbers. -/
def State.cacheZones (s : State) (a : Nat) : List Nat :=
  let e := s.zonesEntry a
  if s.hasAct a then (List.range e.cache).map fun k => (if a = 0 then 0 else s.actZones 0) + e.system + e.conv + k else []

/-- The cache zone that the log of an actuator fills: its last, or the first that the log does not hold. -/
def State.logZone (s : State) (a n : Nat) : Option Nat :=
  let zones := s.cacheZones a
  let logged := s.stitch.cacheLog.filter fun x => zones.contains x.1
  let room (z : Nat) : Bool := (s.zdesc z).wp + n ≤ zoneSectors
  match logged.getLast? with
  | some x => if room x.1 then some x.1 else zones.find? fun z => !(logged.any fun y => y.1 == z)
  | none => zones.head?

/-- Append a record of sectors to the cache log of an actuator: its first PSA. -/
def State.appendCache (s : State) (a dla n : Nat) : Option (Nat × State) :=
  match s.logZone a n with
  | none => none
  | some z =>
    match s.zoneShape z with
    | none => none
    | some sh =>
      let d := s.zdesc z
      let p := sh.psa d.wp
      let had := kget2 z s.stitch.cacheLog
      let s := s.modStitch fun x =>
        { x with cacheLog := match had with
            | some _ => replaceIf (fun y => y.1 == z) (fun y => (y.1, y.2 ++ [(p, dla, n)])) x.cacheLog
            | none => x.cacheLog ++ [(z, [(p, dla, n)])] }
      some (p, s.setZdesc z { d with wp := d.wp + n })
where
  kget2 (z : Nat) (l : List (Nat × List (Nat × Nat × Nat))) : Option (List (Nat × Nat × Nat)) :=
    (l.find? fun y => y.1 == z).map (·.2)

/-- The sectors of a cache record that are still mapped to it. -/
def State.liveSectors (s : State) (p dla n : Nat) : List Nat :=
  (List.range n).filter fun i => match s.resolve (dla + i) with | .at q => q == s.psaAdd p i | _ => false

/-- Move one live sector of a cache record: home where its zone may be written in place, else to the head of the log,
unchanged (R235, R247). -/
def State.moveSector (s : State) (a p dla i : Nat) : State :=
  let d := dla + i
  let z := d / zoneSectors
  let put (s : State) (q : Nat) (cache : Bool) : State :=
    let s := match s.onMedia (s.psaAdd p i) with | some x => s.writeMedia q x | none => s
    s.walker (.map { lstart := d, length := 1, phys := q, gen := (s.zdesc z).gen % 65536, cache := cache, unwritten := false,
                     unreadable := false, noParity := false, pending := false } (s.zdesc z).gen none)
  if s.freshState z == .conventional then put s (s.layoutPsa d) false
  else match s.appendCache a d 1 with
    | some (q, s) => put s q true
    | none => s

/-- The oldest cache zone of the log of an actuator, with its records. -/
def State.oldestCache (s : State) (a : Nat) : Option (Nat × List (Nat × Nat × Nat)) :=
  s.stitch.cacheLog.find? fun x => (s.cacheZones a).contains x.1

/-- The live sectors of a list of cache records: first PSA, first DLA, place. -/
def State.liveIn (s : State) (l : List (Nat × Nat × Nat)) : List (Nat × Nat × Nat) :=
  l.flatMap fun r => (s.liveSectors r.1 r.2.1 r.2.2).map fun i => (r.1, r.2.1, i)

end Sys2Proof.Machine
end

