-- ==== Sys2Proof/Machine/Tracker.lean ====
section
/-!
DEFINITION. Sys2Proof/Machine/Tracker.lean: commands as the BZ8 reads them, the overlap tracker (R318 to R327), accept
pointers and rollback (R331 to R333), discards (R118), buffer pages, and the unreadable list (R354, R355).
NVM Express positions and codes that the spec takes from the NVMe specifications are PRESUMED (assumption log 13).
-/

namespace Sys2Proof.Machine

/-! ### Status codes of the NVM Express specifications (PRESUMED, assumption log 13) -/

def Nvme.invalidOpcode : Nat := 0x001
def Nvme.invalidField : Nat := 0x002
def Nvme.dataTransferError : Nat := 0x004
def Nvme.abortRequested : Nat := 0x007
def Nvme.invalidNamespace : Nat := 0x00B
def Nvme.sequenceError : Nat := 0x00C
def Nvme.sanitizeInProgress : Nat := 0x01D
def Nvme.lbaRange : Nat := 0x080
def Nvme.notReady : Nat := 0x082
def Nvme.formatInProgress : Nat := 0x084
def Nvme.cqInvalid : Nat := 0x100
def Nvme.queueId : Nat := 0x101
def Nvme.queueSize : Nat := 0x102
def Nvme.aerLimit : Nat := 0x105
def Nvme.firmwareSlot : Nat := 0x106
def Nvme.firmwareImage : Nat := 0x107
def Nvme.vector : Nat := 0x108
def Nvme.logPage : Nat := 0x109
def Nvme.format : Nat := 0x10A
def Nvme.queueDeletion : Nat := 0x10C
def Nvme.notSaveable : Nat := 0x10D
def Nvme.notChangeable : Nat := 0x10E
def Nvme.firmwareProhibited : Nat := 0x113
def Nvme.overlappingRange : Nat := 0x114
def Nvme.selfTestInProgress : Nat := 0x11D
def Nvme.controllerId : Nat := 0x11F
def Nvme.zoneBoundary : Nat := 0x1B8
def Nvme.zoneFull : Nat := 0x1B9
def Nvme.zoneReadOnly : Nat := 0x1BA
def Nvme.zoneOffline : Nat := 0x1BB
def Nvme.zoneInvalidWrite : Nat := 0x1BC
def Nvme.tooManyActive : Nat := 0x1BD
def Nvme.tooManyOpen : Nat := 0x1BE
def Nvme.zoneTransition : Nat := 0x1BF
def Nvme.unrecovered : Nat := 0x281
def Nvme.guardCheck : Nat := 0x282
def Nvme.appTagCheck : Nat := 0x283
def Nvme.refTagCheck : Nat := 0x284
def Nvme.compareFailure : Nat := 0x285

/-! ### Command fields (PRESUMED, assumption log 13) -/

/-- Starting LBA. -/
def Sqe.slba (q : Sqe) : Nat := q.cdw10 % 2 ^ 32 + 2 ^ 32 * (q.cdw11 % 2 ^ 32)
/-- Number of LBAs. -/
def Sqe.nlb (q : Sqe) : Nat := q.cdw12 % 2 ^ 16 + 1
def Sqe.fua (q : Sqe) : Bool := q.cdw12.testBit 30
def Sqe.limitedRetry (q : Sqe) : Bool := q.cdw12.testBit 31
def Sqe.pract (q : Sqe) : Bool := q.cdw12.testBit 29
def Sqe.checksGuard (q : Sqe) : Bool := q.cdw12.testBit 28
def Sqe.checksAppTag (q : Sqe) : Bool := q.cdw12.testBit 27
def Sqe.checksRefTag (q : Sqe) : Bool := q.cdw12.testBit 26

def Op.flush : Nat := 0x00
def Op.write : Nat := 0x01
def Op.read : Nat := 0x02
def Op.writeUncorrectable : Nat := 0x04
def Op.compare : Nat := 0x05
def Op.writeZeroes : Nat := 0x08
def Op.dsm : Nat := 0x09
def Op.verify : Nat := 0x0C
def Op.zoneSend : Nat := 0x79
def Op.zoneReceive : Nat := 0x7A
def Op.append : Nat := 0x7D

/-- The slot holds an I/O command: it came from an I/O queue. -/
def State.isIo (s : State) (x : Slot) : Bool := x.ring != s.sqRing x.skein 0

/-- A write for the tracker (R318). -/
def writeOpcode (op : Nat) : Bool :=
  op == Op.write || op == Op.writeZeroes || op == Op.writeUncorrectable || op == Op.dsm || op == Op.append

/-- A read for the tracker. -/
def readOpcode (op : Nat) : Bool := op == Op.read || op == Op.compare || op == Op.verify

/-- The host-visible LBAs of a namespace (R287). -/
def NamespaceEntry.capacity (n : NamespaceEntry) : Nat :=
  if n.type = 2 then n.zoneCount * 31 / 32 * zoneSectors else n.lbas

/-! ### Classes of writes -/

/-- The write carries no host data (R318). -/
def Slot.noData (x : Slot) : Bool :=
  x.sqe.opcode == Op.writeZeroes || x.sqe.opcode == Op.writeUncorrectable || x.sqe.opcode == Op.dsm

/-- The command covers a DLA. -/
def Slot.covers (x : Slot) (d : Nat) : Bool := x.ranges.any fun r => r.1 ≤ d && d < r.1 + r.2

/-- Two commands overlap. -/
def Slot.overlaps (x y : Slot) : Bool :=
  x.ranges.any fun r => y.ranges.any fun q => r.1 < q.1 + q.2 && q.1 < r.1 + r.2

/-- Reads find a DLA in the pages of a visible write: of one admitted in pieces, only those of the piece in hand. -/
def Slot.shows (x : Slot) (d : Nat) : Bool :=
  if x.piece = 0 then x.visible else x.dla + x.done ≤ d && d < x.dla + x.shown

/-- A write that the tracker still holds. -/
def Slot.liveWrite (x : Slot) : Bool := x.isWrite && !x.mediaComplete

/-- A read before its read point, or with media data outstanding. -/
def Slot.liveRead (x : Slot) : Bool := x.isRead && (!x.readPoint || x.got.any Option.isNone)

/-- A read is held before its read point: an older overlapping write is not visible (R326). -/
def State.readHeld (s : State) (x : Slot) : Bool :=
  s.flow.slots.any fun w => w.liveWrite && !w.visible && w.epoch < x.epoch && w.overlaps x

/-- Two lists of DLA ranges share a DLA. -/
def rangesMeet (l k : List (Nat × Nat)) : Bool := l.any fun r => k.any fun q => r.1 < q.1 + q.2 && q.1 < r.1 + r.2

/-- A command of the tracker holds work over DLA ranges: a write until it is media-complete; a read until its read point, and then
until the data of the overlap has landed (R326). -/
def Slot.holdsOver (w : Slot) (l : List (Nat × Nat)) : Bool :=
  (w.liveWrite && rangesMeet w.ranges l) ||
    (w.isRead && (if w.readPoint then
        w.got.zipIdx.any fun g => g.1.isNone && rangesMeet [(w.dla + g.2, 1)] l
      else rangesMeet w.ranges l))

/-- Work of an epoch over DLA ranges is held by an older command (R326). -/
def State.rangeBlocked (s : State) (epoch : Nat) (l : List (Nat × Nat)) : Bool :=
  s.flow.slots.any fun w => w.epoch < epoch && w.holdsOver l

/-- The work of a whole write is held. -/
def State.writeBlocked (s : State) (x : Slot) : Bool := s.rangeBlocked x.epoch x.ranges

/-- Every sector of a command's ranges lies in a sequential zone of the namespace: a ZNS write. -/
def State.inZns (s : State) (x : Slot) : Bool :=
  match s.namespaceOf x.sqe.nsid with | some n => n.type == 1 | none => false

/-- The zone a slot's range begins in. -/
def Slot.zone (x : Slot) : Nat := x.dla / zoneSectors

/-! ### Buffer pages -/

/-- Clean pages return to free, the oldest first, until n pages are free or none is clean. -/
def State.reclaim (s : State) (n : Nat) : State :=
  let k := min (n - s.avail Class.free) s.flow.clean.length
  if k = 0 then s else (s.modFlow fun f => { f with clean := f.clean.drop k }).transfer Class.clean Class.free k

/-- Clean pages of a range of DLAs are dropped (R327). -/
def State.dropClean (s : State) (p : Nat → Bool) : State :=
  let k := (s.flow.clean.filter fun c => p c.dla).length
  if k = 0 then s
  else (s.modFlow fun f => { f with clean := f.clean.filter fun c => !p c.dla }).transfer Class.clean Class.free k

/-- A sector's data enters the read cache; an older page of it goes. -/
def State.cachePage (s : State) (d : Nat) (data : Sector) (pi : List Byte) : State :=
  (s.dropClean (· == d)).modFlow fun f => { f with clean := f.clean ++ [{ dla := d, data := data, pi := pi }] }

/-! ### The unreadable list (R354, R355, R366) -/

/-- DRN_UNREAD.ENTRIES follows the list. -/
def State.unreadRegs (s : State) : State :=
  (s.setFld F.DRN_UNREAD_ENTRIES s.darn.unreadable.length).setBit F.DRN_STATUS_UNREAD_FULL (65536 ≤ s.darn.unreadable.length)

/-- Merge an entry with an adjacent one of the same cause, or append it. -/
def mergeUnreadable (e : UnreadableEntry) : List UnreadableEntry → Option (List UnreadableEntry)
  | [] => none
  | f :: rest =>
    if f.cause = e.cause ∧ f.dla + f.length = e.dla then some ({ f with length := f.length + e.length } :: rest)
    else if f.cause = e.cause ∧ e.dla + e.length = f.dla then some ({ f with dla := e.dla, length := f.length + e.length } :: rest)
    else (mergeUnreadable e rest).map (f :: ·)

/-- Enter a loss in the unreadable list and post the event of R353. -/
def State.listUnreadable (s : State) (d n cause step : Nat) : State :=
  let e : UnreadableEntry := { dla := d, length := n, row := s.rowCount, cause := cause, step := step }
  let s := match mergeUnreadable e s.darn.unreadable with
    | some l => s.modDarn fun x => { x with unreadable := l }
    | none =>
      if s.darn.unreadable.length < 65536 then s.modDarn fun x => { x with unreadable := x.unreadable ++ [e] }
      else (s.count F.DRN_UNREAD_OVERFLOW).flag F.DRN_EV_UNREAD_FULL
  s.unreadRegs.postVendor 0

/-- Flag a range UNREADABLE and list it; a claim's superseded sectors are left out (R329, R353). -/
def State.loseRange (s : State) (d n cause step : Nat) (claim : Option Nat) : State :=
  let runs := (s.throughClaim claim d n).1
  let z := d / zoneSectors
  let s := s.walker (.flags d n 4 0 (s.zdesc z).gen claim)
  runs.foldl (fun s r => s.listUnreadable r.1 r.2 cause step) s

/-- An entry of the list with a range taken out. -/
def trimUnreadable (d n : Nat) (e : UnreadableEntry) : List UnreadableEntry :=
  if e.dla + e.length ≤ d ∨ d + n ≤ e.dla then [e]
  else
    (if e.dla < d then [{ e with length := d - e.dla }] else []) ++
    (if d + n < e.dla + e.length then [{ e with dla := d + n, length := e.dla + e.length - (d + n) }] else [])

/-- List entries leave a range (R354). -/
def State.unlist (s : State) (d n : Nat) : State :=
  (s.modDarn fun x => { x with unreadable := x.unreadable.flatMap (trimUnreadable d n) }).unreadRegs

/-- The flag UNREADABLE and the list entries leave a range that a write has made visible (R354). -/
def State.madeReadable (s : State) (d n : Nat) : State :=
  let flagged := s.entries.any fun e => e.unreadable && !s.stale e && e.lstart < d + n && d < e.stop
  let s := if flagged then s.walker (.flags d n 0 4 (s.zdesc (d / zoneSectors)).gen none) else s
  s.unlist d n

/-! ### Sources of a read (R322) -/

/-- Where a read takes a sector. -/
inductive Source where
  | dirty (data : Sector) (pi : List Byte)
  | clean (data : Sector) (pi : List Byte)
  | zeros
  | lost
  | media (psa : Nat)
  deriving DecidableEq, Repr

/-- The newest visible write older than an epoch that covers a DLA and is not media-complete. -/
def State.newestWrite (s : State) (epoch d : Nat) : Option Slot :=
  s.flow.slots.foldl (fun m w =>
    if w.liveWrite && w.shows d && w.epoch < epoch && w.covers d then
      match m with
      | some v => if v.epoch < w.epoch then some w else m
      | none => some w
    else m) none

/-- Whether a DLA of a sequential zone lies at or beyond its write pointer: it was never written. -/
def State.beyondWp (s : State) (d : Nat) : Bool :=
  let z := d / zoneSectors
  s.isSequential z && (s.zdesc z).hostWp ≤ d % zoneSectors

/-- The source of one sector: the dirty pages, a clean page, the media through the map (R322, R354). -/
def State.sourceOf (s : State) (epoch d : Nat) : Source :=
  match s.newestWrite epoch d with
  | some w =>
    if w.sqe.opcode = Op.writeUncorrectable then .lost
    else if w.data.length ≤ d - w.dla then .zeros
    else .dirty (w.data.getD (d - w.dla) []) (w.pi.getD (d - w.dla) [])
  | none =>
    match s.flow.clean.find? fun c => c.dla == d with
    | some c => .clean c.data c.pi
    | none =>
      match s.resolve d with
      | .unreadable => .lost
      | .unwritten => .zeros
      | .at p => if s.beyondWp d && (s.entryAt d).isNone then .zeros else .media p

/-! ### Accept pointers (R331 to R333) -/

/-- The accept pointer of a sequential zone in LBAs from its start, and the room reserved for appends. -/
def State.acceptOf (s : State) (z : Nat) : Nat × Nat :=
  ((s.flow.accept.find? fun e => e.1 == z).map (·.2)).getD ((s.zdesc z).hostWp, 0)

/-- Set the accept pointer and the reserved room. -/
def State.setAccept (s : State) (z p r : Nat) : State :=
  s.modFlow fun f => { f with accept := (z, p, r) :: f.accept.filter fun e => e.1 != z }

/-- The accept pointer follows the write pointer again: no write is accepted and not media-complete. -/
def State.dropAccept (s : State) (z : Nat) : State :=
  s.modFlow fun f => { f with accept := f.accept.filter fun e => e.1 != z, wpos := f.wpos.filter fun e => e.1 != z }

/-- A Write, or a Write Zeroes that writes at the pointer, accepted into a sequential zone. -/
def State.zoneWrite (s : State) (x : Slot) (z : Nat) : Bool :=
  x.liveWrite && s.isIo x && (x.sqe.opcode == Op.write || x.sqe.opcode == Op.writeZeroes) && s.inZns x && x.zone == z &&
    x.stage != .free && x.stage != .fetched

/-! ### Discards (R118, R327, R333) -/

/-- The host-in pages of a write return to free. -/
def State.returnPages (s : State) (x : Slot) : State :=
  if x.stage == .xferIn then s.transfer Class.hostIn Class.free x.pages else s

/-- Take a write out of the tracker, its pages returned; a status completes it, none frees it in silence. -/
def State.endWrite (s : State) (x : Slot) (status : Option Nat) : State :=
  let s := s.returnPages x
  let s := if x.sqe.opcode = Op.append ∧ x.stage ≠ .fetched then
      let a := s.acceptOf x.zone
      s.setAccept x.zone a.1 (a.2 - x.lbas)
    else s
  match status with
  | some st => s.completeSlot x.num st 0
  | none => s.freeSlot x.num

/-- Discard a write whole; a Write to a sequential zone rolls its zone back (R333). -/
def State.discardWrite (s : State) (n : Nat) (status : Option Nat) : State :=
  match s.slot n with
  | none => s
  | some x =>
    let rolls := s.zoneWrite x x.zone
    let later := if rolls then s.flow.slots.filter fun w => s.zoneWrite w x.zone && x.epoch < w.epoch && !w.visible else []
    let s := s.endWrite x status
    if rolls then
      let s := later.foldl (fun s w => s.endWrite w (if w.orphan then none else some Nvme.zoneInvalidWrite)) s
      let s := s.setAccept x.zone (x.dla % zoneSectors) (s.acceptOf x.zone).2
      (s.count F.ORD_OVL_COUNTS_ROLLBACKS).flag F.ORD_OVL_EV_ZONE_ROLLBACK
    else s

/-- The slot ends without a completion of its own command: media operations that have not been issued go with it. -/
def State.dropOps (s : State) (n : Nat) : State :=
  s.modFlow fun f => { f with ops := f.ops.filter fun o => !(o.slot == some n && o.place != .issued) }

/-- The sectors of a read whose media operations have not been issued are given up: their media-out pages return to free. -/
def State.dropUnissued (s : State) (x : Slot) : State :=
  let mine (o : MediaOp) : Bool := o.slot == some x.num && o.place != .issued
  let places := ((s.flow.ops.filter mine).flatMap (·.dlas)).map (· - x.dla)
  let gone := places.filter fun i => !(x.got.getD i (some ([], []))).isSome
  let s := s.modFlow fun f => { f with ops := f.ops.filter fun o => !mine o }
  let s := s.modSlot x.num fun y =>
    { y with got := y.got.zipIdx.map (fun g => if gone.contains g.2 then some ([], []) else g.1), pages := y.pages - gone.length }
  s.transfer Class.mediaOut Class.free gone.length

/-- A read that no longer waits for the media frees its slot. -/
def State.freeIfLanded (s : State) (n : Nat) : State :=
  match s.slot n with
  | some x => if x.got.any Option.isNone && x.readPoint then s else s.freeSlot n
  | none => s

/-- The poison pattern over n bytes from the start of a sector's buffer (R425). -/
def poisonBytes (n : Nat) : List Byte :=
  (List.range n).map fun i => [0x42, 0x5A, 0x50, 0x4F, 0x49, 0x53, 0x4F, 0x4E].getD (i % 8) 0

/-- Bytes of protection information that go to the host with a sector of a read (R424). -/
def State.piBytes (s : State) (x : Slot) : Nat :=
  if kgetD x.sqe.nsid s.host.lbaFormat 0 = 0 || (kgetD x.sqe.nsid s.host.piType 0 != 0 && Sqe.pract x.sqe) then 0 else 16

/-- Bytes of a sector that have been delivered once n blocks of its plaintext have left the core (R424): its protection
information follows the last. -/
def State.deliveredBytes (s : State) (x : Slot) (n : Nat) : Nat := 16 * min n 256 + if 256 ≤ n then s.piBytes x else 0

/-- The blocks of sector i of a read that have left a core. -/
def State.blocksOut (s : State) (x : Slot) (i : Nat) : Nat :=
  ((s.cip.threads.find? fun t =>
      match t.work with
      | some w => !w.encrypt && (s.flow.ops.any fun o => o.id == w.op && o.slot == some x.num && o.dlas.getD w.sector 0 == x.dla + i)
      | none => false).map fun t => t.output.length).getD 256

/-- Poison over n bytes of sector i of a read. -/
def State.sendPoison (s : State) (x : Slot) (i n : Nat) : State :=
  s.send (.poison x.skein x.sqe.cid (Sqe.slba x.sqe + i) (poisonBytes n))

/-- What a reset of its controller does to one slot (R118). -/
def State.dropSlot (s : State) (x : Slot) : State :=
  -- bytes that were sent before their verdict are withdrawn first (R426)
  let s := x.unproven.foldl (fun (s : State) i => s.sendPoison x i (s.deliveredBytes x (s.blocksOut x i))) s
  let s := s.modSlot x.num fun y => { y with orphan := true, unproven := [] }
  if x.isWrite then
    if x.visible then s else s.discardWrite x.num none
  else if x.isRead && x.readPoint then (s.dropUnissued x).freeIfLanded x.num
  else (s.dropOps x.num).freeSlot x.num

/-- A reset reaches a controller: what it holds is dropped or carried through, and it is no longer ready (R118, R120). -/
def State.dropController (s : State) (c : Nat) : State :=
  let mine := s.flow.slots.filter fun x => x.skein == c && !x.orphan && !x.sideband
  let s := s.modFlow fun f => { f with slots := replaceIf (fun x => x.skein == c && !x.sideband) (fun x => { x with orphan := true }) f.slots }
  let s := mine.foldl (fun s x => if (s.slot x.num).isSome then s.dropSlot x else s) s
  let s := (s.clr (F.HIF_CTRL_RDY_RDY.at c)).clr (F.QUE_FETCH_HOLD_HOLD.at c)
  let persist := ((s.controller c).map (·.cfsSticky)).getD false || !s.cable.failed.isEmpty
  let s := if persist then s else s.clr (F.HIF_CFS_CFS.at c)
  let base := s.sqRing c 0
  let e := s.entryOf c
  let sq (r : Nat) : Bool := base ≤ r && r < base + ((e.map (·.sqMax)).getD 0)
  let cq (r : Nat) : Bool := s.cqRing c 0 ≤ r && r < s.cqRing c 0 + ((e.map (·.cqMax)).getD 0)
  let s := s.modHost fun h =>
    { h with rings := h.rings.filter fun r => !(sq r.num || cq r.num), ledgerReads := h.ledgerReads.filter fun n => !(mine.any fun x => x.num == n) }
  (s.modController c fun x =>
    { x with enabled := false, weights := none, aers := [], aerQueue := [], aerMasked := [], aecMask := 0, features := [],
             noCoalesce := [], coalescing := [], snapshots := [], lastQueue := 0, credits := (0, 0, 0), paused := false }).driveStatus

/-- A function's PCIe state as phase 6 builds it (R115, R263): Device ID 0x0B08 of a PF and 0x0B09 of a VF. -/
def PcieFunction.fresh (c msix : Nat) : PcieFunction :=
  { cntlid := c, deviceId := if c % 16 = 0 then 0x0B08 else 0x0B09, classCode := 0x010802, command := 0, bars := [0, 0],
    msixSize := msix, msixTable := [], msixEnabled := false }

/-- A reset clears the PCIe state of the functions that a test picks (R117). -/
def State.clearFunctions (s : State) (p : Nat → Bool) : State :=
  s.modHost fun h => { h with functions := replaceIf (fun f => p f.cntlid) (fun f => PcieFunction.fresh f.cntlid f.msixSize) h.functions }

/-- A reset reaches the controllers that a test picks. -/
def State.dropControllers (s : State) (p : Nat → Bool) : State :=
  (s.host.controllers.filter fun c => p c.cntlid).foldl (fun s c => s.dropController c.cntlid) s

end Sys2Proof.Machine
end

