-- ==== Sys2Proof/Machine/MediaOps.lean ====
section
/-!
DEFINITION. Sys2Proof/Machine/MediaOps.lean: media operations (R303), the window and the pick (R304 to R307), the physical
write position of a zone (R245, R303), parity sectors (R243, R244), and which slices serve an actuator.
-/

namespace Sys2Proof.Machine

/-! ### Slices of an actuator (R204, R221, R227) -/

/-- The slice that serves a position of an actuator. -/
def State.sliceAt (s : State) (a pos : Nat) : Option Nat :=
  (List.range 5).find? fun i => s.serves i a && s.fld (F.SLC_STATUS_POSITION i) == pos

/-- Two slices serve the actuator. -/
def State.twoSlices (s : State) (a : Nat) : Bool := (s.sliceAt a 0).isSome && (s.sliceAt a 1).isSome

/-- A serving slice of the actuator, P before Q. -/
def State.anySlice (s : State) (a : Nat) : Option Nat := (s.sliceAt a 0).or (s.sliceAt a 1)

/-! ### Creating operations -/

/-- The state with an operation changed. -/
def State.modOp (s : State) (id : Nat) (f : MediaOp → MediaOp) : State :=
  s.modFlow fun w => { w with ops := replaceIf (fun o => o.id == id) f w.ops }

/-- An operation. -/
def State.op (s : State) (id : Nat) : Option MediaOp := s.flow.ops.find? fun o => o.id == id

/-- Remove an operation. -/
def State.removeOp (s : State) (id : Nat) : State :=
  s.modFlow fun w => { w with ops := w.ops.filter fun o => o.id != id }

/-- An operation with everything but its sectors and its purpose at the start. -/
def MediaOp.blank : MediaOp :=
  { id := 0, act := 0, kind := .read, purpose := .host, slot := none, urgent := false, dla := 0, psa := 0, count := 0,
    places := [], dlas := [], mode := .single, variant := 0, place := .listed, cost := none, entered := 0, transferring := false,
    next := 0, kept := [], framed := [], settled := [], physGen := 0, keySlot := none, claim := none, zoneGen := 0, payload := [],
    cipherOut := [], wgDropped := [], awaits := none }

/-- Put an operation into its media pair's list; a slot counts it. -/
def State.addOp (s : State) (o : MediaOp) : State :=
  let s := s.modFlow fun w => { w with ops := w.ops ++ [{ o with id := w.nextOp }], nextOp := w.nextOp + 1 }
  match o.slot with
  | some n => s.modSlot n fun x => { x with ops := x.ops + 1 }
  | none => s

/-- Two sectors may share an operation that starts at a PSA: one zone, at most two tracks (R303). -/
def sameRun (first q : Nat) : Bool :=
  psaAct first == psaAct q && psaHead first == psaHead q && psaTrack first ≤ psaTrack q && psaTrack q ≤ psaTrack first + 2

/-- Split a list of sectors (DLA, PSA) into runs for one operation each: consecutive DLAs of one zone, at most 64. -/
def chunkSectors : List (Nat × Nat) → List (List (Nat × Nat)) → List (List (Nat × Nat))
  | [], acc => (acc.map List.reverse).reverse
  | x :: rest, [] => chunkSectors rest [[x]]
  | x :: rest, cur :: acc =>
    match cur.head?, cur.getLast? with
    | some last, some first =>
      if last.1 + 1 = x.1 ∧ first.1 / zoneSectors = x.1 / zoneSectors ∧ cur.length < 64 ∧
          (if x.2 = 0 then true else sameRun first.2 x.2) then
        chunkSectors rest ((x :: cur) :: acc)
      else chunkSectors rest ([x] :: cur :: acc)
    | _, _ => chunkSectors rest ([x] :: cur :: acc)

/-- A read operation over a run of sectors. -/
def State.readOp (s : State) (l : List (Nat × Nat)) : MediaOp :=
  let f := l.headD (0, 0)
  let pz := (s.zoneOfPsa f.2).getD 0
  { MediaOp.blank with
    act := psaAct f.2, dla := f.1, psa := f.2, count := l.length, places := l.map (·.2), dlas := l.map (·.1), zoneGen := s.expectedGen f.1,
    physGen := (s.zdesc pz).gen }

/-- Read operations of a slot for the sectors that come from the media. -/
def State.addReads (s : State) (x : Slot) (l : List (Nat × Nat)) : State :=
  (chunkSectors l []).foldl (fun s r => s.addOp { s.readOp r with slot := some x.num, urgent := x.urgent }) s

/-- The metadata and data of sector i of a write (R234, R235). -/
def Slot.sector (x : Slot) (i : Nat) : MediaSector :=
  let own := (x.dla + i) / zoneSectors = x.dla / zoneSectors
  { dla := x.dla + i, nsid := x.sqe.nsid, wcount := if own then x.wcount else x.wcount2,
    gen := if own then x.zoneGen else x.zoneGen2, pi := x.pi.getD i [], auth := [],
    data := x.data.getD i [], parity := false }

/-- Write operations for sectors `from_` to `upto - 1` of a write. Their places in a sequential zone, or in the media
cache, are given when they are issued. -/
def State.addWrites (s : State) (x : Slot) (from_ upto : Nat) : State :=
  let l := (List.range (upto - from_)).map fun i => (x.dla + from_ + i, 0)
  (chunkSectors l []).foldl (fun s r =>
    let d := (r.headD (0, 0)).1
    let z := d / zoneSectors
    s.addOp { MediaOp.blank with
      act := (s.zoneHome z).1, kind := .write, purpose := .host, slot := some x.num, urgent := x.urgent, dla := d,
      count := r.length, dlas := r.map (·.1), mode := .verify,
      zoneGen := if z = x.dla / zoneSectors then x.zoneGen else x.zoneGen2, payload := r.map fun p => x.sector (p.1 - x.dla) }) s

/-! ### Write position (R245, R303) -/

/-- Where a sequential zone is written next: the data slot, and the LBAs placed before it. After a cast-on the slots that
the map names lie behind it. -/
def State.writePos (s : State) (z : Nat) : Nat × Nat :=
  match s.flow.wpos.find? fun e => e.1 == z with
  | some e => e.2
  | none =>
    let d := s.zdesc z
    let used := s.entries.foldl (fun m e =>
      if e.lstart / zoneSectors = z ∧ !e.cache ∧ !e.unwritten ∧ !e.unreadable ∧ !s.stale e ∧ s.zoneOfPsa e.phys = some z then
        match (s.zoneShape z).bind fun sh => sh.slotAt e.phys with | some k => max m (k + e.length) | none => m
      else m) d.wp
    (used, d.hostWp)

/-- Set the write position. -/
def State.setWritePos (s : State) (z next placed : Nat) : State :=
  s.modFlow fun f => { f with wpos := (z, next, placed) :: f.wpos.filter fun e => e.1 != z }

/-- Place sectors from a data slot on; behind the 64th of a group its two parity sectors follow (R243). -/
def placeSectors (sh : ZoneShape) : Nat → List MediaSector → List (Nat × MediaSector)
  | _, [] => []
  | k, x :: rest =>
    let p (w : Nat) : Nat × MediaSector := (sh.parityPsa (k / 64) w, { x with parity := true, data := [], pi := [], auth := [] })
    (sh.psa k, x) :: (if k % 64 = 63 then [p 0, p 1] else []) ++ placeSectors sh (k + 1) rest

/-- The namespace of a DLA is drive-managed. -/
def State.driveManaged (s : State) (d : Nat) : Bool :=
  match s.nsOfDla d with | some (n, _) => n.type == 2 | none => false

/-- The operation is staged as a record of the media cache (R245, R247, R335): an atomic unit of 2 to 64 LBAs outside
sequential zones, every write of a drive-managed namespace, and a relocation. -/
def State.stagesInCache (s : State) (o : MediaOp) : Bool :=
  match o.purpose with
  | .relocate | .restore => true
  | .host | .restitch =>
    let n := match o.slot.bind s.slot with | some x => x.lbas | none => o.count
    s.driveManaged o.dla || (!s.isSequential (o.dla / zoneSectors) && 2 ≤ n && n ≤ 64)
  | _ => false

/-- The operation writes at the write position of its own sequential zone. -/
def State.writesAtPosition (s : State) (o : MediaOp) : Bool :=
  (o.purpose == .host || o.purpose == .restitch || o.purpose == .rewriteZone || o.purpose == .overwrite) && s.isSequential (o.dla / zoneSectors) &&
    !s.stagesInCache o

/-- Give a write its places; none when the media cache has no room. -/
def State.placeWrite (s : State) (o : MediaOp) : Option (MediaOp × State) :=
  let z := o.dla / zoneSectors
  if o.purpose = .parity then some (o, s)
  else if s.stagesInCache o then
    (s.appendCache o.act o.dla o.count).map fun r =>
      let l := (List.range o.count).map fun i => r.2.psaAdd r.1 i
      let s := match o.slot with
        | some n => r.2.modSlot n fun x => { x with atomicStaged := true }
        | none => r.2
      ({ o with psa := r.1, places := l }, s)
  else if s.writesAtPosition o then
    match s.zoneShape z with
    | none => none
    | some sh =>
      let (k, placed) := s.writePos z
      let l := placeSectors sh k o.payload
      some ({ o with psa := sh.psa k, places := l.map (·.1), dlas := l.map (·.2.dla), payload := l.map (·.2), count := l.length },
        s.setWritePos z (k + o.count) (if o.purpose = .restitch then placed else placed + o.count))
  else
    let l := o.payload.map fun x => s.layoutPsa x.dla
    some ({ o with psa := l.headD 0, places := l }, s)

/-- A write operation that brings P and Q of an open group (R244). -/
def State.addParity (s : State) (z group : Nat) : State :=
  match s.zoneShape z with
  | none => s
  | some sh =>
    let x : MediaSector := { dla := z * zoneSectors, nsid := 0, wcount := 0, gen := (s.zdesc z).gen, pi := [], auth := [],
                             data := [], parity := true }
    s.addOp { MediaOp.blank with
      act := sh.act, kind := .write, purpose := .parity, dla := z * zoneSectors, psa := sh.parityPsa group 0, count := 2,
      places := [sh.parityPsa group 0, sh.parityPsa group 1], dlas := [z * zoneSectors, z * zoneSectors], mode := .verify, zoneGen := (s.zdesc z).gen, payload := [x, x] }

/-! ### Keys of an operation (R410, R417) -/

/-- The cipher mode of a namespace; 0 none (R51). -/
def State.cipherMode (s : State) (nsid : Nat) : Nat :=
  if !s.hasCipher then 0
  else ((s.pattern.active.security.nsCipher.find? fun e => e.1 == nsid).map (·.2.1)).getD 0

/-- The namespace of an operation: its first sector's. -/
def State.opNs (s : State) (o : MediaOp) : Nat :=
  match s.nsOfDla o.dla with | some (n, _) => n.nsid | none => 0

/-- The operation passes the cipher engine: host data is enciphered on the way to the media and deciphered on the way
back; what copies sectors unchanged needs no key (R407). -/
def State.needsKey (s : State) (o : MediaOp) : Bool :=
  s.cipherMode (s.opNs o) != 0 && (o.purpose == .host || o.purpose == .rewriteZone || o.purpose == .overwrite)

/-- The Key Per I/O tag of an operation's command: the low 16 bits of CDW13 (PRESUMED, assumption log 13). -/
def State.opKeyTag (s : State) (o : MediaOp) : Option Nat :=
  let kpio := ((s.pattern.active.security.nsCipher.find? fun e => e.1 == s.opNs o).map (·.2.2)).getD 0
  if kpio = 0 then none else (o.slot.bind s.slot).map fun x => x.sqe.cdw13 % 65536

/-- The current bank of a key slot. -/
def KeySlot.bank (k : KeySlot) : Option Bank := if k.current = 0 then k.bank0 else k.bank1

/-- A general key slot whose current bank is bound as the operation asks (R417). -/
def State.keyFor (s : State) (o : MediaOp) : Option Nat :=
  (s.cip.slots.take 112).findIdx? fun k =>
    !k.test && match k.bank with
      | some b => b.nsid == s.opNs o && b.zone == o.dla / zoneSectors && b.generation == o.zoneGen && b.keyTag == s.opKeyTag o
      | none => false

/-! ### Window and pick (R304 to R306) -/

/-- Operations of an actuator at a place. -/
def State.opsAt (s : State) (a : Nat) (p : OpPlace) : List MediaOp := s.flow.ops.filter fun o => o.act == a && o.place == p

/-- WINDOW_ENTER (R304): urgent operations first, otherwise in arrival order. -/
def execWindowEnter (a : Nat) (s : State) : Host.Outcome State Fault Refusal :=
  let l := s.opsAt a .listed
  if 8192 ≤ (s.opsAt a .window).length then .next s
  else
    match (l.find? (·.urgent)).or l.head? with
    | some o => .next (s.modOp o.id fun o => { o with place := .window, entered := s.row.now, cost := none })
    | none => .next s

/-- The operation still passes sectors under the head. -/
def MediaOp.underWay (o : MediaOp) : Bool := o.place == .issued && o.framed.length < o.count

/-- It has begun its last track. -/
def MediaOp.onLastTrack (o : MediaOp) : Bool :=
  o.transferring && o.places.zipIdx.all fun p =>
    o.framed.contains p.2 || psaTrack p.1 == psaTrack ((o.places.getLast?).getD 0)

/-- The media pair of an actuator runs, itself or by SPARE. -/
def State.mediaPairRuns (s : State) (a : Nat) : Bool := s.pairServed (3 + a)

/-- The driving Needle is ACTIVE or STANDING_IN and the heads are LOADED. -/
def State.actReady (s : State) (a : Nat) : Bool :=
  s.fld (F.ACT_STATUS_LOAD_STATE a) == 2 && (s.driver a).isSome && !s.on (F.ACT_CTRL_DISABLE a)

/-- The zone is held in REWRITE for writes of the host (R290). -/
def State.zoneHeld (s : State) (z : Nat) : Bool := (s.zdesc z).state == .rewrite

/-- A write at the write position: no other waits before it in its zone (R303). -/
def State.atPosition (s : State) (o : MediaOp) : Bool :=
  let z := o.dla / zoneSectors
  !s.flow.ops.any (fun p => p.id != o.id && p.kind == .write && p.place != .issued && p.dla / zoneSectors == z &&
      s.writesAtPosition p && p.dla < o.dla) &&
    (o.purpose == .restitch || o.dla % zoneSectors == (s.writePos z).2)

/-- A write into a physical zone whose generation has changed while a read looked up there is outstanding (R328). -/
def State.reuseHeld (s : State) (o : MediaOp) : Bool :=
  let zones := if s.stagesInCache o then ((s.logZone o.act o.count).toList) else [o.dla / zoneSectors]
  s.flow.ops.any fun r => r.kind != .write && zones.any fun z => s.zoneOfPsa r.psa == some z && r.physGen != (s.zdesc z).gen

/-- The tracker holds the operation (R326, R328). -/
def State.trackerHolds (s : State) (o : MediaOp) : Bool :=
  o.kind == .write &&
    ((match o.slot.bind s.slot with | some x => s.rangeBlocked x.epoch (o.dlas.map fun d => (d, 1)) | none => false) || s.reuseHeld o)

/-- A head without a verify lag does not write (R227). -/
def State.noLag (s : State) (o : MediaOp) : Bool :=
  let h := match s.zoneShape (o.dla / zoneSectors) with | some sh => sh.head | none => 0
  match s.sliceAt o.act 1 with
  | some q => s.fld (F.SLC_HEAD_VLAG_NS q h) == 0
  | none => true

/-- A repeated ladder read whose slice, still serving, has no free sample-buffer slot waits (R348). -/
def State.awaitsSlot (s : State) (o : MediaOp) : Bool :=
  match o.awaits with
  | some i => s.serves i o.act && 8 ≤ (s.slice i).pinned.length
  | none => false

/-- Eligible for a pick, its cost aside (R304). -/
def State.eligible (s : State) (o : MediaOp) : Bool :=
  s.actReady o.act && s.mediaPairRuns o.act && !s.gauge.holdPicks.contains o.act && !s.picksHeld o.act && !s.trackerHolds o && !s.awaitsSlot o &&
    !(o.purpose == .relocate && o.slot.isNone && s.on F.ORD_LEDGER_STATUS_WRITE_HOLD) &&
    (o.kind != .write ||
      (s.twoSlices o.act && (!s.writesAtPosition o || s.atPosition o) && (!s.zoneHeld (o.dla / zoneSectors) || o.purpose == .rewriteZone))) &&
    (!s.needsKey o || s.fld F.CIP_STATUS_STATE == 2)

/-- The class of a pick: 0 urgent, 1 host work and recovery, 2 background (R306). -/
def MediaOp.pickClass (o : MediaOp) : Nat := if o.urgent then 0 else if o.kind == .background then 2 else 1

/-! ### The access-cost engine (R305); times in ps -/

/-- The points of the seek table, from (0, 0) to the last one whose distance is nonzero: tracks and time. -/
def State.seekPoints (s : State) (a : Nat) : List (Nat × Nat) :=
  let l := (List.range 16).map fun k => (64 * s.fld (F.SCH_SEEK_DIST_X64 a k), 1000000 * s.fld (F.SCH_SEEK_TIME_US a k))
  (0, 0) :: (l.reverse.dropWhile fun p => p.1 == 0).reverse

/-- Linear interpolation through the points behind a first one; beyond the last point its time. -/
def seekThrough (d : Nat) : Nat × Nat → List (Nat × Nat) → Nat
  | p, [] => p.2
  | p, q :: rest =>
    if d ≤ q.1 then (p.2 : Int) + ((q.2 : Int) - p.2) * ((d : Int) - p.1) / ((q.1 : Int) - p.1) |>.toNat
    else seekThrough d q rest

/-- seek(d). -/
def State.seekTime (s : State) (a d : Nat) : Nat :=
  match s.seekPoints a with
  | [] => 0
  | p :: rest => seekThrough d p rest

/-- A revolution. -/
def State.revTime (s : State) : Nat := s.fld F.ROWT_PERIOD_PERIOD_PS * s.pattern.active.geometry.wedges

/-- The time that the medium has turned since index 0. -/
def State.angleNow (s : State) : Nat := s.row.index * s.fld F.ROWT_PERIOD_PERIOD_PS + (s.row.now - s.row.last)

/-- Sectors per track at a track of an actuator. -/
def State.sptAt (s : State) (a track : Nat) : Nat :=
  (((s.bands a).find? fun b => b.firstTrack ≤ track && track ≤ b.lastTrack).map (·.spt)).getD 0

/-- The time from an angle to the next one, both as times since index 0. -/
def timeTo (rev from_ until_ : Nat) : Nat := (until_ + rev - from_ % rev) % rev

/-- The track that the heads of an actuator follow, as its driving Needle last measured it. -/
def State.currentTrack (s : State) (a : Nat) : Nat :=
  match s.driver a with
  | some n => (s.sfld (F.NDL_POSITION_POS n) / 256).toNat
  | none => 0

/-- t_arr: the way to the track and the head of a sector. -/
def State.arrivalTime (s : State) (a psa : Nat) : Nat :=
  let d := ((psaTrack psa : Int) - s.currentTrack a).natAbs
  s.seekTime a d + 1000000 * s.fld (F.SCH_SETTLE_SETTLE_US a) +
    (if psaHead psa = s.fld (F.ACT_STATUS_HEAD a) then 0 else 1000000 * s.fld (F.SCH_SETTLE_HEAD_SWITCH_US a))

/-- The sectors of an operation's first track. -/
def MediaOp.firstTrack (o : MediaOp) : List Nat :=
  o.places.filter fun p => psaTrack p == psaTrack o.psa && psaHead p == psaHead o.psa

/-- t_svc, from the arrival on: for a zero-latency read until every sector of the first track has passed under the head once,
else the wait for the first sector and the transfer. -/
def State.serviceTime (s : State) (o : MediaOp) (arrival : Nat) : Nat :=
  let rev := s.revTime
  let spt := s.sptAt o.act (psaTrack o.psa)
  let start (p : Nat) : Nat := psaSector p * rev / spt
  let from_ := s.angleNow + arrival
  let sector := rev / spt
  if o.kind != .write && s.on (F.SCH_CTRL_ZERO_LAT o.act) then
    min rev (o.firstTrack.foldl (fun m p => max m (timeTo rev from_ (start p) + sector)) 0)
  else timeTo rev from_ (start o.psa) + o.firstTrack.length * sector

/-- The cost of an operation in ns (R305). A write whose place is given at issue is costed at the place it would be given. The
rule states no result where the age outweighs the time: a free value. -/
def State.opCost (s : State) (o : MediaOp) : Nat :=
  let o := if o.kind == .write && o.places.isEmpty then ((s.placeWrite o).map (·.1)).getD o else o
  let arrival := s.arrivalTime o.act o.psa
  let time := (arrival + s.serviceTime o arrival) / 1000
  let age := min ((s.row.now - o.entered) / 1000000 * s.fld (F.SCH_CTRL_AGE_WEIGHT o.act)) 65535
  if age ≤ time then min (time - age) (2 ^ 32 - 1) else Config.costBelow (age - time) % 2 ^ 32

/-- The engine of an actuator makes a number of evaluations, in window order, and wraps (R305). -/
def State.runEngine (s : State) (a evals : Nat) : State :=
  let w := s.opsAt a .window
  let at_ := s.flow.engineAt.getD a 0
  if w.isEmpty then s
  else
    let due := (List.range (min evals w.length)).filterMap fun k => w[(at_ + k) % w.length]?
    s.modFlow fun f =>
      { f with
        ops := replaceIf (fun o => due.any fun d => d.id == o.id) (fun o => { o with cost := some (s.opCost o) }) f.ops,
        engineAt := f.engineAt.set a ((at_ + evals) % w.length),
        engineEvals := f.engineEvals.set a (f.engineEvals.getD a 0 + evals) }

/-- The better of two costed candidates: class, then cost, then the lower window index. -/
def betterPick (x y : MediaOp × Nat) : MediaOp × Nat :=
  if y.1.pickClass < x.1.pickClass ∨ (y.1.pickClass = x.1.pickClass ∧ y.2 < x.2) then y else x

/-- The best eligible operation of a window among those that have been costed (R304, R306). -/
def State.bestOp (s : State) (a : Nat) : Option (MediaOp × Nat) :=
  ((s.opsAt a .window).filterMap fun o => if s.eligible o then o.cost.map fun c => (o, c) else none).foldl
    (fun m x => match m with | none => some x | some y => some (betterPick y x)) none

/-- The reader mode of a read when it is issued (R220, R221, R227). -/
def State.modeFor (s : State) (o : MediaOp) : ReadMode :=
  match o.kind with
  | .write => .verify
  | _ =>
    if o.mode == .pair then (if s.twoSlices o.act then .pair else .single)
    else
      let t := psaTrack o.psa
      let last := psaTrack ((o.places.getLast?).getD o.psa)
      match (s.zoneOfPsa o.psa).bind s.zoneShape with
      | none => .single
      | some sh =>
        let twinEn := s.pattern.active.topology.actuators.any fun e => e.act == o.act && e.twinEn
        let band := s.pattern.active.geometry.bands.any fun b => b.act == o.act && b.firstTrack ≤ t && last ≤ b.lastTrack && b.twin
        let masked := match s.sliceAt o.act 0, s.sliceAt o.act 1 with
          | some p, some q => s.on ((F.SLC_TWIN_MASK_MASK p).at sh.head) || s.on ((F.SLC_TWIN_MASK_MASK q).at sh.head)
          | _, _ => true
        if twinEn && band && !masked && sh.sequential && (t - sh.first) % 2 == 0 && last == t + 1 then .twin else .single

/-- SLC_STATUS.MODE of the serving slices follows the operation under the heads. -/
def State.sliceModes (s : State) (a : Nat) (m : ReadMode) : State :=
  let code := match m with | .single => 0 | .twin => 1 | .pair => 2 | .verify => 3
  (List.range 5).foldl (fun s i => if s.serves i a then s.setFld (F.SLC_STATUS_MODE i) code else s) s

/-- The cipher works for a write's sectors that have no ciphertext yet (R410). -/
def State.queueEncrypt (s : State) (o : MediaOp) : State :=
  let mode := s.cipherMode (s.opNs o)
  let work := (o.payload.zipIdx.filter fun x => !x.1.parity && !o.cipherOut.any fun c => c.1 == x.2).map fun x =>
    let m := x.1.metadata
    ({ op := o.id, sector := x.2, slot := o.keySlot.getD 0, encrypt := true, mode := if mode ≤ 2 then 0 else 1,
       context := if mode ≤ 2 then BitVec.ofNat 128 x.1.dla
         else BitVec.ofNat 128 (ofLe (leBytes 4 x.1.gen ++ leBytes 4 x.1.wcount ++ leBytes 4 x.1.dla ++ beBytes 4 1)),
       blocks := (List.range 256).map fun k => BitVec.ofNat 128 (leField (padTo 4096 x.1.data) (16 * k) 16),
       aad0 := BitVec.ofNat 128 (leField m 0 16), aad1 := BitVec.ofNat 128 (leField m 16 16), tag := 0, avoid := 4 } : CipherWork)
  s.modCip fun c => { c with queue := c.queue ++ work }

/-- STAT_ACT_N, open-drain, is pulled low at the start of a media operation (R79). -/
def State.activityLow (s : State) : State :=
  if s.keeper.released && s.statusBalls then s.modPins fun p => { p with statActN := .low } else s

/-- Issue an operation: its places, its key, its mode. -/
def State.issueOp (s : State) (o : MediaOp) (a : Nat) : State :=
  let key := if s.needsKey o then s.keyFor o else none
  if s.needsKey o && key.isNone then s.flag F.CIP_EV_KEY_MISMATCH
  else if o.kind == .write && s.noLag o then s.modOp o.id fun p => { p with place := .listed }
  else
    let placed := if o.kind == .write && o.places.isEmpty then s.placeWrite o else some (o, s)
    match placed with
    | none => s
    | some (p, s) =>
      let p := { p with place := .issued, keySlot := key, mode := s.modeFor p }
      let s := ((s.modOp o.id fun _ => p).count (F.SCH_PICKS_PICKS a)).activityLow
      let s := if key.isSome && p.kind == .write then s.queueEncrypt p else s
      (if p.kind == .write then s.preheat a (psaHead p.psa) else s).followHead a

/-- SCH_n_BEST shows the pick (R306). -/
def State.bestReg (s : State) (a : Nat) (o : MediaOp) (cost : Nat) : State :=
  let index := ((s.opsAt a .window).findIdx? fun p => p.id == o.id).getD 0
  (((s.setFld (F.SCH_BEST_INDEX a) index).flag (F.SCH_BEST_VALID a)).setBit (F.SCH_BEST_URGENT a) o.urgent).setFld
    (F.SCH_BEST_COST_US a) (min (cost / 1000) 131071)

/-- A further operation may be issued now (R306). -/
def State.mayIssue (s : State) (a : Nat) : Bool :=
  match (s.opsAt a .issued).filter MediaOp.underWay with
  | [] => true
  | [o] => o.onLastTrack
  | _ => false

/-- MEDIA_PICK (R306): outside the guard, from the result table of the access-cost engine, which has made a number of evaluations
since the pick before. -/
def execMediaPick (a evals : Nat) (s : State) : Host.Outcome State Fault Refusal :=
  if 1 < a || (a == 1 && s.isS1H) || s.on F.ROWT_STATUS_GUARD then .next s
  else
    let s := s.runEngine a evals
    let s := if (s.opsAt a .window).any fun o => o.kind == .write && s.reuseHeld o then s.flag F.ORD_OVL_EV_REUSE_HOLD else s
    match s.bestOp a with
    | none => .next (s.clr (F.SCH_BEST_VALID a))
    | some (o, c) => .next (if s.mayIssue a then (s.bestReg a o c).issueOp o a else s.bestReg a o c)

/-! ### Preemption (R307) -/

/-- An issued operation returns to the window: what has not yet passed under the head becomes a new operation of the same
age. A write keeps its places, so it keeps its place at the write position. -/
def State.withdraw (s : State) (o : MediaOp) : State :=
  (if o.kind == .write then ((rest s o).modAct o.act fun x => { x with wgRequest := none }).endGate o.act else rest s o).followOps o.act
where
  rest (s : State) (o : MediaOp) : State :=
  if o.framed.isEmpty then s.modOp o.id fun p => { p with place := .window, transferring := false, cost := none }
  else
    let idx := (List.range o.count).filter fun i => !o.framed.contains i
    let places := idx.map fun i => o.places.getD i 0
    let dlas := idx.map fun i => o.dlas.getD i 0
    let rest := { o with
      place := .window, transferring := false, cost := none, framed := [], kept := [], settled := [], wgDropped := [], next := 0, count := idx.length,
      places := places, psa := places.headD 0, dlas := dlas, dla := dlas.headD 0,
      payload := idx.filterMap fun i => o.payload[i]?,
      cipherOut := o.cipherOut.filterMap fun c => (idx.findIdx? (· == c.1)).map fun k => (k, c.2) }
    let s := s.modCip fun c => { c with queue := c.queue.filter fun w => !(w.op == o.id && w.encrypt && idx.contains w.sector) }
    (s.modOp o.id fun p => { p with framed := List.range o.count, settled := p.settled ++ idx }).addOp rest

/-- PREEMPT (R307): a positioning operation is withdrawn at once; one that transfers ends at the next sector boundary. -/
def execPreempt (a : Nat) (s : State) : Host.Outcome State Fault Refusal :=
  let waits := (s.opsAt a .window).any fun o => o.urgent && s.eligible o
  match (s.opsAt a .issued).find? fun o => o.underWay && !o.urgent with
  | none => .next s
  | some o =>
    if !waits || !s.on (F.SCH_CTRL_PREEMPT a) then .next s
    else if o.transferring && ((List.range 5).any fun i => s.serves i a && (s.slice i).inFrame) then .next s
    else .next ((s.withdraw o).count (F.SCH_EVALS_PREEMPTS a))

end Sys2Proof.Machine
end

