-- ==== Sys2Proof/Machine/Darning.lean ====
section
/-!
DEFINITION. Sys2Proof/Machine/Darning.lean: what the slices' results and the ladder share: the rewrite-due list (R359),
relocation (R358), NOPARITY (R244, R357), re-stitching of a write's sectors (R225, R226, R245), and how read data lands
in media-out pages (R298, R322, R352).
-/

namespace Sys2Proof.Machine

/-! ### The rewrite-due list (R359) -/

/-- DRN_DUE follows the list. -/
def State.dueRegs (s : State) : State :=
  ((s.setFld F.DRN_DUE_ZONE (s.darn.due.headD 0)).setBit F.DRN_DUE_VALID (!s.darn.due.isEmpty)).setFld F.DRN_DUE_DEPTH s.darn.due.length

/-- A zone enters the rewrite-due list. -/
def State.dueZone (s : State) (z : Nat) : State :=
  if s.darn.due.contains z then s
  else if 64 ≤ s.darn.due.length then s.flag F.DRN_EV_DUE_FULL
  else ((s.modDarn fun x => { x with due := x.due ++ [z] }).flag F.DRN_EV_REWRITE_DUE).dueRegs

/-- The logical zone a sector of the media belongs to: the zone its tag names. -/
def State.groupRange (s : State) (psa : Nat) : Option (Nat × Nat × Nat) :=
  (s.zoneOfPsa psa).bind fun z => (s.zoneShape z).map fun sh =>
    let n := (psaTrack psa - sh.first) * sh.spt + psaSector psa
    (z, n / 66, z * zoneSectors + 64 * (n / 66))

/-- A group's parity is not on the media: NOPARITY over its DLA range, and the zone is due (R244, R357). -/
def State.noParity (s : State) (psa : Nat) : State :=
  match s.groupRange psa with
  | none => s
  | some (z, _, d) =>
    let n := min 64 ((z + 1) * zoneSectors - d)
    let s := if n = 0 then s else s.walker (.flags d n 8 0 (s.zdesc z).gen none)
    (s.count F.FMT_PARITY_NOPARITY).dueZone z

/-! ### Claims of the Darning unit (R361) -/

/-- Close a claim unless an operation or a run still works under it. -/
def State.doneWithClaim (s : State) (claim : Option Nat) : State :=
  match claim with
  | none => s
  | some i =>
    if (s.flow.ops.any fun o => o.claim == some i) || (s.darn.runs.any fun r => r.claim == some i) ||
        (s.darn.failed.any fun f => f.claim == some i) then s
    else s.closeClaim i

/-- Open a claim of the Darning unit: at most 40 of the 64. -/
def State.darningClaim (s : State) (d n : Nat) : Option Nat × State :=
  if 40 ≤ (s.flow.claims.filter fun c => c.owner == 6).length then (none, s) else s.openClaim 6 d n

/-! ### Relocation (R358) -/

/-- Write a sector unchanged as a record of the media cache; its MAP follows when it verifies. -/
def State.relocateSector (s : State) (a dla : Nat) (x : MediaSector) (claim slot : Option Nat) (urgent : Bool) : State :=
  s.addOp
    { MediaOp.blank with
      act := a, kind := .write, purpose := .relocate, slot := slot, urgent := urgent, dla := dla, count := 1, dlas := [dla],
      mode := .verify, claim := claim, zoneGen := x.gen, payload := [x] }

/-- Relocate what a slot of the media holds. -/
def State.relocate (s : State) (a dla psa : Nat) (claim slot : Option Nat) (urgent : Bool) : State :=
  match s.onMedia psa with
  | none => s
  | some x => s.relocateSector a dla x claim slot urgent

/-- The copy has verified: the map takes it, unless the zone was reset or a newer write superseded it. -/
def State.relocated (s : State) (o : MediaOp) : State :=
  let z := o.dla / zoneSectors
  let e : MapEntry :=
    { lstart := o.dla, length := 1, phys := o.psa, gen := o.zoneGen % 65536, cache := true, unwritten := false,
      unreadable := false, noParity := false, pending := false }
  let s := s.walker (.map e o.zoneGen o.claim)
  let s := (s.count F.DRN_RELOC_RELOCATED).flag F.DRN_EV_RELOCATED
  if s.isSequential z then s.dueZone z else s

/-- The map takes one sector at its place, nothing where it already answers so (R249): an entry that ends before the sector is
extended. -/
def State.mapPlace (s : State) (d p gen : Nat) : State :=
  if s.resolve d == .at p then s
  else
    let cache := match s.zoneOfPsa p with | some z => s.freshState z == .cache | none => false
    let one : WalkerRequest := .map { lstart := d, length := 1, phys := p, gen := gen % 65536, cache := cache, unwritten := false,
                                      unreadable := false, noParity := false, pending := false } gen none
    match (if d % zoneSectors = 0 then none else s.entryAt (d - 1)) with
    | some e =>
      if e.stop = d ∧ !e.unwritten ∧ !e.unreadable ∧ e.cache = cache ∧ s.psaAdd e.phys (d - e.lstart) = p then
        s.walker (.extend e.lstart (e.length + 1) gen)
      else s.walker one
    | none => s.walker one

/-! ### Verified sectors of a write (R225, R226, R245) -/

/-- The sector has a verify result of OK at its place. -/
def State.sectorVerified (s : State) (n i psa : Nat) : State :=
  s.modSlot n fun x => { x with verified := putAt i true x.verified, placed := putAt i psa x.placed, verifyFails := putAt i 0 x.verifyFails }

/-- One more slot in the zone would leave none for its last LBA (R245); re-stitches that wait for their place count. -/
def State.reserveOut (s : State) (z : Nat) : Bool :=
  match s.zoneShape z with
  | none => true
  | some sh =>
    let (k, placed) := s.writePos z
    let waiting := (s.flow.ops.filter fun o => o.purpose == .restitch && o.dla / zoneSectors == z && o.places.isEmpty).length
    seqDataSlots sh.spt < k + waiting + 1 + (zoneSectors - placed)

/-- Write a sector of a write again (R226): at the zone's write position, in place, or at the head of the cache log. -/
def State.restitch (s : State) (o : MediaOp) (x : MediaSector) : State :=
  s.addOp
    { MediaOp.blank with
      act := o.act, kind := .write, purpose := if o.purpose == .relocate then .relocate else if o.purpose == .rewriteZone then .rewriteZone else .restitch,
      slot := o.slot, urgent := o.urgent, dla := x.dla, count := 1, dlas := [x.dla], mode := .verify, claim := o.claim,
      zoneGen := o.zoneGen, payload := [x] }

/-- A sector of a write has failed its verify: re-stitched, or relocated when RESTITCH_MAX or the reserve is used up. -/
def State.sectorFailed (s : State) (i : Nat) (o : MediaOp) (psa : Nat) (x : MediaSector) : State :=
  let z := x.dla / zoneSectors
  let fails := match o.slot.bind s.slot with
    | some w => w.verifyFails.getD (x.dla - w.dla) 0 + 1
    | none => 1
  let s := match o.slot with
    | some n => s.modSlot n fun w => { w with verifyFails := putAt (x.dla - w.dla) fails w.verifyFails }
    | none => s
  if o.purpose == .relocate || o.purpose == .restore then s.restitch o x
  else if s.fld (F.SLC_VERIFY_RESTITCH_MAX i) ≤ fails then
    let s := ((s.flag (F.SLC_EV_RESTITCH_EXHAUSTED i)).event (11 + i) 4 4 i psa).dueZone z
    s.relocate o.act x.dla psa o.claim o.slot o.urgent
  else if s.writesAtPosition o && s.reserveOut z then
    ((s.flag F.STM_EV_RESERVE_OUT).dueZone z).relocate o.act x.dla psa o.claim o.slot o.urgent
  else s.restitch o x

/-! ### Read data (R298, R322) -/

/-- All data of a read has come: a Read goes on to XFER_OUT, a Verify completes, a Compare is decided; a read whose
controller was reset frees its slot. -/
def State.readDone (s : State) (n : Nat) : State :=
  match s.slot n with
  | none => s
  | some x =>
    if x.got.any Option.isNone then s
    else if x.orphan then s.freeSlot n
    else if x.status ≠ 0 then s.completeSlot n x.status 0
    else if x.sqe.opcode = Op.verify then s.completeSlot n 0 0
    else if x.sqe.opcode = Op.compare then
      let same := x.got.zipIdx.all fun g => match g.1 with
        | some d => padTo 4096 d.1 == padTo 4096 (x.data.getD g.2 [])
        | none => true
      s.completeSlot n (if same then 0 else Nvme.compareFailure) 0
    else s.modSlot n fun y => { y with stage := .xferOut }

/-- A sector of a read has landed in its media-out page, which becomes clean. -/
def State.landSector (s : State) (n i : Nat) (data : Sector) (pi : List Byte) : State :=
  match s.slot n with
  | none => s
  | some x =>
    if (x.got.getD i none).isSome then s
    else
      let s := s.modSlot n fun y => { y with got := putAt i (some (data, pi)) y.got, src := putAt i 0 y.src, ops := y.ops - 1, pages := y.pages - 1 }
      ((s.transfer Class.mediaOut Class.clean 1).cachePage (x.dla + i) data pi).readDone n

/-- A read fails for good at a sector: its media-out page returns to free, and the status waits for its other sectors
(R353). -/
def State.failSector (s : State) (n i status : Nat) : State :=
  match s.slot n with
  | none => s
  | some x =>
    if (x.got.getD i none).isSome then s
    else
      let s := s.modSlot n fun y =>
        { y with got := putAt i (some ([], [])) y.got, sent := putAt i true y.sent, src := putAt i 0 y.src, ops := y.ops - 1,
                 pages := y.pages - 1, status := if y.status = 0 then status else y.status }
      let s := s.logError x.skein status (Sqe.slba x.sqe + i)
      (s.transfer Class.mediaOut Class.free 1).readDone n

/-- An operation ends when every sector has been acted on. -/
def State.settle (s : State) (o : MediaOp) (i : Nat) : State :=
  match s.op o.id with
  | none => s
  | some p =>
    let done := if p.settled.contains i then p.settled else i :: p.settled
    if p.count ≤ done.length then
      let s := ((s.removeOp o.id).followOps o.act).doneWithClaim o.claim
      if o.purpose == .scrub then s.setBit F.DRN_STATUS_SCRUB_BUSY (s.flow.ops.any fun q => q.purpose == .scrub) else s
    else s.modOp o.id fun q => { q with settled := done }

/-- The work that deciphers one sector of a read (R410). -/
def State.queueDecrypt (s : State) (o : MediaOp) (i : Nat) (x : MediaSector) : State :=
  let mode := s.cipherMode (s.opNs o)
  let m := x.metadata
  s.modCip fun c =>
    { c with queue := c.queue ++
        [ { op := o.id, sector := i, slot := o.keySlot.getD 0, encrypt := false, mode := if mode ≤ 2 then 0 else 1,
            context := if mode ≤ 2 then BitVec.ofNat 128 x.dla
                 else BitVec.ofNat 128 (ofLe (leBytes 4 x.gen ++ leBytes 4 x.wcount ++ leBytes 4 x.dla ++ beBytes 4 1)),
            blocks := (List.range 256).map fun k => BitVec.ofNat 128 (leField (padTo 4096 x.data) (16 * k) 16),
            aad0 := BitVec.ofNat 128 (leField m 0 16), aad1 := BitVec.ofNat 128 (leField m 16 16),
            tag := BitVec.ofNat 128 (ofLe (padTo 16 x.auth)), avoid := 4 }] }

/-- A sector of a read has decoded: it is deciphered, or lands. -/
def State.sectorRead (s : State) (o : MediaOp) (i : Nat) (x : MediaSector) : State :=
  if o.keySlot.isSome then s.queueDecrypt o i x
  else
    let s := match o.slot.bind s.slot with
      | some w => s.landSector w.num ((o.dlas.getD i 0) - w.dla) x.data x.pi
      | none => s
    s.settle o i

end Sys2Proof.Machine
end

