-- ==== Sys2Proof/Machine/Signal.lean ====
section
/-!
DEFINITION. Sys2Proof/Machine/Signal.lean: the sample path of a slice (R205 to R209, R222, R223): equaliser, loops, defect detector,
log-likelihood ratios and marks; and the frame that the serialiser sends (R208). Equalised values are in units of 2^-14 of an
ADC LSB, loop values in units of 2^-24. What the spec leaves without a formula is Config's (assumption log 110).
-/

namespace Sys2Proof.Machine

/-! ### The frame (R208) -/

/-- The bits of a number, the most significant first. -/
def msbBits (width value : Nat) : List Bool := (List.range width).reverse.map value.testBit

/-- Mark A and Mark B. -/
def markA : List Bool := msbBits 24 0x9D2A6F
def markB : List Bool := msbBits 24 0xE68B35

/-- Where the timer predicts the marks and the payload, from the first preamble bit. -/
def markAAt : Nat := 96
def markBAt : Nat := 160
def payloadAt : Nat := 184

/-- A list at a width: cut, or filled up with zeros. -/
def fitBits (n : Nat) (l : List Bool) : List Bool := l.take n ++ List.replicate (n - l.length) false

/-- The 38,024 bits of a sector's frame: preamble, Mark A, run-in, Mark B, the LDPC codeword of 33,280 bits of data and metadata with
4,544 parity bits, and the postamble. -/
def frameBits (bytes : List Byte) : List Bool :=
  fitBits 96 Config.preamble ++ markA ++ fitBits 40 Config.runIn ++ markB ++
    fitBits 33280 (bytes.flatMap fun b => msbBits 8 b.toNat) ++ fitBits 4544 (Config.ldpcParity bytes) ++ fitBits 16 Config.postamble

/-! ### The sample path (R205 to R207) -/

/-- Unity gain, zero offset, zero asymmetry: where a head starts after cast-on (R206). -/
def Loops.start : Loops := { phase := 0, freq := 0, gain := 2 ^ 24, base := 0, asym := 0 }

/-- The settings that a slice reads one frame with. -/
structure PathSetup where
  gainMu : Int
  baseMu : Int
  asymMu : Int
  acqShift : Nat
  loPct : Nat
  hiPct : Nat
  baseJump : Nat
  erase : Bool
  adapt : Bool
  /-- The detector of the other slice of a TWIN pair holds both cancellers (R207). -/
  partner : Bool
  deriving DecidableEq, Repr

/-- The path while it runs over a frame; the outputs stand newest first. -/
structure PathState where
  loops : Loops
  taps : List Int
  cancel : List Int
  defect : Bool
  clean : Nat
  /-- The detector has asserted in this frame. -/
  raised : Bool
  /-- The last 16 magnitudes and the last 32 inputs of the baseline loop. -/
  mags : List Int
  bases : List Int
  out : List Int
  erased : List Bool
  deriving DecidableEq, Repr

/-- A FIR filter over a window of samples, taps in Q2.14. -/
def fir (taps xs : List Int) : Int := (List.zipWith (· * ·) taps xs).foldl (· + ·) 0

/-- A value times 2^-mu, rounded. -/
def stepBy (mu x : Int) : Int := if mu < 0 then x * 2 ^ (-mu).toNat else roundDiv x (2 ^ mu.toNat)

/-- The sum of a list. -/
def sumInt (l : List Int) : Int := l.foldl (· + ·) 0

/-- The detector's test (R207): the envelope over 16 bits against the percentages of the target level, and the step of the baseline
loop's input between two averages of 16 bits. -/
def PathSetup.asserts (c : PathSetup) (mags bases : List Int) : Bool :=
  let target : Int := Config.targetLevel * 2 ^ 14 * 16
  (mags.length == 16 && (decide (sumInt mags * 100 < c.loPct * target) || decide (c.hiPct * target < sumInt mags * 100))) ||
    (bases.length == 32 &&
      decide (c.baseJump * 2 ^ 14 * 16 < (sumInt (bases.take 16) - sumInt (bases.drop 16)).natAbs))

/-- One bit: the FIR over the corrected samples around it, with what the FIR of reader 2 adds in PAIR (R223), less the filter over the
other track's equalised samples (R222); the
asymmetry, baseline and gain corrections; the detector; and, while nothing is frozen, the loops, the taps and the canceller.
Over the preamble every step is multiplied by 2^ACQ_SHIFT. -/
def PathSetup.bit (c : PathSetup) (n : Nat) (xs others : List Int) (add : Int) (p : PathState) : PathState :=
  let y := fir p.taps xs + add - roundDiv (fir p.cancel others) (2 ^ 14)
  let a := y + roundDiv (p.loops.asym * y * y) (2 ^ 38)
  let z := roundDiv ((a - roundDiv p.loops.base (2 ^ 10)) * p.loops.gain) (2 ^ 24)
  let mags := ((z.natAbs : Int) :: p.mags).take 16
  let bases := (a :: p.bases).take 32
  let hit := c.asserts mags bases
  let clean := if hit then 0 else p.clean + 1
  let frozen := hit || (p.defect && decide (clean < 64))
  let acq : Int := if n < markAAt then c.acqShift else 0
  let e := Config.loopError z
  let t := Config.timingStep z
  let scale : Int := 2 ^ acq.toNat
  let loops : Loops := if frozen then p.loops else
    { phase := p.loops.phase + p.loops.freq + t.1 * scale, freq := p.loops.freq + t.2 * scale,
      gain := p.loops.gain + stepBy (c.gainMu - acq) e.1, base := p.loops.base + stepBy (c.baseMu - acq) e.2.1,
      asym := p.loops.asym + stepBy (c.asymMu - acq) e.2.2 }
  let lms (l xs : List Int) : List Int := List.zipWith (fun t x => satTo 16 (t + Config.lmsStep z x)) l xs
  { loops := loops, taps := if frozen || !c.adapt then p.taps else lms p.taps xs,
    cancel := if frozen || c.partner then p.cancel else lms p.cancel others,
    defect := frozen, clean := clean, raised := p.raised || hit, mags := mags, bases := bases, out := z :: p.out,
    erased := (c.erase && frozen) :: p.erased }

/-- The window of a list around an index, the main tap at place 8. -/
def window (width n : Nat) (l : List Int) : List Int :=
  (List.range width).map fun k => if n + 8 < k then 0 else l.getD (n + 8 - k) 0

/-- The path over the corrected samples of a frame. -/
def PathSetup.run (c : PathSetup) (xs others adds : List Int) (p : PathState) : PathState :=
  (List.range xs.length).foldl (fun p n => c.bit n (window 32 n xs) (window 16 n others) (adds.getD n 0) p) p

/-- The log-likelihood ratios of a frame: 0 for every erased bit. -/
def PathState.llrs (p : PathState) : List Int :=
  List.zipWith (fun x e => if e then 0 else x) (Config.llr p.out.reverse) p.erased.reverse

/-- Hard decisions on the equalised samples. -/
def PathState.bits (p : PathState) : List Bool := p.out.reverse.map fun z => decide (0 < z)

/-! ### Marks (R209) -/

/-- The better of two mark positions: fewer differing bits, then the earlier. -/
def betterMark (x y : Int × Nat) : Int × Nat := if y.2 < x.2 ∨ (y.2 = x.2 ∧ y.1 < x.1) then y else x

/-- In how many of the 24 bits from a position the decisions differ from a mark; a bit that is not there differs. -/
def markDiff (mark bits : List Bool) (at_ : Nat) : Nat :=
  (mark.zipIdx.filter fun m => bits[at_ + m.2]? != some m.1).length

/-- The position at which a mark is found within ±win bits of its prediction, at most tol bits different. -/
def findMark (win tol : Nat) (mark : List Bool) (predicted : Nat) (bits : List Bool) : Option Int :=
  let l := ((List.range (2 * win + 1)).map fun k => predicted + k - win).map fun (q : Nat) => ((q : Int), markDiff mark bits q)
  ((l.filter fun c => c.2 ≤ tol).foldl (fun m c => match m with | none => some c | some x => some (betterMark x c)) none).map (·.1)

end Sys2Proof.Machine
end

