-- ==== Sys2Proof/Machine/Channel.lean ====
section
/-!
DEFINITION. Sys2Proof/Machine/Channel.lean: the read channel of chapter 9: sector framing (R208 to R212), decoding (R213,
R214), the sample buffer (R215, R216), recovery requests (R217), sector results (R218), verify (R224 to R226), slice faults,
takeover and disabling (R229 to R232), and the assist-health trend (R439).
-/

namespace Sys2Proof.Machine

/-! ### Where a slice stands -/

/-- SLC_STATUS.PINNED and the PIN bits follow the pinned slots. -/
def State.pinRegs (s : State) (i : Nat) : State :=
  let bits := (s.slice i).pinned.foldl (fun m p => m ||| 2 ^ p.slot) 0
  ((s.setFld (F.SLC_STATUS_PINNED i) (s.slice i).pinned.length).setFld (F.SLC_PIN_LO_PIN i) (bits % 2 ^ 32)).setFld
    (F.SLC_PIN_HI_PIN i) (bits / 2 ^ 32)

/-- The 16 bytes of a sector result (R218). -/
def SectorResult.bytes (r : SectorResult) : List Byte :=
  let off := (r.offset % 32).toNat
  leBytes 5 r.psa ++
    [BitVec.ofNat 8 (r.slice + if r.isVerify then 8 else 0), BitVec.ofNat 8 r.slot, BitVec.ofNat 8 r.code, BitVec.ofNat 8 r.iterations,
     BitVec.ofNat 8 ((if r.foundA then 1 else 0) + (if r.foundB then 2 else 0) + 4 * r.framing + 16 * (off % 16)),
     BitVec.ofNat 8 (r.drops % 16 + 16 * (off / 16)), BitVec.ofNat 8 r.margin] ++ leBytes 4 r.crc

/-- Post a sector result (R218). -/
def State.postResult (s : State) (i : Nat) (r : SectorResult) : State :=
  s.modSlice i fun x => { x with lastResult := some r, resultBytes := r.bytes }

/-- The operation under the heads of an actuator: the first issued one that still passes sectors or awaits its verify. -/
def State.transferOp (s : State) (a : Nat) (verify : Bool) : Option MediaOp :=
  s.flow.ops.find? fun o => o.act == a && o.place == .issued &&
    (if verify then o.kind == .write && o.settled.length < o.count else o.framed.length < o.count)

/-- The band of an actuator's track: its number and data rate in Mb/s. -/
def State.bandAt (s : State) (a t : Nat) : Nat × Nat :=
  ((s.bands a).find? fun b => b.firstTrack ≤ t && t ≤ b.lastTrack).elim (0, 1000) fun b => (b.band, b.rate)

/-- PLL_FAB in kHz (R49, R35). -/
def State.fabKhz (s : State) : Nat := ((s.pattern.active.clock.find? fun c => c.1 == 1).map (·.2)).getD 1000000

/-- The effective inline limit (R213): INLINE_ITER, or the whole iterations of 400 PLL_FAB cycles that fit into a frame. -/
def State.inlineLimit (s : State) (i a t : Nat) : Nat :=
  min (s.fld (F.SLC_LDPC_INLINE_ITER i)) (38024 * s.fabKhz / ((s.bandAt a t).2 * 1000 * 400))

/-! ### Framing (R208 to R212) -/

/-- The frame's start and framing code, and its dropped-stitch bits (R210). -/
def framing (a b : Option Int) : Int × Nat × Nat :=
  match a, b with
  | some a, some b => if b - a = 64 then (a + 88, 0, 0) else (b + 24, 1, 4)
  | some a, none => (a + 88, 0, 2)
  | none, some b => (b + 24, 1, 1)
  | none, none => (184, 2, 3)

/-- Count dropped stitches by their bits (R212). -/
def State.countDrops (s : State) (i bits : Nat) : State :=
  let one (b : Nat) (f : Fld) (s : State) : State := if bits.testBit b then (s.count f).count (F.SLC_DROP_TOTAL_TOTAL i) else s
  one 3 (F.SLC_DROP_REFRAME i) (one 2 (F.SLC_DROP_SPACING i) (one 1 (F.SLC_DROP_B_MISS i) (one 0 (F.SLC_DROP_A_MISS i) s)))

/-- The marks as an injection at point 0x05 leaves them (R492). -/
def injectMarks (hit : Option (Nat × Nat)) (m : Option Int × Option Int) : Option Int × Option Int :=
  match hit with
  | some (0, _) => (none, m.2)
  | some (1, p) => (some ((m.1.getD 96) - p), m.2)
  | some (2, _) => (m.1, none)
  | some (3, _) => (none, none)
  | _ => m

/-- The next sample-buffer slot of the ring: pinned slots are skipped (R216). -/
def Slice.nextSlot (x : Slice) : Nat :=
  (((List.range 42).map fun k => (x.ring + k) % 42).find? fun n => !x.pinned.any fun p => p.slot == n).getD 0

/-- The taps of a slice, Q2.14 (R205). -/
def State.firTaps (s : State) (i : Nat) : List Int :=
  (List.range 16).flatMap fun k => [s.sfld (F.SLC_FIR_TAP_EVEN i k), s.sfld (F.SLC_FIR_TAP_ODD i k)]

/-- The adapted taps go to SLC_FIR_k. -/
def State.setTaps (s : State) (i : Nat) (taps : List Int) : State :=
  (List.range 16).foldl (fun s k =>
    (s.setSfld (F.SLC_FIR_TAP_EVEN i k) (taps.getD (2 * k) 0)).setSfld (F.SLC_FIR_TAP_ODD i k) (taps.getD (2 * k + 1) 0)) s

/-- The slice that serves the other position of an actuator. -/
def State.partner (s : State) (i a : Nat) : Option Nat :=
  (List.range 5).find? fun k => k != i && s.serves k a

/-- The samples of reader 1 or 2 of a head with the corrections of the slice's ADC and of the reader (R205, R431). -/
def State.corrected (s : State) (i a head : Nat) (second : Bool) (l : List Int) : List Int :=
  Config.correct (s.sfld (F.GAU_ADC_OFFSET i)) (s.sfld (F.GAU_ADC_GAIN i)) (s.fld (F.GAU_SKEW_SKEW i))
    (s.sfld (if second then F.GAU_RDR_GAIN_R2 a head else F.GAU_RDR_GAIN_R1 a head))
    (s.sfld (if second then F.GAU_RDR_ASYM_R2 a head else F.GAU_RDR_ASYM_R1 a head)) l

/-- The settings of a slice for a frame of an operation (R206, R207, R220): loop variant 1 takes the steps of the tension loops 2
larger and variant 2 takes them 2 smaller, each as 2 in the exponent (DEDUCED, assumption log 123). -/
def State.pathSetup (s : State) (i : Nat) (o : MediaOp) : PathSetup :=
  let d : Int := if o.variant = 1 then -2 else if o.variant = 2 then 2 else 0
  { gainMu := s.fld (F.SLC_TENSION_GAIN_MU i) + d, baseMu := s.fld (F.SLC_TENSION_BASE_MU i) + d,
    asymMu := s.fld (F.SLC_TENSION_ASYM_MU i) + d, acqShift := s.fld (F.SLC_TENSION_ACQ_SHIFT i),
    loPct := s.fld (F.SLC_DEFECT_LO_PCT i), hiPct := s.fld (F.SLC_DEFECT_HI_PCT i), baseJump := s.fld (F.SLC_DEFECT_BASE_JUMP i),
    erase := s.on (F.SLC_DEFECT_ERASE i), adapt := s.on (F.SLC_CTRL_FIR_ADAPT i),
    partner := match s.partner i o.act with
      | some k => o.mode == .twin && (s.slice k).defect
      | none => false }

/-- Where the loops of a slice start a sector (R206, R207, R220): frozen, as they stand; by variant 3 from unity, zero and zero; else
from what the head kept in this band, and from unity where it has kept nothing. -/
def State.loopStart (s : State) (i head band : Nat) (o : MediaOp) : Loops :=
  if (s.slice i).defect then (s.slice i).loops
  else if o.variant = 3 then Loops.start
  else match (s.act o.act).loops.find? fun e => e.1 == head && e.2.1 == band with
    | some e => e.2.2
    | none => Loops.start

/-- The samples that slice i equalises: its own reader's; in PAIR slice P adds those of reader 2, filtered by slice Q's taps at
the lag RLAG_NS, so that one stream of both results (R220, R223). -/
def State.readPath (s : State) (i head band : Nat) (o : MediaOp) (obs : FrameObs) : PathState :=
  let q := s.fld (F.SLC_STATUS_POSITION i) == 1
  let k := (s.partner i o.act).getD i
  let others := if o.mode = .twin then (s.slice k).equalised else []
  let p : PathState :=
    { loops := s.loopStart i head band o, taps := s.firTaps i, cancel := if o.mode = .twin then (s.slice i).cancel else [],
      defect := (s.slice i).defect, clean := (s.slice i).cleanBits, raised := false, mags := [], bases := [], out := [], erased := [] }
  let xs := s.corrected i o.act head q obs.samples
  let rate := (s.bandAt o.act (psaTrack o.psa)).2
  let lag := roundDiv (s.sfld (F.SLC_HEAD_RLAG_NS i head) * rate) 1000
  let second := s.corrected k o.act head true obs.second
  let adds : List Int := if o.mode = .pair then
      (List.range xs.length).map fun (n : Nat) => fir (s.firTaps k) (window 32 ((n : Int) + lag).toNat second)
    else []
  (s.pathSetup i o).run xs others adds p

/-- The LLR store takes a sector (R215): of 8 entries the oldest goes that the recovery engine does not use. -/
def Slice.storeLlrs (x : Slice) (e : LlrEntry) : List LlrEntry :=
  let used (y : LlrEntry) : Bool := x.automatic.any fun j => j.op == y.op && j.index == y.index
  let l := e :: x.llrs
  if l.length ≤ 8 then l
  else match (List.range l.length).reverse.find? fun n => n != 0 && !((l[n]?).elim false used) with
    | some n => l.eraseIdx n
    | none => l.take 8

/-- The frame runs through the read path (R205 to R207): the loops and the taps it leaves, the head's entry for its next sector, the
detector, the sample slot and the LLRs. -/
def State.runPath (s : State) (i head band n : Nat) (o : MediaOp) (k : Nat) (obs : FrameObs) (p : PathState)
    (m : Option Int × Option Int) : State :=
  let s := if p.raised then s.flag (F.SLC_EV_DEFECT i) else s
  let s := if s.on (F.SLC_CTRL_FIR_ADAPT i) then s.setTaps i p.taps else s
  let s := s.modAct o.act fun x => { x with loops := (head, band, p.loops) :: x.loops.filter fun e => e.1 != head }
  let slot : SampleSlot := { slot := n, psa := o.places.getD k 0, head := head, band := band, markA := m.1, markB := m.2,
                             samples := obs.samples }
  s.modSlice i fun x =>
    { x with loops := p.loops, cancel := if p.cancel.isEmpty then x.cancel else p.cancel, equalised := p.out.reverse, defect := p.defect,
             cleanBits := if p.defect then p.clean else 0, buffer := slot :: x.buffer.filter fun y => y.slot != n,
             llrs := x.storeLlrs { op := o.id, index := k, values := p.llrs } }

/-- The sector of an operation that the slice receives next: the track of its reader in TWIN, the sectors written and not
yet received in VERIFY. -/
def State.nextSector (s : State) (i : Nat) (o : MediaOp) : Option Nat :=
  let q := s.fld (F.SLC_STATUS_POSITION i) == 1
  let first := psaTrack (o.places.headD 0)
  let idx := (List.range o.count).filter fun k => !o.framed.contains k
  match o.mode with
  | .verify =>
    if q then
      (List.range o.count).find? fun k => o.framed.contains k && !o.settled.contains k &&
        !s.slices.any fun x => (x.received ++ x.automatic).any fun j => j.op == o.id && j.index == k
    else idx.head?
  | .twin => idx.find? fun k => (psaTrack (o.places.getD k 0) != first) == q
  | .pair => if q then none else idx.head?
  | .single => if q && (s.sliceAt o.act 0).isSome then none else idx.head?

/-- A slice receives the frame of a sector: read path, marks, framing, dropped stitches, sample slot (R205 to R212). -/
def State.receiveSector (s : State) (i : Nat) (o : MediaOp) (k : Nat) (obs : FrameObs) : State :=
  let p := o.places.getD k 0
  let band := (s.bandAt o.act (psaTrack p)).1
  let path := s.readPath i (psaHead p) band o obs
  let (hit, s) := s.snagPass 5 i false
  let win := s.fld (F.SLC_MARK_WIN i)
  let tol := s.fld (F.SLC_MARK_TOL i)
  let m := injectMarks hit (findMark win tol markA markAAt path.bits, findMark win tol markB markBAt path.bits)
  let (start, code, drops) := framing m.1 m.2
  let s := s.countDrops i drops
  let n := (s.slice i).nextSlot
  let verify := o.kind == .write
  let j : SectorJob := { op := o.id, index := k, psa := p, isVerify := verify, markA := m.1, markB := m.2, start := start,
                         framing := code, drops := drops, slot := n }
  let s := s.runPath i (psaHead p) band n o k obs path m
  let s := s.modSlice i fun x => { x with received := x.received ++ [j], ring := (n + 1) % 42, inFrame := true }
  if verify then s else s.modOp o.id fun o => { o with transferring := true, next := k, framed := k :: o.framed }

/-- The sector as it goes to the serialiser: deciphered bytes as held, ciphertext where a key slot is bound, parity over its
group (R243). -/
def State.serialised (s : State) (o : MediaOp) (k : Nat) : Option MediaSector :=
  match o.payload[k]? with
  | none => none
  | some x =>
    if x.parity then
      let p := o.places.getD k 0
      match (s.zoneOfPsa p).bind s.zoneShape with
      | none => none
      | some sh =>
        let n := (psaTrack p - sh.first) * sh.spt + psaSector p
        let pq := s.groupParity sh (n / 66)
        some { x with data := if n % 66 = 64 then pq.1 else pq.2 }
    else match kget k o.cipherOut with
      | some c => some c
      | none => some x

/-- Slice P sends a sector (R208, R224): its frame goes to the serialiser, and the CRC-32C of its payload is kept. -/
def State.serialise (s : State) (i : Nat) (o : MediaOp) (k : Nat) : State :=
  match s.serialised o k with
  | none => s
  | some x =>
    (s.modOp o.id fun o => { o with transferring := true, next := k, kept := (k, (crc32c x.bytes).toNat) :: o.kept.filter fun e => e.1 != k }).modSlice
      i fun y => { y with inFrame := true, serial := frameBits x.bytes }

/-- SECTOR_FRAME (R208): slice P of a write sends a sector, when its bytes are ready and WG is high; any other serving slice
receives one. -/
def execSectorFrame (i : Nat) (obs : FrameObs) (s : State) : Host.Outcome State Fault Refusal :=
  let a := s.fld (F.SLC_STATUS_ACT i)
  if !s.serves i a || (s.slice i).inFrame then .next s
  else
    let verify := s.fld (F.SLC_STATUS_POSITION i) == 1 && (s.transferOp a true).isSome
    match s.transferOp a verify with
    | none => .next s
    | some o =>
      match (s.nextSector i o).filter (s.onHead o) with
      | none => .next s
      | some k =>
        if o.kind == .write && s.fld (F.SLC_STATUS_POSITION i) == 0 then
          let ready := o.keySlot.isNone || (o.payload.getD k { dla := 0, nsid := 0, wcount := 0, gen := 0, pi := [], auth := [], data := [], parity := true }).parity ||
            o.cipherOut.any fun c => c.1 == k
          if ready && s.on (F.ACT_STATUS_WG a) then
            .next (s.serialise i o k)
          else .next s
        else .next (s.receiveSector i o k obs)

/-! ### The sector boundary -/

/-- A sector that slice P has been sending ends. The media list holds what was sent to the slot; whether it can be read
back is the decode's outcome. Write data has no effect while WG is low: a slot in which WG fell holds no sector, neither the new one
nor what it held before (R197; DEDUCED, assumption log 109). -/
def State.sectorWritten (s : State) (a : Nat) (o : MediaOp) : State :=
  let k := o.next
  if !s.on (F.ACT_STATUS_WG a) && !o.wgDropped.contains k then s
  else
    let p := o.places.getD k 0
    let s := match s.serialised o k with
      | some x => if o.wgDropped.contains k then s.tearMedia p x else s.writeMedia p x
      | none => s
    let s := s.modOp o.id fun o => { o with framed := k :: o.framed }
    if o.count ≤ o.framed.length + 1 then (s.modAct a fun x => { x with wgRequest := none }).endGate a else s

/-- Register writes of slice i that waited for the boundary take effect (R228). -/
def State.applyDelayed (s : State) (i : Nat) : State :=
  let l := (s.slice i).delayed
  l.foldl (fun s w => s.setReg (R.SLC_CTRL i + w.1 % 0x10000) w.2) (s.modSlice i fun x => { x with delayed := [], inFrame := false })

/-- The slice that stands in for slice i, as SLC_STATUS.FOR_SLICE names it. -/
def State.standingFor (s : State) (i : Nat) : Option Nat :=
  (List.range 5).find? fun k => s.fld (F.SLC_STATUS_ROLE k) == 3 && s.fld (F.SLC_STATUS_FOR_SLICE k) == i

/-- A slice takes a role without an actuator. -/
def State.idleSlice (s : State) (i role : Nat) : State :=
  (((s.setFld (F.SLC_STATUS_ROLE i) role).setFld (F.SLC_STATUS_ACT i) 3).setFld (F.SLC_STATUS_FOR_SLICE i) 7).setFld
    (F.SLC_STATUS_MODE i) 0

/-- A slice takes a position of an actuator. -/
def State.seatSlice (s : State) (i role a pos forSlice : Nat) : State :=
  (((s.setFld (F.SLC_STATUS_ROLE i) role).setFld (F.SLC_STATUS_ACT i) a).setFld (F.SLC_STATUS_POSITION i) pos).setFld
    (F.SLC_STATUS_FOR_SLICE i) forSlice

/-- Work in flight goes to another slice (R230). -/
def State.moveWork (s : State) (i k : Nat) (pinned : Bool) : State :=
  let x := s.slice i
  let s := s.modSlice k fun y =>
    { y with received := x.received ++ y.received, automatic := x.automatic ++ y.automatic,
             pinned := y.pinned ++ (if pinned then x.pinned else []),
             buffer := (if pinned then x.buffer.filter fun b => x.pinned.any fun p => p.slot == b.slot else []) ++ y.buffer,
             llrs := ((x.llrs.filter fun e => x.automatic.any fun j => j.op == e.op && j.index == e.index) ++ y.llrs).take 8 }
  ((s.modSlice i fun x => { x with received := [], automatic := [], pinned := [] }).pinRegs i).pinRegs k

/-- A slice returns to the position it had, and a spare that stands in for it to SPARE. -/
def State.returnSlice (s : State) (i a pos : Nat) : State :=
  let s := match s.standingFor i with
    | some k => (s.moveWork k i true).idleSlice k 2
    | none => s
  s.seatSlice i 1 a pos 7

/-- At a sector boundary of actuator a, slices whose DISABLE has been written back to 0 return (R232), and a slice whose
calibration has ended returns (R435). -/
def State.sliceReturns (s : State) (a : Nat) : State :=
  let s := (List.range 5).foldl (fun s i =>
    let x := s.slice i
    if s.fld (F.SLC_STATUS_ROLE i) = 6 ∧ !s.on (F.SLC_CTRL_DISABLE i) ∧ x.formerRole = 1 ∧ x.formerAct = a then
      s.returnSlice i a x.formerPos
    else s) s
  match s.gauge.returning with
  | some c =>
    if c.spare && c.formerAct == a then
      (if s.fld (F.SLC_STATUS_ROLE c.slice) = 4 then s.returnSlice c.slice a c.formerPos else s).modGauge fun g =>
        { g with returning := none }
    else s
  | none => s

/-- A calibration that waits for the boundary takes its slice: the spare stands in (R435). -/
def State.calibSeat (s : State) (a : Nat) : State :=
  match s.gauge.running with
  | some c =>
    if c.waits = 1 ∧ c.formerAct = a then
      match (List.range 5).find? fun k => s.fld (F.SLC_STATUS_ROLE k) == 2 with
      | some k =>
        let s := ((s.moveWork c.slice k true).seatSlice k 3 a c.formerPos c.slice).setFld (F.SLC_STATUS_ROLE c.slice) 4
        s.modGauge fun g => { g with running := some { c with waits := 0, spare := true } }
      | none => s
    else s
  | none => s

/-- SECTOR_BOUNDARY (R228): frames end; what waited for the boundary takes effect. -/
def execSectorBoundary (a : Nat) (s : State) : Host.Outcome State Fault Refusal :=
  if !s.hasAct a then .next s
  else
    let p := s.sliceAt a 0
    let sending := match p with | some i => (s.slice i).inFrame | none => false
    let s := match s.transferOp a false with
      | some o => if o.kind == OpKind.write && sending && o.transferring then s.sectorWritten a o else s
      | none => s
    let s := (List.range 5).foldl (fun s i => if s.fld (F.SLC_STATUS_ACT i) = a then s.applyDelayed i else s) s
    .next ((s.sliceReturns a).calibSeat a)

/-! ### Assist-health trend (R439) -/

/-- One average after a result: weight 2^-k, in units of 2^-24 of a margin count. -/
def ewma (k avg m : Nat) : Nat := avg - avg / 2 ^ k + m * 2 ^ 24 / 2 ^ k

/-- The trend of a head takes the margin of a verify result. -/
def State.healthTrend (s : State) (a h m : Nat) : State :=
  let old := (s.gauge.trends.find? fun t => t.act == a && t.head == h).getD
    { act := a, head := h, short := 0, long := 0, results := 0, reported := false }
  let t := { old with short := ewma 10 old.short m, long := ewma 16 old.long m, results := old.results + 1 }
  let above := t.long * (100 + s.fld F.GAU_CFG2_DRIFT_PCT) < t.short * 100
  let report := above && 65536 ≤ t.results && !t.reported
  let t := { t with reported := if report then true else if t.short < t.long then false else t.reported }
  let s := s.modGauge fun g => { g with trends := t :: g.trends.filter fun u => !(u.act == a && u.head == h) }
  let s := (s.setFld (F.GAU_HEALTH_SHORT a h) (t.short / 2 ^ 16)).setFld (F.GAU_HEALTH_LONG a h) (t.long / 2 ^ 16)
  if report then
    (((s.setFld F.GAU_DRIFT_HEAD h).setFld F.GAU_DRIFT_ACT a).flag F.GAU_EV_DRIFT).event 25 1 3 a h
  else s

/-! ### Results of a decode -/

/-- The place is a parity slot of a sequential zone. -/
def State.isParity (s : State) (p : Nat) : Bool :=
  match (s.zoneOfPsa p).bind s.zoneShape with
  | some sh => sh.sequential && (sh.slotAt p).isNone
  | none => false

/-- Tag and generation are those the operation expects (R214); a parity sector has none. -/
def State.tagOk (s : State) (o : MediaOp) (k : Nat) : Bool :=
  let p := o.places.getD k 0
  s.isParity p || match s.onMedia p with
    | some x =>
      let d := o.dlas.getD k 0
      x.dla == d && x.gen == o.zoneGen && x.nsid == ((s.nsOfDla d).map (·.1.nsid)).getD 0
    | none => false

/-- CRC-32C of the decoded payload (R218). -/
def State.payloadCrc (s : State) (p : Nat) : Nat := ((s.onMedia p).map fun x => (crc32c x.bytes).toNat).getD 0

/-- The result of a job with a code. -/
def State.resultOf (s : State) (i : Nat) (j : SectorJob) (code : Nat) (d : DecodeObs) (offset : Int) (extra : Nat) : SectorResult :=
  { psa := j.psa, slice := i, isVerify := j.isVerify, slot := j.slot, code := code, iterations := d.iterations, framing := j.framing,
    foundA := j.markA.isSome, foundB := j.markB.isSome, offset := offset, drops := j.drops ||| extra,
    margin := min (d.unsatisfied / 16) 255, crc := if code ≤ 2 then s.payloadCrc j.psa else 0 }

/-- Slots leave the pinned set. -/
def State.unpin (s : State) (i : Nat) (p : PinnedSlot → Bool) : State :=
  (s.modSlice i fun x => { x with pinned := x.pinned.filter fun y => !p y }).pinRegs i

/-- Pinned slots of a physical sector, over all slices. -/
def State.pinnedReads (s : State) (psa : Nat) : Nat :=
  s.slices.foldl (fun m x => m + (x.pinned.filter fun p => p.psa == psa).length) 0

/-- A failed read of ladder step 3 or 4 takes the place of the held slot with the lowest margin once the run holds 4 (R348). -/
def State.replaceHeld (s : State) (j : SectorJob) : State :=
  let laddered := match s.op j.op with
    | some o => o.purpose == .ladder && o.variant != 0
    | none => false
  if !laddered || s.pinnedReads j.psa < 4 then s
  else
    let held := (List.range 5).flatMap fun k => ((s.slice k).pinned.filter fun p => p.psa == j.psa).map fun p => (k, p)
    match held with
    | [] => s
    | h :: rest =>
      let low := rest.foldl (fun m x => if x.2.margin < m.2.margin then x else m) h
      s.unpin low.1 fun p => p.slot == low.2.slot

/-- A sector that failed every decode: its slot is pinned, at most 8 (R216). -/
def State.pinSector (s : State) (i : Nat) (j : SectorJob) (d : DecodeObs) : State × Nat :=
  let s := s.replaceHeld j
  if 8 ≤ (s.slice i).pinned.length then (s.flag (F.SLC_EV_PIN_FULL i), 4)
  else
    let p : PinnedSlot := { slot := j.slot, psa := j.psa, op := j.op, index := j.index, markA := j.markA, markB := j.markB,
                            start := j.start, framing := j.framing, margin := min (d.unsatisfied / 16) 255 }
    ((s.modSlice i fun x => { x with pinned := x.pinned ++ [p] }).pinRegs i, 3)

/-- A read's sector is not decoded: it waits for a ladder run, which settles it; a scrub's parity sector makes its group
NOPARITY (R346, R357); a failing read of a ladder run starts none, and one of the run's own sector that met PIN_FULL is repeated
(R348). -/
def State.readFailed (s : State) (i : Nat) (o : MediaOp) (k code : Nat) : State :=
  let p := o.places.getD k 0
  match o.purpose with
  | .ladder =>
    if code = 4 ∧ s.darn.runs.any (fun r => r.claim == o.claim && r.psa == p) then
      (s.settle o k).addOp { o with place := .listed, cost := none, transferring := false, next := 0, kept := [], framed := [],
                                    settled := [], wgDropped := [], keySlot := none, awaits := some i }
    else s.settle o k
  | .scrub => (if s.isParity p then s.noParity p else waits s p).settle o k
  | _ => waits s p
where
  waits (s : State) (p : Nat) : State :=
    let f : FailedSector := { act := o.act, dla := o.dlas.getD k 0, psa := p, code := code, slice := i, pinned := code == 3,
                              urgent := o.urgent, darning := o.purpose == .scrub, claim := o.claim, op := o.id, index := k }
    s.modDarn fun x => { x with failed := x.failed ++ [f] }

/-- A scrub's sector has decoded: weak ones are relocated (R357). -/
def State.scrubGood (s : State) (o : MediaOp) (k : Nat) (d : DecodeObs) (fallback : Bool) : State :=
  let p := o.places.getD k 0
  let weak := fallback || s.fld F.DRN_CTRL_WEAK_ITER ≤ d.iterations || s.fld F.DRN_CTRL_WEAK_MARGIN ≤ min (d.unsatisfied / 16) 255
  let s := if weak && !s.isParity p then (s.count F.DRN_RELOC_WEAK).relocate o.act (o.dlas.getD k 0) p o.claim none false else s
  s.settle o k

/-- A read's sector has decoded with its tags in order. -/
def State.readGood (s : State) (o : MediaOp) (k : Nat) (d : DecodeObs) (fallback : Bool) : State :=
  match o.purpose with
  | .scrub => s.scrubGood o k d fallback
  | .ladder => s.settle o k
  | _ => match s.onMedia (o.places.getD k 0) with
    | some x => s.sectorRead o k x
    | none => s.settle o k

/-- A decode of a read ends: the tag check, the result, and what the media pair does with it. -/
def State.readDecoded (s : State) (i : Nat) (j : SectorJob) (d : DecodeObs) (offset : Int) (auto : Bool) (extra : Nat) : State :=
  match s.op j.op with
  | none => s
  | some o =>
    if d.converged then
      if s.tagOk o j.index then
        let s := s.postResult i (s.resultOf i j (if auto then 1 else 0) d offset extra)
        s.readGood o j.index d auto
      else
        let s := (s.flag (F.SLC_EV_TAG_MISMATCH i)).postResult i (s.resultOf i j 5 d offset extra)
        s.readFailed i o j.index 5
    else
      let r := s.pinSector i j d
      let s := (r.1.flag (F.SLC_EV_DECODE_FAIL i)).postResult i (s.resultOf i j r.2 d offset extra)
      s.readFailed i o j.index r.2

/-- A verified sector takes its place in the write (R226). -/
def State.writeGood (s : State) (o : MediaOp) (k : Nat) : State :=
  let x := o.payload.getD k { dla := 0, nsid := 0, wcount := 0, gen := 0, pi := [], auth := [], data := [], parity := true }
  let s :=
    if x.parity then s
    else match o.slot.bind s.slot with
      | some w =>
        let s := s.sectorVerified w.num (x.dla - w.dla) (o.places.getD k 0)
        if o.purpose == .relocate then (s.count F.DRN_RELOC_RELOCATED).flag F.DRN_EV_RELOCATED else s
      | none =>
        if o.purpose == .relocate then s.relocated o
        else if o.purpose == .overwrite || o.purpose == .restitch then s.mapPlace x.dla (o.places.getD k 0) x.gen else s
  s.settle o k

/-- A failed verify (R226, R244): a parity sector leaves its group without parity, any other is written again. -/
def State.writeBad (s : State) (i : Nat) (o : MediaOp) (k : Nat) : State :=
  let p := o.places.getD k 0
  let s := match s.serialised o k with
    | some x => if x.parity then s.noParity p else s.sectorFailed i o p x
    | none => s
  s.settle o k

/-- The slot holds the payload as it was written (R225): its CRC-32C is the one kept, and tag, write counter and generation are
those written. -/
def State.asWritten (s : State) (o : MediaOp) (k : Nat) : Bool :=
  match s.onMedia (o.places.getD k 0), o.payload[k]? with
  | some x, some y =>
    (o.kept.find? fun e => e.1 == k) == some (k, (crc32c x.bytes).toNat) &&
      (y.parity || (x.dla == y.dla && x.nsid == y.nsid && x.wcount == y.wcount && x.gen == y.gen))
  | _, _ => false

/-- A verify decode ends (R225). -/
def State.verifyDecoded (s : State) (i : Nat) (j : SectorJob) (d : DecodeObs) : State :=
  match s.op j.op with
  | none => s
  | some o =>
    let s := s.healthTrend o.act (psaHead j.psa) (min (d.unsatisfied / 16) 255)
    let code :=
      if o.wgDropped.contains j.index then 8
      else if !d.converged || !s.asWritten o j.index then 6
      else if s.fld (F.SLC_VERIFY_MAX_ITER i) < d.iterations then 7 else 0
    let s := s.postResult i (s.resultOf i j code d 0 0)
    if code = 0 then s.writeGood o j.index else (s.flag (F.SLC_EV_VERIFY_FAIL i)).writeBad i o j.index

/-- The decode as the engine leaves it: nothing converges beyond the limit. -/
def decodeWithin (d : DecodeObs) (limit : Nat) : DecodeObs :=
  if d.converged && d.iterations ≤ limit then d else { d with converged := false, iterations := limit }

/-- The first decode of a read failed: an automatic action, unless the framing was exact or the queue is full (R210,
R211). -/
def State.firstFailed (s : State) (i : Nat) (j : SectorJob) (d : DecodeObs) : State :=
  let s := s.count (F.SLC_DECODE_FAILS i)
  if j.drops ≠ 0 ∧ (s.slice i).automatic.length < 4 then s.modSlice i fun x => { x with automatic := x.automatic ++ [j] }
  else s.readDecoded i j d 0 false 0

/-- INLINE_DECODE_DONE (R213). -/
def execInlineDecodeDone (i : Nat) (obs : DecodeObs) (s : State) : Host.Outcome State Fault Refusal :=
  match (s.slice i).received with
  | [] => .next s
  | j :: rest =>
    let s := s.modSlice i fun x => { x with received := rest }
    let d := decodeWithin obs (s.inlineLimit i (psaAct j.psa) (psaTrack j.psa))
    if j.isVerify then .next (s.verifyDecoded i j d)
    else if d.converged then .next (s.readDecoded i j d 0 false 0)
    else .next (s.firstFailed i j d)

/-- AUTO_ACTION_DONE (R211): a re-decode with a + 88, or a search over ±4 bits that stops at the first offset that
decodes. -/
def execAutoActionDone (i : Nat) (offset : Int) (obs : DecodeObs) (s : State) : Host.Outcome State Fault Refusal :=
  match (s.slice i).automatic with
  | [] => .next s
  | j :: rest =>
    let s := s.modSlice i fun x => { x with automatic := rest }
    let spacing := j.drops.testBit 2
    let d := decodeWithin obs (s.inlineLimit i (psaAct j.psa) (psaTrack j.psa))
    let d := if spacing || (offset ≠ 0 && offset.natAbs ≤ 4) then d else { d with converged := false }
    let off := if spacing || !d.converged then 0 else offset
    let j := if spacing && d.converged then { j with framing := 0, start := (j.markA.getD 96) + 88 } else j
    let s := if off ≠ 0 then s.countDrops i 8 else s
    let s := if d.converged then (s.count (F.SLC_DECODE_FALLBACK_OK i)).flag (F.SLC_EV_FALLBACK_OK i) else s
    .next (s.readDecoded i j d off true (if off ≠ 0 then 8 else 0))

/-! ### Recovery requests (R217) -/

/-- A request on a pinned slot; one on a slot that is not pinned finishes without success. -/
def State.recoveryGo (s : State) (i op slot span iter : Nat) : State :=
  if !s.hasSlice i || s.on (F.SLC_RECOV_STATUS_BUSY i) then s
  else
    let s := ((s.setFld (F.SLC_RECOV_CMD_SLOT i) slot).setFld (F.SLC_RECOV_CMD_OP i) op).setFld (F.SLC_RECOV_CMD_ITER i) iter
    let s := if op = 2 then s.setFld (F.SLC_RECOV_CMD_SPAN i) (max 1 span) else s
    let slot := s.fld (F.SLC_RECOV_CMD_SLOT i)
    let limit := s.fld (F.SLC_LDPC_RECOV_ITER i)
    let n := s.fld (F.SLC_RECOV_CMD_ITER i)
    if op = 0 then s
    else if (s.slice i).pinned.any fun p => p.slot == slot then
      let r : RecoveryRequest := { op := op, slot := slot, span := s.fld (F.SLC_RECOV_CMD_SPAN i),
                                   iterations := if n = 0 then limit else min n limit, run := none }
      ((s.modSlice i fun x => { x with request := some r }).flag (F.SLC_RECOV_STATUS_BUSY i)).flag (F.SLC_STATUS_RECOV_BUSY i)
    else (s.flag (F.SLC_RECOV_STATUS_DONE i)).clr (F.SLC_RECOV_STATUS_OK i)

/-- SLC_RE_DECODE (R217). -/
def execSlcReDecode (i slot iter : Nat) (s : State) : Host.Outcome State Fault Refusal := .next (s.recoveryGo i 1 slot 0 iter)

/-- SLC_REFRAME (R217). -/
def execSlcReframe (i slot span iter : Nat) (s : State) : Host.Outcome State Fault Refusal := .next (s.recoveryGo i 2 slot span iter)

/-- SLC_COMBINE (R217). -/
def execSlcCombine (i slot iter : Nat) (s : State) : Host.Outcome State Fault Refusal := .next (s.recoveryGo i 3 slot 0 iter)

/-- The pinned slot's sector holds what its tag should say: the DLA that maps there, in its zone's generation. -/
def State.pinTagOk (s : State) (p : PinnedSlot) : Bool :=
  match s.op p.op with
  | some o => s.tagOk o p.index
  | none => match s.onMedia p.psa with
    | some x => s.isParity p.psa || (s.resolve x.dla == .at p.psa && x.gen == (s.zdesc (x.dla / zoneSectors)).gen)
    | none => false

/-- RECOVERY_REQUEST_DONE (R217): behind the automatic queue. -/
def execRecoveryRequestDone (i : Nat) (offset : Int) (obs : DecodeObs) (s : State) : Host.Outcome State Fault Refusal :=
  let x := s.slice i
  match x.request with
  | none => .next s
  | some q =>
    if !x.automatic.isEmpty then .next s
    else
      match x.pinned.find? fun p => p.slot == q.slot with
      | none =>
        let s := (s.modSlice i fun x => { x with request := none }).clr (F.SLC_RECOV_STATUS_BUSY i)
        .next (((s.clr (F.SLC_STATUS_RECOV_BUSY i)).flag (F.SLC_RECOV_STATUS_DONE i)).clr (F.SLC_RECOV_STATUS_OK i))
      | some p =>
        let s := (s.snagPass 5 i false).2
        let off := if q.op = 2 && offset.natAbs ≤ q.span then offset else 0
        let d := decodeWithin obs q.iterations
        let tag := s.pinTagOk p
        let ok := d.converged && tag
        let code := if !d.converged then 3 else if tag then 2 else 5
        let j : SectorJob := { op := p.op, index := p.index, psa := p.psa, isVerify := false, markA := p.markA, markB := p.markB,
                               start := p.start, framing := p.framing, drops := 0, slot := p.slot }
        let s := if ok && off ≠ 0 then s.countDrops i 8 else s
        let s := if code = 5 then s.flag (F.SLC_EV_TAG_MISMATCH i) else s
        let s := s.postResult i (s.resultOf i j code d off (if ok && off ≠ 0 then 8 else 0))
        let reads := if q.op = 3 then min 4 (x.pinned.filter fun y => y.psa == p.psa).length else 0
        let s := (s.modSlice i fun x => { x with request := none }).clr (F.SLC_RECOV_STATUS_BUSY i)
        let s := ((s.clr (F.SLC_STATUS_RECOV_BUSY i)).flag (F.SLC_RECOV_STATUS_DONE i)).setBit (F.SLC_RECOV_STATUS_OK i) ok
        let s := if ok then (s.setSfld (F.SLC_RECOV_STATUS_OFFSET i) off).setFld (F.SLC_RECOV_STATUS_ITER_USED i) d.iterations else s
        .next (s.setFld (F.SLC_RECOV_STATUS_READS i) reads)

/-- SLC_UNPIN (R216): the bits of SLC_PIN_LO and SLC_PIN_HI written 1. -/
def execSlcUnpin (i lo hi : Nat) (s : State) : Host.Outcome State Fault Refusal :=
  if !s.hasSlice i then .next s
  else .next (s.unpin i fun p => (lo % 2 ^ 32 + 2 ^ 32 * (hi % 2 ^ 10)).testBit p.slot)

/-! ### Slice faults and takeover (R229 to R231) -/

/-- A spare for an actuator's slice: a slice in SPARE. -/
def State.spareSlice (s : State) : Option Nat := (List.range 5).find? fun k => s.hasSlice k && s.fld (F.SLC_STATUS_ROLE k) == 2

/-- The slice that stands in for the slice under calibration: it can be called back (R36). -/
def State.calibSpare (s : State) : Option Nat :=
  match s.gauge.running with
  | some c => if c.spare then s.standingFor c.slice else none
  | none => none

/-- A sector of a read that was lost with a slice is read again (R230). -/
def State.readAgain (s : State) (o : MediaOp) (k : Nat) : State :=
  let r := { o with framed := [], settled := [], transferring := false, next := 0, place := .listed, count := 1,
                    places := [o.places.getD k 0], dlas := [o.dlas.getD k 0], psa := o.places.getD k 0, dla := o.dlas.getD k 0,
                    keySlot := none, cipherOut := [], wgDropped := [] }
  (s.addOp r).settle o k

/-- One job of a lost slice is NOT_READ: read again, or treated as a failed verify (R230). -/
def State.notRead (s : State) (i : Nat) (j : SectorJob) : State :=
  let s := s.postResult i (s.resultOf i j 9 { converged := false, iterations := 0, unsatisfied := 0 } 0 0)
  match s.op j.op with
  | none => s
  | some o => if j.isVerify then s.writeBad i o j.index else s.readAgain o j.index

/-- Every sector of a write that slice Q has yet to receive counts as a failed verify, NOT_READ after a fault (R230, R232). -/
def State.verifyLost (s : State) (i a : Nat) (fault : Bool) : State :=
  match s.transferOp a true with
  | none => s
  | some o =>
    if (s.slice i).formerPos ≠ 1 then s
    else
      let held (k : Nat) : Bool := s.slices.any fun x => (x.received ++ x.automatic).any fun j => j.op == o.id && j.index == k
      ((List.range o.count).filter fun k => o.framed.contains k && !o.settled.contains k && !held k).foldl (fun s k =>
        match s.op o.id with
        | some o =>
          let j : SectorJob := { op := o.id, index := k, psa := o.places.getD k 0, isVerify := true, markA := none, markB := none,
                                 start := 0, framing := 2, drops := 0, slot := 255 }
          let s := if fault then
              s.postResult i (s.resultOf i j 9 { converged := false, iterations := 0, unsatisfied := 0 } 0 0) else s
          s.writeBad i o k
        | none => s) s

/-- Work of a slice that nobody takes over (R231): what it had received is read again. -/
def State.dropWork (s : State) (i : Nat) : State :=
  let x := s.slice i
  let jobs := x.received ++ x.automatic
  let s := (s.modSlice i fun x => { x with received := [], automatic := [], pinned := [], request := none }).pinRegs i
  jobs.foldl (fun s j => s.notRead i j) s

/-- The position of a slice is not filled: the actuator continues on its remaining slice, or on none (R231, R364). -/
def State.noSpare (s : State) (i a : Nat) : State :=
  let s := s.event (11 + i) 3 5 i a
  if (s.anySlice a).isNone then s.uncovered else s

/-- What a lost slice leaves: its seat, and work settled under R230. -/
def State.loseSlice (s : State) (i role : Nat) : State :=
  let a := s.fld (F.SLC_STATUS_ACT i)
  let pos := s.fld (F.SLC_STATUS_POSITION i)
  let served := s.serves i a
  let forSlice := s.fld (F.SLC_STATUS_FOR_SLICE i)
  let was := s.fld (F.SLC_STATUS_ROLE i)
  let s := s.modSlice i fun x => { x with formerRole := was, formerAct := a, formerPos := pos, inFrame := false, disabling := false }
  let s := s.idleSlice i role
  if !served then s
  else if was = 3 then
    -- a spare that stood in: a slice under calibration comes back, any other position stays empty
    let s := s.abandonIf fun c => c.spare && c.slice == forSlice
    let s := if role = 5 then (s.verifyLost i a true).dropWork i else s.verifyLost i a false
    if s.fld (F.SLC_STATUS_ROLE forSlice) = 4 then s else s.noSpare i a
  else if s.spareSlice.isSome || s.calibSpare.isSome then s.modSlice i fun x => { x with takeover := true }
  else (if role = 5 then (s.verifyLost i a true).dropWork i else s.verifyLost i a false).noSpare i a

/-- Slice i is faulted (R229). -/
def State.faultSlice (s : State) (i cause : Nat) : State :=
  let role := s.fld (F.SLC_STATUS_ROLE i)
  if !s.hasSlice i || role == 0 || role == 5 || cause == 0 || 5 < cause then s
  else
    let a := s.fld (F.SLC_STATUS_ACT i)
    let sends := s.serves i a && s.fld (F.SLC_STATUS_POSITION i) == 0 && s.on (F.ACT_STATUS_WG a)
    let s := (s.setFld (F.SLC_STATUS_FAULT_CAUSE i) cause).flag (F.SLC_EV_FAULT i)
    let s := s.event (11 + i) 1 5 i cause
    let s := s.modSlice i fun x => { x with bufferFault := cause == 2 }
    let s := if sends then ((s.wgDropped a).endGate a).modAct a fun x => { x with wgRequest := none } else s
    let s := (s.abandonIf fun c => c.kind ≤ 3 && c.slice == i).modGauge fun g =>
      { g with returning := match g.returning with | some c => if c.slice = i then none else some c | none => none }
    s.loseSlice i 5

/-- SLICE_FAULT (R229): 1 LDPC parity, 2 buffer or store, 3 ADC, 4 serialiser, 5 progress timer. -/
def execSliceFault (i cause : Nat) (s : State) : Host.Outcome State Fault Refusal := .next (s.faultSlice i cause)

/-- A spare that serves a calibration is called back for a fault (R36): the calibration ends, and the slices return at a sector
boundary of their actuator (R204), which is this one where they serve the actuator itself. -/
def State.recallSpare (s : State) (a : Nat) : State :=
  match s.spareSlice, s.calibSpare, s.gauge.running with
  | none, some _, some c =>
    let s := s.abandonCalibration
    if c.formerAct = a then s.sliceReturns a else s
  | _, _, _ => s

/-- A spare has been called back and has yet to return at a sector boundary of the other actuator. -/
def State.spareReturns (s : State) : Bool :=
  match s.gauge.returning with
  | some c => c.spare && (s.standingFor c.slice).isSome
  | none => false

/-- SLICE_TAKEOVER (R230, R36): at the actuator's next sector boundary the spare takes the position of slice i; while the spare has yet
to return from the other actuator the takeover waits. -/
def execSliceTakeover (i : Nat) (s : State) : Host.Outcome State Fault Refusal :=
  let x := s.slice i
  if !x.takeover then .next s
  else
    let a := x.formerAct
    let fault := s.fld (F.SLC_STATUS_ROLE i) == 5
    let s := s.recallSpare a
    if s.spareSlice.isNone && s.spareReturns then .next s
    else
      let s := s.modSlice i fun x => { x with takeover := false }
      let s := if fault then s.noteFault else s
      match s.spareSlice with
      | none => .next (((s.verifyLost i a fault).dropWork i).noSpare i a)
      | some k =>
        let s := s.seatSlice k 3 a x.formerPos i
        let s := if fault then s.verifyLost i a true else s
        let s := if fault && x.bufferFault then s.dropWork i else s.moveWork i k true
        let s := s.event (11 + i) 2 4 i k
        .next (if fault then s.resourceHeld F.DRN_FAILOVER_SLICE else s)

/-! ### Disabling a slice (R232) -/

/-- SLC_DISABLE (R232). -/
def execSlcDisable (i : Nat) (disable : Bool) (s : State) : Host.Outcome State Fault Refusal :=
  let role := s.fld (F.SLC_STATUS_ROLE i)
  if !s.hasSlice i then .next s
  else if disable then
    -- of a slice that is FAULTED, OFF or DISABLED the bit is ignored
    if role = 0 ∨ role = 5 ∨ role = 6 then .next s
    else
    let s := s.flag (F.SLC_CTRL_DISABLE i)
    if role = 1 ∨ role = 3 then .next (s.modSlice i fun x => { x with disabling := true })
    else if role = 2 then
      .next (((s.modSlice i fun x => { x with formerRole := 2, formerAct := 3 }).idleSlice i 6).flag (F.SLC_EV_DISABLE_DONE i))
    else if role = 4 then
      match s.gauge.running with
      | some c =>
        let s := (s.abandonIf fun c => c.kind ≤ 3 && c.slice == i).modGauge fun g => { g with returning := none }
        let s := s.modSlice i fun x => { x with formerRole := 1, formerAct := c.formerAct, formerPos := c.formerPos }
        .next ((s.idleSlice i 6).flag (F.SLC_EV_DISABLE_DONE i))
      | none => .next ((s.idleSlice i 6).flag (F.SLC_EV_DISABLE_DONE i))
    else .next s
  else
    let s := (s.clr (F.SLC_CTRL_DISABLE i)).modSlice i fun x => { x with disabling := false }
    if role = 6 ∧ ((s.slice i).formerRole = 2 ∨ (s.slice i).formerRole = 3) then .next (s.idleSlice i 2) else .next s

/-- SLICE_DISABLED (R232): at the sector boundary; the position is then served as after a fault. -/
def execSliceDisabled (i : Nat) (s : State) : Host.Outcome State Fault Refusal :=
  if !(s.slice i).disabling || (s.slice i).inFrame then .next s
  else
    let s := s.abandonIf fun c => c.kind ≤ 3 && c.slice == i
    .next ((s.loseSlice i 6).flag (F.SLC_EV_DISABLE_DONE i))

end Sys2Proof.Machine
end

