-- ==== Sys2Proof/Machine/Crypto.lean ====
section
/-!
DEFINITION. Sys2Proof/Machine/Crypto.lean: the field arithmetic of the Hook sequencer (R412), the keys of R396, and the
modes of R410 as functions of a sector, over the block ciphers of Config. A 128-bit block holds byte 0 in its low bits.
-/

namespace Sys2Proof.Machine

/-! ### GF(2^128) (R412) -/

/-- A block's bytes in the opposite order. -/
def swapBytes (v : BitVec 128) : BitVec 128 :=
  (List.range 16).foldl (fun (m : BitVec 128) i => m ||| (((v >>> (8 * i)) &&& 0xFF#128) <<< (8 * (15 - i)))) 0

/-- A product by α in XTS order. -/
def mulAlpha (v : BitVec 128) : BitVec 128 := if v.getLsbD 127 then (v <<< 1) ^^^ 0x87#128 else v <<< 1

/-- A product in XTS order: bit i is the coefficient of x^i. -/
def gmulXts (a b : BitVec 128) : BitVec 128 :=
  ((List.range 128).foldl (fun (m : BitVec 128 × BitVec 128) i => (if b.getLsbD i then m.1 ^^^ m.2 else m.1, mulAlpha m.2)) (0, a)).1

/-- A product by x in GCM order, on a block read most significant byte first. -/
def gcmShift (v : BitVec 128) : BitVec 128 := if v.getLsbD 0 then (v >>> 1) ^^^ (0xE1#128 <<< 120) else v >>> 1

/-- A product in GCM order. -/
def gmulGcm (a b : BitVec 128) : BitVec 128 :=
  let x := swapBytes a
  let y := swapBytes b
  swapBytes ((List.range 128).foldl
    (fun (m : BitVec 128 × BitVec 128) i => (if y.getLsbD (127 - i) then m.1 ^^^ m.2 else m.1, gcmShift m.2)) (0, x)).1

/-- The low 32 bits in GCM order incremented. -/
def inc32 (v : BitVec 128) : BitVec 128 :=
  let x := swapBytes v
  swapBytes ((x &&& ~~~0xFFFFFFFF#128) ||| ((x + 1) &&& 0xFFFFFFFF#128))

/-- The GCM length block for 256 bits of additional data and 32,768 bits of data. -/
def gcmLength : BitVec 128 := swapBytes ((256#128 <<< 64) ||| 32768#128)

/-! ### Block operations (R408) -/

/-- Part 0 or 1 of a key: for XTS the first and the second half (R410). -/
def keyPart (alg mode part : Nat) (key : BitVec 512) : BitVec 256 :=
  let n := if alg = 2 then 256 else 128
  if mode = 0 ∧ part = 1 then (key >>> n).truncate 256 else key.truncate 256

/-- One block encrypted: 1 AES-128, 2 AES-256, 3 SM4. -/
def blockEncrypt (alg : Nat) (key : BitVec 256) (v : BitVec 128) : BitVec 128 :=
  match alg with
  | 1 => Config.aes128Encrypt (key.truncate 128) v
  | 2 => Config.aesEncrypt key v
  | _ => Config.sm4Encrypt (key.truncate 128) v

/-- One block decrypted. -/
def blockDecrypt (alg : Nat) (key : BitVec 256) (v : BitVec 128) : BitVec 128 :=
  match alg with
  | 1 => Config.aes128Decrypt (key.truncate 128) v
  | 2 => Config.aesDecrypt key v
  | _ => Config.sm4Decrypt (key.truncate 128) v

/-! ### Keys (R396) -/

/-- Algorithm and mode of a namespace mode of R410. -/
def modeAlg (mode : Nat) : Nat := if mode = 1 ∨ mode = 3 then 2 else 3
def modeKind (mode : Nat) : Nat := if mode ≤ 2 then 0 else 1

/-- Key length of a namespace mode. -/
def modeBits (mode : Nat) : Nat := match mode with | 1 => 512 | 2 => 256 | 3 => 256 | _ => 128

/-- The zone key (R396). -/
def zoneKey (nmek : Digest) (nsid zone gen bits : Nat) : BitVec 512 :=
  BitVec.ofNat 512 (Config.kdf nmek "BZ8 ZONE" (leBytes 4 nsid ++ leBytes 4 zone ++ leBytes 4 gen) bits)

/-- The Key Per I/O zone key (R396). -/
def kpioKey (key : Digest) (nsid tag zone gen bits : Nat) : BitVec 512 :=
  BitVec.ofNat 512 (Config.kdf key "BZ8 KPIO" (leBytes 4 nsid ++ leBytes 4 tag ++ leBytes 4 zone ++ leBytes 4 gen) bits)

/-! ### A sector under a mode (R410) -/

/-- The data of a sector as blocks, and back. -/
def sectorBlocks (data : List Byte) : List (BitVec 128) :=
  (List.range 256).map fun k => BitVec.ofNat 128 (leField (padTo 4096 data) (16 * k) 16)
def blocksSector (l : List (BitVec 128)) : List Byte := l.flatMap fun b => leBytes 16 b.toNat

/-- XTS over a list of blocks under a tweak. -/
def xtsBlocks (op : BitVec 128 → BitVec 128) : BitVec 128 → List (BitVec 128) → List (BitVec 128)
  | _, [] => []
  | t, b :: rest => (op (b ^^^ t) ^^^ t) :: xtsBlocks op (mulAlpha t) rest

/-- CTR over a list of blocks, the counter incremented before each. -/
def ctrBlocks (enc : BitVec 128 → BitVec 128) : BitVec 128 → List (BitVec 128) → List (BitVec 128)
  | _, [] => []
  | c, b :: rest => (b ^^^ enc (inc32 c)) :: ctrBlocks enc (inc32 c) rest

/-- GHASH. -/
def ghash (h : BitVec 128) (l : List (BitVec 128)) : BitVec 128 := l.foldl (fun y b => gmulGcm (y ^^^ b) h) 0

/-- The nonce of a sector with the counter 1 appended. -/
def gcmContext (x : MediaSector) : BitVec 128 :=
  BitVec.ofNat 128 (ofLe (leBytes 4 x.gen ++ leBytes 4 x.wcount ++ leBytes 4 x.dla ++ beBytes 4 1))

/-- The GCM tag of ciphertext blocks under a key. -/
def gcmTag (alg : Nat) (key : BitVec 512) (x : MediaSector) (cipher : List (BitVec 128)) : BitVec 128 :=
  let e := blockEncrypt alg (keyPart alg 1 0 key)
  let m := x.metadata
  let aad := [BitVec.ofNat 128 (leField m 0 16), BitVec.ofNat 128 (leField m 16 16)]
  ghash (e 0) (aad ++ cipher ++ [gcmLength]) ^^^ e (gcmContext x)

/-- A sector's data under XTS, enciphered or deciphered, with its DLA as the tweak (R410): by drive firmware's program, or by the fixed
program in ROM (R414). -/
def xtsData (enc : Bool) (alg : Nat) (key : BitVec 512) (dla : Nat) (data : List Byte) : List Byte :=
  let op := if enc then blockEncrypt alg (keyPart alg 0 0 key) else blockDecrypt alg (keyPart alg 0 0 key)
  blocksSector (xtsBlocks op (blockEncrypt alg (keyPart alg 0 1 key) (BitVec.ofNat 128 dla)) (sectorBlocks data))

/-- A sector enciphered for the media. -/
def encipher (mode : Nat) (key : BitVec 512) (x : MediaSector) : MediaSector :=
  let alg := modeAlg mode
  if modeKind mode = 0 then { x with data := xtsData true alg key x.dla x.data }
  else
    let c := ctrBlocks (blockEncrypt alg (keyPart alg 1 0 key)) (gcmContext x) (sectorBlocks x.data)
    { x with data := blocksSector c, auth := leBytes 16 (gcmTag alg key x c).toNat }

/-- A sector's plaintext; none when its GCM tag fails (R411). -/
def decipher (mode : Nat) (key : BitVec 512) (x : MediaSector) : Option MediaSector :=
  let alg := modeAlg mode
  if modeKind mode = 0 then some { x with data := xtsData false alg key x.dla x.data }
  else
    let c := sectorBlocks x.data
    if BitVec.ofNat 128 (ofLe (padTo 16 x.auth)) = gcmTag alg key x c then
      some { x with data := blocksSector (ctrBlocks (blockEncrypt alg (keyPart alg 1 0 key)) (gcmContext x) c) }
    else none

/-! ### Wrapped keys (R385, R396) -/

/-- SM4 in CTR mode over 256 bits, the counter block incremented once. -/
def wrapCtr (key counter : BitVec 128) (v : Digest) : Digest :=
  v ^^^ (((Config.sm4Encrypt key counter).zeroExtend 256) ||| ((Config.sm4Encrypt key (counter + 1)).zeroExtend 256 <<< 128))

/-- The key KW and the key of its tags (R396). -/
def kwKey : BitVec 128 := BitVec.ofNat 128 (Config.kdf Config.wrapSeed "BZ8 WRAP" [] 128)
def kwMac : Digest := BitVec.ofNat 256 (Config.kdf Config.wrapSeed "BZ8 WRAP MAC" [] 256)

/-- A key record of an NMEK (R396). -/
def wrapNmek (nsid : Nat) (counter : BitVec 128) (key : Digest) : KeyRecord :=
  let c := wrapCtr kwKey counter key
  { nsid := nsid, counter := counter, wrapped := c, tag := Config.hmacSm3 kwMac (digestBytes c) }

/-- The NMEK of a namespace: unwrapped in SRAM, or from its key record when the tag agrees. -/
def State.nmek (s : State) (nsid : Nat) : Option Digest :=
  match kget nsid s.tir.unwrapped with
  | some k => some k
  | none => (s.tir.keyRecords.find? fun r => r.nsid == nsid).bind fun r =>
      if r.tag = Config.hmacSm3 kwMac (digestBytes r.wrapped) then some (wrapCtr kwKey r.counter r.wrapped) else none

/-- A sector carried from one generation to the next: its tags, and in a cipher namespace its key (R360, R396). -/
def State.carrySector (s : State) (x : MediaSector) (gen wcount : Nat) : Option MediaSector :=
  let mode := s.cipherMode x.nsid
  let y := { x with gen := gen, wcount := wcount }
  if mode = 0 then some y
  else
    let nmek := (s.nmek x.nsid).getD 0
    let key (g : Nat) : BitVec 512 := zoneKey nmek x.nsid (x.dla / zoneSectors) g (modeBits mode)
    (decipher mode (key x.gen) x).map fun p => encipher mode (key gen) { y with data := p.data, auth := [] }

/-- The GCM tag of a sector verifies under its zone's key, of a Key Per I/O namespace under one of the keys injected (R410, R411); in
any other mode there is none to verify. -/
def State.tagVerifies (s : State) (x : MediaSector) : Bool :=
  let mode := s.cipherMode x.nsid
  let z := x.dla / zoneSectors
  let keys : List (BitVec 512) :=
    if ((s.pattern.active.security.nsCipher.find? fun e => e.1 == x.nsid).map (·.2.2)).getD 0 != 0 then
      (s.tir.injected.filter fun k => k.1 == x.nsid).map fun k => kpioKey k.2.2 x.nsid k.2.1 z x.gen (modeBits mode)
    else ((s.nmek x.nsid).map fun k => zoneKey k x.nsid z x.gen (modeBits mode)).toList
  modeKind mode != 1 || keys.any fun k => (decipher mode k x).isSome

end Sys2Proof.Machine
end

