-- ==== Sys2Proof/Machine/Recovery.lean ====
section
/-!
DEFINITION. Sys2Proof/Machine/Recovery.lean: chapter 14: the recovery ladder (R346 to R353), the scrub (R356, R357), zone
rewrites (R359, R360) and the blocks of the Lifeline (R365).
-/

namespace Sys2Proof.Machine

/-! ### Ladder runs (R346, R347) -/

/-- DRN_STATUS.RUNS_A and RUNS_B follow the runs. -/
def State.runRegs (s : State) : State :=
  let n (a : Nat) : Nat := (s.darn.runs.filter fun r => r.act == a).length
  (s.setFld F.DRN_STATUS_RUNS_A (n 0)).setFld F.DRN_STATUS_RUNS_B (n 1)

/-- The state with a run changed. -/
def State.modRun (s : State) (id : Nat) (f : LadderRun → LadderRun) : State :=
  s.modDarn fun x => { x with runs := replaceIf (fun r => r.id == id) f x.runs }

/-- A read of a run. -/
def State.ladderRead (s : State) (r : LadderRun) (places : List Nat) (mode : ReadMode) (variant : Nat) : State :=
  if places.isEmpty then s
  else
    s.addOp
      { MediaOp.blank with
        act := r.act, kind := .recover, purpose := .ladder, urgent := r.urgent, dla := r.dla, psa := places.headD 0,
        count := places.length, places := places, dlas := places.map fun p => if p = r.psa then r.dla else
          ((s.onMedia p).map (·.dla)).getD 0, mode := mode, variant := variant, claim := r.claim,
        zoneGen := s.expectedGen r.dla, physGen := (s.zdesc ((s.zoneOfPsa r.psa).getD 0)).gen }

/-- The parity group of a place in a sequential zone: its shape and number. -/
def State.groupAt (s : State) (psa : Nat) : Option (ZoneShape × Nat) :=
  match (s.zoneOfPsa psa).bind s.zoneShape with
  | some sh => if sh.sequential then some (sh, ((psaTrack psa - sh.first) * sh.spt + psaSector psa) / 66) else none
  | none => none

/-- A parity sector of a generation stands at a place. -/
def State.parityAt (s : State) (gen p : Nat) : Bool :=
  match s.onMedia p with
  | some x => x.parity && x.gen == gen
  | none => false

/-- The group of a sector has its parity on the media (R347): not NOPARITY and not open. Until P and Q are written in the zone's
generation the group is open, whatever an older one left there. -/
def State.parityHeld (s : State) (psa dla : Nat) : Bool :=
  let gen := s.expectedGen dla
  match s.groupAt psa with
  | some (sh, g) =>
    s.parityAt gen (sh.parityPsa g 0) && s.parityAt gen (sh.parityPsa g 1) &&
      !(match s.entryAt dla with | some e => e.noParity | none => false)
  | none => false

/-- The places of a group but one, data first: an unwritten slot of a completed group counts as zero and is not read (R244). -/
def State.groupPlaces (s : State) (sh : ZoneShape) (gen g but : Nat) : List Nat :=
  ((((List.range 64).map fun k => sh.psa (64 * g + k)).filter (s.slotWritten gen)) ++ [sh.parityPsa g 0, sh.parityPsa g 1]).filter
    (· != but)

/-- The media reads with which a step begins (R347). -/
def State.stepReads (s : State) (r : LadderRun) : State :=
  let one (mode : ReadMode) (v : Nat) (s : State) : State := s.ladderRead r [r.psa] mode v
  match r.step with
  | 1 => if s.pinnedReads r.psa = 0 then one .single 0 s else s
  | 3 => if r.tagMismatch then one .single 1 s else one .single 3 (one .single 2 (one .single 1 s))
  | 4 => one .single 7 (one .single 6 (one .single 5 (one .single 4 s)))
  | 5 => (List.range (4 - min 4 (s.pinnedReads r.psa))).foldl (fun s _ => one .single 0 s) s
  | 6 => one .pair 0 (one .pair 0 s)
  | 7 =>
    match s.groupAt r.psa with
    | some (sh, g) =>
      let l := s.groupPlaces sh (s.expectedGen r.dla) g r.psa
      (s.ladderRead r (l.take 64) .single 0).ladderRead r (l.drop 64) .single 0
    | none => s
  | _ => s

/-- A step applies to a run (R347). -/
def State.stepApplies (s : State) (r : LadderRun) (k : Nat) : Bool :=
  if r.tagMismatch && k != 3 && k != 7 then false
  else if k = 6 then s.twoSlices r.act
  else if k = 7 then s.parityHeld r.psa r.dla
  else true

/-- The next step of a run behind step k; 8 when none applies. -/
def State.nextStep (s : State) (r : LadderRun) (k : Nat) : Nat :=
  ((List.range 8).find? fun j => k < j && s.stepApplies r j).getD 8

/-- Operations of a run that have not been issued go. -/
def State.dropLadderOps (s : State) (r : LadderRun) : State :=
  s.modFlow fun f => { f with ops := f.ops.filter fun o => !(o.purpose == .ladder && o.claim == r.claim && o.place != .issued) }

/-- Limited Retry of the read that an operation works for. -/
def State.limitedOp (s : State) (id : Nat) : Bool :=
  (((s.op id).bind fun o => o.slot).bind s.slot).elim false (·.limitedRetry)

/-- The first waiting sector of an actuator that may start or join: urgent ones first, then in arrival order; at most 16
runs of the engine and 2 of one slice (R346). -/
def State.startable (s : State) (a : Nat) : Option FailedSector :=
  let may (f : FailedSector) : Bool :=
    f.act == a &&
      (s.darn.runs.any (fun r => r.psa == f.psa) ||
        ((s.darn.runs.filter fun r => r.act == a).length < 16 &&
          (s.darn.runs.filter fun r => r.act == a && r.slice == f.slice).length < 2))
  (s.darn.failed.find? fun f => may f && f.urgent).or (s.darn.failed.find? may)

/-- A waiting sector leaves the list. -/
def State.dropFailed (s : State) (f : FailedSector) : State :=
  s.modDarn fun x => { x with failed := x.failed.filter fun g => !(g.op == f.op && g.index == f.index) }

/-- LADDER_RUN_START (R346, R350, R361): a waiting sector joins the run of its physical sector, or starts one under a
claim; with no claim free it goes on waiting. -/
def execLadderRunStart (a : Nat) (s : State) : Host.Outcome State Fault Refusal :=
  match s.startable a with
  | none => .next s
  | some f =>
    let join := if f.darning then [] else [(f.op, f.index, s.limitedOp f.op)]
    match s.darn.runs.find? fun r => r.psa == f.psa with
    | some r =>
      .next (((s.dropFailed f).modRun r.id fun r =>
        { r with joined := r.joined ++ join, darning := r.darning || f.darning, urgent := r.urgent || f.urgent }).doneWithClaim f.claim)
    | none =>
      let c := match f.claim with
        | some i => (some i, s)
        | none => s.darningClaim f.dla 1
      match c with
      | (none, _) => .next s
      | (some i, s) =>
        let r : LadderRun :=
          { id := s.darn.nextRun, act := a, psa := f.psa, dla := f.dla, step := 0, tagMismatch := f.code == 5, urgent := f.urgent,
            joined := join, darning := f.darning, slice := f.slice, claim := some i }
        let r := { r with step := s.nextStep r 0 }
        let s := ((s.modDarn fun x => { x with runs := x.runs ++ [r], nextRun := x.nextRun + 1 }).dropFailed f).runRegs
        .next (s.stepReads r)

/-! ### Outcomes (R348, R349, R352, R353) -/

/-- The sector as step 7 reconstructs it: the sum of P and the other data sectors of its group (R243). -/
def State.reconstruct (s : State) (psa gen : Nat) : Option MediaSector :=
  match s.groupAt psa with
  | none => none
  | some (sh, g) =>
    let cols := ((s.groupPlaces sh gen g psa).filter (· != sh.parityPsa g 1)).map (s.parityBytes gen)
    let b := (List.range 4160).map fun i => cols.foldl (fun (m : Byte) c => m ^^^ c.getD i 0) 0
    some { dla := leField b 4096 5, nsid := leField b 4101 1, wcount := leField b 4104 4, gen := leField b 4108 4,
           pi := cutBytes b 4112 16, auth := cutBytes b 4128 16, data := b.take 4096, parity := false }

/-- The sector that a run has recovered: its tag and generation match (R348), and under GCM its tag verifies (R411). -/
def State.recoveredSector (s : State) (r : LadderRun) : Option MediaSector :=
  let x := if r.step = 7 then s.reconstruct r.psa (s.expectedGen r.dla) else s.onMedia r.psa
  x.bind fun x =>
    if x.dla = r.dla ∧ x.gen = s.expectedGen r.dla ∧ x.nsid = ((s.nsOfDla r.dla).map (·.1.nsid)).getD 0 ∧ s.tagVerifies x then
      some x else none

/-- The end of a run: its slots are unpinned, its reads withdrawn, its claim closed when nothing else works under it. -/
def State.endRun (s : State) (r : LadderRun) : State :=
  let s := (List.range 5).foldl (fun s i => if (s.slice i).pinned.any (fun p => p.psa == r.psa) then s.unpin i fun p => p.psa == r.psa else s) s
  let s := (s.modDarn fun x => { x with runs := x.runs.filter fun q => q.id != r.id }).dropLadderOps r
  s.runRegs.doneWithClaim r.claim

/-- A joined read takes the sector that the run recovered. -/
def State.deliver (x : MediaSector) (s : State) (j : Nat × Nat × Bool) : State :=
  match s.op j.1 with
  | some o => s.sectorRead o j.2.1 x
  | none => s

/-- A joined read ends at the sector with Unrecovered Read Error, or with End-to-end Guard Check Error when a guard brought it
here and PRCHK selects the guard (R337). -/
def State.deliverLoss (s : State) (j : Nat × Nat × Bool) : State :=
  match s.op j.1 with
  | some o =>
    let s := match o.slot.bind s.slot with
      | some w =>
        let i := o.dlas.getD j.2.1 0 - w.dla
        s.failSector w.num i (if w.src.getD i 0 = 5 && Sqe.checksGuard w.sqe then Nvme.guardCheck else Nvme.unrecovered)
      | none => s
    s.settle o j.2.1
  | none => s

/-- A sector is placed at the head of the scrub queue (R349). -/
def State.scrubNext (s : State) (d : Nat) : State :=
  s.modDarn fun x => { x with priority := if x.priority.contains d then x.priority else x.priority ++ [d] }

/-- The run recovers its sector (R352). -/
def State.runRecovered (s : State) (r : LadderRun) (x : MediaSector) : State :=
  let s := s.count (F.DRN_STEP_RECOVERED r.step)
  let s := if r.step = 7 then s.count F.FMT_PARITY_RECON else s
  let s := r.joined.foldl (State.deliver x) s
  let s := if s.on F.DRN_CTRL_RELOC_EN && s.fld F.DRN_CTRL_RELOC_MIN_STEP ≤ r.step then
      s.relocateSector r.act r.dla x r.claim none false else s
  s.endRun r

/-- The run reaches step 8 (R353). -/
def State.runLost (s : State) (r : LadderRun) : State :=
  let s := s.loseRange r.dla 1 (if r.joined.isEmpty then 2 else 1) r.step r.claim
  let s := (s.count F.DRN_UNRECOVERED_COUNT).flag F.DRN_EV_UNRECOVERED
  (r.joined.foldl State.deliverLoss s).endRun r

/-- Behind step 3 the Limited Retry reads of a run end; one that served nobody else ends with them (R349, R350). -/
def State.endLimited (s : State) (r : LadderRun) : LadderRun × State × Bool :=
  let lim := r.joined.filter (·.2.2)
  let rest := r.joined.filter fun j => !j.2.2
  let s := lim.foldl State.deliverLoss s
  let ended := !lim.isEmpty && rest.isEmpty && !r.darning
  let r := { r with joined := rest }
  (r, (if ended then (s.scrubNext r.dla).endRun r else s.modRun r.id fun _ => r), ended)

/-- LADDER_STEP_DONE (R347, R348): the step recovers the sector, or the next one follows. -/
def execLadderStepDone (run : Nat) (recovered : Bool) (s : State) : Host.Outcome State Fault Refusal :=
  match s.darn.runs.find? fun r => r.id == run with
  | none => .next s
  | some r =>
    match (if recovered then s.recoveredSector r else none) with
    | some x => .next (s.runRecovered r x)
    | none =>
      let s := s.dropLadderOps r
      let e := if r.step = 3 then s.endLimited r else (r, s, false)
      if e.2.2 then .next e.2.1
      else
        let r := e.1
        let s := e.2.1
        let k := s.nextStep r r.step
        if k = 8 then .next (s.runLost r)
        else
          let r := { r with step := k }
          .next ((s.modRun r.id fun _ => r).stepReads r)

/-! ### Scrub (R356) -/

/-- Zones of an actuator as global numbers: first and count. -/
def State.actZoneRange (s : State) (a : Nat) : Nat × Nat := (if a = 0 then 0 else s.actZones 0, s.actZones a)

/-- The written data slots of a stretch of 64 in a zone that the map still points at: DLA and PSA. -/
def State.liveSlots (s : State) (sh : ZoneShape) (k : Nat) : List (Nat × Nat) :=
  (List.range 64).filterMap fun i =>
    let p := sh.psa (k + i)
    match s.onMedia p with
    | some x => if s.resolve x.dla = .at p then some (x.dla, p) else none
    | none => none

/-- A scrub read of a list of sectors under a claim over their DLAs. -/
def State.scrubRead (s : State) (a : Nat) (l : List (Nat × Nat)) (parity : List Nat) : State :=
  let first := l.foldl (fun m x => min m x.1) (l.headD (0, 0)).1
  let last := l.foldl (fun m x => max m x.1) 0
  match s.darningClaim first (last + 1 - first) with
  | (none, _) => s
  | (some c, s) =>
    let places := l.map (·.2) ++ parity
    (s.addOp
      { MediaOp.blank with
        act := a, kind := .background, purpose := .scrub, dla := first, psa := places.headD 0, count := places.length,
        places := places, dlas := l.map (·.1) ++ parity.map fun _ => first, claim := some c, zoneGen := s.expectedGen first,
        physGen := (s.zdesc ((s.zoneOfPsa (places.headD 0)).getD 0)).gen }).flag F.DRN_STATUS_SCRUB_BUSY

/-- The scrub of an actuator moves to its next zone; behind the last a pass is complete. -/
def State.nextScrubZone (s : State) (a z : Nat) : State :=
  let (first, n) := s.actZoneRange a
  let s := s.modDarn fun x => { x with scrubNext := putAt a 0 x.scrubNext }
  if z + 1 < first + n then s.setFld (F.DRN_SCRUB_POS_ZONE a) (z + 1)
  else
    let days := (s.optime - s.darn.passStart.getD a 0) / 86400000
    let s := (s.count (F.DRN_PASS_PASSES a)).setFld (F.DRN_PASS_DAYS a) (min days 65535)
    let s := if days ≤ s.fld F.DRN_SCRUB_PERIOD_DAYS then s.clr F.DRN_STATUS_BEHIND else s
    (s.setFld (F.DRN_SCRUB_POS_ZONE a) first).modDarn fun x => { x with passStart := putAt a s.optime x.passStart }

/-- A pass under way has passed PERIOD_DAYS. -/
def State.scrubBehind (s : State) (a : Nat) : State :=
  if !s.on F.DRN_STATUS_BEHIND && s.fld F.DRN_SCRUB_PERIOD_DAYS * 86400000 < s.optime - s.darn.passStart.getD a 0 then
    (s.flag F.DRN_STATUS_BEHIND).flag F.DRN_EV_BEHIND
  else s

/-- SCRUB_OPERATION (R349, R356): a sector of the priority list by itself, else the next stretch of the zone under scrub with
its parity. -/
def execScrubOperation (a : Nat) (s : State) : Host.Outcome State Fault Refusal :=
  let (first, n) := s.actZoneRange a
  if !s.on F.DRN_CTRL_SCRUB_EN || !s.hasAct a || s.on F.ORD_LEDGER_STATUS_WRITE_HOLD || s.fld (F.ACT_STATUS_LOAD_STATE a) != 2 ||
      n == 0 || s.flow.ops.any (fun o => o.act == a && o.purpose == .scrub) ||
      40 ≤ (s.flow.claims.filter fun c => c.owner == 6).length then .next s
  else
    let s := s.scrubBehind a
    let mine (d : Nat) : Bool := match s.resolve d with | .at p => psaAct p == a | _ => (s.zoneHome (d / zoneSectors)).1 == a
    match s.darn.priority.find? mine with
    | some d =>
      let s := s.modDarn fun x => { x with priority := x.priority.filter (· != d) }
      match s.resolve d with
      | .at p => .next (s.scrubRead a [(d, p)] [])
      | _ => .next s
    | none =>
      let z := max first (s.fld (F.DRN_SCRUB_POS_ZONE a))
      let k := s.darn.scrubNext.getD a 0
      let desc := s.zdesc z
      let stop := match s.zoneShape z with
        | some sh => if sh.sequential then min desc.wp (seqDataSlots sh.spt) else zoneSectors
        | none => 0
      if desc.state = .offline ∨ stop ≤ k then .next (s.nextScrubZone a z)
      else
        match s.zoneShape z with
        | none => .next (s.nextScrubZone a z)
        | some sh =>
          let l := s.liveSlots sh k
          let zone := (l.headD (0, 0)).1 / zoneSectors
          let l := l.takeWhile fun x => x.1 / zoneSectors == zone
          let parity := if sh.sequential && (s.onMedia (sh.parityPsa (k / 64) 0)).isSome then
              [sh.parityPsa (k / 64) 0, sh.parityPsa (k / 64) 1] else []
          let next := match l.getLast?.bind fun x => sh.slotAt x.2 with
            | some j => if l.length < (s.liveSlots sh k).length then j + 1 else k + 64
            | none => k + 64
          let s := s.modDarn fun x => { x with scrubNext := putAt a next x.scrubNext }
          .next (if l.isEmpty then s else s.scrubRead a l parity)

/-! ### Rewrites (R359, R360) -/

/-- DRN_DUE_POP (R359, R367): the head of the list goes. -/
def execDrnDuePop (s : State) : Host.Outcome State Fault Refusal := .next (s.modDarn fun x => { x with due := x.due.drop 1 }).dueRegs

/-- Sectors of the media cache of an actuator that are free. -/
def State.cacheRoom (s : State) (a : Nat) : Nat :=
  let zones := s.cacheZones a
  let last := (s.stitch.cacheLog.filter fun x => zones.contains x.1).getLast?
  zones.foldl (fun m z =>
    if !(s.stitch.cacheLog.any fun x => x.1 == z) then m + zoneSectors
    else if last.map (·.1) = some z then m + (zoneSectors - (s.zdesc z).wp) else m) 0

/-- The sectors of a zone that hold data. -/
def State.liveCount (s : State) (z : Nat) : Nat :=
  ((List.range (s.writtenRange z)).filter fun i => match s.resolve (z * zoneSectors + i) with | .at _ => true | _ => false).length

/-- A rewrite of the zone can start now: none runs, no WRITE_HOLD is in force (R314), the zone holds data, and the media cache has
room for it (R360). -/
def State.rewriteStarts (s : State) (z : Nat) : Bool :=
  let st := (s.zdesc z).state
  z < s.zoneTotal && s.darn.rewrite.isNone && !s.on F.ORD_LEDGER_STATUS_WRITE_HOLD && st != .empty && st != .offline && st != .readOnly && st != .rewrite &&
    s.liveCount z ≤ s.cacheRoom (s.zoneHome z).1

/-- Why a rewrite is refused; 0 it is not. -/
def State.rewriteRefusal (s : State) (z : Nat) : Nat :=
  let st := (s.zdesc z).state
  if s.zoneTotal ≤ z || !s.isSequential z then 1
  else if s.darn.rewrite.isSome then 2
  else if st == .empty || st == .offline || st == .readOnly then 3
  else if s.cacheRoom (s.zoneHome z).1 < s.liveCount z then 4
  else 0

/-- A rewrite starts: the snapshot, REWRITE, and the new generation (R360, step 1). A zone with no further generation goes OFFLINE
instead (R259, R291). -/
def State.startRewrite (s : State) (z : Nat) : State :=
  let d := s.zdesc z
  if d.gen = 0xFFFFFFFF then (s.walker (.genBump z)).zoneNotice z
  else
    let old := s.entries.filter fun e => e.lstart / zoneSectors == z && !s.stale e
    let s := s.modStitch fun x => { x with snapshots := x.snapshots ++ [(z, d.gen, old, d.state)] }
    let s := s.modDarn fun x => { x with rewrite := some { zone := z, gen := d.gen, step := 2, formerState := d.state } }
    let s := ((s.setFld F.DRN_REWRITE_STATUS_ZONE z).flag F.DRN_REWRITE_STATUS_BUSY).clr F.DRN_REWRITE_STATUS_ERR
    let s := s.clr F.DRN_REWRITE_STATUS_PCT
    (s.walker (.desc z d.wp .rewrite d.restitchUsed)).walker (.genBump z)

/-- DRN_REWRITE_GO (R360): under WRITE_HOLD no new rewrite starts (R314), and an accepted one waits for its end. -/
def execDrnRewriteGo (z : Nat) (s : State) : Host.Outcome State Fault Refusal :=
  let s := s.setFld F.DRN_REWRITE_ZONE z
  let z := s.fld F.DRN_REWRITE_ZONE
  let code := s.rewriteRefusal z
  if code = 0 then
    .next (if s.on F.ORD_LEDGER_STATUS_WRITE_HOLD then s.modDarn fun x => { x with required := x.required.filter (· != z) ++ [z] }
      else s.startRewrite z)
  else .next (s.setFld F.DRN_REWRITE_STATUS_ERR code)

/-- A write that a rewrite has held is carried under the zone's new generation: its counter is drawn anew and its sectors in
the zone are written from the start. -/
def State.reacceptWrite (s : State) (z n : Nat) : State :=
  match s.slot n with
  | none => s
  | some x =>
    let d := s.zdesc z
    let s := s.setZdesc z { d with wcount := d.wcount + 1 }
    let mine (o : MediaOp) : Bool := o.slot == some n && o.kind == .write && o.dla / zoneSectors == z
    let gone := (s.flow.ops.filter mine).map (·.id)
    let s := s.modFlow fun w => { w with ops := w.ops.filter fun o => !mine o }
    let s := s.modCip fun c => { c with queue := c.queue.filter fun w => !(w.encrypt && gone.contains w.op) }
    let first := max x.dla (z * zoneSectors) - x.dla
    let last := min (x.dla + max x.data.length x.done) ((z + 1) * zoneSectors) - x.dla
    let own := z = x.dla / zoneSectors
    let y := { x with
      ops := x.ops - gone.length, zoneGen := if own then d.gen else x.zoneGen, wcount := if own then d.wcount + 1 else x.wcount,
      zoneGen2 := if own then x.zoneGen2 else d.gen, wcount2 := if own then x.wcount2 else d.wcount + 1,
      verified := x.verified.zipIdx.map fun v => v.1 && !(max first x.done ≤ v.2 && v.2 < last) }
    let s := s.modSlot n fun _ => y
    s.addWrites y (max first x.done) last

/-- The writes that a rewrite of a zone has held go on, in the order of their epochs. -/
def State.reaccept (s : State) (z : Nat) : State :=
  let s := s.modFlow fun f => { f with wpos := f.wpos.filter fun e => e.1 != z }
  (s.flow.slots.filter fun x => x.liveWrite && x.stage == .media || x.liveWrite && x.stage == .doneEarly).foldl
    (fun s x => if x.verified.isEmpty || (x.dla + x.lbas ≤ z * zoneSectors || (z + 1) * zoneSectors ≤ x.dla) then s else s.reacceptWrite z x.num) s

/-- The rewrite is over: snapshot and status go, and one that WCOUNT requires follows (R359). -/
def State.endRewrite (s : State) (z : Nat) : State :=
  let s := s.reaccept z
  let s := (s.modStitch fun x => { x with snapshots := x.snapshots.filter fun y => y.1 != z }).modDarn fun x => { x with rewrite := none }
  let s := s.clr F.DRN_REWRITE_STATUS_BUSY
  match s.darn.required with
  | [] => s
  | q :: rest =>
    let s := s.modDarn fun x => { x with required := rest }
    if s.rewriteStarts q then s.startRewrite q else s.modDarn fun x => { x with required := q :: rest }

/-- A Reset of the zone abandons its rewrite (R290, R360). -/
def State.abandonRewrite (s : State) (z : Nat) : State :=
  match s.darn.rewrite with
  | some r => if r.zone = z then s.endRewrite z else s
  | none => s

/-- Rewrites that R259 requires start on their own, of a conventional zone as of a sequential one, after any rewrite in progress and
once the media cache has room (R359). -/
def State.requireRewrite (s : State) (z : Nat) : State :=
  if s.rewriteStarts z then (s.modDarn fun x => { x with required := x.required.filter (· != z) }).startRewrite z
  else if (s.darn.rewrite.map (·.zone)) == some z || s.darn.required.contains z then s
  else s.modDarn fun x => { x with required := x.required ++ [z] }

/-- A rewrite that waits for room in the media cache starts when there is some. -/
def State.retryRequired (s : State) : State :=
  match s.darn.required with
  | [] => s
  | z :: rest => if s.rewriteStarts z then (s.modDarn fun x => { x with required := rest }).startRewrite z else s

/-- WRITE_HOLD_RELEASE (R315): at the boundary after the passing check. A rewrite that waited for it starts. -/
def execWriteHoldRelease (s : State) : Host.Outcome State Fault Refusal :=
  if s.flow.leaveHold && !s.flow.checked then .next s.leaveWriteHold.retryRequired else .next s

/-- One sector of a zone under rewrite is carried home, a place of a spaced zone that nothing was written to left as it is: data under the new generation, UNWRITTEN and UNREADABLE by FLAGS. A
sector that cannot be read is carried as UNREADABLE. Its content is taken from the media as it stood before the zone was
written again. -/
def State.carryHome (sh : ZoneShape) (z old gen : Nat) (before : List (Nat × MediaSector)) (s : State) (i : Nat) : State :=
  let d := z * zoneSectors + i
  let flags (m : Nat) (s : State) : State := s.walker (.flags d 1 m 0 gen none)
  if (s.entryAt d).isSome then s
  else
    match s.resolve d with
    | .unwritten => flags 2 s
    | .unreadable => flags 4 s
    | .at p =>
      if !sh.sequential && (kget p before).isNone then s
      else match (kget p before).bind fun x => if x.dla = d ∧ x.gen = old then s.carrySector x gen (s.zdesc z).wcount else none with
      | some y => s.writeMedia (sh.psa i) y
      | none => s.loseRange d 1 2 8 none

/-- The parity of the full groups of a rewritten zone. -/
def State.rewriteParity (sh : ZoneShape) (s : State) (g : Nat) : State :=
  let pq := s.groupParity sh g
  let gen := ((s.zoneOfPsa (sh.psa 0)).map fun z => (s.zdesc z).gen).getD 0
  let x (d : List Byte) : MediaSector := { dla := 0, nsid := 0, wcount := 0, gen := gen, pi := [], auth := [], data := d, parity := true }
  (s.writeMedia (sh.parityPsa g 0) (x pq.1)).writeMedia (sh.parityPsa g 1) (x pq.2)

/-- REWRITE_DONE (R360, steps 2 to 4): every live sector stands in its own zone again under the new generation. -/
def execRewriteDone (s : State) : Host.Outcome State Fault Refusal :=
  match s.darn.rewrite with
  | none => .next s
  | some r =>
    match s.zoneShape r.zone with
    | none => .next (s.endRewrite r.zone)
    | some sh =>
      let n := s.writtenRange r.zone
      let gen := (s.zdesc r.zone).gen
      let moved := (List.range n).foldl (State.carryHome sh r.zone r.gen gen s.stitch.media) s
      let full := r.formerState == .full
      let s := if sh.sequential then
          ((List.range (n / 64 + if full && n % 64 ≠ 0 then 1 else 0)).foldl (State.rewriteParity sh) moved).walker
            (.desc r.zone n (if full then .full else .closed) 0)
        else moved.walker (.desc r.zone (s.zdesc r.zone).wp r.formerState 0)
      let s := (s.endRewrite r.zone).flag F.DRN_REWRITE_STATUS_DONE
      .next ((s.flag F.DRN_EV_REWRITE_DONE).zoneNotice r.zone)

/-- CACHE_ZONE_CLEAN (R247, R259): the live records move, and the zone begins a new generation. A zone in which a write
that is not media-complete still overlaps a live record waits, and so does one whose sectors find no room. A required rewrite that waited
for room in the cache starts (R359). -/
def execCacheZoneClean (a : Nat) (s : State) : Host.Outcome State Fault Refusal :=
  match s.oldestCache a with
  | none => .next s
  | some (z, records) =>
    let live := s.liveIn records
    if !s.on F.STM_STATUS_READY || live.any (fun x => !(s.writesOver (x.2.1 + x.2.2) 1).isEmpty) then .next s
    else
      let s' := live.foldl (fun s x => s.moveSector a x.1 x.2.1 x.2.2) s
      if !(s'.liveIn records).isEmpty || s.logZone a 1 == some z then .next s
      else
        let s := s'.walker (.genBump z)
        let s := (s.walker (.desc z 0 .cache 0)).modStitch fun x => { x with cacheLog := x.cacheLog.filter fun y => y.1 != z }
        .next s.retryRequired

/-! ### The Lifeline (R365) -/

/-- Spare blocks left. -/
def State.sparesLeft (s : State) : Nat := Config.sparePool - s.darn.blocksRetired

/-- The save area is short: below 600 MiB of its 1 GiB (R343). -/
def State.saveCapacity (s : State) : State :=
  let s := s.setFld F.ORD_DUR_STATUS_SAVE_MIB ((4096 - s.darn.saveBlocksLost) / 4)
  if 4096 - s.darn.saveBlocksLost < 2400 then
    ((((s.flag F.ORD_DUR_STATUS_SAVE_SHORT).flag F.ORD_OVL_EV_SAVE_SHORT).smartSet 4)).postVendor 3
  else s

/-- A firmware slot is lost: it is invalid, and its image is gone (R365). -/
def State.loseFirmwareSlot (s : State) (component slot : Nat) : State :=
  let bad (e : SlotEntry) : SlotEntry := if e.component = component ∧ e.slot = slot then { e with valid := false } else e
  (s.modUpd fun u => { u with images := u.images.filter fun i => !(i.1 == component && i.2.1 == slot) }).putRecord fun r =>
    { r with current := r.current.map bad, fallback := r.fallback.map bad, stagedSet := r.stagedSet.map bad }

/-- A piece of the staging area is lost: its bit clears and it is downloaded again (R365). -/
def State.losePiece (s : State) (piece : Nat) : State :=
  let s := s.modUpd fun u => { u with session := u.session.map fun x => { x with units := kdel piece x.units } }
  let kept := (s.upd.session.map fun x => x.units.length).getD 0
  let s := if s.fld F.UPD_STATUS_SESSION = 2 && kept < s.fld F.UPD_TOTAL_TOTAL then s.setFld F.UPD_STATUS_SESSION 1 else s
  s.setFld F.UPD_PIECES_KEPT kept

/-- LIFELINE_BLOCK_FAIL (R365, R343): a block is retired and replaced from the spare pool, its content rebuilt as its part
requires; with the pool empty its area shrinks. -/
def execLifelineBlockFail (part : LifelinePart) (s : State) : Host.Outcome State Fault Refusal :=
  let empty := s.sparesLeft == 0
  let s := s.modDarn fun x => { x with blocksRetired := x.blocksRetired + 1 }
  let s := match part with
    | .settings => s
    | .mapCheckpoint => s
    | .firmwareSlot c slot => s.loseFirmwareSlot c slot
    | .staging piece => s.losePiece piece
    | .saveArea => if empty then s.modDarn fun x => { x with saveBlocksLost := x.saveBlocksLost + 1 } else s
    | .recorderArea first => s.modRec fun u => { u with fallback := u.fallback.filter fun e => !(first ≤ e.index && e.index < first + 4096) }
  let s := s.saveCapacity.postVendor 3
  let low := 10 * s.sparesLeft ≤ Config.sparePool
  .next (if low then (s.modHost fun h => { h with smart := h.smart ||| 1 }).postAsync 1 2 fun _ => true else s)

end Sys2Proof.Machine
end

