-- ==== Sys2Proof/Machine/Fetch.lean ====
section
/-!
DEFINITION. Sys2Proof/Machine/Fetch.lean: doorbells and fetch rounds (R278, R280, R299, R300): the pools of slots, the
arbitration of a controller's submission queues, and the slot that a fetched entry takes (R297, R320).
-/

namespace Sys2Proof.Machine

/-! ### Doorbells -/

/-- n entries of a list of submission entries; what the list does not give is an entry of zeros. -/
def takeEntries (n : Nat) (l : List Sqe) : List Sqe :=
  (l ++ List.replicate (n - l.length)
    ({ opcode := 0, cid := 0, nsid := 0, cdw10 := 0, cdw11 := 0, cdw12 := 0, cdw13 := 0, cdw14 := 0, cdw15 := 0 } : Sqe)).take n

/-- The queue belongs to the controller. -/
def State.ownsQueue (s : State) (c q : Nat) (head : Bool) : Bool :=
  match s.entryOf c with
  | some e => q < (if head then e.cqMax else e.sqMax)
  | none => false

/-- DOORBELL_WRITE (R300): a submission tail brings the entries in between; a completion head frees entries of its queue. -/
def execDoorbellWrite (c q : Nat) (head : Bool) (value : Nat) (entries : List Sqe) (s : State) :
    Host.Outcome State Fault Refusal :=
  let s := s.tlpPass (c / 16) true
  let r := if head then s.cqRing c q else s.sqRing c q
  match s.controller c, s.ring r with
  | some ctl, some x =>
    if !ctl.enabled || !s.ownsQueue c q head || x.size ≤ value then .next s
    else if head then .next (s.modRing r fun y => { y with head := value })
    else
      let n := (value + x.size - x.tail) % x.size
      .next (s.modRing r fun y => { y with tail := value, entries := y.entries ++ takeEntries n entries })
  | _, _ => .next s

/-! ### Pools (R299) -/

/-- Bits set in a mask of 32. -/
def popcount (n : Nat) : Nat := ((List.range 32).filter fun i => n.testBit i).length

/-- Held slots that satisfy a test. -/
def State.slotsThat (s : State) (p : Slot → Bool) : Nat := (s.flow.slots.filter p).length

/-- The first pool with a free slot for an entry of a controller: shared, reserve, urgent. -/
def State.poolFor (s : State) (c : Nat) (urgent : Bool) : Option Pool :=
  let reserve := s.fld F.SCH_SLOT_CFG_CTRL_RESERVE
  let forUrgent := s.fld F.SCH_SLOT_CFG_URGENT_POOL
  let shared := 32768 - popcount s.allControllers * reserve - forUrgent
  let exist (x : Slot) : Bool := s.on (F.HIF_CTRL_EXIST_EXIST.at x.skein)
  if s.avail Class.slotFree = 0 then none
  else if s.slotsThat (fun x => x.pool == .shared || (x.pool == .reserve && !exist x)) < shared then some .shared
  else if s.slotsThat (fun x => x.pool == .reserve && x.skein == c) < reserve then some .reserve
  else if urgent && s.slotsThat (fun x => x.pool == .urgent) < forUrgent then some .urgent
  else none

/-- The lowest slot number that is free. -/
def State.freeNumber (s : State) : Nat :=
  ((List.range (s.flow.slots.length + 1)).find? fun n => !s.flow.slots.any fun x => x.num == n).getD 0

/-! ### Fetching one entry (R297, R320) -/

/-- URGENT_EN of a controller. -/
def State.urgentEn (s : State) (c : Nat) : Bool :=
  match s.pattern.active.host.urgent.find? fun e => e.1 == c with | some e => e.2 != 0 | none => false

/-- The next epoch. -/
def State.nextEpoch (s : State) : Nat := s.wide F.ORD_OVL_EPOCH_LO_EPOCH_LO F.ORD_OVL_EPOCH_HI_EPOCH_HI

/-- A command is a write for the tracker: Dataset Management only with Deallocate. -/
def isWriteCommand (q : Sqe) : Bool := writeOpcode q.opcode && (q.opcode != Op.dsm || q.cdw11.testBit 2)

/-- The DLA ranges of a command as the tracker holds them from the fetch on: Dataset Management its whole namespace until
its ranges are known, a Zone Append none until it is placed. -/
def State.fetchRanges (s : State) (q : Sqe) : List (Nat × Nat) :=
  match s.namespaceOf q.nsid with
  | none => []
  | some n =>
    if q.opcode = Op.dsm then [(n.firstZone * zoneSectors, n.lbas)]
    else if q.opcode = Op.append then []
    else if writeOpcode q.opcode || readOpcode q.opcode then [(n.dla (Sqe.slba q), Sqe.nlb q)]
    else []

/-- Cut-through serves the namespace's authenticated sectors: feature 0xC1, by default as READ_PATH says (R275). -/
def State.cutThrough (s : State) (nsid : Nat) : Bool :=
  3 ≤ s.cipherMode nsid && kgetD nsid s.host.readPath (if s.pattern.active.security.readPath = 2 then 1 else 0) == 1

/-- The slot of an entry just fetched. -/
def State.newSlot (s : State) (c r num : Nat) (q : Sqe) (pool : Pool) (urgent io : Bool) : Slot :=
  let rw := io && (isWriteCommand q || readOpcode q.opcode)
  { num := num, sqe := q, seq := s.flow.nextSeq, ring := r, skein := c, stage := .fetched, pool := pool, urgent := urgent,
    fua := rw && Sqe.fua q, limitedRetry := rw && Sqe.limitedRetry q, atomicStaged := false, writeHeld := false, ops := 0,
    dla := match s.namespaceOf q.nsid with | some n => n.dla (Sqe.slba q) | none => 0,
    lbas := if rw && q.opcode != Op.dsm then Sqe.nlb q else 0, pages := 0, status := 0, fetchRow := s.rowCount,
    epoch := if io then s.nextEpoch else 0, isWrite := io && isWriteCommand q, isRead := io && readOpcode q.opcode,
    visible := false, mediaComplete := false, readPoint := false, completed := false, orphan := false,
    sideband := false, data := [], pi := [],
    verified := [], verifyFails := [], zoneGen := 0, wcount := 0, zoneGen2 := 0, wcount2 := 0, done := 0, shown := 0,
    piece := 0, zones := [], got := [], sent := [], unproven := [], cut := io && q.opcode == Op.read && s.cutThrough q.nsid, result := 0,
    ranges := if io then s.fetchRanges q else [], early := false, src := [], placed := [] }

/-- Fetch the oldest entry of a submission ring into a slot; none when the ring is empty or no slot is usable. -/
def State.fetchFrom (s : State) (c r : Nat) : Option State :=
  match s.ring r with
  | none => none
  | some x =>
    match x.entries with
    | [] => none
    | q :: _ =>
      let io := r != s.sqRing c 0
      let urgent := io && x.qprio == 0 && s.urgentEn c
      match s.poolFor c urgent with
      | none => none
      | some pool =>
        let y := s.newSlot c r s.freeNumber q pool urgent io
        let s := s.modRing r fun z => { z with entries := z.entries.tail, head := (z.head + 1) % z.size }
        let s := s.modFlow fun f => { f with slots := f.slots ++ [y], nextSeq := f.nextSeq + 1 }
        let s := if io then s.setWide F.ORD_OVL_EPOCH_LO_EPOCH_LO F.ORD_OVL_EPOCH_HI_EPOCH_HI (y.epoch + 1) else s
        some (s.transfer Class.slotFree Class.slotHeld 1)

/-! ### Arbitration (R278) -/

/-- The least number of a list. -/
def leastOf (l : List Nat) : Option Nat := l.foldl (fun m x => match m with | some y => some (min x y) | none => some x) none

/-- The next number of a list behind k, in round-robin order. -/
def nextAfter (k : Nat) (l : List Nat) : Option Nat := (leastOf (l.filter fun x => k < x)).or (leastOf l)

/-- Weights HIGH, MEDIUM, LOW of the Pattern, with the burst of RAB (R48, R268). -/
def State.defaultWeights (s : State) (c : Nat) : Nat × Nat × Nat × Nat :=
  match s.pattern.active.host.arbitration.find? fun e => e.1 == c with
  | some e => (e.2.1, e.2.2.1, e.2.2.2, 8)
  | none => (1, 1, 1, 8)

/-- The weights and the burst in force: the host's, else those of the Pattern (R278). -/
def State.weightsOf (s : State) (c : Nat) : Nat × Nat × Nat × Nat :=
  match (s.controller c).bind (·.weights) with
  | some w => w
  | none => s.defaultWeights c

/-- The arbitration class of an I/O submission ring: 0 urgent, 1 high, 2 medium, 3 low. -/
def State.ringClass (s : State) (c : Nat) (x : Ring) : Nat := if x.qprio = 0 then (if s.urgentEn c then 0 else 1) else x.qprio

/-- I/O submission rings of a controller with entries, of a class. -/
def State.readyRings (s : State) (c cls : Nat) : List Nat :=
  (s.host.rings.filter fun x =>
    s.sqRing c 0 < x.num && x.num < s.sqRing c 0 + ((s.entryOf c).map (·.sqMax)).getD 0 && !x.entries.isEmpty &&
      s.ringClass c x == cls).map (·.num)

/-- Credits of a class. -/
def creditOf (k : Nat) (w : Nat × Nat × Nat) : Nat := match k with | 1 => w.1 | 2 => w.2.1 | _ => w.2.2

/-- Credits with one of a class spent. -/
def spendCredit (k : Nat) (w : Nat × Nat × Nat) : Nat × Nat × Nat :=
  match k with | 1 => (w.1 - 1, w.2) | 2 => (w.1, w.2.1 - 1, w.2.2) | _ => (w.1, w.2.1, w.2.2 - 1)

/-- The ring that the controller's arbitration serves next: the admin queue, urgent queues, then the weighted classes, whose
credits are renewed when every class with entries has used its own. -/
def State.pickRing (s : State) (c : Nat) : Option (Nat × State) :=
  match s.controller c with
  | none => none
  | some ctl =>
    if (match s.ring (s.sqRing c 0) with | some x => !x.entries.isEmpty | none => false) then some (s.sqRing c 0, s)
    else
      match nextAfter ctl.lastQueue (s.readyRings c 0) with
      | some r => some (r, s.modController c fun x => { x with lastQueue := r })
      | none =>
        let ready := [1, 2, 3].filter fun k => !(s.readyRings c k).isEmpty
        let w := s.weightsOf c
        let credits := if ready.all fun k => creditOf k ctl.credits == 0 then (w.1, w.2.1, w.2.2.1) else ctl.credits
        match ready.find? fun k => creditOf k credits != 0 with
        | none => none
        | some k =>
          (nextAfter ctl.lastQueue (s.readyRings c k)).map fun r =>
            (r, s.modController c fun x => { x with lastQueue := r, credits := spendCredit k credits })

/-- A turn of up to n entries; it ends when nothing is left or an entry finds no slot. -/
def State.turn (c : Nat) : Nat → State → State
  | 0, s => s
  | n + 1, s =>
    match s.pickRing c with
    | none => s
    | some (r, s') =>
      match s'.fetchFrom c r with
      | some s'' => State.turn c n s''
      | none => s

/-! ### Rounds (R300) -/

/-- The Skeins that a front pair fetches for now. -/
def State.fetchSkeins (s : State) (p : Nat) : List Nat :=
  ((s.pattern.active.host.controllers.filter fun e => e.frontPair == p).map fun e => 16 * e.port + e.function).filter fun c =>
    match s.controller c with
    | some x => x.enabled && s.rdy c && !x.paused && !s.on (F.QUE_FETCH_HOLD_HOLD.at c)
    | none => false

/-- Skeins in round-robin order behind k. -/
def rotateFrom (k : Nat) (l : List Nat) : List Nat := (l.filter fun c => k < c) ++ l.filter fun c => c ≤ k

/-- The round-robin positions of a pair: of step 1 under 2p, of step 2 under 2p + 1. -/
def State.rrAt (s : State) (k : Nat) : Nat := kgetD k s.host.roundRobin 31

/-- Set a round-robin position. -/
def State.setRr (s : State) (k c : Nat) : State := s.modHost fun h => { h with roundRobin := kput k c h.roundRobin }

/-- Step 1: one entry of a Skein with a non-empty urgent queue. -/
def State.urgentOne (s : State) (p c : Nat) : State :=
  let last := ((s.controller c).map (·.lastQueue)).getD 0
  match nextAfter last (s.readyRings c 0) with
  | none => s
  | some r =>
    match s.fetchFrom c r with
    | some s' => (s'.modController c fun x => { x with lastQueue := r }).setRr (2 * p) c
    | none => s

/-- The Skein has something to fetch. -/
def State.skeinReady (s : State) (c : Nat) : Bool := (s.pickRing c).isSome

/-- FETCH_ROUND (R300): steps 1 and 2 of one round of a front pair. -/
def execFetchRound (p : Nat) (s : State) : Host.Outcome State Fault Refusal :=
  if 2 < p || !s.pairServed p || s.handoverHolds p || s.keeper.bindOff || s.keeper.inReset then .next s
  else
    let s := (rotateFrom (s.rrAt (2 * p)) (s.fetchSkeins p)).foldl (fun s c => s.urgentOne p c) s
    match (rotateFrom (s.rrAt (2 * p + 1)) (s.fetchSkeins p)).find? s.skeinReady with
    | none => .next s
    | some c => .next ((State.turn c (s.weightsOf c).2.2.2 s).setRr (2 * p + 1) c)

end Sys2Proof.Machine
end

