-- ==== Sys2Proof/Machine/Writes.lean ====
section
/-!
DEFINITION. Sys2Proof/Machine/Writes.lean: the path of a write (R301, R302, R318 to R321, R326, R331 to R336): acceptance,
admission into host-in pages, protection information, visibility, early completion and media completion, and the commands
that write no sector. The row of a command acts on a slot that FETCH_ROUND has filled.
-/

namespace Sys2Proof.Machine

/-! ### Checks common to I/O commands (R267, R270, R288) -/

/-- The LBA format of a namespace. -/
def State.lbaf (s : State) (nsid : Nat) : Nat := kgetD nsid s.host.lbaFormat 0

/-- The first status that refuses an I/O command, 0 for none: `types` the namespace types that support it, `most` the LBAs
it may name, `ranged` whether it names a range at all. -/
def State.ioStatus (s : State) (x : Slot) (types : List Nat) (ranged : Bool) (most : Nat) : Nat :=
  match s.namespaceOf x.sqe.nsid with
  | none => Nvme.invalidNamespace
  | some n =>
    let css := ((s.controller x.skein).map (·.css)).getD 0
    if !n.controllers.testBit x.skein || (n.type == 1 && css != 6) then Nvme.invalidField
    else if s.host.sanitize.isSome then Nvme.sanitizeInProgress
    else if !types.contains n.type then Nvme.invalidOpcode
    else if s.host.formatting.any fun f => f.1 == n.nsid then Nvme.formatInProgress
    else if !s.on F.STM_STATUS_READY || s.keeper.restoring then Nvme.notReady
    else if ranged && most < Sqe.nlb x.sqe then Nvme.invalidField
    else if ranged && n.capacity < Sqe.slba x.sqe + Sqe.nlb x.sqe then Nvme.lbaRange
    else 0

/-- The command is as fetched, or held under WRITE_HOLD without being a write that waits for admission (R314). -/
def Slot.fresh (x : Slot) : Bool := x.stage == .fetched || (x.stage == .admitWait && !x.isWrite)

/-- WRITE_HOLD holds a command in ADMIT_WAIT, FLAGS bit 5 set (R314). -/
def State.holdCommand (s : State) (n : Nat) : State := s.modSlot n fun y => { y with stage := .admitWait, writeHeld := true }

/-- The slot holds an I/O command of an opcode, as fetched. -/
def State.freshIo (s : State) (n op : Nat) : Option Slot :=
  (s.slot n).bind fun x => if x.fresh && s.isIo x && x.sqe.opcode == op then some x else none

/-- An error status completes a command and enters the Error Information page. -/
def State.failCommand (s : State) (x : Slot) (status : Nat) : State :=
  (s.logError x.skein status (Sqe.slba x.sqe)).completeSlot x.num status 0

/-! ### Zone states (R289, R290) -/

/-- The zones of a namespace. -/
def NamespaceEntry.zones (n : NamespaceEntry) : List Nat := (List.range n.zoneCount).map (n.firstZone + ·)

/-- A zone is open. -/
def State.zoneOpen (s : State) (z : Nat) : Bool := (s.zdesc z).state == .implicitOpen || (s.zdesc z).state == .explicitOpen

/-- A zone is active: open or closed. -/
def State.zoneActive (s : State) (z : Nat) : Bool := s.zoneOpen z || (s.zdesc z).state == .closed

/-- The state of a zone changes, through the walker. -/
def State.putZoneState (s : State) (z : Nat) (st : ZoneState) : State :=
  let d := s.zdesc z
  (s.walker (.desc z d.wp st d.restitchUsed)).modFlow fun f => { f with openOrder := f.openOrder.filter (· != z) }

/-- Close: to Closed, or to Empty with the write pointer at the zone start. -/
def State.closeZone (s : State) (z : Nat) : State := s.putZoneState z (if (s.zdesc z).hostWp = 0 then .empty else .closed)

/-- MOR and MAR: 256 open and 256 active zones per namespace. -/
def zoneLimit : Nat := 256

/-- Room for one more open zone, and one more active zone if it is empty: a status, and the state with the implicitly opened
zone that was written least recently closed where that makes the room (R290). -/
def State.makeOpenRoom (s : State) (n : NamespaceEntry) (z : Nat) (mayClose : Bool) : Nat × State :=
  if s.zoneOpen z then (0, s)
  else if (s.zdesc z).state == .empty && zoneLimit ≤ (n.zones.filter s.zoneActive).length then (Nvme.tooManyActive, s)
  else if (n.zones.filter s.zoneOpen).length < zoneLimit then (0, s)
  else if !mayClose then (Nvme.tooManyOpen, s)
  else
    match s.flow.openOrder.find? fun y => n.zones.contains y && (s.zdesc y).state == .implicitOpen with
    | some y => (0, s.closeZone y)
    | none => (Nvme.tooManyOpen, s)

/-- A write reaches a zone: it is implicitly open, and now the most recently written. -/
def State.openForWrite (s : State) (z : Nat) : State :=
  let s := if s.zoneOpen z then s else s.putZoneState z .implicitOpen
  s.modFlow fun f => { f with openOrder := (f.openOrder.filter (· != z)) ++ [z] }

/-! ### Acceptance (R235, R331, R332) -/

/-- An older command of the zone has been fetched and not yet been carried out: a write, or a zone action. -/
def State.olderInZone (s : State) (x : Slot) (z : Nat) : Bool :=
  s.flow.slots.any fun y =>
    y.epoch < x.epoch && y.stage == .fetched && s.isIo y && y.sqe.nsid == x.sqe.nsid &&
      ((isWriteCommand y.sqe && y.dla / zoneSectors == z) ||
        (y.sqe.opcode == Op.zoneSend && (y.dla / zoneSectors == z || y.sqe.cdw13.testBit 8)))

/-- The outcome of the check of R331, 0 for an acceptance. -/
def State.acceptStatus (s : State) (x : Slot) : Nat :=
  let z := x.zone
  let st := (s.zdesc z).state
  if st == .full then Nvme.zoneFull
  else if st == .readOnly then Nvme.zoneReadOnly
  else if st == .offline then Nvme.zoneOffline
  else if x.dla % zoneSectors != (s.acceptOf z).1 then Nvme.zoneInvalidWrite
  else if zoneSectors < x.dla % zoneSectors + x.lbas then Nvme.zoneBoundary
  else 0

/-- The zones that a write's ranges touch. -/
def Slot.writeZones (x : Slot) : List Nat :=
  (x.ranges.flatMap fun r => if r.2 = 0 then [] else [r.1 / zoneSectors, (r.1 + r.2 - 1) / zoneSectors]).eraseDups

/-- A zone's WCOUNT counts an accepted write (R235). -/
def State.countWrite (s : State) (z : Nat) : State := s.setZdesc z { s.zdesc z with wcount := (s.zdesc z).wcount + 1 }

/-- The write is accepted: it carries the generations and counters of its zones and waits for admission. -/
def State.acceptSlot (s : State) (x : Slot) (sectors : Bool) : State :=
  let zones := if x.sqe.opcode = Op.append then [x.zone] else x.writeZones
  let s := zones.foldl State.countWrite s
  let a := s.zdesc x.zone
  let b := s.zdesc (x.zone + 1)
  let n := if sectors then x.lbas else 0
  s.modSlot x.num fun y =>
    { y with stage := .admitWait, writeHeld := s.on F.ORD_LEDGER_STATUS_WRITE_HOLD, zoneGen := a.gen, wcount := a.wcount,
             zoneGen2 := b.gen, wcount2 := b.wcount, verified := List.replicate n false, verifyFails := List.replicate n 0,
             placed := List.replicate n 0 }

/-- WCOUNT of one of the write's zones would pass its end: the zone is rewritten first (R259). -/
def State.countersSpent (s : State) (x : Slot) : Option Nat :=
  (if x.sqe.opcode = Op.append then [x.zone] else x.writeZones).find? fun z => (s.zdesc z).wcount == 0xFFFFFFFF

/-- New writes are not admitted at all (R101, R314). -/
def State.writesHeld (s : State) : Bool := s.on F.ORD_LEDGER_STATUS_WRITE_HOLD || s.on F.KEEP_STATUS_ENERGY_HOLD

/-! ### Visibility (R318, R321, R329, R354) -/

/-- Sectors of open claims over which a write becomes visible are superseded (R329). -/
def State.supersede (s : State) (d n : Nat) : State :=
  let new (c : Claim) : List Nat :=
    ((List.range n).map (d + ·)).filter fun x => c.dla ≤ x && x < c.dla + c.count && !c.superseded.contains x
  if s.flow.claims.all fun c => (new c).isEmpty then s
  else (s.modFlow fun f => { f with claims := f.claims.map fun c => { c with superseded := c.superseded ++ new c } }).claimRegs

/-- A write that moves no sector becomes visible: it leaves ADMIT_WAIT for its walker requests. -/
def State.showErase (s : State) (n : Nat) : State :=
  match s.slot n with
  | none => s
  | some x =>
    let s := s.modSlot n fun y => { y with stage := .media, visible := true, writeHeld := false }
    let s := x.ranges.foldl (fun s r => s.supersede r.1 r.2) s
    if x.sqe.opcode = Op.writeUncorrectable then s else x.ranges.foldl (fun s r => s.madeReadable r.1 r.2) s

/-- A write without sectors is accepted, and visible at once unless new writes are held. -/
def State.acceptErase (s : State) (x : Slot) : State :=
  match s.countersSpent x with
  | some z => s.requireRewrite z
  | none =>
    let s := s.acceptSlot x false
    if s.writesHeld then s else s.showErase x.num

/-- A Write, or a Write Zeroes to a ZNS zone (R331): accepted, refused, or left while its zone is under rewrite or an older
command of the zone waits. -/
def State.acceptWrite (s : State) (x : Slot) : State :=
  match s.countersSpent x with
  | some z => s.requireRewrite z
  | none =>
    if !s.inZns x then s.acceptSlot x true
    else if (s.zdesc x.zone).state == .rewrite || s.olderInZone x x.zone then s
    else
      let st := s.acceptStatus x
      if st ≠ 0 then s.failCommand x st
      else
        match s.namespaceOf x.sqe.nsid with
        | none => s
        | some ns =>
          let r := s.makeOpenRoom ns x.zone true
          if r.1 ≠ 0 then s.failCommand x r.1
          else
            let a := r.2.acceptOf x.zone
            ((r.2.openForWrite x.zone).setAccept x.zone (a.1 + x.lbas) a.2).acceptSlot x true

/-- WRITE (R318, R331). -/
def execWrite (n : Nat) (s : State) : Host.Outcome State Fault Refusal :=
  match s.freshIo n Op.write with
  | none => .next s
  | some x =>
    let st := s.ioStatus x [0, 1, 2] true 512
    .next (if st ≠ 0 then s.failCommand x st else s.acceptWrite x)

/-- WRITE_ZEROES (R270): UNWRITTEN in a namespace written in place, zeros at the write pointer of a ZNS zone. -/
def execWriteZeroes (n : Nat) (s : State) : Host.Outcome State Fault Refusal :=
  match s.freshIo n Op.writeZeroes with
  | none => .next s
  | some x =>
    let st := s.ioStatus x [0, 1, 2] true 65536
    .next (if st ≠ 0 then s.failCommand x st else if s.inZns x then s.acceptWrite x else s.acceptErase x)

/-- WRITE_UNCORRECTABLE (R270, R354). -/
def execWriteUncorrectable (n : Nat) (s : State) : Host.Outcome State Fault Refusal :=
  match s.freshIo n Op.writeUncorrectable with
  | none => .next s
  | some x =>
    let st := s.ioStatus x [0, 2] true 65536
    .next (if st ≠ 0 then s.failCommand x st else s.acceptErase x)

/-- DATASET_MANAGEMENT (R270): the ranges as the host lists them, first LBA and LBAs; without Deallocate nothing is done. -/
def execDatasetManagement (n : Nat) (ranges : List (Nat × Nat)) (s : State) : Host.Outcome State Fault Refusal :=
  match s.freshIo n Op.dsm with
  | none => .next s
  | some x =>
    let st := s.ioStatus x [0, 2] false 0
    let l := ranges.take (x.sqe.cdw10 % 256 + 1)
    match s.namespaceOf x.sqe.nsid with
    | none => .next (s.failCommand x st)
    | some ns =>
      if st ≠ 0 then .next (s.failCommand x st)
      else if !x.isWrite then .next (s.completeSlot n 0 0)
      else if l.any fun r => ns.capacity < r.1 + r.2 then .next (s.failCommand x Nvme.lbaRange)
      else
        let y := { x with ranges := (l.filter fun r => r.2 != 0).map fun r => (ns.dla r.1, r.2) }
        .next ((s.modSlot n fun _ => y).acceptErase y)

/-- A Zone Append needs room that is not reserved (R332), in a zone that can be written. -/
def State.appendStatus (s : State) (x : Slot) : Nat :=
  let st := (s.zdesc x.zone).state
  let a := s.acceptOf x.zone
  if 64 < x.lbas || x.dla % zoneSectors != 0 then Nvme.invalidField
  else if st == .full then Nvme.zoneFull
  else if st == .readOnly then Nvme.zoneReadOnly
  else if st == .offline then Nvme.zoneOffline
  else if zoneSectors < a.1 + a.2 + x.lbas then Nvme.zoneBoundary
  else 0

/-- ZONE_APPEND (R332): room is reserved; the place is given at visibility. -/
def execZoneAppend (n : Nat) (s : State) : Host.Outcome State Fault Refusal :=
  match s.freshIo n Op.append with
  | none => .next s
  | some x =>
    let st := s.ioStatus x [1] true 512
    match s.namespaceOf x.sqe.nsid with
    | none => .next (s.failCommand x st)
    | some ns =>
      if st ≠ 0 then .next (s.failCommand x st)
      else if (s.zdesc x.zone).state == .rewrite || s.olderInZone x x.zone then .next s
      else if s.appendStatus x ≠ 0 then .next (s.failCommand x (s.appendStatus x))
      else
        match s.countersSpent x with
        | some z => .next (s.requireRewrite z)
        | none =>
          let r := s.makeOpenRoom ns x.zone true
          if r.1 ≠ 0 then .next (s.failCommand x r.1)
          else
            let a := r.2.acceptOf x.zone
            .next (((r.2.openForWrite x.zone).setAccept x.zone a.1 (a.2 + x.lbas)).acceptSlot x true)

/-! ### Admission (R99, R274, R301) -/

/-- The effective ceiling in pages. -/
def State.ceilingPages (s : State) : Nat := 256 * s.fld F.KEEP_CEILING_EFFECTIVE_MIB

/-- The lower of the host ceiling H and the effective ceiling, in pages (R274, R343). -/
def State.earlyPages (s : State) : Nat :=
  if kgetD 0x06 s.host.features 1 % 2 = 0 || s.on F.ORD_DUR_STATUS_SAVE_SHORT then 0
  else min (256 * kgetD 0xC0 s.host.features 512) s.ceilingPages

/-- The write that is admitted next: the oldest waiting write, urgent ones first. -/
def State.nextAdmission (s : State) : Option Slot :=
  let waiting := s.flow.slots.filter fun x => x.isWrite && x.stage == .admitWait && !x.writeHeld
  let first (l : List Slot) : Option Slot :=
    l.foldl (fun m x => match m with | some y => if x.epoch < y.epoch then some x else m | none => some x) none
  (first (waiting.filter (·.urgent))).or (first waiting)

/-- Pages that the next admission of a write takes: all of it, or a piece of at most 64 when it exceeds the ceiling. -/
def State.admitPages (s : State) (x : Slot) : Nat :=
  if x.piece = 0 && x.lbas ≤ s.ceilingPages then x.lbas else min 64 (x.lbas - x.done)

/-- WRITE_ADMIT (R301): it fits under the ceiling, and there are free pages for its data and its mirror. -/
def execWriteAdmit (s : State) : Host.Outcome State Fault Refusal :=
  match s.nextAdmission with
  | none => .next s
  | some x =>
    if s.writesHeld then .next s
    else if x.verified.isEmpty then .next (s.showErase x.num)
    else
      let n := s.admitPages x
      let whole := x.piece = 0 && x.lbas ≤ s.ceilingPages
      let fits := if whole then s.dirtyAhead + n ≤ s.ceilingPages else s.dirtyAhead = 0
      let s' := s.reclaim (2 * n)
      if !fits || s'.avail Class.free < 2 * n then .next s
      else
        let s := s'.transfer Class.free Class.hostIn n
        .next (s.modSlot x.num fun y =>
          { y with stage := .xferIn, pages := n, piece := if whole then 0 else n,
                   early := whole && !y.fua && s.dirtyAhead ≤ s.earlyPages })

/-! ### Protection information (R236, R336) -/

/-- One bit of the reflected CRC-64 of the NVM Command Set (PRESUMED, assumption log 13). -/
def crc64Bit (c : BitVec 64) : BitVec 64 := if c.getLsbD 0 then (c >>> 1) ^^^ 0x9A6C9329AC4BC9B5#64 else c >>> 1

/-- One byte of it. -/
def crc64Byte (c : BitVec 64) (b : Byte) : BitVec 64 :=
  crc64Bit (crc64Bit (crc64Bit (crc64Bit (crc64Bit (crc64Bit (crc64Bit (crc64Bit (c ^^^ b.zeroExtend 64))))))))

/-- The 64-bit guard over a sector. -/
def sectorGuard (d : Sector) : Nat := (~~~((padTo 4096 d).foldl crc64Byte 0xFFFFFFFFFFFFFFFF#64)).toNat

/-- The guard that the BZ8 keeps for a namespace without protection information (R236). -/
def ownGuard (d : Sector) : List Byte := leBytes 8 (sectorGuard d) ++ List.replicate 8 0

/-- Expected application tag and reference tag of sector i of a write, the fields placed as the NVM Command Set places them
(PRESUMED, assumption log 13). -/
def Sqe.refTag (q : Sqe) (type i : Nat) : Nat := (q.cdw14 + if type = 1 then i else 0) % 2 ^ 48

/-- Protection information that PRACT inserts. -/
def Sqe.insertPi (q : Sqe) (type i : Nat) (d : Sector) : List Byte :=
  beBytes 8 (sectorGuard d) ++ beBytes 2 (q.cdw15 % 65536) ++ beBytes 6 (Sqe.refTag q type i)

/-- The status of the check of one sector's protection information, 0 when it passes. -/
def Sqe.checkPi (q : Sqe) (type i : Nat) (d : Sector) (p : List Byte) : Nat :=
  let app := ofBe (cutBytes p 8 2)
  let ref := ofBe (cutBytes p 10 6)
  let mask := q.cdw15 / 65536 % 65536
  if app = 0xFFFF ∧ (type = 1 ∨ ref = 2 ^ 48 - 1) then 0
  else if Sqe.checksGuard q ∧ ofBe (cutBytes p 0 8) ≠ sectorGuard d then Nvme.guardCheck
  else if Sqe.checksAppTag q ∧ app &&& mask ≠ q.cdw15 % 65536 &&& mask then Nvme.appTagCheck
  else if Sqe.checksRefTag q ∧ ref ≠ Sqe.refTag q type i then Nvme.refTagCheck
  else 0

/-- Sectors of a write with the protection information that goes with them, and the status of its check; `from_` the place of
the first. -/
def State.protect (s : State) (x : Slot) (from_ : Nat) (data : List Sector) (pi : List (List Byte)) : Nat × List (List Byte) :=
  let type := kgetD x.sqe.nsid s.host.piType 0
  if s.lbaf x.sqe.nsid = 0 then (0, data.map ownGuard)
  else if type = 0 then (0, data.zipIdx.map fun d => padTo 16 (pi.getD d.2 []))
  else if Sqe.pract x.sqe then (0, data.zipIdx.map fun d => Sqe.insertPi x.sqe type (from_ + d.2) d.1)
  else
    ((data.zipIdx.map fun d => Sqe.checkPi x.sqe type (from_ + d.2) d.1 (padTo 16 (pi.getD d.2 []))).foldl
        (fun m st => if m = 0 then st else m) 0,
      data.zipIdx.map fun d => padTo 16 (pi.getD d.2 []))

/-! ### Data complete (R302, R321, R332) -/

/-- A Zone Append takes its place at the accept pointer (R332). -/
def State.placeAppend (s : State) (n : Nat) : State :=
  match s.slot n with
  | none => s
  | some x =>
    if x.sqe.opcode != Op.append then s
    else
      let z := x.zone
      let a := s.acceptOf z
      let d := z * zoneSectors + a.1
      let lba := match s.namespaceOf x.sqe.nsid with | some ns => d - ns.firstZone * zoneSectors | none => 0
      (s.setAccept z (a.1 + x.lbas) (a.2 - x.lbas)).modSlot n fun y => { y with dla := d, ranges := [(d, x.lbas)], result := lba }

/-- The pages of a write's sectors become dirty and mirrored: the write, or its piece, is visible, its media work is listed,
and its completion is posted early where R302 allows it. -/
def State.show (s : State) (n : Nat) : State :=
  let s := (s.reclaim ((s.slot n).map (·.pages) |>.getD 0)).placeAppend n
  match s.slot n with
  | none => s
  | some x =>
    let s := s.transferSet [(Class.hostIn, Class.dirtyPrimary, x.pages), (Class.free, Class.dirtyMirror, x.pages)]
    let d := x.dla + x.shown
    let k := x.data.length - x.shown
    let y := { x with shown := x.data.length, visible := x.data.length = x.lbas, stage := .media }
    let s := ((s.modSlot n fun _ => y).supersede d k).madeReadable d k
    let s := s.addWrites y x.shown x.data.length
    if x.early && !s.on F.KEEP_STATUS_ENERGY_HOLD && s.earlySlots < s.fld F.SCH_SLOT_DIRTY_DIRTY_MAX then
      let s := (s.modSlot n fun z => { z with stage := .doneEarly }).postCompletion n 0 x.result
      s.setFld F.SCH_SLOT_DIRTY_IN_USE s.earlySlots
    else s

/-- The data of a write, or of its piece, has all come and waits to be shown. -/
def Slot.arrived (x : Slot) : Bool := x.stage == .xferIn && x.shown < x.data.length

/-- An earlier Write of the zone is not yet visible (R321). -/
def State.waitsInZone (s : State) (x : Slot) : Bool :=
  s.flow.slots.any fun y => s.zoneWrite y x.zone && y.epoch < x.epoch && !y.visible

/-- Show the writes whose data has come and that no earlier Write of their zone holds, one after another. -/
def State.showArrived : Nat → State → State
  | 0, s => s
  | k + 1, s =>
    match s.flow.slots.find? fun x =>
        x.arrived && !(s.zoneWrite x x.zone && s.waitsInZone x) && x.pages ≤ s.avail Class.free + s.flow.clean.length with
    | some x => State.showArrived k (s.show x.num)
    | none => s

/-- WRITE_DATA_COMPLETE (R302, R336): the data and the separate protection information of the sectors in transfer. -/
def execWriteDataComplete (n : Nat) (data pi : List (List Byte)) (s : State) : Host.Outcome State Fault Refusal :=
  match s.slot n with
  | none => .next s
  | some x =>
    if x.stage != .xferIn || x.arrived then .next s
    else
      let zeros := x.sqe.opcode = Op.writeZeroes
      let sectors := (List.range x.pages).map fun i => if zeros then [] else data.getD i []
      let r := if zeros then (0, sectors.map ownGuard) else s.protect x x.data.length sectors pi
      if r.1 ≠ 0 then .next ((s.flag F.ORD_OVL_EV_GUARD_WRITE).discardWrite n (some r.1))
      else
        let s := s.modSlot n fun y => { y with data := y.data ++ sectors, pi := y.pi ++ r.2 }
        .next (State.showArrived s.flow.slots.length s)

/-! ### Media completion (R226, R318, R327) -/

/-- A request for one verified sector at its place. -/
def State.mapSector (s : State) (x : Slot) (i : Nat) : State := s.mapPlace (x.dla + i) (x.placed.getD i 0) (x.sector i).gen

/-- Sectors `first` to `last` - 1 of an atomic unit go to the map as one record, the others one by one; the walker carries out
what it can. -/
def State.mapSectors (s : State) (x : Slot) (first last : Nat) : State :=
  let p := x.placed.getD first 0
  let n := last - first
  let together := x.atomicStaged && (x.dla + first) / zoneSectors == (x.dla + last - 1) / zoneSectors &&
    (List.range n).all fun i => x.placed.getD (first + i) 0 == s.psaAdd p i
  if together then
    let gen := (x.sector first).gen
    s.walker (.map { lstart := x.dla + first, length := n, phys := p, gen := gen % 65536, cache := true, unwritten := false,
                     unreadable := false, noParity := false, pending := false } gen none)
  else (List.range n).foldl (fun s i => s.mapSector x (first + i)) s

/-- The zone's descriptor takes the LBAs that a write has brought onto the media: FULL at the end of the zone, with the open
parity group completed (R244, R258). -/
def State.advanceZone (s : State) (z n : Nat) : State :=
  let d := s.zdesc z
  let host := d.hostWp + n
  let pos := s.writePos z
  let used := pos.1 - pos.2
  let full := zoneSectors ≤ host
  let s := s.walker (.desc z (host + used) (if full then .full else d.state) used)
  if full then
    let s := s.modFlow fun f => { f with openOrder := f.openOrder.filter (· != z) }
    let s := s.dropAccept z
    if pos.1 % 64 = 0 then s else s.addParity z (pos.1 / 64)
  else s

/-- The requests of a write would be held by the walker. -/
def State.walkerBusy (s : State) (d n : Nat) : Bool := !s.stitch.held.isEmpty || s.journalFull || s.underRebuild d n

/-- A write whose sectors are all on the media ends: its clean pages take over, and its slot is freed or completed. -/
def State.finishWrite (s : State) (x : Slot) : State :=
  let s := s.modSlot x.num fun y => { y with mediaComplete := true }
  let s := if x.completed then s.freeSlot x.num else s.completeSlot x.num 0 x.result
  State.showArrived s.flow.slots.length s

/-- An older live write of the zone stands before this one. -/
def State.behindInZone (s : State) (x : Slot) : Bool :=
  s.inZns x && s.flow.slots.any fun y => y.liveWrite && y.num != x.num && y.sqe.nsid == x.sqe.nsid && s.inZns y &&
    y.visible && y.zone == x.zone && y.dla < x.dla

/-- Media completion of a write's sectors, or of its piece. -/
def State.completeSectors (s : State) (x : Slot) : State :=
  let n := x.shown - x.done
  let s := s.mapSectors x x.done x.shown
  if !s.stitch.held.isEmpty then s
  else
    let s := if s.inZns x then s.advanceZone x.zone n else s
    let s := s.dropClean fun d => x.dla + x.done ≤ d && d < x.dla + x.shown
    let s := s.transferSet [(Class.dirtyPrimary, Class.clean, n), (Class.dirtyMirror, Class.free, n)]
    let s := (List.range n).foldl (fun s i =>
      s.cachePage (x.dla + x.done + i) (x.data.getD (x.done + i) []) (x.pi.getD (x.done + i) [])) s
    if x.shown < x.lbas then
      s.modSlot x.num fun y => { y with done := x.shown, pages := 0, stage := .admitWait }
    else s.finishWrite x

/-- Flags that a write without sectors sets and clears over its ranges: UNREADABLE for Write Uncorrectable, else
UNWRITTEN. -/
def Slot.eraseFlags (x : Slot) : Nat × Nat := if x.sqe.opcode = Op.writeUncorrectable then (4, 11) else (2, 13)

/-- The walker requests of a write without sectors: one for each zone of each range. -/
def State.eraseRange (s : State) (x : Slot) (r : Nat × Nat) : State :=
  let z := r.1 / zoneSectors
  let k := min r.2 ((z + 1) * zoneSectors - r.1)
  let f := x.eraseFlags
  let s := s.walker (.flags r.1 k f.1 f.2 (s.zdesc z).gen none)
  if k < r.2 then s.walker (.flags (r.1 + k) (r.2 - k) f.1 f.2 (s.zdesc (z + 1)).gen none) else s

/-- MEDIA_COMPLETION (R318): every sector has a verify result of OK and the walker completes the write's requests. -/
def execMediaCompletion (n : Nat) (s : State) : Host.Outcome State Fault Refusal :=
  match s.slot n with
  | none => .next s
  | some x =>
    if !x.isWrite || (x.stage != .media && x.stage != .doneEarly) then .next s
    else if x.ranges.any fun r => s.walkerBusy r.1 r.2 then .next s
    else if x.verified.isEmpty then
      if s.writeBlocked x then .next s
      else
        let s := x.ranges.foldl (fun s r => s.eraseRange x r) s
        if !s.stitch.held.isEmpty then .next s
        else
          let s := s.dropClean x.covers
          .next (s.finishWrite x)
    else if x.shown ≤ x.done || s.behindInZone x then .next s
    else if ((x.verified.drop x.done).take (x.shown - x.done)).all id then .next (s.completeSectors x)
    else .next s

end Sys2Proof.Machine
end

