-- ==== Sys2Proof/Machine/Reads.lean ====
section
/-!
DEFINITION. Sys2Proof/Machine/Reads.lean: Read, Compare and Verify with their read point (R322) and transfer (R337), Flush
(R338), the actions and reports of ZNS zones (R289 to R291, R326), and I/O commands that the BZ8 does not support (R270).
-/

namespace Sys2Proof.Machine

/-! ### Read, Compare, Verify (R322) -/

/-- A read command has passed its checks: its sectors are to come. -/
def State.startRead (s : State) (x : Slot) (most : Nat) (data : List Sector) : State :=
  let st := s.ioStatus x [0, 1, 2] true most
  if st ≠ 0 then s.failCommand x st
  else s.modSlot x.num fun y =>
    { y with got := List.replicate y.lbas none, sent := List.replicate y.lbas false, src := List.replicate y.lbas 0, data := data }

/-- The read point of a read: every sector takes its source, and those on the media are read (R322, R354). -/
def State.takeReadPoint (s : State) (x : Slot) : State :=
  let sources := (List.range x.lbas).map fun i => s.sourceOf x.epoch (x.dla + i)
  let media := sources.zipIdx.filterMap fun e => match e.1 with | .media p => some (x.dla + e.2, p) | _ => none
  let s' := s.reclaim media.length
  if s'.avail Class.free < media.length then s
  else
    let s := s'.transfer Class.free Class.mediaOut media.length
    let lost := sources.zipIdx.filterMap fun e => match e.1 with | .lost => some e.2 | _ => none
    let y := { x with
      readPoint := true, stage := .media, pages := media.length, status := if lost.isEmpty then 0 else Nvme.unrecovered,
      got := sources.map fun e => match e with
        | .dirty d p => some (d, p) | .clean d p => some (d, p) | .zeros => some ([], ownGuard []) | .lost => some ([], [])
        | .media _ => none,
      src := sources.map fun e => match e with | .dirty _ _ => 2 | .clean _ _ => 1 | .zeros => 3 | .lost => 3 | .media _ => 0,
      sent := sources.map fun e => match e with | .lost => true | _ => false }
    let s := s.modSlot x.num fun _ => y
    let s := match lost.head? with
      | some i => s.logError x.skein Nvme.unrecovered (Sqe.slba x.sqe + i)
      | none => s
    (s.addReads y media).readDone x.num

/-- The read has passed its checks and may take its read point. -/
def State.atReadPoint (s : State) (x : Slot) : Bool :=
  x.isRead && x.stage == .fetched && !x.got.isEmpty && !x.readPoint && !s.readHeld x && !s.underRebuild x.dla x.lbas

/-- A read takes its read point as soon as nothing holds it. -/
def State.tryReadPoint (s : State) (n : Nat) : State :=
  match s.slot n with
  | some x => if s.atReadPoint x then s.takeReadPoint x else s
  | none => s

/-- READ (R322). -/
def execRead (n : Nat) (s : State) : Host.Outcome State Fault Refusal :=
  match s.freshIo n Op.read with
  | some x => if x.got.isEmpty then .next ((s.startRead x 512 []).tryReadPoint n) else .next s
  | none => .next s

/-- COMPARE (R322): with the host's data. -/
def execCompare (n : Nat) (data : List (List Byte)) (s : State) : Host.Outcome State Fault Refusal :=
  match s.freshIo n Op.compare with
  | some x => if x.got.isEmpty then .next ((s.startRead x 512 data).tryReadPoint n) else .next s
  | none => .next s

/-- VERIFY (R322): nothing is transferred. -/
def execVerify (n : Nat) (s : State) : Host.Outcome State Fault Refusal :=
  match s.freshIo n Op.verify with
  | some x => if x.got.isEmpty then .next ((s.startRead x 65536 []).tryReadPoint n) else .next s
  | none => .next s

/-- READ_POINT (R322). -/
def execReadPoint (n : Nat) (s : State) : Host.Outcome State Fault Refusal := .next (s.tryReadPoint n)

/-! ### Transfer (R337) -/

/-- The data and, in LBA format 1, the protection information of a sector as the host receives them. -/
def State.hostBytes (s : State) (x : Slot) (data : Sector) (pi : List Byte) : List Byte :=
  padTo 4096 data ++ (padTo 16 pi).take (s.piBytes x)

/-- A sector goes to the host; the last one completes the command. -/
def State.sendSector (s : State) (x : Slot) (i : Nat) (data : Sector) (pi : List Byte) : State :=
  let s := s.send (.data x.skein x.sqe.cid (Sqe.slba x.sqe + i) (s.hostBytes x data pi))
  let y := { x with sent := putAt i true x.sent }
  let s := s.modSlot x.num fun _ => y
  if y.sent.all id then s.completeSlot x.num x.status 0 else s

/-- A write whose dirty pages are lost in both copies (R337, R342): its LBAs are listed, its pages quarantined, and its data
never reaches the media. -/
def State.loseWrite (s : State) (w : Slot) : State :=
  let n := w.shown - w.done
  let s := s.transferSet [(Class.dirtyPrimary, Class.quarantined, n), (Class.dirtyMirror, Class.quarantined, n)]
  let gone := (s.flow.ops.filter fun o => o.slot == some w.num).map (·.id)
  let s := s.modFlow fun f => { f with ops := f.ops.filter fun o => o.slot != some w.num }
  let s := s.modCip fun c => { c with queue := c.queue.filter fun q => !gone.contains q.op }
  let s := if w.completed then s.freeSlot w.num else s.completeSlot w.num Nvme.dataTransferError 0
  let z := w.zone
  let k := min w.lbas ((z + 1) * zoneSectors - w.dla)
  let s := s.loseRange w.dla k 4 0 none
  if k < w.lbas then s.loseRange (w.dla + k) (w.lbas - k) 4 0 none else s

/-- A sector of a read whose guard mismatched is taken from the media, as operation `issued` says: read anew, or already read
and now in the hands of the ladder. -/
def State.readFromMedia (s : State) (x : Slot) (i : Nat) (issued : Bool) : State :=
  let d := x.dla + i
  match s.resolve d with
  | .at p =>
    let s := (s.reclaim 1).transfer Class.free Class.mediaOut 1
    let y := { x with got := putAt i none x.got, stage := .media, pages := x.pages + 1, ops := x.ops,
                      src := putAt i (if issued then 5 else 0) x.src }
    let s := s.modSlot x.num fun _ => y
    if issued then
      let id := s.flow.nextOp
      let s := s.addOp { s.readOp [(d, p)] with slot := some x.num, urgent := x.urgent, place := .issued, framed := [0] }
      s.modDarn fun m => { m with failed := m.failed ++
        [ { act := psaAct p, dla := d, psa := p, code := 4, slice := (s.anySlice (psaAct p)).getD 0, pinned := false, urgent := x.urgent,
            darning := false, claim := none, op := id, index := 0 } ] }
    else s.addReads y [(d, p)]
  | _ =>
    let s := s.modSlot x.num fun y => { y with sent := putAt i true y.sent, status := Nvme.unrecovered }
    s.completeSlot x.num Nvme.unrecovered 0

/-- A clean page of a sector leaves the cache. -/
def State.pullClean (s : State) (d : Nat) (dst : Nat) : State :=
  if s.flow.clean.any fun c => c.dla == d then
    (s.modFlow fun f => { f with clean := f.clean.filter fun c => c.dla != d }).transfer Class.clean dst 1
  else s

/-- A guard mismatch by the source of the sector (R337); the sector is not transferred. -/
def State.guardMismatch (s : State) (x : Slot) (i : Nat) : State :=
  let s := s.flag F.ORD_OVL_EV_GUARD_READ
  let d := x.dla + i
  match x.src.getD i 0 with
  | 1 => (s.pullClean d Class.quarantined).readFromMedia x i false
  | 2 => s.modSlot x.num fun y => { y with src := putAt i 4 y.src }
  | 4 =>
    let s := match s.newestWrite x.epoch d with | some w => s.loseWrite w | none => s
    s.completeSlot x.num Nvme.unrecovered 0
  | 3 => s
  | _ => (s.pullClean d Class.free).readFromMedia x i true

/-- READ_TRANSFER (R337): a sector that has landed, its guard matching or not; a sector that no page holds cannot mismatch. -/
def execReadTransfer (n i : Nat) (guardOk : Bool) (s : State) : Host.Outcome State Fault Refusal :=
  match s.slot n with
  | none => .next s
  | some x =>
    if x.stage != .xferOut || x.orphan || x.sent.getD i true then .next s
    else
      match x.got.getD i none with
      | none => .next s
      | some (d, p) =>
        if guardOk || x.src.getD i 0 = 3 then .next (s.sendSector x i d p) else .next (s.guardMismatch x i)

/-! ### Flush (R338) -/

/-- FLUSH: every write that was fetched before it, to the namespaces concerned, is media-complete or discarded. -/
def execFlush (n : Nat) (s : State) : Host.Outcome State Fault Refusal :=
  match s.freshIo n Op.flush with
  | none => .next s
  | some x =>
    let all := x.sqe.nsid = 0xFFFFFFFF
    let st := if all then 0 else s.ioStatus x [0, 1, 2] false 0
    if st ≠ 0 then .next (s.failCommand x st)
    else if s.flow.slots.any fun w => w.liveWrite && w.epoch < x.epoch && (all || w.sqe.nsid == x.sqe.nsid) then .next s
    else .next (s.completeSlot n 0 0)

/-! ### Zone actions (R290) -/

/-- A fetched Zone Management Send of an action. -/
def State.freshAction (s : State) (n action : Nat) : Option Slot :=
  (s.freshIo n Op.zoneSend).bind fun x => if x.sqe.cdw13 % 256 = action then some x else none

/-- The zones that an action concerns: the named zone, or with Select All those of the namespace that satisfy a test. -/
def Slot.actionZones (x : Slot) (ns : NamespaceEntry) (valid : Nat → Bool) : List Nat :=
  if x.sqe.cdw13.testBit 8 then ns.zones.filter valid else [x.zone]

/-- The status of a zone action's own fields, 0 for none. -/
def State.actionStatus (s : State) (x : Slot) : Nat :=
  let st := s.ioStatus x [1] false 0
  if st ≠ 0 then st
  else if x.sqe.cdw13.testBit 8 then 0
  else
    match s.namespaceOf x.sqe.nsid with
    | none => Nvme.invalidNamespace
    | some n =>
      if n.capacity ≤ Sqe.slba x.sqe then Nvme.lbaRange
      else if Sqe.slba x.sqe % zoneSectors != 0 then Nvme.invalidField else 0

/-- Carry out a zone action: `valid` its zones under Select All, `other` the status where the named zone is not valid, and the
effect, with a status, on one zone. -/
def State.zoneAction (s : State) (n action : Nat) (valid : State → Nat → Bool) (effect : State → NamespaceEntry → Nat → Nat × State) :
    State :=
  match s.freshAction n action with
  | none => s
  | some x =>
    let st := s.actionStatus x
    match s.namespaceOf x.sqe.nsid with
    | none => s.failCommand x st
    | some ns =>
      if st ≠ 0 then s.failCommand x st
      else
        let zones := x.actionZones ns (valid s)
        let bad := zones.find? fun z => !valid s z
        match bad with
        | some z =>
          let d := (s.zdesc z).state
          s.failCommand x (if d == .readOnly && action != 5 then Nvme.zoneReadOnly else if d == .offline then Nvme.zoneOffline
            else Nvme.zoneTransition)
        | none =>
          let r := zones.foldl (fun (m : Nat × State) z => if m.1 ≠ 0 then m else effect m.2 ns z) (0, s)
          if r.1 ≠ 0 then r.2.failCommand x r.1 else r.2.completeSlot n 0 0

/-- WRITE_HOLD holds a zone action: every one but Open and Close (R314). -/
def State.holdsAction (s : State) (n action : Nat) : Bool := s.on F.ORD_LEDGER_STATUS_WRITE_HOLD && (s.freshAction n action).isSome

/-- ZONE_OPEN (R290): under Select All, the closed zones. -/
def execZoneOpen (n : Nat) (s : State) : Host.Outcome State Fault Refusal :=
  let selectAll := match s.slot n with | some x => x.sqe.cdw13.testBit 8 | none => false
  .next (s.zoneAction n 3
    (fun s z => if selectAll then (s.zdesc z).state == .closed
      else s.zoneActive z || (s.zdesc z).state == .empty)
    fun s ns z =>
      let r := s.makeOpenRoom ns z false
      if r.1 ≠ 0 then r else (0, r.2.putZoneState z .explicitOpen))

/-- ZONE_CLOSE (R290): open zones; a closed one stays closed. -/
def execZoneClose (n : Nat) (s : State) : Host.Outcome State Fault Refusal :=
  let selectAll := match s.slot n with | some x => x.sqe.cdw13.testBit 8 | none => false
  .next (s.zoneAction n 1 (fun s z => s.zoneOpen z || (!selectAll && (s.zdesc z).state == .closed)) fun s _ z =>
    (0, if s.zoneOpen z then s.closeZone z else s))

/-- ZONE_OFFLINE (R290): only from Read Only. -/
def execZoneOffline (n : Nat) (s : State) : Host.Outcome State Fault Refusal :=
  if s.holdsAction n 5 then .next (s.holdCommand n)
  else .next (s.zoneAction n 5 (fun s z => (s.zdesc z).state == .readOnly) fun s _ z => (0, s.putZoneState z .offline))

/-- ZONE_SET_DESC_EXT (R290): Invalid Field in Command. -/
def execZoneSetDescExt (n : Nat) (s : State) : Host.Outcome State Fault Refusal :=
  match s.freshAction n 0x10 with
  | none => .next s
  | some x =>
    if s.on F.ORD_LEDGER_STATUS_WRITE_HOLD then .next (s.holdCommand n) else
    let st := s.ioStatus x [1] false 0
    .next (s.failCommand x (if st ≠ 0 then st else Nvme.invalidField))

/-- Reset and Finish wait for older overlapping writes and reads of the zone (R326). -/
def State.actionHeld (s : State) (x : Slot) (zones : List Nat) : Bool :=
  zones.any fun z =>
    s.rangeBlocked x.epoch [(z * zoneSectors, zoneSectors)] ||
      s.flow.slots.any (fun w => w.epoch < x.epoch && w.liveWrite && w.sqe.opcode == Op.append && w.zone == z) ||
      s.walkerBusy (z * zoneSectors) zoneSectors

/-- Reset of one zone: a rewrite is abandoned, GEN_BUMP, then Empty; unreadable entries leave the list (R354). -/
def State.resetZone (s : State) (z : Nat) : State :=
  let s := (s.abandonRewrite z).walker (.genBump z)
  if (s.zdesc z).state == .offline then s
  else
    let s := ((s.walker (.desc z 0 .empty 0)).dropAccept z).modFlow fun f => { f with openOrder := f.openOrder.filter (· != z) }
    (s.unlist (z * zoneSectors) zoneSectors).dropClean fun d => d / zoneSectors == z

/-- Zones that Reset is valid for: all that are neither Read Only nor Offline; Select All leaves out empty ones. -/
def State.resetValid (s : State) (all : Bool) (z : Nat) : Bool :=
  let d := (s.zdesc z).state
  d != .readOnly && d != .offline && !(all && d == .empty)

/-- ZONE_RESET (R290, R326). -/
def execZoneReset (n : Nat) (s : State) : Host.Outcome State Fault Refusal :=
  match s.freshAction n 4 with
  | none => .next s
  | some x =>
    let all := x.sqe.cdw13.testBit 8
    let held := match s.namespaceOf x.sqe.nsid with
      | some ns => s.actionStatus x == 0 && s.actionHeld x (x.actionZones ns (s.resetValid all))
      | none => false
    if s.holdsAction n 4 then .next (s.holdCommand n)
    else if held then .next s
    else .next (s.zoneAction n 4 (fun t z => t.resetValid all z) fun s _ z =>
      (0, if (s.zdesc z).state == .empty then s else s.resetZone z))

/-- Finish of one zone: the open parity group is completed (R244). -/
def State.finishZone (s : State) (z : Nat) : State :=
  let pos := s.writePos z
  if pos.1 % 64 = 0 then s else s.addParity z (pos.1 / 64)

/-- Zones that Finish is valid for: Select All takes the active ones. -/
def State.finishValid (s : State) (all : Bool) (z : Nat) : Bool :=
  s.zoneActive z || (!all && ((s.zdesc z).state == .empty || (s.zdesc z).state == .full))

/-- The parity of the zones has verified: they become Full, and the command completes. -/
def State.finishDone (s : State) (x : Slot) : State :=
  if s.flow.ops.any fun o => o.purpose == .parity && x.zones.contains (o.dla / zoneSectors) then s
  else
    let s := x.zones.foldl (fun s z => (s.putZoneState z .full).dropAccept z) s
    s.completeSlot x.num 0 0

/-- ZONE_FINISH (R290, R244): the first time it lists the parity writes, then it waits for them. -/
def execZoneFinish (n : Nat) (s : State) : Host.Outcome State Fault Refusal :=
  match s.slot n with
  | none => .next s
  | some x =>
    if x.stage == .media && s.isIo x && x.sqe.opcode == Op.zoneSend && x.sqe.cdw13 % 256 == 2 then .next (s.finishDone x)
    else
      match s.freshAction n 2 with
      | none => .next s
      | some x =>
        if s.on F.ORD_LEDGER_STATUS_WRITE_HOLD then .next (s.holdCommand n) else
        let st := s.actionStatus x
        let all := x.sqe.cdw13.testBit 8
        match s.namespaceOf x.sqe.nsid with
        | none => .next (s.failCommand x st)
        | some ns =>
          let zones := x.actionZones ns (s.finishValid all)
          if st ≠ 0 then .next (s.failCommand x st)
          else if !zones.all (s.finishValid all) then
            .next (s.failCommand x (match zones.map fun z => (s.zdesc z).state with
              | [.readOnly] => Nvme.zoneReadOnly | [.offline] => Nvme.zoneOffline | _ => Nvme.zoneTransition))
          else if s.actionHeld x zones then .next s
          else
            let open_ := zones.filter fun z => (s.zdesc z).state != .full
            let y := { x with stage := .media, zones := open_ }
            let s := s.modSlot n fun _ => y
            .next ((open_.foldl State.finishZone s).finishDone y)

/-! ### Report Zones (R289, R291), laid out as the Zoned Namespace Command Set lays it out (PRESUMED, assumption log 13) -/

/-- The state that a zone is reported in: a zone under rewrite in the state it held before. -/
def State.reportedState (s : State) (z : Nat) : ZoneState :=
  match (s.zdesc z).state with
  | .rewrite => (((s.stitch.snapshots.find? fun x => x.1 == z).map (·.2.2.2)).getD .full)
  | st => st

/-- The zone state code of a report: Empty 1, Implicitly Opened 2, Explicitly Opened 3, Closed 4, Read Only 13, Full 14,
Offline 15. -/
def ZoneState.reportCode : ZoneState → Nat
  | .empty => 1 | .implicitOpen => 2 | .explicitOpen => 3 | .closed => 4 | .readOnly => 13 | .full => 14 | .offline => 15
  | _ => 0

/-- A 64-byte zone descriptor. -/
def State.zoneReport (s : State) (ns : NamespaceEntry) (z : Nat) : List Byte :=
  let start := (z - ns.firstZone) * zoneSectors
  leBytes 1 2 ++ leBytes 1 (16 * (s.reportedState z).reportCode) ++ leBytes 6 0 ++ leBytes 8 zoneSectors ++ leBytes 8 start ++
    leBytes 8 (start + (s.zdesc z).hostWp) ++ leBytes 32 0

/-- The states that a reporting option selects: 0 all, 1 to 7 one state. -/
def reportOption (o : Nat) (st : ZoneState) : Bool :=
  match o with
  | 0 => true
  | 1 => st == .empty
  | 2 => st == .implicitOpen
  | 3 => st == .explicitOpen
  | 4 => st == .closed
  | 5 => st == .full
  | 6 => st == .readOnly
  | 7 => st == .offline
  | _ => false

/-- ZONE_MGMT_RECEIVE (R291): Report Zones from a zone on, partial or whole; anything else is an invalid field. -/
def execZoneMgmtReceive (n : Nat) (s : State) : Host.Outcome State Fault Refusal :=
  match s.freshIo n Op.zoneReceive with
  | none => .next s
  | some x =>
    let st := s.ioStatus x [1] false 0
    match s.namespaceOf x.sqe.nsid with
    | none => .next (s.failCommand x st)
    | some ns =>
      if st ≠ 0 then .next (s.failCommand x st)
      else if x.sqe.cdw13 % 256 ≠ 0 ∨ 7 < x.sqe.cdw13 / 256 % 256 then .next (s.failCommand x Nvme.invalidField)
      else if ns.capacity ≤ Sqe.slba x.sqe then .next (s.failCommand x Nvme.lbaRange)
      else
        let zones := ns.zones.filter fun z => x.dla / zoneSectors ≤ z && reportOption (x.sqe.cdw13 / 256 % 256) (s.reportedState z)
        let room := 4 * (x.sqe.cdw12 % 2 ^ 32 + 1)
        let fit := zones.take ((room - 64) / 64)
        let count := if x.sqe.cdw13.testBit 16 then fit.length else zones.length
        let page := leBytes 8 count ++ leBytes 56 0 ++ fit.flatMap fun z => s.zoneReport ns z
        .next ((s.sendBytes x (page.take room)).completeSlot n 0 0)

/-! ### Unsupported commands (R270) -/

/-- Opcodes of the table of R270. -/
def ioOpcodes : List Nat :=
  [Op.flush, Op.write, Op.read, Op.writeUncorrectable, Op.compare, Op.writeZeroes, Op.dsm, Op.verify, Op.zoneSend, Op.zoneReceive,
   Op.append]

/-- INVALID_IO_OPCODE (R270): an opcode, or a combination with the namespace's type, that is not supported; a zone action that
is none of R290's is an invalid field. -/
def execInvalidIoOpcode (n : Nat) (s : State) : Host.Outcome State Fault Refusal :=
  match s.slot n with
  | none => .next s
  | some x =>
    if x.stage != .fetched || !s.isIo x || !x.got.isEmpty then .next s
    else
      let type := (s.namespaceOf x.sqe.nsid).map (·.type)
      let op := x.sqe.opcode
      let zns := op == Op.zoneSend || op == Op.zoneReceive || op == Op.append
      let bad := !ioOpcodes.contains op ||
        (match type with
          | some 1 => op == Op.dsm || op == Op.writeUncorrectable
          | some _ => zns
          | none => false)
      if bad then .next (s.failCommand x Nvme.invalidOpcode)
      else if op == Op.zoneSend && !([1, 2, 3, 4, 5, 0x10].contains (x.sqe.cdw13 % 256)) then
        .next (s.failCommand x Nvme.invalidField)
      else .next s

end Sys2Proof.Machine
end

