-- ==== Sys2Proof/Machine/HostPort.lean ====
section
/-!
DEFINITION. Sys2Proof/Machine/HostPort.lean: ports and links (R115, R262), functions and their resets (R117 to R121, R264),
the enabling of controllers, transport errors (R265), and the HIF and QUE commands of drive firmware
(R279, R281, R295, R296).
-/

namespace Sys2Proof.Machine

/-! ### Ports and functions -/

/-- The port exists under PORT_MODE (R262); the ROM Pattern and the recovery controller run on port 0 alone (R56, R113). -/
def State.portExists (s : State) (p : Nat) : Bool :=
  p = 0 || (p = 1 && s.pattern.active.topology.portMode == 0 && s.fld F.PAT_STATUS_STATE != 3 && !s.cast.recovery)

/-- VF CONTROLLER entries of a port: TotalVFs (R264). -/
def State.totalVfs (s : State) (p : Nat) : Nat :=
  (s.pattern.active.host.controllers.filter fun e => e.port == p && e.function != 0).length

/-- A function of the port exists. -/
def State.functionExists (s : State) (p f : Nat) : Bool := s.portExists p && f < 16 && s.on (F.HIF_CTRL_EXIST_EXIST.at (16 * p + f))

/-- A host reset has an effect: not once bind-off has begun, and not while the device itself is in reset (R121). -/
def State.hostResets (s : State) : Bool := !s.keeper.bindOff && !s.keeper.inReset

/-- VF Enable of a port is cleared: its VFs are reset and cease to exist (R264). -/
def State.clearVfs (s : State) (p : Nat) : State :=
  let vf (c : Nat) : Bool := c / 16 == p && c % 16 != 0
  let s := (s.dropControllers vf).clearFunctions vf
  let s := (s.host.controllers.filter fun c => vf c.cntlid).foldl (fun s c => s.clr (F.HIF_CTRL_EXIST_EXIST.at c.cntlid)) s
  (s.clr (F.HIF_PORT_STATUS_NUMVFS p)).modHost fun h => { h with vfEnable := putAt p false h.vfEnable }

/-- A port's link falls. -/
def State.linkFalls (s : State) (p : Nat) : State :=
  ((s.clr (F.HIF_PORT_STATUS_LINK_UP p)).clr (F.HIF_PORT_STATUS_SPEED p)).clr (F.HIF_PORT_STATUS_WIDTH p)

/-- The link may train: PERST_N is deasserted and phase 6 has ended (R115). -/
def State.trainLink (s : State) (p : Nat) : State :=
  let go := s.portExists p && s.cast.built && !s.host.perst.getD p true
  s.modHost fun h => { h with linkTraining := putAt p go h.linkTraining }

/-- LINK_UP (R115, R262): training ends at a rate and width of the port. -/
def execLinkUp (p speed width : Nat) (s : State) : Host.Outcome State Fault Refusal :=
  let widths := if s.pattern.active.topology.portMode = 0 then [1, 2] else [1, 2, 4]
  if !s.host.linkTraining.getD p false || speed = 0 || 5 < speed || !widths.contains width then .next s
  else
    let s := s.modHost fun h => { h with linkTraining := putAt p false h.linkTraining }
    .next (((s.flag (F.HIF_PORT_STATUS_LINK_UP p)).setFld (F.HIF_PORT_STATUS_SPEED p) speed).setFld (F.HIF_PORT_STATUS_WIDTH p) width)

/-- LINK_DOWN (R262): the other port runs on; the link may train again. -/
def execLinkDown (p : Nat) (s : State) : Host.Outcome State Fault Refusal :=
  if 1 < p || !s.on (F.HIF_PORT_STATUS_LINK_UP p) then .next s else .next ((s.linkFalls p).trainLink p)

/-! ### Resets (R117) -/

/-- PERST_ASSERT (R117): every function and controller of the port. -/
def execPerstAssert (p : Nat) (s : State) : Host.Outcome State Fault Refusal :=
  if !s.portExists p then .next s
  else
    let s := s.modHost fun h => { h with perst := putAt p true h.perst, linkTraining := putAt p false h.linkTraining }
    if !s.hostResets then .next s
    else
      let s := ((s.clearVfs p).dropControllers fun c => c / 16 == p).clearFunctions fun c => c / 16 == p
      let s := ((s.linkFalls p).clr (F.HIF_PORT_ERR_CORR p)).clr (F.HIF_PORT_ERR_UNCORR p)
      .next (s.flag (F.HIF_PORT_STATUS_PERST p))

/-- PERST_DEASSERT (R115). -/
def execPerstDeassert (p : Nat) (s : State) : Host.Outcome State Fault Refusal :=
  if !s.portExists p then .next s
  else
    let s := (s.modHost fun h => { h with perst := putAt p false h.perst }).clr (F.HIF_PORT_STATUS_PERST p)
    .next (s.trainLink p)

/-- FLR (R117): of a PF it also clears VF Enable. -/
def execFlr (p f : Nat) (s : State) : Host.Outcome State Fault Refusal :=
  if !s.functionExists p f || !s.hostResets then .next s
  else .next (((if f = 0 then s.clearVfs p else s).dropController (16 * p + f)).clearFunctions fun c => c == 16 * p + f)

/-- VF_ENABLE_CLEAR (R264). -/
def execVfEnableClear (p : Nat) (s : State) : Host.Outcome State Fault Refusal :=
  if !s.portExists p || !s.hostResets then .next s else .next (s.clearVfs p)

/-- VF_ENABLE_SET (R264): VFs 1 to NumVFs come into existence. -/
def execVfEnableSet (p n : Nat) (s : State) : Host.Outcome State Fault Refusal :=
  if !s.functionExists p 0 || s.host.vfEnable.getD p false || s.totalVfs p < n || !s.hostResets then .next s
  else
    let s := s.modHost fun h => { h with vfEnable := putAt p true h.vfEnable }
    let s := (List.range n).foldl (fun s i => s.flag (F.HIF_CTRL_EXIST_EXIST.at (16 * p + i + 1))) s
    .next (s.setFld (F.HIF_PORT_STATUS_NUMVFS p) n)

/-- An NVM subsystem reset (R117): every controller of both ports, and both links retrain. -/
def State.subsystemReset (s : State) : State :=
  if !s.hostResets then s
  else
    let s := (((s.clearVfs 0).clearVfs 1).dropControllers fun _ => true).clearFunctions fun _ => true
    (((s.linkFalls 0).linkFalls 1).trainLink 0).trainLink 1

/-! ### Controller registers (R115, R116, R267) -/

/-- CAP of every controller (R267), in the layout of NVMe (assumption log 13): MQES 0x3FFF, CQR, weighted round robin, TO 0x78
(R116), DSTRD 0, NSSRS, the NVM and the I/O command sets, MPSMIN and MPSMAX 0. -/
def controllerCap : Nat := 0x3FFF + 2 ^ 16 + 2 ^ 17 + 2 ^ 24 * 0x78 + 2 ^ 36 + 2 ^ 37 + 2 ^ 43

/-- What a host's memory read of a controller register answers from link-up on (R115): CAP, VS, CC.EN with CC.CSS, and CSTS. -/
def State.controllerRegister (s : State) (c offset : Nat) : Option Nat :=
  match s.controller c with
  | none => none
  | some x =>
    if !s.on (F.HIF_PORT_STATUS_LINK_UP (c / 16)) then none
    else
      let bit (b : Bool) (i : Nat) : Nat := if b then 2 ^ i else 0
      match offset with
      | 0x00 => some controllerCap
      | 0x08 => some 0x00020000
      | 0x14 => some (bit x.enabled 0 + 2 ^ 4 * x.css)
      | 0x1C => some (bit (s.on (F.HIF_CTRL_RDY_RDY.at c)) 0 + bit (s.on (F.HIF_CFS_CFS.at c)) 1 + bit x.paused 5)
      | _ => none

/-! ### Controller resets (R117, R118) -/

/-- CONTROLLER_RESET (R117, R118): CC.EN goes from 1 to 0. -/
def execControllerReset (c : Nat) (s : State) : Host.Outcome State Fault Refusal :=
  match s.controller c with
  | some x => if x.enabled && s.hostResets then .next (s.dropController c) else .next s
  | none => .next s

/-- CONTROLLER_ENABLE (R116): CC.EN is written as 1, with CC.CSS and the admin queues. -/
def execControllerEnable (c css asqs acqs : Nat) (s : State) : Host.Outcome State Fault Refusal :=
  match s.controller c with
  | none => .next s
  | some x =>
    if x.enabled || x.offline || !s.functionExists (c / 16) (c % 16) || !s.hostResets || !s.on (F.HIF_PORT_STATUS_LINK_UP (c / 16)) then
      .next s
    else
      let s := s.modController c fun y => { y with enabled := true, css := css, asqs := asqs, acqs := acqs }
      let sq : Ring := { num := s.sqRing c 0, size := asqs, head := 0, tail := 0, qprio := 0, link := 0, entries := [] }
      let cq : Ring := { num := s.cqRing c 0, size := acqs, head := 0, tail := 0, qprio := 0, link := 0, entries := [] }
      .next (s.modHost fun h => { h with rings := h.rings ++ [sq, cq] })

/-- The Pattern is locked (R64). -/
def State.lockPattern (s : State) : State := s.flag F.PAT_STATUS_LOCKED

/-! ### Transport errors (R265) -/

/-- The command of a slot ends with Data Transfer Error: a write is discarded whole; of a read nothing more is transferred. -/
def State.transferFails (s : State) (n : Nat) : State :=
  match s.slot n with
  | none => s
  | some x =>
    if x.isWrite then (if x.visible then s else s.discardWrite n (some Nvme.dataTransferError))
    else if x.isRead && x.readPoint then
      let s := s.dropUnissued { x with status := Nvme.dataTransferError }
      (s.modSlot n fun y => { y with status := Nvme.dataTransferError }).readDone n
    else (s.dropOps n).completeSlot n Nvme.dataTransferError 0

/-- TLP_ERROR (R265). -/
def execTlpError (e : TlpError) (p c n : Nat) (s : State) : Host.Outcome State Fault Refusal :=
  let mine := match s.slot n with | some x => x.skein == c && !x.orphan | none => false
  let bad := s.count (F.HIF_PORT_ERR_UNCORR p)
  if !s.portExists p then .next s
  else
    match e with
    | .writeData =>
      .next (if mine && (match s.slot n with | some x => x.stage == .xferIn | none => false) then bad.transferFails n else bad)
    | .listRead => .next (if mine then bad.transferFails n else bad)
    | .sqeRead => .next (bad.setCfs (2 ^ c) false)
    | .completionWrite => .next (bad.setCfs (2 ^ c) false)
    | .correctable => .next (s.count (F.HIF_PORT_ERR_CORR p))
    | .malformed => .next bad

/-! ### Commands of drive firmware -/

/-- HIF_AEN_POST (R281, R295): a write of the register with GO, to the controllers of HIF_AEN_MASK. -/
def State.aenPost (s : State) (type info : Nat) : State :=
  let s := (s.setFld F.HIF_AEN_POST_TYPE type).setFld F.HIF_AEN_POST_INFO info
  s.postAsync (s.fld F.HIF_AEN_POST_TYPE) (s.fld F.HIF_AEN_POST_INFO) fun c => s.on (F.HIF_AEN_MASK_MASK.at c)

/-- HIF_AEN_POST (R281). -/
def execHifAenPost (type info : Nat) (s : State) : Host.Outcome State Fault Refusal := .next (s.aenPost type info)

/-- HIF_CFS_SET (R295). -/
def execHifCfsSet (mask : Nat) (s : State) : Host.Outcome State Fault Refusal := .next (s.setCfs mask false)

/-- FETCH_HOLD (R296). -/
def execFetchHold (mask : Nat) (s : State) : Host.Outcome State Fault Refusal := .next (s.setFld F.QUE_FETCH_HOLD_HOLD mask)

/-- INTERRUPT_COALESCE_TIMER (R279): the aggregation time of a vector with completions waiting ends. -/
def execInterruptCoalesceTimer (c vector : Nat) (s : State) : Host.Outcome State Fault Refusal :=
  match s.controller c with
  | none => .next s
  | some x =>
    if (kget vector x.coalescing).isNone then .next s
    else .next ((s.modController c fun y => { y with coalescing := kdel vector y.coalescing }).send (.interrupt c vector))

end Sys2Proof.Machine
end

