-- ==== Sys2Proof/Machine/Pairs.lean ====
section
/-!
DEFINITION. Sys2Proof/Machine/Pairs.lean: lockstep faults of the core pairs (R14), the takeover by SPARE or by the pair that
a hand-over leaves free (R15, R36, R362, R457), and the faults with no takeover resource (R364).
-/

namespace Sys2Proof.Machine

/-- The pair that can take over from pair p: SPARE in STANDBY or STAGING, or the pair of a hand-over in one of them. -/
def State.takeoverPair (s : State) (p : Nat) : Option Nat :=
  let ready (k : Nat) : Bool := k != p && (s.pairState k == 3 || s.pairState k == 4)
  if ready 5 then some 5 else (List.range 5).find? ready

/-- The controllers that pair p serves: a front pair its Skeins, a media pair the controllers attached to a namespace of its
actuator (R364). -/
def State.controllersOfPair (s : State) (p c : Nat) : Bool :=
  if p < 3 then ((s.entryOf c).map fun e => e.frontPair == p).getD false
  else s.pattern.active.host.namespaces.any fun n => n.act == p - 3 && n.controllers.testBit c

/-- Pair p is lost with no takeover resource (R364). -/
def State.uncoveredPair (s : State) (p : Nat) : State :=
  let s := (s.setCfs (s.controllerMask (s.controllersOfPair p)) true).uncovered
  if p < 3 then s.dropControllers (s.controllersOfPair p) else s

/-- The pair whose work pair k does: itself, or the one it stands in for; 0xF for none. -/
def State.worksFor (s : State) (k : Nat) : Nat :=
  if s.pairState k = 1 then k
  else if s.pairState k = 5 then (if k = 5 then s.fld F.SYS_PAIR_STATUS_SPARE_FOR else s.fld F.UPD_HANDOVER_X_FOR)
  else 15

/-- A lockstep fault of pair p (R14): it is fenced in the cycle of detection. -/
def State.lockstepFault (s : State) (p : Nat) : State :=
  let st := s.pairState p
  if 5 < p || st == 0 || st == 2 then s
  else
    let work := s.worksFor p
    let covered := (s.takeoverPair p).isSome && (s.pair p).checkpoint.isSome
    let s := s.abortActivation 0x0E
    let s := s.setFld (pairFld p) 2
    let s := if p = 5 then (s.setFld F.SYS_PAIR_STATUS_SPARE_FOR 15).smartSet 2 else s
    if 5 ≤ work then s
    else if covered then s.modPair p fun x => { x with takeover := true, takeoverFor := work }
    else s.uncoveredPair work

/-- LOCKSTEP_MISMATCH (R14). -/
def execLockstepMismatch (p : Nat) (s : State) : Host.Outcome State Fault Refusal := .next (s.lockstepFault p)

/-- An undo log is applied: the newest prior value first (R15). -/
def State.applyUndo (s : State) (p : Nat) : State :=
  let s := (s.pair p).undo.foldl (fun (s : State) u => s.store u.space u.addr u.bytes) s
  s.modPair p fun x => { x with undo := [], stalled := [] }

/-- Pair k stands in for the work of pair `work`, from the checkpoint of pair p, whose Row it executes again (R15, R362,
R345). -/
def State.standInPair (s : State) (p k work : Nat) : State :=
  let c := (s.pair p).checkpoint
  let s := (s.applyUndo p).modPair p fun x => { x with takeover := false, checkpoint := none }
  let s := s.modPair k fun x =>
    { x with checkpoint := c, undo := [], stalled := [], regs := (c.map (·.regs)).getD x.regs,
             requests := (c.map (·.requests)).getD x.requests, replay := c.map (·.row) }
  let s := s.modFlow fun f => { f with claims := replaceIf (fun c => c.owner == p) (fun c => { c with owner := k }) f.claims }
  let s := if k = work then s.setFld (pairFld k) 1
    else if k = 5 then (s.setFld (pairFld 5) 5).setFld F.SYS_PAIR_STATUS_SPARE_FOR work
    else (s.setFld (pairFld k) 5).setFld F.UPD_HANDOVER_X_FOR work
  s.noteFault.resourceHeld F.DRN_FAILOVER_PAIR

/-- PAIR_TAKEOVER (R362): at the boundary after a mismatch. -/
def execPairTakeover (s : State) : Host.Outcome State Fault Refusal :=
  match (List.range 6).find? fun p => (s.pair p).takeover with
  | none => .next s
  | some p =>
    let work := (s.pair p).takeoverFor
    match s.takeoverPair p with
    | some k => .next (s.standInPair p k work)
    | none => .next ((s.modPair p fun x => { x with takeover := false }).uncoveredPair work)

end Sys2Proof.Machine
end

