-- ==== Sys2Proof/Machine/Memory.lean ====
section
/-!
DEFINITION. Sys2Proof/Machine/Memory.lean: memory protection (chapter 15): the memory scrubber, the page decode, remapping,
retirement and repair of DRAM pages, and the SRAM patrol. A page is numbered within its die, a granule within the die's data
space; a granule of a page is one of 64.
-/

namespace Sys2Proof.Machine

/-- The Memory panel kind of the region a page lies in; 0 none (R47). -/
def State.regionOf (s : State) (die page : Nat) : Nat :=
  ((s.pattern.active.memory.find? fun r =>
    r.dieMask.testBit die && r.base ≤ page / 256 && page / 256 < r.base + r.size).map (·.kind)).getD 0

/-- WRITE_CACHE, READ_CACHE and HOST_BUFFER hold buffer pages (R376). -/
def bufferRegion (kind : Nat) : Bool := kind == 2 || kind == 3 || kind == 6

/-- MEM_LAST_ERR shows an error of a kind at a data-space offset (R382). -/
def State.lastMemError (s : State) (die addr kind : Nat) : State :=
  (((s.setFld F.MEM_LAST_ERR_LO_ADDR addr).setFld F.MEM_LAST_ERR_HI_DIE die).setFld F.MEM_LAST_ERR_HI_KIND kind).setFld
    F.MEM_LAST_ERR_HI_REGION (s.regionOf die (addr / 4096))

/-- A MEM_ERROR event with the address and the region (R381). -/
def State.memEvent (s : State) (die addr : Nat) : State :=
  s.event 21 1 3 addr (die + 0x100 * s.regionOf die (addr / 4096))

/-- Pages of a die retired of both kinds, against RETIRE_WARN (R381). -/
def State.retireWatch (s : State) (die : Nat) : State :=
  let high := if die = 0 then F.MEM_STATUS_RETIRE_HIGH_0 else F.MEM_STATUS_RETIRE_HIGH_1
  if s.fld F.MEM_THRESH_RETIRE_WARN < s.fld (F.MEM_RETIRE_RETIRED_SPARE die) + s.fld (F.MEM_RETIRE_RETIRED_BUF die) && !s.on high then
    ((s.flag high).flag F.MEM_EV_RETIRE_HIGH).event 21 2 4 die 0
  else s

/-- A buffer page has gone to quarantined, where later cast-ons find it (R376). -/
def State.bufferRetired (s : State) (die page : Nat) : State :=
  let s := s.modProt fun p => { p with quarantined := p.quarantined ++ [(page, die)] }
  let s := ((s.setFld (F.MEM_RETIRE_RETIRED_BUF die) (s.fld (F.MEM_RETIRE_RETIRED_BUF die) + 1)).flag F.MEM_EV_RETIRED).memEvent die (4096 * page)
  s.retireWatch die

/-- A page of another region is redirected to a spare page, while its table has room (R376). -/
def State.retireToSpare (s : State) (die page : Nat) : State :=
  if 1024 ≤ (s.prot.retired.filter fun r => r.2 == die).length then s
  else
    let s := s.modProt fun p => { p with retired := p.retired ++ [(page, die)] }
    let s := s.setFld (F.MEM_RETIRE_RETIRED_SPARE die) (s.fld (F.MEM_RETIRE_RETIRED_SPARE die) + 1)
    ((s.flag F.MEM_EV_RETIRED).memEvent die (4096 * page)).retireWatch die

/-- A ladder run starts over from step 1 (R379). -/
def State.restartRun (s : State) (id : Nat) : State :=
  match s.darn.runs.find? fun r => r.id == id with
  | none => s
  | some r =>
    let r' := { r with step := s.nextStep r 0 }
    ((s.dropLadderOps r).modRun id fun _ => r').stepReads r'

/-- A page that serves no longer: a page of a buffer region waits for its repair to be posted, another one goes to a spare page
with its content brought back from its other source (R376, R379). `good`: the content could be read. -/
def State.retirePage (s : State) (die page : Nat) (holds : PageHolds) (good : Bool) : State :=
  if bufferRegion (s.regionOf die page) then
    s.modProt fun p => { p with repairs := p.repairs ++ [{ die := die, page := page, holds := holds, good := good }] }
  else
    let s := s.retireToSpare die page
    if good then s
    else
      match holds with
      | .leaf k => s.uncovered.startRebuild k
      | .ladder runs => runs.foldl State.restartRun s
      | .code copyOk pair => if copyOk then s else s.lockstepFault pair
      | _ => s

/-- A granule is redirected to a spare granule; with the table full its page is retired (R375). -/
def State.remapGranule (s : State) (die page granule : Nat) (holds : PageHolds) : State :=
  let g := 64 * page + granule % 64
  if s.prot.remap.contains (g, die) then s
  else if 64 ≤ s.prot.remap.length then
    ((s.flag F.MEM_STATUS_REMAP_FULL).flag F.MEM_EV_REMAP_FULL).retirePage die page holds true
  else
    let s := s.modProt fun p => { p with remap := p.remap ++ [(g, die)] }
    ((s.setFld F.MEM_REMAP_STATUS_USED s.prot.remap.length).flag F.MEM_EV_REMAPPED).memEvent die (64 * g)

/-- Corrected errors of a granule so far. -/
def State.correctedOf (s : State) (g die : Nat) : Nat :=
  ((s.prot.corrected.find? fun e => e.1 == g && e.2.1 == die).map (·.2.2)).getD 0

/-- A corrected word of a granule (R375, R381). -/
def State.wordCorrected (die page : Nat) (holds : PageHolds) (s : State) (granule : Nat) : State :=
  let g := 64 * page + granule % 64
  let n := s.correctedOf g die + 1
  let s := ((s.count (F.MEM_ERR_WORD_CE die)).flag F.MEM_EV_WORD_CE).lastMemError die (64 * g) 0
  let s := s.modProt fun p =>
    { p with corrected := (p.corrected.filter fun e => !(e.1 == g && e.2.1 == die)) ++ [(g, die, n)],
             flipped := p.flipped.filter fun b => !(b.1 == die && b.2 / 512 == g) }
  if s.fld F.MEM_THRESH_HARD_CE ≤ n then s.remapGranule die page granule holds else s

/-- An uncorrectable word of a granule (R370, R375, R381). -/
def State.wordLost (die page : Nat) (holds : PageHolds) (s : State) (granule : Nat) : State :=
  let g := 64 * page + granule % 64
  let s := (((s.count (F.MEM_ERR_WORD_UE die)).flag F.MEM_EV_WORD_UE).lastMemError die (64 * g) 1).memEvent die (64 * g)
  if s.prot.writtenBack.contains (g, die) then s.remapGranule die page granule holds else s

/-- A pass begins anew when the scrubber comes back to an earlier page. -/
def State.scrubAt (s : State) (die page : Nat) : State :=
  let behind := die * 2 ^ 20 + page ≤ s.fld F.MEM_STATUS_SCRUB_DIE * 2 ^ 20 + s.fld F.MEM_STATUS_SCRUB_PAGE
  let s := if behind then s.modProt fun p => { p with fixedOnce := [] } else s
  (s.setFld F.MEM_STATUS_SCRUB_PAGE page).setFld F.MEM_STATUS_SCRUB_DIE die

/-- SCRUB_BUSY: a scrub read is outstanding. -/
def State.scrubBusy (s : State) : State := s.setBit F.MEM_STATUS_SCRUB_BUSY (!s.prot.decoding.isEmpty)

/-- MEMORY_SCRUB_READ (R378, R369, R370): words corrected are written back; an uncorrectable word or a failed page code starts
the decode of the page. -/
def execMemoryScrubRead (die page : Nat) (corrected uncorrectable : List Nat) (codeOk : Bool) (holds : PageHolds) (s : State) :
    Host.Outcome State Fault Refusal :=
  if !s.on F.MEM_CTRL_SCRUB_EN || 2 ≤ die || s.regionOf die page == 0 || s.prot.quarantined.contains (page, die) ||
      s.prot.retired.contains (page, die) || (s.prot.decoding.any fun d => d.1 == page && d.2.1 == die) then .next s
  else
    let s := s.scrubAt die page
    let s := corrected.foldl (State.wordCorrected die page holds) s
    let s := uncorrectable.foldl (State.wordLost die page holds) s
    let s := if uncorrectable.isEmpty && codeOk then s
      else s.modProt fun p => { p with decoding := p.decoding ++ [(page, die, uncorrectable)] }
    .next s.scrubBusy

/-- PAGE_DECODE_DONE (R370, R376, R379): e symbol errors and f erasures, four for each uncorrectable word, are corrected
whenever 2e + f is at most 16. -/
def execPageDecodeDone (die page symbolErrors : Nat) (holds : PageHolds) (s : State) : Host.Outcome State Fault Refusal :=
  match s.prot.decoding.find? fun d => d.1 == page && d.2.1 == die with
  | none => .next s
  | some d =>
    let s := s.modProt fun p => { p with decoding := p.decoding.filter fun x => !(x.1 == page && x.2.1 == die) }
    let s := s.scrubBusy
    if 2 * symbolErrors + 4 * d.2.2.length ≤ 16 then
      let s := ((s.count (F.MEM_PAGE_PAGE_FIXED die)).flag F.MEM_EV_PAGE_FIXED).lastMemError die (4096 * page) 2
      let s := (s.memEvent die (4096 * page)).modProt fun p =>
        { p with writtenBack := p.writtenBack ++ d.2.2.map fun g => (64 * page + g % 64, die),
                 flipped := p.flipped.filter fun b => !(b.1 == die && b.2 / 32768 == page) }
      if s.prot.fixedOnce.contains (page, die) then .next (s.retirePage die page holds true)
      else .next (s.modProt fun p => { p with fixedOnce := p.fixedOnce ++ [(page, die)] })
    else
      let s := ((s.count (F.MEM_PAGE_PAGE_UE die)).flag F.MEM_EV_PAGE_UE).lastMemError die (4096 * page) 3
      .next ((s.memEvent die (4096 * page)).retirePage die page holds false)

/-! ### Posting a repair (R380) -/

/-- A page of a class goes to quarantined and a free page takes its place, in one transfer set. -/
def State.swapPage (s : State) (c : Nat) : State := s.transferSet [(Class.free, c, 1), (c, Class.quarantined, 1)]

/-- A repair that finds its page in another class. -/
def State.repairAborts (s : State) : State := s.flag F.MEM_EV_REPAIR_ABORT

/-- The write of a slot still holds its sector i in dirty pages. -/
def State.dirtyAt (s : State) (n i d : Nat) : Option Slot :=
  (s.slot n).filter fun x => x.isWrite && !x.mediaComplete && x.done ≤ i && i < x.shown && x.dla + i == d

/-- Post one repair; none while it needs a free page and there is none. -/
def State.postRepair (s : State) (r : PageRepair) : Option State :=
  match r.holds with
  | .free =>
    if s.avail Class.free = 0 then some s.repairAborts
    else some ((s.transfer Class.free Class.quarantined 1).bufferRetired r.die r.page)
  | .clean d =>
    if s.flow.clean.any fun c => c.dla == d then some ((s.pullClean d Class.quarantined).bufferRetired r.die r.page)
    else some s.repairAborts
  | .dirty n i d mirror copyOk =>
    match s.dirtyAt n i d with
    | none =>
      -- media completion came first: the page is clean data now, and is dropped
      let s := s.repairAborts
      if s.flow.clean.any fun c => c.dla == d then some ((s.pullClean d Class.quarantined).bufferRetired r.die r.page) else some s
    | some x =>
      if r.good || copyOk then
        let s := s.reclaim 1
        if s.avail Class.free = 0 then none
        else some ((s.swapPage (if mirror then Class.dirtyMirror else Class.dirtyPrimary)).bufferRetired r.die r.page)
      else some ((s.loseWrite x).uncovered.bufferRetired r.die r.page)
  | .hostIn n =>
    match s.slot n with
    | none => some s.repairAborts
    | some x =>
      if x.stage != .xferIn || x.pages == 0 then some s.repairAborts
      else
        let s := s.reclaim 1
        if s.avail Class.free = 0 then none else some ((s.swapPage Class.hostIn).bufferRetired r.die r.page)
  | .mediaOut n i =>
    match s.slot n with
    | none => some s.repairAborts
    | some x =>
      if !x.isRead || x.lbas ≤ i || x.sent.getD i true || x.src.getD i 0 != 0 then some s.repairAborts
      else
        let s := s.reclaim 1
        if s.avail Class.free = 0 then none
        else
          let s := (s.swapPage Class.mediaOut).bufferRetired r.die r.page
          match r.good || (x.got.getD i none).isNone, s.resolve (x.dla + i) with
          | false, .at p =>
            let y := { x with got := putAt i none x.got, stage := .media }
            some ((s.modSlot n fun _ => y).addReads y [(x.dla + i, p)])
          | _, _ => some s
  | _ => some s

/-- REPAIR_POST (R380): the class changes of the oldest repair are posted as one transfer set, held until the boundary from
guard start on (R29). -/
def execRepairPost (s : State) : Host.Outcome State Fault Refusal :=
  match s.prot.repairs with
  | [] => .next s
  | r :: rest =>
    match s.postRepair r with
    | none => .next s
    | some t => .next (t.modProt fun p => { p with repairs := rest ++ p.repairs.drop (rest.length + 1) })

/-! ### SRAM (R373) -/

/-- An uncorrectable SRAM word, by what it holds. -/
def State.sramLost (s : State) : SramContents → State
  | .slice i => s.faultSlice i 2
  | .needle n => s.internalFault n
  | .stitchMap k => s.startRebuild k
  | .zoneTable z => s.startRebuild (zonePart z)
  | .slotContext n =>
    let s := s.flag F.SRM_EV_CTX_UE
    match s.slot n with
    | none => s
    | some x => (s.setCfs (2 ^ x.skein) true).uncovered
  | .firmware proc => (s.flag F.SRM_EV_UE).modBus fun _ => { proc := proc, value := 0, error := true }
  | .checkpoint p => s.modPair p fun x => { x with checkpoint := none }

/-- SRAM_PATROL (R373). -/
def execSramPatrol (offset : Nat) (corrected : Bool) (uncorrectable : Option SramContents) (s : State) :
    Host.Outcome State Fault Refusal :=
  if 48 * 2 ^ 20 ≤ offset then .next s
  else
    match uncorrectable with
    | some c => .next (((s.count F.SRM_ERR_UE).setFld F.SRM_LAST_ERR_OFFSET offset).sramLost c)
    | none => .next (if corrected then (s.count F.SRM_ERR_CE).flag F.SRM_EV_CE else s)

/-- The entries of a leaf, named by its lowest LSTART, whose PENDING flag is set are journaled again (R379). -/
def State.journalPending (s : State) (k : Nat) : State :=
  (((s.stitch.leaves.find? fun l => leafKey l == k).getD []).filter (·.pending)).foldl (fun (s : State) e =>
    s.journalOne (.map e (s.zdesc (e.lstart / zoneSectors)).gen none) (some e) (e.lstart / zoneSectors)) s

/-- LEAF_REBUILD_DONE (R253, R379). -/
def execLeafRebuildDone (leaf : Nat) (s : State) : Host.Outcome State Fault Refusal :=
  if s.stitch.rebuilding.contains leaf then .next ((s.journalPending leaf).endRebuild leaf) else .next s

end Sys2Proof.Machine
end

