-- ==== Sys2Proof/Machine/Cipher.lean ====
section
/-!
DEFINITION. Sys2Proof/Machine/Cipher.lean: the cipher engine (chapter 17): key slots and their banks, the Hook sequencer's
instructions, block cores and tokens, enabling, and firmware jobs. A thread takes the next waiting sector when the first
instruction of its program is carried out. Key slots are banks of State.cip, no registers.
-/

namespace Sys2Proof.Machine

/-! ### Key slots (R416 to R421) -/

/-- Key slot k. -/
def State.keySlot (s : State) (k : Nat) : KeySlot := s.cip.slots.getD k KeySlot.reset

/-- The state with key slot k changed. -/
def State.modKeySlot (s : State) (k : Nat) (f : KeySlot → KeySlot) : State := s.modCip fun c => { c with slots := updAt k f c.slots }

/-- The state with Hook thread th changed. -/
def State.modThread (s : State) (th : Nat) (f : HookThread → HookThread) : State :=
  s.modCip fun c => { c with threads := updAt th f c.threads }

/-- Hook thread th. -/
def State.thread (s : State) (th : Nat) : HookThread := s.cip.threads.getD th HookThread.reset

/-- The bank an operation uses: the old one while it is pinned there, otherwise the current one (R418). -/
def KeySlot.bankOf (k : KeySlot) (op : Nat) : Option Bank :=
  if k.pinnedOld.contains op then (if k.current = 0 then k.bank1 else k.bank0) else k.bank

/-- The usage limit of a slot's current bank (R420). -/
def usageLimit (mode : Nat) : Nat := if mode = 1 then 2 ^ 32 else 2 ^ 36

/-- A step of the usage reservation (R421). -/
def usageStep (mode : Nat) : Nat := if mode = 1 then 2 ^ 24 else 2 ^ 28

/-- The reservation that the Lifeline settings hold for a zone key (R421). -/
def State.reservationOf (s : State) (nsid zone gen : Nat) : Nat :=
  ((s.cip.reservations.find? fun r => r.1 == nsid && r.2.1 == zone && r.2.2.1 == gen).map (·.2.2.2)).getD 0

/-- Operations pinned that still run; 0 is the firmware job. -/
def State.livePins (s : State) (l : List Nat) : List Nat :=
  l.filter fun id => if id = 0 then s.on F.CIP_JOB_STATUS_BUSY else (s.op id).isSome

/-- Load a key into a slot's inactive bank, which becomes the current one; none while the old bank still drains (R418, R421). -/
def State.loadBank (s : State) (k : Nat) (b : Bank) : Option State :=
  let x := s.keySlot k
  if x.draining then none
  else
    let old := s.livePins x.pinnedCur
    let res := if x.test then 0 else s.reservationOf b.nsid b.zone b.generation
    let keep (o : Option Bank) : Option Bank := if old.isEmpty then none else o
    some (s.modKeySlot k fun y =>
      { y with current := 1 - y.current,
               bank0 := if y.current = 0 then keep y.bank0 else some b, bank1 := if y.current = 0 then some b else keep y.bank1,
               draining := !old.isEmpty, pinnedOld := old, pinnedCur := [], use := res, reservation := res,
               exhausted := usageLimit b.mode ≤ res })

/-- BANK_DRAIN_END (R418): the old bank's last operation has ended, and the bank is zeroised. -/
def execBankDrainEnd (k : Nat) (s : State) : Host.Outcome State Fault Refusal :=
  let x := s.keySlot k
  if !x.draining || !(s.livePins x.pinnedOld).isEmpty then .next s
  else
    .next (s.modKeySlot k fun y =>
      { y with draining := false, pinnedOld := [], bank0 := if y.current = 0 then y.bank0 else none,
               bank1 := if y.current = 0 then none else y.bank1 })

/-! ### Work that ends early -/

/-- A thread gives up its sector; its blocks in a core return to no register. -/
def State.dropThread (s : State) (th : Nat) : State :=
  s.modCip fun c =>
    { c with threads := updAt th (fun _ => HookThread.reset) c.threads,
             cores := c.cores.map fun l => l.map fun b => if b.thread = th then { b with reg := 8 } else b }

/-- The work of an operation leaves the queue and, when `begun`, the threads. -/
def State.dropWorkOf (s : State) (op : Nat) (begun : Bool) : State :=
  let s := s.modCip fun c => { c with queue := c.queue.filter fun w => w.op != op }
  (List.range 4).foldl (fun s th =>
    match (s.thread th).work with
    | some w => if w.op = op && (begun || !(s.thread th).begun) then s.dropThread th else s
    | none => s) s

/-- A firmware job ends (R429). -/
def State.endJob (s : State) (result : Nat) : State := s.modCip fun c => { c with jobResult := some result }

/-- Sectors of a read that are taken anew from the media: those framed whose result has not been acted on. -/
def State.rereadOp (s : State) (o : MediaOp) : State :=
  (o.framed.filter fun k => !o.settled.contains k).foldl (fun s k =>
    match s.op o.id with
    | some o => s.readAgain o k
    | none => s) s

/-- An operation's cipher work is refused: the operation goes back to wait for its key or the engine (R417, R420, R428). -/
def State.refuseWork (s : State) (op : Nat) : State :=
  let s := s.dropWorkOf op false
  if op = 0 then s.endJob 1
  else
    match s.op op with
    | none => s
    | some o =>
      if o.kind == .write then (s.modOp op fun p => { p with keySlot := none }).withdraw { o with keySlot := none }
      else s.rereadOp o

/-- An operation pinned to an erased bank ends with KEY_ERASED (R419). -/
def State.keyErased (s : State) (op : Nat) : State :=
  let s := s.dropWorkOf op true
  if op = 0 then s.endJob 1
  else
    match s.op op with
    | none => s
    | some o =>
      if o.kind == .write then (s.modOp op fun p => { p with keySlot := none }).withdraw { o with keySlot := none }
      else
        match o.slot.bind s.slot with
        | none => s.rereadOp o
        | some x =>
          let missing := match s.opKeyTag o with
            | some t => !(s.tir.injected.any fun k => k.1 == x.sqe.nsid && k.2.1 == t)
            | none => false
          let status := if missing then 0x7C1 else 0x7C0
          let s := ((List.range x.lbas).filter fun i => !x.sent.getD i true).foldl (fun (s : State) i =>
            s.sendPoison x i (4096 + s.piBytes x)) s
          let s := s.modFlow fun f => { f with ops := f.ops.filter fun q => q.slot != some x.num }
          let s := s.modSlot x.num fun y => { y with status := status, unproven := [], sent := y.sent.map fun _ => true }
          ((List.range x.lbas).filter fun i => !(x.got.getD i (some ([], []))).isSome).foldl (fun s i => s.failSector x.num i status) s

/-- Both banks of a slot are zeroised (R419). -/
def State.eraseKeySlot (s : State) (k : Nat) : State :=
  let x := s.keySlot k
  let pins := s.livePins (x.pinnedOld ++ x.pinnedCur)
  let s := s.modKeySlot k fun y =>
    { y with bank0 := none, bank1 := none, draining := false, pinnedOld := [], pinnedCur := [], use := 0, reservation := 0, exhausted := false }
  if pins.isEmpty then s else (pins.foldl State.keyErased s).flag F.CIP_EV_KEY_ERASED

/-- Key slots that a test picks are erased. -/
def State.eraseKeySlots (s : State) (p : Nat → Bool) : State := ((List.range 128).filter p).foldl State.eraseKeySlot s

/-- KEY_SLOT_ERASE (R419): CIP_SLOT_CMD.ERASE of the slot that CIP_SLOT_SEL names. -/
def execKeySlotErase (s : State) : Host.Outcome State Fault Refusal :=
  if !s.hasCipher then .next s else .next (s.eraseKeySlot (s.fld F.CIP_SLOT_SEL_SLOT))

/-- TESTKEY_LOAD (R416, R418): into a TEST slot only; it waits while the slot drains. -/
def execTestkeyLoad (alg mode k : Nat) (s : State) : Host.Outcome State Fault Refusal :=
  if !s.hasCipher then .next s
  else if 112 ≤ k || !(s.keySlot k).test || alg == 0 || 3 < alg || 3 < mode then .next (s.flag F.CIP_EV_KEY_MISMATCH)
  else
    let key : BitVec 512 := BitVec.ofNat 512 ((s.cip.testKey.zipIdx).foldl (fun m w => m + w.1.toNat * 2 ^ (32 * w.2)) 0)
    let h := if mode = 1 then blockEncrypt alg (keyPart alg mode 0 key) 0 else 0
    let b : Bank := { alg := alg, mode := mode, key := key, nsid := 0, zone := 0, generation := 0, keyTag := none, h := h }
    match s.loadBank k b with
    | none => .next s
    | some s => .next (s.modCip fun c => { c with testKey := [] })

/-! ### Block cores and tokens (R408, R409, R427) -/

/-- A core that passed its tests and has not faulted. -/
def State.coreOk (s : State) (c : Nat) : Bool := c < 4 && s.on (F.CIP_STATUS_CORE_OK.at c)

/-- The token transfers that have gathered for a core are posted (R427). -/
def State.postTokens (s : State) (c : Nat) : State :=
  let taken := s.cip.taken.getD c 0
  let freed := s.cip.freed.getD c 0
  let s := s.modCip fun x => { x with taken := putAt c 0 x.taken, freed := putAt c 0 x.freed }
  (s.transfer (Class.tokenFree c) (Class.tokenHeld c) taken).transfer (Class.tokenHeld c) (Class.tokenFree c) freed

/-- TOKEN_POST (R427): every 256 cycles and at guard start. -/
def execTokenPost (s : State) : Host.Outcome State Fault Refusal :=
  if s.hasCipher then .next ((List.range 4).foldl State.postTokens s) else .next s

/-- The sector of a thread runs again from its first block, on another core. -/
def State.requeueThread (s : State) (th : Nat) : State :=
  match (s.thread th).work with
  | none => s
  | some w => (s.dropThread th).modCip fun c => { c with queue := { w with avoid := th } :: c.queue }

/-- A core is marked faulted (R409). -/
def State.faultCore (s : State) (c : Nat) : State :=
  let s := (s.clr (F.CIP_STATUS_CORE_OK.at c)).flag F.CIP_EV_CORE_FAULT
  let s := s.event 23 1 5 c 0
  let s := s.modCip fun x => { x with faulted := x.faulted ||| 2 ^ c }
  let s := s.postTokens c
  let s := s.transfer (Class.tokenHeld c) (Class.tokenFree c) (s.cip.cores.getD c []).length
  (s.modCip fun x => { x with cores := putAt c [] x.cores }).requeueThread c

/-- CIPHER_CORE_FAULT (R409). -/
def execCipherCoreFault (c : Nat) (s : State) : Host.Outcome State Fault Refusal :=
  if s.coreOk c then .next (s.faultCore c) else .next s

/-- BLOCK_RETURN (R412, R427): the oldest block of a core returns to its register and frees its token. -/
def execBlockReturn (c : Nat) (s : State) : Host.Outcome State Fault Refusal :=
  match s.cip.cores.getD c [] with
  | [] => .next s
  | b :: rest =>
    let s := s.modCip fun x => { x with cores := putAt c rest x.cores, freed := updAt c (· + 1) x.freed }
    .next (s.modThread b.thread fun t => { t with regs := putAt b.reg (.ready b.result) t.regs })

/-! ### Enabling and disabling (R413, R415, R428) -/

/-- CIPHER_ENABLE (R415). -/
def execCipherEnable (s : State) : Host.Outcome State Fault Refusal :=
  if !s.hasCipher || s.fld F.CIP_STATUS_STATE ≠ 0 then .next s
  else .next (((s.flag F.CIP_CTRL_ENABLE).setFld F.CIP_STATUS_STATE 1).clr F.CIP_STATUS_KAT_FAIL)

/-- KAT_DONE (R415): `passed` names the cores that passed every test. -/
def execKatDone (passed : Nat) (s : State) : Host.Outcome State Fault Refusal :=
  if s.fld F.CIP_STATUS_STATE ≠ 1 then .next s
  else
    let tested := (List.range 4).filter fun c => !s.cip.faulted.testBit c
    let good := tested.filter fun c => passed.testBit c
    if good.isEmpty then
      .next ((((s.clr F.CIP_CTRL_ENABLE).setFld F.CIP_STATUS_STATE 0).flag F.CIP_STATUS_KAT_FAIL).flag F.CIP_EV_KAT_FAIL)
    else
      let s := (s.setFld F.CIP_STATUS_STATE 2).setFld F.CIP_STATUS_CORE_OK (good.foldl (fun m c => m + 2 ^ c) 0)
      .next ((tested.filter fun c => !passed.testBit c).foldl State.faultCore s)

/-- CIPHER_DISABLE (R428): sectors not begun are refused, the others finish. -/
def execCipherDisable (s : State) : Host.Outcome State Fault Refusal :=
  let st := s.fld F.CIP_STATUS_STATE
  let s := s.clr F.CIP_CTRL_ENABLE
  if st = 1 then .next (s.setFld F.CIP_STATUS_STATE 0)
  else if st = 4 then .next (s.modCip fun c => { c with heldState := 0 })
  else if st = 2 then
    let s := s.setFld F.CIP_STATUS_STATE 3
    let idle := ((List.range 4).filterMap fun th => if (s.thread th).begun then none else (s.thread th).work.map (·.op))
    .next (((s.cip.queue.map (·.op)) ++ idle).eraseDups.foldl State.refuseWork s)
  else .next s

/-- CIPHER_DRAINED (R428). -/
def execCipherDrained (s : State) : Host.Outcome State Fault Refusal :=
  if s.fld F.CIP_STATUS_STATE = 3 && (s.cip.cores.all (·.isEmpty)) && (s.cip.threads.all fun t => t.work.isNone) then
    .next ((s.setFld F.CIP_STATUS_STATE 0).flag F.CIP_EV_DRAINED)
  else .next s

/-- HOOK_DATA_WRITE (R413): in OFF with HOOK_WE set; ADDR steps on. -/
def execHookDataWrite (v : Word) (s : State) : Host.Outcome State Fault Refusal :=
  if !s.hasCipher then .next s
  else if s.fld F.CIP_STATUS_STATE ≠ 0 then .next (s.flag F.CIP_EV_HOOK_WRITE_REFUSED)
  else if !s.on F.CIP_CTRL_HOOK_WE then .next s
  else
    let a := s.fld F.CIP_HOOK_ADDR_ADDR
    let s := s.modCip fun c => { c with program := putAt a v c.program }
    .next ((s.setFld F.CIP_HOOK_ADDR_ADDR (a + 1)).setFld F.CIP_HOOK_CRC_CRC (crc32c (s.cip.program.flatMap fun w => leBytes 4 w.toNat)).toNat)

/-- HOOK_BIND_WRITE (R413). -/
def execHookBindWrite (v : Word) (s : State) : Host.Outcome State Fault Refusal :=
  if !s.hasCipher then .next s
  else if s.fld F.CIP_STATUS_STATE ≠ 0 then .next (s.flag F.CIP_EV_HOOK_WRITE_REFUSED)
  else .next (s.setReg R.CIP_HOOK_BIND v)

/-! ### A sector on a thread (R410, R412, R413, R417, R420) -/

/-- The entry-table word of the program for a mode and direction. -/
def State.boundProgram (s : State) (w : CipherWork) : Nat :=
  s.fld (match w.mode, w.encrypt with
    | 0, true => F.CIP_HOOK_BIND_XTS_ENC
    | 0, false => F.CIP_HOOK_BIND_XTS_DEC
    | 1, true => F.CIP_HOOK_BIND_GCM_ENC
    | 1, false => F.CIP_HOOK_BIND_GCM_DEC
    | 2, true => F.CIP_HOOK_BIND_CTR_ENC
    | 2, false => F.CIP_HOOK_BIND_CTR_DEC
    | _, true => F.CIP_HOOK_BIND_CMAC_GEN
    | _, false => F.CIP_HOOK_BIND_CMAC_VER)

/-- The slot's bank is bound as the work asks (R417); a firmware job needs a key in a TEST slot. -/
def State.workBound (s : State) (w : CipherWork) : Bool :=
  let k := s.keySlot w.slot
  match k.bankOf w.op with
  | none => false
  | some b =>
    if w.op = 0 then k.test
    else
      !k.test && w.slot < 112 &&
        match s.op w.op with
        | none => false
        | some o => b.nsid == s.opNs o && b.zone == o.dla / zoneSectors && b.generation == o.zoneGen && b.keyTag == s.opKeyTag o

/-- What a sector or a job counts (R420). -/
def CipherWork.uses (w : CipherWork) : Nat := match w.mode with | 0 => 257 | 1 => 1 | _ => w.blocks.length

/-- A thread takes the next waiting sector that may run on its core. -/
def State.hookBegin (s : State) (th : Nat) : State :=
  if s.fld F.CIP_STATUS_STATE ≠ 2 || !s.coreOk th then s
  else
    let only := s.fld F.CIP_STATUS_CORE_OK = 2 ^ th
    match s.cip.queue.findIdx? fun w => w.avoid != th || only with
    | none => s
    | some i =>
      match s.cip.queue[i]? with
      | none => s
      | some w =>
        let s := s.modCip fun c => { c with queue := c.queue.eraseIdx i }
        let k := s.keySlot w.slot
        if !s.workBound w then (s.flag F.CIP_EV_KEY_MISMATCH).refuseWork w.op
        else if w.encrypt && !k.pinnedOld.contains w.op && (k.exhausted || usageLimit w.mode < k.use + w.uses) then
          let s := (s.modKeySlot w.slot fun y => { y with exhausted := true }).flag F.CIP_EV_KEY_EXHAUSTED
          let zone := ((s.op w.op).map fun o => o.dla / zoneSectors)
          let s := s.refuseWork w.op
          match zone with
          | some z => s.requireRewrite z
          | none => s
        else
          s.modThread th fun _ =>
            { HookThread.reset with work := some w, pc := (s.cip.program.getD (s.boundProgram w) 0).toNat % 1024, input := w.blocks }

/-- The next instruction: a LOOP goes back to its first word while it has turns left (R412). -/
def HookThread.advance (t : HookThread) : HookThread :=
  match t.loop with
  | some (first, count, left) =>
    if t.pc + 1 = first + count then
      if 1 < left then { t with pc := first, loop := some (first, count, left - 1) } else { t with pc := (t.pc + 1) % 1024, loop := none }
    else { t with pc := (t.pc + 1) % 1024 }
  | none => { t with pc := (t.pc + 1) % 1024 }

/-- Register Vn, when its value has returned. -/
def HookThread.v (t : HookThread) (n : Nat) : Option (BitVec 128) :=
  match t.regs.getD n (.ready 0) with
  | .ready x => some x
  | .waiting => none

/-- The thread with a register set, at its next instruction. -/
def HookThread.put (t : HookThread) (n : Nat) (x : BitVec 128) : HookThread := { t with regs := putAt n (.ready x) t.regs }.advance

def hookOp (w : Word) : Nat := getBits w 26 6
def hookD (w : Word) : Nat := getBits w 23 3
def hookA (w : Word) : Nat := getBits w 20 3
def hookB (w : Word) : Nat := getBits w 17 3
def hookImm (w : Word) : Nat := getBits w 0 17

/-- A thread's next instruction is carried out when it is one that a test picks; `act` answers none on a stall. -/
def State.hookInstr (s : State) (th : Nat) (mine : Nat → Bool) (act : State → CipherWork → HookThread → Word → Option State) : State :=
  let t := if (s.thread th).work.isNone then s.hookBegin th else s
  match (t.thread th).work with
  | none => t
  | some w =>
    let x := t.thread th
    let i := t.cip.program.getD x.pc 0
    if mine (hookOp i) then (act t w x i).getD s else s

/-- An instruction that computes Vd from values that have returned. -/
def State.hookCompute (s : State) (th op : Nat) (f : HookThread → Word → Option (BitVec 128)) : State :=
  s.hookInstr th (· == op) fun s _ t i =>
    match t.v (hookD i), f t i with
    | some _, some x => some (s.modThread th fun _ => t.put (hookD i) x)
    | _, _ => none

/-- HOOK_LDI (R412). A data block beyond the last one, and a source that IMM does not name, are free values. -/
def execHookLdi (th : Nat) (s : State) : Host.Outcome State Fault Refusal :=
  .next (s.hookInstr th (· == 1) fun s w t i =>
    match t.v (hookD i) with
    | none => none
    | some _ =>
      let known : Option (BitVec 128) := match hookImm i with
        | 0 => t.input.head?
        | 1 => some w.context
        | 2 => some w.aad0
        | 3 => some w.aad1
        | 4 => some w.tag
        | 5 => some ((((s.keySlot w.slot).bankOf w.op).map (·.h)).getD 0)
        | _ => none
      let (x, s) := match known with
        | some x => (x, s)
        | none => (BitVec.ofNat 128 s.draw.1, s.draw.2)
      let t := if hookImm i = 0 then { t with input := t.input.drop 1 } else t
      some (s.modThread th fun _ => t.put (hookD i) x))

/-- The operation is pinned to the current bank at its first block (R418), the encryption is counted and the reservation
renewed (R420, R421). -/
def State.countUse (s : State) (w : CipherWork) (first : Bool) : State :=
  s.modKeySlot w.slot fun k =>
    let old := k.pinnedOld.contains w.op
    let k := if old || k.pinnedCur.contains w.op then k else { k with pinnedCur := k.pinnedCur ++ [w.op] }
    let n := if !w.encrypt || old then 0 else if w.mode = 1 then (if first then 1 else 0) else 1
    let use := k.use + n
    { k with use := use, exhausted := k.exhausted || (n != 0 && usageLimit w.mode ≤ use) }

/-- A reservation one step higher is written once the counter passes the one in force less half a step (R421). -/
def State.reserveUse (s : State) (w : CipherWork) : State :=
  let k := s.keySlot w.slot
  if w.op = 0 || !w.encrypt || k.use + usageStep w.mode / 2 ≤ k.reservation then s
  else
    match k.bank with
    | none => s
    | some b =>
      let v := k.reservation + usageStep w.mode
      let s := s.modKeySlot w.slot fun y => { y with reservation := v }
      s.modCip fun c =>
        { c with reservations := (c.reservations.filter fun r => !(r.1 == b.nsid && r.2.1 == b.zone && r.2.2.1 == b.generation)) ++
            [(b.nsid, b.zone, b.generation, v)] }

/-- ENC and DEC: a block goes to the thread's core and takes a token; none during the guard, with no token free, or on a
register that waits (R408, R412, R427). -/
def State.hookBlock (s : State) (th op : Nat) (f : Nat → BitVec 256 → BitVec 128 → BitVec 128) : State :=
  s.hookInstr th (· == op) fun s w t i =>
    match t.v (hookA i), t.v (hookD i), (s.keySlot w.slot).bankOf w.op with
    | some a, some _, some b =>
      let l := s.cip.cores.getD th []
      if s.on F.ROWT_STATUS_GUARD || !s.coreOk th || 64 ≤ l.length then none
      else
        let y := f b.alg (keyPart b.alg w.mode (hookImm i % 2) b.key) a
        let s := s.modCip fun c =>
          { c with cores := putAt th (l ++ [{ thread := th, reg := hookD i, result := y }]) c.cores, taken := updAt th (· + 1) c.taken }
        let s := (s.countUse w (!t.begun)).reserveUse w
        some (s.modThread th fun _ => { t with regs := putAt (hookD i) .waiting t.regs, begun := true }.advance)
    | _, _, _ => none

/-- HOOK_ENC (R412). -/
def execHookEnc (th : Nat) (s : State) : Host.Outcome State Fault Refusal := .next (s.hookBlock th 2 blockEncrypt)

/-- HOOK_DEC (R412). -/
def execHookDec (th : Nat) (s : State) : Host.Outcome State Fault Refusal := .next (s.hookBlock th 3 blockDecrypt)

/-- HOOK_XOR (R412). -/
def execHookXor (th : Nat) (s : State) : Host.Outcome State Fault Refusal :=
  .next (s.hookCompute th 4 fun t i => match t.v (hookA i), t.v (hookB i) with | some a, some b => some (a ^^^ b) | _, _ => none)

/-- HOOK_GMUL (R412): IMM bit 0 the XTS order, with bit 1 also set by α. -/
def execHookGmul (th : Nat) (s : State) : Host.Outcome State Fault Refusal :=
  .next (s.hookCompute th 5 fun t i =>
    let m := hookImm i % 4
    match t.v (hookA i), t.v (hookB i) with
    | some a, b => if m = 3 then some (mulAlpha a) else b.map fun b => if m % 2 = 1 then gmulXts a b else gmulGcm a b
    | none, _ => none)

/-- HOOK_INC32 (R412). -/
def execHookInc32 (th : Nat) (s : State) : Host.Outcome State Fault Refusal :=
  .next (s.hookCompute th 6 fun t i => (t.v (hookA i)).map inc32)

/-- HOOK_LEN (R412). -/
def execHookLen (th : Nat) (s : State) : Host.Outcome State Fault Refusal := .next (s.hookCompute th 7 fun _ _ => some gcmLength)

/-- The read slot and the place in it that deciphered work belongs to, when it is on the cut-through path. -/
def State.cutRead (s : State) (w : CipherWork) : Option (Slot × Nat) :=
  if w.encrypt || w.op = 0 then none
  else
    match s.op w.op with
    | none => none
    | some o => match o.slot.bind s.slot with
      | some x => if x.cut && !x.orphan then some (x, o.dlas.getD w.sector 0 - x.dla) else none
      | none => none

/-- HOOK_OUT (R412); on the cut-through path bytes begin to reach the host (R424). -/
def execHookOut (th : Nat) (s : State) : Host.Outcome State Fault Refusal :=
  .next (s.hookInstr th (· == 8) fun s w t i =>
    (t.v (hookA i)).map fun a =>
      let s := s.modThread th fun _ => { t with output := t.output ++ [a] }.advance
      match s.cutRead w with
      | some (x, k) => if x.unproven.contains k then s else s.modSlot x.num fun y => { y with unproven := y.unproven ++ [k] }
      | none => s)

/-- A cut-through sector is withdrawn: poison over what has reached the host, Unrecovered Read Error for the read, and the
sector at the head of the scrub queue (R424). -/
def State.poisonSector (s : State) (x : Slot) (i blocks : Nat) : State :=
  let s := s.sendPoison x i (s.deliveredBytes x blocks)
  let s := (s.count F.CIP_COUNTS_POISONED_SECTORS).flag F.CIP_EV_POISONED
  let s := s.modSlot x.num fun y => { y with unproven := y.unproven.filter (· != i) }
  (s.scrubNext (x.dla + i)).failSector x.num i Nvme.unrecovered

/-- HOOK_TAG (R412, R411): the tag is written, or compared with the one received. -/
def execHookTag (th : Nat) (s : State) : Host.Outcome State Fault Refusal :=
  .next (s.hookInstr th (· == 9) fun s w t i =>
    (t.v (hookA i)).map fun a =>
      if w.encrypt then s.modThread th fun _ => { t with authTag := some a }.advance
      else
        let ok := a = w.tag
        let s := s.modThread th fun _ => { t with verdict := some ok }.advance
        if ok then s else (s.flag F.CIP_EV_TAG_FAIL).count F.CIP_COUNTS_TAG_FAILS)

/-- HOOK_LOOP (R412): with no data block left its body is passed over. -/
def execHookLoop (th : Nat) (s : State) : Host.Outcome State Fault Refusal :=
  .next (s.hookInstr th (· == 10) fun s _ t i =>
    let n := hookImm i
    let t' := if n = 0 || t.input.isEmpty then { t with pc := (t.pc + 1 + n) % 1024 }
      else { t with pc := (t.pc + 1) % 1024, loop := some ((t.pc + 1) % 1024, n, t.input.length) }
    some (s.modThread th fun _ => t'))

/-- An operation with no cipher work left is pinned no more. -/
def State.unpin' (s : State) (w : CipherWork) : State :=
  let busy := (s.cip.queue.any fun q => q.op == w.op) || s.cip.threads.any fun t => (t.work.map (·.op)) == some w.op
  let more := match s.op w.op with
    | some o => o.kind != .write || (o.payload.zipIdx.any fun p => !p.1.parity && !o.cipherOut.any fun c => c.1 == p.2)
    | none => false
  if w.op = 0 || busy || more then s
  else s.modKeySlot w.slot fun k => { k with pinnedOld := k.pinnedOld.filter (· != w.op), pinnedCur := k.pinnedCur.filter (· != w.op) }

/-- A deciphered sector goes where it was read for. -/
def State.plainSector (s : State) (w : CipherWork) (t : HookThread) (o : MediaOp) : State :=
  let data := blocksSector (t.output.take 256)
  let d := o.dlas.getD w.sector 0
  let x := (s.onMedia (o.places.getD w.sector 0)).map (·.pi)
  let pi := x.getD []
  let ok := w.mode = 0 || t.verdict == some true
  match s.cutRead w with
  | some (x, i) =>
    if ok && padTo 8 pi == (ownGuard data).take 8 then
      let s := s.send (.data x.skein x.sqe.cid (Sqe.slba x.sqe + i) (s.hostBytes x data pi))
      let s := s.modSlot x.num fun y => { y with sent := putAt i true y.sent, unproven := y.unproven.filter (· != i) }
      let s := s.landSector x.num i data pi
      let s := match s.slot x.num with
        | some y => if y.stage == Stage.xferOut && y.sent.all id then s.completeSlot y.num y.status 0 else s
        | none => s
      s.settle o w.sector
    else (s.poisonSector x i t.output.length).settle o w.sector
  | none =>
    if ok then
      let s := match o.slot.bind s.slot with
        | some y => s.landSector y.num (d - y.dla) data pi
        | none => s
      s.settle o w.sector
    else s.readFailed ((s.anySlice o.act).getD 0) o w.sector 4

/-- HOOK_END (R412): the sector ends: ciphertext for the serialiser, plaintext on its way, or a job's output in DRAM. -/
def execHookEnd (th : Nat) (s : State) : Host.Outcome State Fault Refusal :=
  .next (s.hookInstr th (· == 11) fun s w t _ =>
    let s := s.dropThread th
    let s :=
      if w.op = 0 then
        let out := if w.mode = 3 then leBytes 16 ((t.authTag.or t.output.getLast?).getD 0).toNat else t.output.flatMap fun b => leBytes 16 b.toNat
        (s.store .dram (16 * s.fld F.CIP_JOB_DST_DST) out).endJob 0
      else
        match s.op w.op with
        | none => s
        | some o =>
          if w.encrypt then
            match o.payload[w.sector]? with
            | none => s
            | some p =>
              let c := { p with data := blocksSector (t.output.take 256), auth := match t.authTag with | some a => leBytes 16 a.toNat | none => p.auth }
              s.modOp w.op fun q => { q with cipherOut := kput w.sector c q.cipherOut }
          else s.plainSector w t o
    some (s.unpin' w))

/-- HOOK_ILLEGAL_OP (R412): the sector runs again on another core. -/
def execHookIllegalOp (th : Nat) (s : State) : Host.Outcome State Fault Refusal :=
  .next (s.hookInstr th (fun op => op == 0 || 11 < op) fun s _ _ _ => some ((s.flag F.CIP_EV_HOOK_FAULT).requeueThread th))

/-! ### Firmware jobs (R429) -/

/-- CIPHER_JOB (R429): OP 0 CTR, 1 CMAC. -/
def execCipherJob (k op : Nat) (s : State) : Host.Outcome State Fault Refusal :=
  if !s.hasCipher || s.on F.CIP_JOB_STATUS_BUSY then .next s
  else
    let s := (s.setFld F.CIP_JOB_CTRL_SLOT k).setFld F.CIP_JOB_CTRL_OP op
    let ends (r : Nat) (s : State) : State := (s.flag F.CIP_JOB_STATUS_DONE).setFld F.CIP_JOB_STATUS_RESULT r
    let x := s.keySlot k
    if !x.test || 112 ≤ k then .next (ends 2 s)
    else if s.fld F.CIP_STATUS_STATE ≠ 2 then .next (ends 3 s)
    else if x.bank.isNone then .next (ends 1 (s.flag F.CIP_EV_KEY_MISMATCH))
    else
      let src := 16 * s.fld F.CIP_JOB_SRC_SRC
      let n := s.fld F.CIP_JOB_LEN_BLOCKS
      let block (i : Nat) : BitVec 128 := BitVec.ofNat 128 (ofLe (memBytes (src + 16 * i) 16 s.dram))
      let mode := if op = 0 then 2 else 3
      let first := if op = 0 then 1 else 0
      let w : CipherWork :=
        { op := 0, sector := 0, slot := k, encrypt := true, mode := mode, context := block 0,
          blocks := (List.range n).map fun i => block (first + i), aad0 := 0, aad1 := 0, tag := 0, avoid := 4 }
      .next ((s.flag F.CIP_JOB_STATUS_BUSY).modCip fun c => { c with queue := c.queue ++ [w], jobResult := none })

/-- CIPHER_JOB_DONE (R429). -/
def execCipherJobDone (s : State) : Host.Outcome State Fault Refusal :=
  match s.on F.CIP_JOB_STATUS_BUSY, s.cip.jobResult with
  | true, some r =>
    let s := ((s.clr F.CIP_JOB_STATUS_BUSY).flag F.CIP_JOB_STATUS_DONE).setFld F.CIP_JOB_STATUS_RESULT r
    let s := s.modCip fun c => { c with jobResult := none }
    .next (s.modCip fun c => { c with slots := c.slots.map fun k =>
      { k with pinnedOld := k.pinnedOld.filter (· != 0), pinnedCur := k.pinnedCur.filter (· != 0) } })
  | _, _ => .next s

end Sys2Proof.Machine
end

