-- ==== Sys2Proof/Machine/Tirium.lean ====
section
/-!
DEFINITION. Sys2Proof/Machine/Tirium.lean: the root of trust (chapter 16): images and measurements, media keys, grants, the
tamper alarm, the mailboxes and SPDM. Channels 0 to 3 are the mailboxes of R405, channel 4 the JTAG mailbox of R496.
-/

namespace Sys2Proof.Machine

/-! ### Grants, the Snag unit and debug (R400, R490, R497) -/

/-- The scopes granted. -/
def State.grants (s : State) : Nat := s.fld F.TIR_STATUS_GRANTS

/-- The Snag unit is disarmed (R490): every injector stops, and SNAG_DISARMED is recorded. -/
def State.snagDisarm (s : State) : State :=
  if !s.on F.SNG_STATUS_ARMED then s
  else
    let s := (s.clr F.SNG_STATUS_ARMED).clr F.TIR_STATUS_SNAG_ARMED
    let s := s.modSnag fun u => { u with armedBy := 0, injectors := u.injectors.map fun i => { i with running := false, held := false } }
    s.snagStatus.event 27 2 2 0 0

/-- HALTED follows the pairs. -/
def State.haltedReg (s : State) : State :=
  s.setFld F.DBG_STATUS_HALTED (bitsToNat ((List.range 6).map fun p => (s.pair p).halted))

/-- A pair is halted, or released: its watchdog does not count meanwhile, so the Rows since its kick are kept (R497). -/
def State.haltPair (s : State) (p : Nat) (halt : Bool) : State :=
  if (s.pair p).halted == halt then s
  else
    ((s.modPair p fun x => { x with halted := halt }).modCast fun c =>
      { c with kicked := updAt (if p = 5 then s.fld F.SYS_PAIR_STATUS_SPARE_FOR else p) (fun k => s.rowCount - k) c.kicked }).haltedReg

/-- TRACE_ON: the TRACE group in function 1 and a grant for it (R497). -/
def State.traceReg (s : State) : State :=
  s.setBit F.DBG_STATUS_TRACE_ON (s.fld F.SYS_BALL_FUNC_TRACE_FN == 1 && (s.grants.testBit 1 || s.grants.testBit 2 || s.grants.testBit 3))

/-- The scopes granted become a mask: what rested on a scope that has gone ends (R490, R497). -/
def State.setGrants (s : State) (g : Nat) : State :=
  let s := ((s.setFld F.TIR_STATUS_GRANTS g).setFld F.DBG_STATUS_GRANTS g).traceReg
  let s := if s.on F.SNG_STATUS_ARMED && s.snag.armedBy &&& g = 0 then s.snagDisarm else s
  let pairs := !g.testBit 2 && !g.testBit 3 && (List.range 6).any fun p => (s.pair p).halted
  let needles := !g.testBit 3 && (List.range 3).any fun n => (s.needle n).halted
  let s := if pairs then ((List.range 6).foldl (fun s p => s.haltPair p false) s).setFld F.DBG_HALT_PAIRS 0 else s
  let s := if needles then (s.modNeedles fun l => l.map fun n => { n with halted := false }).setFld F.DBG_HALT_NEEDLES 0 else s
  if pairs || needles then (s.flag F.DBG_EV_RELEASED_BY_REVOKE).event 28 2 2 0 0 else s

/-! ### Images (R388, R389) -/

/-- The fused key hash of a drive maker reads as zero while the lifecycle is open (R386): no key meets it. -/
def Fuses.makerHash (f : Fuses) (h : Digest) : Option Digest := if f.isSealed then some h else none

/-- A signature of a digest under a key with a fused hash. -/
def signedBy (hash : Option Digest) (key signature : List Byte) (d : Digest) : Option Bool :=
  if hash = some (Config.sm3 key) then some (Config.sm2Verify key signature d) else none

/-- The result of R389 for an image (0 for none of its failures), its security version and its DIGEST. -/
def Fuses.checkImage (f : Fuses) (component : Nat) (img : List Byte) : Nat × Nat × Digest :=
  let body := leField img 8 4
  let d := ofDigestBytes (cutBytes img 0x20 32)
  let svn := leField img 0x10 8
  let maker := signedBy (f.makerHash f.makerKeyHash) (cutBytes img 0x40 64) (cutBytes img 0x80 64) d
  let llynter := signedBy (some f.llynterKeyHash) (cutBytes img 0xC0 64) (cutBytes img 0x100 64) d
  let code :=
    if leField img 0 4 ≠ 0x4D495A42 || leField img 4 2 ≠ component || 256 * 2 ^ 20 < 512 + body || img.length < 512 + body then 0x21
    else if Config.sm3 (img.take 0x20 ++ cutBytes img 0x200 body) ≠ d then 0x22
    else if maker.isNone then 0x23
    else if maker = some false then 0x24
    else if (component = 1 || component = 2) && llynter ≠ some true then 0x25
    else if svn < f.svn (component - 1) then 0x26 else 0
  (code, svn, d)

/-- Tirium has verified an image (R391). -/
def State.noteVerified (s : State) (component : Nat) (d : Digest) : State :=
  s.modTir fun t => { t with verified := if t.verified.contains (component, d) then t.verified else t.verified ++ [(component, d)] }

/-! ### Measurements and identity (R391, R392) -/

/-- Order of the SM2 curve. -/
def sm2Order : Nat := 0xFFFFFFFEFFFFFFFFFFFFFFFFFFFFFFFF7203DF6B21C6052B53BBF40939D54123

/-- A private key from derived material (R392). -/
def sm2Key (x : Nat) : Digest := BitVec.ofNat 256 (x % (sm2Order - 1) + 1)

/-- The security fuses of block 8, in the order of R384. -/
def Fuses.measured (f : Fuses) : List Byte :=
  [f.llynterKeyHash, f.faKeyHash, f.makerKeyHash, f.patternKeyHash, f.debugKeyHash].flatMap digestBytes ++
    (f.svnBanks.flatMap fun b => (List.range 32).flatMap fun i => leBytes 8 (b.getD i 0)) ++ leBytes 1 (if f.isSealed then 1 else 0)

/-- Measurement block n as bytes (R391). -/
def State.block (s : State) (n : Nat) : List Byte :=
  if n = 9 then
    let bits := (if s.on F.TIR_STATUS_SNAG_ARMED then 1 else 0) + 2 * s.grants + (if s.record.state == .tentative then 32 else 0) +
      (if s.fuse.isSealed then 64 else 0)
    leBytes 1 bits ++ leBytes 1 (s.fld F.TIR_ALARM_COUNT) ++ List.replicate 6 0
  else if n = 10 then (List.range 5).flatMap fun c => leBytes 8 (s.fuse.svn c)
  else digestBytes (s.tir.blocks.getD (n - 1) 0)

/-- Measurements n as one string. -/
def State.blocksOf (s : State) (l : List Nat) : List Byte := l.flatMap s.block

/-- The DICE layers (R392). -/
def State.cdiT (s : State) : Digest := Config.hmacSm3 Config.uds (s.blocksOf [1, 2])
def State.cdiD (s : State) : Digest := Config.hmacSm3 s.cdiT (s.blocksOf [3, 4, 5, 6])

/-- alias_d is derived and certified anew (R392). -/
def State.recertify (s : State) : State :=
  let d := sm2Key (Config.kdf s.cdiD "BZ8 ALIAS D" [] 256)
  s.modTir fun t => { t with aliasD := some d }

/-- Both alias keys are derived (R392). -/
def State.deriveAliases (s : State) : State :=
  let a := sm2Key (Config.kdf s.cdiT "BZ8 ALIAS T" [] 256)
  (s.modTir fun t => { t with aliasT := some a }).recertify

/-- Set measurement block n; blocks 3 to 6 enter alias_d. -/
def State.setBlock (s : State) (n : Nat) (d : Digest) : State :=
  let s := s.modTir fun t => { t with blocks := putAt (n - 1) d t.blocks }
  if 3 ≤ n && n ≤ 6 then s.recertify else s

/-- The keys that wrap the identity (R385). -/
def identityKey : BitVec 128 := BitVec.ofNat 128 (Config.kdf Config.wrapSeed "BZ8 IDENTITY" [] 128)
def identityMac : Digest := BitVec.ofNat 256 (Config.kdf Config.wrapSeed "BZ8 IDENTITY MAC" [] 256)

/-- The identity private key unwrapped from its fuse. -/
def Fuses.identity (f : Fuses) : Option Digest :=
  f.identityWrap.bind fun w => if w.2 = Config.hmacSm3 identityMac (digestBytes w.1) then some (wrapCtr identityKey 0 w.1) else none

/-- Tirium answers its mailboxes: not while it boots or an alarm stands. -/
def State.tiriumAnswers (s : State) : Bool := s.fld F.TIR_STATUS_STATE = 1 || s.fld F.TIR_STATUS_STATE = 4

/-- ROM_ONLY performs no media-key work and no debug authorisation (R390). -/
def State.romOnly (s : State) : Bool := s.fld F.TIR_STATUS_STATE = 4

/-- The DeviceID public key. -/
def State.devicePublic (s : State) : List Byte := Config.sm2Public (s.tir.identity.getD 0)

/-! ### SPDM (R393 to R395) -/

/-- The connection of a transport. -/
def State.spdmLink (s : State) (t : Nat) : SpdmLink :=
  s.tir.spdm.getD t { version := false, capabilities := false, algorithms := false, waiting := [], reply := none }

def State.modSpdm (s : State) (t : Nat) (f : SpdmLink → SpdmLink) : State := s.modTir fun x => { x with spdm := updAt t f x.spdm }

/-- Slot 0's chain (R393). -/
def State.chain (s : State) : List Byte :=
  Config.certChain [s.devicePublic, Config.sm2Public (s.tir.aliasT.getD 0), Config.sm2Public (s.tir.aliasD.getD 0)] (s.tir.blocks.take 6)

/-- A signature by alias_d (R393), with a nonce from the TRNG. -/
def State.signD (s : State) (l : List Byte) : List Byte × State :=
  let (k, s) := s.drawBytes 32
  (Config.sm2Sign (s.tir.aliasD.getD 0) (Config.sm3 l) (ofLe k), s)

/-- The answer to a request that needs the algorithms to be settled (R393, R394). Slots 1 to 7 are not provisioned; every answer of
this model is given at once, so none is owed under a token; a portion of the chain fits one message of 4,096 bytes. -/
def State.spdmSettled (s : State) : SpdmRequest → SpdmReply × State
  | .getDigests => (.digests [(0, Config.sm3 s.chain)], s)
  | .getCertificate slot offset length =>
    if slot ≠ 0 || s.chain.length ≤ offset then (.error .invalidRequest, s)
    else
      let p := cutBytes s.chain offset (min length (min (s.chain.length - offset) 4088))
      (.certificate p (s.chain.length - offset - p.length), s)
  | .challenge slot nonce =>
    if slot ≠ 0 then (.error .invalidRequest, s)
    else
      let (n, s) := s.drawBytes 32
      let summary := Config.sm3 (s.blocksOf ((List.range 10).map (· + 1)))
      let (sig, s) := s.signD (nonce ++ n ++ digestBytes (Config.sm3 s.chain) ++ digestBytes summary)
      (.challengeAuth (Config.sm3 s.chain) n summary sig, s)
  | .getMeasurements index signed nonce =>
    if index ≠ 0xFF && (index = 0 || 10 < index) then (.error .invalidRequest, s)
    else
      let l := if index = 0xFF then (List.range 10).map (· + 1) else [index]
      let (n, s) := s.drawBytes 32
      let (sig, s) := if signed then s.signD (nonce ++ n ++ s.blocksOf l) else ([], s)
      (.measurements (l.map fun i => (i, s.block i)) n sig, s)
  | _ => (.error .unexpectedRequest, s)

/-- The answer to a request, and the connection after it (R394): GET_VERSION starts the connection over, and an offer without SM2 or
SM3 fails. The order that the requests need is PRESUMED (assumption log 14). -/
def State.spdmAnswer (s : State) (l : SpdmLink) (r : SpdmRequest) : SpdmReply × SpdmLink × State :=
  match r with
  | .getVersion => (.version, { l with version := true, capabilities := false, algorithms := false }, s)
  | .getCapabilities => if l.version then (.capabilities, { l with capabilities := true }, s) else (.error .unexpectedRequest, l, s)
  | .negotiateAlgorithms sm2 sm3 =>
    if !l.capabilities then (.error .unexpectedRequest, l, s)
    else if sm2 && sm3 then (.algorithms, { l with algorithms := true }, s)
    else (.error .negotiationFail, l, s)
  | .unsupported => (.error .unsupportedRequest, l, s)
  | r => if l.algorithms then ((s.spdmSettled r).1, l, (s.spdmSettled r).2) else (.error .unexpectedRequest, l, s)

/-- Tirium answers one request of a transport. -/
def State.spdmServe (t : Nat) (s : State) (r : SpdmRequest) : State :=
  let a := s.spdmAnswer (s.spdmLink t) r
  a.2.2.modSpdm t fun _ => { a.2.1 with reply := some a.1 }

/-- A request of a transport (R395): it waits while Tirium does not answer, at most four of them. ROM_ONLY performs no exchange
(R390). -/
def State.spdm (s : State) (t : Nat) (r : SpdmRequest) : State :=
  if 2 < t || s.romOnly then s
  else if !s.tiriumAnswers then
    s.modSpdm t fun l => if l.waiting.length < 4 then { l with waiting := l.waiting ++ [r] } else { l with reply := some (.error .busy) }
  else s.spdmServe t r

/-- The requests that have waited are answered, those of one transport in arrival order (R395). -/
def State.spdmResume (s : State) : State :=
  (List.range 3).foldl (fun s t =>
    (s.spdmLink t).waiting.foldl (State.spdmServe t) (s.modSpdm t fun l => { l with waiting := [] })) s

/-! ### Boot (R390) -/

/-- Tirium's ROM starts its firmware (R390): the ROM, the firmware and the fuses are measured, the keys derived. -/
def State.tiriumBoot (s : State) (rom firmware : Digest) : State :=
  let s := s.modTir fun t => { t with blocks := putAt 0 rom (putAt 1 firmware (putAt 7 (Config.sm3 s.fuse.measured) t.blocks)), identity := s.fuse.identity }
  (s.setFld F.TIR_STATUS_STATE 1).deriveAliases.spdmResume

/-! ### Media keys (R396, R397, R399) -/

/-- A new NMEK for a namespace, and its key record. -/
def State.newNmek (s : State) (nsid : Nat) : State :=
  let (k, s) := s.drawBytes 32
  let (c, s) := s.drawBytes 16
  let key : Digest := BitVec.ofNat 256 (ofLe k)
  s.modTir fun t =>
    { t with keyRecords := (t.keyRecords.filter fun r => r.nsid != nsid) ++ [wrapNmek nsid (BitVec.ofNat 128 (ofLe c)) key],
             unwrapped := kput nsid key t.unwrapped, keyCache := t.keyCache.filter fun e => e.nsid != nsid }

/-- The cipher namespaces of the Pattern. -/
def State.cipherSpaces (s : State) : List Nat := ((s.pattern.active.host.namespaces).map (·.nsid)).filter fun n => s.cipherMode n != 0

/-- The Security panel gives the namespace Key Per I/O (R51). -/
def State.isKpio (s : State) (nsid : Nat) : Bool :=
  ((s.pattern.active.security.nsCipher.find? fun e => e.1 == nsid).map (·.2.2)).getD 0 != 0

/-- Step 1 of R399: new keys for every cipher namespace; the cache, the key slots and the injected keys are zeroised. -/
def State.keyChange (s : State) : State :=
  let s := s.cipherSpaces.foldl State.newNmek s
  let s := s.modTir fun t => { t with keyCache := [], injected := [] }
  let s := s.modCip fun c => { c with reservations := [] }
  s.eraseKeySlots fun _ => true

/-- An injected Key Per I/O key. -/
def State.injectedKey (s : State) (nsid tag : Nat) : Option Digest :=
  (s.tir.injected.find? fun k => k.1 == nsid && k.2.1 == tag).map (·.2.2)

/-- The key bank that LOAD_KEY derives (R396, R397), or its refusal. -/
def State.deriveBank (s : State) (nsid zone gen : Nat) (keyTag : Option Nat) : Except Nat Bank :=
  let mode := s.cipherMode nsid
  if mode = 0 || (s.isKpio nsid) != keyTag.isSome then .error 2
  else
    let key : Except Nat (BitVec 512) := match keyTag with
      | some t => match s.injectedKey nsid t with
        | some k => .ok (kpioKey k nsid t zone gen (modeBits mode))
        | none => .error 8
      | none => match s.nmek nsid with
        | some k => .ok (zoneKey k nsid zone gen (modeBits mode))
        | none => .error 3
    match key with
    | .error e => .error e
    | .ok k =>
      let alg := modeAlg mode
      let h := if modeKind mode = 1 then blockEncrypt alg (keyPart alg 1 0 k) 0 else 0
      .ok { alg := alg, mode := modeKind mode, key := k, nsid := nsid, zone := zone, generation := gen, keyTag := keyTag, h := h }

/-! ### The mailboxes (R405) -/

/-- The first six words of a response stand in RESP. -/
def State.respRegs (s : State) (n : Nat) (l : List Word) : State :=
  (List.range 6).foldl (fun s k => s.setReg (R.TIR_MBX_RESP n k) (l.getD k 0)) s

/-- A command has ended: its result and responses are kept for a repetition. -/
def State.mailboxDone (s : State) (n tag result : Nat) (resp : List Word) : State :=
  let s := s.modTir fun t => { t with last := putAt n (some { tag := tag, result := result, response := resp }) t.last }
  if 3 < n then s
  else
    let s := (((s.clr (F.TIR_MBX_STATUS_BUSY n)).flag (F.TIR_MBX_STATUS_DONE n)).setFld (F.TIR_MBX_STATUS_RESULT n) result)
    s.respRegs n resp

/-- A command of channel n: held BUSY while Tirium does not answer or `f` answers none, not executed again under the tag of the
last one, and otherwise carried out. A GO written while another command is BUSY is ignored. -/
def State.mailbox (s : State) (n tag opcode : Nat) (f : State → Option (Nat × List Word × State)) : State :=
  if 4 < n then s
  else
    let same := s.fld (F.TIR_MBX_CMD_OPCODE n) == opcode && s.fld (F.TIR_MBX_CMD_TAG n) == tag % 2 ^ 23
    if n < 4 && s.on (F.TIR_MBX_STATUS_BUSY n) && !same then s
    else
      let s := if 3 < n then s else (s.setFld (F.TIR_MBX_CMD_OPCODE n) opcode).setFld (F.TIR_MBX_CMD_TAG n) tag
      let hold : State := if 3 < n then s else s.flag (F.TIR_MBX_STATUS_BUSY n)
      if !s.tiriumAnswers then hold
      else
        match (s.tir.last.getD n none).filter fun d => d.tag == tag with
        | some d => s.mailboxDone n d.tag d.result d.response
        | none =>
          match f s with
          | none => hold
          | some (result, resp, s) => s.mailboxDone n tag result resp

def word32 (v : Nat) : Word := BitVec.ofNat 32 v

/-- Bytes as little-endian words. -/
def bytesWords (l : List Byte) : List Word := (List.range ((l.length + 3) / 4)).map fun k => word32 (leField l (4 * k) 4)

/-- VERIFY_IMAGE (R389). -/
def execVerifyImage (n tag addr component : Nat) (s : State) : Host.Outcome State Fault Refusal :=
  .next (s.mailbox n tag 1 fun s =>
    let head := memBytes addr 512 s.dram
    let body := leField head 8 4
    let img := if 256 * 2 ^ 20 < 512 + body then head else memBytes addr (512 + body) s.dram
    let (code, svn, d) := s.fuse.checkImage component img
    some (code, [word32 svn, word32 (svn / 2 ^ 32)], if code = 0 then s.noteVerified component d else s))

/-- COMMIT_MEASUREMENT (R391): blocks 3 to 5. -/
def execCommitMeasurement (n tag component : Nat) (d : Digest) (s : State) : Host.Outcome State Fault Refusal :=
  .next (s.mailbox n tag 2 fun s =>
    if component < 2 || 4 < component || !s.tir.verified.contains (component, d) then some (2, [], s)
    else some (0, [], s.setBlock (component + 1) d))

/-- LOAD_KEY (R397, R416, R418). -/
def execLoadKey (n tag k nsid zone gen : Nat) (keyTag : Option Nat) (s : State) : Host.Outcome State Fault Refusal :=
  .next (s.mailbox n tag 3 fun s =>
    if !s.hasCipher then some (4, [], s)
    else if s.romOnly then some (3, [], s)
    else if 112 ≤ k || (s.keySlot k).test then some (2, [], s)
    else
      match s.deriveBank nsid zone gen keyTag with
      | .error e => some (e, [], s)
      | .ok b =>
        (s.loadBank k b).map fun s =>
          (0, [], s.modTir fun t =>
            { t with keyCache := ({ nsid := nsid, zone := zone, generation := gen, keyTag := keyTag.getD 0, key := b.key.toNat } :: t.keyCache).take 1024 }))

/-- NS_KEY_NEW (R396). -/
def execNsKeyNew (n tag nsid : Nat) (s : State) : Host.Outcome State Fault Refusal :=
  .next (s.mailbox n tag 4 fun s =>
    if !s.hasCipher then some (4, [], s)
    else if s.romOnly then some (3, [], s)
    else if s.cipherMode nsid = 0 then some (2, [], s)
    else some (0, [], s.newNmek nsid))

/-- One injected key is added or removed (R397). -/
def State.injectKey (s : State) (e : Nat × Nat × Option Digest) : State :=
  s.modTir fun t =>
    let rest := t.injected.filter fun k => !(k.1 == e.1 && k.2.1 == e.2.1)
    { t with injected := match e.2.2 with | some d => rest ++ [(e.1, e.2.1, d)] | none => rest,
             keyCache := t.keyCache.filter fun k => !(k.nsid == e.1 && k.keyTag == e.2.1) }

/-- Every key of a payload names a Key Per I/O namespace and a tag of 0 to 1,023. -/
def State.kpioLegal (s : State) (keys : List (Nat × Nat × Option Digest)) : Bool :=
  keys.all fun e => s.cipherMode e.1 != 0 && s.isKpio e.1 && e.2.1 < 1024

/-- KPIO (R397): the payload's length is the second argument. -/
def execKpio (n tag : Nat) (keys : List (Nat × Nat × Option Digest)) (s : State) : Host.Outcome State Fault Refusal :=
  .next (s.mailbox n tag 5 fun s =>
    if !s.hasCipher then some (4, [], s)
    else if s.romOnly then some (3, [], s)
    else if !s.kpioLegal keys then some (2, [], s)
    else some (0, [s.reg (R.TIR_MBX_ARG n 1)], keys.foldl State.injectKey s))

/-- RANDOM (R405): 1 to 32 bytes. -/
def execRandom (n tag count : Nat) (s : State) : Host.Outcome State Fault Refusal :=
  .next (s.mailbox n tag 6 fun s =>
    if count = 0 || 32 < count then some (2, [], s)
    else
      let (b, s) := s.drawBytes count
      some (0, bytesWords b, s))

/-! ### Challenge and response (R401) -/

/-- A challenge for channel n: 64 bytes, of which RESP shows the first 24 (R401). -/
def State.giveChallenge (n scopes : Nat) (s : State) : Option (Nat × List Word × State) :=
  if s.on F.TIR_STATUS_LOCKOUT then some (5, [], s)
  else if s.romOnly then some (3, [], s)
  else if scopes = 0 || 15 < scopes then some (2, [], s)
  else
    let (r, s) := s.drawBytes 32
    let c := r ++ (digestBytes (Config.sm3 s.devicePublic)).take 16 ++ leBytes 4 scopes ++ leBytes 8 s.rowCount ++ leBytes 4 0
    some (0, bytesWords c, s.modTir fun t => { t with challenges := putAt n (some { scopes := scopes, bytes := c }) t.challenges })

/-- TIR_CHALLENGE (R401). -/
def execTirChallenge (n tag scopes : Nat) (s : State) : Host.Outcome State Fault Refusal :=
  .next (s.mailbox n tag 7 (State.giveChallenge n scopes))

/-- The authority of every scope asked for has this key (R400). -/
def Fuses.authority (f : Fuses) (scopes : Nat) (key : List Byte) : Bool :=
  (scopes % 8 = 0 || f.makerHash f.debugKeyHash = some (Config.sm3 key)) && (scopes < 8 || f.faKeyHash = Config.sm3 key)

/-- A response fails: the eighth in a row locks CHALLENGE out (R401). -/
def State.authFails (s : State) : State :=
  let s := s.count F.TIR_ALARM_AUTH_FAILS
  if 8 ≤ s.fld F.TIR_ALARM_AUTH_FAILS then s.flag F.TIR_STATUS_LOCKOUT else s

/-- A response on channel n: the challenge is used up, and a good signature grants its scopes (R400, R401). -/
def State.takeResponse (n : Nat) (key signature : List Byte) (s : State) : Option (Nat × List Word × State) :=
  if s.romOnly then some (3, [], s)
  else
    match s.tir.challenges.getD n none with
    | none => some (0x31, [], s)
    | some c =>
      let s := s.modTir fun t => { t with challenges := putAt n none t.challenges }
      if s.fuse.authority c.scopes key && Config.sm2Verify key signature (Config.sm3 c.bytes) then
        let s := s.clr F.TIR_ALARM_AUTH_FAILS
        let s := if 8 ≤ c.scopes then s.keyChange.event 24 1 5 0 0 else s
        some (0, [word32 c.scopes], s.setGrants (s.grants ||| c.scopes))
      else some (0x30, [], s.authFails)

/-- TIR_RESPONSE (R400, R401). -/
def execTirResponse (n tag : Nat) (key signature : List Byte) (s : State) : Host.Outcome State Fault Refusal :=
  .next (s.mailbox n tag 8 (State.takeResponse n key signature))

/-- Grants are withdrawn (R401). -/
def State.withdrawGrants (scopes : Nat) (s : State) : Option (Nat × List Word × State) :=
  if s.romOnly then some (3, [], s) else some (0, [], s.setGrants (s.grants &&& (15 - scopes % 16)))

/-- REVOKE (R401, R490, R497). -/
def execRevoke (n tag scopes : Nat) (s : State) : Host.Outcome State Fault Refusal := .next (s.mailbox n tag 9 (State.withdrawGrants scopes))

/-- CHALLENGE_EXPIRY (R401). -/
def execChallengeExpiry (n : Nat) (s : State) : Host.Outcome State Fault Refusal :=
  .next (s.modTir fun t => { t with challenges := putAt n none t.challenges })

/-! ### Fuses (R385 to R387) -/

/-- SVN_ADVANCE of a component, 1 to 5 in the order of R387: its result, and the banks left. -/
def State.svnAdvance (s : State) (component version : Nat) : Nat × List Word × State :=
  let c := component - 1
  let banks := s.fuse.svnBanks.getD c []
  if component = 0 || 5 < component || version ≤ s.fuse.svn c || 2 ^ 64 ≤ version then (2, [], s)
  else if 32 ≤ banks.length then (0x32, [0], s)
  else (0, [word32 (31 - banks.length)], { s with fuse := { s.fuse with svnBanks := putAt c (banks ++ [version]) s.fuse.svnBanks } })

/-- SVN_ADVANCE (R387). -/
def execSvnAdvance (n tag component version : Nat) (s : State) : Host.Outcome State Fault Refusal :=
  .next (s.mailbox n tag 10 fun s => some (s.svnAdvance component version))

/-- PROVISION (R386). -/
def execProvision (n tag : Nat) (maker pattern debug : Digest) (readBackOk : Bool) (s : State) : Host.Outcome State Fault Refusal :=
  .next (s.mailbox n tag 11 fun s =>
    if s.fuse.isSealed || s.fuse.partlyFused then some (3, [], s)
    else
      let f := { s.fuse with makerKeyHash := maker, patternKeyHash := pattern, debugKeyHash := debug }
      if readBackOk then some (0, [], { s with fuse := { f with isSealed := true } }.flag F.TIR_STATUS_SEALED)
      else some (7, [], { s with fuse := { f with partlyFused := true } }))

/-- GEN_IDENTITY (R385): the address of the public key is a value that the spec does not state. -/
def execGenIdentity (n tag : Nat) (s : State) : Host.Outcome State Fault Refusal :=
  .next (s.mailbox n tag 12 fun s =>
    if s.fuse.identityWrap.isSome then some (3, [], s)
    else
      let (b, s) := s.drawBytes 32
      let key := sm2Key (ofLe b)
      let c := wrapCtr identityKey 0 key
      let s := { s with fuse := { s.fuse with identityWrap := some (c, Config.hmacSm3 identityMac (digestBytes c)) } }
      let (a, s) := s.draw
      some (0, [word32 a], s.modTir fun t => { t with identity := some key }))

/-- TIR_UNKNOWN_OPCODE (R405). -/
def execTirUnknownOpcode (n tag opcode : Nat) (s : State) : Host.Outcome State Fault Refusal :=
  if 1 ≤ opcode && opcode ≤ 12 then .next s else .next (s.mailbox n tag opcode fun s => some (1, [], s))

/-! ### The alarm (R402 to R404) -/

/-- The real alarm (R403): keys and grants go, Tirium leaves READY, cipher work is held. -/
def State.raiseAlarm (s : State) (causes : Nat) : State :=
  let s := (s.setFld F.TIR_ALARM_CAUSE (s.fld F.TIR_ALARM_CAUSE ||| causes)).count F.TIR_ALARM_COUNT
  let s := s.eraseKeySlots fun _ => true
  let s := s.modTir fun t =>
    { t with keyCache := [], injected := [], unwrapped := [], identity := none, aliasT := none, aliasD := none,
             challenges := t.challenges.map fun _ => none }
  let s := (s.setGrants 0).snagDisarm
  let s := s.setFld F.TIR_STATUS_STATE (if 16 ≤ s.fld F.TIR_ALARM_COUNT || s.fld F.TIR_STATUS_STATE = 3 then 3 else 2)
  let st := s.fld F.CIP_STATUS_STATE
  if !s.hasCipher || st = 4 then s else (s.modCip fun c => { c with heldState := st }).setFld F.CIP_STATUS_STATE 4

/-- The alarm that the Snag unit simulates (R404). -/
def State.simulateAlarm (s : State) : State :=
  (s.eraseKeySlots fun k => (s.keySlot k).test).flag F.TIR_ALARM_SIMULATED

/-- TAMPER_ALARM (R402, R403): every monitor is disarmed once the Keeper has halted (R398). -/
def execTamperAlarm (causes : Nat) (s : State) : Host.Outcome State Fault Refusal :=
  if causes % 32 = 0 || s.keeper.halted || !s.keeper.powered then .next s else .next (s.raiseAlarm (causes % 32))

/-- ALARM_CLEAR (R403): every monitor has been clear for 10 ms; LATCHED stays. -/
def execAlarmClear (s : State) : Host.Outcome State Fault Refusal :=
  if s.fld F.TIR_STATUS_STATE ≠ 2 then .next s
  else
    let s := (s.setFld F.TIR_STATUS_STATE 1).modTir fun t => { t with identity := s.fuse.identity }
    let s := s.deriveAliases.spdmResume
    .next (if s.fld F.CIP_STATUS_STATE = 4 then (s.setFld F.CIP_STATUS_STATE s.cip.heldState).modCip fun c => { c with heldState := 0 } else s)

/-! ### SPDM requests (R394) -/

/-- SPDM_GET_VERSION. -/
def execSpdmGetVersion (t : Nat) (s : State) : Host.Outcome State Fault Refusal := .next (s.spdm t .getVersion)

/-- SPDM_GET_CAPABILITIES. -/
def execSpdmGetCapabilities (t : Nat) (s : State) : Host.Outcome State Fault Refusal := .next (s.spdm t .getCapabilities)

/-- SPDM_NEGOTIATE_ALGORITHMS. -/
def execSpdmNegotiateAlgorithms (t : Nat) (sm2 sm3 : Bool) (s : State) : Host.Outcome State Fault Refusal :=
  .next (s.spdm t (.negotiateAlgorithms sm2 sm3))

/-- SPDM_GET_DIGESTS. -/
def execSpdmGetDigests (t : Nat) (s : State) : Host.Outcome State Fault Refusal := .next (s.spdm t .getDigests)

/-- SPDM_GET_CERTIFICATE. -/
def execSpdmGetCertificate (t slot offset length : Nat) (s : State) : Host.Outcome State Fault Refusal :=
  .next (s.spdm t (.getCertificate slot offset length))

/-- SPDM_CHALLENGE. -/
def execSpdmChallenge (t slot : Nat) (nonce : List Byte) (s : State) : Host.Outcome State Fault Refusal :=
  .next (s.spdm t (.challenge slot nonce))

/-- SPDM_GET_MEASUREMENTS: one block, or every block for 0xFF, all taken at one instant. -/
def execSpdmGetMeasurements (t index : Nat) (signed : Bool) (nonce : List Byte) (s : State) : Host.Outcome State Fault Refusal :=
  .next (s.spdm t (.getMeasurements index signed nonce))

/-- SPDM_RESPOND_IF_READY. -/
def execSpdmRespondIfReady (t _token : Nat) (s : State) : Host.Outcome State Fault Refusal := .next (s.spdm t .respondIfReady)

/-- SPDM_UNSUPPORTED (R394): every request code but those of the table. -/
def execSpdmUnsupported (t code : Nat) (s : State) : Host.Outcome State Fault Refusal :=
  -- GET_DIGESTS 0x81, GET_CERTIFICATE 0x82, CHALLENGE 0x83, GET_VERSION 0x84, GET_MEASUREMENTS 0xE0, GET_CAPABILITIES 0xE1,
  -- NEGOTIATE_ALGORITHMS 0xE3, RESPOND_IF_READY 0xFF
  if [0x81, 0x82, 0x83, 0x84, 0xE0, 0xE1, 0xE3, 0xFF].contains code then .next s
  else .next (s.spdm t .unsupported)

end Sys2Proof.Machine
end

