-- ==== Sys2Proof/Machine/Gauge.lean ====
section
/-!
DEFINITION. Sys2Proof/Machine/Gauge.lean: the calibrations of the Gauge (chapter 18): taking the target out of service
(R435), the results that a run writes (R431, R433, R436) and its return. What a run measures is an operand of CALIBRATION_END.
-/

namespace Sys2Proof.Machine

/-! ### Starting (R434, R435) -/

/-- A calibration is refused with RESULT 3. -/
def State.refuseCalibration (s : State) : State := (s.flag F.GAU_STATUS_DONE).setFld F.GAU_STATUS_RESULT 3

/-- The target is absent, FAULTED or DISABLED (R434). -/
def State.calibAbsent (s : State) (kind slice act head : Nat) : Bool :=
  if kind ≤ 3 then !s.hasSlice slice || s.fld (F.SLC_STATUS_ROLE slice) == 5 || s.fld (F.SLC_STATUS_ROLE slice) == 6
  else if kind ≤ 6 then !s.hasAct act || s.on (F.ACT_CTRL_DISABLE act) || s.headCount act ≤ head
  else if kind = 8 then !s.hasAct act || s.on (F.ACT_CTRL_DISABLE act)
  else false

/-- The Swatch: a full track of the head, written before the measurement (R438). -/
def State.writeSwatch (s : State) (a h : Nat) : State :=
  let t := s.fld F.GAU_SWATCH_TRACK
  let spt := ((s.bands a).find? fun b => b.firstTrack ≤ t && t ≤ b.lastTrack).elim 0 (·.spt)
  (List.range spt).foldl (fun (s : State) k =>
    let p := packPsa a h t k
    s.writeMedia p { dla := 2 ^ 40 - 1, nsid := 255, wcount := 0, gen := 0, pi := [], auth := [], parity := true,
                     data := padTo 4096 (Config.swatchData p) ++ List.replicate 8 0xFF ++ List.replicate 56 0 }) s

/-- A calibration on the Swatch begins to run. -/
def State.beginRun (s : State) (c : Calibration) : State :=
  if (c.kind = 4 || c.kind = 6) && s.on F.GAU_SWATCH_WRITE then s.writeSwatch c.act c.head else s

/-- GAU_CMD with GO (R434, R435). -/
def State.startCalibration (s : State) (kind slice act head : Nat) : State :=
  if s.on F.GAU_STATUS_BUSY then s
  else
    let s := (((s.setFld F.GAU_CMD_KIND kind).setFld F.GAU_CMD_SLICE slice).setFld F.GAU_CMD_ACT act).setFld F.GAU_CMD_HEAD head
    if kind = 0 || 9 < kind || s.calibAbsent kind slice act head then s.refuseCalibration
    else
      let role := s.fld (F.SLC_STATUS_ROLE slice)
      let a := if kind ≤ 3 then s.fld (F.SLC_STATUS_ACT slice) else act
      let waits :=
        if kind ≤ 3 then (if role = 2 then 0 else if (role = 1 || role = 3) && s.spareSlice.isSome then 1 else if a < 2 then 2 else 0)
        else if kind = 7 || kind = 9 then 0 else 2
      let c : Calibration :=
        { kind := kind, slice := slice, act := a, head := head, waits := waits, spare := false, formerRole := role, formerAct := a,
          formerPos := s.fld (F.SLC_STATUS_POSITION slice) }
      let s := (s.flag F.GAU_STATUS_BUSY).setFld F.GAU_STATUS_KIND kind
      let s := s.modGauge fun g => { g with running := some c, holdPicks := if waits = 2 then [a] else [] }
      if waits = 2 then s.flag F.GAU_STATUS_WAIT else s

/-- GAU_ADC_OFFSET (R431). -/
def execGauAdcOffset (i : Nat) (s : State) : Host.Outcome State Fault Refusal := .next (s.startCalibration 1 i 0 0)

/-- GAU_ADC_GAIN (R431). -/
def execGauAdcGain (i : Nat) (s : State) : Host.Outcome State Fault Refusal := .next (s.startCalibration 2 i 0 0)

/-- GAU_ADC_SKEW (R431). -/
def execGauAdcSkew (i : Nat) (s : State) : Host.Outcome State Fault Refusal := .next (s.startCalibration 3 i 0 0)

/-- GAU_READER_BIAS (R431). -/
def execGauReaderBias (a h : Nat) (s : State) : Host.Outcome State Fault Refusal := .next (s.startCalibration 4 0 a h)

/-- GAU_TOUCHDOWN (R431). -/
def execGauTouchdown (a h : Nat) (s : State) : Host.Outcome State Fault Refusal := .next (s.startCalibration 5 0 a h)

/-- GAU_ASSIST (R431). -/
def execGauAssist (a h : Nat) (s : State) : Host.Outcome State Fault Refusal := .next (s.startCalibration 6 0 a h)

/-- GAU_ISENSE_SPN (R431). -/
def execGauIsenseSpn (s : State) : Host.Outcome State Fault Refusal := .next (s.startCalibration 7 0 0 0)

/-- GAU_ISENSE_VCM (R431). -/
def execGauIsenseVcm (a : Nat) (s : State) : Host.Outcome State Fault Refusal := .next (s.startCalibration 8 0 a 0)

/-- GAU_TEMP (R431). -/
def execGauTemp (s : State) : Host.Outcome State Fault Refusal := .next (s.startCalibration 9 0 0 0)

/-- GAUGE_TARGET_IDLE (R435): no operation of the actuator remains issued, and the calibration runs. -/
def execGaugeTargetIdle (s : State) : Host.Outcome State Fault Refusal :=
  match s.gauge.running with
  | none => .next s
  | some c =>
    if c.waits ≠ 2 || !(s.opsAt c.act .issued).isEmpty then .next s
    else
      let c := { c with waits := 0 }
      .next (((s.modGauge fun g => { g with running := some c }).clr F.GAU_STATUS_WAIT).beginRun c)

/-! ### Results (R431, R433, R436) -/

/-- A signed correction clamped to its field: the state, and whether it was clamped. -/
def State.trim (s : State) (f : Fld) (width : Nat) (v : Int) : State × Bool :=
  (s.setFld f (ofSigned width (satTo width v)), overflows width v)

/-- The corrections of a list of fields from the measured values, in order. -/
def trimAll (width : Nat) : List (Fld × Int) → State → State × Bool
  | [], s => (s, false)
  | (f, v) :: rest, s =>
    let (s, c) := s.trim f width v
    let (s, d) := trimAll width rest s
    (s, c || d)

/-- The value of largest magnitude. -/
def largest (l : List Int) : Int := l.foldl (fun m x => if m.natAbs < x.natAbs then x else m) 0

/-- The heater code at contact: the first step whose variance exceeds twice that of step 0, else none by step 63. -/
def touchdownStep (l : List Int) : Option Nat := (l.take 64).findIdx? fun v => 2 * l.getD 0 0 < v

/-- The results of a TOUCHDOWN run: RAW, whether RESULT is 1, whether a field was clamped. -/
def State.touchdown (s : State) (a h : Nat) (l : List Int) : State × Int × Bool × Bool :=
  let c := (touchdownStep l).getD 63 * s.fld F.GAU_CFG_TD_STEP
  let rd := s.fld F.GAU_CFG_RD_BACKOFF
  let wr := s.fld F.GAU_CFG_WR_BACKOFF
  let s := (s.setFld (F.ACT_HEAD_HEAT_RD a h) (c - rd)).setFld (F.ACT_HEAD_HEAT_WR a h) (c - wr)
  (s, c, (touchdownStep l).isNone, c < rd || c < wr)

/-- The codes that an ASSIST run tries. -/
def State.assistCodes (s : State) (a h : Nat) : List Int :=
  let code : Int := s.fld (F.ACT_HEAD_ASSIST_CODE a h)
  let step : Int := s.fld F.GAU_CFG2_AP_STEP
  (List.range 16).map fun (k : Nat) => clampInt 0 65535 (code + ((k : Int) - 8) * step)

/-- The results of an ASSIST run: the lowest code at which no sector was weak, plus the headroom. -/
def State.assistRun (s : State) (a h : Nat) (l : List Int) : State × Int × Bool × Bool :=
  let codes := s.assistCodes a h
  let head : Int := s.fld F.GAU_CFG_AP_HEADROOM * s.fld F.GAU_CFG2_AP_STEP
  match (List.range 16).find? fun k => l[k]? == some 0 with
  | some k =>
    let v := codes.getD k 0 + head
    (s.setFld (F.ACT_HEAD_ASSIST_CODE a h) (clampInt 0 65535 v).toNat, v, false, 65535 < v)
  | none =>
    let v := codes.getD 15 0
    (s.setFld (F.ACT_HEAD_ASSIST_CODE a h) v.toNat, v, true, false)

/-- The corrections of a run: the state, RAW, whether RESULT is 1 of itself, and whether a field was clamped. -/
def State.calibResults (s : State) (c : Calibration) (m : List Int) : State × Int × Bool × Bool :=
  let v (k : Nat) : Int := m.getD k 0
  let fields (width : Nat) (l : List Fld) : State × Int × Bool × Bool :=
    let (s, sat) := trimAll width (l.zipIdx.map fun f => (f.1, v f.2)) s
    (s, largest ((List.range l.length).map v), false, sat)
  match c.kind with
  | 1 => fields 8 [F.GAU_ADC_OFFSET c.slice]
  | 2 => fields 8 [F.GAU_ADC_GAIN c.slice]
  | 3 => fields 4 ((List.range 8).map fun k => ⟨R.GAU_SKEW c.slice, 4 * k, 4⟩)
  | 4 => fields 8 [F.GAU_RDR_GAIN_R1 c.act c.head, F.GAU_RDR_GAIN_R2 c.act c.head, F.GAU_RDR_ASYM_R1 c.act c.head, F.GAU_RDR_ASYM_R2 c.act c.head]
  | 5 => s.touchdown c.act c.head m
  | 6 => s.assistRun c.act c.head m
  | 7 => fields 8 [F.GAU_ISENSE_SPN_U, F.GAU_ISENSE_SPN_V, F.GAU_ISENSE_SPN_W]
  | 8 => fields 8 [if c.act = 0 then F.GAU_ISENSE_VCM_A else F.GAU_ISENSE_VCM_B]
  | _ => fields 8 [F.GAU_TEMP_MON0, F.GAU_TEMP_MON1, F.GAU_TEMP_MON2]

/-- CALIBRATION_END (R433, R435, R436): the corrections are written in one step, and the target returns to service. -/
def execCalibrationEnd (m : List Int) (s : State) : Host.Outcome State Fault Refusal :=
  match s.gauge.running with
  | none => .next s
  | some c =>
    if c.waits ≠ 0 then .next s
    else
      let (s, raw, one, sat) := s.calibResults c m
      let s := s.setSfld F.GAU_RAW_RAW raw
      let s := if sat then s.flag F.GAU_EV_SAT else s
      let s := ((s.clr F.GAU_STATUS_BUSY).flag F.GAU_STATUS_DONE).setFld F.GAU_STATUS_RESULT (if one || sat then 1 else 0)
      .next (s.modGauge fun g => { g with running := none, holdPicks := [], returning := if c.spare then some c else none })

end Sys2Proof.Machine
end

