-- ==== Sys2Proof/Machine/Container.lean ====
section
/-!
DEFINITION. Sys2Proof/Machine/Container.lean: the Pattern container (R39 to R53) and its validation in the ten steps of R54,
with the place of each failure (R504) and the entries a full container must carry (R505).
An entry's fields are given by their place in the payload behind its 4-byte header.
-/

namespace Sys2Proof.Machine

/-- A failed validation: the code of R66 and the place of R504. -/
structure PatFail where
  code : Nat
  panel : Nat
  entry : Nat
  deriving DecidableEq, Repr

/-- A container that has passed. -/
structure Accepted where
  id : Nat
  svn : Nat
  digest : Digest
  entries : List PatternEntry
  geomCrc : Nat
  deriving DecidableEq, Repr

/-- The end of a validation: entries skipped under R42 on the way, and what came of it. -/
structure Verdict where
  skipped : List (Nat × Nat)
  result : Except PatFail Accepted

/-! ### Fields of entries -/

/-- An unsigned field of an entry. -/
def PatternEntry.n (e : PatternEntry) (off width : Nat) : Nat := leField e.payload off width

/-- A signed field of an entry. -/
def PatternEntry.sn (e : PatternEntry) (off width : Nat) : Int := toSigned (8 * width) (e.n off width)

/-- The entries of one kind. -/
def pick (panel code : Nat) (l : List PatternEntry) : List PatternEntry := l.filter fun e => e.panel == panel && e.code == code

/-- The entry of a kind that appears once. -/
def pickOne (panel code : Nat) (l : List PatternEntry) : Option PatternEntry := l.find? fun e => e.panel == panel && e.code == code

/-- An entry of a kind with the ACT given. -/
def pickAct (panel code a : Nat) (l : List PatternEntry) : Option PatternEntry :=
  l.find? fun e => e.panel == panel && e.code == code && e.n 0 1 == a

/-- Heads of an actuator under STACK. -/
def stackHeads (l : List PatternEntry) (a : Nat) : Nat :=
  match pickOne 0 2 l with | some e => e.n (1 + a) 1 | none => 0

/-- Entries of a kind carry ACT in their first byte. -/
def carriesAct (e : PatternEntry) : Bool :=
  (e.panel == 0 && [3, 4, 5].contains e.code) || (e.panel == 1 && [1, 3].contains e.code) ||
    (e.panel == 2 && [1, 2, 3].contains e.code) || (e.panel == 8 && e.code == 3)

/-- The ACT an entry carries. -/
def PatternEntry.act (e : PatternEntry) : Option Nat :=
  if carriesAct e then some (e.n 0 1) else if e.panel == 4 && e.code == 2 then some (e.n 2 1) else none

/-! ### Steps 1 to 5 -/

/-- The header checks of step 1: MAGIC, FORMAT_MAJOR, LENGTH, KIND. -/
def headerCode (img : List Byte) (runtime addrOk : Bool) : Nat :=
  let len := leField img 8 4
  if leField img 0 4 ≠ 0x54505A42 then 1
  else if leField img 4 2 ≠ 2 then 2
  else if len % 16 ≠ 0 || len < 0x200 || (if runtime then 0x40000 else 0x100000) < len || img.length < len || !addrOk then 3
  else if leField img 0x18 1 ≠ (if runtime then 1 else 0) then 0x11 else 0

/-- DIGEST of a container. -/
def containerDigest (img : List Byte) : Digest := ofDigestBytes (cutBytes img 0x20 32)

/-- The checks of steps 2 to 5 on a container of its own length. -/
def authentic (f : Fuses) (img : List Byte) (activeSvn : Option Nat) : Nat :=
  let d := containerDigest img
  let svn := leField img 0x10 8
  if Config.sm3 (img.take 0x20 ++ img.drop 0xC0) ≠ d then 4
  else
    match signedBy (f.makerHash f.patternKeyHash) (cutBytes img 0x40 64) (cutBytes img 0x80 64) d with
    | none => 5
    | some false => 6
    | some true => if svn < f.svn 4 || svn < activeSvn.getD 0 then 7 else 0

/-! ### Step 6 (R41) -/

/-- Directory slot n: offset and length. -/
def dirSlot (img : List Byte) (n : Nat) : Nat × Nat := (leField img (0x100 + 8 * n) 4, leField img (0x104 + 8 * n) 4)

/-- The panel types a container carries. -/
def carried (img : List Byte) : List Nat := (List.range 10).filter fun n => dirSlot img n != (0, 0)

/-- Two spans share a byte. -/
def overlaps (a b : Nat × Nat) : Bool := a.1 < b.1 + b.2 && b.1 < a.1 + a.2

/-- The directory of a container is in order: R41, but for panels that a full container lacks. -/
def directoryOk (img : List Byte) (runtime : Bool) : Bool :=
  let l := carried img
  ((List.range 6).all fun k => dirSlot img (10 + k) == (0, 0)) &&
  (l.all fun n =>
    let d := dirSlot img n
    d.1 % 16 == 0 && 0x180 ≤ d.1 && d.2 % 4 == 0 && 16 ≤ d.2 && d.1 + d.2 ≤ img.length) &&
  (l.all fun n => l.all fun m => n == m || !overlaps (dirSlot img n) (dirSlot img m)) &&
  (!runtime || (!l.isEmpty && l.all fun n => n == 4 || (7 ≤ n && n ≤ 9)))

/-- The bytes of a panel. -/
def panelBytes (img : List Byte) (n : Nat) : List Byte := cutBytes img (dirSlot img n).1 (dirSlot img n).2

/-- A panel's header (R41). -/
def panelHeaderOk (img : List Byte) (n : Nat) : Bool :=
  let p := panelBytes img n
  leField p 0 1 == n && leField p 1 1 == 1 && leField p 2 2 == 0 && leField p 4 4 == p.length && leField p 12 4 == 0

/-- ENTRY_COUNT of a panel. -/
def entryCount (img : List Byte) (n : Nat) : Nat := leField (panelBytes img n) 8 4

/-- Step 6: the failure, if any. -/
def step6 (img : List Byte) (runtime : Bool) : Option PatFail :=
  if !allZero (cutBytes img 0x19 7) || !allZero (cutBytes img 0xC0 64) || !directoryOk img runtime then some ⟨8, 0xFF, 0⟩
  else
    ((List.range 10).find? fun n =>
      if (carried img).contains n then !panelHeaderOk img n else !runtime).map fun n => ⟨8, n, 0⟩

/-! ### Step 7 (R42) -/

/-- The length that format 0x0002 gives an entry whose payload is known; none for a code it does not define. SPACING may have
any length here: step 10 holds it against STACK. -/
def definedLength (panel code : Nat) (payload : List Byte) : Option Nat :=
  match panel, code with
  | 0, 1 => some 8 | 0, 2 => some 8 | 0, 3 => some 24 | 0, 4 => some (max 8 (payload.length + 4)) | 0, 5 => some 20
  | 1, 1 => some 8 | 1, 2 => some 8 | 1, 3 => some 8 | 1, 4 => some 8 | 1, 5 => some 8 | 1, 6 => some 8
  | 2, 1 => some (8 + 4 * leField payload 3 1) | 2, 2 => some 12 | 2, 3 => some (8 + 4 * leField payload 2 1) | 2, 4 => some 8
  | 3, 1 => some 16
  | 4, 1 => some 16 | 4, 2 => some 24 | 4, 3 => some 8 | 4, 4 => some 8
  | 5, 1 => some 12
  | 6, 1 => some 8
  | 7, 1 => some 8 | 7, 2 => some 8 | 7, 3 => some 8
  | 8, 1 => some 8 | 8, 2 => some 8 | 8, 3 => some 8 | 8, 4 => some 8
  | 9, 1 => some 8 | 9, 2 => some 12
  | _, _ => none

/-- The key under which an entry may appear only once in its panel (R42); none where it may appear more often. The tables of R51
and R52 give READ_PATH, CONFIRM, DIRTY_CEILING, SPINUP_LIMIT and ENERGY_RESERVE no count: that each may appear once is the
model's (DESIGN CHOICE, assumption log 88). -/
def onceKey (e : PatternEntry) : Option Nat :=
  match e.panel, e.code with
  | 0, 3 => none
  | 0, 4 => some (e.n 0 2)
  | 0, 5 => some (e.n 0 1)
  | 1, 1 => some (e.n 0 1)
  | 1, 3 => some (e.n 0 1)
  | 2, 1 => none
  | 2, 2 => none
  | 2, 3 => none
  | 3, 1 => if [1, 2, 4, 5, 7].contains (e.n 0 1) then some (e.n 0 1) else none
  | 4, 1 => none
  | 4, 2 => none
  | 4, 3 => some (e.n 0 1)
  | 4, 4 => some (e.n 0 1)
  | 5, 1 => some (e.n 0 1)
  | 6, 1 => some (e.n 0 2)
  | 7, 1 => some (e.n 0 1)
  | 8, 3 => some (e.n 0 2)
  | _, _ => some 0

/-- The second of two entries that may appear only once. -/
def repeats (l : List PatternEntry) (e : PatternEntry) : Bool :=
  (onceKey e).isSome && l.any fun x => x.code == e.code && onceKey x == onceKey e

/-- The entries of a panel body, the codes that format 0x0002 does not define skipped; a failure of R42 with the entry's index. -/
def parseEntries (panel : Nat) : Nat → Nat → List Byte → List PatternEntry → List (Nat × Nat) →
    List (Nat × Nat) × Except PatFail (List PatternEntry)
  | 0, i, rest, acc, skipped => (skipped, if rest.isEmpty then .ok acc else .error ⟨9, panel, i⟩)
  | k + 1, i, rest, acc, skipped =>
    let w := leField rest 0 2
    let len := leField rest 2 2
    let body := cutBytes rest 4 (len - 4)
    let code := w % 0x100
    if rest.length < 4 || len < 4 || len % 4 ≠ 0 || rest.length < len || w / 0x100 % 0x80 ≠ panel then (skipped, .error ⟨9, panel, i⟩)
    else
      match definedLength panel code body with
      | none =>
        if w.testBit 15 then (skipped, .error ⟨0xA, panel, i⟩)
        else parseEntries panel k (i + 1) (rest.drop len) acc (skipped ++ [(panel, i)])
      | some n =>
        let e : PatternEntry := { panel := panel, index := i, code := code, payload := body }
        if n ≠ len || !w.testBit 15 || repeats acc e then (skipped, .error ⟨9, panel, i⟩)
        else parseEntries panel k (i + 1) (rest.drop len) (acc ++ [e]) skipped

/-- Step 7 over the panels a container carries. -/
def step7 (img : List Byte) : List Nat → List PatternEntry → List (Nat × Nat) → List (Nat × Nat) × Except PatFail (List PatternEntry)
  | [], acc, skipped => (skipped, .ok acc)
  | n :: rest, acc, skipped =>
    let body := (panelBytes img n).drop 16
    match parseEntries n (min (entryCount img n) (body.length / 4 + 1)) 0 body [] [] with
    | (sk, .error e) => (skipped ++ sk, .error e)
    | (sk, .ok l) => step7 img rest (acc ++ l) (skipped ++ sk)

/-! ### Step 8: ranges and relations within an entry -/

/-- A field lies in a range. -/
def PatternEntry.within (e : PatternEntry) (off width lo hi : Nat) : Bool := lo ≤ e.n off width && e.n off width ≤ hi

/-- A reserved field is 0. -/
def PatternEntry.zero (e : PatternEntry) (off width : Nat) : Bool := e.n off width == 0

/-- Coefficients of a BLOCK. -/
def PatternEntry.coefs (e : PatternEntry) : List Int := (List.range (e.n 3 1)).map fun (k : Nat) => e.sn (4 + 4 * k) 4

/-- Points of a GAIN_TABLE. -/
def PatternEntry.points (e : PatternEntry) : List (Int × Nat) := (List.range (e.n 2 1)).map fun (k : Nat) => (e.sn (4 + 4 * k) 2, e.n (6 + 4 * k) 2)

/-- Values of a SPACING entry, padding included. -/
def PatternEntry.spacings (e : PatternEntry) : List Nat := (List.range ((e.payload.length - 4) / 2)).map fun k => e.n (4 + 2 * k) 2

/-- A kind of block with its number of coefficients (R158). -/
def coefsFit (kind n : Nat) : Bool :=
  match kind with
  | 0x01 => n == 1
  | 0x02 => 2 ≤ n && n ≤ 4
  | 0x03 => n == 5
  | 0x04 => n == 10 || n == 15 || n == 20
  | 0x05 => n == 6
  | 0x06 => n == 0
  | 0x07 => n == 2
  | 0x08 => n == 2
  | 0x09 => n == 3
  | 0x0A => 1 ≤ n && n ≤ 16
  | 0x0B => n == 7
  | 0x10 => n == 0
  | 0x11 => n == 0
  | _ => false

/-- Input ports of a block kind. -/
def inPorts (kind n : Nat) : Nat :=
  match kind with
  | 0x02 => n
  | 0x08 => 2
  | 0x09 => 2
  | 0x0B => 2
  | 0x10 => 0
  | 0x11 => 2
  | _ => 1

/-- Cost of a block in PLL_FAB cycles. -/
def blockCost (kind n : Nat) : Nat :=
  match kind with
  | 0x01 => 8
  | 0x02 => 8 + 4 * n
  | 0x03 => 40
  | 0x04 => 8 * n
  | 0x05 => 48
  | 0x06 => 4
  | 0x07 => 8
  | 0x08 => 56
  | 0x09 => 24
  | 0x0A => 8 + 4 * n
  | 0x0B => 64
  | _ => 0

/-- A BLOCK entry under R158 and R161. -/
def blockOk (l : List PatternEntry) (e : PatternEntry) : Bool :=
  let kind := e.n 2 1
  let c := e.coefs
  let table (k : Int) : Bool := (0 ≤ k && k ≤ 7) && (pick 2 3 l).any fun t => t.n 0 1 == e.n 0 1 && ((t.n 1 1 : Nat) : Int) == k
  e.within 0 1 0 1 && e.within 1 1 0 63 && e.within 3 1 0 24 && coefsFit kind c.length &&
  (kind != 0x07 || c.getD 0 0 < c.getD 1 0) && (kind != 0x08 || c.all table) &&
  (kind != 0x05 && kind != 0x0B || (0 ≤ c.getLastD 0 && c.getLastD 0 ≤ 2))

/-- Errors strictly ascending. -/
def ascending : List (Int × Nat) → Bool
  | a :: b :: rest => a.1 < b.1 && ascending (b :: rest)
  | _ => true

/-- A REGION entry under the rule of its kind (R47). -/
def regionOk (e : PatternEntry) : Bool :=
  let mask := e.n 1 1
  let size := e.n 8 4
  e.within 0 1 1 7 && 1 ≤ mask && mask ≤ 3 && e.zero 2 2 &&
    match e.n 0 1 with
    | 1 => size == 64 && mask != 3
    | 2 => mask == 3
    | 4 => mask == 3 && 256 ≤ size
    | 5 => 16 ≤ size && size ≤ 256
    | 7 => 8 ≤ size && size ≤ 64
    | _ => true

/-- A PLL's range in kHz (R49). -/
def pllOk (e : PatternEntry) : Bool :=
  match e.n 0 1 with
  | 0 => e.within 4 4 1200000 2000000
  | 1 => e.within 4 4 800000 1000000
  | 2 => e.within 4 4 4000000 5000000
  | 3 => e.within 4 4 3200000 4267000
  | _ => false

/-- A BALL_GROUP entry (R71 to R73): DRIVE only in a GPIO, debug UART or trace function. -/
def ballOk (e : PatternEntry) : Bool :=
  let g := e.n 0 2
  let fn := e.n 2 1
  let drive := e.n 3 1
  let fns := match g with | 1 => 2 | 2 => 3 | 3 => 2 | 4 => 2 | 5 => 3 | _ => 0
  let drives := g == 1 || (g ≤ 4 && fn != 0)
  fn < fns && drive < 16 && (drive == 0 || drives)

/-- Step 8 for one entry, beside the other entries and the fuses. -/
def fieldsOk (f : Fuses) (l : List PatternEntry) (e : PatternEntry) : Bool :=
  match e.panel, e.code with
  | 0, 1 => e.within 0 2 5400 7200 && e.within 2 2 400 720
  | 0, 2 => e.within 0 1 1 10 && e.within 1 1 1 10 && e.within 2 1 0 10 && e.zero 3 1 && e.n 1 1 + e.n 2 1 == 2 * e.n 0 1
  | 0, 3 =>
    e.within 0 1 0 1 && e.within 1 1 0 31 && e.within 2 2 200 1000 && e.n 4 4 ≤ e.n 8 4 && e.within 8 4 0 16777215 &&
      e.within 12 2 1000 5000 && e.within 14 2 129 2047 && e.within 16 1 0 1 && e.zero 17 3
  | 0, 4 =>
    let h := stackHeads l (e.n 0 1)
    e.within 0 1 0 1 && e.within 1 1 0 31 && e.zero 2 2 &&
      !(h % 2 == 1 && e.spacings.length == h + 1 && e.spacings.getLastD 0 != 0)
  | 0, 5 => e.within 0 1 0 1 && e.within 1 1 2 6 && e.within 2 2 2 64
  | 1, 1 => e.within 0 1 0 1 && e.within 1 1 0 1 && e.within 2 1 0 4 && e.within 3 1 0 4 && e.n 2 1 != e.n 3 1
  | 1, 2 => e.within 0 1 0 4 && e.n 1 1 == 2 && e.zero 2 2
  | 1, 3 => e.within 0 1 0 1 && e.within 1 1 4 7 && e.zero 2 2
  | 1, 4 => e.within 0 1 0 1 && e.within 1 1 1 15 && e.within 2 1 1 8 && e.zero 3 1
  | 1, 5 => e.within 0 1 0 1 && e.zero 1 3
  | 1, 6 => e.within 0 1 0 1 && e.zero 1 3
  | 2, 1 => blockOk l e
  | 2, 2 => e.within 0 1 0 1 && e.zero 5 3
  | 2, 3 => e.within 0 1 0 1 && e.within 1 1 0 7 && e.within 2 1 2 64 && e.zero 3 1 && ascending e.points
  | 2, 4 => e.zero 2 2
  | 3, 1 => regionOk e
  | 4, 1 =>
    e.within 0 1 0 1 && e.within 1 1 0 15 && e.within 2 1 0 2 && e.zero 3 1 && e.within 4 2 2 4096 && e.within 6 2 2 4096 &&
      e.within 8 2 1 2048 && e.zero 10 2
  | 4, 2 =>
    e.within 0 1 1 16 && e.within 1 1 0 2 && e.within 2 1 0 1 && e.zero 3 1 && (if e.n 1 1 = 2 then 2 else 1) ≤ e.n 8 4 && e.zero 16 4
  | 4, 3 => e.within 1 1 1 255 && e.within 2 1 1 255 && e.within 3 1 1 255
  | 4, 4 => e.within 1 1 0 1 && e.zero 2 2
  | 5, 1 => pllOk e && e.zero 1 3
  | 6, 1 => ballOk e
  | 7, 1 => e.within 1 1 0 4 && e.within 2 1 0 1 && e.zero 3 1
  | 7, 2 => e.within 0 1 0 2 && e.zero 1 3
  | 7, 3 => e.within 0 1 0 1 && e.zero 1 3
  | 8, 1 => e.within 0 2 0 512 && e.zero 2 2
  | 8, 2 => e.within 0 2 500 2500 && e.zero 2 2
  | 8, 3 => e.within 0 1 0 1 && (f.variant == .d2m || e.within 2 2 0 f.laserCeiling)
  | 8, 4 => e.within 0 1 10 50 && e.zero 1 3
  | 9, 1 => e.within 0 1 0 7 && e.zero 1 3
  | _, _ => true

/-! ### Step 9: absent units (R7, R38) -/

/-- An entry assigns work to a unit that the part has not. -/
def absentWork (f : Fuses) (e : PatternEntry) : Bool :=
  let cap (b : Nat) : Bool := f.capLo.testBit b
  (e.act == some 1 && !cap 1) ||
    match e.panel, e.code with
    | 0, 2 => e.n 2 1 != 0 && !cap 1
    | 1, 1 => !cap (2 + e.n 1 1) || !cap (5 + e.n 2 1) || !cap (5 + e.n 3 1)
    | 1, 2 => !cap (5 + e.n 0 1) || !cap 4
    | 1, 4 => e.n 0 1 == 1 && !cap 1
    | 7, 1 => (e.n 1 1 != 0 || e.n 2 1 != 0) && !cap 12
    | 8, 3 => !cap 10
    | _, _ => false

/-! ### Step 10: across entries and panels -/

/-- The entry that comes last among some: the place of R504. -/
def lastPlace (l : List PatternEntry) : Nat × Nat :=
  l.foldl (fun m e => if m.1 < e.panel || (m.1 == e.panel && m.2 ≤ e.index) then (e.panel, e.index) else m) (0, 0)

/-- A failure at the last of some entries, where a test fails. -/
def badAt (bad : Bool) (l : List PatternEntry) : List (Nat × Nat) := if bad then [lastPlace l] else []

/-- Actuators with heads. -/
def headedActs (l : List PatternEntry) : List Nat := [0, 1].filter fun a => stackHeads l a != 0

/-- The entries that R505 demands, by panel: those missing put their panel's type here. -/
def missingEntries (l : List PatternEntry) : List Nat :=
  let one (p c : Nat) : List Nat := if (pickOne p c l).isSome then [] else [p]
  let per (p c : Nat) : List Nat := if (headedActs l).all fun a => (pickAct p c a l).isSome then [] else [p]
  let kinds : List Nat := if [1, 2, 4, 5, 7].all fun k => (pick 3 1 l).any fun e => e.n 0 1 == k then [] else [3]
  let spacing : List Nat := if (pick 0 3 l).all fun b => (pick 0 4 l).any fun e => e.n 0 2 == b.n 0 2 then [] else [0]
  let ends (kind : Nat) : List Nat :=
    if (headedActs l).all fun a => (pick 2 1 l).any fun b => b.n 0 1 == a && b.n 2 1 == kind then [] else [2]
  one 0 1 ++ one 0 2 ++ per 0 3 ++ spacing ++ per 0 5 ++ per 1 1 ++ per 1 3 ++ one 1 2 ++ one 1 4 ++ one 1 5 ++ one 1 6 ++
    ends 0x10 ++ ends 0x11 ++ one 2 4 ++ kinds ++ one 4 1

/-- No entry carries the ACT of an actuator without heads (R505); STACK takes part. -/
def headlessPlaces (l : List PatternEntry) : List (Nat × Nat) :=
  (l.filter fun e => match e.act with | some a => stackHeads l a == 0 | none => false).map fun e =>
    lastPlace (e :: (pickOne 0 2 l).toList)

/-- The BAND entries of an actuator. -/
def bandsOf (l : List PatternEntry) (a : Nat) : List PatternEntry := (pick 0 3 l).filter fun e => e.n 0 1 == a

/-- The BAND before one. -/
def bandBefore (l : List PatternEntry) (b : PatternEntry) : Option PatternEntry := (bandsOf l (b.n 0 1)).find? fun e => e.n 1 1 + 1 == b.n 1 1

/-- Bands are numbered without gaps, each once, their tracks contiguous and ascending (R43). -/
def bandPlaces (l : List PatternEntry) : List (Nat × Nat) :=
  (pick 0 3 l).flatMap fun b =>
    let same := (bandsOf l (b.n 0 1)).filter fun e => e.n 1 1 == b.n 1 1
    badAt (2 ≤ same.length) same ++
      match bandBefore l b with
      | some p => badAt (p.n 8 4 + 1 != b.n 4 4) [p, b]
      | none => badAt (b.n 1 1 != 0) [b]

/-- SPACING entries have their bands and the length STACK gives them; spacings and TWIN agree (R43, R44). -/
def spacingPlaces (l : List PatternEntry) : List (Nat × Nat) :=
  (pick 0 4 l).flatMap fun e =>
    let h := stackHeads l (e.n 0 1)
    let pitchOk (b : PatternEntry) : Bool :=
      (e.spacings.take h).all fun v => 10 * v ≤ 11 * b.n 2 2 && 9 * b.n 2 2 ≤ 10 * v
    match (bandsOf l (e.n 0 1)).find? fun b => b.n 1 1 == e.n 1 1 with
    | none => [(0, e.index)]
    | some b =>
      badAt (e.spacings.length != h + h % 2) (e :: (pickOne 0 2 l).toList) ++ badAt (b.n 16 1 == 1 && !pitchOk b) [b, e]

/-- Format efficiency, TWIN_EN and the clock of a band (R44, R45, R49). -/
def ratePlaces (l : List PatternEntry) : List (Nat × Nat) :=
  let speed := pickOne 0 1 l
  let rpm := (speed.map fun e => e.n 0 2).getD 0
  let ch := (pick 5 1 l).find? fun e => e.n 0 1 == 2
  let khz := (ch.map fun e => e.n 4 4).getD 5000000
  (pick 0 3 l).flatMap fun b =>
    badAt (83 * b.n 12 2 * 10 ^ 6 * 60 < b.n 14 2 * 32768 * rpm * 100) (b :: speed.toList) ++
      (match pickAct 1 3 (b.n 0 1) l with
       | some m => badAt (b.n 16 1 == 1 && !(m.n 1 1).testBit 0) [b, m]
       | none => []) ++
      badAt (khz < b.n 12 2 * 1000) (b :: ch.toList)

/-- A sum over entries. -/
def sumOf (l : List PatternEntry) (off width : Nat) : Nat := l.foldl (fun m e => m + e.n off width) 0

/-- The band of an entry, for the placement of zones. -/
def PatternEntry.band (e : PatternEntry) (twin : Bool) : Band :=
  { act := e.n 0 1, band := e.n 1 1, pitch := e.n 2 2, firstTrack := e.n 4 4, lastTrack := e.n 8 4, rate := e.n 12 2,
    spt := e.n 14 2, twin := twin }

/-- Bands in order, from the outer diameter. -/
def insertBand (b : Band) : List Band → List Band
  | [] => [b]
  | c :: rest => if b.band < c.band then b :: c :: rest else c :: insertBand b rest

/-- The bands of an actuator in their order. -/
def orderedBands (l : List PatternEntry) (a : Nat) : List Band :=
  ((bandsOf l a).map fun e => e.band (e.n 16 1 == 1)).foldl (fun m b => insertBand b m) []

/-- Every zone of an actuator has its place (R239): the last zone of each surface has one. -/
def zonesFit (l : List PatternEntry) (a : Nat) (z : PatternEntry) : Bool :=
  let heads := stackHeads l a
  let spaced := z.n 2 2 + z.n 4 4 + z.n 8 4
  let total := spaced + z.n 12 4
  (List.range heads).all fun h =>
    let n := shareOf total h heads
    n == 0 || (placeZone (z.n 1 1) (orderedBands l a) (shareOf spaced h heads) (n - 1)).isSome

/-- The zone limits of R44 and R248, and the fit. -/
def zonePlaces (l : List PatternEntry) : List (Nat × Nat) :=
  let z := pick 0 5 l
  let conv := sumOf z 4 4
  let cache := sumOf z 8 4
  let data := conv + cache + sumOf z 12 4
  badAt (data * 2 / 100 < conv || cache < (data * 5 + 999) / 1000 || 476837 < data || sumOf z 2 2 < 8) z ++
    z.flatMap fun e => badAt (!zonesFit l (e.n 0 1) e) (e :: (bandsOf l (e.n 0 1) ++ (pickOne 0 2 l).toList))

/-- Two entries of a list, the later one named: pairs that satisfy a test. -/
def pairPlaces (l : List PatternEntry) (bad : PatternEntry → PatternEntry → Bool) : List (Nat × Nat) :=
  l.flatMap fun e => badAt (l.any fun x => x.index < e.index && bad x e) [e]

/-- Topology: Needles and slices serve one actuator each, the spare none (R45). The table says 'each used once' of the Needles
alone; that two ACTUATOR entries share no slice either is the model's (DESIGN CHOICE, assumption log 89). -/
def topologyPlaces (l : List PatternEntry) : List (Nat × Nat) :=
  let acts := pick 1 1 l
  let slices (e : PatternEntry) : List Nat := [e.n 2 1, e.n 3 1]
  pairPlaces acts (fun x e => x.n 1 1 == e.n 1 1 || (slices x).any (slices e).contains) ++
    (pick 1 2 l).flatMap fun sp => let named := acts.filter fun e => (slices e).contains (sp.n 0 1)
      badAt (!named.isEmpty) (sp :: named)

/-! #### The Loop panel (R46, R161) -/

/-- The block of an entry. -/
def PatternEntry.block (e : PatternEntry) : LoopBlock := { act := e.n 0 1, id := e.n 1 1, kind := e.n 2 1, coefs := e.coefs }

/-- The wire of an entry. -/
def PatternEntry.wire (e : PatternEntry) : LoopWire :=
  { act := e.n 0 1, src := e.n 1 1, srcPort := e.n 2 1, dst := e.n 3 1, dstPort := e.n 4 1 }

/-- Blocks that lie up the wires from a set, the set with them, after n rounds. -/
def upstream (wires : List LoopWire) : Nat → List Nat → List Nat
  | 0, l => l
  | n + 1, l => upstream wires n (l ++ ((wires.filter fun w => l.contains w.dst && !l.contains w.src).map (·.src)).eraseDups)

/-- Blocks that lie down the wires from a set, the set with them, after n rounds. -/
def downstream (wires : List LoopWire) : Nat → List Nat → List Nat
  | 0, l => l
  | n + 1, l => downstream wires n (l ++ ((wires.filter fun w => l.contains w.src && !l.contains w.dst).map (·.dst)).eraseDups)

/-- Each OUTPUT input has one preset block upstream that names it, with no DELAY on a path between (R161). -/
def presetOk (g : Graph) (out port : Nat) : Bool :=
  match g.wireTo out port with
  | none => false
  | some w =>
    let up := upstream g.wires g.blocks.length [w.src]
    match g.blocks.filter fun b => up.contains b.id && b.preset == port + 1 with
    | [b] =>
      let down := downstream g.wires g.blocks.length [b.id]
      !g.blocks.any fun x => x.kind == 0x06 && up.contains x.id && down.contains x.id
    | _ => false

/-- The blocks of a graph that no order reaches lie on a cycle, or behind one: those on one. -/
def onCycle (g : Graph) (b : LoopBlock) : Bool :=
  let free := g.wires.filter fun w => !g.blocks.any fun x => x.kind == 0x06 && (x.id == w.src || x.id == w.dst)
  b.kind != 0x06 && free.any fun w => w.src == b.id && (downstream free g.blocks.length [w.dst]).contains b.id

/-- The faults of one actuator's graph. R46 names neither step nor code for more than 64 BLOCK or 128 WIRE entries of an actuator:
they are found here, at step 10 with 0x0D (DESIGN CHOICE, assumption log 90). -/
def graphPlaces (l : List PatternEntry) (a : Nat) : List (Nat × Nat) :=
  let bs := (pick 2 1 l).filter fun e => e.n 0 1 == a
  let ws := (pick 2 2 l).filter fun e => e.n 0 1 == a
  let g : Graph := { blocks := bs.map (·.block), wires := ws.map (·.wire) }
  let at_ (id : Nat) : List PatternEntry := bs.filter fun e => e.n 1 1 == id
  let kindOf (k : Nat) : List PatternEntry := bs.filter fun e => e.n 2 1 == k
  let outHas (w : PatternEntry) : Bool := (at_ (w.n 1 1)).any fun b => w.n 2 1 < outPorts (b.n 2 1)
  let inHas (w : PatternEntry) : Bool := (at_ (w.n 3 1)).any fun b => w.n 4 1 < inPorts (b.n 2 1) (b.n 3 1)
  let fab := (pick 5 1 l).find? fun e => e.n 0 1 == 1
  let cost := bs.foldl (fun m b => m + blockCost (b.n 2 1) (b.n 3 1)) 0
  let cyc := bs.filter fun e => onCycle g e.block
  pairPlaces bs (fun x e => x.n 1 1 == e.n 1 1) ++
    badAt (64 < bs.length) bs ++ badAt (128 < ws.length) ws ++
    (ws.flatMap fun w => badAt (!outHas w || !inHas w) (w :: (at_ (w.n 1 1) ++ at_ (w.n 3 1)))) ++
    pairPlaces ws (fun x e => x.n 3 2 == e.n 3 2) ++
    (bs.flatMap fun b => badAt (!(List.range (inPorts (b.n 2 1) (b.n 3 1))).all fun p => (g.wireTo (b.n 1 1) p).isSome) [b]) ++
    badAt (1 < (kindOf 0x10).length) (kindOf 0x10) ++ badAt (1 < (kindOf 0x11).length) (kindOf 0x11) ++
    badAt (3600 * ((fab.map fun e => e.n 4 4).getD 1000000) < cost * 1000000) (bs ++ fab.toList) ++
    badAt (!cyc.isEmpty) (cyc ++ ws.filter fun w => cyc.any fun b => b.n 1 1 == w.n 1 1 && cyc.any fun c => c.n 1 1 == w.n 3 1) ++
    (kindOf 0x11).flatMap fun o => badAt (!presetOk g (o.n 1 1) 0 || !presetOk g (o.n 1 1) 1) [o]

/-- The Loop panel. That two GAIN_TABLE entries of an actuator share no TABLE is the model's: R46 gives no uniqueness of TABLE
(DESIGN CHOICE, assumption log 90). -/
def loopPlaces (l : List PatternEntry) : List (Nat × Nat) :=
  pairPlaces (pick 2 3 l) (fun x e => x.n 0 2 == e.n 0 2) ++ (headedActs l).flatMap (graphPlaces l)

/-! #### Memory, Host and the other panels -/

/-- Regions: counts, the end of the data space, overlaps (R47, R368). -/
def memoryPlaces (l : List PatternEntry) : List (Nat × Nat) :=
  let r := pick 3 1 l
  (r.flatMap fun e =>
    badAt (3584 < e.n 4 4 + e.n 8 4) [e] ++
      badAt (4 ≤ (r.filter fun x => x.index < e.index && x.n 0 1 == e.n 0 1).length) [e]) ++
    pairPlaces r fun x e => x.n 1 1 &&& e.n 1 1 != 0 && overlaps (x.n 4 4, x.n 8 4) (e.n 4 4, e.n 8 4)

/-- CNTLID of a CONTROLLER entry. -/
def PatternEntry.cntlid (e : PatternEntry) : Nat := 16 * e.n 0 1 + e.n 1 1

/-- Controllers (R48, R264). R48 names neither step nor code for two CONTROLLER entries of one port and function: they are found
here, at step 10 with 0x0D (DESIGN CHOICE, assumption log 91). -/
def controllerPlaces (l : List PatternEntry) : List (Nat × Nat) :=
  let c := pick 4 1 l
  let mode := match pickOne 1 5 l with | some e => e.n 0 1 | none => 0
  let port (p : Nat) : List PatternEntry := c.filter fun e => e.n 0 1 == p
  let gap (p : Nat) : Bool := (port p).any fun e => e.n 1 1 != 0 && !(port p).any fun x => x.n 1 1 + 1 == e.n 1 1
  (c.flatMap fun e => badAt (mode == 1 && e.n 0 1 != 0) (e :: (pickOne 1 5 l).toList)) ++
    pairPlaces c (fun x e => x.cntlid == e.cntlid) ++
    badAt (4096 < sumOf c 4 2 || 4096 < sumOf c 6 2 || 2048 < sumOf (port 0) 8 2 || 2048 < sumOf (port 1) 8 2) c ++
    [0, 1].flatMap fun p => badAt (!(port p).isEmpty && gap p) (port p)

/-- The global zones that a namespace of a type may hold on an actuator: first and end. -/
def zoneSpan (l : List PatternEntry) (a type : Nat) : Nat × Nat :=
  let all (z : PatternEntry) : Nat := z.n 2 2 + z.n 4 4 + z.n 8 4 + z.n 12 4
  let base := if a = 0 then 0 else ((pickAct 0 5 0 l).map all).getD 0
  match pickAct 0 5 a l with
  | none => (0, 0)
  | some z =>
    if type = 0 then (base + z.n 2 2, base + z.n 2 2 + z.n 4 4)
    else (base + z.n 2 2 + z.n 4 4 + z.n 8 4, base + all z)

/-- Namespaces, arbitration and urgent entries (R48, R287). R48 names neither step nor code for a second NAMESPACE entry of an
NSID: it is found here, at step 10 with 0x0D (DESIGN CHOICE, assumption log 91). -/
def namespacePlaces (l : List PatternEntry) : List (Nat × Nat) :=
  let n := pick 4 2 l
  let exist (c : Nat) : Bool := (pick 4 1 l).any fun e => e.cntlid == c
  (n.flatMap fun e =>
    let sp := zoneSpan l (e.n 2 1) (e.n 1 1)
    badAt (e.n 4 4 < sp.1 || sp.2 < e.n 4 4 + e.n 8 4) [e] ++
      badAt (!(List.range 32).all fun c => !(e.n 12 4).testBit c || exist c) [e]) ++
    pairPlaces n (fun x e => x.n 0 1 == e.n 0 1 || overlaps (x.n 4 4, x.n 8 4) (e.n 4 4, e.n 8 4)) ++
    (pick 4 3 l ++ pick 4 4 l).flatMap fun e => badAt (!exist (e.n 0 1)) [e]

/-- Pin, Security and Energy panels (R51, R52, R61, R73). -/
def otherPlaces (l : List PatternEntry) : List (Nat × Nat) :=
  let mode := match pickOne 1 5 l with | some e => e.n 0 1 | none => 0
  let cache := (pick 3 1 l).find? fun e => e.n 0 1 == 2
  ((pick 6 1 l).flatMap fun e => badAt (e.n 0 2 == 4 && e.n 2 1 == 1 && mode != 1) [e]) ++
    ((pick 7 1 l).flatMap fun e => badAt (!(pick 4 2 l).any fun n => n.n 0 1 == e.n 0 1) [e]) ++
    ((pick 8 1 l).flatMap fun e => badAt (((cache.map fun c => c.n 8 4).getD 0) < e.n 0 2) [e]) ++
    (pick 8 3 l).flatMap fun e => badAt (stackHeads l (e.n 0 1) ≤ e.n 1 1) [e]

/-- Step 10, in the order of the panels: the first place of a failure. -/
def step10 (img : List Byte) (l : List PatternEntry) (runtime : Bool) : Option (Nat × Nat) :=
  let missing := if runtime then [] else (missingEntries l).map fun p => (p, entryCount img p)
  (missing ++ headlessPlaces l ++ bandPlaces l ++ spacingPlaces l ++ ratePlaces l ++ zonePlaces l ++ topologyPlaces l ++
    loopPlaces l ++ memoryPlaces l ++ controllerPlaces l ++ namespacePlaces l ++ otherPlaces l).head?

/-! ### Fixed entries of a runtime container (R60) -/

/-- An entry of class F of a runtime panel. -/
def fixedEntry (e : PatternEntry) : Bool := (e.panel == 4 && (e.code == 1 || e.code == 2)) || (e.panel == 7 && e.code == 1)

/-- Two entries carry the same bytes. -/
def sameEntry (x y : PatternEntry) : Bool := x.panel == y.panel && x.code == y.code && x.payload == y.payload

/-- The first fixed entry changed, added or omitted. -/
def fixedPlace (img : List Byte) (carriedEntries active : List PatternEntry) : Option (Nat × Nat) :=
  ((carried img).flatMap fun p =>
    let new := carriedEntries.filter fun e => e.panel == p && fixedEntry e
    let old := active.filter fun e => e.panel == p && fixedEntry e
    ((new.filter fun e => !old.any (sameEntry e)).map fun e => (e.panel, e.index)) ++
      (if old.all fun e => new.any (sameEntry e) then [] else [(p, entryCount img p)])).head?

/-! ### The ten steps (R54) -/

/-- Validate a full container, or a runtime container against the active entries and SVN. -/
def validatePattern (f : Fuses) (img : List Byte) (active : Option (List PatternEntry × Nat)) (addrOk : Bool) : Verdict :=
  let stop (c : Nat) : Verdict := { skipped := [], result := .error ⟨c, 0xFF, 0⟩ }
  let h := headerCode img active.isSome addrOk
  if h ≠ 0 then stop h
  else
    let img := img.take (leField img 8 4)
    let a := authentic f img (active.map (·.2))
    if a ≠ 0 then stop a
    else
      match step6 img active.isSome with
      | some e => { skipped := [], result := .error e }
      | none =>
        match step7 img (carried img) [] [] with
        | (sk, .error e) => { skipped := sk, result := .error e }
        | (sk, .ok l) =>
          let old := (active.map (·.1)).getD []
          let whole := l ++ old.filter fun e => !(carried img).contains e.panel
          let r : Except PatFail Accepted :=
            match l.find? fun e => !fieldsOk f whole e with
            | some e => .error ⟨0xB, e.panel, e.index⟩
            | none =>
              match l.find? (absentWork f) with
              | some e => .error ⟨0xC, e.panel, e.index⟩
              | none =>
                match step10 img whole active.isSome with
                | some p => .error ⟨0xD, p.1, p.2⟩
                | none =>
                  match (if active.isSome then fixedPlace img l old else none) with
                  | some p => .error ⟨0xE, p.1, p.2⟩
                  | none => .ok { id := leField img 12 4, svn := leField img 16 8, digest := containerDigest img, entries := l,
                                  geomCrc := (crc32c (panelBytes img 0)).toNat }
          { skipped := sk, result := r }

/-! ### Reading a Pattern out of its entries -/

/-- The Geometry panel. -/
def readGeometry (l : List PatternEntry) : Geometry :=
  { rpm := ((pickOne 0 1 l).map fun e => e.n 0 2).getD 7200, wedges := ((pickOne 0 1 l).map fun e => e.n 2 2).getD 600,
    platters := ((pickOne 0 2 l).map fun e => e.n 0 1).getD 0, headsA := stackHeads l 0, headsB := stackHeads l 1,
    bands := orderedBands l 0 ++ orderedBands l 1,
    spacing := (pick 0 4 l).map fun e => (e.n 0 1, e.n 1 1, e.spacings.take (stackHeads l (e.n 0 1))),
    zones := (pick 0 5 l).map fun e =>
      { act := e.n 0 1, selvedge := e.n 1 1, system := e.n 2 2, conv := e.n 4 4, cache := e.n 8 4, seq := e.n 12 4 } }

/-- The Topology panel. -/
def readTopology (l : List PatternEntry) : Topology :=
  let row := pickOne 1 4 l
  { actuators := (pick 1 1 l).map fun e =>
      let m := ((pickAct 1 3 (e.n 0 1) l).map fun m => m.n 1 1).getD 4
      { act := e.n 0 1, needle := e.n 1 1, sliceP := e.n 2 1, sliceQ := e.n 3 1, twinEn := m.testBit 0, pairEn := m.testBit 1 },
    spareSlice := ((pickOne 1 2 l).map fun e => e.n 0 1).getD 4, standby := ((pickOne 1 2 l).map fun e => e.n 1 1).getD 2,
    master := (row.map fun e => e.n 0 1).getD 0, wedgeWin := (row.map fun e => e.n 1 1).getD 8,
    flywheelMax := (row.map fun e => e.n 2 1).getD 4, portMode := ((pickOne 1 5 l).map fun e => e.n 0 1).getD 0,
    legacy := ((pickOne 1 6 l).map fun e => e.n 0 1 == 1).getD false }

/-- The Loop panel. -/
def readLoop (l : List PatternEntry) : Loop :=
  { blocks := (pick 2 1 l).map (·.block), wires := (pick 2 2 l).map (·.wire),
    gains := (pick 2 3 l).map fun e => { act := e.n 0 1, table := e.n 1 1, points := e.points },
    level := ((pickOne 2 4 l).map fun e => e.n 0 2).getD 0 }

/-- The Host panel. -/
def readHost (l : List PatternEntry) : HostPanel :=
  { controllers := (pick 4 1 l).map fun e =>
      { port := e.n 0 1, function := e.n 1 1, frontPair := e.n 2 1, sqMax := e.n 4 2, cqMax := e.n 6 2, msix := e.n 8 2 },
    namespaces := (pick 4 2 l).map fun e =>
      { nsid := e.n 0 1, type := e.n 1 1, act := e.n 2 1, firstZone := e.n 4 4, zoneCount := e.n 8 4, controllers := e.n 12 4 },
    arbitration := (pick 4 3 l).map fun e => (e.n 0 1, e.n 1 1, e.n 2 1, e.n 3 1),
    urgent := (pick 4 4 l).map fun e => (e.n 0 1, e.n 1 1) }

/-- The Security panel, with the defaults of R51. -/
def readSecurity (l : List PatternEntry) : SecurityPanel :=
  { nsCipher := (pick 7 1 l).map fun e => (e.n 0 1, e.n 1 1, e.n 2 1),
    readPath := ((pickOne 7 2 l).map fun e => e.n 0 1).getD 0, autoConfirm := ((pickOne 7 3 l).map fun e => e.n 0 1 == 1).getD false }

/-- The Energy panel, with the defaults of R52. -/
def readEnergy (l : List PatternEntry) : EnergyPanel :=
  { dirtyCeiling := ((pickOne 8 1 l).map fun e => e.n 0 2).getD 0, spinup := ((pickOne 8 2 l).map fun e => e.n 0 2).getD 2000,
    laser := (pick 8 3 l).map fun e => (e.n 0 1, e.n 1 1, e.n 2 2), reserve := ((pickOne 8 4 l).map fun e => e.n 0 1).getD 20 }

/-- The Recorder panel, with the defaults of R53. -/
def readRecorder (l : List PatternEntry) : RecorderPanel :=
  { min := ((pickOne 9 1 l).map fun e => e.n 0 1).getD 0, sources := ((pickOne 9 2 l).map fun e => e.n 0 8).getD (2 ^ 64 - 1) }

/-- The Pattern that a full container holds. -/
def Accepted.pattern (a : Accepted) : Pattern :=
  let l := a.entries
  { id := a.id, svn := a.svn, digest := a.digest, geometry := readGeometry l, topology := readTopology l, loop := readLoop l,
    memory := (pick 3 1 l).map fun e => { kind := e.n 0 1, dieMask := e.n 1 1, base := e.n 4 4, size := e.n 8 4 },
    host := readHost l, clock := (pick 5 1 l).map fun e => (e.n 0 1, e.n 4 4),
    pins := (pick 6 1 l).map fun e => (e.n 0 2, e.n 2 1, e.n 3 1), security := readSecurity l, energy := readEnergy l,
    recorder := readRecorder l, geomCrc := a.geomCrc }

end Sys2Proof.Machine
end

