-- ==== Sys2Proof/Machine/Repattern.lean ====
section
/-!
DEFINITION. Sys2Proof/Machine/Repattern.lean: the Pattern loader: the registers that a Pattern sets (R21, R64, R74, R110), the
runtime re-Pattern (R59 to R63), and the Pattern lock (R64).
-/

namespace Sys2Proof.Machine

/-! ### Registers that the loader writes -/

/-- A DIGEST in eight registers, byte 4n in bits 7:0 of word n (R66). -/
def State.putDigest (s : State) (reg : Nat → Nat) (d : Digest) : State :=
  (List.range 8).foldl (fun s k => s.setReg (reg k) (BitVec.ofNat 32 (leField (digestBytes d) (4 * k) 4))) s

/-- Where the last validation failed (R504). -/
def State.putLoc (s : State) (panel entry : Nat) : State :=
  (s.setFld F.PAT_ERR_LOC_PANEL panel).setFld F.PAT_ERR_LOC_ENTRY entry

/-- The entries skipped under R42 are recorded. R42 and the event table give no payload: panel and entry index are the model's
(DESIGN CHOICE, assumption log 92). -/
def State.recordSkipped (s : State) (l : List (Nat × Nat)) : State := l.foldl (fun s e => s.event 2 2 2 e.1 e.2) s

/-- The Row period of a speed and a wedge count, to the nearest picosecond (R21). -/
def rowPeriodOf (rpm wedges : Nat) : Nat := (60 * 10 ^ 12 + rpm * wedges / 2) / (rpm * wedges)

/-- The limit of a head's laser energy: its LASER_LIMIT entry, or the fused ceiling (R52, R198). -/
def State.headLimit (s : State) (a h : Nat) : Nat :=
  ((s.pattern.active.energy.laser.find? fun l => l.1 == a && l.2.1 == h).map (·.2.2)).getD s.fuse.laserCeiling

/-- Every head of the drive: actuator and number. -/
def State.allHeads (s : State) : List (Nat × Nat) :=
  ([0, 1].filter s.hasAct).flatMap fun a => (List.range (s.headCount a)).map fun h => (a, h)

/-- The effective dirty ceiling follows KEEP_MODEL and the last energy-derived figure (R61, R99). -/
def State.effectiveCeiling (s : State) : State :=
  s.setFld F.KEEP_CEILING_EFFECTIVE_MIB (min (s.fld F.KEEP_CEILING_ENERGY_MIB) (s.fld F.KEEP_MODEL_DIRTY_CEILING_MIB))

/-- The Energy panel's registers. -/
def State.loadEnergy (s : State) : State :=
  let e := s.pattern.active.energy
  (((s.setFld F.KEEP_MODEL_DIRTY_CEILING_MIB e.dirtyCeiling).setFld F.KEEP_MODEL_RESERVE_PCT e.reserve).setFld
    F.PWR_CTRL_SPINUP_MA e.spinup).effectiveCeiling

/-- The Recorder panel's registers. -/
def State.loadRecorder (s : State) : State :=
  let r := s.pattern.active.recorder
  ((s.setFld F.REC_FILTER_MIN r.min).setFld F.REC_SOURCES_LO_MASK_LO (r.sources % 2 ^ 32)).setFld F.REC_SOURCES_HI_MASK_HI
    (r.sources / 2 ^ 32 % 2 ^ 32)

/-- The function of a ball group; 0 without an entry (R50). -/
def State.groupFn (s : State) (g : Nat) : Nat := ((s.pattern.active.pins.find? fun p => p.1 == g).map (·.2.1)).getD 0

/-- The ball functions in force (R74). -/
def State.loadPins (s : State) : State :=
  (((((s.setFld F.SYS_BALL_FUNC_GPIO_FN (s.groupFn 1)).setFld F.SYS_BALL_FUNC_TRACE_FN (s.groupFn 2)).setFld
    F.SYS_BALL_FUNC_STATUS_FN (s.groupFn 3)).setFld F.SYS_BALL_FUNC_PORT1_SB_FN (s.groupFn 4)).setFld
    F.SYS_BALL_FUNC_SIDEBAND_FN (s.groupFn 5)).traceReg

/-- Every register that the active Pattern sets at cast-on (R64). -/
def State.loadPatternRegs (s : State) : State :=
  let p := s.pattern.active
  let t := p.topology
  let s := ((s.setFld F.ROWT_CTRL_MASTER t.master).setFld F.ROWT_CTRL_WEDGE_WIN t.wedgeWin).setFld F.ROWT_CTRL_FLYWHEEL_MAX t.flywheelMax
  let period := rowPeriodOf p.geometry.rpm p.geometry.wedges
  let s := (s.setFld F.ROWT_IDLE_PERIOD_PERIOD_PS period).setFld F.ROWT_PERIOD_PERIOD_PS period
  let s := ((s.loadEnergy).loadRecorder).loadPins
  let s := s.allHeads.foldl (fun s h => s.setFld (F.ACT_HEAD_LLIM_LIMIT h.1 h.2) (s.headLimit h.1 h.2)) s
  let s := ((s.setBit F.PAT_STATUS_LEGACY t.legacy).setFld F.PAT_ID_ID p.id).setFld F.PAT_GEOM_CRC_CRC p.geomCrc
  ((s.setFld F.PAT_SVN_LO_SVN_LO (p.svn % 2 ^ 32)).setFld F.PAT_SVN_HI_SVN_HI (p.svn / 2 ^ 32)).putDigest R.PAT_DIGEST p.digest

/-! ### Runtime panels (R60, R61) -/

/-- A Pattern with the runtime panels of some entries in place of its own. -/
def Pattern.withPanels (p : Pattern) (l : List PatternEntry) (panels : List Nat) : Pattern :=
  { p with
    host := if panels.contains 4 then readHost l else p.host
    security := if panels.contains 7 then readSecurity l else p.security
    energy := if panels.contains 8 then readEnergy l else p.energy
    recorder := if panels.contains 9 then readRecorder l else p.recorder }

/-- The panels of a container replace the active ones, with their registers; laser limits wait for the next revolution. -/
def State.applyPanels (s : State) (l : List PatternEntry) (panels : List Nat) (d : Digest) (svn : Nat) : State :=
  let s := s.modPattern fun u =>
    { u with active := u.active.withPanels l panels,
             entries := (u.entries.filter fun e => !panels.contains e.panel) ++ l, runtimeSvn := some svn }
  let s := if panels.contains 8 then
      let s := s.loadEnergy
      [0, 1].foldl (fun (s : State) a =>
        s.modAct a fun x => { x with limits := (List.range (s.headCount a)).map fun h => (h, s.headLimit a h) }) s
    else s
  let s := if panels.contains 9 then s.loadRecorder else s
  -- values that the host set give way (R275, R278)
  let s := if panels.contains 7 then s.modHost fun h => { h with readPath := [] } else s
  let arbitrated (c : Nat) : Bool := s.pattern.active.host.arbitration.any fun e => e.1 == c
  let s := if panels.contains 4 then
      s.modHost fun h => { h with controllers := replaceIf (fun c => arbitrated c.cntlid) (fun c => { c with weights := none }) h.controllers }
    else s
  -- the DIGEST goes to Tirium as well (R57, R391)
  (s.putDigest R.PAT_RT_DIGEST d).setBlock 7 d

/-- The panel types of some entries and of a container's directory. -/
def panelsOf (img : List Byte) (l : List PatternEntry) : List Nat := if img.isEmpty then (l.map (·.panel)).eraseDups else carried img

/-! ### PAT_CTRL -/

/-- PAT_LOCK_CMD (R64). -/
def execPatLockCmd (s : State) : Host.Outcome State Fault Refusal := .next s.lockPattern

/-- A container in the SRAM lies where R66 lets it. -/
def sramSpan (addr len : Nat) : Bool := addr % 16 == 0 && 0x10000000 ≤ addr && addr + len ≤ 0x13000000

/-- PAT_RELOAD (R59, R62): the container is copied into the loader's own buffer. -/
def execPatReload (s : State) : Host.Outcome State Fault Refusal :=
  if s.on F.PAT_STATUS_RELOAD_BUSY then .next ((s.setFld F.PAT_STATUS_RELOAD_ERR 0xF).event 2 4 4 0 0xF)
  else
    let a := s.fld F.PAT_RELOAD_ADDR_ADDR
    let len := ofLe (memBytes (a + 8) 4 s.sram)
    let n := if 0x40000 < len then 0x200 else max 0x200 len
    .next ((s.flag F.PAT_STATUS_RELOAD_BUSY).modPattern fun u => { u with buffer := memBytes a n s.sram, source := a })

/-- A runtime container is rejected or cancelled (R62). -/
def State.rejectRuntime (s : State) (e : PatFail) (located : Bool) : State :=
  let s := (s.clr F.PAT_STATUS_RELOAD_BUSY).clr F.PAT_STATUS_RELOAD_PEND
  let s := (s.setFld F.PAT_STATUS_RELOAD_ERR e.code).modPattern fun u => { u with buffer := [], waiting := none }
  let s := if located then s.putLoc e.panel e.entry else s
  s.event 2 4 4 0 e.code

/-- PAT_CANCEL (R62): before the applying boundary. -/
def execPatCancel (s : State) : Host.Outcome State Fault Refusal :=
  if s.on F.PAT_STATUS_RELOAD_BUSY then .next (s.rejectRuntime ⟨0x10, 0xFF, 0⟩ false) else .next s

/-- The SVN that a runtime container must reach (R54, step 5). -/
def State.activeSvn (s : State) : Nat := s.pattern.runtimeSvn.getD s.pattern.active.svn

/-- REPATTERN_VALIDATED (R59 to R61). -/
def execRepatternValidated (s : State) : Host.Outcome State Fault Refusal :=
  if !s.on F.PAT_STATUS_RELOAD_BUSY || s.on F.PAT_STATUS_RELOAD_PEND then .next s
  else
    let a := s.pattern.source
    let img := s.pattern.buffer
    if a < 0x10000000 || 0x13000000 ≤ a then .next (s.rejectRuntime ⟨3, 0xFF, 0⟩ true)
    else
      let v := validatePattern s.fuse img (some (s.pattern.entries, s.activeSvn)) (sramSpan a (leField img 8 4))
      let s := s.recordSkipped v.skipped
      match v.result with
      | .error e => .next (s.rejectRuntime e true)
      | .ok x =>
        .next ((s.flag F.PAT_STATUS_RELOAD_PEND).modPattern fun u =>
          { u with waiting := some (x.entries, x.digest, x.svn) })

/-- A boundary allowed under R31: the check before it passed, and nothing else has been taken at it. -/
def State.allowed (s : State) : Bool := s.flow.lastPassed && !s.row.swapped

/-- The boundary is taken. -/
def State.takeBoundary (s : State) : State := s.modRow fun r => { r with swapped := true }

end Sys2Proof.Machine
end

