-- ==== Sys2Proof/Machine/Save.lean ====
section
/-!
DEFINITION. Sys2Proof/Machine/Save.lean: the save of dirty data and of the journal tail (R102, R104, R106), its restore (R107,
R108, R330), the energy model (R98) and the early save (R101).
-/

namespace Sys2Proof.Machine

/-! ### What a save holds -/

/-- The sectors of a write that are visible and not media-complete: its dirty pages, each with its descriptor. -/
def Slot.dirtySectors (x : Slot) : List SavedPage :=
  if (x.stage == .media || x.stage == .doneEarly) && !x.mediaComplete && !x.verified.isEmpty then
    (List.range (x.shown - x.done)).map fun k =>
      let m := x.sector (x.done + k)
      { nsid := m.nsid, dla := m.dla, wcount := m.wcount, gen := m.gen, seq := x.epoch, pi := m.pi, data := m.data }
  else []

/-- The dirty pages, write by write. -/
def State.dirtyWrites (s : State) : List (List SavedPage) := (s.flow.slots.map Slot.dirtySectors).filter fun l => !l.isEmpty

/-- Cut a list into pieces of at most 64. -/
def pieces64 {α : Type} : Nat → List α → List (List α)
  | 0, _ => []
  | k + 1, l => if l.isEmpty then [] else l.take 64 :: pieces64 k (l.drop 64)

/-- Chunks of up to 64 pages; all pages of one write of up to 64 stand in one chunk (R102, R104). -/
def packChunks : List (List SavedPage) → List SavedPage → List (List SavedPage)
  | [], cur => if cur.isEmpty then [] else [cur]
  | w :: rest, cur =>
    if cur.length + w.length ≤ 64 then packChunks rest (cur ++ w)
    else (if cur.isEmpty then [] else [cur]) ++ packChunks rest w

/-- The chunks of a save. -/
def chunksOf (writes : List (List SavedPage)) : List (List SavedPage) :=
  packChunks (writes.flatMap fun w => pieces64 w.length w) []

/-- SAVE_PRESENT follows the save area. -/
def State.savePresent (s : State) : State := s.setBit F.KEEP_STATUS_SAVE_PRESENT (!s.keeper.saves.isEmpty)

/-- The save area is not written: before a Pattern is built there is no buffer, while a restore is outstanding nothing is dirty
and its save stays the newest (R107), and under the ROM Pattern an earlier save stays untouched (R56). -/
def State.saveKept (s : State) : Bool :=
  !s.cast.built || s.keeper.restoring || (s.fld F.PAT_STATUS_STATE == 3 && !s.keeper.saves.isEmpty)

/-! ### Save keys (R396, R398, R414) -/

/-- The save key of a cipher namespace for a save, with its algorithm; none for a plain one. -/
def State.saveKey (s : State) (seq nsid : Nat) : Option (Nat × BitVec 512) :=
  let mode := s.cipherMode nsid
  let alg := modeAlg mode
  if mode = 0 then none
  else some (alg, BitVec.ofNat 512 (Config.kdf ((s.nmek nsid).getD 0) "BZ8 SAVE" (leBytes 4 seq) (if alg = 2 then 512 else 256)))

/-- A dirty page as the save holds it, or back: XTS under its save key, by the fixed program in ROM (R398, R414). -/
def State.sealPage (s : State) (enc : Bool) (seq : Nat) (p : SavedPage) : SavedPage :=
  match s.saveKey seq p.nsid with
  | none => p
  | some (alg, key) => { p with data := xtsData enc alg key p.dla p.data }

/-- Tirium loads the save keys of the cipher namespaces with dirty pages into the reserved slots (R398, R416). -/
def State.loadSaveKeys (s : State) (seq : Nat) (nsids : List Nat) : State :=
  (((nsids.filterMap fun n => (s.saveKey seq n).map fun k => (n, k)).take 16).zipIdx 112).foldl (fun s x =>
    let b : Bank := { alg := x.1.2.1, mode := 0, key := x.1.2.2, nsid := x.1.1, zone := 0, generation := 0, keyTag := none, h := 0 }
    s.modKeySlot x.2 fun y => { y with bank0 := some b, current := 0 }) s

/-- Steps 6 to 10 of R102 as far as `step`: header, journal tail, descriptors, `n` chunks, commit record. -/
def State.writeSave (s : State) (step n : Nat) : State :=
  let tail := s.stitch.written.flatten ++ s.stitch.page
  let s := if 7 ≤ step then s.modStitch fun x => { x with savedTail := tail } else s
  if s.saveKept || step < 6 then s
  else
    let writes := s.dirtyWrites
    let seq := s.keeper.nextSave
    let chunks := (chunksOf writes).map fun c => c.map (s.sealPage true seq)
    let pages := writes.flatten
    let s := s.loadSaveKeys seq (pages.map (·.nsid)).eraseDups
    let save : Save :=
      { seq := seq, zones := (pages.map fun p => p.dla / zoneSectors).eraseDups,
        descriptors := if 8 ≤ step then pages.map (fun p => { p with pi := [], data := [] }) else [], descCommit := 8 ≤ step,
        chunks := if 10 ≤ step then chunks else if step = 8 ∨ step = 9 then chunks.take n else [], commit := 10 ≤ step }
    (s.modKeeper fun k => { k with saves := save :: k.saves, nextSave := k.nextSave + 1 }).savePresent

/-- KEEP_BO_LAST (R110). -/
def State.reportSave (s : State) (result pages speed : Nat) : State :=
  ((s.setFld F.KEEP_BO_LAST_RESULT result).setFld F.KEEP_BO_LAST_SAVED_MIB (min (pages / 256) 1023)).setFld
    F.KEEP_BO_LAST_END_SPEED_PCT (min speed 255)

/-- Spindle speed in % of rated. -/
def State.speedPct (s : State) : Nat := s.permille (s.fld F.SPN_SPEED_RPM_X100) / 10

/-- Step 1: the gates fall. -/
def State.lowerGates (s : State) : State := (s.modKeeper fun k => { k with bindOff := true }).gates

/-- Step 5: core pairs halt, both ports are held in reset, writes with a partial transfer are discarded, and the checks stop. -/
def State.stopService (s : State) : State :=
  let s := s.modPairs fun l => l.map fun p => { p with halted := true }
  let s := (s.linkFalls 0).linkFalls 1
  let s := s.modHost fun h => { h with linkTraining := [false, false] }
  let partial_ := s.flow.slots.filter fun x => x.stage == .xferIn
  let s := partial_.foldl (fun s x => s.discardWrite x.num none) s
  s.modFlow fun f => { f with checksOff := true }

/-- Steps 4 and 5: emergency retract with a cause, run to its end (R80), and the stop of service. -/
def State.retractAndStop (s : State) (cause : Nat) : State := ((s.abandonCalibration.eretractBoth cause).finishRetracts).stopService

/-- An early save under way gives way to a whole save: its unfinished header goes, and what ENERGY_HOLD waits for is the new save
(DEDUCED, assumption log 95). -/
def State.earlySaveEnds (s : State) : State :=
  if s.on F.KEEP_STATUS_EARLY_SAVE then
    ((s.modKeeper fun k => { k with saves := k.saves.drop 1, nextSave := k.nextSave - 1 }).clr F.KEEP_STATUS_EARLY_SAVE).flag
      F.KEEP_STATUS_ENERGY_HOLD
  else s

/-- Steps 1 and 4 to 10 of R102 from the input (R106, R122). -/
def State.saveFromInput (s : State) (cause : Nat) : State :=
  let s := s.earlySaveEnds.lowerGates.retractAndStop cause
  let pages := s.dirtyWrites.flatten.length
  let speed := s.speedPct
  ((s.writeSave 10 0).reportSave 4 pages speed).modKeeper fun k => { k with bindOff := false }

/-! ### Restore (R107, R108, R330) -/

/-- The save with the highest sequence number. -/
def State.newestSave (s : State) : Option Save :=
  s.keeper.saves.foldl (fun m x => match m with | some y => if y.seq < x.seq then some x else m | none => some x) none

/-- The pages of a save that come back, and the descriptors whose pages are lost. -/
def Save.pages (x : Save) : List SavedPage × List SavedPage :=
  if !x.descCommit then ([], [])
  else
    let good := x.chunks.flatten
    (good, if x.commit then [] else x.descriptors.filter fun d => !(good.any fun p => p.dla == d.dla && p.seq == d.seq))

/-- Pages in ascending order of write sequence (R330). -/
def insertPage (p : SavedPage) : List SavedPage → List SavedPage
  | [] => [p]
  | q :: rest => if q.seq ≤ p.seq then q :: insertPage p rest else p :: q :: rest

/-- The write pointer of a sequential zone passes a restored LBA that lies at it: its data slot stays unwritten (DEDUCED). -/
def State.passWp (s : State) (d : Nat) : State :=
  let z := d / zoneSectors
  let x := s.zdesc z
  let zns := match s.nsOfDla d with | some (n, _) => n.type == 1 | none => false
  if zns && d % zoneSectors == x.hostWp then
    s.walker (.desc z (x.wp + 1) (if zoneSectors ≤ x.hostWp + 1 then .full else if x.state == .empty then .closed else x.state) x.restitchUsed)
  else s

/-- One restored page goes to the media cache, enciphered under its zone key in a cipher namespace; a page of an older
generation has no effect (R252). None where the media cache has no room, or the walker holds the MAP: the save then stays. -/
def State.restorePage (s : State) (p : SavedPage) : Option State :=
  let z := p.dla / zoneSectors
  if p.gen ≠ (s.zdesc z).gen then some s
  else
    match s.appendCache (s.zoneHome z).1 p.dla 1 with
    | none => none
    | some (q, s) =>
      let mode := s.cipherMode p.nsid
      let x : MediaSector :=
        { dla := p.dla, nsid := p.nsid, wcount := p.wcount, gen := p.gen, pi := p.pi, auth := [], data := p.data, parity := false }
      let x := if mode = 0 then x
        else encipher mode (zoneKey ((s.nmek p.nsid).getD 0) p.nsid z p.gen (modeBits mode)) x
      let s := (s.writeMedia q x).walker (.map { lstart := p.dla, length := 1, phys := q, gen := p.gen % 65536, cache := true,
                                                 unwritten := false, unreadable := false, noParity := false, pending := false } p.gen none)
      if s.stitch.reply == .held then none else some ((s.madeReadable p.dla 1).passWp p.dla)

/-- Restore a list of pages, none while the media cache has no room for them all. -/
def State.restorePages : List SavedPage → State → Option State
  | [], s => some s
  | p :: rest, s => (s.restorePage p).bind (State.restorePages rest)

/-- A lost descriptor's LBA is entered in the unreadable list. -/
def State.losePage (s : State) (p : SavedPage) : State :=
  if p.gen ≠ (s.zdesc (p.dla / zoneSectors)).gen then s else (s.loseRange p.dla 1 3 0 none).passWp p.dla

/-- What R107 finds lost is reported, once it has entered the unreadable list as it stood before (R108). -/
def State.restoreLoss (s : State) (before : List UnreadableEntry) : State :=
  if s.darn.unreadable = before then s else ((s.flag F.KEEP_STATUS_RESTORE_LOSS).smartSet 4).postVendor 0

/-- The restore is over: every page has verified, and the save is erased. -/
def State.endRestore (s : State) : State :=
  (s.modKeeper fun k => { k with saves := [], restoring := false }).savePresent

/-- The restore of a save, none while its pages do not all find room. -/
def State.restoreSave (s : State) (x : Save) : Option State :=
  if x.descCommit then
    let p := x.pages
    let pages := p.1.map (s.sealPage false x.seq)
    ((State.restorePages (pages.foldl (fun l q => insertPage q l) []) s).map fun s =>
      ((p.2.foldl State.losePage s).restoreLoss s.darn.unreadable).endRestore)
  else
    let s' := x.zones.foldl (fun s z => s.loseRange (z * zoneSectors) zoneSectors 3 0 none) s
    some (s'.restoreLoss s.darn.unreadable).endRestore

/-- SAVE_RESTORE (R107): from phase 9 on, once the map is ready and the heads are loaded that write the media cache. -/
def execSaveRestore (s : State) : Host.Outcome State Fault Refusal :=
  let loaded (x : Save) : Bool :=
    x.zones.all fun z => s.fld (F.ACT_STATUS_LOAD_STATE (s.zoneHome z).1) == 2
  if s.keeper.inReset || !s.keeper.restoring || s.fld F.SYS_CASTON_PHASE < 7 || 8 < s.fld F.SYS_CASTON_PHASE ||
      !s.on F.STM_STATUS_READY then .next s
  else
    match s.newestSave with
    | none => .next s.endRestore
    | some x => if loaded x then .next ((s.restoreSave x).getD s) else .next s

/-! ### The energy model (R98) -/

/-- The square of π to 30 places, times 10^30: the square of 3.141592653589793 (DESIGN CHOICE). -/
def piSquared : Int := 3141592653589793 * 3141592653589793

/-- The denominator of e_mech. -/
def energyDen : Int := 18 * 10 ^ 48

/-- What the model computes with: e_mech in units of 1 / `energyDen` J, and p_tot as a fraction in W. -/
structure Energy where
  mech : Int
  power : Int
  powerDen : Int
  loaded : Int
  deriving DecidableEq, Repr

/-- The speed that the engine reports to the Keeper: the measured speed less its uncertainty (R135), rounded down to 0.01 rpm. -/
def State.reportedSpeed (s : State) : Nat := s.fld F.SPN_SPEED_RPM_X100 * (100000 - s.fld F.SPN_UNC_UNC) / 100000

/-- The quantities of R98 that depend on the spindle. -/
def State.energy (s : State) : Energy :=
  let n : Int := s.reportedSpeed
  let r : Int := s.ratedSpeed
  let m : Int := s.fld F.KEEP_MODEL_MIN_PCT
  let j : Int := s.fld F.KEEP_INERTIA_INERTIA
  let d : Int := 10 ^ 4 * n ^ 2 - (r * m) ^ 2
  { mech := if 0 < d then j * piSquared * d else 0,
    power := s.fld F.KEEP_DRAG_DRAG_MW * n ^ 2 + 3000 * r ^ 2, powerDen := 1000 * r ^ 2,
    loaded := ([0, 1].filter s.headsLoaded).length }

/-- D_E in MiB (R98). -/
def Energy.ceiling (e : Energy) (reservePct : Nat) : Nat :=
  let num := (e.mech * (100 - reservePct) - 25 * energyDen * e.loaded) * e.powerDen - 2 * energyDen * e.power
  if 0 < num then (num * 198400000 / (100 * energyDen * e.power * 1048576)).toNat else 0

/-- The unreserved energy falls below what a save of some pages takes (R101). -/
def Energy.short (e : Energy) (pages : Nat) : Bool :=
  e.mech * e.powerDen * 4 * 50 * 198400000 <
    energyDen * (4 * e.power * (198400000 + 50 * 4096 * pages) + e.loaded * e.powerDen * 50 * 198400000)

/-- Dirty pages of writes that were admitted whole: pieces lie outside the energy bound (R99). -/
def State.boundPages (s : State) : Nat :=
  ((s.flow.slots.filter fun x => x.piece == 0).flatMap Slot.dirtySectors).length

/-- EARLY_SAVE (R101): the save steps run from the input. -/
def State.startEarlySave (s : State) : State :=
  (s.flag F.KEEP_STATUS_EARLY_SAVE).writeSave 6 0

/-- ENERGY_UPDATE (R98, R99, R101): every 64 Rows. -/
def execEnergyUpdate (s : State) : Host.Outcome State Fault Refusal :=
  if s.keeper.inReset then .next s
  else
    let e := s.energy
    let s := s.setFld F.KEEP_ENERGY_E_MECH_MJ (min (e.mech * 1000 / energyDen).toNat (2 ^ 20 - 1))
    let s := s.modKeeper fun k => { k with pendingEnergy := some (e.ceiling (s.fld F.KEEP_MODEL_RESERVE_PCT)) }
    let n := s.boundPages
    .next (if n ≠ 0 && e.short n && !s.on F.KEEP_STATUS_EARLY_SAVE && !s.on F.KEEP_STATUS_ENERGY_HOLD then s.startEarlySave else s)

/-- EARLY_SAVE_DONE (R101): the save is committed, and new writes are held. -/
def execEarlySaveDone (s : State) : Host.Outcome State Fault Refusal :=
  if !s.on F.KEEP_STATUS_EARLY_SAVE then .next s
  else
    let pages := s.dirtyWrites.flatten.length
    let speed := s.speedPct
    .next ((s.earlySaveEnds.writeSave 10 0).reportSave 4 pages speed)

/-- A saved page is still dirty. -/
def State.stillDirty (s : State) (p : SavedPage) : Bool :=
  s.dirtyWrites.any fun w => w.any fun q => q.dla == p.dla && q.seq == p.seq

/-- ENERGY_HOLD_CLEAR (R101): the spindle is in RUN again and every saved page is verified on media; so it is where a restore has
put the pages on media and erased the save (R107). -/
def execEnergyHoldClear (s : State) : Host.Outcome State Fault Refusal :=
  let waits := match s.newestSave with
    | none => s.keeper.restoring
    | some x => s.keeper.restoring || x.descriptors.any s.stillDirty
  if !s.on F.KEEP_STATUS_ENERGY_HOLD || s.spnState != Spn.run || waits then .next s
  else .next ((s.modKeeper fun k => { k with saves := [] }).savePresent.clr F.KEEP_STATUS_ENERGY_HOLD)

end Sys2Proof.Machine
end

