-- ==== Sys2Proof/Machine/DeviceReset.lean ====
section
/-!
DEFINITION. Sys2Proof/Machine/DeviceReset.lean: what a device reset clears and keeps (R117, R122), the Keeper's write to the
Lifeline (R102 step 11, R106), phase 4 of cast-on (R111, R79, R506) with the activation record that it boots from (R451,
R464), and the starts of a cold cast-on.
-/

namespace Sys2Proof.Machine

/-! ### What a reset keeps -/

/-- A register that keeps its value over a warm or watchdog reset: Keeper state (R110), the sequence counter (R473), and every
ROS register. -/
def keptWarm (addr : Nat) : Bool :=
  addr / 0x10000 == 0x0103 || addr / 0x10000 == 0x0104 || addr == R.REC_SEQ ||
    (match specAt addr with | some r => r.fields.any fun f => f.access == .ros | none => false)

/-- A register that keeps its value over a cold cast-on; the sequence counter where the Keeper runs on (R110, R506). -/
def keptCold (runsOn : Bool) (addr : Nat) : Bool :=
  addr == R.KEEP_PCC || addr == R.KEEP_OPTIME_LO || addr == R.KEEP_OPTIME_HI || addr == R.KEEP_BO_LAST ||
    (runsOn && addr == R.REC_SEQ)

/-- The record that the reset finds half programmed is torn (R472, R486). -/
def State.tearRecord (s : State) : State :=
  match s.recorder.writing with
  | none => s
  | some r =>
    s.modRec fun u =>
      { u with writing := none,
               store := if s.fld F.REC_STATUS_STORE = 0 then { index := s.fld F.REC_NEXT_INDEX, record := r, torn := true } :: u.store else u.store }

/-- A device reset (R117): registers but those that a test keeps, the logic die and the DRAM are cleared; the stores stay. -/
def State.clearDevice (s : State) (cold : Bool) (keep : Nat → Bool) : State :=
  let s := s.tearRecord
  { s with
    regs := s.regs.filter fun e => keep e.1
    row := RowMachine.reset
    pairs := List.replicate 6 CorePair.reset
    cable := CableNet.reset
    pins := { Pins.reset with testMode := s.pins.testMode }
    cast := { CastOn.reset with cold := cold }
    pattern := PatternUnit.reset
    -- the zero vector stays until the currents are small, whatever else is cleared (R131)
    spn :=
      { Spindle.reset with
        iu := s.spn.iu, iv := s.spn.iv, iw := s.spn.iw, driving := s.spn.zeroVector && !cold, zeroVector := s.spn.zeroVector && !cold }
    needles := List.replicate 3 Needle.reset
    acts := List.replicate 2 Actuator.reset
    slices := List.replicate 5 Slice.reset
    stitch :=
      { Stitch.reset with
        nextSeq := s.stitch.nextSeq, journal := s.stitch.journal, checkpoints := s.stitch.checkpoints.filter (·.complete),
        savedTail := s.stitch.savedTail, snapshots := s.stitch.snapshots, cacheLog := s.stitch.cacheLog, media := s.stitch.media,
        torn := s.stitch.torn }
    host :=
      { HostUnit.reset with
        sent := s.host.sent, perst := s.host.perst, features := s.host.savedFeatures, savedFeatures := s.host.savedFeatures,
        lbaFormat := s.host.lbaFormat, piType := s.host.piType, sanitize := s.host.sanitize, sanitizeDone := s.host.sanitizeDone,
        formatting := s.host.formatting.map fun f => (f.1, f.2.1, 0), selfTest := s.host.selfTest }
    flow := Flow.reset
    darn :=
      { Darning.reset with
        unreadable := s.darn.unreadable, rewrite := s.darn.rewrite, required := s.darn.required,
        blocksRetired := s.darn.blocksRetired, saveBlocksLost := s.darn.saveBlocksLost, programFails := s.darn.programFails,
        eraseMax := s.darn.eraseMax, eraseAvg := s.darn.eraseAvg }
    prot := { Protection.reset with remap := s.prot.remap, retired := s.prot.retired, quarantined := s.prot.quarantined }
    tir :=
      { Tirium.reset with
        verified := if cold then [] else s.tir.verified, keyRecords := s.tir.keyRecords, trngUsed := s.tir.trngUsed,
        sanitizeStep := s.tir.sanitizeStep, sanitizeZone := s.tir.sanitizeZone, sanitizePass := s.tir.sanitizePass }
    cip := { Cipher.reset with reservations := s.cip.reservations }
    gauge := Gauge.reset
    upd :=
      { Update.reset with
        records := s.upd.records, session := s.upd.session, images := s.upd.images, settings := s.upd.settings,
        revisions := s.upd.revisions, tables := s.upd.tables }
    recorder := { s.recorder with fifo := [], carry := [], writing := none, coal := [], scanned := false }
    snag := Snag.reset
    dbg := Debug.reset
    sram := []
    dram := []
    keeper := { s.keeper with inReset := true, released := false, bindOff := false, boStep := 0, pendingEnergy := none,
                              restoring := !s.keeper.saves.isEmpty } }

/-- The Keeper writes its shadow, the counters and what it holds of the fallback area to the Lifeline (R102 step 11, R106,
R473, R483). -/
def State.keeperWrites (s : State) : State :=
  let s := if s.recorder.unit.isEmpty then s else s.programUnit
  (s.modKeeper fun k => { k with savedPcc := s.fld F.KEEP_PCC_COUNT, savedOptime := s.optime, savedSeq := s.fld F.REC_SEQ_SEQ }).modRec
    fun u => { u with savedShadow := u.shadow }

/-- Power-good bits of the rails that have it, in the order of R96: ANA, IO18, CORE, SRAM, DRAM, DDQ. -/
def railBits (n : Nat) : Nat := ([5, 2, 0, 1, 3, 4].take n).foldl (fun m b => m + 2 ^ b) 0

/-- PWR_STATUS.RAIL_PG follows the rails. -/
def State.railRegs (s : State) : State := s.setFld F.PWR_STATUS_RAIL_PG (railBits s.keeper.railsGood)

/-- Both input switches at a position. -/
def State.switches (s : State) (closed : Bool) : State :=
  (s.setBit F.PWR_STATUS_SW12_ON closed).setBit F.PWR_STATUS_SW5_ON closed

/-- Each input reads as present or as lost (R109). -/
def State.inputs (s : State) (vin12 vin5 : Bool) : State := (s.setBit F.PWR_STATUS_VIN12_OK vin12).setBit F.PWR_STATUS_VIN5_OK vin5

/-! ### The activation record at cast-on (R451, R464) -/

/-- The entry names the same image in the same slot as one of a set. -/
def SlotEntry.isIn (e : SlotEntry) (l : List SlotEntry) : Bool :=
  l.any fun f => f.component == e.component && f.slot == e.slot && f.digest == e.digest

/-- A component mask. -/
def componentMask (l : List SlotEntry) : Nat := l.foldl (fun m e => m ||| 2 ^ e.component) 0

/-- The frog (R464): CONFIRMED with CURRENT from FALLBACK; the rejected slots stand in the staged set as not VALID. -/
def State.frog (s : State) : State :=
  let r := s.record
  let rejected := r.current.filter fun e => !e.isIn r.fallback
  let s := s.putRecord fun r =>
    { r with state := .confirmed, unconf := 0, current := r.fallback, staged := false, atReset := false,
             stagedSet := rejected.map fun e => { e with valid := false } }
  ((s.flag F.UPD_EV_FROGGED).event 26 3 5 0 (componentMask rejected)).postVendor 4

/-- A record that makes the staged images tentative (R451, R449): CURRENT takes their entries, FALLBACK the old CURRENT. -/
def ActRecord.activate (r : ActRecord) (unconf optime : Nat) : ActRecord :=
  let old := r.current.filter fun e => !(r.stagedSet.any fun f => f.component == e.component)
  { r with state := .tentative, current := old ++ r.stagedSet, fallback := if r.state = .confirmed then r.current else r.fallback,
           unconf := unconf, staged := false, atReset := false, stagedSet := [], actOptime := optime }

/-- What a cast-on does with the record in force (R451); the slots it boots are those of CURRENT. -/
def State.bootRecord (s : State) : State :=
  let r := s.record
  let s := match r.state with
    | .confirmed => if r.atReset then s.putRecord fun r => r.activate 1 s.optime else s
    | .tentative => if r.unconf < 3 then s.putRecord fun r => { r with unconf := r.unconf + 1 } else s.frog
    | .frogRequested => s.frog
  s.loadRecordRegs.modCast fun c => { c with bootSlots := s.record.current.map fun e => (e.component, e.slot) }

/-- UPD_STATUS and the session's registers are loaded (R446, R468). -/
def State.sessionRegs (s : State) : State :=
  match s.upd.session with
  | none =>
    let s := ((s.clr F.UPD_STATUS_SESSION).clr F.UPD_STATUS_SOURCES).clr F.UPD_PIECES_KEPT
    ((s.clr F.UPD_TOTAL_TOTAL).clr F.UPD_IDLE_MIN_LEFT).putDigest R.UPD_DIGEST 0
  | some x =>
    let kept := x.units.length
    let total := x.length / 4096
    let left := 10080 - (s.optime - x.lastProgress) / 60000
    let s := if s.fld F.UPD_STATUS_SESSION < 3 then s.setFld F.UPD_STATUS_SESSION (if kept = total then 2 else 1) else s
    let s := s.setFld F.UPD_STATUS_SOURCES x.members
    (((s.setFld F.UPD_PIECES_KEPT kept).setFld F.UPD_TOTAL_TOTAL total).setFld F.UPD_IDLE_MIN_LEFT left).putDigest R.UPD_DIGEST x.digest

/-! ### Phase 4 (R111, R79, R506) -/

/-- WG, AEN and SEN of the actuators that exist are driven low, and the status outputs as R79 says. -/
def State.ioRelease (s : State) : State :=
  let level (a : Nat) : Level := if s.hasAct a then .low else .hiZ
  let s := s.modPins fun p => { p with wg := [level 0, level 1], aen := [level 0, level 1], sen := [level 0, level 1] }
  (s.modKeeper fun k => { k with released := true, inReset := false }).driveStatus

/-- The Keeper reloads what it saved, when it started from halt or from loss of VIN5_AON (R110, R506). -/
def State.keeperReload (s : State) : State :=
  if s.keeper.fresh then
    let k := s.keeper
    let s := (s.setFld F.KEEP_PCC_COUNT k.savedPcc).setWide F.KEEP_OPTIME_LO_MS_LO F.KEEP_OPTIME_HI_MS_HI k.savedOptime
    ((s.setFld F.REC_SEQ_SEQ k.savedSeq).modRec fun u => { u with shadow := u.savedShadow }).modKeeper fun k => { k with fresh := false }
  else s

/-- Phase 4: fuses, I/O release, the power-cycle count of a cold cast-on, and the record; then phase 5 runs. -/
def State.phase4 (s : State) (warm : Bool) : State :=
  let s := s.setFld F.SYS_CASTON_PHASE 1
  let s := if warm then s else s.keeperReload.count F.KEEP_PCC_COUNT
  let s := (s.setFld F.ACT_LASER_FUSE_CEILING s.fuse.laserCeiling).setBit F.TIR_STATUS_SEALED s.fuse.isSealed
  let s := (s.setFld F.SRM_STATUS_SPARES_FUSED s.fuse.sramSpares).setFld F.SRM_STATUS_SPARES_FREE (192 - s.fuse.sramSpares)
  -- FRONT_0 leaves reset into the boot ROM
  ((s.ioRelease.bootRecord.sessionRegs.savePresent).setFld (pairFld 0) 1).setFld F.SYS_CASTON_PHASE 2

/-- Phase 3 has ended: a high TEST_MODE holds the device, else phase 4 follows (R70). -/
def State.endPhase3 (s : State) : State :=
  if s.pins.testMode then s.modKeeper fun k => { k with hold := .testMode } else s.phase4 false

/-! ### Starts (R105, R117, R506) -/

/-- A cold cast-on with the inputs to be qualified anew. -/
def State.coldStart (s : State) (cause : Nat) : State :=
  let s := s.clearDevice true (keptCold false)
  let s := s.modKeeper fun k =>
    { k with powered := true, halted := false, fresh := true, hold := .none, retry := false, closing := false, ramp12 := false,
             ramp5 := false, railsGood := 0 }
  (s.setFld F.SYS_RST_CAUSE_LAST cause).savePresent

/-- Both switches are closed and every rail has power-good: phases 1 to 3 of a cold cast-on that the Keeper began while running
end (R506). -/
def State.confirmRails (s : State) : State :=
  if s.on F.PWR_STATUS_SW12_ON && s.on F.PWR_STATUS_SW5_ON && s.keeper.railsGood == 6 then s.endPhase3 else s

/-- A cold cast-on that the Keeper begins while it runs: inputs, switches and rails stay as they are, and phase 4 follows once
they are confirmed (R506). -/
def State.coldFromHold (s : State) (cause : Nat) : State :=
  let was := s
  let s := s.clearDevice true (keptCold (!s.keeper.fresh))
  let s := s.modKeeper fun k => { k with hold := .none }
  let s := [F.PWR_STATUS_SW12_ON, F.PWR_STATUS_SW5_ON, F.PWR_STATUS_VIN12_OK, F.PWR_STATUS_VIN5_OK].foldl
    (fun (s : State) f => s.setFld f (was.fld f)) s
  ((s.setFld F.SYS_RST_CAUSE_LAST cause).railRegs).confirmRails

/-- The cold cast-on that follows the record which the recovery controller writes (R113); the Keeper runs on, so that phases 1 to
3 end as in R506. SYS_RST_CAUSE gives this start no code: LAST is a free value (assumption log 100). -/
def State.coldAfterRecovery (s : State) : State :=
  let (cause, s) := s.draw
  s.coldFromHold (cause % 16)

/-- The save and retract of a hold in device reset, and the hold (R70, R91, R106). -/
def State.enterHold (s : State) (h : Hold) : State :=
  let s := ((s.saveFromInput 2).keeperWrites).spnCoast 3
  (s.clearDevice false keptWarm).modKeeper fun k => { k with hold := h }

/-- A warm or watchdog reset may begin: not in device reset or bind-off (R121), and not in FAILED (R112). -/
def State.warmAllowed (s : State) : Bool := !s.keeper.inReset && !s.keeper.bindOff && s.fld F.SYS_CASTON_PHASE != 0xF

/-- A device reset abandons the activation that runs (R119, R462); its Commit gets no completion (R118). -/
def State.abandonActivation (s : State) : State :=
  (s.modUpd fun u => { u with activation := u.activation.map fun a => { a with commit := none } }).abortActivation 0x0E

/-- A warm or watchdog reset (R80, R122): save and retract from the input, then the reset of the logic die. -/
def State.warmStart (s : State) (cause pair : Nat) : State :=
  let s := (s.abandonActivation.spnCoast 3).saveFromInput 3
  let s := s.clearDevice false keptWarm
  ((s.setFld F.SYS_RST_CAUSE_LAST cause).setFld F.SYS_RST_CAUSE_WDOG_PAIR pair).count F.SYS_RST_CAUSE_WARM_COUNT

end Sys2Proof.Machine
end

