-- ==== Sys2Proof/Machine/Power.lean ====
section
/-!
DEFINITION. Sys2Proof/Machine/Power.lean: inputs, switches and rails (R93 to R97), bind-off and its end (R102, R105, R106, R81),
the junction temperature (R91) and TEST_MODE (R70).
-/

namespace Sys2Proof.Machine

/-! ### Inputs, switches and rails -/

/-- The Keeper runs. -/
def State.keeperRuns (s : State) : Bool := s.keeper.powered && !s.keeper.halted

/-- Phases 1 to 3 of a cold cast-on run (R111). -/
def State.early (s : State) : Bool :=
  s.keeperRuns && s.keeper.inReset && s.cast.cold && s.keeper.hold == .none && s.fld F.SYS_CASTON_PHASE == 0

/-- VIN5_AON_RISE (R111): the Keeper starts, from loss of VIN5_AON or after it has halted. -/
def execVin5AonRise (s : State) : Host.Outcome State Fault Refusal :=
  if s.keeperRuns then .next s else .next (s.coldStart 0)

/-- KEEPER_QUALIFY_DONE (R94): the Keeper closes both switches. -/
def execKeeperQualifyDone (s : State) : Host.Outcome State Fault Refusal :=
  let k := s.keeper
  if !s.early || k.retry || k.closing || (k.ramp12 && k.ramp5) then .next s
  else .next (((s.inputs true true).switches true).modKeeper fun k => { k with closing := true, ramp12 := false, ramp5 := false })

/-- SWITCH_RAMP_DONE (R94): a node has reached 90 %; with both, the rails start. -/
def execSwitchRampDone (node : Nat) (s : State) : Host.Outcome State Fault Refusal :=
  if !s.keeper.closing || 1 < node then .next s
  else
    .next (s.modKeeper fun k =>
      let r12 := k.ramp12 || node == 0
      let r5 := k.ramp5 || node == 1
      { k with ramp12 := r12, ramp5 := r5, closing := !(r12 && r5) })

/-- Both switches open, the rails go off, and a retry waits (R94). -/
def State.openAndRetry (s : State) (event : Fld) : State :=
  let s := s.modKeeper fun k => { k with closing := false, ramp12 := false, ramp5 := false, railsGood := 0, retry := true }
  ((s.switches false).railRegs).flag event

/-- INRUSH_TIMEOUT (R94). -/
def execInrushTimeout (s : State) : Host.Outcome State Fault Refusal :=
  if s.keeper.closing then .next (s.openAndRetry F.PWR_EVENTS_INRUSH_TIMEOUT) else .next s

/-- POWER_RETRY (R94): qualification starts again. -/
def execPowerRetry (s : State) : Host.Outcome State Fault Refusal :=
  if s.keeperRuns && s.keeper.retry then .next (s.modKeeper fun k => { k with retry := false }) else .next s

/-- An input is lost, or both are: which of them still lies above its threshold is a free value (assumption log 125). -/
def State.inputLost (s : State) : State :=
  let (v, s) := s.draw
  s.inputs (v % 3 == 1) (v % 3 == 2)

/-- EARLY_LOSS (R94): after the switches close and before phase 4. -/
def execEarlyLoss (s : State) : Host.Outcome State Fault Refusal :=
  if s.early && (s.keeper.closing || (s.keeper.ramp12 && s.keeper.ramp5)) then
    .next (s.inputLost.openAndRetry F.PWR_EVENTS_EARLY_LOSS)
  else .next s

/-- RAIL_POWER_GOOD (R96): the next rail of the order; after the sixth, phase 4 follows. -/
def execRailPowerGood (s : State) : Host.Outcome State Fault Refusal :=
  if !s.early || s.keeper.closing || !s.keeper.ramp12 || !s.keeper.ramp5 || 6 ≤ s.keeper.railsGood then .next s
  else
    let s := (s.modKeeper fun k => { k with railsGood := k.railsGood + 1 }).railRegs
    .next (if s.keeper.railsGood = 6 then s.endPhase3 else s)

/-- The switch of a node: 0 the 12 V switch, 1 the 5 V switch. -/
def switchFld (node : Nat) : Fld := if node = 0 then F.PWR_STATUS_SW12_ON else F.PWR_STATUS_SW5_ON

/-- REVERSE_TRIP (R95): the event is set while the input is present. -/
def execReverseTrip (node : Nat) (s : State) : Host.Outcome State Fault Refusal :=
  if 1 < node || !s.keeperRuns || !s.on (switchFld node) then .next s
  else
    let present := s.on (if node = 0 then F.PWR_STATUS_VIN12_OK else F.PWR_STATUS_VIN5_OK)
    let s := s.clr (switchFld node)
    .next (if present then s.flag (if node = 0 then F.PWR_EVENTS_REV12 else F.PWR_EVENTS_REV5) else s)

/-- SWITCH_RECLOSE (R95): of a switch that a reverse trip opened, after its ramp or during it; a cold cast-on out of a hold goes
on once both are closed (R506). -/
def execSwitchReclose (node : Nat) (s : State) : Host.Outcome State Fault Refusal :=
  let ramped := s.keeper.closing || (if node = 0 then s.keeper.ramp12 else s.keeper.ramp5)
  if 1 < node || !s.keeperRuns || s.keeper.bindOff || s.keeper.retry || !ramped then .next s
  else
    let t := s.flag (switchFld node)
    .next (if s.early && !s.keeper.closing then t.confirmRails else t)

/-- SPINUP_CURRENT_SAMPLE (R97): the excess over SPINUP_MA comes off the spindle current reference in ALIGN, ACCEL and
CATCH. R97 says only 'by the excess': that the reduction accumulates from sample to sample, and that a later sample below the
limit gives its slack back, is the model's (DESIGN CHOICE, assumption log 94). -/
def execSpinupCurrentSample (iin12 iin5 : Nat) (s : State) : Host.Outcome State Fault Refusal :=
  if s.keeper.inReset then .next s
  else
    let s := (s.setFld F.PWR_IIN_IIN12_MA (min iin12 65535)).setFld F.PWR_IIN_IIN5_MA (min iin5 65535)
    let st := s.spnState
    if st = Spn.align ∨ st = Spn.accel ∨ st = Spn.catchState then
      let cut := s.spn.cut + iin12 - s.fld F.PWR_CTRL_SPINUP_MA
      .next ((s.modSpn fun x => { x with cut := cut }).setBit F.PWR_STATUS_SPINUP_LIMITING (cut != 0))
    else .next ((s.modSpn fun x => { x with cut := 0 }).clr F.PWR_STATUS_SPINUP_LIMITING)

/-! ### Bind-off (R102) -/

/-- Step 3: generator operation, which the spindle engine reports as COAST with cause 2 (R147). -/
def State.generate (s : State) : State :=
  (s.spnCoast 2).modSpn fun x => { x with generator := true, driving := true, zeroVector := false }

/-- KEEP_BO_LAST.RESULT of a bind-off that reached a step (R110). -/
def bindOffResult (step : Nat) : Nat := if 10 ≤ step then 1 else if 8 ≤ step then 2 else 3

/-- Pages that a bind-off saved. -/
def State.pagesSaved (s : State) (step n : Nat) : Nat :=
  let chunks := chunksOf s.dirtyWrites
  (if 10 ≤ step then chunks else if 8 ≤ step then chunks.take n else []).flatten.length

/-- The steps of a bind-off up to the one that it reaches: 11 with the Keeper's write. A save of R122 that is under way is not
repeated (R123): the logic die is then in reset already. -/
def State.bindOffSteps (s : State) (obs : BindOffObs) : State :=
  let inReset := s.keeper.inReset
  let s := s.lowerGates.switches false
  let s := s.generate
  let s := if inReset then s else s.retractAndStop 2
  let pages := s.pagesSaved obs.step obs.chunks
  let s := if inReset then s else (s.writeSave obs.step obs.chunks).reportSave (bindOffResult obs.step) pages obs.speed
  let s := if 11 ≤ obs.step then s.keeperWrites else s
  s.modKeeper fun k => { k with boStep := min obs.step 11, halted := true, inReset := true }

/-- BIND_OFF_START (R102): from phase 4 on, outside the holds. -/
def execBindOffStart (obs : BindOffObs) (s : State) : Host.Outcome State Fault Refusal :=
  if (obs.vin12 && obs.vin5) || !s.keeperRuns || s.keeper.bindOff || s.early || s.keeper.hold != .none then .next s
  else .next ((s.inputs obs.vin12 obs.vin5).bindOffSteps obs)

/-- INPUT_GLITCH (R102). -/
def execInputGlitch (s : State) : Host.Outcome State Fault Refusal :=
  if s.keeperRuns then .next (s.flag F.PWR_EVENTS_GLITCH) else .next s

/-- OUTPUT_RELEASE (R81): every output goes to high impedance, the spindle and voice-coil drives among them. -/
def execOutputRelease (s : State) : Host.Outcome State Fault Refusal :=
  if !s.keeper.bindOff then .next s
  else
    let s := s.modSpn fun x => { x with driving := false, generator := false, zeroVector := false }
    let s := s.modActs fun l => l.map fun x => { x with coil := .off, coilCmd := 0, ma := 0 }
    .next ((s.modPins fun p => { Pins.reset with testMode := p.testMode }).modKeeper fun k => { k with released := false })

/-- INPUT_RETURN (R105): after step 11, a cold cast-on with cause 1. -/
def execInputReturn (s : State) : Host.Outcome State Fault Refusal :=
  if s.keeper.bindOff && s.keeper.boStep == 11 then .next (s.coldStart 1) else .next s

/-- INPUT_LOSS_IN_HOLD (R106): the switches open and the Keeper halts; no step of R102 is performed. -/
def execInputLossInHold (s : State) : Host.Outcome State Fault Refusal :=
  if !s.keeperRuns || s.keeper.hold == .none then .next s
  else
    .next ((s.inputLost.switches false).modKeeper fun k =>
      { k with halted := true, hold := .none, ramp12 := false, ramp5 := false, railsGood := 0 })

/-! ### Temperature (R91) -/

/-- A temperature threshold is crossed (R281). -/
def State.temperature (s : State) (above : Bool) : State :=
  if above then (s.modHost fun h => { h with smart := h.smart ||| 2 }).postAsync 1 1 fun _ => true else s

/-- TEMP_WARNING (R91): 100 °C. -/
def execTempWarning (above : Bool) (s : State) : Host.Outcome State Fault Refusal :=
  if s.keeper.inReset then .next s else .next (if above then s.temperature true else s.smartClear 1)

/-- TEMP_CRITICAL (R91): 105 °C. -/
def execTempCritical (above : Bool) (s : State) : Host.Outcome State Fault Refusal :=
  if s.keeper.inReset then .next s else .next (s.temperature above)

/-- THERMAL_BIND_OFF (R91, R106): above 115 °C. -/
def execThermalBindOff (s : State) : Host.Outcome State Fault Refusal :=
  if s.keeper.inReset || s.keeper.bindOff then .next s else .next (s.enterHold .thermal)

/-- THERMAL_RELEASE (R91): a cold cast-on with cause 2. -/
def execThermalRelease (s : State) : Host.Outcome State Fault Refusal :=
  if s.keeperRuns && s.keeper.hold == .thermal then .next (s.coldFromHold 2) else .next s

/-! ### TEST_MODE (R70) -/

/-- TEST_MODE_RISE (R70): before the end of phase 3 it is found there; later the device saves and holds. -/
def execTestModeRise (s : State) : Host.Outcome State Fault Refusal :=
  let s := s.modPins fun p => { p with testMode := true }
  if !s.keeperRuns || s.early || s.keeper.bindOff || s.keeper.hold != .none then .next s
  else if s.keeper.inReset then .next (s.keeperWrites.modKeeper fun k => { k with hold := .testMode })
  else .next (s.enterHold .testMode)

/-- TEST_MODE_RELEASE (R70): a cold cast-on with cause 6. -/
def execTestModeRelease (s : State) : Host.Outcome State Fault Refusal :=
  let s := s.modPins fun p => { p with testMode := false }
  if s.keeperRuns && s.keeper.hold == .testMode then .next (s.coldFromHold 6) else .next s

end Sys2Proof.Machine
end

