-- ==== Sys2Proof/Machine/CastOn.lean ====
section
/-!
DEFINITION. Sys2Proof/Machine/CastOn.lean: phases 5 to 10 of cast-on (R111 to R116): self-tests, the Pattern (R55, R56), DRAM,
the load of the components (R113, R114, R390) and readiness; warm and watchdog resets (R122, R124).
-/

namespace Sys2Proof.Machine

/-! ### Images in the firmware slots (R442, R113) -/

/-- The image in a component's slot; nothing stands in a slot that was never written. -/
def State.image (s : State) (component slot : Nat) : List Byte :=
  ((s.upd.images.find? fun i => i.1 == component && i.2.1 == slot).map (·.2.2)).getD []

/-- Bytes of a component's partition (R442). -/
def partitionSize (component : Nat) : Nat :=
  2 ^ 20 * (match component with | 1 => 4 | 2 => 4 | 3 => 96 | 4 => 128 | 5 => 1 | _ => 0)

/-- The image verifies under R389 and fits its partition. -/
def State.imageOk (s : State) (component : Nat) (img : List Byte) : Bool :=
  512 + leField img 8 4 ≤ partitionSize component && (s.fuse.checkImage component img).1 = 0

/-- The slot that cast-on takes for a component; slot A where the record names none. -/
def State.bootSlot (s : State) (component : Nat) : Nat := kgetD component s.cast.bootSlots 0

/-- Verify and load a component from the slot the record names, or from its other slot, which is a COMPONENT_FALLBACK and a
fault of R463; none when both fail (R113). -/
def State.loadComponent (s : State) (component : Nat) : Option (List Byte) × State :=
  let k := s.bootSlot component
  let img := s.image component k
  let alt := s.image component (1 - k)
  if s.imageOk component img then (some img, s)
  else if s.imageOk component alt then
    let s := s.modCast fun c => { c with bootSlots := kput component (1 - k) c.bootSlots }
    (some alt, (s.event 1 5 5 component k).noteFault)
  else (none, s)

/-- The DIGEST in an image's header (R388). -/
def imageDigest (img : List Byte) : Digest := ofDigestBytes (cutBytes img 0x20 32)

/-- The security version of an image or a container: both hold it at byte 0x10. -/
def imageSvn (img : List Byte) : Nat := leField img 0x10 8

/-! ### SVN_ADVANCE after a confirmation, and settings (R463, R466) -/

/-- Tirium advances each component of CURRENT whose SVN exceeds its fused version; then SVN_PENDING is cleared. -/
def State.completeSvn (s : State) : State :=
  if !s.record.svnPending then s
  else
    let s := s.record.current.foldl (fun s e =>
      let v := imageSvn (s.image e.component e.slot)
      if s.fuse.svn (e.component - 1) < v then (s.svnAdvance e.component v).2.2 else s) s
    s.putRecord fun r => { r with svnPending := false }

/-- Cut a list into groups of at most n. -/
def groupsOf {α : Type} (n : Nat) : Nat → List α → List (List α)
  | 0, _ => []
  | k + 1, l => if l.isEmpty then [] else l.take n :: groupsOf n k (l.drop n)

/-- The IDs of a SETTINGS_RESET event: their number in bits 15:0 of the first word, then two to a word (DESIGN CHOICE). -/
def settingsPayload (l : List Nat) : List Word :=
  BitVec.ofNat 32 l.length :: (List.range 7).map fun k => BitVec.ofNat 32 (l.getD (2 * k) 0 + 2 ^ 16 * l.getD (2 * k + 1) 0)

/-- Settings records whose FORMAT differs from the one that the front firmware in a slot declares are deleted (R466). -/
def State.settingsReset (s : State) (slot : Nat) : State :=
  let table := kgetD slot s.upd.tables []
  let stale (r : Nat × Nat × List Byte) : Bool := table.any fun t => t.1 == r.1 && t.2 != r.2.1
  let gone := (s.upd.settings.filter stale).map (·.1)
  if gone.isEmpty then s
  else
    let s := s.modUpd fun u => { u with settings := u.settings.filter fun r => !stale r }
    (groupsOf 14 gone.length gone).foldl (fun s l => s.eventWith 26 4 3 (settingsPayload l)) (s.flag F.UPD_EV_SETTINGS_RESET)

/-! ### Phase 4 after a reset hold (R122) -/

/-- LOGIC_DIE_RESET_END (R122): the logic die leaves reset and cast-on re-enters at phase 4; a high TEST_MODE holds it (R70). -/
def execLogicDieResetEnd (s : State) : Host.Outcome State Fault Refusal :=
  if !s.keeper.inReset || s.cast.cold || s.keeper.hold != Hold.none || !s.keeper.powered || s.keeper.halted || s.keeper.bindOff then .next s
  else if s.pins.testMode then .next (s.modKeeper fun k => { k with hold := .testMode })
  else .next (s.phase4 true)

/-! ### Phases 5 and 6 (R112, R374, R377, R390, R55, R56) -/

/-- Cast-on stops in FAILED (R112). -/
def State.castFails (s : State) (code : Nat) : State :=
  let s := (s.setFld F.SYS_CASTON_PHASE 0xF).setFld F.SYS_CASTON_ERROR code
  s.shadowAlone (s.makeRecord 1 4 7 (s.payload 1 0 code))

/-- Tirium's ROM verifies its firmware and starts it; with neither slot sound the ROM stands alone; LATCHED outlasts a warm
reset (R390, R403). -/
def State.startTirium (s : State) : State :=
  if 16 ≤ s.fld F.TIR_ALARM_COUNT then s.setFld F.TIR_STATUS_STATE 3
  else
    match s.loadComponent 1 with
    | (some img, s) => (s.noteVerified 1 (imageDigest img)).tiriumBoot Config.romMeasurement (imageDigest img)
    | (none, s) => (s.setFld F.TIR_STATUS_STATE 4).setFld F.SYS_CASTON_ERROR 0x10

/-- The ROM Pattern (R56). -/
def romPattern : Pattern :=
  { Pattern.empty with
    digest := Config.romPattern
    memory := [{ kind := 4, dieMask := 3, base := 0, size := 256 }, { kind := 6, dieMask := 1, base := 256, size := 64 }]
    host := { controllers := [{ port := 0, function := 0, frontPair := 0, sqMax := 2, cqMax := 2, msix := 1 }],
              namespaces := [], arbitration := [], urgent := [] } }

/-- The Pattern in a slot under R54; a container that exceeds its partition fails the LENGTH check of step 1. -/
def State.validateSlot (s : State) (k : Nat) : Verdict :=
  let img := s.image 5 k
  validatePattern s.fuse img none (decide (leField img 8 4 ≤ partitionSize 5))

/-- The device is to be built from a Pattern: STATE, its registers and its measurement (R57, R64). -/
def State.takePattern (s : State) (p : Pattern) (entries : List PatternEntry) (st : Nat) : State :=
  let s := (s.modPattern fun u => { u with active := p, entries := entries, runtimeSvn := none }).setFld F.PAT_STATUS_STATE st
  (s.loadPatternRegs.setBlock 6 p.digest).driveStatus

/-- The Pattern of the slot that the record names, of the other slot, or of the ROM (R55, R56). -/
def State.choosePattern (s : State) : State :=
  let k := s.bootSlot 5
  let v := s.validateSlot k
  let s := s.recordSkipped v.skipped
  match v.result with
  | .ok x => s.takePattern x.pattern x.entries 1
  | .error e =>
    let s := (s.setFld F.PAT_STATUS_ERROR e.code).putLoc e.panel e.entry
    let w := s.validateSlot (1 - k)
    let s := s.recordSkipped w.skipped
    match w.result with
    | .ok x =>
      let s := s.modCast fun c => { c with bootSlots := kput 5 (1 - k) c.bootSlots }
      (s.takePattern x.pattern x.entries 2).event 2 3 5 k e.code
    | .error f => (s.setFld F.PAT_STATUS_ERROR_ALT f.code).takePattern romPattern [] 3

/-- SELFTEST_DONE (R112): phase 5 ends, and phase 6 validates the Pattern. -/
def execSelftestDone (repaired : Nat) (sramOk wordOk pageOk : Bool) (s : State) : Host.Outcome State Fault Refusal :=
  if s.fld F.SYS_CASTON_PHASE ≠ 2 || s.keeper.inReset then .next s
  else if !sramOk || 192 - s.fuse.sramSpares < repaired then .next (s.castFails 1)
  else if !wordOk then .next (s.castFails 2)
  else if !pageOk then .next (s.castFails 3)
  else
    let s := (s.setFld F.SRM_STATUS_SPARES_SOFT repaired).setFld F.SRM_STATUS_SPARES_FREE (192 - s.fuse.sramSpares - repaired)
    let s := if repaired = 0 then s else s.flag F.SRM_EV_SOFT_REPAIR
    .next ((s.startTirium.setFld F.SYS_CASTON_PHASE 4).choosePattern)

/-! ### Phase 6 ends (R111, R115) -/

/-- A controller as phase 6 builds it. -/
def Controller.fresh (c : Nat) : Controller :=
  { cntlid := c, enabled := false, css := 0, asqs := 0, acqs := 0, cfsSticky := false, paused := false, weights := none, aers := [],
    aerQueue := [], aerMasked := [], aecMask := 0, features := [], noCoalesce := [], coalescing := [], snapshots := [], lastQueue := 0,
    credits := (0, 0, 0), errors := 0, errorLog := [], offline := false }

/-- Every function of the Host panel: a PF exists at once, a VF once VF Enable is set (R264); configuration spaces, BARs and
controller registers are built (R115). -/
def State.buildControllers (s : State) : State :=
  let l := s.pattern.active.host.controllers.map fun e => 16 * e.port + e.function
  let built := s.pattern.active.host.controllers.map fun e => PcieFunction.fresh (16 * e.port + e.function) e.msix
  let s := s.modHost fun h => { h with controllers := l.map Controller.fresh, functions := built, rings := [], vfEnable := [false, false] }
  s.setFld F.HIF_CTRL_EXIST_EXIST ((l.filter isPf).foldl (fun m c => m ||| 2 ^ c) 0)

/-- Dies of a mask. -/
def diesOf (mask : Nat) : List Nat := [0, 1].filter mask.testBit

/-- Buffer pages of the Memory panel: 4 KiB pages of regions 2, 3 and 6, on every die of their masks (R310). -/
def State.bufferPages (s : State) : Nat :=
  (s.pattern.active.memory.filter fun r => bufferRegion r.kind).foldl (fun m r => m + 256 * r.size * (diesOf r.dieMask).length) 0

/-- The Ledger is loaded from the census of an empty device (R310, R312, R376): slots, pages but for those quarantined, tokens. -/
def State.loadLedger (s : State) : State :=
  let bad := (s.prot.quarantined.filter fun q => bufferRegion (s.regionOf q.2 q.1)).length
  let s := s.modFlow fun f => { f with pageTotal := s.bufferPages, checksOff := false }
  let s := ((s.loadClass Class.slotFree 32768).loadClass Class.free (s.bufferPages - bad)).loadClass Class.quarantined bad
  let s := if s.hasCipher then (List.range 4).foldl (fun s c => s.loadClass (Class.tokenFree c) 64) s else s
  s.accountRegs

/-- PATTERN_PHASE_DONE (R111, R115): the device is built, and the links may train. -/
def execPatternPhaseDone (s : State) : Host.Outcome State Fault Refusal :=
  if s.fld F.SYS_CASTON_PHASE ≠ 4 || s.keeper.inReset then .next s
  else
    let s := (s.modCast fun c => { c with built := true }).buildControllers.loadLedger
    let s := s.unreadRegs.saveCapacity
    -- under the ROM Pattern an earlier save stays untouched (R56)
    let s := if s.fld F.PAT_STATUS_STATE = 3 then s.modKeeper fun k => { k with restoring := false } else s
    .next (((s.trainLink 0).trainLink 1).setFld F.SYS_CASTON_PHASE 5)

/-! ### Phase 7 (R375 to R377) -/

/-- DRAM_TRAIN_DONE (R111, R377): a die with more failing granules than TEST_MAX stops cast-on. -/
def execDramTrainDone (failing : List (Nat × Nat)) (s : State) : Host.Outcome State Fault Refusal :=
  if s.fld F.SYS_CASTON_PHASE ≠ 5 || s.keeper.inReset then .next s
  else
    let fails (d : Nat) : Nat := ((failing.filter fun f => f.1 == d).eraseDups).length
    if s.fld F.MEM_THRESH_TEST_MAX < fails 0 || s.fld F.MEM_THRESH_TEST_MAX < fails 1 then .next (s.castFails 4)
    else
      let s := [0, 1].foldl (fun s d =>
        let s := s.setFld (F.MEM_TEST_FAILS d) (fails d)
        let s := s.setFld (F.MEM_RETIRE_RETIRED_SPARE d) (s.prot.retired.filter fun r => r.2 == d).length
        s.setFld (F.MEM_RETIRE_RETIRED_BUF d) (s.prot.quarantined.filter fun r => r.2 == d).length) s
      .next ((s.setFld F.MEM_REMAP_STATUS_USED s.prot.remap.length).setFld F.SYS_CASTON_PHASE 6)

/-! ### Phase 8 (R111, R113, R114, R150, R204) -/

/-- A Needle that drives an actuator: its graph, and the credits of its mailbox (R150, R160, R171). -/
def State.startNeedle (s : State) (e : ActuatorEntry) : State :=
  let blocks := s.pattern.active.loop.blocks.filter fun b => b.act == e.act
  let s := (s.setFld (F.NDL_STATUS_ROLE e.needle) 1).setFld (F.NDL_STATUS_ACT e.needle) e.act
  let cost := blocks.foldl (fun m b => m + blockCost b.kind b.coefs.length) 0
  let s := (s.setFld (F.NDL_GRAPH_COST e.needle) cost).setFld (F.NDL_GRAPH_BLOCKS e.needle) blocks.length
  let s := s.loadCredits e.needle 0
  (s.seatSlice e.sliceP 1 e.act 0 7).seatSlice e.sliceQ 1 e.act 1 7

/-- The pairs but the front ones, the Needles and the slices start as Topology names them (R17, R150, R204). -/
def State.startUnits (s : State) : State :=
  let s := ((s.setFld (pairFld 3) 1).setFld (pairFld 4) 1).setFld (pairFld 5) 3
  let t := s.pattern.active.topology
  let s := t.actuators.foldl State.startNeedle s
  if t.actuators.isEmpty then s
  else
    let s := if s.hasNeedle t.standby then s.setFld (F.NDL_STATUS_ROLE t.standby) 2 else s
    if s.hasSlice t.spareSlice then s.idleSlice t.spareSlice 2 else s

/-- The front pairs run. -/
def State.startFront (s : State) : State := ((s.setFld (pairFld 0) 1).setFld (pairFld 1) 1).setFld (pairFld 2) 1

/-- A component could not be loaded from either slot: the boot ROM's recovery controller runs on port 0 (R113). -/
def State.startRecovery (s : State) (component : Nat) : State :=
  let s := (s.setFld F.SYS_CASTON_PHASE 0xE).setFld F.SYS_CASTON_ERROR (0x10 + (component - 1))
  let s := (s.modCast fun c => { c with recovery := true }).modPattern fun u => { u with active := { u.active with host := romPattern.host } }
  let s := (s.linkFalls 1).modHost fun h => { h with linkTraining := putAt 1 false h.linkTraining }
  s.buildControllers.setFld (pairFld 0) 1

/-- Load components in turn: those loaded, and the first that fails. -/
def State.loadAll : List Nat → State → List (Nat × List Byte) × Option Nat × State
  | [], s => ([], none, s)
  | c :: rest, s =>
    match s.loadComponent c with
    | (none, s) => ([], some c, s)
    | (some img, s) =>
      let (l, f, s) := State.loadAll rest s
      ((c, img) :: l, f, s)

/-- The image of a component has been loaded: its measurement block is written (R391). -/
def State.loaded (s : State) (e : Nat × List Byte) : State :=
  let s := (s.noteVerified e.1 (imageDigest e.2)).setBlock (e.1 + 1) (imageDigest e.2)
  if e.1 = 2 then
    (List.range 3).foldl (fun s n => if s.hasNeedle n then s.setFld (F.NDL_UCODE_LEVEL_CUR n) (leField e.2 6 2) else s) s
  else s

/-- Where the CODE region of a die begins in the DRAM data space; the data space of die 1 follows bit 32 (assumption log 10). -/
def State.codeBase (s : State) (die : Nat) : Nat :=
  2 ^ 32 * die + 2 ^ 20 * ((s.pattern.active.memory.find? fun r => r.kind == 4).map (·.base)).getD 0

/-- The boot ROM copies the verified images into the CODE region on both dies (R111), one behind the other in the order of their
components: the spec gives no places within the region (DESIGN CHOICE, assumption log 99). -/
def State.copyCode : List (Nat × List Byte) → Nat → State → State
  | [], _, s => s
  | e :: rest, at_, s =>
    State.copyCode rest (at_ + e.2.length)
      ((s.store .dram (s.codeBase 0 + at_) e.2).store .dram (s.codeBase 1 + at_) e.2)

/-- LOAD_DONE (R111, R113, R114, R390): the components are verified and loaded, and pairs and Needles start; in legacy mode the
front firmware alone. -/
def execLoadDone (s : State) : Host.Outcome State Fault Refusal :=
  if s.fld F.SYS_CASTON_PHASE ≠ 6 || s.keeper.inReset then .next s
  else if s.romOnly then .next (s.startRecovery 1)
  else
    let legacy := s.pattern.active.topology.legacy
    match State.loadAll (if legacy then [4] else [2, 3, 4]) s with
    | (_, some c, s) => .next (s.startRecovery c)
    | (l, none, s) =>
      let s := State.copyCode l 0 ((l.foldl State.loaded s).settingsReset (s.bootSlot 4))
      let s := s.completeSvn
      let s := match s.darn.rewrite with
        | some w => (s.flag F.DRN_REWRITE_STATUS_BUSY).setFld F.DRN_REWRITE_STATUS_ZONE w.zone
        | none => s
      let s := s.startFront
      let s := if legacy then s.modCast fun c => { c with legacyHeld := true } else s.startUnits
      .next (s.setFld F.SYS_CASTON_PHASE 7)

/-- A write of SYS_RST_CTRL.RELEASE. -/
def State.legacyRelease (s : State) : State :=
  if s.cast.legacyHeld then (s.modCast fun c => { c with legacyHeld := false }).startUnits else s

/-- LEGACY_RELEASE (R114). -/
def execLegacyRelease (s : State) : Host.Outcome State Fault Refusal := .next s.legacyRelease

/-- A write of SYS_CASTON.HOST_READY (R116): PHASE READY follows phase 9; the time of cast-on is a value of the clock that the
model does not keep. -/
def State.hostReady (s : State) : State :=
  if s.keeper.inReset then s
  else
    let s := s.flag F.SYS_CASTON_HOST_READY
    if s.fld F.SYS_CASTON_PHASE = 7 then
      let (t, s) := s.draw
      (s.setFld F.SYS_CASTON_TIME_MS t).setFld F.SYS_CASTON_PHASE 8
    else s

/-- HOST_READY (R116). -/
def execHostReady (s : State) : Host.Outcome State Fault Refusal := .next s.hostReady

/-! ### Warm and watchdog resets (R122, R124) -/

/-- A write of SYS_RST_CTRL.WARM with KEY; only a cold cast-on leaves FAILED (R112). -/
def State.warmByFirmware (s : State) (key : Nat) : State :=
  if key ≠ 0xA55A || !s.warmAllowed then s else s.warmStart 3 15

/-- WARM_RESET (R112, R122, R125). -/
def execWarmReset (key : Nat) (s : State) : Host.Outcome State Fault Refusal := .next (s.warmByFirmware key)

/-- WATCHDOG_EXPIRY (R124): the pair, or the one that stands in for it, has not kicked its bit within PERIOD Rows. -/
def execWatchdogExpiry (p : Nat) (s : State) : Host.Outcome State Fault Refusal :=
  let period := s.fld F.SYS_WDOG_PERIOD
  let runs := match s.standsInFor p with | some k => !(s.pair k).halted | none => s.pairRuns p && !(s.pair p).halted
  if 4 < p || period = 0 || !s.on (F.SYS_WDOG_PAIRS.at p) || !runs || s.rowCount - s.cast.kicked.getD p 0 < period ||
      !s.warmAllowed then .next s
  else .next (s.noteFault.warmStart 5 p)

/-- A write of SYS_WDOG_KICK; of a halted pair the Rows counted are kept, none after a kick. -/
def State.watchdogKick (s : State) (pairs : Nat) : State :=
  s.modCast fun c =>
    { c with kicked := (c.kicked.zipIdx).map fun k =>
        if pairs.testBit k.2 then (if (s.pair ((s.standsInFor k.2).getD k.2)).halted then 0 else s.rowCount) else k.1 }

/-- WATCHDOG_KICK (R124). -/
def execWatchdogKick (pairs : Nat) (s : State) : Host.Outcome State Fault Refusal := .next (s.watchdogKick pairs)

/-- A write of SYS_WDOG: PERIOD cannot return to 0 once set. The count of every pair starts when PERIOD becomes nonzero, and
that of a pair which is newly named in PAIRS at that write; no other write of the register restarts one, since R124 lets only a
kick do so (DESIGN CHOICE, assumption log 97). -/
def State.watchdogConfig (s : State) (period pairs : Nat) : State :=
  let was := s.fld F.SYS_WDOG_PERIOD
  let named := s.fld F.SYS_WDOG_PAIRS
  let s := if period % 2 ^ 16 = 0 && was != 0 then s else s.setFld F.SYS_WDOG_PERIOD period
  let s := s.setFld F.SYS_WDOG_PAIRS pairs
  s.watchdogKick (if was = 0 then 31 else pairs &&& (named ^^^ 31))

/-- WATCHDOG_CONFIG (R124, R125). -/
def execWatchdogConfig (period pairs : Nat) (s : State) : Host.Outcome State Fault Refusal := .next (s.watchdogConfig period pairs)

end Sys2Proof.Machine
end

