-- ==== Sys2Proof/Machine/Bundle.lean ====
section
/-!
DEFINITION. Sys2Proof/Machine/Bundle.lean: firmware bundles (R443, R444), staging sessions (R445 to R447), and the checks of a
Firmware Commit (R448, R449, R452).
-/

namespace Sys2Proof.Machine

/-! ### Admin commands -/

/-- The slot holds an admin command of an opcode, as fetched. -/
def State.freshAdmin (s : State) (n op : Nat) : Option Slot :=
  (s.slot n).bind fun x => if x.fresh && !s.isIo x && x.sqe.opcode == op then some x else none

/-- The command comes from a physical function, or over the sideband. -/
def Slot.fromPf (x : Slot) : Bool := x.sideband || isPf x.skein

/-! ### The manifest (R443, R444) -/

/-- Bytes of a manifest. -/
def manifestSize : Nat := 4096

/-- Component entry k of a manifest. -/
def manifestEntry (m : List Byte) (k : Nat) : BundleEntry :=
  let e := cutBytes m (0x100 + 80 * k) 80
  { component := leField e 0 1, level := leField e 2 2, offset := leField e 4 4, length := leField e 8 4,
    digest := ofDigestBytes (cutBytes e 16 32), accept := (List.range 5).map fun c => (leField e (48 + 4 * c) 2, leField e (50 + 4 * c) 2) }

/-- The components that a manifest carries. -/
def manifestEntries (m : List Byte) : List BundleEntry := (List.range (leField m 6 2)).map (manifestEntry m)

/-- The settings table: it ends at an entry of all zeros. -/
def manifestSettings (m : List Byte) : List (Nat × Nat) :=
  (((List.range 256).map fun k => cutBytes m (0x300 + 4 * k) 4).takeWhile fun e => !allZero e).map fun e => (leField e 0 2, leField e 2 1)

/-- BUNDLE_LENGTH. -/
def bundleLength (m : List Byte) : Nat := leField m 8 4

/-- Components strictly ascending, 1 to 5. -/
def ascendingFrom : Nat → List BundleEntry → Bool
  | _, [] => true
  | k, e :: rest => k < e.component && e.component ≤ 5 && ascendingFrom e.component rest

/-- An image lies within the bundle, behind the manifest. -/
def BundleEntry.inside (e : BundleEntry) (total : Nat) : Bool :=
  e.offset % 4096 == 0 && 4096 ≤ e.offset && e.offset + e.length ≤ total

/-- Two images share no byte. -/
def BundleEntry.apart (e f : BundleEntry) : Bool := e.offset + e.length ≤ f.offset || f.offset + f.length ≤ e.offset

/-- No two images overlap. -/
def allApart : List BundleEntry → Bool
  | [] => true
  | e :: rest => rest.all e.apart && allApart rest

/-- Reserved bytes of the manifest and of its entries are 0. -/
def manifestReserved (m : List Byte) : Bool :=
  let zero (off n : Nat) : Bool := allZero (cutBytes m off n)
  let count := leField m 6 2
  zero 0x0C 4 && zero 0x18 8 && zero 0xC0 64 && zero (0x100 + 80 * count) (80 * (5 - count)) && zero 0x290 112 && zero 0x700 2304 &&
  (List.range count).all (fun k => zero (0x101 + 80 * k) 1 && zero (0x10C + 80 * k) 4 && zero (0x144 + 80 * k) 12) &&
  (List.range (manifestSettings m).length).all fun k => zero (0x303 + 4 * k) 1

/-- The digest of a manifest. -/
def manifestDigest (m : List Byte) : Digest := ofDigestBytes (cutBytes m 0x20 32)

/-- The manifest under R443 and R444: 0, or the code of UPD_ERR. -/
def Fuses.checkManifest (f : Fuses) (m : List Byte) : Nat :=
  let total := bundleLength m
  let l := manifestEntries m
  let count := leField m 6 2
  if leField m 0 4 ≠ 0x50555A42 || leField m 4 2 ≠ 1 || count = 0 || 5 < count || total % 4096 ≠ 0 || 256 * 2 ^ 20 < total ||
      total < 4096 || !manifestReserved m || !ascendingFrom 0 l || !l.all (fun e => e.inside total) || !allApart l then 1
  else if Config.sm3 (m.take 0x20 ++ cutBytes m 0xC0 0xF40) ≠ manifestDigest m then 1
  else if signedBy (f.makerHash f.makerKeyHash) (cutBytes m 0x40 64) (cutBytes m 0x80 64) (manifestDigest m) ≠ some true then 2 else 0

/-! ### Sessions (R445, R446) -/

/-- The source of a command: 0 port 0, 1 port 1, 2 the sideband. -/
def Slot.source (x : Slot) : Nat := if x.sideband then 2 else x.skein / 16

/-- The session ends: the bitmap is cleared, and the vendor event is posted; a Commit that still works on it ends with it. -/
def State.endSession (s : State) (event : Fld) : State :=
  let s := (s.modUpd fun u => { u with session := none }).setFld F.UPD_STATUS_SESSION 0
  ((s.sessionRegs).flag event).postVendor 4

/-- A session that is aborted or expires takes a Commit under verification with it (DESIGN CHOICE). -/
def State.dropSession (s : State) (event : Fld) : State :=
  match s.upd.session with
  | none => s
  | some _ =>
    let running := s.upd.verifying
    let s := (s.modUpd fun u => { u with verifying := none }).endSession event
    match running with
    | some ⟨some n, _⟩ => (s.clr F.UPD_STATUS_ACT_STATE).completeSlot n Nvme.firmwareImage 0
    | _ => s

/-- Units of a piece, by number. -/
def pieceUnits (off : Nat) (piece : List Byte) : List (Nat × List Byte) :=
  (List.range (piece.length / 4096)).map fun k => (off / 4096 + k, cutBytes piece (4096 * k) 4096)

/-- Keep the units that are not kept yet; newly kept ones are progress. -/
def State.keepUnits (s : State) (source : Nat) (units : List (Nat × List Byte)) : State :=
  let s := s.modUpd fun u =>
    { u with session := u.session.map fun x =>
        let new := units.filter fun e => (kget e.1 x.units).isNone
        { x with members := x.members ||| 2 ^ source, units := new.foldl (fun l e => kput e.1 e.2 l) x.units,
                 lastProgress := if new.isEmpty then x.lastProgress else s.optime } }
  s.sessionRegs

/-- A session is opened by the manifest in a piece (R446). -/
def State.openSession (s : State) (piece : List Byte) : State :=
  let m := piece.take manifestSize
  let x : Session :=
    { digest := manifestDigest m, length := bundleLength m, entries := manifestEntries m, settings := manifestSettings m, units := [],
      lastProgress := s.optime, members := 0 }
  (((s.modUpd fun u => { u with session := some x }).flag F.UPD_EV_SESSION_OPEN).event 26 1 1 0 0).postVendor 4

/-- Update Session Busy (R446). -/
def Nvme.sessionBusy : Nat := 0x7C2

/-- A Firmware Image Download carries the abort of R446. -/
def isAbort (q : Sqe) (piece : List Byte) : Bool := q.cdw10 == 0 && q.cdw11 == 0 && ofLe (piece.take 4) == 0x54524241

/-- What becomes of a piece: the status and the state (R445, R446). -/
def State.takePiece (s : State) (x : Slot) (piece : List Byte) : Nat × State :=
  let n := 4 * (x.sqe.cdw10 + 1)
  let off := 4 * x.sqe.cdw11
  let piece := padTo n piece
  let source := x.source
  let member (y : Session) : Bool := y.members.testBit source
  if isAbort x.sqe piece then
    match s.upd.session with
    | some y => if member y then (0, s.dropSession F.UPD_EV_SESSION_ABORT) else (Nvme.sequenceError, s)
    | none => (Nvme.sequenceError, s)
  else if off % 4096 ≠ 0 || n % 4096 ≠ 0 || 2 ^ 21 < n then (Nvme.invalidField, s)
  else
    let keep (total : Nat) (s : State) : Nat × State :=
      if total < off + n then (Nvme.invalidField, s) else (0, s.keepUnits source (pieceUnits off piece))
    match s.upd.session with
    | none =>
      if off ≠ 0 then (Nvme.sequenceError, s)
      else if s.fuse.checkManifest (piece.take manifestSize) ≠ 0 then (Nvme.firmwareImage, s)
      else if bundleLength piece < n then (Nvme.invalidField, s)
      else keep (bundleLength piece) (s.openSession piece)
    | some y =>
      if off = 0 then
        if manifestDigest piece = y.digest then keep y.length s else (Nvme.sessionBusy, s)
      else if member y then keep y.length s
      else (Nvme.sequenceError, s)

/-- FIRMWARE_IMAGE_DOWNLOAD (R269, R445, R446). -/
def execFirmwareImageDownload (n : Nat) (piece : List Byte) (s : State) : Host.Outcome State Fault Refusal :=
  match s.freshAdmin n 0x11 with
  | none => .next s
  | some x =>
    if !x.fromPf then .next (s.failCommand x Nvme.invalidOpcode)
    else
      match s.takePiece x piece with
      | (0, s) => .next (s.completeSlot n 0 0)
      | (e, s) => .next (s.failCommand x e)

/-- SESSION_EXPIRY (R446): 7 days of operating time without progress. -/
def execSessionExpiry (s : State) : Host.Outcome State Fault Refusal :=
  match s.upd.session with
  | some x => if 604800000 ≤ s.optime - x.lastProgress then .next (s.dropSession F.UPD_EV_SESSION_EXPIRED) else .next s
  | none => .next s

/-- A write of UPD_CTRL.ABORT. -/
def State.updAbort (s : State) : State := s.dropSession F.UPD_EV_SESSION_ABORT

/-- UPD_ABORT (R446). -/
def execUpdAbort (s : State) : Host.Outcome State Fault Refusal := .next s.updAbort

/-! ### The checks of a Commit (R449, R452) -/

/-- Bytes of the staging area. -/
def Session.bytes (x : Session) (off n : Nat) : List Byte :=
  cutBytes (((List.range (x.length / 4096)).flatMap fun k => (kgetD k x.units (List.replicate 4096 0)))) off n

/-- The image of a component entry. -/
def Session.image (x : Session) (e : BundleEntry) : List Byte := x.bytes e.offset e.length

/-- A failure of R449: code, detail and component. -/
structure CommitFail where
  code : Nat
  detail : Nat
  component : Nat
  deriving DecidableEq, Repr

/-- Step 3 for one image: Tirium's code, or that of the Pattern loader. -/
def State.imageFault (s : State) (x : Session) (e : BundleEntry) : Option CommitFail :=
  let img := x.image e
  if e.component = 5 then
    if partitionSize 5 < e.length then some ⟨8, 3, 5⟩
    else
      match (validatePattern s.fuse img none true).result with
      | .error p => some ⟨8, p.code, 5⟩
      | .ok _ => none
  else if partitionSize e.component < e.length then some ⟨7, 0x21, e.component⟩
  else
    let c := (s.fuse.checkImage e.component img).1
    if c = 0 then none else some ⟨7, c, e.component⟩

/-- The digest that an image states itself: at byte 0x20 of either form. -/
def Session.digestFault (x : Session) (e : BundleEntry) : Option CommitFail :=
  if imageDigest (x.image e) = e.digest then none else some ⟨0xA, 0, e.component⟩

/-- The slot of a component that is not in use. -/
def State.inactiveSlot (s : State) (component : Nat) : Nat :=
  1 - ((s.record.current.find? fun e => e.component == component).map (·.slot)).getD (s.bootSlot component)

/-- The record entry of a bundle's component in the slot it is written to. -/
def State.newEntry (s : State) (e : BundleEntry) : SlotEntry :=
  { component := e.component, level := e.level, slot := s.inactiveSlot e.component, valid := true, length := e.length,
    digest := e.digest, accept := e.accept }

/-- Two components work with each other's levels (R452). -/
def SlotEntry.accepts (c d : SlotEntry) : Bool :=
  let r := c.accept.getD (d.component - 1) (0, 0)
  r.1 ≤ d.level && d.level ≤ r.2

/-- A set of components is compatible, the Pattern's MICROCODE_LEVEL included. -/
def compatible (l : List SlotEntry) (needed : Nat) : Bool :=
  l.all (fun c => l.all fun d => c.component == d.component || c.accepts d) &&
  (match l.find? fun e => e.component == 2 with | some e => needed ≤ e.level | none => true)

/-- A set with one component replaced. -/
def withEntry (l : List SlotEntry) (e : SlotEntry) : List SlotEntry := (l.filter fun f => f.component != e.component) ++ [e]

/-- Every mix on the way from a set to one with the new components, in code order, is compatible. -/
def mixesOk (levelOf : SlotEntry → Option Nat) : List SlotEntry → Nat → List SlotEntry → Bool
  | _, _, [] => true
  | cur, needed, e :: rest =>
    let cur := withEntry cur e
    let needed := (levelOf e).getD needed
    compatible cur needed && mixesOk levelOf cur needed rest

/-- MICROCODE_LEVEL of a bundle's Pattern. -/
def State.patternLevel (s : State) (x : Session) (e : SlotEntry) : Option Nat :=
  if e.component ≠ 5 then none
  else
    (x.entries.find? fun b => b.component == 5).bind fun b =>
      match (validatePattern s.fuse (x.image b) none true).result with
      | .ok a => some a.pattern.loop.level
      | .error _ => none

/-- MiB of the CODE region. -/
def State.codeSize (s : State) : Nat := ((s.pattern.active.memory.find? fun r => r.kind == 4).map (·.size)).getD 0

/-- Bytes of images of codes 2 to 4. -/
def codeBytes (l : List SlotEntry) : Nat := (l.filter fun e => 2 ≤ e.component && e.component ≤ 4).foldl (fun m e => m + e.length) 0

/-- Steps 1 to 6 of R449: the failure, if any. -/
def State.commitFault (s : State) (x : Session) (now : Bool) : Option CommitFail :=
  let m := x.bytes 0 manifestSize
  let new := x.entries.map s.newEntry
  let cur := s.record.current.filter (·.valid)
  let levels := x.entries.all fun e => e.component == 5 || leField (x.image e) 6 2 == e.level
  if x.units.length < x.length / 4096 then some ⟨5, 0, 0⟩
  else if s.fuse.checkManifest m ≠ 0 then some ⟨s.fuse.checkManifest m, 0, 0⟩
  -- under the ROM Pattern a Pattern component only (R56)
  else if !levels || (s.fld F.PAT_STATUS_STATE = 3 && !s.cast.recovery && x.entries.any fun e => e.component != 5) then some ⟨1, 0, 0⟩
  else
    ((x.entries.findSome? (s.imageFault x)).or (x.entries.findSome? x.digestFault)).or
      (if !mixesOk (s.patternLevel x) cur s.pattern.active.loop.level new then some ⟨9, 0, 0⟩
       else if now && s.codeSize * 2 ^ 20 < codeBytes cur + codeBytes new then some ⟨0xC, 0, 0⟩ else none)

/-- The units that an image of a component occupies. -/
def Session.unitsOf (x : Session) (component : Nat) : List Nat :=
  match x.entries.find? fun e => e.component == component with
  | some e => (List.range ((e.length + 4095) / 4096)).map (e.offset / 4096 + ·)
  | none => []

/-- A verification fails: UPD_ERR, and after step 3 or 4 the image's units are cleared (R449). -/
def State.commitFails (s : State) (f : CommitFail) : State :=
  let s := ((s.setFld F.UPD_ERR_CODE f.code).setFld F.UPD_ERR_DETAIL f.detail).setFld F.UPD_ERR_COMPONENT f.component
  let s := if f.code = 7 || f.code = 8 || f.code = 0xA then
      s.modUpd fun u => { u with session := u.session.map fun x =>
        let l := x.unitsOf f.component
        { x with units := x.units.filter fun e => !l.contains e.1 } }
    else s
  ((s.setFld F.UPD_STATUS_SESSION 0).sessionRegs).flag F.UPD_EV_VERIFY_FAIL

end Sys2Proof.Machine
end

