-- ==== Sys2Proof/Machine/Update.lean ====
section
/-!
DEFINITION. Sys2Proof/Machine/Update.lean: Firmware Commit (R448, R449), the activation record's changes (R450, R463 to R465),
the hand-overs at runtime (R453 to R461, R178), and the commands that an activation can hold or carry: NSSR (R117, R448),
CONTROLLER_READY (R116) and REPATTERN_APPLY (R61).
An activation names the components still to hand over, the current one first. Its steps: of a pair 0 waits for a quiesced
start, 1 the new firmware initialises, 2 SPARE_READY, 3 REQUEST in force, 4 QUIESCED, 5 switched; of Tirium 1 its firmware
starts; of a Needle's quiesced swap 1 picks held, 2 HOLD commanded.
-/

namespace Sys2Proof.Machine

/-! ### Activation: order of the components (R453, R459) -/

/-- The activation changed. -/
def State.modAct' (s : State) (f : Activation → Activation) : State := s.modUpd fun u => { u with activation := u.activation.map f }

/-- An activation step: progress of the session's clock aside, ACT_STATE shows it. -/
def State.actState (s : State) (v : Nat) : State := s.setFld F.UPD_STATUS_ACT_STATE v

/-- Every component has taken over: the Commit completes with success (R448). -/
def State.finishActivation (s : State) : State :=
  let commit := s.upd.activation.bind (·.commit)
  let s := (s.modUpd fun u => { u with activation := none }).modNeedles fun l => l.map fun x => { x with fresh := false, shadowRows := 0 }
  let s := (((s.actState 0).clr F.UPD_STATUS_COMPONENT).setFld F.UPD_HANDOVER_PAIR 0xF).flag F.UPD_EV_ACTIVATED
  match commit with
  | some n => s.completeSlot n 0 0
  | none => s

/-- The image of CURRENT of a component. -/
def State.currentImage (s : State) (component : Nat) : List Byte :=
  match s.record.current.find? fun e => e.component == component with
  | some e => s.image component e.slot
  | none => []

/-- Needle n changes to the bank that holds the new microcode; one that runs it already stays (R178). -/
def State.newBank (s : State) (n : Nat) : State :=
  if (s.needle n).fresh then s
  else
    let cur := s.fld (F.NDL_UCODE_LEVEL_CUR n)
    let s := s.setFld (F.NDL_STATUS_BANK n) (1 - s.fld (F.NDL_STATUS_BANK n))
    let s := (s.setFld (F.NDL_UCODE_LEVEL_ALT n) cur).setFld (F.NDL_UCODE_LEVEL_CUR n) (leField (s.currentImage 2) 6 2)
    s.modNeedle n fun x => { x with fresh := true }

/-- Needle k enters SHADOW for actuator a with new microcode: it takes its states from the mirror once, the next that comes (R178). -/
def State.startShadow (s : State) (k a : Nat) : State :=
  let s := ((s.newBank k).setFld (F.NDL_STATUS_ROLE k) 3).setFld (F.NDL_STATUS_ACT k) a
  s.modNeedle k fun x => { x with shadowRows := 0, awaitMirror := true }

/-- A standby in STANDBY. -/
def State.freeStandby (s : State) : Option Nat := (List.range 3).find? fun k => s.fld (F.NDL_STATUS_ROLE k) == 2

/-- The microcode of actuator a begins to change: shadowing by the standby, at once when its heads are unloaded, or quiesced
while no standby is free (R455, R458). -/
def State.startActuator (s : State) (a : Nat) : State :=
  let s := s.modAct' fun v => { v with act := a, leg := 1, step := 0, quiesced := false, ready := false, start := s.rowCount }
  if !s.headsLoaded a then s.modAct' fun v => { v with ready := true }
  else
    match s.freeStandby with
    | some k => s.startShadow k a
    | none => s.modAct' fun v => { v with quiesced := true }

/-- Microcode is in force everywhere: the standby has it too, and block 3 follows (R391, R455). -/
def State.microcodeDone (s : State) : State :=
  let s := match s.freeStandby with | some k => s.newBank k | none => s
  s.setBlock 3 (imageDigest (s.currentImage 2))

/-- The next actuator behind a that a Needle drives. -/
def State.nextActuator (s : State) (a : Nat) : Option Nat := [0, 1].find? fun b => a ≤ b && (s.driver b).isSome

/-- Hand pair X over on SPARE, or quiesced while SPARE is not STANDBY (R456, R458). -/
def State.startPair (s : State) (x : Nat) : State :=
  let s := s.setFld F.UPD_HANDOVER_PAIR x
  let s := s.modAct' fun v => { v with leg := 1, attempts := 0, ready := false, quiesced := s.pairState 5 != 3, start := s.rowCount,
                                       step := if s.pairState 5 = 3 then 1 else 0 }
  if s.pairState 5 = 3 then s.setFld (pairFld 5) 4 else s

/-- The pairs of a component that are not FENCED and run. -/
def State.pairsOf (s : State) (component : Nat) : List Nat :=
  (if component = 3 then [3, 4] else [0, 1, 2]).filter fun p => s.pairState p == 1

/-- The hand-overs of the components in turn. -/
def State.startComponents : List Nat → State → State
  | [], s => s.finishActivation
  | c :: rest, s =>
    let s := (s.modAct' fun v => { v with components := c :: rest, step := 0, ready := c = 1 || c = 5, quiesced := false, pairs := [] }).setFld
      F.UPD_STATUS_COMPONENT c
    let s := (s.actState 2).setFld F.UPD_HANDOVER_PAIR 0xF
    if c = 2 then
      match s.nextActuator 0 with
      | some a => s.startActuator a
      | none => State.startComponents rest s.microcodeDone
    else if c = 3 || c = 4 then
      match s.pairsOf c with
      | [] => State.startComponents rest s
      | p :: ps => (s.modAct' fun v => { v with pairs := p :: ps }).startPair p
    else s

/-- The component in hand has taken over. -/
def State.nextComponent (s : State) : State :=
  match s.upd.activation with
  | some v => State.startComponents v.components.tail s
  | none => s

/-- The component being handed over, with a test on the activation. -/
def State.handing (s : State) (component : Nat → Bool) : Option Activation :=
  s.upd.activation.filter fun v => component (v.components.headD 0)

/-! ### Whether an activation runs at runtime (R461, R465) -/

/-- The Pattern component can be applied at runtime: the panels that are built from are those in force, and R60 holds. -/
def State.patternApplies (s : State) (img : List Byte) : Bool :=
  match (validatePattern s.fuse img none true).result with
  | .error _ => false
  | .ok x =>
    let built (l : List PatternEntry) : List PatternEntry := l.filter fun e => [0, 1, 2, 3, 5, 6].contains e.panel
    built x.entries == built s.pattern.entries && (fixedPlace img x.entries s.pattern.entries).isNone

/-- The components of a set can be handed over now: native mode, no recovery, and an applicable Pattern. -/
def State.handsOver (s : State) (l : List SlotEntry) : Bool :=
  !s.pattern.active.topology.legacy && !s.cast.recovery &&
    l.all fun e => e.component != 5 || s.patternApplies (s.image 5 e.slot)

/-- Begin an activation of components, for a Commit or an NVM subsystem reset. -/
def State.beginActivation (s : State) (commit : Option Nat) (atNssr : Bool) (l : List SlotEntry) : State :=
  let codes := [1, 2, 3, 4, 5].filter fun c => l.any fun e => e.component == c
  let v : Activation :=
    { components := codes, commit := commit, act := 0, leg := 1, pairs := [], step := 0, start := s.rowCount, attempts := 0,
      quiesced := false, ready := false, atNssr := atNssr }
  State.startComponents codes (s.modUpd fun u => { u with activation := some v })

/-! ### Firmware Commit (R448, R449, R465) -/

/-- Firmware Activation Requires Conventional Reset. -/
def Nvme.needsReset : Nat := 0x10B

/-- The images of a set are written: what the Commit's action then does. The set becomes STAGED, or TENTATIVE to be handed over
at once; where nothing can be handed over the record alone is written. -/
def State.recordCommit (s : State) (n : Option Nat) (action : Nat) (set : List SlotEntry) : State :=
  let done (s : State) (status : Nat) : State := match n with | some n => s.completeSlot n status 0 | none => s
  let stagedSet (r : ActRecord) : ActRecord := { r with staged := true, atReset := action = 1 || action = 2 || r.atReset, stagedSet := set }
  let tentative (r : ActRecord) : ActRecord := { r with stagedSet := set }.activate 0 s.optime
  if action = 0 then done (s.putRecord stagedSet) 0
  else if s.cast.recovery then (done (s.putRecord tentative) Nvme.needsReset).coldAfterRecovery
  else if s.pattern.active.topology.legacy then done (s.putRecord tentative) Nvme.needsReset
  else if action = 1 || action = 2 then done (s.putRecord stagedSet) 0
  else
    let runs := s.handsOver set
    let s := s.putRecord tentative
    if runs then s.beginActivation n false set else done s Nvme.needsReset

/-- The status that turns a Commit away before it begins, 0 for none (R269, R448). -/
def State.commitStatus (s : State) (x : Slot) : Nat :=
  let fs := x.sqe.cdw10 % 8
  let ca := x.sqe.cdw10 / 8 % 8
  let r := s.record
  if !x.fromPf then Nvme.invalidOpcode
  else if 4 ≤ ca then Nvme.invalidField
  else if fs ≠ 0 && fs ≠ 1 + s.inactiveSlot 4 then Nvme.firmwareSlot
  else if (match s.upd.session with | some y => !y.members.testBit x.source | none => !r.staged) || (ca = 2 && !r.staged) then
    Nvme.sequenceError
  else if r.state != RecordState.confirmed || s.upd.activation.isSome || s.upd.verifying.isSome then Nvme.firmwareProhibited else 0

/-- A Firmware Commit with one action (R448, R449). -/
def State.commit (s : State) (n ca : Nat) : State :=
  match s.freshAdmin n 0x10 with
  | none => s
  | some x =>
    let action := x.sqe.cdw10 / 8 % 8
    if action ≠ ca && action < 4 then s
    else
      let e := s.commitStatus x
      if e ≠ 0 then s.failCommand x e
      else
        let s := s.modSlot n fun y => { y with stage := Stage.xferOut }
        match s.upd.session with
        | none => s.recordCommit (some n) action s.record.stagedSet
        | some y =>
          if action = 2 then s.recordCommit (some n) 2 s.record.stagedSet
          else
            match s.commitFault y (action = 3) with
            | some f => (s.commitFails f).failCommand x Nvme.firmwareImage
            | none =>
              let s := y.entries.foldl (fun s e => if e.component = 5 then s else s.noteVerified e.component e.digest) s
              let s := s.modUpd fun u =>
                { u with verifying := some { slot := some n, action := action }, session := some { y with lastProgress := s.optime } }
              (s.setFld F.UPD_STATUS_SESSION 4).actState (if action = 3 then 1 else 0)

/-- COMMIT_VERIFY_WRITE (R448): CA 000b. -/
def execCommitVerifyWrite (n : Nat) (s : State) : Host.Outcome State Fault Refusal := .next (s.commit n 0)

/-- COMMIT_ACTIVATE_AT_RESET (R448): CA 001b. -/
def execCommitActivateAtReset (n : Nat) (s : State) : Host.Outcome State Fault Refusal := .next (s.commit n 1)

/-- COMMIT_ACTIVATE_STAGED (R448): CA 010b. -/
def execCommitActivateStaged (n : Nat) (s : State) : Host.Outcome State Fault Refusal := .next (s.commit n 2)

/-- COMMIT_ACTIVATE_NOW (R448): CA 011b. -/
def execCommitActivateNow (n : Nat) (s : State) : Host.Outcome State Fault Refusal := .next (s.commit n 3)

/-- An image is programmed into a slot (R449, step 7). -/
def State.programImage (s : State) (component slot : Nat) (img : List Byte) : State :=
  s.modUpd fun u => { u with images := (u.images.filter fun i => !(i.1 == component && i.2.1 == slot)) ++ [(component, slot, img)] }

/-- BUNDLE_WRITTEN (R449, R450): every image is programmed into its inactive slot, the session ends, and the record follows. -/
def execBundleWritten (s : State) : Host.Outcome State Fault Refusal :=
  match s.upd.verifying, s.upd.session with
  | some c, some x =>
    let set := x.entries.map s.newEntry
    let s := x.entries.foldl (fun s e => s.programImage e.component (s.inactiveSlot e.component) (x.image e)) s
    let front := s.inactiveSlot 4
    let s := if x.entries.any fun e => e.component == 4 then
        s.modUpd fun u => { u with revisions := kput front (x.bytes 0x10 8) u.revisions, tables := kput front x.settings u.tables }
      else s
    let s := ((s.modUpd fun u => { u with verifying := none }).endSession F.UPD_EV_SESSION_DONE).actState 0
    .next (s.recordCommit c.slot c.action set)
  | _, _ => .next s

/-! ### Tirium firmware (R454) -/

/-- TIRIUM_HANDOVER (R454): at an allowed boundary the new firmware starts; the mailboxes and SPDM wait. -/
def execTiriumHandover (s : State) : Host.Outcome State Fault Refusal :=
  match s.handing (· == 1) with
  | some v =>
    if !v.ready || !s.allowed || s.fld F.TIR_STATUS_STATE ≠ 1 then .next s
    else .next (((s.setFld F.TIR_STATUS_STATE 0).modAct' fun v => { v with step := 1, ready := false, start := s.rowCount }).takeBoundary.handoverPend)
  | none => .next s

/-- Tirium firmware starts outside cast-on. -/
def State.tiriumStarts (s : State) : Bool := s.fld F.TIR_STATUS_STATE == 0 && 4 ≤ s.fld F.SYS_CASTON_PHASE

/-- TIRIUM_READY (R454, R392): block 2 changes, and both alias keys are derived again. -/
def execTiriumReady (s : State) : Host.Outcome State Fault Refusal :=
  if !s.tiriumStarts then .next s
  else
    let s := (s.setFld F.TIR_STATUS_STATE 1).modTir fun t => { t with blocks := putAt 1 (imageDigest (s.currentImage 1)) t.blocks }
    let s := s.deriveAliases.spdmResume
    .next (if (s.handing (· == 1)).isSome then s.nextComponent else s)

/-- TIRIUM_READY_TIMEOUT (R454): the old firmware restarts from the saved state, and the activation aborts. -/
def execTiriumReadyTimeout (s : State) : Host.Outcome State Fault Refusal :=
  if !s.tiriumStarts then .next s
  else
    let s := (s.setFld F.TIR_STATUS_STATE 1).spdmResume
    .next (if (s.handing (· == 1)).isSome then s.abortActivation 0x0D else s)

/-! ### Needle microcode (R455, R178, R458) -/

/-- The microcode of actuator a has changed: the next one, or the next component. -/
def State.actuatorDone (s : State) (a : Nat) : State :=
  match s.nextActuator (a + 1) with
  | some b => (s.actState 2).startActuator b
  | none => (s.microcodeDone).nextComponent

/-- The driving Needle n of actuator a, in HOLD, changes its bank with the preset of R166 and returns to SETTLE. -/
def State.swapInPlace (s : State) (n a : Nat) : State :=
  let x := s.needle n
  let vcm := s.sfld (F.NDL_OUT_VCM n)
  let ma := s.sfld (F.NDL_OUT_MA n)
  let r := s.trialPass n a 2 x.prev x.states x.doneInputs vcm ma
  let s := r.2.modNeedle n fun y => { y with states := r.1, pendingMode := none, bumpFrom := some (vcm, ma) }
  (s.newBank n).enterMode n 2

/-- NEEDLE_SWAP (R178, R455, R458): at an allowed boundary, for the actuator whose microcode changes. -/
def execNeedleSwap (a : Nat) (s : State) : Host.Outcome State Fault Refusal :=
  match s.handing (· == 2), s.driver a with
  | some v, some n =>
    if v.act ≠ a || !s.allowed then .next s
    else if !s.headsLoaded a then
      .next (((s.newBank n).actuatorDone a).takeBoundary.handoverPend)
    else if v.quiesced then
      if v.step ≠ 2 || s.fld (F.NDL_STATUS_MODE n) ≠ 4 || !(s.opsAt a .issued).isEmpty then .next s
      else .next (((s.swapInPlace n a).actuatorDone a).takeBoundary.handoverPend)
    else
      match (List.range 3).find? fun k => s.fld (F.NDL_STATUS_ROLE k) == 3 && s.fld (F.NDL_STATUS_ACT k) == a && 256 ≤ (s.needle k).shadowRows with
      | none => .next s
      | some k =>
        let s := s.standIn n k a true true
        if v.leg = 1 then
          let s := (s.startShadow n a).modAct' fun v => { v with leg := 2, ready := false }
          .next ((s.gate a).takeBoundary.handoverPend)
        else
          let s := ((s.setFld (F.NDL_STATUS_ROLE n) 2).setFld (F.NDL_STATUS_ACT n) 3).modNeedle n fun x => { x with shadowRows := 0 }
          .next (((s.gate a).actuatorDone a).takeBoundary.handoverPend)
  | _, _ => .next s

/-! ### Front and media firmware (R456, R458) -/

/-- A pair starts anew, with nothing to undo. -/
def State.restartPair (s : State) (p : Nat) (runs : Bool) : State :=
  s.modPair p fun x => { x with undo := [], stalled := [], checkpoint := if runs then some (x.capture s.rowCount) else none }

/-- Claims of one pair go to another with its work. -/
def State.moveClaims (s : State) (p q : Nat) : State :=
  s.modFlow fun f => { f with claims := replaceIf (fun c => c.owner == p) (fun c => { c with owner := q }) f.claims }

/-- SPARE stands in for X, and X is STANDBY (R456, step 5 of the first leg). -/
def State.spareIn (s : State) (x : Nat) : State :=
  let s := ((s.setFld (pairFld 5) 5).setFld F.SYS_PAIR_STATUS_SPARE_FOR x).setFld (pairFld x) 3
  (((s.restartPair 5 true).restartPair x false).moveClaims x 5)

/-- X is ACTIVE, and SPARE is STANDBY (R456, step 5 of the second leg). -/
def State.spareOut (s : State) (x : Nat) : State :=
  let s := ((s.setFld (pairFld x) 1).setFld (pairFld 5) 3).setFld F.SYS_PAIR_STATUS_SPARE_FOR 15
  (((s.restartPair x true).restartPair 5 false).moveClaims 5 x)

/-- The hold of a hand-over is released, and its handshake bits are cleared. -/
def State.releaseHold (s : State) : State := (s.clr F.UPD_HANDOVER_REQUEST).clr F.UPD_HANDOVER_QUIESCED

/-- A write of SPARE_READY (R456, step 2). -/
def State.spareReady (s : State) : State :=
  let s := s.flag F.UPD_HANDOVER_SPARE_READY
  match s.handing (fun c => c == 3 || c == 4) with
  | some v => if v.step = 1 then s.modAct' fun v => { v with step := 2 } else s
  | none => s

/-- HANDOVER_SPARE_READY (R456, step 2). -/
def execHandoverSpareReady (s : State) : Host.Outcome State Fault Refusal := .next s.spareReady

/-- HANDOVER_REQUEST (R456, step 3): at a boundary the hold begins. -/
def execHandoverRequest (s : State) : Host.Outcome State Fault Refusal :=
  match s.handing (fun c => c == 3 || c == 4) with
  | some v =>
    if v.step ≠ 2 then .next s
    else
      let s := (s.clr F.UPD_HANDOVER_SPARE_READY).flag F.UPD_HANDOVER_REQUEST
      .next ((s.modAct' fun v => { v with step := 3, start := s.rowCount }).actState 2)
  | none => .next s

/-- A write of QUIESCED (R456, step 4): the hand-over waits for an allowed boundary; quiesced, X restarts at the new image. -/
def State.handoverQuiesced (s : State) : State :=
  let s := s.flag F.UPD_HANDOVER_QUIESCED
  match s.handing (fun c => c == 3 || c == 4) with
  | some v =>
    if v.step ≠ 3 then s
    else if v.quiesced then ((s.clr F.UPD_HANDOVER_QUIESCED).restartPair (v.pairs.headD 15) true).modAct' fun v => { v with step := 4 }
    else s.modAct' fun v => { v with step := 4, ready := true }
  | none => s

/-- HANDOVER_QUIESCED (R456, step 4). -/
def execHandoverQuiesced (s : State) : Host.Outcome State Fault Refusal := .next s.handoverQuiesced

/-- HANDOVER_SWITCH (R456, step 5): at an allowed boundary the roles switch. -/
def execHandoverSwitch (s : State) : Host.Outcome State Fault Refusal :=
  match s.handing (fun c => c == 3 || c == 4) with
  | some v =>
    if v.step ≠ 4 || v.quiesced || !s.allowed then .next s
    else
      let x := v.pairs.headD 15
      let s := if v.leg = 1 then s.spareIn x else s.spareOut x
      let s := (s.clr F.UPD_HANDOVER_QUIESCED).modAct' fun v => { v with step := 5, ready := false }
      .next s.takeBoundary.handoverPend
  | none => .next s

/-- The next pair of the component, or the next component. -/
def State.nextPair (s : State) : State :=
  match s.upd.activation with
  | some v =>
    match v.pairs.tail with
    | [] => s.nextComponent
    | p :: ps => ((s.modAct' fun v => { v with pairs := p :: ps }).actState 2).startPair p
  | none => s

/-- A write of TAKEN (R456, step 6; R458, step 4): the hold is released; X starts at the new image, or the next pair follows. The
first front pair of a new image has the settings compared (R466). -/
def State.handoverTaken (s : State) : State :=
  let s := s.flag F.UPD_HANDOVER_TAKEN
  match s.handing (fun c => c == 3 || c == 4) with
  | some v =>
    let x := v.pairs.headD 15
    if v.step = 5 || (v.quiesced && v.step = 4) then
      let s := (s.clr F.UPD_HANDOVER_TAKEN).releaseHold
      let front := ((s.record.current.find? fun e => e.component == 4).map (·.slot)).getD 0
      let s := if v.components.headD 0 = 4 then s.settingsReset front else s
      if v.quiesced then
        (s.modHost fun h => { h with controllers := h.controllers.map fun c => { c with paused := false } }).nextPair
      else if v.leg = 1 then
        (s.setFld (pairFld x) 4).modAct' fun v => { v with leg := 2, step := 1, attempts := 0 }
      else s.nextPair
    else s
  | none => s

/-- HANDOVER_TAKEN (R456, step 6). -/
def execHandoverTaken (s : State) : Host.Outcome State Fault Refusal := .next s.handoverTaken

/-- HANDOVER_DEADLINE_MISS (R456): in steps 4 and 5 the attempt is cancelled, the fourth time for good; in step 6 the role returns
and the activation aborts. -/
def execHandoverDeadlineMiss (s : State) : Host.Outcome State Fault Refusal :=
  match s.handing (fun c => c == 3 || c == 4) with
  | some v =>
    let x := v.pairs.headD 15
    let late := s.rowCount - v.start
    if v.quiesced then .next s
    else if (v.step = 3 && 10 ≤ late) || (v.step = 4 && 11 ≤ late) then
      let s := s.releaseHold
      if 3 ≤ v.attempts then .next (s.abortActivation 0x0D)
      else .next (s.modAct' fun v => { v with step := 2, attempts := v.attempts + 1, ready := false })
    else if v.step = 5 && 17 ≤ late then
      let s := if v.leg = 1 then s.spareOut x else s.spareIn x
      .next (s.releaseHold.abortActivation 0x0D)
    else .next s
  | none => .next s

/-- QUIESCED_ACTIVATION (R458): the resource is in use; the hold begins with a host pause, for a Needle once its issued operations
have landed with HOLD. -/
def execQuiescedActivation (s : State) : Host.Outcome State Fault Refusal :=
  match s.upd.activation with
  | none => .next s
  | some v =>
    let c := v.components.headD 0
    if !v.quiesced then .next s
    else if c = 2 then
      let s := if v.step = 0 then ((s.postAsync 2 1 fun _ => true).actState 3).modAct' fun v => { v with step := 1, start := s.rowCount } else s
      match s.driver v.act with
      | some n =>
        if 2 ≤ v.step || !(s.opsAt v.act .issued).isEmpty then .next s
        else .next (((s.clr (F.NDL_STATUS_HOLD_CMD n)).requestMode n 4).modAct' fun v => { v with step := 2, ready := true })
      | none => .next s
    else if v.step ≠ 0 || v.pairs.isEmpty then .next s
    else
      let x := v.pairs.headD 15
      let s := (s.postAsync 2 1 fun _ => true).actState 3
      let s := s.modHost fun h =>
        { h with controllers := h.controllers.map fun k => if s.controllersOfPair x k.cntlid then { k with paused := true } else k }
      .next ((s.flag F.UPD_HANDOVER_REQUEST).modAct' fun v => { v with step := 3, start := s.rowCount })

/-- QUIESCED_TIMEOUT (R458): the pair restarts on its old image with the same record, and the activation aborts. -/
def execQuiescedTimeout (s : State) : Host.Outcome State Fault Refusal :=
  match s.handing (fun c => c == 3 || c == 4) with
  | some v =>
    if !v.quiesced || v.step < 3 then .next s
    else .next ((s.restartPair (v.pairs.headD 15) true).releaseHold.abortActivation 0x0D)
  | none => .next s

/-! ### Confirmation and the frog (R463, R464) -/

/-- The tentative set is confirmed, and Tirium advances the security versions. -/
def State.confirm (s : State) : State :=
  let s := s.putRecord fun r => { r with state := .confirmed, unconf := 0, fallback := r.current, svnPending := true }
  (s.flag F.UPD_EV_CONFIRMED).completeSvn

/-- AUTO_CONFIRM (R463): 72 hours of operation without a fault. -/
def execAutoConfirm (s : State) : Host.Outcome State Fault Refusal :=
  let r := s.record
  if r.state = .tentative && s.pattern.active.security.autoConfirm && 259200000 ≤ s.optime - max r.actOptime r.faultOptime then
    .next s.confirm
  else .next s

/-- The status of a Set of feature 0xC2 (R272, R273, R276). -/
def State.confirmStatus (s : State) (x : Slot) : Nat :=
  if !x.fromPf then Nvme.notChangeable
  else if x.sqe.cdw10.testBit 31 then Nvme.notSaveable
  else if !x.sqe.cdw11.testBit 31 then Nvme.invalidField
  else if s.record.state ≠ .tentative then Nvme.sequenceError
  else if x.sqe.cdw11 % 2 ^ 16 ≠ s.record.seq % 2 ^ 16 then Nvme.invalidField else 0

/-- SET_CONFIRM_ACTIVATION (R276, R463). -/
def execSetConfirmActivation (n : Nat) (s : State) : Host.Outcome State Fault Refusal :=
  match s.freshAdmin n 0x09 with
  | none => .next s
  | some x =>
    if x.sqe.cdw10 % 256 ≠ 0xC2 then .next s
    else
      let e := s.confirmStatus x
      if e ≠ 0 then .next (s.failCommand x e) else .next (s.confirm.completeSlot n 0 0)

/-- A write of UPD_CTRL.FROG: the next cast-on frogs (R464). -/
def State.updFrog (s : State) : State :=
  if s.record.state = .tentative then s.putRecord fun r => { r with state := .frogRequested } else s

/-- UPD_FROG (R464). -/
def execUpdFrog (s : State) : Host.Outcome State Fault Refusal := .next s.updFrog

/-! ### Commands that an activation holds or that carry it -/

/-- REPATTERN_APPLY (R31, R61, R461): a Pattern component of an activation, or the container that waits. -/
def execRepatternApply (s : State) : Host.Outcome State Fault Refusal :=
  let runtime (l : List PatternEntry) : List PatternEntry := l.filter fun e => [4, 7, 8, 9].contains e.panel
  if !s.allowed then .next s
  else
    match s.handing (· == 5) with
    | some _ =>
      match (validatePattern s.fuse (s.currentImage 5) none true).result with
      | .ok x => .next (((s.applyPanels (runtime x.entries) [4, 7, 8, 9] x.digest x.svn).nextComponent).takeBoundary.handoverPend)
      | .error _ => .next (s.abortActivation 0x0E)
    | none =>
      match s.pattern.waiting with
      | none => .next s
      | some (l, d, svn) =>
        if (match s.upd.activation with | some a => a.ready | none => false) then .next s
        else
          let s := s.applyPanels l (panelsOf (s.pattern.buffer.take (leField s.pattern.buffer 8 4)) l) d svn
          let s := ((s.clr F.PAT_STATUS_RELOAD_BUSY).clr F.PAT_STATUS_RELOAD_PEND).flag F.PAT_STATUS_RELOAD_DONE
          .next ((s.modPattern fun u => { u with buffer := [], waiting := none }).takeBoundary.handoverPend)

/-- An NVM subsystem reset hands over what was staged for it; legacy mode activates nothing (R448, R453, R465). -/
def State.activateAtNssr (s : State) : State :=
  let r := s.record
  if s.hostResets && r.state = .confirmed && r.atReset && s.upd.activation.isNone && s.handsOver r.stagedSet then
    (s.putRecord fun r => r.activate 0 s.optime).beginActivation none true r.stagedSet
  else s

/-- NSSR (R117, R448): only the value 0x4E56_4D65 resets. -/
def execNssr (value : Nat) (s : State) : Host.Outcome State Fault Refusal :=
  if value = 0x4E564D65 then .next s.subsystemReset.activateAtNssr else .next s

/-- MCTP is served: from the end of cast-on phase 6 until bind-off (R292). -/
def State.mctpRuns (s : State) : Bool := s.cast.built && !s.keeper.inReset && !s.keeper.bindOff

/-- The sideband balls are served too: SIDEBAND function 0, I3C with SMBus fall-back, or 1, SMBus only (R71, R292). -/
def State.sidebandRuns (s : State) : Bool := s.mctpRuns && s.fld F.SYS_BALL_FUNC_SIDEBAND_FN != 2

/-- MI_RESET (R294): as NSSR. -/
def execMiReset (s : State) : Host.Outcome State Fault Refusal :=
  if s.sidebandRuns then .next s.subsystemReset.activateAtNssr else .next s

/-- An activation at an NVM subsystem reset still runs (R448). -/
def State.activatesAtNssr (s : State) : Bool := match s.upd.activation with | some v => v.atNssr | none => false

/-- CONTROLLER_READY (R116, R448): CC.EN, HOST_READY, the end of the restore and of an activation at the reset; the first CSTS.RDY
locks the Pattern and releases STAT_FAULT_N (R64, R79). -/
def execControllerReady (c : Nat) (s : State) : Host.Outcome State Fault Refusal :=
  match s.controller c with
  | none => .next s
  | some x =>
    if !x.enabled || s.rdy c || !s.on F.SYS_CASTON_HOST_READY || s.keeper.restoring || s.activatesAtNssr || !s.hostResets then .next s
    else
      let s := (s.flag (F.HIF_CTRL_RDY_RDY.at c)).modCast fun k => { k with firstReady := true }
      .next (s.lockPattern.driveStatus)

end Sys2Proof.Machine
end

