-- ==== Sys2Proof/Machine/Admin.lean ====
section
/-!
DEFINITION. Sys2Proof/Machine/Admin.lean: the admin commands of R269 that change a controller: queues (R277), Abort (R340),
features (R272 to R276, R278, R279), Asynchronous Event Request (R281), Device Self-test, Virtualization Management, and
opcodes the BZ8 does not support. Field positions and codes of the NVMe specifications are PRESUMED (assumption log 13).
-/

namespace Sys2Proof.Machine

/-! ### Abort (R340) -/

/-- A read has issued a media operation: one stands issued, or a sector has come from the media. -/
def State.readIssued (s : State) (x : Slot) : Bool :=
  (s.flow.ops.any fun o => o.slot == some x.num && o.place == .issued) ||
    (x.readPoint && x.got.zipIdx.any fun g => g.1.isSome && x.src.getD g.2 0 == 0)

/-- The command can still be aborted (R340). -/
def State.abortable (s : State) (x : Slot) : Bool :=
  !x.orphan && !x.completed &&
    ((x.isWrite && (x.stage == .fetched || x.stage == .admitWait) && x.shown == 0) || (x.isRead && !s.readIssued x))

/-- End a command before it was issued to the media, with a status: it leaves the tracker at once. -/
def State.abortSlot (s : State) (x : Slot) (status : Nat) : State :=
  if x.isWrite then s.discardWrite x.num (some status) else (s.dropUnissued x).completeSlot x.num status 0

/-- ABORT (R269, R340): bit 0 of dword 0 is 0 when the command was aborted. -/
def execAbort (n : Nat) (s : State) : Host.Outcome State Fault Refusal :=
  match s.freshAdmin n 0x08 with
  | none => .next s
  | some x =>
    let r := s.sqRing x.skein (x.sqe.cdw10 % 2 ^ 16)
    match s.flow.slots.find? fun y => y.skein == x.skein && y.ring == r && y.sqe.cid == x.sqe.cdw10 / 2 ^ 16 % 2 ^ 16 && s.abortable y with
    | some y => .next ((s.abortSlot y Nvme.abortRequested).completeSlot n 0 0)
    | none => .next (s.completeSlot n 0 1)

/-! ### Queues (R277) -/

/-- Command Aborted due to SQ Deletion. -/
def Nvme.sqDeleted : Nat := 0x008

/-- QID of a queue command, and the entries it names. -/
def Sqe.qid (q : Sqe) : Nat := q.cdw10 % 2 ^ 16
def Sqe.queueEntries (q : Sqe) : Nat := q.cdw10 / 2 ^ 16 % 2 ^ 16 + 1

/-- The QID names an I/O queue that the controller can have: `head` for a completion queue. -/
def State.validQid (s : State) (x : Slot) (head : Bool) : Bool := Sqe.qid x.sqe != 0 && s.ownsQueue x.skein (Sqe.qid x.sqe) head

/-- The ring that a queue command names. -/
def State.qidRing (s : State) (x : Slot) (head : Bool) : Nat :=
  if head then s.cqRing x.skein (Sqe.qid x.sqe) else s.sqRing x.skein (Sqe.qid x.sqe)

/-- The checks that both create commands share, in the order of R277. -/
def State.createStatus (s : State) (x : Slot) (head : Bool) : Nat :=
  if !s.validQid x head || (s.ring (s.qidRing x head)).isSome then Nvme.queueId
  else if 16384 < Sqe.queueEntries x.sqe || Sqe.queueEntries x.sqe < 2 then Nvme.queueSize
  else if !x.sqe.cdw11.testBit 0 then Nvme.invalidField else 0

/-- A ring is created. -/
def State.addRing (s : State) (r : Ring) : State := s.modHost fun h => { h with rings := h.rings ++ [r] }

/-- CREATE_IO_CQ (R277). -/
def execCreateIoCq (n : Nat) (s : State) : Host.Outcome State Fault Refusal :=
  match s.freshAdmin n 0x05 with
  | none => .next s
  | some x =>
    let vector := x.sqe.cdw11 / 2 ^ 16 % 2 ^ 16
    let st := s.createStatus x true
    let st := if st = Nvme.invalidField || st = 0 then
        (if ((s.entryOf x.skein).map (·.msix)).getD 0 ≤ vector then Nvme.vector else st) else st
    if st ≠ 0 then .next (s.failCommand x st)
    else
      let s := s.addRing { num := s.qidRing x true, size := Sqe.queueEntries x.sqe, head := 0, tail := 0, qprio := 0, link := vector, entries := [] }
      .next (s.completeSlot n 0 0)

/-- CREATE_IO_SQ (R277). -/
def execCreateIoSq (n : Nat) (s : State) : Host.Outcome State Fault Refusal :=
  match s.freshAdmin n 0x01 with
  | none => .next s
  | some x =>
    let cqid := x.sqe.cdw11 / 2 ^ 16 % 2 ^ 16
    let st := s.createStatus x false
    let known := cqid != 0 && s.ownsQueue x.skein cqid true && (s.ring (s.cqRing x.skein cqid)).isSome
    let st := if (st = Nvme.invalidField || st = 0) && !known then Nvme.cqInvalid else st
    if st ≠ 0 then .next (s.failCommand x st)
    else
      let s := s.addRing { num := s.qidRing x false, size := Sqe.queueEntries x.sqe, head := 0, tail := 0,
                           qprio := x.sqe.cdw11 / 2 % 4, link := cqid, entries := [] }
      .next (s.completeSlot n 0 0)

/-- A created I/O queue that a delete command names. -/
def State.deletable (s : State) (x : Slot) (head : Bool) : Bool := s.validQid x head && (s.ring (s.qidRing x head)).isSome

/-- A ring is gone. -/
def State.dropRing (s : State) (r : Nat) : State := s.modHost fun h => { h with rings := h.rings.filter fun q => q.num != r }

/-- DELETE_IO_SQ: commands that can still be aborted are; the command waits while others of the queue run. -/
def execDeleteIoSq (n : Nat) (s : State) : Host.Outcome State Fault Refusal :=
  match s.freshAdmin n 0x00 with
  | none => .next s
  | some x =>
    if !s.deletable x false then .next (s.failCommand x Nvme.queueId)
    else
      let r := s.qidRing x false
      let s := s.modRing r fun q => { q with entries := [] }
      let mine := s.flow.slots.filter fun y => y.ring == r && !y.orphan
      let s := mine.foldl (fun s y => if s.abortable y then s.abortSlot y Nvme.sqDeleted else s) s
      if s.flow.slots.any fun y => y.ring == r && !y.orphan && !y.completed then .next s
      else .next ((s.dropRing r).completeSlot n 0 0)

/-- DELETE_IO_CQ: not while a submission queue is linked with it. -/
def execDeleteIoCq (n : Nat) (s : State) : Host.Outcome State Fault Refusal :=
  match s.freshAdmin n 0x04 with
  | none => .next s
  | some x =>
    let base := s.sqRing x.skein 0
    let count := ((s.entryOf x.skein).map (·.sqMax)).getD 0
    if !s.deletable x true then .next (s.failCommand x Nvme.queueId)
    else if s.host.rings.any fun q => base < q.num && q.num < base + count && q.link == Sqe.qid x.sqe then
      .next (s.failCommand x Nvme.queueDeletion)
    else .next ((s.dropRing (s.qidRing x true)).completeSlot n 0 0)

/-! ### Features (R272, R273) -/

/-- The FID of a features command, the Save bit, and Select. -/
def Sqe.fid (q : Sqe) : Nat := q.cdw10 % 256
def Sqe.save (q : Sqe) : Bool := q.cdw10.testBit 31
def Sqe.select (q : Sqe) : Nat := q.cdw10 / 256 % 8

/-- The features of R272. -/
def featureIds : List Nat := [0x01, 0x02, 0x04, 0x05, 0x06, 0x07, 0x08, 0x09, 0x0A, 0x0B, 0x0E, 0xC0, 0xC1, 0xC2]

/-- A feature of subsystem scope, one that is saved, one of namespace scope. -/
def featureSubsystem (f : Nat) : Bool := f == 0x04 || f == 0x06 || f == 0x0E || f == 0xC0 || f == 0xC2
def featureSaved (f : Nat) : Bool := f == 0x04 || f == 0x06 || f == 0xC0
def featureNamespace (f : Nat) : Bool := f == 0x05 || f == 0xC1

/-- The key of a feature in the lists: Temperature Threshold has one value for each threshold of each sensor. -/
def featureKey (fid cdw11 : Nat) : Nat := if fid = 0x04 then fid + 0x100 * (cdw11 / 2 ^ 20 % 4) + 0x1000 * (cdw11 / 2 ^ 16 % 16) else fid

/-- What every Set Features is checked for: Save and scope. -/
def State.setStatus (_s : State) (x : Slot) : Nat :=
  let f := Sqe.fid x.sqe
  if Sqe.save x.sqe && !featureSaved f then Nvme.notSaveable
  else if !x.fromPf && featureSubsystem f then Nvme.notChangeable
  else 0

/-- Set a feature of subsystem scope, saved when the command says so. -/
def State.setSubsystem (s : State) (key v : Nat) (save : Bool) : State :=
  s.modHost fun h => { h with features := kput key v h.features, savedFeatures := if save then kput key v h.savedFeatures else h.savedFeatures }

/-- Set a feature of controller scope. -/
def State.setController (s : State) (c key v : Nat) : State := s.modController c fun y => { y with features := kput key v y.features }

/-- Number of Queues as Set and Get return it (R277). -/
def State.queueNumbers (s : State) (c : Nat) : Nat :=
  match s.entryOf c with
  | some e => (e.sqMax - 2) + 2 ^ 16 * (e.cqMax - 2)
  | none => 0

/-- The arbitration burst of the code AB; 7 is no limit, which the slots are (R278). -/
def burstOf (ab : Nat) : Nat := if ab = 7 then 32768 else 2 ^ ab

/-- Carry out a Set of a feature that has no row of its own: status, dword 0 and the state. -/
def State.applyFeature (s : State) (x : Slot) (data : List Byte) : Nat × Nat × State :=
  let c := x.skein
  let v := x.sqe.cdw11
  let bad : Nat × Nat × State := (Nvme.invalidField, 0, s)
  match Sqe.fid x.sqe with
  | 0x01 =>
    let w := (v / 2 ^ 24 % 256 + 1, v / 2 ^ 16 % 256 + 1, v / 2 ^ 8 % 256 + 1, burstOf (v % 8))
    (0, 0, (s.setController c 0x01 (v % 2 ^ 32)).modController c fun y => { y with weights := some w, credits := (0, 0, 0) })
  | 0x02 => if v % 32 = 0 then (0, 0, s.setController c 0x02 (v % 2 ^ 32)) else bad
  | 0x04 => if 1 < v / 2 ^ 20 % 4 then bad else (0, 0, s.setSubsystem (featureKey 0x04 v) (v % 2 ^ 16) (Sqe.save x.sqe))
  | 0x05 => if v % 2 ^ 16 = 0 then (0, 0, s) else bad
  | 0x06 => (0, 0, s.setSubsystem 0x06 (v % 2) (Sqe.save x.sqe))
  | 0x07 => (0, s.queueNumbers c, s)
  | 0x08 => (0, 0, s.setController c 0x08 (v % 2 ^ 16))
  | 0x09 =>
    let vector := v % 2 ^ 16
    if ((s.entryOf c).map (·.msix)).getD 0 ≤ vector then bad
    else (0, 0, s.modController c fun y =>
      { y with noCoalesce := (if v.testBit 16 then [vector] else []) ++ y.noCoalesce.filter (· != vector) })
  | 0x0A => (0, 0, s.setController c 0x0A (v % 2))
  | 0x0B => (0, 0, s.modController c fun y => { y with aecMask := v % 2 ^ 32 })
  | 0x0E => (0, 0, (s.setSubsystem 0x0E (leField data 0 6) false).setSubsystem 0x10E s.optime false)
  | _ => bad

/-- SET_FEATURES (R272, R273), but for the features that have a row of their own. -/
def execSetFeatures (n : Nat) (data : List Byte) (s : State) : Host.Outcome State Fault Refusal :=
  match s.freshAdmin n 0x09 with
  | none => .next s
  | some x =>
    let f := Sqe.fid x.sqe
    if f = 0xC0 ∨ f = 0xC1 ∨ f = 0xC2 then .next s
    else
      let st := if featureIds.contains f then s.setStatus x else Nvme.invalidField
      if st ≠ 0 then .next (s.failCommand x st)
      else
        let r := s.applyFeature x data
        if r.1 ≠ 0 then .next (s.failCommand x r.1) else .next (r.2.2.completeSlot n 0 r.2.1)

/-- SET_DIRTY_CEILING (R274). -/
def execSetDirtyCeiling (n : Nat) (s : State) : Host.Outcome State Fault Refusal :=
  match s.freshAdmin n 0x09 with
  | none => .next s
  | some x =>
    if Sqe.fid x.sqe ≠ 0xC0 then .next s
    else
      let h := x.sqe.cdw11 % 2 ^ 10
      let st := if s.setStatus x ≠ 0 then s.setStatus x else if 512 < h then Nvme.invalidField else 0
      if st ≠ 0 then .next (s.failCommand x st)
      else .next ((s.setSubsystem 0xC0 h (Sqe.save x.sqe)).completeSlot n 0 0)

/-- SET_READ_PATH (R275). -/
def execSetReadPath (n : Nat) (s : State) : Host.Outcome State Fault Refusal :=
  match s.freshAdmin n 0x09 with
  | none => .next s
  | some x =>
    if Sqe.fid x.sqe ≠ 0xC1 then .next s
    else
      let v := x.sqe.cdw11 % 2
      let st :=
        if s.setStatus x ≠ 0 then s.setStatus x
        else if x.sqe.nsid = 0xFFFFFFFF then Nvme.invalidField
        else if (s.namespaceOf x.sqe.nsid).isNone then Nvme.invalidNamespace
        else if s.cipherMode x.sqe.nsid < 3 then Nvme.invalidField
        else if s.pattern.active.security.readPath = 0 ∧ v = 1 then Nvme.invalidField else 0
      if st ≠ 0 then .next (s.failCommand x st)
      else .next ((s.modHost fun h => { h with readPath := kput x.sqe.nsid v h.readPath }).completeSlot n 0 0)

/-- The code AB of a burst. -/
def burstCode (b : Nat) : Nat := ((List.range 7).find? fun k => 2 ^ k == b).getD 7

/-- The value of a feature as dword 0 of Get Features; `dflt` asks for its default. What the spec gives no default is a free
value. -/
def State.featureValue (s : State) (x : Slot) (f : Nat) (dflt : Bool) : Nat × State :=
  let c := x.skein
  let ctl (d : Nat) : Nat × State := (if dflt then d else kgetD f (((s.controller c).map (·.features)).getD []) d, s)
  let sub (d : Nat) : Nat × State := (if dflt then d else kgetD f s.host.features d, s)
  match f with
  | 0x01 =>
    let w := if dflt then s.defaultWeights c else s.weightsOf c
    (burstCode w.2.2.2 + 2 ^ 8 * (w.2.2.1 - 1) + 2 ^ 16 * (w.2.1 - 1) + 2 ^ 24 * (w.1 - 1), s)
  | 0x04 =>
    match (if dflt then none else kget (featureKey 0x04 x.sqe.cdw11) s.host.features) with
    | some v => (v, s)
    | none => let d := s.draw; (d.1 % 2 ^ 16, d.2)
  | 0x06 => sub 1
  | 0x07 => (s.queueNumbers c, s)
  | 0x09 =>
    let v := x.sqe.cdw11 % 2 ^ 16
    (v + (if !dflt && (((s.controller c).map fun y => y.noCoalesce.contains v).getD false) then 2 ^ 16 else 0), s)
  | 0x0B => (if dflt then 0 else ((s.controller c).map (·.aecMask)).getD 0, s)
  | 0xC0 =>
    ((sub 512).1 + 2 ^ 10 * s.fld F.KEEP_CEILING_EFFECTIVE_MIB + 2 ^ 20 * min (ceilDiv s.dirtyPages 256) 1023, s)
  | 0xC1 =>
    let d := if s.pattern.active.security.readPath = 2 then 1 else 0
    (if s.cipherMode x.sqe.nsid < 3 then 0 else if dflt then d else kgetD x.sqe.nsid s.host.readPath d, s)
  | 0xC2 =>
    let r := s.record
    ((if r.state == .tentative then 1 else 0) + 2 * (r.unconf % 8) + 2 ^ 16 * (r.seq % 2 ^ 16), s)
  | 0x05 => (0, s)
  | 0x0E => (0, s)
  | _ => ctl 0

/-- The timestamp that Get Features returns: the value set, run on by the operating time since. -/
def State.timestamp (s : State) : List Byte :=
  match kget 0x0E s.host.features with
  | some v => leBytes 6 (v + (s.optime - kgetD 0x10E s.host.features 0)) ++ leBytes 1 2 ++ leBytes 1 0
  | none => leBytes 6 s.optime ++ leBytes 2 0

/-- What Select 3 reports: saveable, namespace specific, changeable. -/
def featureCaps (f : Nat) : Nat := (if featureSaved f then 1 else 0) + (if featureNamespace f then 2 else 0) + (if f = 0x07 then 0 else 4)

/-- GET_FEATURES (R272 to R276): the current, default or saved value, or what can be done with the feature. -/
def execGetFeatures (n : Nat) (s : State) : Host.Outcome State Fault Refusal :=
  match s.freshAdmin n 0x0A with
  | none => .next s
  | some x =>
    let f := Sqe.fid x.sqe
    if !featureIds.contains f || 3 < Sqe.select x.sqe then .next (s.failCommand x Nvme.invalidField)
    else if featureNamespace f && (s.namespaceOf x.sqe.nsid).isNone then .next (s.failCommand x Nvme.invalidNamespace)
    else
      match Sqe.select x.sqe with
      | 3 => .next (s.completeSlot n 0 (featureCaps f))
      | 2 =>
        match kget (featureKey f x.sqe.cdw11) s.host.savedFeatures with
        | some v => .next (s.completeSlot n 0 v)
        | none => let r := s.featureValue x f true; .next (r.2.completeSlot n 0 r.1)
      | k =>
        let s := if f = 0x0E then s.sendBytes x (if k = 1 then leBytes 8 0 else s.timestamp) else s
        let r := s.featureValue x f (k = 1)
        .next (r.2.completeSlot n 0 r.1)

/-! ### Asynchronous Event Request (R269, R281) -/

/-- ASYNC_EVENT_REQUEST: it carries the oldest event that waits, or is one of up to 8 that wait. -/
def execAsyncEventRequest (n : Nat) (s : State) : Host.Outcome State Fault Refusal :=
  match s.freshAdmin n 0x0C with
  | none => .next s
  | some x =>
    match s.controller x.skein with
    | none => .next s
    | some c =>
      match c.aerQueue with
      | (type, info) :: rest =>
        let s := s.modController x.skein fun y => { y with aerQueue := rest }
        .next (s.completeSlot n 0 (type + 0x100 * info + 0x10000 * asyncPage type info))
      | [] =>
        if 8 ≤ c.aers.length then .next (s.failCommand x Nvme.aerLimit)
        else .next ((s.modController x.skein fun y => { y with aers := y.aers ++ [x.sqe.cid] }).freeSlot n)

/-! ### Device Self-test, Virtualization Management -/

/-- DEVICE_SELF_TEST (R269): what a test finds is a free value. -/
def execDeviceSelfTest (n : Nat) (s : State) : Host.Outcome State Fault Refusal :=
  match s.freshAdmin n 0x14 with
  | none => .next s
  | some x =>
    let code := x.sqe.cdw10 % 16
    if !x.fromPf then .next (s.failCommand x Nvme.invalidOpcode)
    else if code = 1 ∨ code = 2 then
      let (r, s) := s.draw
      .next ((s.modHost fun h => { h with selfTest := some (code, r % 16) }).completeSlot n 0 0)
    else if code = 15 then .next (s.completeSlot n 0 0)
    else .next (s.failCommand x Nvme.invalidField)

/-- VIRTUALIZATION_MANAGEMENT (R269): Secondary Controller Offline and Online, of a virtual function of the port. -/
def execVirtualizationManagement (n : Nat) (s : State) : Host.Outcome State Fault Refusal :=
  match s.freshAdmin n 0x1C with
  | none => .next s
  | some x =>
    let action := x.sqe.cdw10 % 16
    let c := x.sqe.cdw10 / 2 ^ 16 % 2 ^ 16
    if !isPf x.skein then .next (s.failCommand x Nvme.invalidOpcode)
    else if action ≠ 7 ∧ action ≠ 9 then .next (s.failCommand x Nvme.invalidField)
    else if isPf c || c / 16 != x.skein / 16 || (s.entryOf c).isNone then .next (s.failCommand x Nvme.controllerId)
    else if action = 7 then .next (((s.dropController c).modController c fun y => { y with offline := true }).completeSlot n 0 0)
    else .next ((s.modController c fun y => { y with offline := false }).completeSlot n 0 0)

/-! ### Opcodes (R269) -/

/-- The admin opcodes that the part supports. -/
def State.adminOpcodes (s : State) : List Nat :=
  [0x00, 0x01, 0x02, 0x04, 0x05, 0x06, 0x08, 0x09, 0x0A, 0x0C, 0x10, 0x11, 0x14, 0x1C, 0x1D, 0x1E, 0x80, 0x84] ++
    (if s.fuse.nSuffix then [] else [0x81, 0x82])

/-- INVALID_ADMIN_OPCODE (R269). -/
def execInvalidAdminOpcode (n : Nat) (s : State) : Host.Outcome State Fault Refusal :=
  match s.slot n with
  | none => .next s
  | some x =>
    if x.fresh && !s.isIo x && !s.adminOpcodes.contains x.sqe.opcode then .next (s.failCommand x Nvme.invalidOpcode)
    else .next s

end Sys2Proof.Machine
end

