-- ==== Sys2Proof/Machine/Pages.lean ====
section
/-!
DEFINITION. Sys2Proof/Machine/Pages.lean: what the BZ8 reports to a host: log pages (R271, R281 to R286, R366, R467) and
Identify (R263, R267 to R269, R287 to R289). The layouts of the standard pages and structures are PRESUMED (assumption log
13); a byte that neither the spec nor such a layout gives a value is a free value.
-/

namespace Sys2Proof.Machine

/-! ### Structures -/

/-- A structure of n bytes: fields by offset, every other byte from a number. -/
def layFields (n : Nat) (fields : List (Nat × List Byte)) (rest : Nat) : List Byte :=
  (List.range n).map fun i =>
    match fields.find? fun f => f.1 ≤ i && i < f.1 + f.2.length with
    | some f => f.2.getD (i - f.1) 0
    | none => BitVec.ofNat 8 (rest / 256 ^ i)

/-- A structure whose other bytes are free values. -/
def State.freeFields (s : State) (n : Nat) (fields : List (Nat × List Byte)) : List Byte × State :=
  let r := s.draw
  (layFields n fields r.1, r.2)

/-! ### Namespaces as a controller sees them (R267, R287) -/

/-- The namespace is attached to the controller and active for it: a ZNS namespace only with CC.CSS 110b. -/
def State.activeFor (s : State) (c : Nat) (n : NamespaceEntry) : Bool :=
  n.controllers.testBit c && (n.type != 1 || ((s.controller c).map (·.css)).getD 0 == 6)

/-- The command set of a namespace (R287). -/
def NamespaceEntry.csi (n : NamespaceEntry) : Nat := if n.type = 1 then 2 else 0

/-- The least element of a list that is greater than k, and so on: the list in rising order. -/
def risingFrom : Nat → Nat → List Nat → List Nat
  | 0, _, _ => []
  | fuel + 1, k, l =>
    match leastOf (l.filter fun x => k ≤ x) with
    | some x => x :: risingFrom fuel (x + 1) l
    | none => []

/-- Numbers in rising order. -/
def rising (l : List Nat) : List Nat := risingFrom l.length 0 l

/-- A list of NSIDs above one, as Identify and the Changed Namespace List carry them. -/
def nsidList (above : Nat) (l : List Nat) : List Byte := padTo 4096 ((rising (l.filter fun n => above < n)).flatMap (leBytes 4))

/-- The namespace is ready (R288, R119). -/
def State.namespaceReady (s : State) (nsid : Nat) : Bool :=
  s.on F.STM_STATUS_READY && !s.keeper.restoring && !s.host.formatting.any fun f => f.1 == nsid

/-! ### Standard pages (R271) -/

/-- 0x01: the newest error first. -/
def State.errorPage (s : State) (c : Nat) : List Byte × State :=
  let log := ((s.controller c).map (·.errorLog)).getD []
  let r := log.foldl (fun (a : List Byte × State) e =>
    let f := a.2.freeFields 64 [(0, leBytes 8 e.1), (12, leBytes 2 (2 * e.2.1)), (16, leBytes 8 e.2.2)]
    (a.1 ++ f.1, f.2)) ([], s)
  (padTo 4096 r.1, r.2)

/-- Spare blocks left, in per cent. -/
def State.sparePercent (s : State) : Nat := if Config.sparePool = 0 then 0 else min 100 (100 * s.sparesLeft / Config.sparePool)

/-- PERCENT_USED (R286). -/
def State.percentUsed (s : State) : Nat := min 255 (100 * s.darn.eraseMax / 100000)

/-- 0x02. -/
def State.smartPage (s : State) : List Byte × State :=
  s.freeFields 512 [(0, leBytes 1 s.host.smart), (3, leBytes 1 s.sparePercent), (4, leBytes 1 10)]

/-- The slot of the front firmware in a set of entries, from 1; 0 none. -/
def frontSlot (l : List SlotEntry) : Nat :=
  match l.find? fun e => e.component == 4 && e.valid with | some e => e.slot + 1 | none => 0

/-- REVISION of the front image in a slot. -/
def State.revision (s : State) (slot : Nat) : List Byte := padTo 8 (kgetD slot s.upd.revisions [])

/-- 0x03. -/
def State.slotPage (s : State) : List Byte :=
  let next := if s.record.atReset then frontSlot s.record.stagedSet else 0
  layFields 512 [(0, leBytes 1 (frontSlot s.record.current + 16 * next)), (8, s.revision 0), (16, s.revision 1)] 0

/-- The I/O opcodes of a command set (R270). -/
def setOpcodes (csi : Nat) : List Nat :=
  [0x00, 0x01, 0x02, 0x05, 0x08, 0x0C] ++ (if csi = 2 then [0x79, 0x7A, 0x7D] else [0x04, 0x09])

/-- Effects entries: bit 0 supported; the other bits of a supported command are free. -/
def State.effects (s : State) (ops : List Nat) : List Byte × State :=
  (List.range 256).foldl (fun (a : List Byte × State) op =>
    if ops.contains op then let d := a.2.draw; (a.1 ++ leBytes 4 (1 + 2 * (d.1 % 2 ^ 31)), d.2) else (a.1 ++ leBytes 4 0, a.2)) ([], s)

/-- 0x05, for the command set that the read names. -/
def State.effectsPage (s : State) (csi : Nat) : List Byte × State :=
  let a := s.effects s.adminOpcodes
  let b := a.2.effects (setOpcodes csi)
  (padTo 4096 (a.1 ++ b.1), b.2)

/-- 0x06: no test runs; the newest result. -/
def State.selfTestPage (s : State) : List Byte × State :=
  match s.host.selfTest with
  | none => (layFields 564 ((List.range 20).map fun k => (4 + 28 * k, leBytes 1 0xF)) 0, s)
  | some t =>
    s.freeFields 564 ((0, leBytes 4 0) :: (4, leBytes 1 (t.2 + 16 * t.1)) :: (List.range 19).map fun k => (32 + 28 * k, leBytes 1 0xF))

/-- Tracks of the zones of an actuator that a test picks, as a function of the zone's shape counts them (R399). -/
def State.actTracks (s : State) (a : Nat) (picks : Nat → Bool) (count : ZoneShape → Nat) : Nat :=
  let base := if a = 0 then 0 else s.actZones 0
  (List.range (s.actZones a)).foldl (fun m k =>
    match s.zoneShape (base + k) with
    | some sh => if picks (base + k) then m + count sh else m
    | none => m) 0

/-- Seconds of a number of revolutions and of at most one more per 16 (R399). -/
def State.revSeconds (s : State) (t : Nat) : Nat := ceilDiv ((t + t / 16) * 60) s.pattern.active.geometry.rpm

/-- The estimates of R399 in seconds: a block erase over every track but those of the system places from 7 on; an overwrite, one
revolution per written track of the namespaces in each of the 16 passes that the page's estimate stands for (PRESUMED, assumption
log 13); a crypto erase. The actuators work at once. -/
def State.eraseSeconds (s : State) : Nat :=
  let kept := ((List.range s.zoneTotal).filter fun z => s.freshState z == .system).drop 7
  let t (a : Nat) : Nat := s.actTracks a (fun z => !kept.contains z) (·.tracks)
  s.revSeconds (max (t 0) (t 1))
def State.overwriteSeconds (s : State) : Nat :=
  let mine (z : Nat) : Bool := s.pattern.active.host.namespaces.any fun n => n.firstZone ≤ z && z < n.firstZone + n.zoneCount
  let t (a : Nat) : Nat := s.actTracks a mine fun sh => if sh.sequential then seqTracks sh.spt else sh.tracks / 2
  s.revSeconds (16 * max (t 0) (t 1))
def State.cryptoSeconds (s : State) : Nat := ceilDiv (2000000 + 2 * s.zoneTotal) 1000000

/-- 0x81: progress while a sanitize runs is a free value. -/
def State.sanitizePage (s : State) : List Byte × State :=
  let cdw10 := match s.host.sanitize with | some x => x.1 | none => s.host.sanitizeDone.getD 0
  let status := if s.host.sanitize.isSome then 2
    else match s.host.sanitizeDone with | none => 0 | some d => if d.testBit 9 then 4 else 1
  s.freeFields 512 ((if s.host.sanitize.isSome then [] else [(0, leBytes 2 0xFFFF)]) ++
    [(2, leBytes 1 status), (4, leBytes 4 cdw10), (8, leBytes 4 s.overwriteSeconds), (12, leBytes 4 s.eraseSeconds), (16, leBytes 4 s.cryptoSeconds)])

/-- 0xBF: the changed zones of a namespace. -/
def State.changedZonePage (s : State) (n : NamespaceEntry) : List Byte :=
  let l := rising (s.host.changedZones.filter fun z => n.firstZone ≤ z && z < n.firstZone + n.zoneCount)
  padTo 4096 (leBytes 2 (min l.length 511) ++ leBytes 6 0 ++ (l.take 511).flatMap fun z => leBytes 8 ((z - n.firstZone) * zoneSectors))

/-! ### Vendor pages -/

/-- An entry of page 0xC0 (R366). -/
def State.unreadableBytes (s : State) (e : UnreadableEntry) : List Byte :=
  let at_ := match s.nsOfDla e.dla with | some (n, lba) => (n.nsid, lba) | none => (0, e.dla)
  leBytes 4 at_.1 ++ leBytes 4 e.length ++ leBytes 8 at_.2 ++ leBytes 8 e.row ++ leBytes 1 e.cause ++ leBytes 1 e.step ++
    leBytes 2 0 ++ leBytes 4 (e.dla / zoneSectors)

/-- The entries of page 0xC0 from an index on: as many as a snapshot of 64 KiB holds (R283). -/
def State.unreadableFrom (s : State) (first : Nat) : List UnreadableEntry := (s.darn.unreadable.drop first).take 2046

/-- The body of page 0xC0 (R366). -/
def State.unreadableBody (s : State) (first : Nat) : List Byte :=
  leBytes 4 s.darn.unreadable.length ++ leBytes 4 (s.fld F.DRN_UNREAD_OVERFLOW) ++ leBytes 4 first ++ leBytes 4 0 ++
    leBytes 4 (s.fld F.DRN_UNRECOVERED_COUNT) ++ leBytes 12 0 ++ (s.unreadableFrom first).flatMap s.unreadableBytes

/-- A stored record's 64 bytes; those of a torn record are free values. -/
def State.storedBytes (s : State) (e : Stored) : List Byte × State :=
  if e.torn then let d := s.draw; (leBytes 64 d.1, d.2) else (e.record.bytes, s)

/-- The records of a store, one place per index; an index not written reads erased. -/
def State.storeBody (s : State) (l : List Stored) : List Byte × State :=
  let n := l.foldl (fun m e => max m (e.index + 1)) 0
  (List.range n).foldl (fun (a : List Byte × State) i =>
    match l.find? fun e => e.index == i with
    | some e => let r := a.2.storedBytes e; (a.1 ++ r.1, r.2)
    | none => (a.1 ++ List.replicate 64 0xFF, a.2)) ([], s)

/-- The body of page 0xC2 for a store (R284): 0 the Recorder store, 1 the fallback area, 2 the Keeper shadow. -/
def State.recorderBody (s : State) (store : Nat) : Option (List Byte × State) :=
  match store with
  | 0 => some (s.storeBody s.recorder.store)
  | 1 => some (s.storeBody s.recorder.fallback)
  | 2 => some (s.recorder.shadow.flatMap fun r => r.1.bytes, s)
  | _ => none

/-- The body of page 0xC3 (R286). -/
def State.lifelineBody (s : State) : List Byte :=
  leBytes 4 Config.nandBlocks ++ leBytes 4 (Config.nandBlocks - s.darn.blocksRetired) ++ leBytes 4 s.sparesLeft ++
    leBytes 4 s.darn.blocksRetired ++ leBytes 4 s.darn.eraseMax ++ leBytes 4 s.darn.eraseAvg ++ leBytes 4 100000 ++
    leBytes 4 s.darn.eccCorrected ++ leBytes 4 s.darn.programFails ++ leBytes 1 (s.fld F.KEEP_STATUS_SAVE_PRESENT) ++
    leBytes 1 (s.fld F.KEEP_BO_LAST_RESULT) ++ leBytes 2 (s.fld F.KEEP_BO_LAST_SAVED_MIB) ++
    leBytes 4 s.recorder.fallback.length ++ leBytes 4 (64 * s.recorder.reserve.length) ++ leBytes 1 s.percentUsed ++ leBytes 15 0

/-- Operating minutes before the session expires: UPD_IDLE.MIN_LEFT (R446, R468). -/
def State.minLeft (s : State) : Nat :=
  match s.upd.session with
  | some x => 10080 - (s.optime - x.lastProgress) / 60000
  | none => 0

/-- Minutes to automatic confirmation (R463, R467). -/
def State.autoMinutes (s : State) : Nat :=
  let r := s.record
  if r.state = .tentative ∧ s.pattern.active.security.autoConfirm then ceilDiv (259200000 - (s.optime - max r.actOptime r.faultOptime)) 60000
  else 0xFFFFFFFF

/-- SLOTS of a component in page 0xC4. -/
def State.slotBytes (s : State) (component : Nat) : List Byte :=
  match s.record.current.find? fun e => e.component == component with
  | some e => leBytes 1 e.slot ++ leBytes 1 (if e.valid then 1 else 0) ++ leBytes 2 e.level ++ leBytes 4 (imageSvn (s.image component e.slot))
  | none => leBytes 8 0

/-- The piece bitmap of a session. -/
def bitmapBytes (units : List Nat) : List Byte :=
  (List.range 8192).map fun i => BitVec.ofNat 8 ((List.range 8).foldl (fun m b => if units.contains (8 * i + b) then m + 2 ^ b else m) 0)

/-- The body of page 0xC4 (R467). -/
def State.updateBody (s : State) : List Byte :=
  let r := s.record
  (match s.upd.session with | some x => digestBytes x.digest | none => leBytes 32 0) ++ leBytes 1 (s.fld F.UPD_STATUS_SESSION) ++
    leBytes 1 (s.fld F.UPD_STATUS_SOURCES) ++ leBytes 1 (s.fld F.UPD_STATUS_ACT_STATE) ++ leBytes 1 (s.fld F.UPD_STATUS_COMPONENT) ++
    leBytes 4 (s.fld F.UPD_PIECES_KEPT) ++ leBytes 4 (s.fld F.UPD_TOTAL_TOTAL) ++ leBytes 4 s.minLeft ++ leBytes 8 r.seq ++
    leBytes 1 (if r.state = .tentative then 1 else 0) ++ leBytes 1 r.unconf ++ leBytes 1 (s.fld F.UPD_ERR_CODE) ++
    leBytes 1 (s.fld F.UPD_ERR_DETAIL) ++ leBytes 4 s.autoMinutes ++ ([1, 2, 3, 4, 5].flatMap s.slotBytes) ++ leBytes 8 0 ++
    bitmapBytes (match s.upd.session with | some x => x.units.map (·.1) | none => [])

/-- Entries and body of a page of which snapshots are taken. -/
def State.snapshotBody (s : State) (lid first : Nat) : Nat × List Byte :=
  match lid with
  | 0xC0 => ((s.unreadableFrom first).length, s.unreadableBody first)
  | 0xC3 => (0, s.lifelineBody)
  | _ => (0, s.updateBody)

/-! ### Get Log Page (R271, R283) -/

/-- Log Page Identifier, Retain Asynchronous Event, Log Specific Identifier. -/
def Sqe.lid (q : Sqe) : Nat := q.cdw10 % 256
def Sqe.retain (q : Sqe) : Bool := q.cdw10.testBit 15
def Sqe.lsi (q : Sqe) : Nat := q.cdw11 / 2 ^ 16 % 2 ^ 16

/-- A read with RAE 0 unmasks the events that name the page (R281), and clears the lists of changes. -/
def State.pageRead (s : State) (x : Slot) : State :=
  let lid := Sqe.lid x.sqe
  if Sqe.retain x.sqe then s
  else
    let s := s.modController x.skein fun c => { c with aerMasked := c.aerMasked.filter fun e => asyncPage e.1 e.2 != lid }
    if lid = 0x04 then s.modHost fun h => { h with changedNamespaces := [] }
    else if lid = 0xBF then
      match s.namespaceOf x.sqe.nsid with
      | some n => s.modHost fun h => { h with changedZones := h.changedZones.filter fun z => !(n.firstZone ≤ z && z < n.firstZone + n.zoneCount) }
      | none => s
    else s

/-- Return a page and complete. -/
def returnPage (x : Slot) (r : List Byte × State) : State := (r.2.pageRead x).sendPage x.num r.1

/-- A read of a page with snapshots (R283). -/
def State.readSnapshot (s : State) (x : Slot) : State :=
  let lid := Sqe.lid x.sqe
  let off := logOffset x.sqe
  if off = 0 then
    if lid = 0xC1 then
      if s.host.ledgerReads.contains x.num then s
      else (s.pageRead x).modHost fun h => { h with ledgerReads := h.ledgerReads ++ [x.num] }
    else
      let b := s.snapshotBody lid (Sqe.lsi x.sqe)
      let r := s.vendorPage lid b.1 b.2
      returnPage x (r.1, r.2.keepSnapshot x.skein lid r.1)
  else
    match kget lid (((s.controller x.skein).map (·.snapshots)).getD []) with
    | none => s.failCommand x Nvme.invalidField
    | some page => if page.length ≤ off then s.failCommand x Nvme.invalidField else returnPage x (page, s)

/-- A live read of page 0xC2 (R284). -/
def State.readRecorder (s : State) (x : Slot) : State :=
  match s.recorderBody (Sqe.lsi x.sqe) with
  | none => s.failCommand x Nvme.invalidField
  | some b => returnPage x (b.2.vendorPage 0xC2 (b.1.length / 64) b.1)

/-- A read of one of the standard pages. -/
def State.readStandard (s : State) (x : Slot) : State :=
  match Sqe.lid x.sqe with
  | 0x01 => returnPage x (s.errorPage x.skein)
  | 0x02 => returnPage x s.smartPage
  | 0x03 => returnPage x (s.slotPage, s)
  | 0x04 => returnPage x (nsidList 0 s.host.changedNamespaces, s)
  | 0x05 => returnPage x (s.effectsPage (x.sqe.cdw14 / 2 ^ 24 % 256))
  | 0x06 => returnPage x s.selfTestPage
  | 0x81 => returnPage x s.sanitizePage
  | 0xBF =>
    match s.namespaceOf x.sqe.nsid with
    | none => s.failCommand x Nvme.invalidNamespace
    | some n => if n.type = 1 then returnPage x (s.changedZonePage n, s) else s.failCommand x Nvme.invalidField
  | _ => s.failCommand x Nvme.logPage

/-- GET_LOG_PAGE (R271, R283 to R286). -/
def execGetLogPage (n : Nat) (s : State) : Host.Outcome State Fault Refusal :=
  match s.freshAdmin n 0x02 with
  | none => .next s
  | some x =>
    let lid := Sqe.lid x.sqe
    let vendor := 0xC0 ≤ lid && lid ≤ 0xC4
    let rom := s.fld F.PAT_STATUS_STATE == 3 || s.cast.recovery
    if !vendor then .next (s.readStandard x)
    else if !x.fromPf || (rom && lid < 0xC2) then .next (s.failCommand x Nvme.logPage)
    else if lid = 0xC2 then .next (s.readRecorder x)
    else .next (s.readSnapshot x)

/-! ### Identify (R268, R269) -/

/-- Bytes of a text that Identify carries: its first n. -/
def textBytes (n : Nat) (l : List Byte) : List Byte := (List.range n).map fun i => l.getD i 0x20

/-- CNS 0x01: Identify Controller (R268). -/
def State.identifyController (s : State) (c : Nat) : List Byte × State :=
  let many := 1 < s.pattern.active.host.controllers.length
  let vfs := s.pattern.active.host.controllers.any fun e => e.port == c / 16 && e.function != 0
  let n := s.fuse.nSuffix
  let front := match s.record.current.find? fun e => e.component == 4 with | some e => s.revision e.slot | none => padTo 8 []
  s.freeFields 4096
    [(0, textBytes 4 Config.vendorIds), (4, textBytes 20 Config.serialNumber), (24, textBytes 40 Config.modelNumber), (64, front),
     (72, leBytes 1 3), (76, leBytes 1 ((if many then 2 else 0) + if vfs then 4 else 0)), (77, leBytes 1 9), (78, leBytes 2 c),
     (80, leBytes 4 0x00020000), (92, leBytes 4 0x08000300), (256, leBytes 2 (if n then 0x00D6 else 0x00D7)), (258, leBytes 1 3),
     (259, leBytes 1 7), (260, leBytes 1 0x14), (261, leBytes 1 0x06), (262, leBytes 1 63), (263, leBytes 1 0), (266, leBytes 2 373),
     (268, leBytes 2 378), (319, leBytes 1 1), (328, leBytes 4 (if n then 6 else 7)), (512, leBytes 1 0x66), (513, leBytes 1 0x44),
     (514, leBytes 2 32768), (516, leBytes 4 16), (520, leBytes 2 0x00DF), (524, leBytes 1 (if n then 0 else 4)), (525, leBytes 1 7),
     (526, leBytes 2 63), (528, leBytes 2 63), (532, leBytes 2 0), (536, leBytes 4 1),
     (3072, leBytes 4 s.fuse.capLo ++ leBytes 4 s.fuse.capHi)]

/-- A namespace attached to more than one controller. -/
def NamespaceEntry.nmic (n : NamespaceEntry) : Nat := if 1 < popcount n.controllers then 1 else 0

/-- CNS 0x00 and 0x11: Identify Namespace (R287, R288). -/
def State.identifyNamespace (s : State) (n : NamespaceEntry) : List Byte × State :=
  s.freeFields 4096
    [(0, leBytes 8 n.capacity), (8, leBytes 8 n.capacity), (25, leBytes 1 1), (26, leBytes 1 (s.lbaf n.nsid)), (27, leBytes 1 2),
     (29, leBytes 1 (kgetD n.nsid s.host.piType 0)), (30, leBytes 1 n.nmic), (33, leBytes 1 (if n.type = 1 then 0 else 1)),
     (128, leBytes 4 (12 * 2 ^ 16)), (132, leBytes 4 (16 + 12 * 2 ^ 16))]

/-- CNS 0x05: the command set's own part of a namespace; of a ZNS namespace the zone limits (R289). -/
def State.identifySpace (s : State) (n : NamespaceEntry) : List Byte × State :=
  if n.type = 1 then
    s.freeFields 4096 [(4, leBytes 4 255), (8, leBytes 4 255), (2816, leBytes 8 zoneSectors ++ leBytes 1 0), (2832, leBytes 8 zoneSectors ++ leBytes 1 0)]
  else s.freeFields 4096 []

/-- CNS 0x15: the virtual functions of the controller's port. -/
def State.secondaryList (s : State) (c above : Nat) : List Byte × State :=
  let l := s.pattern.active.host.controllers.filter fun e => e.port == c / 16 && e.function != 0 && above ≤ 16 * e.port + e.function
  let r := l.foldl (fun (a : List Byte × State) e =>
    let k := 16 * e.port + e.function
    let on := !(((s.controller k).map (·.offline)).getD false)
    let f := a.2.freeFields 32 [(0, leBytes 2 k), (2, leBytes 2 (16 * e.port)), (4, leBytes 1 (if on then 1 else 0)), (8, leBytes 2 e.function)]
    (a.1 ++ f.1, f.2)) ([], s)
  (padTo 4096 (layFields 32 [(0, leBytes 1 l.length)] 0 ++ r.1), r.2)

/-- A controller list from one CNTLID on. -/
def controllerList (from_ : Nat) (l : List Nat) : List Byte :=
  let k := rising (l.filter fun c => from_ ≤ c)
  padTo 4096 (leBytes 2 k.length ++ k.flatMap (leBytes 2))

/-- The structure of a CNS value, or the status that refuses it. -/
def State.identify (s : State) (x : Slot) : Except Nat (List Byte × State) :=
  let c := x.skein
  let nsid := x.sqe.nsid
  let cntid := x.sqe.cdw10 / 2 ^ 16 % 2 ^ 16
  let csi := x.sqe.cdw11 / 2 ^ 24 % 256
  let all := s.pattern.active.host.namespaces
  let active := all.filter (s.activeFor c)
  let named (l : List NamespaceEntry) (f : NamespaceEntry → Except Nat (List Byte × State)) : Except Nat (List Byte × State) :=
    if nsid = 0 ∨ 16 < nsid then .error Nvme.invalidNamespace
    else match l.find? fun n => n.nsid == nsid with
      | some n => f n
      | none => .ok (List.replicate 4096 0, s)
  let lists (l : List NamespaceEntry) : Except Nat (List Byte × State) := .ok (nsidList nsid (l.map (·.nsid)), s)
  let exist := (s.pattern.active.host.controllers.map fun e => 16 * e.port + e.function)
  match x.sqe.cdw10 % 256 with
  | 0x00 => named active fun n => .ok (s.identifyNamespace n)
  | 0x01 => .ok (s.identifyController c)
  | 0x02 => lists active
  | 0x03 => named active fun n => .ok (s.freeFields 4096 [(0, leBytes 1 4 ++ leBytes 1 1 ++ leBytes 2 0 ++ leBytes 1 n.csi)])
  | 0x05 => named active fun n => if n.csi = csi then .ok (s.identifySpace n) else .error Nvme.invalidField
  | 0x06 =>
    if csi = 2 then .ok (s.freeFields 4096 [(0, leBytes 1 6)])
    else if csi = 0 then .ok (s.freeFields 4096 []) else .error Nvme.invalidField
  | 0x07 => lists (active.filter fun n => n.csi == csi)
  | 0x08 => named active fun n =>
      .ok (s.freeFields 4096 [(1, leBytes 1 n.nmic), (14, leBytes 1 (if s.namespaceReady n.nsid then 1 else 0))])
  | 0x10 => lists all
  | 0x11 => named all fun n => .ok (s.identifyNamespace n)
  | 0x12 => named all fun n => .ok (controllerList cntid (exist.filter n.controllers.testBit), s)
  | 0x13 => .ok (controllerList cntid exist, s)
  | 0x14 => .ok (s.freeFields 4096 [(0, leBytes 2 c), (2, leBytes 2 (c / 16))])
  | 0x15 => .ok (s.secondaryList c cntid)
  | 0x1C => .ok (padTo 4096 (leBytes 8 5), s)
  | _ => .error Nvme.invalidField

/-- IDENTIFY (R268, R269). -/
def execIdentify (n : Nat) (s : State) : Host.Outcome State Fault Refusal :=
  match s.freshAdmin n 0x06 with
  | none => .next s
  | some x =>
    match s.identify x with
    | .error e => .next (s.failCommand x e)
    | .ok (bytes, s) => .next ((s.sendBytes x bytes).completeSlot n 0 0)

end Sys2Proof.Machine
end

