-- ==== Sys2Proof/Machine/Format.lean ====
section
/-!
DEFINITION. Sys2Proof/Machine/Format.lean: Format NVM (R269, R288, R119), Security Send and Receive (R269, R397), and Sanitize
(R399).
-/

namespace Sys2Proof.Machine

/-! ### Format NVM -/

/-- LBA format, metadata setting, PI type and secure erase setting of a Format NVM (PRESUMED, assumption log 13). -/
def fmtLbaf (cdw10 : Nat) : Nat := cdw10 % 16
def fmtPi (cdw10 : Nat) : Nat := cdw10 / 2 ^ 5 % 8
def fmtSes (cdw10 : Nat) : Nat := cdw10 / 2 ^ 9 % 8

/-- The formats of R288: PI types 1 and 3 with LBA format 1, metadata in a separate buffer, SES 2 not on -N variants. -/
def State.formatOk (s : State) (d : Nat) : Bool :=
  let pi := fmtPi d
  fmtLbaf d ≤ 1 && !d.testBit 4 && (pi == 0 || (fmtLbaf d == 1 && (pi == 1 || pi == 3))) && fmtSes d ≤ (if s.fuse.nSuffix then 1 else 2)

/-- The namespaces that a Format NVM names. -/
def State.formatTargets (s : State) (x : Slot) : List NamespaceEntry :=
  s.pattern.active.host.namespaces.filter fun n => s.activeFor x.skein n && (x.sqe.nsid == 0xFFFFFFFF || n.nsid == x.sqe.nsid)

/-- The status that refuses a Format NVM. -/
def State.formatStatus (s : State) (x : Slot) : Nat :=
  let l := s.formatTargets x
  if x.sqe.nsid ≠ 0xFFFFFFFF ∧ (s.namespaceOf x.sqe.nsid).isNone then Nvme.invalidNamespace
  else if x.sqe.nsid ≠ 0xFFFFFFFF ∧ l = [] then Nvme.invalidField
  else if s.host.sanitize.isSome then Nvme.sanitizeInProgress
  else if l.any fun n => s.host.formatting.any fun f => f.1 == n.nsid then Nvme.formatInProgress
  else if !s.formatOk x.sqe.cdw10 then Nvme.format else 0

/-- FORMAT_NVM (R269, R119): accepted, it runs to its end; under WRITE_HOLD it is held (R314). -/
def execFormatNvm (n : Nat) (s : State) : Host.Outcome State Fault Refusal :=
  match s.freshAdmin n 0x80 with
  | none => .next s
  | some x =>
    if s.on F.ORD_LEDGER_STATUS_WRITE_HOLD then .next (s.holdCommand n)
    else
      let st := s.formatStatus x
      let l := s.formatTargets x
      if st ≠ 0 then .next (s.failCommand x st)
      else if l = [] then .next (s.completeSlot n 0 0)
      else
        let s := s.modHost fun h => { h with formatting := h.formatting ++ l.map fun e => (e.nsid, x.sqe.cdw10 % 2 ^ 32, n + 1) }
        .next (s.modSlot n fun y => { y with stage := .media })

/-- The zone can begin another generation: GEN has not run out, and the zone is not OFFLINE (R259). -/
def State.mayBump (s : State) (z : Nat) : Bool := (s.zdesc z).state != .offline && s.genSoon z < 0xFFFFFFFF

/-- A zone's descriptor starts over: a sequential zone is Empty. -/
def State.emptyZone (s : State) (z : Nat) : State :=
  if !s.isSequential z || (s.zdesc z).state == .offline then s else (s.walker (.desc z 0 .empty 0)).dropAccept z

/-- A zone begins a new generation, a sequential one Empty; one whose GEN has run out goes OFFLINE (R259). -/
def State.renewZone (s : State) (z : Nat) : State :=
  let may := s.mayBump z
  let s := s.walker (.genBump z)
  if may then s.emptyZone z else s

/-- A zone without content: its generation is incremented (R259); outside ZNS namespaces its range is UNWRITTEN. -/
def State.clearZone (zns : Bool) (s : State) (z : Nat) : State :=
  let s := ((s.abandonRewrite z).renewZone z).unlist (z * zoneSectors) zoneSectors
  let s := (s.modFlow fun f => { f with openOrder := f.openOrder.filter (· != z) }).dropClean fun d => d / zoneSectors == z
  if zns then s else s.walker (.flags (z * zoneSectors) zoneSectors 2 13 (s.genSoon z) none)

/-- The Namespace Attribute Changed event: the namespace's state changed (R281). -/
def State.namespaceNotice (s : State) (nsid : Nat) : State :=
  let s := s.modHost fun h => { h with changedNamespaces := if h.changedNamespaces.contains nsid then h.changedNamespaces else h.changedNamespaces ++ [nsid] }
  s.postAsync 2 0 fun c => s.attachedTo nsid c

/-- A namespace has been formatted: every zone is without content, and the format holds. SES 2 makes a new key. -/
def State.formatted (s : State) (n : NamespaceEntry) (cdw10 : Nat) : State :=
  let s := n.zones.foldl (State.clearZone (n.type == 1)) s
  let s := s.modHost fun h =>
    { h with lbaFormat := kput n.nsid (fmtLbaf cdw10) h.lbaFormat, piType := kput n.nsid (fmtPi cdw10) h.piType }
  let s := if fmtSes cdw10 = 2 ∧ s.cipherMode n.nsid ≠ 0 then s.newNmek n.nsid else s
  s.namespaceNotice n.nsid

/-- FORMAT_NVM_DONE (R119): a namespace's format ends; the command completes with the last of its namespaces. -/
def execFormatNvmDone (nsid : Nat) (s : State) : Host.Outcome State Fault Refusal :=
  match s.host.formatting.find? fun f => f.1 == nsid with
  | none => .next s
  | some f =>
    let s := s.modHost fun h => { h with formatting := h.formatting.filter fun g => g.1 != nsid }
    let s := match s.namespaceOf nsid with | some n => s.formatted n f.2.1 | none => s
    if f.2.2 ≠ 0 ∧ !(s.host.formatting.any fun g => g.2.2 == f.2.2) then .next (s.completeSlot (f.2.2 - 1) 0 0)
    else .next s

/-! ### Security Send and Receive (R269, R397) -/

/-- The security protocols of R269: 0x00, and those of the TCG (PRESUMED, assumption log 13). -/
def securityProtocol (cdw10 : Nat) : Nat := cdw10 / 2 ^ 24 % 256
def securityKnown (p : Nat) : Bool := p == 0x00 || p == 0x01 || p == 0x02

/-- SECURITY_SEND: drive firmware takes the payload; the keys in it reach Tirium by its KPIO command (R397, R405). -/
def execSecuritySend (n : Nat) (payload : List Byte) (s : State) : Host.Outcome State Fault Refusal :=
  match s.freshAdmin n 0x81 with
  | none => .next s
  | some x =>
    if s.fuse.nSuffix then .next (s.failCommand x Nvme.invalidOpcode)
    else if !securityKnown (securityProtocol x.sqe.cdw10) || securityProtocol x.sqe.cdw10 == 0 || 2 ^ 21 < payload.length then
      .next (s.failCommand x Nvme.invalidField)
    else .next (s.completeSlot n 0 0)

/-- SECURITY_RECEIVE: what drive firmware answers is a free value. -/
def execSecurityReceive (n : Nat) (s : State) : Host.Outcome State Fault Refusal :=
  match s.freshAdmin n 0x82 with
  | none => .next s
  | some x =>
    let len := x.sqe.cdw11 % 2 ^ 32
    if s.fuse.nSuffix then .next (s.failCommand x Nvme.invalidOpcode)
    else if !securityKnown (securityProtocol x.sqe.cdw10) || 2 ^ 21 < len then .next (s.failCommand x Nvme.invalidField)
    else
      let r := s.freeFields len []
      .next ((r.2.sendBytes x r.1).completeSlot n 0 0)

/-! ### Sanitize (R399) -/

/-- SANACT, OWPASS, OIPBP and NDAS of a Sanitize (PRESUMED, assumption log 13). -/
def sanAct (cdw10 : Nat) : Nat := cdw10 % 8
def sanPasses (cdw10 : Nat) : Nat := if cdw10 / 16 % 16 = 0 then 16 else cdw10 / 16 % 16
def sanInverts (cdw10 : Nat) : Bool := cdw10.testBit 8
def sanNoDeallocate (cdw10 : Nat) : Bool := cdw10.testBit 9

/-- Steps of a sanitize as the Lifeline settings record them: 1 to 5 of R399; a new step begins with its first zone. -/
def State.sanStep (s : State) (k : Nat) : State := s.modTir fun t => { t with sanitizeStep := k, sanitizeZone := 0, sanitizePass := 0 }

/-- SANITIZE (R399): accepted, it completes and runs on by its recorded steps; under WRITE_HOLD it is held (R314). -/
def execSanitize (n : Nat) (s : State) : Host.Outcome State Fault Refusal :=
  match s.freshAdmin n 0x84 with
  | none => .next s
  | some x =>
    let d := x.sqe.cdw10 % 2 ^ 32
    let a := sanAct d
    if s.on F.ORD_LEDGER_STATUS_WRITE_HOLD then .next (s.holdCommand n)
    else if !x.fromPf then .next (s.failCommand x Nvme.invalidOpcode)
    else if a = 0 ∨ 4 < a ∨ (a = 4 ∧ s.fuse.nSuffix) then .next (s.failCommand x Nvme.invalidField)
    else if s.host.sanitize.isSome then .next (s.failCommand x Nvme.sanitizeInProgress)
    else if a = 1 then .next (s.completeSlot n 0 0)
    else
      let s := (s.modHost fun h => { h with sanitize := some (d, x.sqe.cdw11 % 2 ^ 32) }).sanStep (if a = 4 then 1 else 2)
      .next (s.completeSlot n 0 0)

/-- A write's data is discarded without a media write: its pages return to free, and it leaves the tracker. -/
def State.forgetWrite (s : State) (w : Slot) : State :=
  if !w.visible && w.shown == 0 then s.discardWrite w.num (if w.orphan then none else some Nvme.sanitizeInProgress)
  else
    let n := if w.noData then 0 else w.shown - w.done
    let s := s.transferSet [(Class.dirtyPrimary, Class.free, n), (Class.dirtyMirror, Class.free, n)]
    let gone := (s.flow.ops.filter fun o => o.slot == some w.num).map (·.id)
    let s := s.modFlow fun f => { f with ops := f.ops.filter fun o => o.slot != some w.num }
    let s := s.modCip fun c => { c with queue := c.queue.filter fun q => !gone.contains q.op }
    if w.completed || w.orphan then s.freeSlot w.num else s.completeSlot w.num Nvme.sanitizeInProgress 0

/-- Step 2 of R399. -/
def State.sanCommon (s : State) : State :=
  let s := (s.flow.slots.filter Slot.liveWrite).foldl (fun s w => if (s.slot w.num).isSome then s.forgetWrite w else s) s
  let s := s.dropClean fun _ => true
  let s := (s.modKeeper fun k => { k with saves := [] }).savePresent
  let zones := List.range s.zoneTotal
  let s := zones.foldl (fun s z => s.abandonRewrite z) s
  let s := zones.foldl (fun s z => s.walker (.genBump z)) s
  let s := (zones.filter fun z => s.freshState z == .cache).foldl (fun s z => s.walker (.desc z 0 (s.zdesc z).state 0)) s
  let s := (s.modStitch fun x => { x with leaves := [], cacheLog := [], snapshots := [] }).mapUsage
  let s := (s.modTir fun t => { t with injected := [] }).modFlow fun f => { f with accept := [], wpos := [] }
  (s.modDarn fun d => { d with unreadable := [], priority := [] }).unreadRegs

/-- The zones that a block erase covers, in ascending order (R399, step 3): every zone but the system places from 7 on. -/
def State.eraseZones (s : State) : List Nat :=
  let system := (List.range s.zoneTotal).filter fun z => s.freshState z == .system
  (List.range s.zoneTotal).filter fun z => !(system.drop 7).contains z

/-- Every track of a zone is written with DC erase current: what lay there is gone, with the checkpoints and the journal of a system
place (R248, R399). -/
def State.eraseZone (s : State) (z : Nat) : State :=
  let place := ((List.range s.zoneTotal).filter fun q => s.freshState q == .system).findIdx? (· == z)
  s.modStitch fun t =>
    { t with media := t.media.filter fun e => s.zoneOfPsa e.1 != some z, torn := t.torn.filter fun p => s.zoneOfPsa p != some z,
             checkpoints := if place == some 0 || place == some 1 then [] else t.checkpoints,
             journal := match place with | some k => if 2 ≤ k ∧ k ≤ 5 then [] else t.journal | none => t.journal }

/-- The pattern of a pass: the last pass writes OVRPAT, and with OIPBP each pass the inverse of the next (R399). -/
def sanWord (cdw10 pattern pass : Nat) : Nat :=
  if sanInverts cdw10 && (sanPasses cdw10 - 1 - pass) % 2 == 1 then 2 ^ 32 - 1 - pattern % 2 ^ 32 else pattern

/-- The logical sector that an overwrite writes at a DLA. -/
def State.overwriteSector (s : State) (nsid d word : Nat) : MediaSector :=
  let z := d / zoneSectors
  let data : List Byte := (List.range 1024).flatMap fun _ => leBytes 4 word
  { dla := d, nsid := nsid, wcount := (s.zdesc z).wcount, gen := (s.zdesc z).gen, pi := if s.lbaf nsid = 1 then ownGuard data else [],
    auth := [], data := data, parity := false }

/-- The namespaces' zones in order, with the logical sectors of each (R399, step 4). -/
def State.overwriteZones (s : State) : List (Nat × Nat × Nat) :=
  s.pattern.active.host.namespaces.flatMap fun n =>
    n.zones.map fun z => (n.nsid, z, min zoneSectors (n.capacity - (z - n.firstZone) * zoneSectors))

/-- Write operations over the logical sectors of a zone: the ordinary write path with verify. -/
def State.overwriteZone (s : State) (nsid z n word : Nat) : State :=
  let l := (List.range n).map fun i => (z * zoneSectors + i, if s.isSequential z then 0 else s.layoutPsa (z * zoneSectors + i))
  (chunkSectors l []).foldl (fun s r =>
    let d := (r.headD (0, 0)).1
    s.addOp { MediaOp.blank with
      act := (s.zoneHome z).1, kind := .write, purpose := .overwrite, dla := d, psa := (r.headD (0, 0)).2, count := r.length,
      places := if s.isSequential z then [] else r.map (·.2), dlas := r.map (·.1), mode := .verify, zoneGen := (s.zdesc z).gen,
      payload := r.map fun p => s.overwriteSector nsid p.1 word }) s

/-- Writes of an overwrite that have not ended. -/
def State.overwrites (s : State) : Bool :=
  s.flow.ops.any fun o => o.kind == .write && o.slot.isNone && (o.purpose == .overwrite || o.purpose == .restitch)

/-- A sequential zone that has been overwritten whole is Full (R258). -/
def State.overwritten (s : State) (z : Nat) : State :=
  if !s.isSequential z then s
  else
    let pos := s.writePos z
    (s.walker (.desc z pos.1 .full (pos.1 - pos.2))).dropAccept z

/-- Step 4 of R399, one zone at a time: the zone before has been verified whole, the next one is written; a further pass over a
sequential zone begins a new generation of it. -/
def State.sanOverwrite (s : State) (cdw10 pattern : Nat) : State :=
  let zones := s.overwriteZones
  let k := s.tir.sanitizeZone
  let pass := s.tir.sanitizePass
  let s := match zones[k - 1]? with
    | some x => if k = 0 then s else s.overwritten x.2.1
    | none => s
  match zones[k]? with
  | some (nsid, z, n) =>
    let s := if pass = 0 || !s.isSequential z then s else s.renewZone z
    (s.overwriteZone nsid z n (sanWord cdw10 pattern pass)).modTir fun t => { t with sanitizeZone := k + 1 }
  | none =>
    if pass + 1 < sanPasses cdw10 then s.modTir fun t => { t with sanitizeZone := 0, sanitizePass := pass + 1 } else s.sanStep 5

/-- Step 3 of R399, one zone at a time, the last finished one recorded. -/
def State.sanErase (s : State) : State :=
  match s.eraseZones[s.tir.sanitizeZone]? with
  | some z => (s.eraseZone z).modTir fun t => { t with sanitizeZone := t.sanitizeZone + 1 }
  | none => s.sanStep 5

/-- Step 5 of R399, after crypto erase and block erase. -/
def State.sanEnd (s : State) (cdw10 : Nat) : State :=
  let f := if sanNoDeallocate cdw10 then (4, 11) else (2, 13)
  s.pattern.active.host.namespaces.foldl (fun s n =>
    n.zones.foldl (fun s z =>
      let s := s.emptyZone z
      if n.type = 1 then s else s.walker (.flags (z * zoneSectors) zoneSectors f.1 f.2 (s.genSoon z) none)) s) s

/-- SANITIZE_STEP_DONE (R399): the step recorded, or the zone of it in hand, has been carried out; the next one is recorded, or the
sanitize ends. A step is not done while the walker holds requests of it, nor a zone of step 4 while a write of it has not been
verified. -/
def execSanitizeStepDone (s : State) : Host.Outcome State Fault Refusal :=
  match s.host.sanitize with
  | none => .next s
  | some (d, pattern) =>
    let a := sanAct d
    if s.walkerHolds then .next s
    else match s.tir.sanitizeStep with
    | 1 => .next (s.keyChange.sanStep 2)
    | 2 => .next (s.sanCommon.sanStep (if a = 2 then 3 else if a = 3 then 4 else 5))
    | 3 => .next s.sanErase
    | 4 => if s.overwrites then .next s else .next (s.sanOverwrite d pattern)
    | _ =>
      let s := if a = 3 then s else s.sanEnd d
      let s := (s.sanStep 0).modHost fun h => { h with sanitize := none, sanitizeDone := some d }
      .next ((s.pattern.active.host.namespaces.map (·.nsid)).foldl State.namespaceNotice s)

end Sys2Proof.Machine
end

