-- ==== Sys2Proof/Machine/Sideband.lean ====
section
/-!
DEFINITION. Sys2Proof/Machine/Sideband.lean: the management sideband (R292 to R294): MCTP messages, the basic management
command, NVMe-MI commands and the admin commands it carries; and NVMe-MI Send and Receive (R269). The layouts of the NVMe-MI
responses are PRESUMED (assumption log 13).
-/

namespace Sys2Proof.Machine

/-- A message of the device on the sideband, kept as the last response. -/
def State.answerSideband (s : State) (bytes : List Byte) : State :=
  (s.modHost fun h => { h with sidebandReply := bytes }).send (.sideband bytes)

/-! ### MCTP (R292, R293) -/

/-- MCTP_MESSAGE (R293): a message type that the transport does not accept is dropped and counted. The PCIe ports carry SPDM
only (R292). A message on the sideband shows which of I3C and SMBus the bus runs; SIDEBAND function 1 answers SMBus only (R71). -/
def execMctpMessage (transport type : Nat) (s : State) : Host.Outcome State Fault Refusal :=
  let sideband := transport == 0 || transport == 3
  let ok := type == 0x05 || (sideband && (type == 0x00 || type == 0x04))
  let up := if sideband then s.sidebandRuns && !(transport == 3 && s.fld F.SYS_BALL_FUNC_SIDEBAND_FN == 1) else s.mctpRuns
  if 3 < transport || !up then .next s
  else
    let s := if sideband then s.setBit F.HIF_SB_STATUS_I3C (transport == 3) else s
    .next (if ok then s else s.count F.HIF_SB_STATUS_DROPPED)

/-- SET_ENDPOINT_ID (R292): a bus owner sets the endpoint ID. -/
def execSetEndpointId (eid : Nat) (s : State) : Host.Outcome State Fault Refusal :=
  if s.sidebandRuns then .next (s.setFld F.HIF_SB_STATUS_EID eid) else .next s

/-- NVME_MI_BASIC (R292): the block read at address 0x6A. -/
def execNvmeMiBasic (s : State) : Host.Outcome State Fault Refusal :=
  if !s.sidebandRuns then .next s
  else
    let r := s.freeFields 8 [(0, leBytes 1 6), (2, leBytes 1 (255 - s.host.smart)), (4, leBytes 1 s.percentUsed)]
    .next (r.2.answerSideband r.1)

/-! ### NVMe-MI commands (R294) -/

/-- The admin opcodes that the sideband carries. -/
def miOpcodes : List Nat := [0x02, 0x06, 0x09, 0x0A, 0x10, 0x11]

/-- NVMe-MI response status: success, invalid opcode, invalid parameter. -/
def miSuccess : Byte := 0x00
def miInvalidOpcode : Byte := 0x03
def miInvalidParameter : Byte := 0x04

/-- The response to an NVMe-MI command that no queue carries. -/
def State.miAnswer (s : State) (c : MiCommand) : List Byte × State :=
  match c with
  | .readDataStructure => let r := s.freeFields 32 []; (miSuccess :: r.1, r.2)
  | .subsystemHealth => let r := s.freeFields 8 [(1, leBytes 1 (255 - s.host.smart)), (3, leBytes 1 s.percentUsed)]; (miSuccess :: r.1, r.2)
  | .controllerHealth k =>
    if (s.controller k).isNone then ([miInvalidParameter], s)
    else
      let csts := s.fld (F.HIF_CTRL_RDY_RDY.at k) + 2 * s.fld (F.HIF_CFS_CFS.at k)
      let r := s.freeFields 16 [(0, leBytes 2 k), (2, leBytes 1 csts)]
      (miSuccess :: r.1, r.2)
  | .configGet id => (miSuccess :: leBytes 4 (kgetD id s.host.miConfig 0), s)
  | .configSet id v => ([miSuccess], s.modHost fun h => { h with miConfig := kput id (v % 2 ^ 32) h.miConfig })
  | .vpdRead => (miSuccess :: Config.vpd, s)
  | .admin _ _ _ => ([miInvalidOpcode], s)

/-- A slot for an admin command that the sideband carries to a PF controller. -/
def State.sidebandSlot (s : State) (q : Sqe) (c : Nat) (payload : List Byte) : State :=
  match s.poolFor c false with
  | none => s
  | some pool =>
    let x := { s.newSlot c (s.sqRing c 0) s.freeNumber q pool false false with sideband := true, data := [payload] }
    let s := s.modHost fun h => { h with sidebandReply := [] }
    let s := s.modFlow fun f => { f with slots := f.slots ++ [x], nextSeq := f.nextSeq + 1 }
    s.transfer Class.slotFree Class.slotHeld 1

/-- NVME_MI_COMMAND (R294): answered at once, or for an admin command taken into a slot, whose completion is the response. -/
def execNvmeMiCommand (c : MiCommand) (s : State) : Host.Outcome State Fault Refusal :=
  if !s.sidebandRuns then .next s
  else
    match c with
    | .admin q k payload =>
      if !isPf k || (s.controller k).isNone then .next (s.answerSideband [miInvalidParameter])
      else if !miOpcodes.contains q.opcode then .next (s.answerSideband [miInvalidOpcode])
      else .next (s.sidebandSlot q k payload)
    | c => let r := s.miAnswer c; .next (r.2.answerSideband r.1)

/-- NVME_MI_SEND (R269): an NVMe-MI command of R294; its response waits for NVMe-MI Receive. -/
def execNvmeMiSend (n : Nat) (c : MiCommand) (s : State) : Host.Outcome State Fault Refusal :=
  match s.freshAdmin n 0x1D with
  | none => .next s
  | some _ =>
    let r := s.miAnswer c
    .next ((r.2.modHost fun h => { h with miReply := r.1 }).completeSlot n 0 0)

/-- NVME_MI_RECEIVE (R269): the response of the last NVMe-MI Send. -/
def execNvmeMiReceive (n : Nat) (s : State) : Host.Outcome State Fault Refusal :=
  match s.freshAdmin n 0x1E with
  | none => .next s
  | some x => .next ((s.sendBytes x s.host.miReply).completeSlot n 0 0)

end Sys2Proof.Machine
end

