-- ==== Sys2Proof/Machine/Snag.lean ====
section
/-!
DEFINITION. Sys2Proof/Machine/Snag.lean: the Snag unit's registers and its one-injection points (R489 to R494), debug through
DBG, JTAG and the UART (R496 to R498).
-/

namespace Sys2Proof.Machine

/-! ### Arming (R489, R490) -/

/-- A write of SNG_CTRL.ARM. -/
def State.snagArm (s : State) : State :=
  if s.grants &&& 9 = 0 then s.flag F.SNG_EV_ARM_REFUSED
  else if s.on F.SNG_STATUS_ARMED then s
  else
    let s := ((s.flag F.SNG_STATUS_ARMED).flag F.TIR_STATUS_SNAG_ARMED).modSnag fun u => { u with armedBy := s.grants &&& 9 }
    s.event 27 1 4 0 0

/-- SNG_ARM (R489). -/
def execSngArm (s : State) : Host.Outcome State Fault Refusal := .next s.snagArm

/-- SNG_DISARM (R490). -/
def execSngDisarm (s : State) : Host.Outcome State Fault Refusal := .next s.snagDisarm

/-! ### Injectors (R491, R492, R494) -/

/-- A row of the table of R492 allows the point's instance, action, parameter and address. -/
def snagLegal (point inst action param addr : Nat) : Bool :=
  match point with
  | 1 => inst % 128 ≤ 11 && inst < 256 && action ≤ 2 && param == 0 && addr == 0
  | 2 => inst ≤ 1 && action ≤ 1 && param == 0 && addr == 0
  | 3 => inst % 128 ≤ 1 && inst < 256 && action ≤ 2 && (action != 2 || param != 0) && addr == 0
  | 4 => inst ≤ 1 && action ≤ 2 && (action != 2 || param != 0)
  | 5 => inst ≤ 4 && action ≤ 3 && (action != 1 || (1 ≤ param && param ≤ 8)) && addr == 0
  | 6 => inst ≤ 2 && action == 0 && param == 0 && addr == 0
  | 7 => inst ≤ 5 && action == 0 && param == 0 && addr == 0
  | 8 => inst ≤ 1 && action == 0 && param == 0 && addr == 0
  | 9 => inst == 0 && action == 0 && param == 0 && addr == 0
  | 10 => inst ≤ 22 && action == 0 && param == 0 && addr == 0
  | _ => false

/-- The state with injector n changed. -/
def State.modInjector (s : State) (n : Nat) (f : Injector → Injector) : State :=
  (s.modSnag fun u => { u with injectors := updAt n f u.injectors }).snagStatus

/-- Bits flipped in DRAM from a bit address on: a bit flipped twice is as it was. -/
def State.flipBits (s : State) (die bit n : Nat) : State :=
  s.modProt fun p =>
    { p with flipped := (List.range n).foldl (fun l i =>
        let b := (die, bit + i)
        if l.contains b then l.filter (· != b) else l ++ [b]) p.flipped }

/-- The fault of a point that injects once for each GO. -/
def State.injectOnce (s : State) (n : Nat) : State :=
  let inst := s.fld (F.SNG_INJ_TARGET_INSTANCE n)
  let point := s.fld (F.SNG_INJ_CFG_POINT n)
  let action := s.fld (F.SNG_INJ_CFG_ACTION n)
  let running := ((s.snag.injectors.getD n { running := false, held := false, seen := 0, lfsr := 1 }).running)
  let s := s.inject n
  let still := ((s.snag.injectors.getD n { running := false, held := false, seen := 0, lfsr := 1 }).running)
  let s := if running && still then s.flag F.SNG_EV_INJ_DONE else s
  let s := s.modInjector n fun i => { i with running := false, held := false }
  match point with
  | 4 =>
    s.flipBits inst (8 * s.fld (F.SNG_INJ_ADDR_ADDR n))
      (if action = 0 then 1 else if action = 1 then 2 else s.fld (F.SNG_INJ_TARGET_PARAM n))
  | 7 => s.lockstepFault inst
  | 9 => s.simulateAlarm
  | _ => s

/-- The resource that takes over from point 0x06 or 0x07 stands ready (R494). -/
def State.resourceReady (s : State) (point : Nat) : Bool :=
  if point = 7 then s.pairState 5 == 3 else s.fld (F.NDL_STATUS_ROLE 2) == 2

/-- A GO to injector n with a word of its CFG register. -/
def State.injectorGo (s : State) (n : Nat) (cfg : Word) : State :=
  let s := (s.setFld (F.SNG_INJ_CFG_POINT n) (getBits cfg 0 8)).setFld (F.SNG_INJ_CFG_TIMING n) (getBits cfg 8 2)
  let s := (s.setFld (F.SNG_INJ_CFG_ACTION n) (getBits cfg 10 4)).setFld (F.SNG_INJ_CFG_FORCE n) (getBits cfg 14 1)
  let s := s.setFld (F.SNG_INJ_CFG_REPLAY n) (getBits cfg 15 1)
  let point := getBits cfg 0 8
  let ok := snagLegal point (s.fld (F.SNG_INJ_TARGET_INSTANCE n)) (getBits cfg 10 4) (s.fld (F.SNG_INJ_TARGET_PARAM n))
    (s.fld (F.SNG_INJ_ADDR_ADDR n)) && getBits cfg 8 2 != 3
  if !s.on F.SNG_STATUS_ARMED || !ok then s.flag F.SNG_EV_INJ_REFUSED
  else
    let s := s.setFld (F.SNG_INJ_COUNT_DONE n) 0
    let seed := s.reg R.SNG_SEED
    let hold := point == 7 && !s.resourceReady 7 && getBits cfg 14 1 == 0
    let s := s.modInjector n fun _ => { running := true, held := hold, seen := 0, lfsr := seed }
    if hold then s
    else if point = 4 ∨ point = 7 ∨ point = 9 then s.injectOnce n else s

/-- SNAG_INJECTOR_GO (R491). -/
def execSnagInjectorGo (n : Nat) (cfg : Word) (s : State) : Host.Outcome State Fault Refusal :=
  if 7 < n then .next s else .next (s.injectorGo n cfg)

/-- SNAG_HELD_RELEASE (R494): the resource is STANDBY again; LOCKSTEP injects at once, OVERRUN at the next Row. -/
def execSnagHeldRelease (n : Nat) (s : State) : Host.Outcome State Fault Refusal :=
  let held := (s.snag.injectors.getD n { running := false, held := false, seen := 0, lfsr := 1 }).held
  let point := s.fld (F.SNG_INJ_CFG_POINT n)
  if !held || !s.resourceReady point then .next s
  else
    let s := s.modInjector n fun i => { i with held := false }
    .next (if point = 7 then s.injectOnce n else s)

/-! ### Debug access (R497) -/

/-- A grant for halting debug of pairs: CORE_DEBUG or FA; for Needles: FA. -/
def State.coreDebug (s : State) : Bool := s.grants.testBit 2 || s.grants.testBit 3
def State.faDebug (s : State) : Bool := s.grants.testBit 3

/-- A request that is not allowed. -/
def State.debugRefused (s : State) : State := s.flag F.DBG_EV_REFUSED

/-- A write of DBG_CTRL with WARM: acted on only with the key. -/
def State.debugWarm (s : State) (key : Nat) : State :=
  if key ≠ 0xA55A || !s.warmAllowed then s
  else if !s.coreDebug then s.debugRefused
  else (s.event 28 3 4 0 0).warmStart 4 15

/-- DBG_WARM_RESET (R497). -/
def execDbgWarmReset (key : Nat) (s : State) : Host.Outcome State Fault Refusal := .next (s.debugWarm key)

/-- A Needle may halt: STANDBY, DISABLED or OFF. -/
def State.needleMayHalt (s : State) (n : Nat) : Bool :=
  let r := s.fld (F.NDL_STATUS_ROLE n)
  r == 2 || r == 6 || r == 0

/-- A write of DBG_HALT: a write that asks for a halt that is not allowed changes nothing. -/
def State.debugHalt (s : State) (pairs needles : Nat) : State :=
  let newPairs := (List.range 6).filter fun p => pairs.testBit p && !(s.pair p).halted
  let newNeedles := (List.range 3).filter fun n => needles.testBit n && !(s.needle n).halted
  let oldPairs := (List.range 6).filter fun p => !pairs.testBit p && (s.pair p).halted
  let oldNeedles := (List.range 3).filter fun n => !needles.testBit n && (s.needle n).halted
  if (!newPairs.isEmpty && !s.coreDebug) || (!newNeedles.isEmpty && (!s.faDebug || !newNeedles.all s.needleMayHalt)) then s.debugRefused
  else
    let s := (s.setFld F.DBG_HALT_PAIRS pairs).setFld F.DBG_HALT_NEEDLES needles
    let s := (List.range 6).foldl (fun s p => s.haltPair p (pairs.testBit p)) s
    let s := (List.range 3).foldl (fun s n => s.modNeedle n fun y => { y with halted := needles.testBit n }) s
    let mask := pairs % 64 + 64 * (needles % 8)
    let s := if newPairs.isEmpty && newNeedles.isEmpty then s else s.event 28 1 4 mask 0
    if oldPairs.isEmpty && oldNeedles.isEmpty then s else s.event 28 2 2 mask 0

/-- DBG_HALT (R497). -/
def execDbgHalt (pairs needles : Nat) (s : State) : Host.Outcome State Fault Refusal := .next (s.debugHalt pairs needles)

/-! ### JTAG (R496) -/

/-- A TAP instruction in force, and the data register that was shifted out. -/
def State.tap (s : State) (code : Nat) (tdo : List Word) : State := s.modDbg fun d => { d with tap := code, tdo := tdo }

/-- JTAG_BYPASS: the bit shifted in comes out one clock later. -/
def execJtagBypass (tdi : Bool) (s : State) : Host.Outcome State Fault Refusal := .next (s.tap 0 [if tdi then 1 else 0])

/-- The IDCODE. -/
def Fuses.idcode (f : Fuses) : Nat := f.stepping % 16 * 2 ^ 28 + 0xB008 * 2 ^ 12 + f.manufacturer % 2 ^ 11 * 2 + 1

/-- JTAG_IDCODE (R496). -/
def execJtagIdcode (s : State) : Host.Outcome State Fault Refusal := .next (s.tap 1 [word32 s.fuse.idcode])

/-- JTAG_SAMPLE_PRELOAD: the balls are captured, and levels are preloaded. -/
def execJtagSamplePreload (captured preload : List Bool) (s : State) : Host.Outcome State Fault Refusal :=
  .next ((s.tap 2 []).modDbg fun d => { d with scanCaptured := captured, scanDriven := preload })

/-- JTAG_EXTEST: the balls carry what was preloaded, and are captured. -/
def execJtagExtest (captured : List Bool) (s : State) : Host.Outcome State Fault Refusal :=
  .next ((s.tap 3 []).modDbg fun d => { d with scanCaptured := captured })

/-- JTAG_TMBX: Tirium's JTAG mailbox carries CHALLENGE, RESPONSE and REVOKE; every other opcode returns 0x03. The key and the
signature of a RESPONSE stand in DRAM at the address of ARG_0 (R405). -/
def execJtagTmbx (opcode tag : Nat) (args : List Byte) (s : State) : Host.Outcome State Fault Refusal :=
  let arg0 := leField args 0 4
  let s := match opcode with
    | 7 => s.mailbox 4 tag 7 (State.giveChallenge 4 arg0)
    | 8 => s.mailbox 4 tag 8 (State.takeResponse 4 (memBytes arg0 64 s.dram) (memBytes (arg0 + 64) 64 s.dram))
    | 9 => s.mailbox 4 tag 9 (State.withdrawGrants arg0)
    | _ => s
  let answer : List Word :=
    if opcode = 7 ∨ opcode = 8 ∨ opcode = 9 then
      match s.tir.last.getD 4 none with
      | some d => word32 d.result :: d.response
      | none => []
    else [3]
  .next (s.tap 4 answer)

/-- JTAG_DBGAP (R496, R497): the port is reached under its grant; what a core's own registers hold is a free value. -/
def execJtagDbgap (unit : Nat) (write : Bool) (s : State) : Host.Outcome State Fault Refusal :=
  let ok :=
    if unit ≤ 5 then s.coreDebug
    else if unit ≤ 8 then s.faDebug && s.needleMayHalt (unit - 6)
    else s.faDebug && (!write || s.fld F.SPN_STATUS_STATE == 0)
  if 9 < unit then .next s
  else if !ok then .next ((s.tap 5 []).debugRefused)
  else if write then .next (s.tap 5 [])
  else
    let (v, s) := s.draw
    .next (s.tap 5 [word32 v])

/-! ### UART (R498) -/

/-- The UART's balls: the GPIO group in function 1. -/
def State.uartPins (s : State) : Bool := s.fld F.SYS_BALL_FUNC_GPIO_FN == 1

/-- DBG_UART_STATUS and DBG_UART_RXD follow the FIFOs. -/
def State.uartRegs (s : State) : State :=
  let s := (s.setFld F.DBG_UART_STATUS_TX_LEVEL s.dbg.txFifo.length).setFld F.DBG_UART_STATUS_RX_LEVEL s.dbg.rxFifo.length
  match s.dbg.rxFifo with
  | b :: _ => (s.setFld F.DBG_UART_RXD_DATA b.toNat).flag F.DBG_UART_RXD_VALID
  | [] => (s.clr F.DBG_UART_RXD_DATA).clr F.DBG_UART_RXD_VALID

/-- A write of DBG_UART_TXD. -/
def State.uartWrite (s : State) (b : Byte) : State :=
  let s := s.setFld F.DBG_UART_TXD_DATA b.toNat
  if !s.uartPins then s
  else if 16 ≤ s.dbg.txFifo.length then s.flag F.DBG_UART_STATUS_TX_DROP
  else (s.modDbg fun d => { d with txFifo := d.txFifo ++ [b] }).uartRegs

/-- UART_TX_WRITE (R498). -/
def execUartTxWrite (b : Byte) (s : State) : Host.Outcome State Fault Refusal := .next (s.uartWrite b)

/-- UART_TX_BYTE_SENT (R498): the oldest byte has gone out. -/
def execUartTxByteSent (s : State) : Host.Outcome State Fault Refusal :=
  if s.uartPins && s.on F.DBG_UART_CTRL_EN then .next (s.modDbg fun d => { d with txFifo := d.txFifo.drop 1 }).uartRegs else .next s

/-- UART_RX_BYTE (R498). -/
def execUartRxByte (b : Byte) (stop : Bool) (s : State) : Host.Outcome State Fault Refusal :=
  if !s.uartPins || !s.on F.DBG_UART_CTRL_EN then .next s
  else if 16 ≤ s.dbg.rxFifo.length then .next (s.flag F.DBG_UART_STATUS_RX_OVERRUN)
  else
    let s := (s.modDbg fun d => { d with rxFifo := d.rxFifo ++ [b] }).uartRegs
    .next (if stop then s else s.flag F.DBG_UART_STATUS_FRAME_ERR)

/-- A write of DBG_UART_CTRL.RX_POP. -/
def State.uartPop (s : State) : State := (s.modDbg fun d => { d with rxFifo := d.rxFifo.drop 1 }).uartRegs

/-- UART_RX_POP (R498). -/
def execUartRxPop (s : State) : Host.Outcome State Fault Refusal := .next s.uartPop

end Sys2Proof.Machine
end

