-- ==== Sys2Proof/Machine/RegAccess.lean ====
section
/-!
DEFINITION. Sys2Proof/Machine/RegAccess.lean: register reads and writes by a processor or by debug (R5 to R10, R26, R501 to
R503): access codes, the Pattern lock, ranges, what a strobe or a field with an effect does, what a read of a field that a
unit computes shows; and the release of the activity output (R79).
-/

namespace Sys2Proof.Machine

/-! ### Where an access goes (R9, R501) -/

/-- The address lies in a block window. -/
def inWindow (addr : Nat) : Bool := !(windowSpecs (foldWindow addr / 0x10000)).isEmpty

/-- The access lies in the logic-die SRAM. -/
def inSram (addr size : Nat) : Bool := 0x10000000 ≤ addr && addr + size ≤ 0x13000000

/-- The access lies in the boot ROM. -/
def inRom (addr size : Nat) : Bool := addr + size ≤ 0x40000

/-- An aligned 32-bit word. -/
def wordAccess (addr size : Nat) : Bool := addr % 4 == 0 && size == 4

/-- The answer to an access. -/
def State.busAnswer (s : State) (proc value : Nat) (error : Bool) : State :=
  s.modBus fun _ => { proc := proc, value := value, error := error }

/-- A processor that is fenced or halted issues nothing (R14, R497). -/
def State.silent (s : State) (proc : Nat) : Bool := proc ≤ 5 && (s.pairState proc == 2 || (s.pair proc).halted)

/-- The state that a command leaves. -/
def after (o : Host.Outcome State Fault Refusal) (s : State) : State :=
  match o with
  | .next t => t
  | _ => s

/-! ### How a field takes a write (R8, R10, R502, R503) -/

/-- A number as a field stores it. -/
def Handling.store (h : Handling) (old v : Nat) : Nat :=
  match h with
  | .plain => v
  | .clamp l g => max l (min g v)
  | .ignoreBelow l => if v < l then old else v
  | .readsZero => 0

/-- What a field holds after a write; a strobe holds nothing. A bit that the hardware sets in the clock cycle of its clear stays
set (R10). -/
def FieldSpec.written (f : FieldSpec) (locked : Bool) (old v raised : Nat) : Nat :=
  match f.access with
  | .ro | .ros | .w1s => old
  | .w1c => (old - (old &&& v)) ||| raised
  | .w1sHeld => old ||| v
  | .rw => f.handling.store old v
  | .rwl => if locked then old else f.handling.store old v

/-- What a register holds after a write. -/
def RegSpec.written (r : RegSpec) (locked : Bool) (old v raised : Word) : Word :=
  r.fields.foldl (fun w f =>
    let part (x : Word) : Nat := getBits x f.lo f.width
    setBits w f.lo f.width (f.written locked (part old) (part v) (part raised))) old

/-- A write after the lock that would change a field under it (R10). -/
def RegSpec.changesLocked (r : RegSpec) (old v : Word) : Bool :=
  r.fields.any fun f => f.access == .rwl && getBits old f.lo f.width != getBits v f.lo f.width

/-! ### Fields with an effect -/

/-- Bit n of a word. -/
def wbit (v : Word) (n : Nat) : Bool := v.getLsbD n

/-- Do something when a bit of the written word is set. -/
def State.strobe (s : State) (v : Word) (n : Nat) (f : State → State) : State := if wbit v n then f s else s

/-- PAT_CTRL: a write with more than one of its bits is ignored as a whole (R66). -/
def State.writePatCtrl (s : State) (v : Word) : State :=
  if getBits v 0 3 = 1 then after (execPatLockCmd s) s
  else if getBits v 0 3 = 2 then after (execPatReload s) s
  else if getBits v 0 3 = 4 then after (execPatCancel s) s
  else s

/-- ACT_CTRL (R188, R189, R195, R201): what each field's change starts. Clearing LINK_EN lets a frame under way end. -/
def State.writeActCtrl (s : State) (a : Nat) (v : Word) : State :=
  let s := (s.setBit (F.ACT_CTRL_WG_INHIBIT a) (wbit v 1)).gate a
  let s := if wbit v 0 == s.on (F.ACT_CTRL_DISABLE a) then s else after (execActDisable a (wbit v 0) s) s
  let s :=
    if wbit v 2 then s.enableLink a
    else if s.on (F.ACT_CTRL_LINK_EN a) then
      (s.clr (F.ACT_CTRL_LINK_EN a)).modAct a fun x => { x with linkOn := x.inFlight.isSome, queue := [], pollDue := false }
    else s
  if getBits v 4 4 = s.fld (F.ACT_CTRL_HEAD_REQ a) then s else after (execHeadRequest a (getBits v 4 4) s) s

/-- ACT_CMD (R192, R202): a write of more than one of LOAD, UNLOAD and ERETRACT is refused with code 6, or with a lower code of LOAD
that applies. -/
def State.writeActCmd (s : State) (a : Nat) (v : Word) : State :=
  if 1 < ([0, 1, 2].filter (wbit v)).length then
    let code := if wbit v 0 then s.loadRefusal a else 0
    s.refuseAct a (if code = 0 then 6 else code)
  else
  let s := s.strobe v 0 fun s => after (execActLoad a s) s
  let s := s.strobe v 1 fun s => after (execActUnload a s) s
  let s := s.strobe v 2 fun s => after (execActEretract a s) s
  s.strobe v 3 fun s => after (execActLinkClear a s) s

/-- The address holds one of the settings of a slice that a write changes only at a sector boundary (R228). -/
def slcSetting (addr : Nat) : Bool :=
  let o := foldWindow addr - R.SLC_CTRL 0
  (0x08 ≤ o && o ≤ 0x1C) || (0x40 ≤ o && o < 0x68) || (0x80 ≤ o && o < 0xC0)

/-- CIP_CTRL (R413, R415, R428). -/
def State.writeCipCtrl (s : State) (v : Word) : State :=
  let s := s.setBit F.CIP_CTRL_HOOK_WE (wbit v 1)
  if wbit v 0 == s.on F.CIP_CTRL_ENABLE then s
  else if wbit v 0 then after (execCipherEnable s) s
  else after (execCipherDisable s) s

/-- CIP_SLOT_CFG.TEST changes only while both banks of a general slot are empty (R416). -/
def State.writeSlotCfg (s : State) (v : Word) : State :=
  let k := s.fld F.CIP_SLOT_SEL_SLOT
  let x := s.keySlot k
  if 112 ≤ k || x.bank0.isSome || x.bank1.isSome then s else s.modKeySlot k fun y => { y with test := wbit v 4 }

/-- CIP_TESTKEY_k: a word of the key, which reads 0. -/
def State.writeTestKey (s : State) (k : Nat) (v : Word) : State :=
  s.modCip fun c => { c with testKey := putAt k v (c.testKey ++ List.replicate (16 - c.testKey.length) 0) }

/-- TIR_MBX_n_CMD with GO (R405): the command of OPCODE with the arguments that ARG_0 to ARG_7 hold. Digests stand in DRAM: that of
COMMIT_MEASUREMENT at ARG_1, the three of PROVISION at ARG_0, the payload of KPIO at ARG_0 with its length in ARG_1. -/
def State.mailboxGo (s : State) (n : Nat) (v : Word) : State :=
  let op := getBits v 0 8
  let tag := getBits v 8 23
  let arg (k : Nat) : Nat := (s.reg (R.TIR_MBX_ARG n k)).toNat
  let digest (a : Nat) : Digest := ofDigestBytes (memBytes a 32 s.dram)
  let o : Host.Outcome State Fault Refusal :=
    match op with
    | 1 => execVerifyImage n tag (arg 0) (arg 1) s
    | 2 => execCommitMeasurement n tag (arg 0) (digest (arg 1)) s
    | 3 => execLoadKey n tag (arg 0) (arg 1) (arg 2) (arg 3) (if s.isKpio (arg 1) then some (arg 4) else none) s
    | 4 => execNsKeyNew n tag (arg 0) s
    | 5 => execKpio n tag (Config.kpioPayload (memBytes (arg 0) (arg 1) s.dram)) s
    | 6 => execRandom n tag (arg 0) s
    | 7 => execTirChallenge n tag (arg 0) s
    | 8 => execTirResponse n tag (memBytes (arg 0) 64 s.dram) (memBytes (arg 0 + 64) 64 s.dram) s
    | 9 => execRevoke n tag (arg 0) s
    | 10 => execSvnAdvance n tag (arg 0) (arg 1 + 2 ^ 32 * arg 2) s
    | 11 => execProvision n tag (digest (arg 0)) (digest (arg 0 + 32)) (digest (arg 0 + 64)) true s
    | 12 => execGenIdentity n tag s
    | _ => execTirUnknownOpcode n tag op s
  after o s

/-- A register whose write has an effect beyond its fields: what the write does in place of storing the word. Its strobes do
what the rows of those commands do. -/
def State.effectOf (s : State) (proc seq addr : Nat) (v : Word) : Option State :=
  let w := foldWindow addr
  let i := addr / 0x10000 % 16
  let a := if addr = w then 0 else 1
  if addr = R.PAT_CTRL then some (s.writePatCtrl v)
  else if addr = R.SYS_RST_CTRL then
    some ((s.strobe v 0 fun s => s.warmByFirmware (getBits v 16 16)).strobe v 1 State.legacyRelease)
  else if addr = R.SYS_WDOG then some (s.watchdogConfig (getBits v 0 16) (getBits v 16 5))
  else if addr = R.SYS_WDOG_KICK then some (s.watchdogKick (getBits v 0 5))
  else if addr = R.SYS_CASTON then some (s.strobe v 4 State.hostReady)
  else if addr = R.SYS_GPIO_OUT ∨ addr = R.SYS_GPIO_OE then
    -- a bit whose ball is not in a GPIO function is ignored (R75)
    some (s.setReg addr ((s.reg addr &&& ~~~(BitVec.ofNat 32 s.gpioMask)) ||| (v &&& BitVec.ofNat 32 s.gpioMask)))
  else if addr = R.SPN_CMD then some (s.spnCommand (getBits v 0 4))
  else if w = R.NDL_MBX_PUSH 0 then some (s.strobe v 0 fun s => after (execNdlMbxPush ⟨i, proc, seq⟩ s) s)
  else if w = R.ACT_CTRL 0 then some (s.writeActCtrl a v)
  else if w = R.ACT_CMD 0 then some (s.writeActCmd a v)
  else if s.pastHeads addr then some s
  else if w = R.SLC_PIN_LO 0 then some (after (execSlcUnpin i v.toNat 0 s) s)
  else if w = R.SLC_PIN_HI 0 then some (after (execSlcUnpin i 0 v.toNat s) s)
  else if addr = R.HIF_CFS then some (s.setCfs v.toNat false)
  else if addr = R.ORD_LEDGER_CTRL then
    some ((s.strobe v 0 fun s => after (execLedgerRecount s) s).strobe v 1 fun s => after (execLedgerRelease s) s)
  else if addr = R.UPD_CTRL then some ((s.strobe v 0 State.updAbort).strobe v 1 State.updFrog)
  else if addr = R.UPD_HANDOVER then
    some (((s.strobe v 0 State.spareReady).strobe v 1 State.handoverQuiesced).strobe v 2 State.handoverTaken)
  else if wbit v 31 && (List.range 4).any (fun n => addr == R.TIR_MBX_CMD n) then
    some (s.mailboxGo ((addr - R.TIR_MBX_CMD 0) / (R.TIR_MBX_CMD 1 - R.TIR_MBX_CMD 0)) v)
  else if addr = R.CIP_CTRL then some (s.writeCipCtrl v)
  else if addr = R.CIP_HOOK_DATA then some (after (execHookDataWrite v s) s)
  else if addr = R.CIP_HOOK_BIND then some (after (execHookBindWrite v s) s)
  else if addr = R.CIP_SLOT_CFG then some (s.writeSlotCfg v)
  else if addr = R.CIP_SLOT_CMD then some (s.strobe v 0 fun s => after (execKeySlotErase s) s)
  else if R.CIP_TESTKEY 0 ≤ addr ∧ addr ≤ R.CIP_TESTKEY 15 then some (s.writeTestKey ((addr - R.CIP_TESTKEY 0) / 4) v)
  else if addr = R.SNG_CTRL then some ((s.strobe v 0 State.snagArm).strobe v 1 State.snagDisarm)
  else if addr = R.DBG_CTRL then some (s.strobe v 0 fun s => s.debugWarm (getBits v 16 16))
  else if addr = R.DBG_HALT then some (s.debugHalt (getBits v 0 6) (getBits v 6 3))
  else if addr = R.DBG_UART_TXD then some (s.uartWrite (BitVec.ofNat 8 (getBits v 0 8)))
  else if slcSetting addr && 0x140 ≤ addr / 0x10000 && addr / 0x10000 ≤ 0x144 && (s.slice i).inFrame then
    some (s.modSlice i fun x =>
      { x with delayed := x.delayed ++ [(addr, ((specAt addr).map fun r => r.written false (s.reg addr) v 0).getD v)] })
  else none

/-- What a register's strobe starts behind the store of its other fields. -/
def State.strobesOf (s : State) (proc addr : Nat) (v : Word) : State :=
  let w := foldWindow addr
  let i := addr / 0x10000 % 16
  let a := if addr = w then 0 else 1
  if w = R.NDL_CTRL 0 then
    if wbit v 17 == s.on (F.NDL_CTRL_DISABLE i) then s else after (execNdlDisable i (wbit v 17) s) s
  else if w = R.ACT_LINK_CMD 0 then s.strobe v 9 fun s => after (execActLinkGo a (getBits v 0 8) (wbit v 8) (getBits v 16 16) s) s
  else if w = R.ACT_MA 0 then s.driveMa a
  else if w = R.SLC_CTRL 0 then
    if wbit v 0 == s.on (F.SLC_CTRL_DISABLE i) then s else after (execSlcDisable i (wbit v 0) s) s
  else if w = R.SLC_RECOV_CMD 0 then
    s.strobe v 31 fun s => s.recoveryGo i (getBits v 8 2) (getBits v 0 6) (getBits v 12 4) (getBits v 16 8)
  else if addr = R.STM_CTRL then s.strobe v 24 State.startCheckpoint
  else if addr = R.HIF_AEN_POST then s.strobe v 31 fun s => s.aenPost (getBits v 8 3) (getBits v 0 8)
  else if addr = R.ORD_CLAIM_CMD then
    (s.strobe v 8 fun s => after (execClaimOpen proc s) s).strobe v 9 fun s => after (execClaimClose (getBits v 0 6) s) s
  else if addr = R.DRN_REWRITE then
    (s.strobe v 30 fun s => after (execDrnDuePop s) s).strobe v 31 fun s => after (execDrnRewriteGo (getBits v 0 19) s) s
  else if addr = R.CIP_TESTKEY_LOAD then
    s.strobe v 31 fun s => after (execTestkeyLoad (getBits v 0 2) (getBits v 2 2) (getBits v 4 7) s) s
  else if addr = R.CIP_JOB_CTRL then s.strobe v 31 fun s => after (execCipherJob (getBits v 0 7) (getBits v 8 1) s) s
  else if addr = R.GAU_CMD then
    s.strobe v 31 fun s => s.startCalibration (getBits v 0 4) (getBits v 4 3) (getBits v 7 1) (getBits v 8 4)
  else if addr = R.REC_CTRL then s.strobe v 0 fun s => after (execRecClear (getBits v 1 2) s) s
  else if addr = R.REC_ANCHOR_HI then s.strobe v 31 fun s => after (execTimeAnchor (getBits v 0 16) (getBits v 16 8) s) s
  else if addr = R.REC_FW_TYPE then
    s.strobe v 31 fun s => after (execRecFwPost (getBits v 8 6) (getBits v 0 8) (getBits v 16 3) s) s
  else if R.SNG_INJ_CFG 0 ≤ addr ∧ addr ≤ R.SNG_INJ_CFG 7 ∧ addr % 16 = 0 then
    s.strobe v 31 fun s => s.injectorGo ((addr - R.SNG_INJ_CFG 0) / 16) v
  else if addr = R.DBG_UART_CTRL then s.strobe v 17 fun s => s.uartPop
  else s

/-- The word with a field that its command decides put back. -/
def keepDecided (addr : Nat) (old w : Word) : Word :=
  let x := foldWindow addr
  if x = R.NDL_CTRL 0 then setBits w 17 1 (getBits old 17 1)
  else if x = R.SLC_CTRL 0 then setBits w 0 1 (getBits old 0 1)
  else w

/-- A write of a register that the tables give (R10): the lock, each field by its access code, and the strobes. -/
def State.writeReg (s : State) (proc seq addr : Nat) (v raised : Word) : State :=
  match specAt addr with
  | none => s
  | some r =>
    let locked := s.on F.PAT_STATUS_LOCKED
    let old := s.reg addr
    let s := if locked && r.changesLocked old v then s.event 2 1 3 0 addr else s
    match s.effectOf proc seq addr v with
    | some t => t
    | none => (s.setReg addr (keepDecided addr old (r.written locked old v raised))).strobesOf proc addr v

/-- What a write through debug needs (R400, R497): CORE_DEBUG or FA; FA for a Needle and for the spindle engine, whose state
is writable in STOPPED only; Tirium is out of reach. -/
def State.debugMayWrite (s : State) (addr : Nat) : Bool :=
  let w := addr / 0x10000
  if w = 0x0410 then false
  else if 0x0120 ≤ w ∧ w ≤ 0x0122 then s.faDebug
  else if w = 0x0110 then s.faDebug && s.spnState == Spn.stopped
  else s.coreDebug

/-- REGISTER_WRITE (R10): one write of a processor, or of debug in its name. -/
def execRegisterWrite (proc : Nat) (debug : Bool) (addr size : Nat) (w : BusWrite) (s : State) : Host.Outcome State Fault Refusal :=
  if debug && !s.debugMayWrite addr then .next s.debugRefused
  else if !debug && s.silent proc then .next s
  else if inSram addr size then
    let t := if proc ≤ 5 then after (execPairStore proc .sram addr (leBytes size w.value) s) s else s.store .sram addr (leBytes size w.value)
    .next (t.busAnswer proc 0 false)
  else if !inWindow addr || !wordAccess addr size then .next (s.busAnswer proc 0 true)
  else if s.absent addr then .next (s.busAnswer proc 0 false)
  else
    .next ((s.writeReg proc w.seq addr (BitVec.ofNat 32 w.value) (BitVec.ofNat 32 w.raised)).busAnswer proc 0 false)

/-! ### Reads -/

/-- The lower halves whose read latches the register above them (R26). -/
def latchingRegs : List Nat :=
  [R.ROWT_COUNT_LO, R.KEEP_OPTIME_LO, R.STM_JSEQ_LO, R.ORD_LEDGER_ROW_LO, R.ORD_OVL_EPOCH_LO, R.MEM_LAST_ERR_LO, R.TIR_SVN_LO,
   R.CIP_SLOT_USE_LO, R.UPD_SEQ_LO]

/-- The FMT registers that show the selected zone (R260). -/
def State.zoneView (s : State) (addr : Nat) : Nat :=
  let z := s.fld F.FMT_ZONE_SEL_ZONE
  let d := s.zdesc z
  match s.zoneShape z with
  | none => 0
  | some sh =>
    if addr = R.FMT_ZONE_PLACE then packWord [(0, 24, sh.first), (24, 4, sh.head), (28, 1, sh.act)]
    else if addr = R.FMT_ZONE_SHAPE then
      packWord [(0, 11, sh.spt), (11, 11, if sh.sequential then zoneSectors / 64 else 0), (22, 10, sh.tracks)]
    else if addr = R.FMT_ZONE_DESC 0 then d.gen
    else if addr = R.FMT_ZONE_DESC 1 then d.wcount
    else if addr = R.FMT_ZONE_DESC 2 then d.word2
    else 0

/-- The QUE registers that show the selected Skein or ring (R296). -/
def State.queueView (s : State) (addr : Nat) : Nat :=
  let k := s.fld F.QUE_SKEIN_SEL_SKEIN
  let entry := s.pattern.active.host.controllers[k]?
  let sqMax := (entry.map (·.sqMax)).getD 0
  let cqMax := (entry.map (·.cqMax)).getD 0
  let live (base n : Nat) : Nat := (s.host.rings.filter fun r => base ≤ r.num && r.num < base + n).length
  let held := s.flow.slots.filter fun x => x.skein == k
  let r := s.ring (s.fld F.QUE_RING_SEL_RING)
  if addr = R.QUE_SKEIN_SQ then if entry.isSome then packWord [(0, 12, s.sqBase k), (12, 13, sqMax)] else 0
  else if addr = R.QUE_SKEIN_CQ then if entry.isSome then packWord [(0, 12, s.cqBase k - 4096), (12, 13, cqMax)] else 0
  else if addr = R.QUE_SKEIN_LIVE then packWord [(0, 13, live (s.sqBase k) sqMax), (16, 13, live (s.cqBase k) cqMax)]
  else if addr = R.QUE_SKEIN_SLOTS then packWord [(0, 16, held.length), (16, 16, (held.filter (·.urgent)).length)]
  else
    match r with
    | none => 0
    | some r =>
      if addr = R.QUE_RING_STATE then packWord [(0, 16, r.head), (16, 16, r.tail)]
      else packWord [(0, 14, r.size - 1), (14, 1, 1), (15, 2, r.qprio), (17, 12, r.link)]

/-- The CIP registers that show the selected slot (R430). -/
def State.slotView (s : State) (addr : Nat) : Nat :=
  let k := s.fld F.CIP_SLOT_SEL_SLOT
  let x := s.keySlot k
  let b := if x.current = 0 then x.bank0 else x.bank1
  let of (f : Bank → Nat) : Nat := (b.map f).getD 0
  if addr = R.CIP_SLOT_CFG then
    packWord [(0, 2, of (·.alg)), (2, 2, of (·.mode)), (4, 1, if x.test then 1 else 0), (5, 1, if 112 ≤ k then 1 else 0),
      (6, 1, x.current), (7, 1, if x.draining then 1 else 0), (8, 1, if x.exhausted then 1 else 0)]
  else if addr = R.CIP_SLOT_BIND then
    packWord [(0, 19, of (·.zone)), (19, 5, of (·.nsid)), (24, 1, of fun y => if y.keyTag.isSome then 1 else 0)]
  else if addr = R.CIP_SLOT_GEN then of (·.generation)
  else if addr = R.CIP_SLOT_TAG then packWord [(0, 10, of fun y => y.keyTag.getD 0), (16, 16, x.pinnedOld.length)]
  else if addr = R.CIP_SLOT_USE_LO then x.use % 2 ^ 32
  else x.use / 2 ^ 32

/-- The operations of an actuator's window that the tracker holds (R344). -/
def State.heldOps (s : State) (a : Nat) : Nat := ((s.opsAt a .window).filter s.trackerHolds).length

/-- The word that a read shows. -/
def State.peek (s : State) (addr : Nat) : Nat :=
  let window (a : Nat) : Nat :=
    packWord [(0, 14, (s.opsAt a .window).length), (16, 14, ((s.opsAt a .window).filter (·.urgent)).length)]
  if s.absent addr then 0
  else if (R.FMT_ZONE_DESC 0 ≤ addr ∧ addr ≤ R.FMT_ZONE_DESC 3) ∨ addr = R.FMT_ZONE_PLACE ∨ addr = R.FMT_ZONE_SHAPE then s.zoneView addr
  else if addr = R.FMT_TOTALS then s.zoneTotal % 2 ^ 19
  else if addr = R.QUE_SKEIN_SQ ∨ addr = R.QUE_SKEIN_CQ ∨ addr = R.QUE_SKEIN_LIVE ∨ addr = R.QUE_SKEIN_SLOTS ∨
      addr = R.QUE_RING_STATE ∨ addr = R.QUE_RING_CFG then s.queueView addr
  else if addr = R.SCH_WINDOW 0 then window 0
  else if addr = R.SCH_WINDOW 1 then window 1
  else if addr = R.ORD_LEDGER_VAL then (s.flow.ledgerSeen.getD (s.fld F.ORD_LEDGER_SEL_CLASS) 0).toNat % 2 ^ 32
  else if addr = R.ORD_LEDGER_CENSUS then s.flow.censusSeen.getD (s.fld F.ORD_LEDGER_SEL_CLASS) 0 % 2 ^ 32
  else if addr = R.ORD_OVL_STATUS then
    packWord [(0, 16, (s.flow.slots.filter Slot.liveWrite).length), (16, 16, (s.flow.slots.filter Slot.liveRead).length)]
  else if addr = R.ORD_OVL_BLOCKED then packWord [(0, 14, s.heldOps 0), (16, 14, s.heldOps 1)]
  else if addr = R.MEM_REMAP_ENTRY then
    match s.prot.remap[s.fld F.MEM_REMAP_SEL_INDEX]? with
    | some e => packWord [(0, 26, e.1), (26, 1, e.2), (27, 1, 1)]
    | none => 0
  else if addr = R.CIP_SLOT_CFG ∨ addr = R.CIP_SLOT_BIND ∨ addr = R.CIP_SLOT_GEN ∨ addr = R.CIP_SLOT_TAG ∨
      addr = R.CIP_SLOT_USE_LO ∨ addr = R.CIP_SLOT_USE_HI then s.slotView addr
  else if addr = R.UPD_IDLE then s.minLeft % 2 ^ 14
  else if addr = R.REC_COAL_VAL then kgetD (s.fld F.REC_COAL_SEL_SOURCE) s.recorder.coal 0 % 2 ^ 32
  else s.peekBasic addr

/-- The latch key of a processor and a register (R26). -/
def State.latch (s : State) (proc addr value : Nat) : State :=
  s.modRow fun x => { x with latched := (proc, addr, value) :: x.latched.filter fun l => !(l.1 == proc && l.2.1 == addr) }

/-- A register read in a present window (R26): a lower half latches its upper half for the processor, an upper half shows what
that processor latched, a free value where it has latched nothing; the level of a GPIO ball that the BZ8 does not drive is a
reading of the board, a free value. -/
def State.readReg (s : State) (proc addr : Nat) : Nat × State :=
  if addr = R.SYS_GPIO_IN then
    let (v, s) := s.draw
    let open_ := s.gpioUndriven
    let x := s.peek addr
    ((x ^^^ (x &&& open_)) ||| (v &&& open_), s)
  else if latchingRegs.contains addr then (s.peek addr, s.latch proc (addr + 4) (s.peek (addr + 4)))
  else if latchingRegs.contains (addr - 4) then
    match s.row.latched.find? fun l => l.1 == proc && l.2.1 == addr with
    | some l => (l.2.2, s)
    | none =>
      let (v, s) := s.draw
      (v % 2 ^ 32, s)
  else (s.peek addr, s)

/-- REGISTER_READ (R5, R9, R26, R501). What the boot ROM holds is not stated: a free value. -/
def execRegisterRead (proc addr size : Nat) (s : State) : Host.Outcome State Fault Refusal :=
  if s.silent proc then .next s
  else if inSram addr size then .next (s.busAnswer proc (ofLe (memBytes addr size s.sram)) false)
  else if inRom addr size then
    let (v, s) := s.draw
    .next (s.busAnswer proc (v % 256 ^ size) false)
  else if !inWindow addr || !wordAccess addr size then .next (s.busAnswer proc 0 true)
  else if s.absent addr then .next (s.busAnswer proc 0 false)
  else
    let (v, s) := s.readReg proc addr
    .next (s.busAnswer proc v false)

/-! ### The activity output (R79) -/

/-- STAT_ACT_RELEASE (R79): the open-drain output is released. -/
def execStatActRelease (s : State) : Host.Outcome State Fault Refusal :=
  .next (s.modPins fun p => { p with statActN := .hiZ })

end Sys2Proof.Machine
end

