-- ==== Sys2Proof/Machine/Dispatch.lean ====
section
/-!
DEFINITION. Sys2Proof/Machine/Dispatch.lean: one arm per command, each one call of the command's meaning.
-/

namespace Sys2Proof.Machine

/-- What a command does, on everything but the queue. -/
def exec (i : Instr) (s : State) : Host.Outcome State Fault Refusal :=
  match i with
  | .registerWrite proc debug addr size w => Sys2Proof.Machine.execRegisterWrite proc debug addr size w s
  | .lockstepMismatch pair => Sys2Proof.Machine.execLockstepMismatch pair s
  | .pairStore pair space addr bytes => Sys2Proof.Machine.execPairStore pair space addr bytes s
  | .cablePacketReceive segment fromHub packet => Sys2Proof.Machine.execCablePacketReceive segment fromHub packet s
  | .cableFail segment fromHub => Sys2Proof.Machine.execCableFail segment fromHub s
  | .wedgeSample act t obs => Sys2Proof.Machine.execWedgeSample act t obs s
  | .idlePeriodExpiry => Sys2Proof.Machine.execIdlePeriodExpiry s
  | .flywheelBoundary => Sys2Proof.Machine.execFlywheelBoundary s
  | .flywheelMaxReached => Sys2Proof.Machine.execFlywheelMaxReached s
  | .longRowTimeout => Sys2Proof.Machine.execLongRowTimeout s
  | .guardStart => Sys2Proof.Machine.execGuardStart s
  | .ledgerCheck => Sys2Proof.Machine.execLedgerCheck s
  | .writeHoldEnter => Sys2Proof.Machine.execWriteHoldEnter s
  | .pairTakeover => Sys2Proof.Machine.execPairTakeover s
  | .logicDieResetEnd => Sys2Proof.Machine.execLogicDieResetEnd s
  | .vin5AonRise => Sys2Proof.Machine.execVin5AonRise s
  | .keeperQualifyDone => Sys2Proof.Machine.execKeeperQualifyDone s
  | .switchRampDone node => Sys2Proof.Machine.execSwitchRampDone node s
  | .inrushTimeout => Sys2Proof.Machine.execInrushTimeout s
  | .powerRetry => Sys2Proof.Machine.execPowerRetry s
  | .earlyLoss => Sys2Proof.Machine.execEarlyLoss s
  | .railPowerGood => Sys2Proof.Machine.execRailPowerGood s
  | .selftestDone repaired sramOk wordOk pageOk => Sys2Proof.Machine.execSelftestDone repaired sramOk wordOk pageOk s
  | .patternPhaseDone => Sys2Proof.Machine.execPatternPhaseDone s
  | .dramTrainDone failing => Sys2Proof.Machine.execDramTrainDone failing s
  | .loadDone => Sys2Proof.Machine.execLoadDone s
  | .legacyRelease => Sys2Proof.Machine.execLegacyRelease s
  | .hostReady => Sys2Proof.Machine.execHostReady s
  | .controllerReady cntlid => Sys2Proof.Machine.execControllerReady cntlid s
  | .patLockCmd => Sys2Proof.Machine.execPatLockCmd s
  | .patReload => Sys2Proof.Machine.execPatReload s
  | .patCancel => Sys2Proof.Machine.execPatCancel s
  | .repatternValidated => Sys2Proof.Machine.execRepatternValidated s
  | .repatternApply => Sys2Proof.Machine.execRepatternApply s
  | .testModeRise => Sys2Proof.Machine.execTestModeRise s
  | .testModeRelease => Sys2Proof.Machine.execTestModeRelease s
  | .outputRelease => Sys2Proof.Machine.execOutputRelease s
  | .tempWarning above => Sys2Proof.Machine.execTempWarning above s
  | .tempCritical above => Sys2Proof.Machine.execTempCritical above s
  | .thermalBindOff => Sys2Proof.Machine.execThermalBindOff s
  | .thermalRelease => Sys2Proof.Machine.execThermalRelease s
  | .reverseTrip node => Sys2Proof.Machine.execReverseTrip node s
  | .switchReclose node => Sys2Proof.Machine.execSwitchReclose node s
  | .spinupCurrentSample iin12 iin5 => Sys2Proof.Machine.execSpinupCurrentSample iin12 iin5 s
  | .energyUpdate => Sys2Proof.Machine.execEnergyUpdate s
  | .earlySaveDone => Sys2Proof.Machine.execEarlySaveDone s
  | .energyHoldClear => Sys2Proof.Machine.execEnergyHoldClear s
  | .bindOffStart obs => Sys2Proof.Machine.execBindOffStart obs s
  | .inputGlitch => Sys2Proof.Machine.execInputGlitch s
  | .inputReturn => Sys2Proof.Machine.execInputReturn s
  | .inputLossInHold => Sys2Proof.Machine.execInputLossInHold s
  | .saveRestore => Sys2Proof.Machine.execSaveRestore s
  | .warmReset key => Sys2Proof.Machine.execWarmReset key s
  | .watchdogExpiry pair => Sys2Proof.Machine.execWatchdogExpiry pair s
  | .watchdogKick pairs => Sys2Proof.Machine.execWatchdogKick pairs s
  | .watchdogConfig period pairs => Sys2Proof.Machine.execWatchdogConfig period pairs s
  | .nssr value => Sys2Proof.Machine.execNssr value s
  | .perstAssert port => Sys2Proof.Machine.execPerstAssert port s
  | .perstDeassert port => Sys2Proof.Machine.execPerstDeassert port s
  | .flr port function => Sys2Proof.Machine.execFlr port function s
  | .vfEnableClear port => Sys2Proof.Machine.execVfEnableClear port s
  | .controllerReset cntlid => Sys2Proof.Machine.execControllerReset cntlid s
  | .controllerEnable cntlid css asqs acqs => Sys2Proof.Machine.execControllerEnable cntlid css asqs acqs s
  | .spnStart => Sys2Proof.Machine.execSpnStart s
  | .spnStop => Sys2Proof.Machine.execSpnStop s
  | .spnCoast => Sys2Proof.Machine.execSpnCoast s
  | .spnClear => Sys2Proof.Machine.execSpnClear s
  | .currentLoopRun obs => Sys2Proof.Machine.execCurrentLoopRun obs s
  | .servoOffsetLearn => Sys2Proof.Machine.execServoOffsetLearn s
  | .catchMeasureDone forward rate amplitude angle => Sys2Proof.Machine.execCatchMeasureDone forward rate amplitude angle s
  | .catchTimeout => Sys2Proof.Machine.execCatchTimeout s
  | .alignDone stage => Sys2Proof.Machine.execAlignDone stage s
  | .commutationTimeout => Sys2Proof.Machine.execCommutationTimeout s
  | .speedBandReached => Sys2Proof.Machine.execSpeedBandReached s
  | .holdFloatWindow offset amplitude interval => Sys2Proof.Machine.execHoldFloatWindow offset amplitude interval s
  | .holdTimeout => Sys2Proof.Machine.execHoldTimeout s
  | .lockedRotor => Sys2Proof.Machine.execLockedRotor s
  | .coastStopped => Sys2Proof.Machine.execCoastStopped s
  | .coastRetractTimeout => Sys2Proof.Machine.execCoastRetractTimeout s
  | .brakeDone => Sys2Proof.Machine.execBrakeDone s
  | .needleLatch needle ns maPos vcmI => Sys2Proof.Machine.execNeedleLatch needle ns maPos vcmI s
  | .needleDeadline needle => Sys2Proof.Machine.execNeedleDeadline needle s
  | .needleInternalFault needle => Sys2Proof.Machine.execNeedleInternalFault needle s
  | .needleTakeover needle => Sys2Proof.Machine.execNeedleTakeover needle s
  | .settleReached needle => Sys2Proof.Machine.execSettleReached needle s
  | .settleTimeout needle => Sys2Proof.Machine.execSettleTimeout needle s
  | .missMaxReached needle => Sys2Proof.Machine.execMissMaxReached needle s
  | .holdRowsExpired needle => Sys2Proof.Machine.execHoldRowsExpired needle s
  | .ndlMbxPush push => Sys2Proof.Machine.execNdlMbxPush push s
  | .ndlSeek needle => Sys2Proof.Machine.execNdlSeek needle s
  | .ndlOffset needle => Sys2Proof.Machine.execNdlOffset needle s
  | .ndlEngage needle => Sys2Proof.Machine.execNdlEngage needle s
  | .ndlHold needle => Sys2Proof.Machine.execNdlHold needle s
  | .ndlRelease needle => Sys2Proof.Machine.execNdlRelease needle s
  | .ndlManual needle => Sys2Proof.Machine.execNdlManual needle s
  | .ndlRetract needle => Sys2Proof.Machine.execNdlRetract needle s
  | .ndlUnknownOpcode needle => Sys2Proof.Machine.execNdlUnknownOpcode needle s
  | .needleSwap act => Sys2Proof.Machine.execNeedleSwap act s
  | .swapFaultAbort needle => Sys2Proof.Machine.execSwapFaultAbort needle s
  | .ndlDisable needle disable => Sys2Proof.Machine.execNdlDisable needle disable s
  | .actLoad act => Sys2Proof.Machine.execActLoad act s
  | .actUnload act => Sys2Proof.Machine.execActUnload act s
  | .actEretract act => Sys2Proof.Machine.execActEretract act s
  | .retractConstantPhase act => Sys2Proof.Machine.execRetractConstantPhase act s
  | .retractEnd act => Sys2Proof.Machine.execRetractEnd act s
  | .actLinkClear act => Sys2Proof.Machine.execActLinkClear act s
  | .actDisable act disable => Sys2Proof.Machine.execActDisable act disable s
  | .actLinkEnable act => Sys2Proof.Machine.execActLinkEnable act s
  | .headRequest act head => Sys2Proof.Machine.execHeadRequest act head s
  | .headSelect act t => Sys2Proof.Machine.execHeadSelect act t s
  | .actLinkGo act addr read data => Sys2Proof.Machine.execActLinkGo act addr read data s
  | .preampFrame act t crc answer => Sys2Proof.Machine.execPreampFrame act t crc answer s
  | .loadComplete act inductance => Sys2Proof.Machine.execLoadComplete act inductance s
  | .loadTimeout act => Sys2Proof.Machine.execLoadTimeout act s
  | .unloadRampStop act => Sys2Proof.Machine.execUnloadRampStop act s
  | .unloadHoldEnd act => Sys2Proof.Machine.execUnloadHoldEnd act s
  | .unloadTimeout act => Sys2Proof.Machine.execUnloadTimeout act s
  | .vcmCurrentLoop act mv ma rate => Sys2Proof.Machine.execVcmCurrentLoop act mv ma rate s
  | .aenLeadStart act slice t => Sys2Proof.Machine.execAenLeadStart act slice t s
  | .writeGateRaise act t => Sys2Proof.Machine.execWriteGateRaise act t s
  | .laserCut act t => Sys2Proof.Machine.execLaserCut act t s
  | .sectorFrame slice obs => Sys2Proof.Machine.execSectorFrame slice obs s
  | .sectorBoundary act => Sys2Proof.Machine.execSectorBoundary act s
  | .inlineDecodeDone slice obs => Sys2Proof.Machine.execInlineDecodeDone slice obs s
  | .autoActionDone slice offset obs => Sys2Proof.Machine.execAutoActionDone slice offset obs s
  | .slcReDecode slice slot iterations => Sys2Proof.Machine.execSlcReDecode slice slot iterations s
  | .slcReframe slice slot span iterations => Sys2Proof.Machine.execSlcReframe slice slot span iterations s
  | .slcCombine slice slot iterations => Sys2Proof.Machine.execSlcCombine slice slot iterations s
  | .recoveryRequestDone slice offset obs => Sys2Proof.Machine.execRecoveryRequestDone slice offset obs s
  | .slcUnpin slice lo hi => Sys2Proof.Machine.execSlcUnpin slice lo hi s
  | .sliceFault slice cause => Sys2Proof.Machine.execSliceFault slice cause s
  | .sliceTakeover slice => Sys2Proof.Machine.execSliceTakeover slice s
  | .slcDisable slice disable => Sys2Proof.Machine.execSlcDisable slice disable s
  | .sliceDisabled slice => Sys2Proof.Machine.execSliceDisabled slice s
  | .walkerLookup dla count hit => Sys2Proof.Machine.execWalkerLookup dla count hit s
  | .walkerMap lstart length place cache unwritten unreadable gen claim => Sys2Proof.Machine.execWalkerMap lstart length place cache unwritten unreadable gen claim s
  | .walkerExtend dla length gen => Sys2Proof.Machine.execWalkerExtend dla length gen s
  | .walkerFlags dla count set clear gen claim => Sys2Proof.Machine.execWalkerFlags dla count set clear gen claim s
  | .walkerGenBump zone => Sys2Proof.Machine.execWalkerGenBump zone s
  | .walkerDesc zone wp state restitchUsed => Sys2Proof.Machine.execWalkerDesc zone wp state restitchUsed s
  | .leafMerge => Sys2Proof.Machine.execLeafMerge s
  | .staleEntryDelete => Sys2Proof.Machine.execStaleEntryDelete s
  | .journalPageWrite => Sys2Proof.Machine.execJournalPageWrite s
  | .journalOnMedia => Sys2Proof.Machine.execJournalOnMedia s
  | .checkpointStart => Sys2Proof.Machine.execCheckpointStart s
  | .ckptReq => Sys2Proof.Machine.execCkptReq s
  | .checkpointDone => Sys2Proof.Machine.execCheckpointDone s
  | .mapRebuild missing => Sys2Proof.Machine.execMapRebuild missing s
  | .cacheZoneClean act => Sys2Proof.Machine.execCacheZoneClean act s
  | .doorbellWrite cntlid qid head value entries => Sys2Proof.Machine.execDoorbellWrite cntlid qid head value entries s
  | .fetchRound pair => Sys2Proof.Machine.execFetchRound pair s
  | .tlpError error port cntlid slot => Sys2Proof.Machine.execTlpError error port cntlid slot s
  | .deleteIoSq slot => Sys2Proof.Machine.execDeleteIoSq slot s
  | .deleteIoCq slot => Sys2Proof.Machine.execDeleteIoCq slot s
  | .createIoSq slot => Sys2Proof.Machine.execCreateIoSq slot s
  | .createIoCq slot => Sys2Proof.Machine.execCreateIoCq slot s
  | .getLogPage slot => Sys2Proof.Machine.execGetLogPage slot s
  | .identify slot => Sys2Proof.Machine.execIdentify slot s
  | .abort slot => Sys2Proof.Machine.execAbort slot s
  | .setFeatures slot data => Sys2Proof.Machine.execSetFeatures slot data s
  | .setDirtyCeiling slot => Sys2Proof.Machine.execSetDirtyCeiling slot s
  | .setReadPath slot => Sys2Proof.Machine.execSetReadPath slot s
  | .setConfirmActivation slot => Sys2Proof.Machine.execSetConfirmActivation slot s
  | .getFeatures slot => Sys2Proof.Machine.execGetFeatures slot s
  | .asyncEventRequest slot => Sys2Proof.Machine.execAsyncEventRequest slot s
  | .firmwareImageDownload slot piece => Sys2Proof.Machine.execFirmwareImageDownload slot piece s
  | .commitVerifyWrite slot => Sys2Proof.Machine.execCommitVerifyWrite slot s
  | .commitActivateAtReset slot => Sys2Proof.Machine.execCommitActivateAtReset slot s
  | .commitActivateStaged slot => Sys2Proof.Machine.execCommitActivateStaged slot s
  | .commitActivateNow slot => Sys2Proof.Machine.execCommitActivateNow slot s
  | .deviceSelfTest slot => Sys2Proof.Machine.execDeviceSelfTest slot s
  | .virtualizationManagement slot => Sys2Proof.Machine.execVirtualizationManagement slot s
  | .nvmeMiSend slot command => Sys2Proof.Machine.execNvmeMiSend slot command s
  | .nvmeMiReceive slot => Sys2Proof.Machine.execNvmeMiReceive slot s
  | .formatNvm slot => Sys2Proof.Machine.execFormatNvm slot s
  | .securitySend slot payload => Sys2Proof.Machine.execSecuritySend slot payload s
  | .securityReceive slot => Sys2Proof.Machine.execSecurityReceive slot s
  | .sanitize slot => Sys2Proof.Machine.execSanitize slot s
  | .sanitizeStepDone => Sys2Proof.Machine.execSanitizeStepDone s
  | .invalidAdminOpcode slot => Sys2Proof.Machine.execInvalidAdminOpcode slot s
  | .flush slot => Sys2Proof.Machine.execFlush slot s
  | .read slot => Sys2Proof.Machine.execRead slot s
  | .write slot => Sys2Proof.Machine.execWrite slot s
  | .compare slot data => Sys2Proof.Machine.execCompare slot data s
  | .verify slot => Sys2Proof.Machine.execVerify slot s
  | .writeZeroes slot => Sys2Proof.Machine.execWriteZeroes slot s
  | .datasetManagement slot ranges => Sys2Proof.Machine.execDatasetManagement slot ranges s
  | .writeUncorrectable slot => Sys2Proof.Machine.execWriteUncorrectable slot s
  | .zoneOpen slot => Sys2Proof.Machine.execZoneOpen slot s
  | .zoneClose slot => Sys2Proof.Machine.execZoneClose slot s
  | .zoneFinish slot => Sys2Proof.Machine.execZoneFinish slot s
  | .zoneReset slot => Sys2Proof.Machine.execZoneReset slot s
  | .zoneOffline slot => Sys2Proof.Machine.execZoneOffline slot s
  | .zoneSetDescExt slot => Sys2Proof.Machine.execZoneSetDescExt slot s
  | .zoneMgmtReceive slot => Sys2Proof.Machine.execZoneMgmtReceive slot s
  | .zoneAppend slot => Sys2Proof.Machine.execZoneAppend slot s
  | .invalidIoOpcode slot => Sys2Proof.Machine.execInvalidIoOpcode slot s
  | .hifAenPost type info => Sys2Proof.Machine.execHifAenPost type info s
  | .hifCfsSet mask => Sys2Proof.Machine.execHifCfsSet mask s
  | .fetchHold mask => Sys2Proof.Machine.execFetchHold mask s
  | .interruptCoalesceTimer cntlid vector => Sys2Proof.Machine.execInterruptCoalesceTimer cntlid vector s
  | .mctpMessage transport type => Sys2Proof.Machine.execMctpMessage transport type s
  | .setEndpointId eid => Sys2Proof.Machine.execSetEndpointId eid s
  | .nvmeMiBasic => Sys2Proof.Machine.execNvmeMiBasic s
  | .nvmeMiCommand command => Sys2Proof.Machine.execNvmeMiCommand command s
  | .miReset => Sys2Proof.Machine.execMiReset s
  | .spdmGetVersion transport => Sys2Proof.Machine.execSpdmGetVersion transport s
  | .spdmGetCapabilities transport => Sys2Proof.Machine.execSpdmGetCapabilities transport s
  | .spdmNegotiateAlgorithms transport sm2 sm3 => Sys2Proof.Machine.execSpdmNegotiateAlgorithms transport sm2 sm3 s
  | .spdmGetDigests transport => Sys2Proof.Machine.execSpdmGetDigests transport s
  | .spdmGetCertificate transport slot offset length => Sys2Proof.Machine.execSpdmGetCertificate transport slot offset length s
  | .spdmChallenge transport slot nonce => Sys2Proof.Machine.execSpdmChallenge transport slot nonce s
  | .spdmGetMeasurements transport index signed nonce => Sys2Proof.Machine.execSpdmGetMeasurements transport index signed nonce s
  | .spdmRespondIfReady transport token => Sys2Proof.Machine.execSpdmRespondIfReady transport token s
  | .spdmUnsupported transport code => Sys2Proof.Machine.execSpdmUnsupported transport code s
  | .writeAdmit => Sys2Proof.Machine.execWriteAdmit s
  | .writeDataComplete slot data pi => Sys2Proof.Machine.execWriteDataComplete slot data pi s
  | .windowEnter act => Sys2Proof.Machine.execWindowEnter act s
  | .mediaPick act evals => Sys2Proof.Machine.execMediaPick act evals s
  | .preempt act => Sys2Proof.Machine.execPreempt act s
  | .ledgerRecount => Sys2Proof.Machine.execLedgerRecount s
  | .ledgerRelease => Sys2Proof.Machine.execLedgerRelease s
  | .writeHoldRelease => Sys2Proof.Machine.execWriteHoldRelease s
  | .mediaCompletion slot => Sys2Proof.Machine.execMediaCompletion slot s
  | .readPoint slot => Sys2Proof.Machine.execReadPoint slot s
  | .readTransfer slot index guardOk => Sys2Proof.Machine.execReadTransfer slot index guardOk s
  | .claimOpen owner => Sys2Proof.Machine.execClaimOpen owner s
  | .claimClose index => Sys2Proof.Machine.execClaimClose index s
  | .ladderRunStart act => Sys2Proof.Machine.execLadderRunStart act s
  | .ladderStepDone run recovered => Sys2Proof.Machine.execLadderStepDone run recovered s
  | .scrubOperation act => Sys2Proof.Machine.execScrubOperation act s
  | .drnRewriteGo zone => Sys2Proof.Machine.execDrnRewriteGo zone s
  | .drnDuePop => Sys2Proof.Machine.execDrnDuePop s
  | .rewriteDone => Sys2Proof.Machine.execRewriteDone s
  | .lifelineBlockFail part => Sys2Proof.Machine.execLifelineBlockFail part s
  | .memoryScrubRead die page corrected uncorrectable codeOk holds => Sys2Proof.Machine.execMemoryScrubRead die page corrected uncorrectable codeOk holds s
  | .pageDecodeDone die page symbolErrors holds => Sys2Proof.Machine.execPageDecodeDone die page symbolErrors holds s
  | .repairPost => Sys2Proof.Machine.execRepairPost s
  | .sramPatrol offset corrected uncorrectable => Sys2Proof.Machine.execSramPatrol offset corrected uncorrectable s
  | .verifyImage mailbox tag addr component => Sys2Proof.Machine.execVerifyImage mailbox tag addr component s
  | .commitMeasurement mailbox tag component digest => Sys2Proof.Machine.execCommitMeasurement mailbox tag component digest s
  | .loadKey mailbox tag slot nsid zone generation keyTag => Sys2Proof.Machine.execLoadKey mailbox tag slot nsid zone generation keyTag s
  | .nsKeyNew mailbox tag nsid => Sys2Proof.Machine.execNsKeyNew mailbox tag nsid s
  | .kpio mailbox tag keys => Sys2Proof.Machine.execKpio mailbox tag keys s
  | .random mailbox tag count => Sys2Proof.Machine.execRandom mailbox tag count s
  | .tirChallenge channel tag scopes => Sys2Proof.Machine.execTirChallenge channel tag scopes s
  | .tirResponse channel tag key signature => Sys2Proof.Machine.execTirResponse channel tag key signature s
  | .revoke channel tag scopes => Sys2Proof.Machine.execRevoke channel tag scopes s
  | .svnAdvance mailbox tag component version => Sys2Proof.Machine.execSvnAdvance mailbox tag component version s
  | .provision mailbox tag maker pattern debug readBackOk => Sys2Proof.Machine.execProvision mailbox tag maker pattern debug readBackOk s
  | .genIdentity mailbox tag => Sys2Proof.Machine.execGenIdentity mailbox tag s
  | .tirUnknownOpcode mailbox tag opcode => Sys2Proof.Machine.execTirUnknownOpcode mailbox tag opcode s
  | .challengeExpiry channel => Sys2Proof.Machine.execChallengeExpiry channel s
  | .tamperAlarm causes => Sys2Proof.Machine.execTamperAlarm causes s
  | .alarmClear => Sys2Proof.Machine.execAlarmClear s
  | .cipherEnable => Sys2Proof.Machine.execCipherEnable s
  | .katDone passed => Sys2Proof.Machine.execKatDone passed s
  | .cipherDisable => Sys2Proof.Machine.execCipherDisable s
  | .cipherDrained => Sys2Proof.Machine.execCipherDrained s
  | .cipherCoreFault core => Sys2Proof.Machine.execCipherCoreFault core s
  | .hookLdi thread => Sys2Proof.Machine.execHookLdi thread s
  | .hookEnc thread => Sys2Proof.Machine.execHookEnc thread s
  | .hookDec thread => Sys2Proof.Machine.execHookDec thread s
  | .hookXor thread => Sys2Proof.Machine.execHookXor thread s
  | .hookGmul thread => Sys2Proof.Machine.execHookGmul thread s
  | .hookInc32 thread => Sys2Proof.Machine.execHookInc32 thread s
  | .hookLen thread => Sys2Proof.Machine.execHookLen thread s
  | .hookOut thread => Sys2Proof.Machine.execHookOut thread s
  | .hookTag thread => Sys2Proof.Machine.execHookTag thread s
  | .hookLoop thread => Sys2Proof.Machine.execHookLoop thread s
  | .hookEnd thread => Sys2Proof.Machine.execHookEnd thread s
  | .hookIllegalOp thread => Sys2Proof.Machine.execHookIllegalOp thread s
  | .blockReturn core => Sys2Proof.Machine.execBlockReturn core s
  | .tokenPost => Sys2Proof.Machine.execTokenPost s
  | .hookDataWrite value => Sys2Proof.Machine.execHookDataWrite value s
  | .hookBindWrite value => Sys2Proof.Machine.execHookBindWrite value s
  | .keySlotErase => Sys2Proof.Machine.execKeySlotErase s
  | .bankDrainEnd slot => Sys2Proof.Machine.execBankDrainEnd slot s
  | .testkeyLoad alg mode slot => Sys2Proof.Machine.execTestkeyLoad alg mode slot s
  | .cipherJob slot op => Sys2Proof.Machine.execCipherJob slot op s
  | .cipherJobDone => Sys2Proof.Machine.execCipherJobDone s
  | .gauAdcOffset slice => Sys2Proof.Machine.execGauAdcOffset slice s
  | .gauAdcGain slice => Sys2Proof.Machine.execGauAdcGain slice s
  | .gauAdcSkew slice => Sys2Proof.Machine.execGauAdcSkew slice s
  | .gauReaderBias act head => Sys2Proof.Machine.execGauReaderBias act head s
  | .gauTouchdown act head => Sys2Proof.Machine.execGauTouchdown act head s
  | .gauAssist act head => Sys2Proof.Machine.execGauAssist act head s
  | .gauIsenseSpn => Sys2Proof.Machine.execGauIsenseSpn s
  | .gauIsenseVcm act => Sys2Proof.Machine.execGauIsenseVcm act s
  | .gauTemp => Sys2Proof.Machine.execGauTemp s
  | .gaugeTargetIdle => Sys2Proof.Machine.execGaugeTargetIdle s
  | .calibrationEnd measured => Sys2Proof.Machine.execCalibrationEnd measured s
  | .sessionExpiry => Sys2Proof.Machine.execSessionExpiry s
  | .bundleWritten => Sys2Proof.Machine.execBundleWritten s
  | .tiriumHandover => Sys2Proof.Machine.execTiriumHandover s
  | .tiriumReady => Sys2Proof.Machine.execTiriumReady s
  | .tiriumReadyTimeout => Sys2Proof.Machine.execTiriumReadyTimeout s
  | .handoverSpareReady => Sys2Proof.Machine.execHandoverSpareReady s
  | .handoverRequest => Sys2Proof.Machine.execHandoverRequest s
  | .handoverQuiesced => Sys2Proof.Machine.execHandoverQuiesced s
  | .handoverSwitch => Sys2Proof.Machine.execHandoverSwitch s
  | .handoverTaken => Sys2Proof.Machine.execHandoverTaken s
  | .handoverDeadlineMiss => Sys2Proof.Machine.execHandoverDeadlineMiss s
  | .quiescedActivation => Sys2Proof.Machine.execQuiescedActivation s
  | .quiescedTimeout => Sys2Proof.Machine.execQuiescedTimeout s
  | .autoConfirm => Sys2Proof.Machine.execAutoConfirm s
  | .updAbort => Sys2Proof.Machine.execUpdAbort s
  | .updFrog => Sys2Proof.Machine.execUpdFrog s
  | .recFwPost source typeLo severity => Sys2Proof.Machine.execRecFwPost source typeLo severity s
  | .recordProgrammed => Sys2Proof.Machine.execRecordProgrammed s
  | .recStoreFail kind => Sys2Proof.Machine.execRecStoreFail kind s
  | .recordMirrorCopy => Sys2Proof.Machine.execRecordMirrorCopy s
  | .fallbackUnitProgram => Sys2Proof.Machine.execFallbackUnitProgram s
  | .recClear select => Sys2Proof.Machine.execRecClear select s
  | .clearSectorErased => Sys2Proof.Machine.execClearSectorErased s
  | .timeAnchor hostHi attr => Sys2Proof.Machine.execTimeAnchor hostHi attr s
  | .recorderCastonScan sound => Sys2Proof.Machine.execRecorderCastonScan sound s
  | .sngArm => Sys2Proof.Machine.execSngArm s
  | .sngDisarm => Sys2Proof.Machine.execSngDisarm s
  | .snagInjectorGo injector cfg => Sys2Proof.Machine.execSnagInjectorGo injector cfg s
  | .snagHeldRelease injector => Sys2Proof.Machine.execSnagHeldRelease injector s
  | .dbgWarmReset key => Sys2Proof.Machine.execDbgWarmReset key s
  | .dbgHalt pairs needles => Sys2Proof.Machine.execDbgHalt pairs needles s
  | .jtagBypass tdi => Sys2Proof.Machine.execJtagBypass tdi s
  | .jtagIdcode => Sys2Proof.Machine.execJtagIdcode s
  | .jtagSamplePreload captured preload => Sys2Proof.Machine.execJtagSamplePreload captured preload s
  | .jtagExtest captured => Sys2Proof.Machine.execJtagExtest captured s
  | .jtagTmbx opcode tag args => Sys2Proof.Machine.execJtagTmbx opcode tag args s
  | .jtagDbgap unit write => Sys2Proof.Machine.execJtagDbgap unit write s
  | .uartTxWrite byte => Sys2Proof.Machine.execUartTxWrite byte s
  | .uartTxByteSent => Sys2Proof.Machine.execUartTxByteSent s
  | .uartRxByte byte stop => Sys2Proof.Machine.execUartRxByte byte stop s
  | .uartRxPop => Sys2Proof.Machine.execUartRxPop s
  | .registerRead proc addr size => Sys2Proof.Machine.execRegisterRead proc addr size s
  | .linkUp port speed width => Sys2Proof.Machine.execLinkUp port speed width s
  | .linkDown port => Sys2Proof.Machine.execLinkDown port s
  | .vfEnableSet port numVfs => Sys2Proof.Machine.execVfEnableSet port numVfs s
  | .statActRelease => Sys2Proof.Machine.execStatActRelease s
  | .leafRebuildDone leaf => Sys2Proof.Machine.execLeafRebuildDone leaf s
  | .formatNvmDone nsid => Sys2Proof.Machine.execFormatNvmDone nsid s

end Sys2Proof.Machine
end

