-- ==== Sys2Proof/Answers.lean ====
section
/-!
DEFINITION. Sys2Proof/Answers.lean: the form every statement about a command takes: the command answers a next state, and the
next state has a property; and conditions that several statements share.
-/

namespace Sys2Proof.Machine

/-- The command answers a next state, and that state has the property. -/
def Answers (i : Instr) (s : State) (p : State → Prop) : Prop := ∃ t, exec i s = .next t ∧ p t

/-- No injector of the Snag unit runs (R490). -/
def State.noInjection (s : State) : Bool := s.snag.injectors.all fun x => !x.running

/-- The command in a slot came from a queue and has no completion yet, and the link of its port is up. -/
def State.heard (s : State) (x : Slot) : Bool :=
  !x.sideband && !x.orphan && !x.completed && s.reaches (.completion x.skein 0 0 x.sqe.cid 0 0)

/-- Between two states a command ended: its slot is free, and a completion entry with a status and a dword 0 went to its
controller. -/
def State.ended (s t : State) (x : Slot) (status dw0 : Nat) : Bool :=
  (t.slot x.num).isNone && (t.host.sent.take (t.host.sent.length - s.host.sent.length)).any fun m =>
    match m with
    | .completion c _ _ cid st d => c == x.skein && cid == x.sqe.cid && st == status && d == dw0
    | _ => false

/-- The tag and the words of a mailbox push by pair p with a sequence number: the Row that the pair executes, the sequence number,
W0 and W1 (R16). -/
def State.pushTag (s : State) (n p seq : Nat) : Nat × Nat × Word × Word :=
  (((s.pair p).replay).getD s.rowCount, seq, s.reg (R.NDL_MBX_W0 n), s.reg (R.NDL_MBX_W1 n))

/-- The segment that a LOOKUP answers for one sector found at a place (R252). -/
def SectorPlace.segment : SectorPlace → Segment
  | .at p => .place p 1
  | .unwritten => .unwritten 1
  | .unreadable => .unreadable 1

end Sys2Proof.Machine
end

