-- ==== Sys2Proof/Footprint.lean ====
section
/-!
DEFINITION. Sys2Proof/Footprint.lean: what a command may touch. The state falls into registers and parts; a scope says which
of them may change, and a frame says that nothing else did.
-/

namespace Sys2Proof.Machine

/-- The parts of the state beside the registers and the queue: the fuses, the count of free values drawn, what each unit holds
inside, and the two memories. -/
inductive Part where
  | fuse | draws | row | pairs | cable | bus | pins | keeper | cast | pattern | spn | needles | acts | slices | stitch | host
  | flow | darn | prot | tir | cip | gauge | upd | recorder | snag | dbg | sram | dram
  deriving DecidableEq, Repr

/-- A part is the same in two states. -/
def Part.Same (s t : State) : Part → Prop
  | .fuse => t.fuse = s.fuse
  | .draws => t.draws = s.draws
  | .row => t.row = s.row
  | .pairs => t.pairs = s.pairs
  | .cable => t.cable = s.cable
  | .bus => t.bus = s.bus
  | .pins => t.pins = s.pins
  | .keeper => t.keeper = s.keeper
  | .cast => t.cast = s.cast
  | .pattern => t.pattern = s.pattern
  | .spn => t.spn = s.spn
  | .needles => t.needles = s.needles
  | .acts => t.acts = s.acts
  | .slices => t.slices = s.slices
  | .stitch => t.stitch = s.stitch
  | .host => t.host = s.host
  | .flow => t.flow = s.flow
  | .darn => t.darn = s.darn
  | .prot => t.prot = s.prot
  | .tir => t.tir = s.tir
  | .cip => t.cip = s.cip
  | .gauge => t.gauge = s.gauge
  | .upd => t.upd = s.upd
  | .recorder => t.recorder = s.recorder
  | .snag => t.snag = s.snag
  | .dbg => t.dbg = s.dbg
  | .sram => t.sram = s.sram
  | .dram => t.dram = s.dram

/-- The parts a store into a memory changes: DRAM keeps the parity of its pages beside it (R371). -/
def Part.ofSpace : Space → List Part
  | .sram => [.sram]
  | .dram => [.dram, .prot]

/-- Which registers, by address, and which parts may change. -/
structure Scope where
  reg : Nat → Prop
  part : Part → Prop

/-- What a store into a memory changes lies within the scope. -/
def Scope.space (A : Scope) (sp : Space) : Prop := ∀ p ∈ Part.ofSpace sp, A.part p

/-- No register and no part outside the scope has changed. -/
def Scope.Frame (A : Scope) (s t : State) : Prop :=
  (∀ a, ¬ A.reg a → t.reg a = s.reg a) ∧ ∀ p, ¬ A.part p → p.Same s t

/-- Nothing changed but the listed registers and parts. -/
def OnlyChanged (s t : State) (regs : List Nat) (parts : List Part) : Prop :=
  Scope.Frame { reg := (· ∈ regs), part := (· ∈ parts) } s t

/-- What one operation touches: a register, a register of every instance of a unit, one of every instance and number, a part. -/
inductive Site where
  | one (addr : Nat)
  | each (addr : Nat → Nat)
  | grid (addr : Nat → Nat → Nat)
  | part (p : Part)

/-- The site lies within the scope. -/
def Scope.has (A : Scope) : Site → Prop
  | .one a => A.reg a
  | .each f => ∀ i, A.reg (f i)
  | .grid f => ∀ i n, A.reg (f i n)
  | .part p => A.part p

/-- Every site of a list lies within the scope. -/
def Scope.covers (A : Scope) (l : List Site) : Prop := ∀ x ∈ l, A.has x

end Sys2Proof.Machine
end

