-- ==== Sys2Proof/Safety.lean ====
section
/-!
DEFINITION. Sys2Proof/Safety.lean: what counts as a safe run. The memories and the register file stay in the one form that
makes equal contents equal data, and what the fuses fix never goes back.
-/

namespace Sys2Proof.Machine

/-- The register file and both memories are in canonical form: addresses rising, and no entry that reads as an unlisted
address does. -/
def State.canonical (s : State) : Bool := regsWf s.regs && memWf s.sram && memWf s.dram

/-- What the fuses fix for good: what was programmed before the drive maker has the part (R1, R2, R203, R383, R384, R496), the
three hashes of PROVISION once it has run (R386), the identity key once it is generated (R385), and that no fused security
version falls (R387). -/
structure Fuses.Kept (f g : Fuses) : Prop where
  part : g.variant = f.variant ∧ g.nSuffix = f.nSuffix ∧ g.stepping = f.stepping
  limits : g.laserCeiling = f.laserCeiling ∧ g.sramSpares = f.sramSpares ∧ g.manufacturer = f.manufacturer
  roots : g.llynterKeyHash = f.llynterKeyHash ∧ g.faKeyHash = f.faKeyHash
  sealedStays : f.isSealed = true → g.isSealed = true
  partlyStays : f.partlyFused = true → g.partlyFused = true
  provisioned : f.isSealed = true ∨ f.partlyFused = true →
    g.makerKeyHash = f.makerKeyHash ∧ g.patternKeyHash = f.patternKeyHash ∧ g.debugKeyHash = f.debugKeyHash
  identity : f.identityWrap.isSome = true → g.identityWrap = f.identityWrap
  versions : ∀ c, f.svn c ≤ g.svn c

end Sys2Proof.Machine
end

