-- ==== Sys2Proof/Certificates/Slice0/Obligations.lean ====
section
/-!
DEFINITION. Sys2Proof/Certificates/Slice0/Obligations.lean: the statements for the provers.
-/

open Sys2Proof Sys2Proof.Machine


/-- One step takes the command at the front of the queue and carries it out on the state with the queue's rest. -/
def Obligations.StepTakesTheFrontCommand : Prop :=
  ∀ (c : Instr) (s : State), step { s with pending := c :: s.pending } = exec c s

/-- With nothing waiting the block idles: the model's choice (assumption log 18). -/
def Obligations.StepIdlesOnAnEmptyQueue : Prop := ∀ s : State, s.pending = [] → step s = .next s

/-- Every command answers a next state, from every state: no refusal and no fault. -/
def Obligations.EveryCommandAnswers : Prop := ∀ (c : Instr) (s : State), ∃ t, exec c s = .next t

/-- No command touches the queue, so a step takes exactly its front. -/
def Obligations.EveryStepConsumesOneCommand : Prop :=
  ∀ s t : State, step s = .next t → t.pending = s.pending.tail

/-- The register file and both memories are canonical at reset, and nothing waits. -/
def Obligations.ResetIsCanonical : Prop := State.reset.canonical = true ∧ State.reset.pending = []

/-- Every step keeps the register file and both memories canonical, from every canonical state. -/
def Obligations.EveryStepKeepsCanonicalForm : Prop :=
  ∀ s t : State, s.canonical = true → step s = .next t → t.canonical = true

/-- No step undoes what the fuses fix: the part and its limits, a sealed lifecycle and its three hashes, a fused identity, and
every fused security version. -/
def Obligations.EveryStepKeepsTheFuses : Prop := ∀ s t : State, step s = .next t → s.fuse.Kept t.fuse

/-- The capability values of the six ordering codes (R2): what a processor that is neither fenced nor halted reads. -/
def Obligations.CapabilityValues : Prop :=
  ∀ (s : State) (proc : Nat), s.fuse.stepping = 0 → s.silent proc = false →
    (Answers (.registerRead proc R.SYS_CAP_LO 4) s fun t => t.bus.proc = proc ∧ t.bus.error = false ∧ t.bus.value =
      match s.fuse.variant, s.fuse.nSuffix with
      | .d2h, false => 0x0033F7FF | .d2m, false => 0x0033FBFF | .s1h, false => 0x0033F675
      | .d2h, true => 0x0033C7FF | .d2m, true => 0x0033CBFF | .s1h, true => 0x0033C675) ∧
    Answers (.registerRead proc R.SYS_CAP_HI 4) s fun t => t.bus.proc = proc ∧ t.bus.error = false ∧ t.bus.value =
      match s.fuse.variant, s.fuse.nSuffix with
      | .d2h, false => 0x00000108 | .d2m, false => 0x00000208 | .s1h, false => 0x00000308
      | .d2h, true => 0x00001108 | .d2m, true => 0x00001208 | .s1h, true => 0x00001308

/-- The identification register at offset 0xFFFC of every window (R6), 0 where the unit is absent. -/
def Obligations.IdentificationRegisters : Prop :=
  ∀ (s : State) (proc addr : Nat), s.silent proc = false → inWindow addr = true → addr < 2 ^ 32 → addr % 0x10000 = 0xFFFC →
    Answers (.registerRead proc addr 4) s fun t => t.bus.proc = proc ∧ t.bus.error = false ∧
      t.bus.value = if s.absent addr then 0 else 0xB8 * 2 ^ 24 + 0x01 * 2 ^ 16 + addr / 2 ^ 16

/-- Register space takes aligned 32-bit words alone (R9): any other access is a bus error to the issuing core, and the bus
answer is all that changes. -/
def Obligations.AccessesThatAreNoAlignedWord : Prop :=
  ∀ (s : State) (proc addr size value raised seq : Nat), s.silent proc = false → inWindow addr = true → 0x01000000 ≤ addr → addr < 0x10000000 →
    (addr % 4 ≠ 0 ∨ size ≠ 4) →
    (Answers (.registerRead proc addr size) s fun t =>
      t.bus.proc = proc ∧ t.bus.error = true ∧ OnlyChanged s t [] [.bus]) ∧
    Answers (.registerWrite proc false addr size ⟨value, raised, seq⟩) s fun t =>
      t.bus.proc = proc ∧ t.bus.error = true ∧ OnlyChanged s t [] [.bus]

/-- A read of ROWT_COUNT_LO latches ROWT_COUNT_HI for the processor, and its next read of ROWT_COUNT_HI returns that (R26). -/
def Obligations.LatchedRowCount : Prop :=
  ∀ (s : State) (proc : Nat), s.silent proc = false →
    Answers (.registerRead proc R.ROWT_COUNT_LO 4) s fun t =>
      t.bus.proc = proc ∧ t.bus.error = false ∧ t.bus.value = (s.reg R.ROWT_COUNT_LO).toNat ∧
      ∀ u : State, u.silent proc = false → u.row.latched = t.row.latched →
        Answers (.registerRead proc R.ROWT_COUNT_HI 4) u fun w =>
          w.bus.proc = proc ∧ w.bus.error = false ∧ w.bus.value = (s.reg R.ROWT_COUNT_HI).toNat

/-- The window of an absent unit reads as zero and ignores writes, without a bus error and without an event (R5). -/
def Obligations.AbsentWindows : Prop :=
  ∀ (s : State) (proc addr value raised seq : Nat), s.silent proc = false → s.absent addr = true → inWindow addr = true → addr < 0x10000000 →
    addr % 4 = 0 →
    (Answers (.registerRead proc addr 4) s fun t =>
      t.bus.proc = proc ∧ t.bus.error = false ∧ t.bus.value = 0 ∧ OnlyChanged s t [] [.bus]) ∧
    Answers (.registerWrite proc false addr 4 ⟨value, raised, seq⟩) s fun t =>
      t.bus.proc = proc ∧ t.bus.error = false ∧ OnlyChanged s t [] [.bus]

/-- The Row (R22 to R25): a boundary from the timebase in IDLE, from the master's wedge in WEDGE, at the predicted
instant in FLYWHEEL; each advances the Row count modulo 2^64, starts the Row at its instant and leaves its source in
ROWT_STATUS. -/
def Obligations.RowBoundaries : Prop :=
  (∀ (s : State), s.keeper.inReset = false → s.fld F.ROWT_STATUS_SOURCE = 0 → s.row.leaving = false →
    Answers (.idlePeriodExpiry) s fun t =>
      t.rowCount = (s.rowCount + 1) % 2 ^ 64 ∧ t.row.last = s.row.last + s.fld F.ROWT_IDLE_PERIOD_PERIOD_PS ∧
      t.fld F.ROWT_STATUS_SOURCE = 0 ∧ t.fld F.ROWT_STATUS_GUARD = 0) ∧
  (∀ (s : State), s.keeper.inReset = false → s.fld F.ROWT_STATUS_SOURCE = 3 → Answers (.flywheelBoundary) s fun t =>
      t.rowCount = (s.rowCount + 1) % 2 ^ 64 ∧ t.row.last = s.row.last + s.fld F.ROWT_PERIOD_PERIOD_PS ∧
      t.fld F.ROWT_STATUS_SOURCE = 3 ∧ t.row.flywheelRun = s.row.flywheelRun + 1 ∧ t.row.flyStop = [true, true] ∧
      t.fld F.ROWT_STATUS_GUARD = 0) ∧
  (∀ (s : State) (a time : Nat) (obs : WedgeObs), s.keeper.inReset = false → s.fld F.ROWT_STATUS_SOURCE = 1 →
    s.hasAct a = true → a = s.fld F.ROWT_CTRL_MASTER → obs.mark = true → s.row.now ≤ time → s.inWedgeWindow a time = true →
    s.endsRow time = true → Answers (.wedgeSample a time obs) s fun t =>
      t.rowCount = (s.rowCount + 1) % 2 ^ 64 ∧ t.row.last = time ∧ t.fld F.ROWT_STATUS_SOURCE = 1 ∧
      t.fld F.ROWT_STATUS_GUARD = 0) ∧
  (∀ (s : State), s.fld F.ROWT_STATUS_SOURCE = 0 → s.row.leaving = true → Answers (.longRowTimeout) s fun t =>
      t.rowCount = (s.rowCount + 1) % 2 ^ 64 ∧ t.row.last = s.row.last + 2 * s.fld F.ROWT_IDLE_PERIOD_PERIOD_PS ∧
      t.row.leaving = false ∧
      t.fld F.ROWT_STATUS_SOURCE = (if t.on F.ROWT_STATUS_LOCK_A || t.on F.ROWT_STATUS_LOCK_B then 3 else 0))

/-- Between boundaries (R22, R24, R38): a missed wedge of PROXY enters FLYWHEEL, FLYWHEEL_MAX boundaries fall back to
IDLE, the guard interval opens, and the Ledger check of the Row is run once. -/
def Obligations.RowStateChanges : Prop :=
  (∀ (s : State) (a time : Nat) (obs : WedgeObs), s.keeper.inReset = false → s.fld F.ROWT_STATUS_SOURCE = 2 →
    s.hasAct a = true → a = 1 - s.fld F.ROWT_CTRL_MASTER → obs.mark = false → s.row.now ≤ time →
    Answers (.wedgeSample a time obs) s fun t =>
      t.rowCount = s.rowCount ∧ t.row.now = time ∧ t.fld F.ROWT_STATUS_SOURCE = 3 ∧ t.fld F.ROWT_STATUS_FLYWHEEL_SEEN = 1 ∧
      t.row.flywheelRun = 0) ∧
  (∀ (s : State), s.fld F.ROWT_STATUS_SOURCE = 3 → s.fld F.ROWT_CTRL_FLYWHEEL_MAX ≤ s.row.flywheelRun →
    Answers (.flywheelMaxReached) s fun t =>
      t.fld F.ROWT_STATUS_SOURCE = 0 ∧ t.fld F.ROWT_STATUS_IDLE_FALLBACK = 1 ∧
      t.fld F.ROWT_FAULTS_IDLE_ENTRIES = min (s.fld F.ROWT_FAULTS_IDLE_ENTRIES + 1) 0xFF ∧
      OnlyChanged s t [R.ROWT_STATUS, R.ROWT_FAULTS] []) ∧
  (∀ (s : State), s.keeper.inReset = false → Answers (.guardStart) s fun t =>
      t.fld F.ROWT_STATUS_GUARD = 1 ∧ OnlyChanged s t [R.ROWT_STATUS] []) ∧
  (∀ (s : State), s.flow.checked = false → s.flow.checksOff = false → Answers (.ledgerCheck) s fun t =>
      t.flow.checked = true ∧ t.rowCount = s.rowCount ∧ t.host.ledgerReads = [])

/-- Core pairs (R14, R15, R362): a mismatch fences the pair, and with SPARE ready the takeover waits for the boundary;
nothing of a fenced pair is taken; a store of a running pair changes its bytes alone and the prior values of its
64-bit words (assumption log 86) enter the undo log, or, where the log has no room, waits; the takeover applies the
log and goes on from the checkpoint. -/
def Obligations.CorePairs : Prop :=
  (∀ (s : State) (p : Nat), p < 6 → s.pairState p ≠ 0 → Answers (.lockstepMismatch p) s fun t =>
      t.pairState p = 2) ∧
  (∀ (s : State) (p : Nat), s.pairs.length = 6 → p < 5 → s.pairState p = 1 → s.pairState 5 = 3 →
    (s.pair p).checkpoint.isSome = true → s.upd.activation = none → Answers (.lockstepMismatch p) s fun t =>
      t.pairState p = 2 ∧ (t.pair p).takeover = true ∧ (t.pair p).takeoverFor = p ∧
      OnlyChanged s t [R.SYS_PAIR_STATUS] [.pairs]) ∧
  (∀ (s : State) (p : Nat) (sp : Space) (a : Nat) (bytes : List Byte), s.pairState p = 2 →
    Answers (.pairStore p sp a bytes) s fun t =>
      OnlyChanged s t [] []) ∧
  (∀ (s : State) (g p : Nat) (x : CablePacket), x.source = .pair p → s.pairState p = 2 → (s.link g false).awaited = 0 →
    Answers (.cablePacketReceive g false x) s fun t =>
      OnlyChanged s t [] []) ∧
  (∀ (s : State) (p a : Nat) (bytes : List Byte), s.pairs.length = 6 → p < 6 → s.pairRuns p = true →
    (s.pair p).halted = false → (s.pair p).stalled = [] → (s.pair p).undo.length + (storeWords a bytes.length).length ≤ 4096 →
    Answers (.pairStore p .sram a bytes) s fun t =>
      (∀ k, k < bytes.length → memByte (a + k) t.sram = bytes.getD k 0) ∧
      (∀ x, x < a ∨ a + bytes.length ≤ x → memByte x t.sram = memByte x s.sram) ∧
      ((t.pair p).undo.take (storeWords a bytes.length).length).map (·.addr) = (storeWords a bytes.length).reverse ∧
      (∀ u ∈ ((t.pair p).undo.take (storeWords a bytes.length).length), u.space = .sram ∧ u.bytes = memBytes u.addr 8 s.sram)
        ∧ (t.pair p).undo.drop (storeWords a bytes.length).length = (s.pair p).undo ∧ OnlyChanged s t [] [.pairs, .sram]) ∧
  (∀ (s : State) (p a : Nat) (bytes : List Byte), s.pairs.length = 6 → p < 6 → s.pairRuns p = true →
    (s.pair p).halted = false → (s.pair p).stalled = [] → (s.pair p).undo.length + (storeWords a bytes.length).length ≤ 4096 →
    Answers (.pairStore p .dram a bytes) s fun t =>
      (∀ k, k < bytes.length → memByte (a + k) t.dram = bytes.getD k 0) ∧
      (∀ x, x < a ∨ a + bytes.length ≤ x → memByte x t.dram = memByte x s.dram) ∧
      ((t.pair p).undo.take (storeWords a bytes.length).length).map (·.addr) = (storeWords a bytes.length).reverse ∧
      (∀ u ∈ ((t.pair p).undo.take (storeWords a bytes.length).length), u.space = .dram ∧ u.bytes = memBytes u.addr 8 s.dram)
        ∧ (t.pair p).undo.drop (storeWords a bytes.length).length = (s.pair p).undo ∧
      OnlyChanged s t [] [.pairs, .dram, .prot]) ∧
  (∀ (s : State) (p : Nat) (sp : Space) (a : Nat) (bytes : List Byte), s.pairs.length = 6 → p < 6 → s.pairRuns p = true →
    (s.pair p).halted = false → (s.pair p).stalled = [] → (s.pair p).undo ≠ [] →
    4096 < (s.pair p).undo.length + (storeWords a bytes.length).length → Answers (.pairStore p sp a bytes) s fun t =>
      (t.pair p).stalled = [(sp, a, bytes)] ∧ (t.pair p).undo = (s.pair p).undo ∧ t.sram = s.sram ∧ t.dram = s.dram) ∧
  (∀ (s : State) (p k : Nat), s.pairs.length = 6 → (List.range 6).find? (fun p => (s.pair p).takeover) = some p →
    s.takeoverPair p = some k → k ≠ (s.pair p).takeoverFor → (s.pair p).takeoverFor < 16 → Answers (.pairTakeover) s fun t =>
      t.pairState k = 5 ∧ t.pairState p = s.pairState p ∧
      t.fld (if k = 5 then F.SYS_PAIR_STATUS_SPARE_FOR else F.UPD_HANDOVER_X_FOR) = (s.pair p).takeoverFor ∧
      (t.pair p).takeover = false ∧ (t.pair p).undo = [] ∧ (t.pair k).checkpoint = (s.pair p).checkpoint ∧
      (t.pair k).replay = (s.pair p).checkpoint.map (·.row) ∧
      (∀ u, (s.pair p).undo.getLast? = some u → ∀ i, i < u.bytes.length → memByte (u.addr + i) (t.mem u.space) = u.bytes.getD
        i 0) ∧
      (∀ sp x, (∀ u ∈ (s.pair p).undo, ¬ (u.space = sp ∧ u.addr ≤ x ∧ x < u.addr + u.bytes.length)) → memByte x (t.mem sp) =
        memByte x (s.mem sp)))

/-- The Cable (R18 to R20): a packet in order with a good CRC makes its link expect the next number; the hub holds it
behind the earlier ones, or answers its source where the target is absent, and a unit gets the oldest of its source;
any other packet is discarded with the later ones, a replay of the first that fails again is counted, and the eighth
is CABLE_FAIL: the gates are withdrawn, the heads retract and every controller gets CFS. -/
def Obligations.CableLinks : Prop :=
  (∀ (s : State) (g : Nat) (x : CablePacket), g < 12 → s.cable.links.length = 24 → s.noInjection = true →
    s.neverSent (s.link g false) false x = false → x.crcOk = true → x.seq % 256 = (s.link g false).expected →
    s.unitAbsent x.target = false → Answers (.cablePacketReceive g false x) s fun t =>
      t.link g false = (⟨((s.link g false).expected + 1) % 256, 0, false, (s.link g false).awaited - 1⟩ : CableLink) ∧
      t.cable.hub = s.cable.hub ++ [⟨x.source, x.target, x.content⟩] ∧ t.cable.delivered = s.cable.delivered ∧
      OnlyChanged s t [] [.cable, .pairs]) ∧
  (∀ (s : State) (g : Nat) (x : CablePacket), g < 12 → s.cable.links.length = 24 → s.noInjection = true →
    s.neverSent (s.link g false) false x = false → x.crcOk = true → x.seq % 256 = (s.link g false).expected →
    s.unitAbsent x.target = true → Answers (.cablePacketReceive g false x) s fun t =>
      (t.link g false).expected = ((s.link g false).expected + 1) % 256 ∧
      t.cable.answers = (x.source, x.target, !x.register) :: s.cable.answers ∧ t.cable.hub = s.cable.hub ∧
      t.cable.delivered = s.cable.delivered ∧ (x.register = true → OnlyChanged s t [] [.cable])) ∧
  (∀ (s : State) (g : Nat) (x : CablePacket) (y : CableItem), g < 12 → s.cable.links.length = 24 → s.noInjection = true →
    x.crcOk = true → x.seq % 256 = (s.link g true).expected →
    s.cable.hub.find? (fun y => decide (y.source = x.source) && decide (y.target = x.target)) = some y →
    Answers (.cablePacketReceive g true x) s fun t =>
      t.link g true = (⟨((s.link g true).expected + 1) % 256, 0, false, (s.link g true).awaited - 1⟩ : CableLink) ∧
      t.cable.delivered = y :: s.cable.delivered ∧
      t.cable.hub = s.cable.hub.eraseP (fun y => decide (y.source = x.source) && decide (y.target = x.target)) ∧
      OnlyChanged s t [] [.cable]) ∧
  (∀ (s : State) (g : Nat) (h : Bool) (x : CablePacket), g < 12 → s.cable.links.length = 24 → s.noInjection = true →
    s.neverSent (s.link g h) h x = false → (x.crcOk = false ∨ x.seq % 256 ≠ (s.link g h).expected) →
    (s.link g h).discarding = false → Answers (.cablePacketReceive g h x) s fun t =>
      (t.link g h).discarding = true ∧ (t.link g h).expected = (s.link g h).expected ∧ (t.link g h).replays = 0 ∧
      OnlyChanged s t [] [.cable]) ∧
  (∀ (s : State) (g : Nat) (h : Bool) (x : CablePacket), g < 12 → s.cable.links.length = 24 → s.noInjection = true →
    s.neverSent (s.link g h) h x = false → x.crcOk = false → x.seq % 256 = (s.link g h).expected →
    (s.link g h).discarding = true → Answers (.cablePacketReceive g h x) s fun t =>
      (t.link g h).discarding = true ∧ (t.link g h).expected = (s.link g h).expected ∧
      (t.link g h).replays = (s.link g h).replays + 1 ∧ OnlyChanged s t [] [.cable]) ∧
  (∀ (s : State) (g : Nat) (h : Bool) (x : CablePacket), g < 12 → s.cable.links.length = 24 → s.noInjection = true →
    s.neverSent (s.link g h) h x = false → x.seq % 256 ≠ (s.link g h).expected → (s.link g h).discarding = true →
    Answers (.cablePacketReceive g h x) s fun t =>
      (t.link g h).discarding = true ∧ (t.link g h).expected = (s.link g h).expected ∧
      (t.link g h).replays = (s.link g h).replays ∧ OnlyChanged s t [] [.cable]) ∧
  (∀ (s : State) (g : Nat) (h : Bool), 8 ≤ (s.link g h).replays → s.cable.failed.contains g = false →
    Answers (.cableFail g h) s fun t =>
      t.cable.failed = g :: s.cable.failed ∧
      (∀ a < 2, s.hasAct a = true → t.fld (F.ACT_STATUS_WG a) = 0 ∧ t.fld (F.ACT_STATUS_AEN a) = 0) ∧
      (∀ a < 2, 1 ≤ s.fld (F.ACT_STATUS_LOAD_STATE a) → s.fld (F.ACT_STATUS_LOAD_STATE a) ≤ 3 → t.fld
        (F.ACT_STATUS_LOAD_STATE a) = 4 ∧ t.fld (F.ACT_STATUS_RETRACT_CAUSE a) = 6) ∧
      t.fld F.HIF_CFS_CFS = s.fld F.HIF_CFS_CFS ||| s.allControllers ∧ t.on F.DRN_EV_UNCOVERED = true)

/-- Phases 1 to 3 of a cold cast-on (R94, R96, R111): the Keeper starts, qualifies the inputs, closes both switches,
waits for both nodes, retries after a failure, and counts the rails up to phase 4. -/
def Obligations.PowerOnPhases : Prop :=
  (∀ (s : State), s.keeperRuns = false → Answers (.vin5AonRise) s fun t =>
      t.keeper.powered = true ∧ t.keeper.halted = false ∧ t.keeper.hold = .none ∧ t.keeper.railsGood = 0 ∧
      t.keeper.inReset = true ∧ t.fld F.SYS_RST_CAUSE_LAST = 0 ∧ t.cast.cold = true) ∧
  (∀ (s : State), s.early = true → s.keeper.retry = false → s.keeper.closing = false → s.keeper.ramp12 = false →
    Answers (.keeperQualifyDone) s fun t =>
      t.fld F.PWR_STATUS_VIN12_OK = 1 ∧ t.fld F.PWR_STATUS_VIN5_OK = 1 ∧ t.fld F.PWR_STATUS_SW12_ON = 1 ∧
      t.fld F.PWR_STATUS_SW5_ON = 1 ∧ t.keeper.closing = true ∧ OnlyChanged s t [R.PWR_STATUS] [.keeper]) ∧
  (∀ (s : State) (n : Nat), n < 2 → s.keeper.closing = true → Answers (.switchRampDone n) s fun t =>
      t.keeper.ramp12 = (s.keeper.ramp12 || n == 0) ∧ t.keeper.ramp5 = (s.keeper.ramp5 || n == 1) ∧
      t.keeper.closing = !(t.keeper.ramp12 && t.keeper.ramp5) ∧ OnlyChanged s t [] [.keeper]) ∧
  (∀ (s : State), s.keeper.closing = true → Answers (.inrushTimeout) s fun t =>
      t.fld F.PWR_STATUS_SW12_ON = 0 ∧ t.fld F.PWR_STATUS_SW5_ON = 0 ∧ t.fld F.PWR_EVENTS_INRUSH_TIMEOUT = 1 ∧
      t.keeper.retry = true ∧ t.keeper.closing = false ∧ t.keeper.railsGood = 0 ∧
      OnlyChanged s t [R.PWR_STATUS, R.PWR_EVENTS] [.keeper]) ∧
  (∀ (s : State), s.keeperRuns = true → s.keeper.retry = true → Answers (.powerRetry) s fun t =>
      t.keeper.retry = false ∧ OnlyChanged s t [] [.keeper]) ∧
  (∀ (s : State), s.early = true → (s.keeper.closing = true ∨ s.keeper.ramp12 = true ∧ s.keeper.ramp5 = true) →
    Answers (.earlyLoss) s fun t =>
      (t.on F.PWR_STATUS_VIN12_OK && t.on F.PWR_STATUS_VIN5_OK) = false ∧ t.fld F.PWR_STATUS_SW12_ON = 0 ∧
      t.fld F.PWR_STATUS_SW5_ON = 0 ∧ t.fld F.PWR_EVENTS_EARLY_LOSS = 1 ∧ t.keeper.retry = true ∧ t.keeper.railsGood = 0 ∧
      OnlyChanged s t [R.PWR_STATUS, R.PWR_EVENTS] [.keeper, .draws]) ∧
  (∀ (s : State), s.early = true → s.keeper.closing = false → s.keeper.ramp12 = true → s.keeper.ramp5 = true →
    s.keeper.railsGood < 5 → Answers (.railPowerGood) s fun t =>
      t.keeper.railsGood = s.keeper.railsGood + 1 ∧ t.fld F.PWR_STATUS_RAIL_PG = railBits (s.keeper.railsGood + 1) ∧
      OnlyChanged s t [R.PWR_STATUS] [.keeper]) ∧
  (∀ (s : State), s.early = true → s.keeper.closing = false → s.keeper.ramp12 = true → s.keeper.ramp5 = true →
    s.keeper.railsGood = 5 → s.pins.testMode = false → Answers (.railPowerGood) s fun t =>
      t.keeper.railsGood = 6 ∧ t.fld F.PWR_STATUS_RAIL_PG = 0x3F ∧ t.keeper.inReset = false ∧ t.keeper.released = true ∧
      t.fld F.SYS_CASTON_PHASE = 2)

/-- Cast-on from phase 4 on (R111 to R116, R122): each phase ends in the next; a failed self-test ends it in FAILED;
the load starts the pairs, or ends in RECOVERY; legacy release and HOST_READY do what they say. -/
def Obligations.CastOnPhases : Prop :=
  (∀ (s : State), s.keeper.inReset = true → s.cast.cold = false → s.keeper.hold = .none → s.keeper.powered = true →
    s.keeper.halted = false → s.keeper.bindOff = false → s.pins.testMode = false → Answers (.logicDieResetEnd) s fun t =>
      t.fld F.SYS_CASTON_PHASE = 2 ∧ t.keeper.inReset = false ∧ t.keeper.released = true ∧
      t.fld F.KEEP_PCC_COUNT = s.fld F.KEEP_PCC_COUNT) ∧
  (∀ (s : State) (n : Nat), s.fld F.SYS_CASTON_PHASE = 2 → s.keeper.inReset = false → n ≤ 192 - s.fuse.sramSpares →
    Answers (.selftestDone n true true true) s fun t =>
      t.fld F.SYS_CASTON_PHASE = 4 ∧ t.fld F.SRM_STATUS_SPARES_SOFT = n ∧
      t.fld F.SRM_STATUS_SPARES_FREE = (192 - s.fuse.sramSpares - n)) ∧
  (∀ (s : State) (n : Nat) (w p : Bool), s.fld F.SYS_CASTON_PHASE = 2 → s.keeper.inReset = false →
    Answers (.selftestDone n false w p) s fun t =>
      t.fld F.SYS_CASTON_PHASE = 15 ∧ t.fld F.SYS_CASTON_ERROR = 1) ∧
  (∀ (s : State), s.fld F.SYS_CASTON_PHASE = 4 → s.keeper.inReset = false → Answers (.patternPhaseDone) s fun t =>
      t.fld F.SYS_CASTON_PHASE = 5 ∧ t.cast.built = true) ∧
  (∀ (s : State) (l : List (Nat × Nat)), s.fld F.SYS_CASTON_PHASE = 5 → s.keeper.inReset = false →
    (l.filter fun f => f.1 == 0).eraseDups.length ≤ s.fld F.MEM_THRESH_TEST_MAX →
    (l.filter fun f => f.1 == 1).eraseDups.length ≤ s.fld F.MEM_THRESH_TEST_MAX → Answers (.dramTrainDone l) s fun t =>
      t.fld F.SYS_CASTON_PHASE = 6 ∧
      ∀ d < 2, t.fld (F.MEM_TEST_FAILS d) = (l.filter fun f => f.1 == d).eraseDups.length % 2 ^ (F.MEM_TEST_FAILS d).width) ∧
  (∀ (s : State), s.fld F.SYS_CASTON_PHASE = 6 → s.keeper.inReset = false → s.romOnly = false →
    Answers (.loadDone) s fun t =>
      t.fld F.SYS_CASTON_PHASE = (if (State.loadAll (if s.pattern.active.topology.legacy then [4] else [2, 3, 4])
        s).2.1.isSome then 14 else 7) ∧ t.pairState 0 = 1) ∧
  (∀ (s : State), s.fld F.SYS_CASTON_PHASE = 6 → s.keeper.inReset = false → s.romOnly = true →
    Answers (.loadDone) s fun t =>
      t.fld F.SYS_CASTON_PHASE = 14 ∧ t.fld F.SYS_CASTON_ERROR = 0x10 ∧ t.cast.recovery = true ∧ t.pairState 0 = 1) ∧
  (∀ (s : State), s.cast.legacyHeld = true → Answers (.legacyRelease) s fun t =>
      t.cast.legacyHeld = false ∧ t.pairState 3 = 1 ∧ t.pairState 4 = 1 ∧ t.pairState 5 = 3) ∧
  (∀ (s : State), s.fld F.SYS_CASTON_PHASE = 7 → s.keeper.inReset = false → Answers (.hostReady) s fun t =>
      t.fld F.SYS_CASTON_PHASE = 8 ∧ t.fld F.SYS_CASTON_HOST_READY = 1 ∧
      OnlyChanged s t [R.SYS_CASTON, R.SYS_CASTON_TIME] [.draws]) ∧
  (∀ (s : State) (c : Nat) (x : Controller), c < 32 → s.controller c = some x → x.enabled = true → s.rdy c = false →
    s.fld F.SYS_CASTON_HOST_READY = 1 → s.keeper.restoring = false → s.activatesAtNssr = false → s.hostResets = true →
    Answers (.controllerReady c) s fun t =>
      t.rdy c = true ∧ t.fld F.PAT_STATUS_LOCKED = 1 ∧ t.cast.firstReady = true ∧
      OnlyChanged s t [R.HIF_CTRL_RDY, R.PAT_STATUS] [.cast, .pins])

/-- The Pattern at run time (R59 to R64): the lock, the copy of a container into the loader, its cancelling, the
validator's verdict, and the panels' taking effect at a boundary. -/
def Obligations.PatternCommands : Prop :=
  (∀ (s : State), Answers (.patLockCmd) s fun t =>
      t.fld F.PAT_STATUS_LOCKED = 1 ∧ OnlyChanged s t [R.PAT_STATUS] []) ∧
  (∀ (s : State), s.fld F.PAT_STATUS_RELOAD_BUSY = 0 → Answers (.patReload) s fun t =>
      t.fld F.PAT_STATUS_RELOAD_BUSY = 1 ∧
      t.pattern.buffer.length = (if 0x40000 < ofLe (memBytes (s.fld F.PAT_RELOAD_ADDR_ADDR + 8) 4 s.sram) then 0x200 else max
        0x200 (ofLe (memBytes (s.fld F.PAT_RELOAD_ADDR_ADDR + 8) 4 s.sram))) ∧
      t.pattern.buffer = memBytes (s.fld F.PAT_RELOAD_ADDR_ADDR) t.pattern.buffer.length s.sram ∧
      t.pattern.source = s.fld F.PAT_RELOAD_ADDR_ADDR ∧ OnlyChanged s t [R.PAT_STATUS] [.pattern]) ∧
  (∀ (s : State), s.fld F.PAT_STATUS_RELOAD_BUSY = 1 → Answers (.patReload) s fun t =>
      t.fld F.PAT_STATUS_RELOAD_BUSY = 1 ∧ t.fld F.PAT_STATUS_RELOAD_ERR = 0xF ∧ t.pattern = s.pattern) ∧
  (∀ (s : State), s.fld F.PAT_STATUS_RELOAD_BUSY = 1 → Answers (.patCancel) s fun t =>
      t.fld F.PAT_STATUS_RELOAD_BUSY = 0 ∧ t.fld F.PAT_STATUS_RELOAD_PEND = 0 ∧ t.fld F.PAT_STATUS_RELOAD_ERR = 0x10 ∧
      t.pattern.buffer = [] ∧ t.pattern.waiting = none ∧ t.pattern.active = s.pattern.active) ∧
  (∀ (s : State), s.fld F.PAT_STATUS_RELOAD_BUSY = 1 → s.fld F.PAT_STATUS_RELOAD_PEND = 0 → 0x10000000 ≤ s.pattern.source →
    s.pattern.source < 0x13000000 → Answers (.repatternValidated) s fun t =>
      t.pattern.active = s.pattern.active ∧
      (∀ x, (validatePattern s.fuse s.pattern.buffer (some (s.pattern.entries, s.activeSvn)) (sramSpan (s.pattern.source)
        (leField s.pattern.buffer 8 4))).result = .ok x → t.fld F.PAT_STATUS_RELOAD_BUSY = 1 ∧ t.fld F.PAT_STATUS_RELOAD_PEND
        = 1 ∧ t.pattern.waiting = some (x.entries, x.digest, x.svn)) ∧
      ∀ e, (validatePattern s.fuse s.pattern.buffer (some (s.pattern.entries, s.activeSvn)) (sramSpan (s.pattern.source)
        (leField s.pattern.buffer 8 4))).result = .error e → t.fld F.PAT_STATUS_RELOAD_BUSY = 0 ∧
      t.fld F.PAT_STATUS_RELOAD_PEND = 0 ∧ t.fld F.PAT_STATUS_RELOAD_ERR = e.code % 2 ^ F.PAT_STATUS_RELOAD_ERR.width ∧
      t.pattern.buffer = [] ∧ t.pattern.waiting = none) ∧
  (∀ (s : State) (l : List PatternEntry) (d : Digest) (v : Nat), s.flow.lastPassed = true → s.row.swapped = false →
    s.upd.activation = none → s.pattern.waiting = some (l, d, v) → Answers (.repatternApply) s fun t =>
      t.fld F.PAT_STATUS_RELOAD_BUSY = 0 ∧ t.fld F.PAT_STATUS_RELOAD_PEND = 0 ∧ t.fld F.PAT_STATUS_RELOAD_DONE = 1 ∧
      t.pattern.waiting = none ∧ t.pattern.runtimeSvn = some v ∧ t.pattern.buffer = [] ∧
      t.pattern.active = s.pattern.active.withPanels l (panelsOf (s.pattern.buffer.take (leField s.pattern.buffer 8 4)) l) ∧
      t.row.swapped = true)

/-- Device resets (R112, R117, R122, R124, R125): a warm reset takes effect only with its key and not in FAILED, a
watchdog expiry names its pair, the kick and the configuration of the watchdog. -/
def Obligations.ResetsAndWatchdog : Prop :=
  (∀ (s : State), s.keeper.inReset = false → s.keeper.bindOff = false → s.fld F.SYS_CASTON_PHASE ≠ 0xF →
    Answers (.warmReset 0xA55A) s fun t =>
      t.keeper.inReset = true ∧ t.keeper.released = false ∧ t.fld F.SYS_RST_CAUSE_LAST = 3 ∧
      t.fld F.SYS_RST_CAUSE_WDOG_PAIR = 15 ∧
      t.fld F.SYS_RST_CAUSE_WARM_COUNT = min (s.fld F.SYS_RST_CAUSE_WARM_COUNT + 1) (2 ^ F.SYS_RST_CAUSE_WARM_COUNT.width -
        1) ∧ t.cast.cold = false ∧ t.sram = [] ∧ t.dram = []) ∧
  (∀ (s : State) (k : Nat), s.fld F.SYS_CASTON_PHASE = 0xF → Answers (.warmReset k) s fun t =>
      t = s) ∧
  (∀ (s : State) (k : Nat), k ≠ 0xA55A → Answers (.warmReset k) s fun t =>
      t = s) ∧
  (∀ (s : State) (p : Nat), p < 5 → s.standsInFor p = none → s.pairRuns p = true → (s.pair p).halted = false →
    s.on (F.SYS_WDOG_PAIRS.at p) = true → 0 < s.fld F.SYS_WDOG_PERIOD →
    s.fld F.SYS_WDOG_PERIOD ≤ s.rowCount - s.cast.kicked.getD p 0 → s.keeper.inReset = false → s.keeper.bindOff = false →
    s.fld F.SYS_CASTON_PHASE ≠ 0xF → Answers (.watchdogExpiry p) s fun t =>
      t.keeper.inReset = true ∧ t.fld F.SYS_RST_CAUSE_LAST = 5 ∧ t.fld F.SYS_RST_CAUSE_WDOG_PAIR = p ∧ t.cast.cold = false) ∧
  (∀ (s : State) (m : Nat), s.cast.kicked.length = 5 → Answers (.watchdogKick m) s fun t =>
      (∀ p < 5, m.testBit p = true → s.standsInFor p = none → (s.pair p).halted = false → t.cast.kicked.getD p 0 =
        s.rowCount) ∧ (∀ p < 5, m.testBit p = false → t.cast.kicked.getD p 0 = s.cast.kicked.getD p 0) ∧
      OnlyChanged s t [] [.cast]) ∧
  (∀ (s : State) (period m : Nat), 0 < period → period < 2 ^ 16 → m < 2 ^ 5 → Answers (.watchdogConfig period m) s fun t =>
      t.fld F.SYS_WDOG_PERIOD = period ∧ t.fld F.SYS_WDOG_PAIRS = m ∧ OnlyChanged s t [R.SYS_WDOG] [.cast]) ∧
  (∀ (s : State) (m : Nat), 0 < s.fld F.SYS_WDOG_PERIOD → m < 2 ^ 5 → Answers (.watchdogConfig 0 m) s fun t =>
      t.fld F.SYS_WDOG_PERIOD = s.fld F.SYS_WDOG_PERIOD ∧ t.fld F.SYS_WDOG_PAIRS = m ∧ OnlyChanged s t [R.SYS_WDOG] [.cast])

/-- Host resets (R115 to R120, R264): an NVM subsystem reset, PERST, FLR, clearing VF Enable and CC.EN reach the
controllers they name; enabling a controller makes its admin queues. -/
def Obligations.HostResets : Prop :=
  (∀ (s : State), s.hostResets = true → s.record.atReset = false → Answers (.nssr 0x4E564D65) s fun t =>
      (∀ p < 2, t.fld (F.HIF_PORT_STATUS_LINK_UP p) = 0) ∧ ∀ x ∈ t.host.controllers, x.enabled = false) ∧
  (∀ (s : State) (v : Nat), v ≠ 0x4E564D65 → Answers (.nssr v) s fun t =>
      t = s) ∧
  (∀ (s : State) (p : Nat), p < 2 → s.portExists p = true → s.hostResets = true → s.host.perst.length = 2 →
    Answers (.perstAssert p) s fun t =>
      t.fld (F.HIF_PORT_STATUS_PERST p) = 1 ∧ t.fld (F.HIF_PORT_STATUS_LINK_UP p) = 0 ∧ t.host.perst.getD p false = true ∧
      ∀ x ∈ t.host.controllers, x.cntlid / 16 = p → x.enabled = false) ∧
  (∀ (s : State) (p : Nat), p < 2 → s.portExists p = true → s.host.perst.length = 2 → s.host.linkTraining.length = 2 →
    Answers (.perstDeassert p) s fun t =>
      t.fld (F.HIF_PORT_STATUS_PERST p) = 0 ∧ t.host.perst.getD p true = false ∧
      t.host.linkTraining.getD p false = s.cast.built ∧ OnlyChanged s t [R.HIF_PORT_STATUS p] [.host]) ∧
  (∀ (s : State) (p f : Nat), p < 2 → s.functionExists p f = true → s.hostResets = true → Answers (.flr p f) s fun t =>
      t.rdy (16 * p + f) = false ∧ ∀ x ∈ t.host.controllers, x.cntlid = 16 * p + f → x.enabled = false) ∧
  (∀ (s : State) (p : Nat), p < 2 → s.portExists p = true → s.hostResets = true → s.host.vfEnable.length = 2 →
    Answers (.vfEnableClear p) s fun t =>
      t.fld (F.HIF_PORT_STATUS_NUMVFS p) = 0 ∧ t.host.vfEnable.getD p true = false ∧
      ∀ x ∈ t.host.controllers, x.cntlid / 16 = p → x.cntlid % 16 ≠ 0 → x.enabled = false) ∧
  (∀ (s : State) (c : Nat) (x : Controller), c < 32 → s.controller c = some x → x.enabled = true → s.hostResets = true →
    Answers (.controllerReset c) s fun t =>
      t.rdy c = false ∧ ∀ y ∈ t.host.controllers, y.cntlid = c → y.enabled = false) ∧
  (∀ (s : State) (c css asqs acqs : Nat) (x : Controller), s.controller c = some x → x.enabled = false → x.offline = false →
    s.functionExists (c / 16) (c % 16) = true → s.hostResets = true → s.on (F.HIF_PORT_STATUS_LINK_UP (c / 16)) = true →
    Answers (.controllerEnable c css asqs acqs) s fun t =>
      t.controller c = some { x with enabled := true, css := css, asqs := asqs, acqs := acqs } ∧
      t.host.rings = s.host.rings ++ [⟨s.sqRing c 0, asqs, 0, 0, 0, 0, []⟩, ⟨s.cqRing c 0, acqs, 0, 0, 0, 0, []⟩] ∧
      OnlyChanged s t [] [.host])

/-- Bind-off and the holds (R70, R81, R91, R95, R102, R105, R106): what each leaves of the inputs, the switches, the
outputs and the Keeper. -/
def Obligations.HoldsAndBindOff : Prop :=
  (∀ (s : State), s.keeperRuns = true → s.keeper.bindOff = false → s.keeper.hold = .none → s.keeper.inReset = false →
    Answers (.testModeRise) s fun t =>
      t.pins.testMode = true ∧ t.keeper.hold = .testMode ∧ t.keeper.inReset = true ∧ t.keeper.released = false) ∧
  (∀ (s : State), s.keeperRuns = true → s.keeper.hold = .testMode → s.on F.PWR_STATUS_SW12_ON = true →
    s.on F.PWR_STATUS_SW5_ON = true → s.keeper.railsGood = 6 → Answers (.testModeRelease) s fun t =>
      t.pins.testMode = false ∧ t.keeper.hold = .none ∧ t.fld F.SYS_RST_CAUSE_LAST = 6 ∧ t.keeper.inReset = false ∧
      t.fld F.SYS_CASTON_PHASE = 2) ∧
  (∀ (s : State), s.keeperRuns = true → s.keeper.hold = .testMode →
    (s.on F.PWR_STATUS_SW12_ON = false ∨ s.on F.PWR_STATUS_SW5_ON = false) → Answers (.testModeRelease) s fun t =>
      t.pins.testMode = false ∧ t.keeper.hold = .none ∧ t.fld F.SYS_RST_CAUSE_LAST = 6 ∧ t.keeper.inReset = true ∧
      t.fld F.SYS_CASTON_PHASE = 0) ∧
  (∀ (s : State), s.keeper.bindOff = true → Answers (.outputRelease) s fun t =>
      t.pins = { Pins.reset with testMode := s.pins.testMode } ∧ t.keeper.released = false ∧ t.spn.driving = false ∧
      t.spn.generator = false ∧ (∀ x ∈ t.acts, x.coil = .off ∧ x.ma = 0) ∧ OnlyChanged s t [] [.pins, .keeper, .spn, .acts]) ∧
  (∀ (s : State), s.keeper.inReset = false → Answers (.tempWarning true) s fun t =>
      t.host.smart.testBit 1 = true) ∧
  (∀ (s : State), s.keeper.inReset = false → Answers (.tempWarning false) s fun t =>
      t.host.smart.testBit 1 = false ∧ OnlyChanged s t [] [.host]) ∧
  (∀ (s : State), s.keeper.inReset = false → Answers (.tempCritical true) s fun t =>
      t.host.smart.testBit 1 = true) ∧
  (∀ (s : State), s.keeper.inReset = false → s.keeper.bindOff = false → Answers (.thermalBindOff) s fun t =>
      t.keeper.hold = .thermal ∧ t.keeper.inReset = true ∧ t.keeper.released = false) ∧
  (∀ (s : State), s.keeperRuns = true → s.keeper.hold = .thermal → s.pins.testMode = false →
    s.on F.PWR_STATUS_SW12_ON = true → s.on F.PWR_STATUS_SW5_ON = true → s.keeper.railsGood = 6 →
    Answers (.thermalRelease) s fun t =>
      t.keeper.hold = .none ∧ t.fld F.SYS_RST_CAUSE_LAST = 2 ∧ t.keeper.inReset = false ∧ t.fld F.SYS_CASTON_PHASE = 2) ∧
  (∀ (s : State), s.keeperRuns = true → s.keeper.hold = .thermal →
    (s.on F.PWR_STATUS_SW12_ON = false ∨ s.on F.PWR_STATUS_SW5_ON = false) → Answers (.thermalRelease) s fun t =>
      t.keeper.hold = .none ∧ t.fld F.SYS_RST_CAUSE_LAST = 2 ∧ t.keeper.inReset = true ∧ t.fld F.SYS_CASTON_PHASE = 0) ∧
  (∀ (s : State) (n : Nat), n < 2 → s.keeperRuns = true → s.on (switchFld n) = true → Answers (.reverseTrip n) s fun t =>
      t.fld (switchFld n) = 0 ∧ OnlyChanged s t [R.PWR_STATUS, R.PWR_EVENTS] []) ∧
  (∀ (s : State) (n : Nat), n < 2 → s.keeperRuns = true → s.keeper.bindOff = false → s.keeper.retry = false →
    (s.keeper.closing || (if n = 0 then s.keeper.ramp12 else s.keeper.ramp5)) = true →
    (s.early && !s.keeper.closing) = false → Answers (.switchReclose n) s fun t =>
      t.fld (switchFld n) = 1 ∧ OnlyChanged s t [R.PWR_STATUS] []) ∧
  (∀ (s : State) (n : Nat), n < 2 → s.keeper.retry = false → s.keeper.bindOff = false → s.keeper.closing = false →
    (if n = 0 then s.keeper.ramp12 else s.keeper.ramp5) = true → s.early = true → s.on (switchFld (1 - n)) = true →
    s.keeper.railsGood = 6 → s.pins.testMode = false → Answers (.switchReclose n) s fun t =>
      t.fld (switchFld n) = 1 ∧ t.keeper.inReset = false ∧ t.fld F.SYS_CASTON_PHASE = 2) ∧
  (∀ (s : State) (obs : BindOffObs), (obs.vin12 && obs.vin5) = false → s.keeperRuns = true → s.keeper.bindOff = false →
    s.early = false → s.keeper.hold = .none → Answers (.bindOffStart obs) s fun t =>
      t.on F.PWR_STATUS_VIN12_OK = obs.vin12 ∧ t.on F.PWR_STATUS_VIN5_OK = obs.vin5 ∧ t.fld F.PWR_STATUS_SW12_ON = 0 ∧
      t.fld F.PWR_STATUS_SW5_ON = 0 ∧ t.keeper.bindOff = true ∧ t.keeper.boStep = min obs.step 11 ∧ t.keeper.halted = true ∧
      t.keeper.inReset = true) ∧
  (∀ (s : State), s.keeperRuns = true → Answers (.inputGlitch) s fun t =>
      t.fld F.PWR_EVENTS_GLITCH = 1 ∧ OnlyChanged s t [R.PWR_EVENTS] []) ∧
  (∀ (s : State), s.keeper.bindOff = true → s.keeper.boStep = 11 → Answers (.inputReturn) s fun t =>
      t.keeper.powered = true ∧ t.keeper.halted = false ∧ t.keeper.bindOff = false ∧ t.fld F.SYS_RST_CAUSE_LAST = 1 ∧
      t.cast.cold = true ∧ t.fld F.SYS_CASTON_PHASE = 0) ∧
  (∀ (s : State), s.keeperRuns = true → s.keeper.hold ≠ .none → Answers (.inputLossInHold) s fun t =>
      (t.on F.PWR_STATUS_VIN12_OK && t.on F.PWR_STATUS_VIN5_OK) = false ∧ t.fld F.PWR_STATUS_SW12_ON = 0 ∧
      t.fld F.PWR_STATUS_SW5_ON = 0 ∧ t.keeper.halted = true ∧ t.keeper.hold = .none ∧
      OnlyChanged s t [R.PWR_STATUS] [.keeper, .draws])

/-- Energy limits and saves (R97 to R101, R107): a current sample in ALIGN, ACCEL and CATCH adds its excess to the
reduction of the current reference (how it accumulates is the model's choice, assumption log 94), in any other state
it ends it; the computed ceiling waits for the boundary, where both figures of KEEP_CEILING change (assumption log
96); an early save starts where the unreserved energy falls short, its end commits the save and holds new writes; the
hold ends once the spindle is in RUN with no saved page dirty and no restore outstanding; a restore that is over
leaves no save. -/
def Obligations.EnergyAndSaves : Prop :=
  (∀ (s : State) (a b : Nat), s.keeper.inReset = false → a < 2 ^ 16 → b < 2 ^ 16 →
    (s.spnState = Spn.align ∨ s.spnState = Spn.accel ∨ s.spnState = Spn.catchState) →
    Answers (.spinupCurrentSample a b) s fun t =>
      t.fld F.PWR_IIN_IIN12_MA = a ∧ t.fld F.PWR_IIN_IIN5_MA = b ∧ t.spn.cut = s.spn.cut + a - s.fld F.PWR_CTRL_SPINUP_MA ∧
      t.fld F.PWR_STATUS_SPINUP_LIMITING = (if t.spn.cut = 0 then 0 else 1) ∧
      OnlyChanged s t [R.PWR_IIN, R.PWR_STATUS] [.spn]) ∧
  (∀ (s : State) (a b : Nat), s.keeper.inReset = false → a < 2 ^ 16 → b < 2 ^ 16 → s.spnState ≠ Spn.align →
    s.spnState ≠ Spn.accel → s.spnState ≠ Spn.catchState → Answers (.spinupCurrentSample a b) s fun t =>
      t.fld F.PWR_IIN_IIN12_MA = a ∧ t.fld F.PWR_IIN_IIN5_MA = b ∧ t.spn.cut = 0 ∧ t.fld F.PWR_STATUS_SPINUP_LIMITING = 0 ∧
      OnlyChanged s t [R.PWR_IIN, R.PWR_STATUS] [.spn]) ∧
  (∀ (s : State), s.keeper.inReset = false → Answers (.energyUpdate) s fun t =>
      t.keeper.pendingEnergy = some (s.energy.ceiling (s.fld F.KEEP_MODEL_RESERVE_PCT)) ∧
      t.fld F.KEEP_ENERGY_E_MECH_MJ = min (s.energy.mech * 1000 / energyDen).toNat (2 ^ 20 - 1) ∧
      t.fld F.KEEP_CEILING_ENERGY_MIB = s.fld F.KEEP_CEILING_ENERGY_MIB ∧
      t.fld F.KEEP_CEILING_EFFECTIVE_MIB = s.fld F.KEEP_CEILING_EFFECTIVE_MIB ∧
      t.on F.KEEP_STATUS_EARLY_SAVE = (s.on F.KEEP_STATUS_EARLY_SAVE || (s.boundPages != 0 && s.energy.short s.boundPages &&
        !s.on F.KEEP_STATUS_ENERGY_HOLD))) ∧
  (∀ (s : State) (d : Nat), s.keeper.inReset = false → s.fld F.ROWT_STATUS_SOURCE = 0 → s.row.leaving = false →
    s.keeper.pendingEnergy = some d → Answers (.idlePeriodExpiry) s fun t =>
      t.fld F.KEEP_CEILING_ENERGY_MIB = min d 1023 ∧
      t.fld F.KEEP_CEILING_EFFECTIVE_MIB = min d (s.fld F.KEEP_MODEL_DIRTY_CEILING_MIB) ∧ t.keeper.pendingEnergy = none) ∧
  (∀ (s : State), s.on F.KEEP_STATUS_EARLY_SAVE = true → Answers (.earlySaveDone) s fun t =>
      t.fld F.KEEP_STATUS_EARLY_SAVE = 0 ∧ t.fld F.KEEP_STATUS_ENERGY_HOLD = 1 ∧ t.fld F.KEEP_BO_LAST_RESULT = 4 ∧
      (s.cast.built = true → s.keeper.restoring = false → s.fld F.PAT_STATUS_STATE ≠ 3 → (t.keeper.saves.head?.map
        (·.commit)) = some true ∧ t.keeper.saves.tail = s.keeper.saves.tail ∧ t.fld F.KEEP_STATUS_SAVE_PRESENT = 1) ∧
      OnlyChanged s t [R.KEEP_BO_LAST, R.KEEP_STATUS] [.keeper, .stitch, .cip]) ∧
  (∀ (s : State), s.on F.KEEP_STATUS_ENERGY_HOLD = true → s.spnState = Spn.run → s.keeper.restoring = false →
    (∀ x, s.newestSave = some x → x.descriptors.any s.stillDirty = false) → Answers (.energyHoldClear) s fun t =>
      t.fld F.KEEP_STATUS_ENERGY_HOLD = 0 ∧ t.fld F.KEEP_STATUS_SAVE_PRESENT = 0 ∧ t.keeper.saves = [] ∧
      OnlyChanged s t [R.KEEP_STATUS] [.keeper]) ∧
  (∀ (s : State) (x : Save), s.newestSave = some x → x.descriptors.any s.stillDirty = true →
    Answers (.energyHoldClear) s fun t =>
      t = s) ∧
  (∀ (s : State), s.keeper.inReset = false → s.keeper.restoring = true →
    (s.fld F.SYS_CASTON_PHASE = 7 ∨ s.fld F.SYS_CASTON_PHASE = 8) → s.on F.STM_STATUS_READY = true → s.newestSave = none →
    Answers (.saveRestore) s fun t =>
      t.keeper.restoring = false ∧ t.keeper.saves = [] ∧ t.fld F.KEEP_STATUS_SAVE_PRESENT = 0 ∧
      OnlyChanged s t [R.KEEP_STATUS] [.keeper]) ∧
  (∀ (s : State) (x : Save), s.keeper.inReset = false → s.keeper.restoring = true →
    (s.fld F.SYS_CASTON_PHASE = 7 ∨ s.fld F.SYS_CASTON_PHASE = 8) → s.on F.STM_STATUS_READY = true → s.newestSave = some x →
    x.zones.all (fun z => s.fld (F.ACT_STATUS_LOAD_STATE (s.zoneHome z).1) == 2) = true → x.descCommit = false →
    Answers (.saveRestore) s fun t =>
      t.keeper.restoring = false ∧ t.keeper.saves = [] ∧ t.fld F.KEEP_STATUS_SAVE_PRESENT = 0) ∧
  (∀ (s : State) (x : Save), s.keeper.inReset = false → s.keeper.restoring = true →
    (s.fld F.SYS_CASTON_PHASE = 7 ∨ s.fld F.SYS_CASTON_PHASE = 8) → s.on F.STM_STATUS_READY = true → s.newestSave = some x →
    x.zones.all (fun z => s.fld (F.ACT_STATUS_LOAD_STATE (s.zoneHome z).1) == 2) = true → x.chunks.flatten = [] →
    Answers (.saveRestore) s fun t =>
      t.keeper.restoring = false ∧ t.keeper.saves = [] ∧ t.fld F.KEEP_STATUS_SAVE_PRESENT = 0) ∧
  (∀ (s : State) (x : Save), s.keeper.inReset = false → s.keeper.restoring = true →
    (s.fld F.SYS_CASTON_PHASE = 7 ∨ s.fld F.SYS_CASTON_PHASE = 8) → s.on F.STM_STATUS_READY = true → s.newestSave = some x →
    x.zones.all (fun z => s.fld (F.ACT_STATUS_LOAD_STATE (s.zoneHome z).1) == 2) = true →
    (State.restorePages ((x.pages.1.map (s.sealPage false x.seq)).foldl (fun l q => insertPage q l) []) s).isSome = true →
    Answers (.saveRestore) s fun t =>
      t.keeper.restoring = false ∧ t.keeper.saves = [] ∧ t.fld F.KEEP_STATUS_SAVE_PRESENT = 0)

/-- The Ledger after failed checks (R312 to R315): the second failed check in a row asks for WRITE_HOLD, and it begins
at the boundary: the writes that wait for admission are held with their flag; a RECOUNT and a RELEASE wait while it
is in force and set nothing else; a check that passes with a RELEASE pending asks for its end, and it ends at the
boundary with the flags. -/
def Obligations.WriteHold : Prop :=
  (∀ (s : State), s.flow.checked = false → s.flow.checksOff = false → s.on F.ORD_LEDGER_STATUS_RECOUNT_PEND = false →
    s.failingAccounts ≠ 0 → s.fld F.ORD_LEDGER_STATUS_FAULT_ROWS = 1 → s.on F.ORD_LEDGER_STATUS_WRITE_HOLD = false →
    s.host.ledgerReads = [] → Answers (.ledgerCheck) s fun t =>
      t.flow.enterHold = true ∧ t.flow.checked = true ∧ t.flow.lastPassed = false ∧
      t.fld F.ORD_LEDGER_STATUS_LEDGER_FAULT = 1 ∧ t.fld F.ORD_LEDGER_STATUS_FAULT_ROWS = 2 ∧
      t.fld F.ORD_LEDGER_STATUS_WRITE_HOLD = 0) ∧
  (∀ (s : State), s.flow.enterHold = true → s.flow.checked = false → Answers (.writeHoldEnter) s fun t =>
      t.fld F.ORD_LEDGER_STATUS_WRITE_HOLD = 1 ∧ t.flow.enterHold = false ∧
      t.flow.slots = s.flow.slots.map (fun x => if x.stage == .admitWait then { x with writeHeld := true } else x) ∧
      OnlyChanged s t [R.ORD_LEDGER_STATUS] [.flow, .host]) ∧
  (∀ (s : State), s.on F.ORD_LEDGER_STATUS_WRITE_HOLD = true → Answers (.ledgerRecount) s fun t =>
      t.fld F.ORD_LEDGER_STATUS_RECOUNT_PEND = 1 ∧ t.fld F.ORD_LEDGER_STATUS_WRITE_HOLD = 1 ∧
      OnlyChanged s t [R.ORD_LEDGER_STATUS] []) ∧
  (∀ (s : State), s.on F.ORD_LEDGER_STATUS_WRITE_HOLD = false → Answers (.ledgerRecount) s fun t =>
      t = s) ∧
  (∀ (s : State), s.on F.ORD_LEDGER_STATUS_WRITE_HOLD = true → Answers (.ledgerRelease) s fun t =>
      t.fld F.ORD_LEDGER_STATUS_RELEASE_PEND = 1 ∧ t.fld F.ORD_LEDGER_STATUS_WRITE_HOLD = 1 ∧
      OnlyChanged s t [R.ORD_LEDGER_STATUS] []) ∧
  (∀ (s : State), s.on F.ORD_LEDGER_STATUS_WRITE_HOLD = false → Answers (.ledgerRelease) s fun t =>
      t = s) ∧
  (∀ (s : State), s.flow.checked = false → s.flow.checksOff = false → s.on F.ORD_LEDGER_STATUS_RECOUNT_PEND = false →
    s.failingAccounts = 0 → s.on F.ORD_LEDGER_STATUS_RELEASE_PEND = true → s.host.ledgerReads = [] →
    Answers (.ledgerCheck) s fun t =>
      t.flow.leaveHold = true ∧ t.flow.checked = true ∧ t.flow.lastPassed = true ∧
      t.fld F.ORD_LEDGER_STATUS_LEDGER_FAULT = 0 ∧
      t.fld F.ORD_LEDGER_STATUS_WRITE_HOLD = s.fld F.ORD_LEDGER_STATUS_WRITE_HOLD ∧
      OnlyChanged s t [R.ORD_LEDGER_STATUS] [.flow, .host]) ∧
  (∀ (s : State), s.flow.leaveHold = true → s.flow.checked = false → Answers (.writeHoldRelease) s fun t =>
      t.fld F.ORD_LEDGER_STATUS_WRITE_HOLD = 0 ∧ t.fld F.ORD_LEDGER_STATUS_RELEASE_PEND = 0 ∧ t.flow.leaveHold = false) ∧
  (∀ (s : State), s.flow.leaveHold = true → s.flow.checked = false → s.darn.required = [] →
    Answers (.writeHoldRelease) s fun t =>
      ∀ x ∈ t.flow.slots, x.writeHeld = false)

/-- The commands of SPN_CMD (R56, R139, R141, R142): START from STOPPED begins a catch, and has no effect under the ROM
Pattern (assumption log 93), STOP from RUN brakes, COAST from RUN coasts, CLEAR ends LOCKED (that LOCK_CAUSE then
returns to 0, and RETRY on entry to CATCH and to RUN, is the model's choice, assumption log 102 and 103); a refused
command writes its code and changes nothing else. -/
def Obligations.SpindleCommands : Prop :=
  (∀ (s : State), s.spnRefusal 1 = 0 → s.spnState = Spn.stopped → s.fld F.PAT_STATUS_STATE ≠ 3 →
    Answers (.spnStart) s fun t =>
      t.spnState = Spn.catchState ∧ t.fld F.SPN_STATUS_CMD_ERR = 0 ∧ t.spn.measurements = 0 ∧
      t.fld F.SPN_STATUS_START_PEND = 0 ∧ t.fld F.SPN_STATUS_RETRY = 0) ∧
  (∀ (s : State), s.spnRefusal 1 = 0 → s.fld F.PAT_STATUS_STATE = 3 → Answers (.spnStart) s fun t =>
      t.spnState = s.spnState ∧ t.fld F.SPN_STATUS_CMD_ERR = 0 ∧ OnlyChanged s t [R.SPN_STATUS] []) ∧
  (∀ (s : State), s.spnRefusal 1 ≠ 0 → Answers (.spnStart) s fun t =>
      t.fld F.SPN_STATUS_CMD_ERR = s.spnRefusal 1 ∧ t.fld F.SPN_EV_CMD_REFUSED = 1 ∧ t.spnState = s.spnState ∧
      OnlyChanged s t [R.SPN_STATUS, R.SPN_EVENTS] []) ∧
  (∀ (s : State), s.spnRefusal 2 = 0 → s.spnState = Spn.run → Answers (.spnStop) s fun t =>
      t.spnState = Spn.brake ∧ t.fld F.SPN_STATUS_CMD_ERR = 0 ∧ t.fld F.SPN_STATUS_START_PEND = 0 ∧ t.spn.zeroVector = true) ∧
  (∀ (s : State), s.spnRefusal 4 = 0 → s.spnState = Spn.run → Answers (.spnCoast) s fun t =>
      t.spnState = Spn.coast ∧ t.fld F.SPN_STATUS_CMD_ERR = 0 ∧ t.fld F.SPN_STATUS_COAST_CAUSE = 0 ∧
      t.fld F.SPN_EV_COAST_ENTRY = 1) ∧
  (∀ (s : State), s.spnRefusal 8 = 0 → s.spnState = Spn.locked → Answers (.spnClear) s fun t =>
      t.spnState = Spn.stopped ∧ t.fld F.SPN_STATUS_CMD_ERR = 0 ∧ t.fld F.SPN_STATUS_LOCK_CAUSE = 0)

/-- From CATCH and ALIGN to RUN (R140, R142 to R144): a slow stack is aligned, a fast one is caught, a catch without a
lock brakes, ALIGN leads to ACCEL, a window without commutation retries up to LOCKED, and the speed band leads to
RUN. -/
def Obligations.SpindleStart : Prop :=
  (∀ (s : State) (fw : Bool) (rate amp ang : Nat), s.spnState = Spn.catchState → s.spn.catching = false →
    rate * 1000 < 3 * s.ratedSpeed → s.speedOfEmf amp * 1000 < 3 * s.ratedSpeed →
    Answers (.catchMeasureDone fw rate amp ang) s fun t =>
      t.spnState = Spn.align ∧ t.spn.measurements = s.spn.measurements + 1) ∧
  (∀ (s : State) (rate amp ang : Nat), s.spnState = Spn.catchState → s.spn.catching = false →
    (max rate (s.speedOfEmf amp) - min rate (s.speedOfEmf amp)) * 5 ≤ max rate (s.speedOfEmf amp) →
    s.ratedSpeed * 5 ≤ rate * 100 → 0 < rate → ang < 65536 → Answers (.catchMeasureDone true rate amp ang) s fun t =>
      t.spnState = Spn.catchState ∧ t.spn.catching = true ∧ t.spn.obsSpeed = rate ∧
      t.spn.intQ = (amp * 18919 / 32768 : Nat) * 2 ^ 12 ∧ t.fld F.SPN_ANGLE_OBS = ang) ∧
  (∀ (s : State), s.spnState = Spn.catchState → s.spn.catching = true → 64 * 65536 ≤ s.spn.catchAngle →
    Answers (.catchTimeout) s fun t =>
      t.spnState = Spn.brake ∧ t.spn.catching = false ∧ t.fld F.SPN_STATUS_START_PEND = 1) ∧
  (∀ (s : State) (n : Nat), s.spnState = Spn.align → Answers (.alignDone n) s fun t =>
      t.spnState = Spn.accel ∧ t.spn.stage = n) ∧
  (∀ (s : State), s.spnState = Spn.accel → s.spn.eventInWindow = true → Answers (.commutationTimeout) s fun t =>
      t.spnState = Spn.accel ∧ t.spn.eventInWindow = false ∧ OnlyChanged s t [] [.spn]) ∧
  (∀ (s : State), s.spnState = Spn.accel → s.spn.eventInWindow = false → s.fld F.SPN_STATUS_RETRY < 3 →
    Answers (.commutationTimeout) s fun t =>
      t.spnState = Spn.align ∧ t.fld F.SPN_STATUS_RETRY = s.fld F.SPN_STATUS_RETRY + 1 ∧ t.fld F.SPN_EV_RETRY = 1) ∧
  (∀ (s : State), s.spnState = Spn.accel → s.spn.eventInWindow = false → s.fld F.SPN_STATUS_RETRY = 3 →
    Answers (.commutationTimeout) s fun t =>
      t.spnState = Spn.locked ∧ t.fld F.SPN_STATUS_LOCK_CAUSE = 1 ∧ t.fld F.SPN_EV_LOCKED = 1) ∧
  (∀ (s : State), s.spnState = Spn.accel → 256 ≤ s.spn.bandRows → Answers (.speedBandReached) s fun t =>
      t.spnState = Spn.run ∧ t.fld F.SPN_STATUS_RETRY = 0) ∧
  (∀ (s : State), 4096 ≤ s.spn.ofsRows → Answers (.servoOffsetLearn) s fun t =>
      t.fld F.SPN_SERVO_OFS_OFS = toAngle (roundDiv s.spn.ofsSum s.spn.ofsRows) ∧ t.fld F.SPN_SERVO_OFS_VALID = 1 ∧
      t.spn.ofsRows = 0 ∧ OnlyChanged s t [R.SPN_SERVO_OFS] [.spn]) ∧
  (∀ (s : State) (obs : LoopObs), s.keeper.inReset = false → Answers (.currentLoopRun obs) s fun t =>
      t.spn.iu = obs.iu - roundDiv (s.sfld F.GAU_ISENSE_SPN_U) 2 ∧
      t.spn.iv = obs.iv - roundDiv (s.sfld F.GAU_ISENSE_SPN_V) 2 ∧
      t.spn.iw = obs.iw - roundDiv (s.sfld F.GAU_ISENSE_SPN_W) 2 ∧
      t.fld F.SPN_STATUS_WRITE_OK = (if (t.spnState = Spn.run ∨ t.spnState = Spn.hold) ∧ t.fld F.SPN_UNC_UNC ≤ 500 ∧
        t.speedWithin (t.fld F.SPN_CTRL_WR_TOL) = true then 1 else 0))

/-- Leaving RUN (R140, R145 to R148): a float window of HOLD, its timeout, a locked rotor, the end of COAST and of
BRAKE, and the retract of heads that are still loaded. -/
def Obligations.SpindleLosses : Prop :=
  (∀ (s : State) (o : Int) (a i : Nat), s.spnState = Spn.hold → s.fld F.SPN_STATUS_HOLD_MODE = 1 → o.natAbs ≤ 728 →
    s.spn.crossOk < 5 → Answers (.holdFloatWindow o a i) s fun t =>
      t.spnState = Spn.hold ∧ t.spn.crossOk = s.spn.crossOk + 1 ∧
      t.spn.crossLow = (if a * 10 < s.emfAt s.spn.reliableRpm then s.spn.crossLow + 1 else 0) ∧ OnlyChanged s t [] [.spn]) ∧
  (∀ (s : State), s.spnState = Spn.hold → 64 * 65536 ≤ s.spn.holdAngle → s.fld F.SPN_CTRL_AUTO_CATCH = 0 →
    Answers (.holdTimeout) s fun t =>
      t.spnState = Spn.coast ∧ t.fld F.SPN_STATUS_COAST_CAUSE = 1 ∧ t.fld F.SPN_EV_COAST_ENTRY = 1) ∧
  (∀ (s : State), s.spnState = Spn.hold → s.fld F.SPN_STATUS_HOLD_MODE = 1 → 8 ≤ s.spn.crossLow →
    Answers (.lockedRotor) s fun t =>
      t.spnState = Spn.locked ∧ t.fld F.SPN_STATUS_LOCK_CAUSE = 3 ∧ t.fld F.SPN_EV_LOCKED = 1) ∧
  (∀ (s : State), s.spnState = Spn.coast → s.fld F.SPN_STATUS_COAST_CAUSE = 0 → Answers (.coastStopped) s fun t =>
      t.spnState = Spn.stopped ∧ t.fld F.SPN_STATUS_START_PEND = 0) ∧
  (∀ (s : State) (a : Nat), s.spnState = Spn.coast → s.fld F.SPN_STATUS_COAST_CAUSE = 1 →
    s.fld (F.ACT_STATUS_LOAD_STATE a) = 2 → a < 2 → Answers (.coastRetractTimeout) s fun t =>
      t.fld (F.ACT_STATUS_LOAD_STATE a) = 4 ∧ t.fld (F.ACT_STATUS_RETRACT_CAUSE a) = 4) ∧
  (∀ (s : State), s.spnState = Spn.brake → 50 * 10 ^ 9 ≤ s.spn.belowPs → s.fld F.SPN_STATUS_START_PEND = 0 →
    Answers (.brakeDone) s fun t =>
      t.spnState = Spn.stopped) ∧
  (∀ (s : State), s.spnState = Spn.brake → 50 * 10 ^ 9 ≤ s.spn.belowPs → s.fld F.SPN_STATUS_START_PEND = 1 →
    Answers (.brakeDone) s fun t =>
      t.spnState = Spn.align ∧ t.fld F.SPN_STATUS_START_PEND = 0)

/-- The mailbox of a Needle (R171, R172): a push takes a credit and enters W0 and W1, a duplicate is discarded and one
without a credit is dropped; behind the deadline each command row takes the oldest entry, reports its result and tag,
and does what its opcode says. -/
def Obligations.NeedleMailbox : Prop :=
  (∀ (s : State) (n p q : Nat), n < 3 → n < s.needles.length → s.hasNeedle n = true → s.drives n = true →
    (s.needle n).pushed.contains (s.pushTag n p q) = false → 0 < s.avail (Class.creditFree n) →
    Answers (.ndlMbxPush ⟨n, p, q⟩) s fun t =>
      (t.needle n).mailbox = (s.needle n).mailbox ++ [(s.reg (R.NDL_MBX_W0 n), s.reg (R.NDL_MBX_W1 n))] ∧
      (t.needle n).pushed.headD (0, 0, 0, 0) = s.pushTag n p q ∧ (t.needle n).due = (s.needle n).due) ∧
  (∀ (s : State) (n p q : Nat), n < 3 → s.hasNeedle n = true → (s.needle n).pushed.contains (s.pushTag n p q) = false →
    (s.drives n = false ∨ s.avail (Class.creditFree n) = 0) → Answers (.ndlMbxPush ⟨n, p, q⟩) s fun t =>
      t.fld (F.NDL_FLAG_MBX_REFUSED n) = 1 ∧ OnlyChanged s t [R.NDL_FLAGS n] []) ∧
  (∀ (s : State) (n p q : Nat), n < 3 → s.hasNeedle n = true → (s.needle n).pushed.contains (s.pushTag n p q) = true →
    Answers (.ndlMbxPush ⟨n, p, q⟩) s fun t =>
      t = s) ∧
  (∀ (s : State) (n : Nat) (w0 w1 : Word) (rest : List (Word × Word)), n < 3 → n < s.needles.length →
    (s.needle n).mailbox = (w0, w1) :: rest → s.drives n = true → (s.needle n).phase = true → 0 < (s.needle n).due →
    getBits w0 0 8 = 1 → s.commandCode n w0 w1 = 0 → s.noInjection = true → Answers (.ndlSeek n) s fun t =>
      (t.needle n).mailbox = rest ∧ (t.needle n).due = (s.needle n).due - 1 ∧ t.fld (F.NDL_MBX_STATUS_LAST_RESULT n) = 0 ∧
      t.fld (F.NDL_MBX_STATUS_LAST_TAG n) = getBits w0 16 16 ∧ t.sfld (F.NDL_TARGET_TARGET n) = toSigned 32 w1.toNat ∧
      (t.needle n).limitSet = getBits w0 8 2) ∧
  (∀ (s : State) (n : Nat) (w0 w1 : Word) (rest : List (Word × Word)), n < 3 → n < s.needles.length →
    (s.needle n).mailbox = (w0, w1) :: rest → s.drives n = true → (s.needle n).phase = true → 0 < (s.needle n).due →
    getBits w0 0 8 = 2 → s.commandCode n w0 w1 = 0 → s.noInjection = true → Answers (.ndlOffset n) s fun t =>
      (t.needle n).mailbox = rest ∧ (t.needle n).due = (s.needle n).due - 1 ∧ t.fld (F.NDL_MBX_STATUS_LAST_RESULT n) = 0 ∧
      t.fld (F.NDL_MBX_STATUS_LAST_TAG n) = getBits w0 16 16 ∧ t.sfld (F.NDL_OFFSET_OFFSET n) = toSigned 32 w1.toNat) ∧
  (∀ (s : State) (n : Nat) (w0 w1 : Word) (rest : List (Word × Word)), n < 3 → n < s.needles.length →
    (s.needle n).mailbox = (w0, w1) :: rest → s.drives n = true → (s.needle n).phase = true → 0 < (s.needle n).due →
    getBits w0 0 8 = 3 → s.commandCode n w0 w1 = 0 → s.noInjection = true → Answers (.ndlEngage n) s fun t =>
      (t.needle n).mailbox = rest ∧ (t.needle n).due = (s.needle n).due - 1 ∧ t.fld (F.NDL_MBX_STATUS_LAST_RESULT n) = 0 ∧
      t.fld (F.NDL_MBX_STATUS_LAST_TAG n) = getBits w0 16 16 ∧ t.fld (F.NDL_TARGET_TARGET n) = s.fld (F.NDL_POSITION_POS n) ∧
      t.fld (F.NDL_OFFSET_OFFSET n) = 0 ∧ (t.needle n).pendingMode = some 2) ∧
  (∀ (s : State) (n : Nat) (w0 w1 : Word) (rest : List (Word × Word)), n < 3 → n < s.needles.length →
    (s.needle n).mailbox = (w0, w1) :: rest → s.drives n = true → (s.needle n).phase = true → 0 < (s.needle n).due →
    getBits w0 0 8 = 4 → s.commandCode n w0 w1 = 0 → s.noInjection = true → Answers (.ndlHold n) s fun t =>
      (t.needle n).mailbox = rest ∧ (t.needle n).due = (s.needle n).due - 1 ∧ t.fld (F.NDL_MBX_STATUS_LAST_RESULT n) = 0 ∧
      t.fld (F.NDL_MBX_STATUS_LAST_TAG n) = getBits w0 16 16 ∧ t.fld (F.NDL_STATUS_HOLD_CMD n) = 1 ∧
      (t.needle n).pendingMode = some 4) ∧
  (∀ (s : State) (n : Nat) (w0 w1 : Word) (rest : List (Word × Word)), n < 3 → n < s.needles.length →
    (s.needle n).mailbox = (w0, w1) :: rest → s.drives n = true → (s.needle n).phase = true → 0 < (s.needle n).due →
    getBits w0 0 8 = 5 → s.commandCode n w0 w1 = 0 → s.noInjection = true → Answers (.ndlRelease n) s fun t =>
      (t.needle n).mailbox = rest ∧ (t.needle n).due = (s.needle n).due - 1 ∧ t.fld (F.NDL_MBX_STATUS_LAST_RESULT n) = 0 ∧
      t.fld (F.NDL_MBX_STATUS_LAST_TAG n) = getBits w0 16 16 ∧ t.fld (F.NDL_TARGET_TARGET n) = s.fld (F.NDL_SP_POS_POS n) ∧
      (t.needle n).pendingMode = some 2) ∧
  (∀ (s : State) (n : Nat) (w0 w1 : Word) (rest : List (Word × Word)), n < 3 → n < s.needles.length →
    (s.needle n).mailbox = (w0, w1) :: rest → s.drives n = true → (s.needle n).phase = true → 0 < (s.needle n).due →
    getBits w0 0 8 = 6 → s.commandCode n w0 w1 = 0 → s.noInjection = true → Answers (.ndlManual n) s fun t =>
      (t.needle n).mailbox = rest ∧ (t.needle n).due = (s.needle n).due - 1 ∧ t.fld (F.NDL_MBX_STATUS_LAST_RESULT n) = 0 ∧
      t.fld (F.NDL_MBX_STATUS_LAST_TAG n) = getBits w0 16 16 ∧ (t.needle n).pendingMode = some 0) ∧
  (∀ (s : State) (n : Nat) (w0 w1 : Word) (rest : List (Word × Word)), n < 3 → n < s.needles.length →
    (s.needle n).mailbox = (w0, w1) :: rest → s.drives n = true → (s.needle n).phase = true → 0 < (s.needle n).due →
    getBits w0 0 8 = 7 → s.commandCode n w0 w1 = 0 → s.noInjection = true → Answers (.ndlRetract n) s fun t =>
      (t.needle n).mailbox = rest ∧ (t.needle n).due = (s.needle n).due - 1 ∧ t.fld (F.NDL_MBX_STATUS_LAST_RESULT n) = 0 ∧
      t.fld (F.NDL_MBX_STATUS_LAST_TAG n) = getBits w0 16 16 ∧ (t.needle n).pendingMode = some 5 ∧
      (t.needle n).retractTaken = true) ∧
  (∀ (s : State) (n : Nat) (w0 w1 : Word) (rest : List (Word × Word)), n < 3 → n < s.needles.length →
    (s.needle n).mailbox = (w0, w1) :: rest → s.drives n = true → (s.needle n).phase = true → 0 < (s.needle n).due →
    (getBits w0 0 8 = 0 ∨ 7 < getBits w0 0 8) → s.noInjection = true → Answers (.ndlUnknownOpcode n) s fun t =>
      (t.needle n).mailbox = rest ∧ t.fld (F.NDL_MBX_STATUS_LAST_RESULT n) = 1 ∧
      t.fld (F.NDL_MBX_STATUS_LAST_TAG n) = getBits w0 16 16 ∧ (t.needle n).pendingMode = (s.needle n).pendingMode)

/-- A Row of a driving Needle (R152 to R165): the latch commits its outputs in time, the deadline closes the Row or
counts an overrun, and the settle, miss and hold limits request their modes. -/
def Obligations.NeedleRow : Prop :=
  (∀ (s : State) (n ns : Nat) (x y : Int), n < 3 → n < s.needles.length → s.drives n = true → (s.needle n).closed = false →
    (s.needle n).latched = false → (s.needle n).halted = false → ns ≤ 4500 → s.runsGraph n = true → s.noInjection = true →
    Answers (.needleLatch n ns x y) s fun t =>
      (t.needle n).latched = true ∧ (t.needle n).prev = (s.needle n).states ∧ t.fld (F.NDL_TIMING_LAST_NS n) = ns ∧
      t.fld (F.NDL_TIMING_WORST_NS n) = max ns (s.fld (F.NDL_TIMING_WORST_NS n)) ∧ t.fld (F.NDL_STATUS_OVR_RUN n) = 0) ∧
  (∀ (s : State) (n : Nat), n < 3 → n < s.needles.length → s.drives n = true → (s.needle n).closed = false →
    s.runsGraph n = true → (s.needle n).phase = false → (s.needle n).latched = true → Answers (.needleDeadline n) s fun t =>
      (t.needle n).phase = true ∧ (t.needle n).due = min 4 (s.needle n).mailbox.length ∧ (t.needle n).latched = false ∧
      (t.needle n).latchedPrev = true ∧ (t.needle n).closed = true) ∧
  (∀ (s : State) (n : Nat), n < 3 → n < s.needles.length → s.drives n = true → (s.needle n).closed = false →
    s.runsGraph n = true → (s.needle n).phase = false → (s.needle n).latched = false → s.fld (F.NDL_STATUS_OVR_RUN n) = 0 →
    Answers (.needleDeadline n) s fun t =>
      (t.needle n).phase = true ∧ (t.needle n).states = (s.needle n).states ∧ t.fld (F.NDL_FLAG_OVR n) = 1 ∧
      t.fld (F.NDL_STATUS_OVR_RUN n) = 1 ∧ t.fld (F.NDL_TIMING_LAST_NS n) = 0xFFFF ∧ t.fld (F.NDL_STATUS_POS_OK n) = 0 ∧
      t.drives n = true ∧ (t.needle n).latchedPrev = false) ∧
  (∀ (s : State) (n : Nat), n < 3 → n < s.needles.length → s.drives n = true → (s.needle n).closed = false →
    s.runsGraph n = true → (s.needle n).phase = false → (s.needle n).latched = false → s.fld (F.NDL_STATUS_OVR_RUN n) = 1 →
    Answers (.needleDeadline n) s fun t =>
      t.fld (F.NDL_FLAG_OVR n) = 1 ∧ t.fld (F.NDL_STATUS_ROLE n) = 5 ∧ t.fld (F.NDL_STATUS_POS_OK n) = 0 ∧
      (t.needle n).takeover = true) ∧
  (∀ (s : State) (n : Nat), n < 3 → n < s.needles.length → s.drives n = true → s.fld (F.NDL_STATUS_MODE n) = 2 →
    (s.needle n).pendingMode = none → max 1 (s.fld (F.NDL_SETTLE_ROWS n)) ≤ (s.needle n).settleRun →
    Answers (.settleReached n) s fun t =>
      (t.needle n).pendingMode = some 3 ∧ OnlyChanged s t [R.NDL_STATUS n] [.needles]) ∧
  (∀ (s : State) (n : Nat), n < 3 → n < s.needles.length → s.drives n = true → s.fld (F.NDL_STATUS_MODE n) = 2 →
    512 ≤ (s.needle n).settleRows → (s.needle n).settleRun < max 1 (s.fld (F.NDL_SETTLE_ROWS n)) →
    (s.needle n).pendingMode ≠ some 3 → (s.needle n).timeoutSeen = false → Answers (.settleTimeout n) s fun t =>
      t.fld (F.NDL_FLAG_SETTLE_TIMEOUT n) = 1 ∧ (t.needle n).timeoutSeen = true ∧ t.fld (F.NDL_STATUS_MODE n) = 2) ∧
  (∀ (s : State) (n : Nat), n < 3 → n < s.needles.length → s.drives n = true → 1 ≤ s.fld (F.NDL_STATUS_MODE n) →
    s.fld (F.NDL_STATUS_MODE n) ≤ 3 → s.modeSoFar n ≠ 4 → s.modeSoFar n ≠ 5 →
    s.fld (F.NDL_CTRL_MISS_MAX n) ≤ (s.needle n).missRun → Answers (.missMaxReached n) s fun t =>
      (t.needle n).pendingMode = some 4 ∧ t.fld (F.NDL_STATUS_HOLD_CMD n) = 0 ∧ OnlyChanged s t [R.NDL_STATUS n] [.needles]) ∧
  (∀ (s : State) (n : Nat), n < 3 → n < s.needles.length → s.drives n = true → s.fld (F.NDL_STATUS_MODE n) = 4 →
    s.modeSoFar n ≠ 5 → max 1 (s.fld (F.NDL_CTRL_HOLD_ROWS n)) ≤ (s.needle n).holdRows → s.fld (F.NDL_STATUS_ACT n) < 2 →
    s.fld (F.ACT_STATUS_LOAD_STATE (s.fld (F.NDL_STATUS_ACT n))) = 2 → Answers (.holdRowsExpired n) s fun t =>
      (t.needle n).pendingMode = some 5 ∧ t.fld (F.ACT_STATUS_LOAD_STATE (s.fld (F.NDL_STATUS_ACT n))) = 4 ∧
      t.fld (F.ACT_STATUS_RETRACT_CAUSE (s.fld (F.NDL_STATUS_ACT n))) = 5)

/-- Needle faults and roles (R175 to R180): an internal fault makes the Needle FAULTED, the standby takes its actuator
over, a faulted swap ends, and DISABLE takes a Needle out or is refused. -/
def Obligations.NeedleFaults : Prop :=
  (∀ (s : State) (n : Nat), n < 3 → s.hasNeedle n = true → s.fld (F.NDL_STATUS_ROLE n) ≠ 0 →
    s.fld (F.NDL_STATUS_ROLE n) ≠ 5 → Answers (.needleInternalFault n) s fun t =>
      t.fld (F.NDL_STATUS_ROLE n) = 5 ∧ t.fld (F.NDL_FLAG_INT_CHECK n) = 1 ∧ t.fld (F.NDL_STATUS_POS_OK n) = 0) ∧
  (∀ (s : State) (n : Nat), n < 3 → n < s.needles.length → s.hasNeedle n = true → s.drives n = true → s.runsGraph n = true →
    Answers (.needleInternalFault n) s fun t =>
      (t.needle n).takeover = true ∧ (t.needle n).formerRole = s.fld (F.NDL_STATUS_ROLE n) ∧
      (t.needle n).formerAct = s.fld (F.NDL_STATUS_ACT n) ∧ t.fld (F.NDL_FLAG_OVR n) = 1 ∧
      t.fld (F.NDL_TIMING_LAST_NS n) = 0xFFFF) ∧
  (∀ (s : State) (n k : Nat), n < 3 → n < s.needles.length → (s.needle n).takeover = true → s.swappedIn = none →
    (s.needle n).formerRole = 1 → s.standby = some k → s.fld (F.NDL_STATUS_ROLE k) = 2 → k ≠ n → k < s.needles.length →
    (s.needle n).formerAct < 2 → Answers (.needleTakeover n) s fun t =>
      t.fld (F.NDL_STATUS_ROLE k) = 4 ∧ t.fld (F.NDL_STATUS_ACT k) = (s.needle n).formerAct ∧ t.fld (F.NDL_STATUS_ACT n) = 3 ∧
      (t.needle n).takeover = false ∧ t.fld (F.NDL_TARGET_TARGET k) = s.fld (F.NDL_TARGET_TARGET n)) ∧
  (∀ (s : State) (n k : Nat), n < 3 → s.hasNeedle n = true → s.swappedIn = none → s.fld (F.NDL_STATUS_ROLE k) = 3 → k < 3 →
    s.fld (F.NDL_STATUS_ROLE n) ≠ 0 → s.fld (F.NDL_STATUS_ROLE n) ≠ 5 → Answers (.swapFaultAbort n) s fun t =>
      t.fld (F.NDL_STATUS_ROLE n) = 5 ∧ t.fld (F.NDL_FLAG_INT_CHECK n) = 1) ∧
  (∀ (s : State) (n : Nat), n < 3 → s.hasNeedle n = true → s.drives n = true →
    s.headsLoaded (s.fld (F.NDL_STATUS_ACT n)) = true → Answers (.ndlDisable n true) s fun t =>
      t.fld (F.NDL_FLAG_DISABLE_REFUSED n) = 1 ∧ OnlyChanged s t [R.NDL_FLAGS n] []) ∧
  (∀ (s : State) (n : Nat), n < 3 → n < s.needles.length → s.hasNeedle n = true → s.fld (F.NDL_STATUS_ROLE n) = 2 →
    Answers (.ndlDisable n true) s fun t =>
      t.fld (F.NDL_CTRL_DISABLE n) = 1 ∧ t.fld (F.NDL_STATUS_ROLE n) = 6 ∧ t.fld (F.NDL_STATUS_POS_OK n) = 0 ∧
      (t.needle n).formerRole = 2) ∧
  (∀ (s : State) (n : Nat), n < 3 → n < s.needles.length → s.hasNeedle n = true → s.fld (F.NDL_STATUS_ROLE n) = 6 →
    (s.needle n).formerRole = 1 → Answers (.ndlDisable n false) s fun t =>
      t.fld (F.NDL_CTRL_DISABLE n) = 0 ∧ t.fld (F.NDL_STATUS_ROLE n) = 1 ∧ (t.needle n).mailbox = [] ∧
      (t.needle n).disabled = false) ∧
  (∀ (s : State) (a n : Nat) (v : Activation), s.upd.activation = some v → v.components.headD 0 = 2 → v.act = a →
    s.driver a = some n → s.flow.lastPassed = true → s.row.swapped = false → s.headsLoaded a = false → n < s.needles.length →
    (s.needle n).fresh = false → Answers (.needleSwap a) s fun t =>
      t.fld (F.NDL_STATUS_BANK n) = 1 - s.fld (F.NDL_STATUS_BANK n) ∧
      t.fld (F.NDL_UCODE_LEVEL_ALT n) = s.fld (F.NDL_UCODE_LEVEL_CUR n) ∧ t.row.swapped = true)

/-- Load, unload and retract of an actuator (R191 to R194): each command and each event moves LOAD_STATE, the coil and
the event bits; a refused LOAD reports its code. -/
def Obligations.LoadAndUnload : Prop :=
  (∀ (s : State) (a : Nat), a < 2 → a < s.acts.length → s.hasAct a = true → s.loadRefusal a = 0 →
    Answers (.actLoad a) s fun t =>
      t.fld (F.ACT_STATUS_LOAD_STATE a) = 1 ∧ (t.act a).coil = .loadEmf) ∧
  (∀ (s : State) (a : Nat), a < 2 → a < s.acts.length → s.hasAct a = true → s.loadRefusal a ≠ 0 →
    Answers (.actLoad a) s fun t =>
      t.fld (F.ACT_STATUS_CMD_ERR a) = s.loadRefusal a ∧ t.fld (F.ACT_EV_CMD_REFUSED a) = 1 ∧
      OnlyChanged s t [R.ACT_STATUS a, R.ACT_EVENTS a] []) ∧
  (∀ (s : State) (a : Nat), a < 2 → a < s.acts.length → s.hasAct a = true → s.fld (F.ACT_STATUS_LOAD_STATE a) = 2 →
    Answers (.actUnload a) s fun t =>
      t.fld (F.ACT_STATUS_LOAD_STATE a) = 3 ∧ (t.act a).coil = .unloadEmf) ∧
  (∀ (s : State) (a : Nat), a < 2 → a < s.acts.length → s.hasAct a = true → s.fld (F.ACT_STATUS_LOAD_STATE a) = 2 →
    Answers (.actEretract a) s fun t =>
      t.fld (F.ACT_STATUS_LOAD_STATE a) = 4 ∧ t.fld (F.ACT_STATUS_RETRACT_CAUSE a) = 1 ∧
      t.fld (F.ACT_COUNTS_ERETRACTS a) = min (s.fld (F.ACT_COUNTS_ERETRACTS a) + 1) (2 ^ (F.ACT_COUNTS_ERETRACTS a).width -
        1)) ∧
  (∀ (s : State) (a : Nat), a < 2 → a < s.acts.length → s.fld (F.ACT_STATUS_LOAD_STATE a) = 4 →
    Answers (.retractConstantPhase a) s fun t =>
      (t.act a).coil = .retractConst ∧ OnlyChanged s t [] [.acts]) ∧
  (∀ (s : State) (a : Nat), a < 2 → a < s.acts.length → s.fld (F.ACT_STATUS_LOAD_STATE a) = 4 →
    Answers (.retractEnd a) s fun t =>
      t.fld (F.ACT_STATUS_LOAD_STATE a) = 0 ∧ t.fld (F.ACT_EV_RETRACT_DONE a) = 1 ∧ (t.act a).coil = .off) ∧
  (∀ (s : State) (a n x : Nat), a < 2 → a < s.acts.length → n < 3 → s.driver a = some n →
    s.fld (F.ACT_STATUS_LOAD_STATE a) = 1 → s.on (F.NDL_STATUS_LOCK n) = true → Answers (.loadComplete a x) s fun t =>
      t.fld (F.ACT_STATUS_LOAD_STATE a) = 2 ∧ t.fld (F.ACT_EV_LOAD_DONE a) = 1 ∧ (t.act a).coil = .follow ∧
      (t.act a).inductance = x ∧ t.fld (F.NDL_MANUAL_VCM n) = t.fld (F.NDL_OUT_VCM n) ∧ t.fld (F.NDL_OUT_MA n) = 0) ∧
  (∀ (s : State) (a : Nat), a < 2 → a < s.acts.length → s.fld (F.ACT_STATUS_LOAD_STATE a) = 1 →
    Answers (.loadTimeout a) s fun t =>
      t.fld (F.ACT_STATUS_LOAD_STATE a) = 3 ∧ t.fld (F.ACT_EV_LOAD_FAIL a) = 1) ∧
  (∀ (s : State) (a : Nat), a < 2 → a < s.acts.length → s.fld (F.ACT_STATUS_LOAD_STATE a) = 3 →
    (s.act a).coil = .unloadEmf → rampStopRuns ≤ (s.act a).still → Answers (.unloadRampStop a) s fun t =>
      (t.act a).coil = .rampHold ∧ OnlyChanged s t [] [.acts]) ∧
  (∀ (s : State) (a : Nat), a < 2 → a < s.acts.length → s.fld (F.ACT_STATUS_LOAD_STATE a) = 3 → (s.act a).coil = .rampHold →
    Answers (.unloadHoldEnd a) s fun t =>
      t.fld (F.ACT_STATUS_LOAD_STATE a) = 0 ∧ t.fld (F.ACT_EV_UNLOAD_DONE a) = 1 ∧ (t.act a).coil = .off) ∧
  (∀ (s : State) (a : Nat), a < 2 → a < s.acts.length → s.fld (F.ACT_STATUS_LOAD_STATE a) = 3 →
    (s.act a).coil = .unloadEmf → Answers (.unloadTimeout a) s fun t =>
      t.fld (F.ACT_STATUS_LOAD_STATE a) = 4 ∧ t.fld (F.ACT_STATUS_RETRACT_CAUSE a) = 7)

/-- The preamplifier link and the heads (R185 to R189, R201): enabling and clearing the link, a firmware frame and its
end, a repeated frame, a head request and its selection, and DISABLE. -/
def Obligations.PreampLink : Prop :=
  (∀ (s : State) (a : Nat), a < 2 → a < s.acts.length → s.hasAct a = true → s.fld (F.ACT_STATUS_LINK_FAULT a) = 1 →
    s.fld (F.ACT_CTRL_LINK_EN a) = 1 → s.fld (F.ACT_CTRL_DISABLE a) = 0 → Answers (.actLinkClear a) s fun t =>
      (t.act a).linkOn = true ∧ (t.act a).pollDue = true ∧ (t.act a).inFlight = none ∧ (t.act a).attempts = 0 ∧
      OnlyChanged s t [] [.acts]) ∧
  (∀ (s : State) (a : Nat), a < 2 → a < s.acts.length → s.hasAct a = true → s.fld (F.ACT_STATUS_LOAD_STATE a) = 0 →
    Answers (.actDisable a true) s fun t =>
      t.fld (F.ACT_CTRL_DISABLE a) = 1 ∧ (t.act a).queue = [] ∧ (t.act a).coil = .off) ∧
  (∀ (s : State) (a : Nat), a < 2 → s.hasAct a = true → s.fld (F.ACT_STATUS_LOAD_STATE a) ≠ 0 →
    Answers (.actDisable a true) s fun t =>
      t.fld (F.ACT_EV_DISABLE_REFUSED a) = 1 ∧ OnlyChanged s t [R.ACT_EVENTS a] []) ∧
  (∀ (s : State) (a : Nat), a < 2 → s.hasAct a = true → Answers (.actDisable a false) s fun t =>
      t.fld (F.ACT_CTRL_DISABLE a) = 0) ∧
  (∀ (s : State) (a : Nat), a < 2 → a < s.acts.length → s.hasAct a = true → s.fld (F.ACT_CTRL_LINK_EN a) = 0 →
    s.fld (F.ACT_CTRL_DISABLE a) = 0 → Answers (.actLinkEnable a) s fun t =>
      t.fld (F.ACT_CTRL_LINK_EN a) = 1 ∧ (t.act a).linkOn = true ∧ (t.act a).pollDue = true) ∧
  (∀ (s : State) (a h : Nat), a < 2 → a < s.acts.length → s.hasAct a = true → h < s.headCount a → h < 16 → s.flow.ops = [] →
    Answers (.headRequest a h) s fun t =>
      t.fld (F.ACT_CTRL_HEAD_REQ a) = h ∧ (t.act a).selecting = (if h = s.aimedHead a then none else some h) ∧
      OnlyChanged s t [R.ACT_CTRL a] [.acts]) ∧
  (∀ (s : State) (a h : Nat), a < 2 → s.hasAct a = true → s.headCount a ≤ h → Answers (.headRequest a h) s fun t =>
      t.fld (F.ACT_EV_CMD_REFUSED a) = 1 ∧ OnlyChanged s t [R.ACT_EVENTS a] []) ∧
  (∀ (s : State) (a time h : Nat), a < 2 → a < s.acts.length → (s.act a).selecting = some h →
    s.fld (F.ACT_STATUS_WG a) = 0 → s.driver a = none → (s.act a).linkOn = true → s.fld (F.ACT_STATUS_LINK_FAULT a) = 0 →
    Answers (.headSelect a time) s fun t =>
      (t.act a).selecting = none ∧ (t.act a).queue = (s.act a).queue ++ s.headFrames a h) ∧
  (∀ (s : State) (a ad d : Nat), a < 2 → a < s.acts.length → s.hasAct a = true → ad < 256 → d < 65536 →
    ad ≠ s.fld (F.ACT_PAMAP_HEAD_ADDR a) → ad ≠ s.fld (F.ACT_PAMAP_HEATER_ADDR a) → ad ≠ s.fld (F.ACT_PAMAP_ASSIST_ADDR a) →
    Answers (.actLinkGo a ad false d) s fun t =>
      (t.act a).fwFrame = some (⟨.firmware, false, ad, d⟩ : Frame) ∧ t.fld (F.ACT_LINK_RESP_DONE a) = 0 ∧
      t.fld (F.ACT_LINK_RESP_ERR a) = 0 ∧ OnlyChanged s t [R.ACT_LINK_CMD a, R.ACT_LINK_RESP a] [.acts]) ∧
  (∀ (s : State) (a d : Nat), a < 2 → s.hasAct a = true →
    Answers (.actLinkGo a (s.fld (F.ACT_PAMAP_HEATER_ADDR a)) false d) s fun t =>
      t.fld (F.ACT_LINK_RESP_ERR a) = 1 ∧ t.fld (F.ACT_LINK_RESP_DONE a) = 0 ∧
      OnlyChanged s t [R.ACT_LINK_CMD a, R.ACT_LINK_RESP a] []) ∧
  (∀ (s : State) (a time c status d : Nat) (f : Frame), a < 2 → a < s.acts.length → s.noInjection = true →
    s.nextFrame a = some f → f.kind = .firmware → c = crc8 24 (status * 65536 + d) → status / 16 = 10 →
    (f.read = true ∨ d = f.data) → d < 65536 → status < 256 → Answers (.preampFrame a time c ⟨status, d⟩) s fun t =>
      t.fld (F.ACT_LINK_RESP_DATA a) = d ∧ t.fld (F.ACT_LINK_RESP_STATUS a) = status % 2 ^ (F.ACT_LINK_RESP_STATUS a).width ∧
      t.fld (F.ACT_LINK_RESP_DONE a) = 1 ∧ (t.act a).inFlight = none ∧ (t.act a).sent = f.request) ∧
  (∀ (s : State) (a time c status d h : Nat) (f : Frame), a < 2 → a < s.acts.length → s.noInjection = true →
    s.nextFrame a = some f → f.kind = .headSelect h → h < 16 → c = crc8 24 (status * 65536 + d) → status / 16 = 10 →
    (f.read = true ∨ d = f.data) → d < 65536 → status < 256 → Answers (.preampFrame a time c ⟨status, d⟩) s fun t =>
      t.fld (F.ACT_STATUS_HEAD a) = h ∧ (t.act a).settleUntil = some (time + s.fld (F.ACT_TIMING_HEAD_SETTLE a) * 100000) ∧
      (t.act a).inFlight = none ∧ (t.act a).sent = f.request) ∧
  (∀ (s : State) (a time c status d : Nat) (f : Frame), a < 2 → a < s.acts.length → s.noInjection = true →
    s.nextFrame a = some f → (s.act a).inFlight = some f → (s.act a).attempts < 3 → c ≠ crc8 24 (status * 65536 + d) →
    Answers (.preampFrame a time c ⟨status, d⟩) s fun t =>
      (t.act a).attempts = (s.act a).attempts + 1 ∧ (t.act a).inFlight = some f ∧
      t.fld (F.ACT_COUNTS_LINK_RETRIES a) = min (s.fld (F.ACT_COUNTS_LINK_RETRIES a) + 1) (2 ^ (F.ACT_COUNTS_LINK_RETRIES
        a).width - 1))

/-- The coil loop, the write gate and the assist (R182, R195 to R198): the coil command follows the driving Needle
within its limit; AEN rises when a slice asks and every condition holds, WG after the lead; a laser limit cuts the
assist. -/
def Obligations.CoilAndGate : Prop :=
  (∀ (s : State) (a n : Nat) (mv ma rate : Int), a < 2 → a < s.acts.length → s.hasAct a = true → (s.act a).coil = .follow →
    n < 3 → s.driver a = some n → Answers (.vcmCurrentLoop a mv ma rate) s fun t =>
      (t.act a).coilCurrent = ma - roundDiv (if a = 0 then s.sfld F.GAU_ISENSE_VCM_A else s.sfld F.GAU_ISENSE_VCM_B) 2 ∧
      (t.act a).coilCmd = clampInt (-(s.coilLimit a)) (s.coilLimit a) (roundDiv (s.sfld (F.NDL_OUT_VCM n) * 1800) 32768) ∧
      OnlyChanged s t [] [.acts]) ∧
  (∀ (s : State) (a : Nat) (mv ma rate : Int), a < 2 → a < s.acts.length → s.hasAct a = true →
    Answers (.vcmCurrentLoop a mv ma rate) s fun t =>
      (t.act a).bemf = mv - roundDiv ((t.act a).coilCurrent * s.fld (F.ACT_COIL_R_MOHM a)) 1000 - roundDiv ((s.act
        a).inductance * rate) 10 ∧ -(s.coilLimit a) ≤ (t.act a).coilCmd ∧ (t.act a).coilCmd ≤ s.coilLimit a ∧
      OnlyChanged s t [] [.acts]) ∧
  (∀ (s : State) (a i time : Nat), a < 2 → a < s.acts.length → s.hasAct a = true → s.pins.aen.length = 2 →
    s.serves i a = true → s.writesHere a = true → (s.act a).settleUntil = none → s.mayWrite a = true →
    s.fld (F.ACT_STATUS_AEN a) = 0 → Answers (.aenLeadStart a i time) s fun t =>
      t.fld (F.ACT_STATUS_AEN a) = 1 ∧ t.pins.aen.getD a .hiZ = .high ∧ (t.act a).lead = true ∧
      (t.act a).aenSince = some time ∧ (t.act a).wgRequest = some i ∧ t.fld (F.ACT_STATUS_WG a) = s.fld (F.ACT_STATUS_WG a)) ∧
  (∀ (s : State) (a i u time : Nat), a < 2 → a < s.acts.length → s.pins.wg.length = 2 → (s.act a).lead = true →
    (s.act a).wgRequest = some i → s.mayWrite a = true → (s.act a).aenSince = some u →
    u + s.fld (F.ACT_TIMING_AEN_LEAD a) * 10000 ≤ time → Answers (.writeGateRaise a time) s fun t =>
      t.fld (F.ACT_STATUS_WG a) = 1 ∧ t.pins.wg.getD a .hiZ = .high ∧ (t.act a).lead = false ∧
      OnlyChanged s t [R.ACT_STATUS a] [.pins, .acts, .row]) ∧
  (∀ (s : State) (a time : Nat), a < 2 → a < s.acts.length → s.hasAct a = true → s.hasLaser = true →
    s.fld (F.ACT_STATUS_AEN a) = 1 → s.laserLimit a (s.fld (F.ACT_STATUS_HEAD a)) ≤ s.accAt a time →
    Answers (.laserCut a time) s fun t =>
      (t.act a).cut = s.fld (F.ACT_STATUS_HEAD a) :: (s.act a).cut ∧ t.fld (F.ACT_STATUS_AEN a) = 0 ∧
      t.fld (F.ACT_STATUS_WG a) = 0 ∧ t.fld (F.ACT_EV_LASER_CUT a) = 1 ∧
      t.fld (F.ACT_COUNTS_LASER_CUTS a) = min (s.fld (F.ACT_COUNTS_LASER_CUTS a) + 1) (2 ^ (F.ACT_COUNTS_LASER_CUTS a).width
        - 1))

/-- Recovery requests of a slice (R216, R217): a request on a pinned slot starts and sets BUSY, its end clears BUSY and
posts the result, and UNPIN frees slots. -/
def Obligations.SliceRecovery : Prop :=
  (∀ (s : State) (i slot n : Nat), i < 5 → i < s.slices.length → s.hasSlice i = true →
    s.fld (F.SLC_RECOV_STATUS_BUSY i) = 0 → slot < 42 → n < 256 → (s.slice i).pinned.any (fun p => p.slot == slot) = true →
    Answers (.slcReDecode i slot n) s fun t =>
      (t.slice i).request = some ⟨1, slot, s.fld (F.SLC_RECOV_CMD_SPAN i), if n = 0 then s.fld (F.SLC_LDPC_RECOV_ITER i) else
        min n (s.fld (F.SLC_LDPC_RECOV_ITER i)), none⟩ ∧ t.fld (F.SLC_RECOV_STATUS_BUSY i) = 1 ∧
      t.fld (F.SLC_STATUS_RECOV_BUSY i) = 1 ∧
      OnlyChanged s t [R.SLC_RECOV_CMD i, R.SLC_RECOV_STATUS i, R.SLC_STATUS i] [.slices]) ∧
  (∀ (s : State) (i slot span n : Nat), i < 5 → i < s.slices.length → s.hasSlice i = true →
    s.fld (F.SLC_RECOV_STATUS_BUSY i) = 0 → slot < 42 → n < 256 → (s.slice i).pinned.any (fun p => p.slot == slot) = true →
    0 < span → span < 16 → Answers (.slcReframe i slot span n) s fun t =>
      (t.slice i).request = some ⟨2, slot, span, if n = 0 then s.fld (F.SLC_LDPC_RECOV_ITER i) else min n (s.fld
        (F.SLC_LDPC_RECOV_ITER i)), none⟩ ∧ t.fld (F.SLC_RECOV_STATUS_BUSY i) = 1 ∧ t.fld (F.SLC_STATUS_RECOV_BUSY i) = 1 ∧
      OnlyChanged s t [R.SLC_RECOV_CMD i, R.SLC_RECOV_STATUS i, R.SLC_STATUS i] [.slices]) ∧
  (∀ (s : State) (i slot n : Nat), i < 5 → i < s.slices.length → s.hasSlice i = true →
    s.fld (F.SLC_RECOV_STATUS_BUSY i) = 0 → slot < 42 → n < 256 → (s.slice i).pinned.any (fun p => p.slot == slot) = true →
    Answers (.slcCombine i slot n) s fun t =>
      (t.slice i).request = some ⟨3, slot, s.fld (F.SLC_RECOV_CMD_SPAN i), if n = 0 then s.fld (F.SLC_LDPC_RECOV_ITER i) else
        min n (s.fld (F.SLC_LDPC_RECOV_ITER i)), none⟩ ∧ t.fld (F.SLC_RECOV_STATUS_BUSY i) = 1 ∧
      t.fld (F.SLC_STATUS_RECOV_BUSY i) = 1 ∧
      OnlyChanged s t [R.SLC_RECOV_CMD i, R.SLC_RECOV_STATUS i, R.SLC_STATUS i] [.slices]) ∧
  (∀ (s : State) (i slot n : Nat), i < 5 → i < s.slices.length → s.hasSlice i = true →
    s.fld (F.SLC_RECOV_STATUS_BUSY i) = 0 → slot < 42 → (s.slice i).pinned.any (fun p => p.slot == slot) = false →
    Answers (.slcReDecode i slot n) s fun t =>
      t.fld (F.SLC_RECOV_STATUS_DONE i) = 1 ∧ t.fld (F.SLC_RECOV_STATUS_OK i) = 0 ∧ t.fld (F.SLC_RECOV_STATUS_BUSY i) = 0 ∧
      OnlyChanged s t [R.SLC_RECOV_CMD i, R.SLC_RECOV_STATUS i] []) ∧
  (∀ (s : State) (i : Nat) (off : Int) (obs : DecodeObs) (q : RecoveryRequest) (p : PinnedSlot), i < 5 →
    i < s.slices.length → s.noInjection = true → (s.slice i).request = some q → (s.slice i).automatic = [] →
    (s.slice i).pinned.find? (fun p => p.slot == q.slot) = some p → obs.converged = false →
    Answers (.recoveryRequestDone i off obs) s fun t =>
      (t.slice i).request = none ∧ t.fld (F.SLC_RECOV_STATUS_BUSY i) = 0 ∧ t.fld (F.SLC_RECOV_STATUS_DONE i) = 1 ∧
      t.fld (F.SLC_RECOV_STATUS_OK i) = 0 ∧
      (t.slice i).lastResult.map (fun r => (r.psa, r.slot, r.code)) = some (p.psa, p.slot, 3)) ∧
  (∀ (s : State) (i lo hi : Nat), i < 5 → i < s.slices.length → s.hasSlice i = true → lo < 2 ^ 32 → hi < 2 ^ 10 →
    Answers (.slcUnpin i lo hi) s fun t =>
      (t.slice i).pinned = (s.slice i).pinned.filter (fun p => !(lo + 2 ^ 32 * hi).testBit p.slot)) ∧
  (∀ (s : State) (i : Nat) (obs : DecodeObs) (j : SectorJob) (rest : List SectorJob), i < 5 → i < s.slices.length →
    (s.slice i).received = j :: rest → j.isVerify = false → obs.converged = false → j.drops ≠ 0 →
    (s.slice i).automatic.length < 4 → Answers (.inlineDecodeDone i obs) s fun t =>
      (t.slice i).received = rest ∧ (t.slice i).automatic = (s.slice i).automatic ++ [j] ∧
      t.fld (F.SLC_DECODE_FAILS i) = min (s.fld (F.SLC_DECODE_FAILS i) + 1) (2 ^ (F.SLC_DECODE_FAILS i).width - 1)) ∧
  (∀ (s : State) (i : Nat) (obs : DecodeObs) (j : SectorJob) (rest : List SectorJob) (o : MediaOp), i < 5 →
    i < s.slices.length → (s.slice i).received = j :: rest → j.isVerify = false → obs.converged = true →
    obs.iterations ≤ s.inlineLimit i (psaAct j.psa) (psaTrack j.psa) → s.op j.op = some o → s.tagOk o j.index = true →
    o.purpose = .ladder → Answers (.inlineDecodeDone i obs) s fun t =>
      (t.slice i).received = rest ∧
      (t.slice i).lastResult.map (fun r => (r.psa, r.slot, r.code, r.iterations)) = some (j.psa, j.slot, 0, obs.iterations)) ∧
  (∀ (s : State) (i : Nat) (off : Int) (obs : DecodeObs) (j : SectorJob) (rest : List SectorJob), i < 5 →
    i < s.slices.length → (s.slice i).automatic = j :: rest → j.drops.testBit 2 = true → obs.converged = true →
    obs.iterations ≤ s.inlineLimit i (psaAct j.psa) (psaTrack j.psa) → Answers (.autoActionDone i off obs) s fun t =>
      (t.slice i).automatic = rest ∧ t.fld (F.SLC_EV_FALLBACK_OK i) = 1 ∧
      t.fld (F.SLC_DECODE_FALLBACK_OK i) = min (s.fld (F.SLC_DECODE_FALLBACK_OK i) + 1) (2 ^ (F.SLC_DECODE_FALLBACK_OK
        i).width - 1))

/-- Slices on their actuators (R208, R228 to R232): a frame is received or sent, the sector boundary ends frames and
applies what waited, a fault, the takeover by the spare, and DISABLE. -/
def Obligations.SliceSeats : Prop :=
  (∀ (s : State) (i k : Nat) (obs : FrameObs) (o : MediaOp), i < 5 → i < s.slices.length → s.noInjection = true →
    s.serves i (s.fld (F.SLC_STATUS_ACT i)) = true → (s.slice i).inFrame = false → s.fld (F.SLC_STATUS_POSITION i) = 0 →
    s.transferOp (s.fld (F.SLC_STATUS_ACT i)) false = some o → o.kind ≠ .write → s.nextSector i o = some k →
    s.onHead o k = true → Answers (.sectorFrame i obs) s fun t =>
      (t.slice i).inFrame = true ∧ (t.slice i).received.length = (s.slice i).received.length + 1 ∧
      (t.slice i).received.getLast?.map (fun j => (j.op, j.index, j.psa, j.isVerify)) = some (o.id, k, o.places.getD k 0,
        false)) ∧
  (∀ (s : State) (i k : Nat) (obs : FrameObs) (o : MediaOp) (x : MediaSector), i < 5 → i < s.slices.length →
    s.serves i (s.fld (F.SLC_STATUS_ACT i)) = true → (s.slice i).inFrame = false → s.fld (F.SLC_STATUS_POSITION i) = 0 →
    s.transferOp (s.fld (F.SLC_STATUS_ACT i)) false = some o → o.kind = .write → o.keySlot = none →
    s.nextSector i o = some k → s.onHead o k = true → s.serialised o k = some x →
    s.fld (F.ACT_STATUS_WG (s.fld (F.SLC_STATUS_ACT i))) = 1 → Answers (.sectorFrame i obs) s fun t =>
      (t.slice i).inFrame = true ∧ (t.slice i).serial = frameBits x.bytes ∧
      (t.op o.id).map (fun x => (x.transferring, x.next)) = some (true, k)) ∧
  (∀ (s : State) (a : Nat), a < 2 → s.hasAct a = true → s.slices.length = 5 → Answers (.sectorBoundary a) s fun t =>
      ∀ i < 5, s.fld (F.SLC_STATUS_ACT i) = a → (t.slice i).inFrame = false ∧ (t.slice i).delayed = []) ∧
  (∀ (s : State) (i c : Nat), i < 5 → i < s.slices.length → s.hasSlice i = true → s.fld (F.SLC_STATUS_ROLE i) = 1 → 0 < c →
    c < 6 → Answers (.sliceFault i c) s fun t =>
      t.fld (F.SLC_STATUS_ROLE i) = 5 ∧ t.fld (F.SLC_STATUS_FAULT_CAUSE i) = c ∧ t.fld (F.SLC_EV_FAULT i) = 1 ∧
      t.fld (F.SLC_STATUS_ACT i) = 3 ∧ (t.slice i).inFrame = false) ∧
  (∀ (s : State) (i k : Nat), i < 5 → i < s.slices.length → (s.slice i).takeover = true → s.fld (F.SLC_STATUS_ROLE i) = 5 →
    s.spareSlice = some k → k ≠ i → (s.slice i).formerAct < 2 → (s.slice i).formerPos < 2 →
    Answers (.sliceTakeover i) s fun t =>
      t.fld (F.SLC_STATUS_ROLE k) = 3 ∧ t.fld (F.SLC_STATUS_ACT k) = (s.slice i).formerAct ∧
      t.fld (F.SLC_STATUS_POSITION k) = (s.slice i).formerPos ∧ t.fld (F.SLC_STATUS_FOR_SLICE k) = i ∧
      (t.slice i).takeover = false ∧ t.fld (F.SLC_STATUS_ROLE i) = 5) ∧
  (∀ (s : State) (i : Nat), i < 5 → i < s.slices.length → s.hasSlice i = true → s.fld (F.SLC_STATUS_ROLE i) = 1 →
    Answers (.slcDisable i true) s fun t =>
      t.fld (F.SLC_CTRL_DISABLE i) = 1 ∧ (t.slice i).disabling = true ∧ t.fld (F.SLC_STATUS_ROLE i) = 1 ∧
      OnlyChanged s t [R.SLC_CTRL i] [.slices]) ∧
  (∀ (s : State) (i : Nat), i < 5 → i < s.slices.length → s.hasSlice i = true → s.fld (F.SLC_STATUS_ROLE i) = 2 →
    Answers (.slcDisable i true) s fun t =>
      t.fld (F.SLC_CTRL_DISABLE i) = 1 ∧ t.fld (F.SLC_EV_DISABLE_DONE i) = 1 ∧ t.fld (F.SLC_STATUS_ROLE i) = 6) ∧
  (∀ (s : State) (i : Nat), i < 5 → i < s.slices.length → s.hasSlice i = true → s.fld (F.SLC_STATUS_ROLE i) = 6 →
    (s.slice i).formerRole = 2 → Answers (.slcDisable i false) s fun t =>
      t.fld (F.SLC_CTRL_DISABLE i) = 0 ∧ t.fld (F.SLC_STATUS_ROLE i) = 2) ∧
  (∀ (s : State) (i : Nat), i < 5 → i < s.slices.length → (s.slice i).disabling = true → (s.slice i).inFrame = false →
    s.fld (F.SLC_STATUS_ROLE i) = 1 → s.gauge.running = none → Answers (.sliceDisabled i) s fun t =>
      t.fld (F.SLC_STATUS_ROLE i) = 6 ∧ t.fld (F.SLC_EV_DISABLE_DONE i) = 1 ∧ (t.slice i).disabling = false ∧
      t.fld (F.SLC_STATUS_ACT i) = 3)

/-- The walker (R250, R252, R254): LOOKUP answers where a sector is found; MAP, EXTEND and FLAGS decide where every
sector of their range is found from then on; a stale generation changes nothing; GEN_BUMP and DESC write the zone;
each update adds one journal record; without a free leaf the update is held. -/
def Obligations.WalkerRequests : Prop :=
  (∀ (s : State) (d : Nat) (hit : Bool), s.stitch.rebuilding = [] → s.snapshotOf (d / zoneSectors) = none →
    Answers (.walkerLookup d 1 hit) s fun t =>
      t.stitch.reply = .segments [(s.resolve d).segment] ∧
      OnlyChanged s t [if hit then R.STM_CACHE_HIT else R.STM_CACHE_MISS] [.stitch]) ∧
  (∀ (s : State) (d n phys gen : Nat) (cache uw ur np : Bool), s.stitch.rebuilding = [] → s.stitch.held = [] →
    s.journalFull = false → d / zoneSectors < s.zoneTotal → (s.zdesc (d / zoneSectors)).gen = gen → 1 ≤ n →
    d + n ≤ (d / zoneSectors + 1) * zoneSectors →
    (s.leavesWith (⟨d, n, if uw || ur then 0 else phys, gen % 65536, cache, uw, ur, np, true⟩ : MapEntry)).length ≤ leafTotal
      → (uw = true ∨ ur = true ∨ cache = true ∨ s.layoutPsa d ≠ phys) →
    Answers (.walkerMap d n ⟨phys, np⟩ cache uw ur gen none) s fun t =>
      t.stitch.reply = .done ∧ t.stitch.nextSeq = s.stitch.nextSeq + 1 ∧ t.stitch.page.length = s.stitch.page.length + 1 ∧
      ∀ i < n, t.resolve (d + i) = if ur then .unreadable else if uw then .unwritten else .at (s.psaAdd phys i)) ∧
  (∀ (s : State) (d n phys gen : Nat) (cache uw ur np : Bool), s.stitch.rebuilding = [] → s.stitch.held = [] →
    s.journalFull = false → d / zoneSectors < s.zoneTotal → (s.zdesc (d / zoneSectors)).gen ≠ gen →
    Answers (.walkerMap d n ⟨phys, np⟩ cache uw ur gen none) s fun t =>
      t.stitch.reply = .stale ∧ t.fld F.STM_EV_STALE_REFUSED = 1 ∧ t.stitch.leaves = s.stitch.leaves ∧
      t.stitch.page = s.stitch.page ∧ OnlyChanged s t [R.STM_EVENTS] [.stitch]) ∧
  (∀ (s : State) (d n phys gen : Nat) (cache uw ur np : Bool), s.stitch.rebuilding = [] → s.stitch.held = [] →
    s.journalFull = false → d / zoneSectors < s.zoneTotal → (s.zdesc (d / zoneSectors)).gen = gen → 1 ≤ n →
    d + n ≤ (d / zoneSectors + 1) * zoneSectors →
    leafTotal < (s.leavesWith (⟨d, n, if uw || ur then 0 else phys, gen % 65536, cache, uw, ur, np, true⟩ : MapEntry)).length
      → s.noInjection = true → Answers (.walkerMap d n ⟨phys, np⟩ cache uw ur gen none) s fun t =>
      t.stitch.reply = .held ∧ t.fld F.STM_STATUS_FULL = 1 ∧ t.stitch.held.length = 1 ∧ t.stitch.leaves = s.stitch.leaves ∧
      t.stitch.page = s.stitch.page) ∧
  (∀ (s : State) (d n gen : Nat) (e : MapEntry), s.stitch.rebuilding = [] → s.stitch.held = [] → s.journalFull = false →
    s.entryAt d = some e → (s.zdesc (d / zoneSectors)).gen = gen → e.length ≤ n →
    e.lstart + n ≤ (e.lstart / zoneSectors + 1) * zoneSectors → s.isLayout e = false →
    (s.leavesWith { e with length := n, pending := true }).length ≤ leafTotal → Answers (.walkerExtend d n gen) s fun t =>
      t.stitch.reply = .done ∧ t.stitch.nextSeq = s.stitch.nextSeq + 1 ∧ t.stitch.page.length = s.stitch.page.length + 1 ∧
      ∀ i < n, t.resolve (e.lstart + i) = s.placeIn e (e.lstart + i)) ∧
  (∀ (s : State) (d n gen : Nat), s.stitch.rebuilding = [] → s.stitch.held = [] → s.journalFull = false →
    s.entryAt d = none → (s.zdesc (d / zoneSectors)).gen = gen → Answers (.walkerExtend d n gen) s fun t =>
      t.stitch.reply = .noEntry ∧ t.stitch.leaves = s.stitch.leaves ∧ OnlyChanged s t [] [.stitch]) ∧
  (∀ (s : State) (gen : Nat) (e : MapEntry), s.stitch.rebuilding = [] → s.stitch.held = [] → s.journalFull = false →
    e.lstart / zoneSectors < s.zoneTotal → s.entryAt e.lstart = some e → (s.zdesc (e.lstart / zoneSectors)).gen = gen →
    1 ≤ e.length → e.lstart + e.length ≤ (e.lstart / zoneSectors + 1) * zoneSectors →
    (s.leavesWith { e with unreadable := true, phys := 0, pending := true }).length ≤ leafTotal →
    Answers (.walkerFlags e.lstart e.length 4 0 gen none) s fun t =>
      t.stitch.reply = .done ∧ t.stitch.nextSeq = s.stitch.nextSeq + 1 ∧ t.stitch.page.length = s.stitch.page.length + 1 ∧
      ∀ i < e.length, t.resolve (e.lstart + i) = .unreadable) ∧
  (∀ (s : State) (z : Nat), s.stitch.rebuilding = [] → s.stitch.held = [] → s.journalFull = false → z < s.zoneTotal →
    (s.zdesc z).gen < 0xFFFFFFFF → Answers (.walkerGenBump z) s fun t =>
      t.stitch.reply = .done ∧ t.zdesc z = { s.zdesc z with gen := (s.zdesc z).gen + 1, wcount := 0 } ∧
      t.stitch.leaves = s.stitch.leaves ∧ t.stitch.nextSeq = s.stitch.nextSeq + 1 ∧
      t.stitch.page.length = s.stitch.page.length + 1 ∧
      ∀ e ∈ t.entries, e.lstart / zoneSectors = z → s.stale e = false → t.stale e = true) ∧
  (∀ (s : State) (z : Nat), s.stitch.rebuilding = [] → s.stitch.held = [] → s.journalFull = false → z < s.zoneTotal →
    (s.zdesc z).gen = 0xFFFFFFFF → Answers (.walkerGenBump z) s fun t =>
      t.stitch.reply = .offline ∧ t.zdesc z = { s.zdesc z with state := .offline } ∧ t.stitch.leaves = s.stitch.leaves) ∧
  (∀ (s : State) (z wp code used : Nat) (st : ZoneState), s.stitch.rebuilding = [] → s.stitch.held = [] →
    s.journalFull = false → z < s.zoneTotal → wp < 2 ^ 17 → used < 2 ^ 11 → ZoneState.ofCode code = some st →
    Answers (.walkerDesc z wp code used) s fun t =>
      t.stitch.reply = .done ∧ t.zdesc z = { s.zdesc z with wp := wp, state := st, restitchUsed := used } ∧
      t.stitch.leaves = s.stitch.leaves ∧ t.stitch.nextSeq = s.stitch.nextSeq + 1 ∧
      t.stitch.page.length = s.stitch.page.length + 1)

/-- The upkeep of the map (R250, R251, R253, R255, R256, R257, R259): leaves merge and stale entries go; journal pages
are written and reach the media; checkpoints start and end; the rebuild makes the map ready; a cleaned cache zone
begins a new generation; a rebuilt leaf releases what it held. -/
def Obligations.MapUpkeep : Prop :=
  (∀ (s : State) (l m : List MapEntry) (rest : List (List MapEntry)), s.stitch.rebuilding = [] → s.stitch.held = [] →
    s.fld F.STM_LEAVES_FREE < s.fld F.STM_CTRL_LOW_LEAVES → s.stitch.leaves = l :: m :: rest → l.length < 128 →
    m.length < 128 → rest.length + 1 ≤ leafTotal → Answers (.leafMerge) s fun t =>
      t.stitch.leaves = (l ++ m) :: rest ∧ t.entries = s.entries ∧ t.fld F.STM_LEAVES_FREE = leafTotal - (rest.length + 1)) ∧
  (∀ (s : State) (e : MapEntry) (l : List MapEntry) (rest : List (List MapEntry)), s.stitch.rebuilding = [] →
    s.stitch.held = [] → s.stitch.leaves = (e :: l) :: rest → s.stale e = true → Answers (.staleEntryDelete) s fun t =>
      t.stitch.leaves = (if l.isEmpty then rest else l :: rest)) ∧
  (∀ (s : State), 128 ≤ s.stitch.page.length → Answers (.journalPageWrite) s fun t =>
      t.stitch.written = s.stitch.written ++ [s.stitch.page.take 128] ∧ t.stitch.page = s.stitch.page.drop 128 ∧
      t.stitch.pagesSince = s.stitch.pagesSince + 1 ∧ OnlyChanged s t [] [.stitch]) ∧
  (∀ (s : State), s.stitch.page ≠ [] → s.stitch.page.length < 128 → 4 ≤ s.stitch.pageAge →
    Answers (.journalPageWrite) s fun t =>
      t.stitch.written = s.stitch.written ++ [s.stitch.page] ∧ t.stitch.page = [] ∧
      t.stitch.pagesSince = s.stitch.pagesSince + 1 ∧ OnlyChanged s t [] [.stitch]) ∧
  (∀ (s : State) (r : JournalRecord) (rest : List (List JournalRecord)), s.stitch.held = [] →
    s.stitch.written = [r] :: rest → r.seq < 2 ^ 64 → Answers (.journalOnMedia) s fun t =>
      t.stitch.written = rest ∧ t.stitch.journal = s.stitch.journal ++ [r] ∧
      t.fld F.STM_JSEQ_LO_SEQ_LO + 2 ^ 32 * t.fld F.STM_JSEQ_HI_SEQ_HI = r.seq ∧ t.stitch.page = s.stitch.page) ∧
  (∀ (s : State), s.fld F.STM_CTRL_CKPT_PAGES ≤ s.stitch.pagesSince → s.stitch.writing = none →
    Answers (.checkpointStart) s fun t =>
      (t.stitch.writing.map fun w => (w.2.startSeq, w.2.leaves, w.2.complete)) = some (s.stitch.nextSeq - 1, s.stitch.leaves,
        false) ∧ t.stitch.pagesSince = 0 ∧ t.fld F.STM_STATUS_CKPT_BUSY = 1 ∧ OnlyChanged s t [R.STM_STATUS] [.stitch]) ∧
  (∀ (s : State) (k : Nat), s.stitch.writing = none → s.stitch.checkpoints ≠ [] → s.fld F.STM_STATUS_CKPT_SLOT = k →
    Answers (.ckptReq) s fun t =>
      (t.stitch.writing.map fun w => (w.1, w.2.startSeq, w.2.leaves)) = some (1 - k, s.stitch.nextSeq - 1, s.stitch.leaves) ∧
      t.fld F.STM_STATUS_CKPT_BUSY = 1 ∧ OnlyChanged s t [R.STM_STATUS] [.stitch]) ∧
  (∀ (s : State) (k : Nat) (c : Checkpoint), s.stitch.writing = some (k, c) → k < 2 → Answers (.checkpointDone) s fun t =>
      t.stitch.writing = none ∧ t.stitch.checkpoints.head? = some { c with complete := true } ∧
      t.fld F.STM_STATUS_CKPT_SLOT = k ∧ t.fld F.STM_STATUS_CKPT_BUSY = 0 ∧
      t.stitch.journal = s.stitch.journal.filter (fun r => c.startSeq < r.seq) ∧ t.stitch.leaves = s.stitch.leaves) ∧
  (∀ (s : State), s.keeper.inReset = false → s.cast.built = true → s.fld F.STM_STATUS_READY = 0 →
    Answers (.mapRebuild none) s fun t =>
      t.fld F.STM_STATUS_READY = 1 ∧ t.fld F.STM_STATUS_FULL = 0 ∧ t.fld F.STM_STATUS_CKPT_BUSY = 0 ∧ t.stitch.held = [] ∧
      t.stitch.rebuilding = [] ∧ t.stitch.page = []) ∧
  (∀ (s : State) (c : Checkpoint) (rest : List Checkpoint), s.keeper.inReset = false → s.cast.built = true →
    s.fld F.STM_STATUS_READY = 0 → s.stitch.checkpoints = c :: rest → c.complete = true → s.stitch.journal = [] →
    s.stitch.savedTail = [] → Answers (.mapRebuild none) s fun t =>
      t.stitch.leaves = c.leaves ∧ t.stitch.zones = c.zones) ∧
  (∀ (s : State) (a z : Nat) (records : List (Nat × Nat × Nat)), s.stitch.rebuilding = [] → s.stitch.held = [] →
    s.offMedia + 2 ≤ 65536 → s.oldestCache a = some (z, records) → s.fld F.STM_STATUS_READY = 1 → s.liveIn records = [] →
    s.logZone a 1 ≠ some z → (s.zdesc z).gen < 0xFFFFFFFF → s.darn.required = [] → Answers (.cacheZoneClean a) s fun t =>
      t.zdesc z = ⟨(s.zdesc z).gen + 1, 0, 0, .cache, 0⟩ ∧ t.stitch.cacheLog.all (fun y => y.1 != z) = true ∧
      t.stitch.nextSeq = s.stitch.nextSeq + 2) ∧
  (∀ (s : State) (k : Nat), s.stitch.rebuilding = [k] → s.stitch.heldRebuild = [] → Answers (.leafRebuildDone k) s fun t =>
      t.stitch.rebuilding = [] ∧ t.stitch.leaves = s.stitch.leaves ∧
      t.stitch.nextSeq = s.stitch.nextSeq + (((s.stitch.leaves.find? fun l => leafKey l == k).getD []).filter
        (·.pending)).length) ∧
  (∀ (s : State) (k d : Nat), s.stitch.rebuilding = [k] → s.stitch.heldRebuild = [.lookup d 1] →
    ((s.stitch.leaves.find? fun l => leafKey l == k).getD []).all (fun e => !e.pending) = true →
    Answers (.leafRebuildDone k) s fun t =>
      t.stitch.rebuilding = [] ∧ t.stitch.heldRebuild = [] ∧ t.stitch.reply = .segments (s.segments 8 d 1))

/-- Queues, doorbells and fetch rounds (R277, R278, R280, R300, R340): a doorbell moves a tail or a head, a round takes
the oldest entry into a slot, queues are created and deleted, and Abort ends a command that may still be aborted. -/
def Obligations.QueuesAndFetch : Prop :=
  (∀ (s : State) (c q v : Nat) (l : List Sqe) (k : Controller) (r : Ring), s.noInjection = true → s.controller c = some k →
    k.enabled = true → s.ownsQueue c q false = true → s.ring (s.sqRing c q) = some r → v < r.size →
    Answers (.doorbellWrite c q false v l) s fun t =>
      (t.ring (s.sqRing c q)).map (fun y => (y.head, y.tail, y.entries.length)) = some (r.head, v, r.entries.length + (v +
        r.size - r.tail) % r.size)) ∧
  (∀ (s : State) (c q v : Nat) (l : List Sqe) (k : Controller) (r : Ring), s.noInjection = true → s.controller c = some k →
    k.enabled = true → s.ownsQueue c q true = true → s.ring (s.cqRing c q) = some r → v < r.size →
    Answers (.doorbellWrite c q true v l) s fun t =>
      (t.ring (s.cqRing c q)).map (fun y => (y.head, y.tail, y.entries)) = some (v, r.tail, r.entries)) ∧
  (∀ (s : State) (p c : Nat) (r : Ring) (q : Sqe) (rest : List Sqe) (pool : Pool), p < 3 → s.pairServed p = true →
    s.handoverHolds p = false → s.keeper.bindOff = false → s.keeper.inReset = false → s.noInjection = true →
    s.fetchSkeins p = [c] → s.readyRings c 0 = [] → (s.weightsOf c).2.2.2 = 1 → s.ring (s.sqRing c 0) = some r →
    r.entries = q :: rest → s.poolFor c false = some pool → Answers (.fetchRound p) s fun t =>
      t.flow.slots.dropLast = s.flow.slots ∧
      t.flow.slots.getLast?.map (fun y => (y.sqe, y.skein, y.seq, y.stage, y.pool)) = some (q, c, s.flow.nextSeq, .fetched,
        pool) ∧ (t.ring (s.sqRing c 0)).map (fun y => (y.head, y.entries)) = some ((r.head + 1) % r.size, rest)) ∧
  (∀ (s : State) (p : Nat), p < 3 → s.fetchSkeins p = [] → Answers (.fetchRound p) s fun t =>
      t = s) ∧
  (∀ (s : State) (n : Nat) (x : Slot) (e : ControllerEntry), s.freshAdmin n 5 = some x → s.heard x = true →
    s.noInjection = true → s.createStatus x true = 0 → s.entryOf x.skein = some e → x.sqe.cdw11 / 2 ^ 16 % 2 ^ 16 < e.msix →
    Answers (.createIoCq n) s fun t =>
      s.ended t x 0 0 = true ∧
      (t.ring (s.qidRing x true)).map (fun r => (r.size, r.link, r.entries)) = some (Sqe.queueEntries x.sqe, x.sqe.cdw11 / 2
        ^ 16 % 2 ^ 16, [])) ∧
  (∀ (s : State) (n : Nat) (x : Slot), s.freshAdmin n 5 = some x → s.heard x = true → s.noInjection = true →
    s.validQid x true = false → Answers (.createIoCq n) s fun t =>
      s.ended t x 0x101 0 = true ∧ t.host.rings.length = s.host.rings.length) ∧
  (∀ (s : State) (n : Nat) (x : Slot) (r : Ring), s.freshAdmin n 1 = some x → s.heard x = true → s.noInjection = true →
    s.createStatus x false = 0 → x.sqe.cdw11 / 2 ^ 16 % 2 ^ 16 ≠ 0 →
    s.ownsQueue x.skein (x.sqe.cdw11 / 2 ^ 16 % 2 ^ 16) true = true →
    s.ring (s.cqRing x.skein (x.sqe.cdw11 / 2 ^ 16 % 2 ^ 16)) = some r → Answers (.createIoSq n) s fun t =>
      s.ended t x 0 0 = true ∧
      (t.ring (s.qidRing x false)).map (fun r => (r.size, r.link, r.qprio, r.entries)) = some (Sqe.queueEntries x.sqe,
        x.sqe.cdw11 / 2 ^ 16 % 2 ^ 16, x.sqe.cdw11 / 2 % 4, [])) ∧
  (∀ (s : State) (n : Nat) (x : Slot), s.freshAdmin n 0 = some x → s.heard x = true → s.noInjection = true →
    s.deletable x false = true → s.flow.slots.any (fun y => y.ring == s.qidRing x false && !y.orphan) = false →
    Answers (.deleteIoSq n) s fun t =>
      s.ended t x 0 0 = true ∧ t.ring (s.qidRing x false) = none) ∧
  (∀ (s : State) (n : Nat) (x : Slot) (e : ControllerEntry), s.freshAdmin n 4 = some x → s.heard x = true →
    s.noInjection = true → s.deletable x true = true → s.entryOf x.skein = some e →
    s.host.rings.any (fun q => s.sqRing x.skein 0 < q.num && q.num < s.sqRing x.skein 0 + e.sqMax && q.link == Sqe.qid x.sqe)
      = false → Answers (.deleteIoCq n) s fun t =>
      s.ended t x 0 0 = true ∧ t.ring (s.qidRing x true) = none) ∧
  (∀ (s : State) (n : Nat) (x : Slot) (e : ControllerEntry), s.freshAdmin n 4 = some x → s.heard x = true →
    s.noInjection = true → s.deletable x true = true → s.entryOf x.skein = some e →
    s.host.rings.any (fun q => s.sqRing x.skein 0 < q.num && q.num < s.sqRing x.skein 0 + e.sqMax && q.link == Sqe.qid x.sqe)
      = true → Answers (.deleteIoCq n) s fun t =>
      s.ended t x 0x10C 0 = true ∧ (t.ring (s.qidRing x true)).isSome = true) ∧
  (∀ (s : State) (n : Nat) (x : Slot), s.freshAdmin n 8 = some x → s.heard x = true → s.noInjection = true →
    s.flow.slots.find? (fun y => y.skein == x.skein && y.ring == s.sqRing x.skein (x.sqe.cdw10 % 2 ^ 16) && y.sqe.cid ==
      x.sqe.cdw10 / 2 ^ 16 % 2 ^ 16 && s.abortable y) = none → Answers (.abort n) s fun t =>
      s.ended t x 0 1 = true) ∧
  (∀ (s : State) (n : Nat) (x : Slot) (y : Slot), s.freshAdmin n 8 = some x → s.heard x = true → s.noInjection = true →
    s.flow.slots.find? (fun y => y.skein == x.skein && y.ring == s.sqRing x.skein (x.sqe.cdw10 % 2 ^ 16) && y.sqe.cid ==
      x.sqe.cdw10 / 2 ^ 16 % 2 ^ 16 && s.abortable y) = some y → s.slot y.num = some y → y.isWrite = false → y.num ≠ n →
    s.heard y = true → Answers (.abort n) s fun t =>
      s.ended t x 0 0 = true ∧ s.ended t y 7 0 = true)

/-- Links, functions and transport errors (R115, R262, R264, R265), and what drive firmware asks of the host interface
(R279, R281, R295, R296). -/
def Obligations.PortsAndDriveFirmware : Prop :=
  (∀ (s : State) (p speed width : Nat), p < 2 → s.host.linkTraining.getD p false = true → 1 ≤ speed → speed ≤ 5 →
    (width = 1 ∨ width = 2) → Answers (.linkUp p speed width) s fun t =>
      t.fld (F.HIF_PORT_STATUS_LINK_UP p) = 1 ∧ t.fld (F.HIF_PORT_STATUS_SPEED p) = speed ∧
      t.fld (F.HIF_PORT_STATUS_WIDTH p) = width ∧ t.host.linkTraining.getD p false = false ∧
      OnlyChanged s t [R.HIF_PORT_STATUS p] [.host]) ∧
  (∀ (s : State) (p : Nat), p < 2 → s.fld (F.HIF_PORT_STATUS_LINK_UP p) = 1 → Answers (.linkDown p) s fun t =>
      t.fld (F.HIF_PORT_STATUS_LINK_UP p) = 0 ∧ t.fld (F.HIF_PORT_STATUS_SPEED p) = 0 ∧
      t.fld (F.HIF_PORT_STATUS_WIDTH p) = 0 ∧ OnlyChanged s t [R.HIF_PORT_STATUS p] [.host]) ∧
  (∀ (s : State) (p m : Nat), p < 2 → m < 16 → s.functionExists p 0 = true → s.host.vfEnable.length = 2 →
    s.host.vfEnable.getD p false = false → m ≤ s.totalVfs p → s.hostResets = true → Answers (.vfEnableSet p m) s fun t =>
      t.fld (F.HIF_PORT_STATUS_NUMVFS p) = m ∧ t.host.vfEnable.getD p false = true ∧
      ∀ i < m, t.fld (F.HIF_CTRL_EXIST_EXIST.at (16 * p + i + 1)) = 1) ∧
  (∀ (s : State) (p c m : Nat), p < 2 → s.portExists p = true → Answers (.tlpError .correctable p c m) s fun t =>
      t.fld (F.HIF_PORT_ERR_CORR p) = min (s.fld (F.HIF_PORT_ERR_CORR p) + 1) (2 ^ (F.HIF_PORT_ERR_CORR p).width - 1) ∧
      OnlyChanged s t [(F.HIF_PORT_ERR_CORR p).addr] []) ∧
  (∀ (s : State) (p c m : Nat), p < 2 → s.portExists p = true → c < 32 → Answers (.tlpError .sqeRead p c m) s fun t =>
      t.fld (F.HIF_CFS_CFS.at c) = 1 ∧
      t.fld (F.HIF_PORT_ERR_UNCORR p) = min (s.fld (F.HIF_PORT_ERR_UNCORR p) + 1) (2 ^ (F.HIF_PORT_ERR_UNCORR p).width - 1)) ∧
  (∀ (s : State) (ty info : Nat) (k : Controller), ty < 8 → info < 256 → s.host.controllers = [k] →
    s.fld (F.HIF_AEN_MASK_MASK.at k.cntlid) = 1 → k.cntlid < 32 → k.enabled = true → k.aers = [] → k.aerMasked = [] →
    asyncConfigMasks k.aecMask ty info = false → Answers (.hifAenPost ty info) s fun t =>
      t.fld F.HIF_AEN_POST_TYPE = ty ∧ t.fld F.HIF_AEN_POST_INFO = info ∧
      t.host.controllers = [{ k with aerQueue := k.aerQueue ++ [(ty, info)], aerMasked := [(ty, info)] }] ∧
      t.host.sent = s.host.sent) ∧
  (∀ (s : State) (mask : Nat), 0 < mask → mask < 2 ^ 32 → Answers (.hifCfsSet mask) s fun t =>
      t.fld F.HIF_CFS_CFS = s.fld F.HIF_CFS_CFS ||| mask ∧ t.host.controllers = s.host.controllers ∧
      t.record.faultOptime = s.optime) ∧
  (∀ (s : State) (mask : Nat), mask < 2 ^ 32 → Answers (.fetchHold mask) s fun t =>
      t.fld F.QUE_FETCH_HOLD_HOLD = mask ∧ OnlyChanged s t [R.QUE_FETCH_HOLD] []) ∧
  (∀ (s : State) (c v k : Nat) (x : Controller), s.controller c = some x → kget v x.coalescing = some k →
    s.fld (F.HIF_PORT_STATUS_LINK_UP (c / 16)) = 1 → Answers (.interruptCoalesceTimer c v) s fun t =>
      t.host.sent = .interrupt c v :: s.host.sent ∧
      (t.controller c).map (fun y => (kget v y.coalescing, y.aers, y.aerQueue)) = some (none, x.aers, x.aerQueue) ∧
      OnlyChanged s t [] [.host])

/-- The admin commands (R269, R271 to R276, R281): each completes with its status, and a successful one sets or returns
what it names; a command or a value that the part does not take completes with its error status. -/
def Obligations.AdminCommands : Prop :=
  (∀ (s : State) (n : Nat) (x : Slot) (l : List Byte) (c : Controller), s.freshAdmin n 9 = some x → s.heard x = true →
    s.noInjection = true → x.sqe.cdw10 % 256 = 0x0B → x.sqe.cdw10.testBit 31 = false → s.controller x.skein = some c →
    Answers (.setFeatures n l) s fun t =>
      s.ended t x 0 0 = true ∧ (t.controller x.skein).map (·.aecMask) = some (x.sqe.cdw11 % 2 ^ 32)) ∧
  (∀ (s : State) (n : Nat) (x : Slot) (l : List Byte), s.freshAdmin n 9 = some x → s.heard x = true → s.noInjection = true →
    x.sqe.cdw10 % 256 = 0x0B → x.sqe.cdw10.testBit 31 = true → Answers (.setFeatures n l) s fun t =>
      s.ended t x 0x10D 0 = true ∧ t.host.features = s.host.features) ∧
  (∀ (s : State) (n : Nat) (x : Slot) (l : List Byte), s.freshAdmin n 9 = some x → s.heard x = true → s.noInjection = true →
    x.sqe.cdw10 % 256 = 0x06 → x.sqe.cdw10.testBit 31 = true → x.fromPf = true → Answers (.setFeatures n l) s fun t =>
      s.ended t x 0 0 = true ∧ kget 0x06 t.host.features = some (x.sqe.cdw11 % 2) ∧
      kget 0x06 t.host.savedFeatures = some (x.sqe.cdw11 % 2)) ∧
  (∀ (s : State) (n : Nat) (x : Slot), s.freshAdmin n 9 = some x → s.heard x = true → s.noInjection = true →
    x.sqe.cdw10 % 256 = 0xC0 → x.fromPf = true → x.sqe.cdw11 % 2 ^ 10 ≤ 512 → Answers (.setDirtyCeiling n) s fun t =>
      s.ended t x 0 0 = true ∧ kget 0xC0 t.host.features = some (x.sqe.cdw11 % 2 ^ 10)) ∧
  (∀ (s : State) (n : Nat) (x : Slot), s.freshAdmin n 9 = some x → s.heard x = true → s.noInjection = true →
    x.sqe.cdw10 % 256 = 0xC0 → x.fromPf = true → 512 < x.sqe.cdw11 % 2 ^ 10 → Answers (.setDirtyCeiling n) s fun t =>
      s.ended t x 2 0 = true ∧ t.host.features = s.host.features) ∧
  (∀ (s : State) (n : Nat) (x : Slot) (e : NamespaceEntry), s.freshAdmin n 9 = some x → s.heard x = true →
    s.noInjection = true → x.sqe.cdw10 % 256 = 0xC1 → x.sqe.cdw10.testBit 31 = false → x.sqe.nsid ≠ 0xFFFFFFFF →
    s.namespaceOf x.sqe.nsid = some e → 3 ≤ s.cipherMode x.sqe.nsid → s.pattern.active.security.readPath ≠ 0 →
    Answers (.setReadPath n) s fun t =>
      s.ended t x 0 0 = true ∧ kget x.sqe.nsid t.host.readPath = some (x.sqe.cdw11 % 2)) ∧
  (∀ (s : State) (n : Nat) (x : Slot), s.freshAdmin n 9 = some x → s.heard x = true → s.noInjection = true →
    x.sqe.cdw10 % 256 = 0xC1 → x.sqe.cdw10.testBit 31 = false → x.sqe.nsid ≠ 0xFFFFFFFF → s.namespaceOf x.sqe.nsid = none →
    Answers (.setReadPath n) s fun t =>
      s.ended t x 0x0B 0 = true ∧ t.host.readPath = s.host.readPath) ∧
  (∀ (s : State) (n : Nat) (x : Slot), s.freshAdmin n 9 = some x → s.heard x = true → s.noInjection = true →
    x.sqe.cdw10 % 256 = 0xC2 → s.confirmStatus x = 0 → Answers (.setConfirmActivation n) s fun t =>
      s.ended t x 0 0 = true ∧ t.record.state = .confirmed ∧ t.record.unconf = 0 ∧ t.record.fallback = s.record.current ∧
      t.fld F.UPD_EV_CONFIRMED = 1) ∧
  (∀ (s : State) (n : Nat) (x : Slot) (c : Controller), s.freshAdmin n 0xa = some x → s.heard x = true →
    s.noInjection = true → x.sqe.cdw10 % 256 = 0x0B → x.sqe.cdw10 / 256 % 8 = 0 → s.controller x.skein = some c →
    Answers (.getFeatures n) s fun t =>
      s.ended t x 0 c.aecMask = true) ∧
  (∀ (s : State) (n : Nat) (x : Slot), s.freshAdmin n 0xa = some x → s.heard x = true → s.noInjection = true →
    x.sqe.cdw10 % 256 = 0xC0 → x.sqe.cdw10 / 256 % 8 = 3 → Answers (.getFeatures n) s fun t =>
      s.ended t x 0 5 = true) ∧
  (∀ (s : State) (n : Nat) (x : Slot) (c : Controller) (ty info : Nat) (rest : List (Nat × Nat)),
    s.freshAdmin n 0xc = some x → s.heard x = true → s.noInjection = true → s.controller x.skein = some c →
    c.aerQueue = (ty, info) :: rest → Answers (.asyncEventRequest n) s fun t =>
      s.ended t x 0 (ty + 0x100 * info + 0x10000 * asyncPage ty info) = true ∧
      (t.controller x.skein).map (·.aerQueue) = some rest) ∧
  (∀ (s : State) (n : Nat) (x : Slot) (c : Controller), s.freshAdmin n 0xc = some x → s.heard x = true →
    s.noInjection = true → s.controller x.skein = some c → c.aerQueue = [] → c.aers.length < 8 →
    Answers (.asyncEventRequest n) s fun t =>
      t.slot n = none ∧ (t.controller x.skein).map (·.aers) = some (c.aers ++ [x.sqe.cid]) ∧ t.host.sent = s.host.sent) ∧
  (∀ (s : State) (n : Nat) (x : Slot) (c : Controller), s.freshAdmin n 0xc = some x → s.heard x = true →
    s.noInjection = true → s.controller x.skein = some c → c.aerQueue = [] → 8 ≤ c.aers.length →
    Answers (.asyncEventRequest n) s fun t =>
      s.ended t x 0x105 0 = true ∧ (t.controller x.skein).map (·.aers) = some c.aers) ∧
  (∀ (s : State) (n : Nat) (x : Slot), s.freshAdmin n 2 = some x → s.heard x = true → s.noInjection = true →
    x.sqe.cdw10 % 256 = 0x04 → x.sqe.cdw10.testBit 15 = false → Answers (.getLogPage n) s fun t =>
      s.ended t x 0 0 = true ∧ t.host.changedNamespaces = [] ∧
      t.host.sent.contains (.page x.skein x.sqe.cid (cutBytes (nsidList 0 s.host.changedNamespaces) (logOffset x.sqe)
        (logBytes x.sqe))) = true) ∧
  (∀ (s : State) (n : Nat) (x : Slot), s.freshAdmin n 2 = some x → s.heard x = true → s.noInjection = true →
    x.sqe.cdw10 % 256 = 0xC5 → Answers (.getLogPage n) s fun t =>
      s.ended t x 0x109 0 = true) ∧
  (∀ (s : State) (n : Nat) (x : Slot), s.freshAdmin n 6 = some x → s.heard x = true → s.noInjection = true →
    x.sqe.cdw10 % 256 = 0x1C → Answers (.identify n) s fun t =>
      s.ended t x 0 0 = true ∧ t.host.sent.contains (.page x.skein x.sqe.cid (padTo 4096 (leBytes 8 5))) = true) ∧
  (∀ (s : State) (n : Nat) (x : Slot), s.freshAdmin n 6 = some x → s.heard x = true → s.noInjection = true →
    x.sqe.cdw10 % 256 = 0x16 → Answers (.identify n) s fun t =>
      s.ended t x 2 0 = true) ∧
  (∀ (s : State) (n : Nat) (x : Slot), s.freshAdmin n 0x14 = some x → s.heard x = true → s.noInjection = true →
    x.fromPf = true → (x.sqe.cdw10 % 16 = 1 ∨ x.sqe.cdw10 % 16 = 2) → Answers (.deviceSelfTest n) s fun t =>
      s.ended t x 0 0 = true ∧ t.host.selfTest.map (·.1) = some (x.sqe.cdw10 % 16) ∧ t.draws = s.draws + 1) ∧
  (∀ (s : State) (n : Nat) (x : Slot), s.freshAdmin n 0x14 = some x → s.heard x = true → s.noInjection = true →
    x.fromPf = false → Answers (.deviceSelfTest n) s fun t =>
      s.ended t x 1 0 = true ∧ t.host.selfTest = s.host.selfTest) ∧
  (∀ (s : State) (n : Nat) (x : Slot) (c : Nat) (e : ControllerEntry) (k : Controller), s.freshAdmin n 0x1c = some x →
    s.heard x = true → s.noInjection = true → isPf x.skein = true → x.sqe.cdw10 % 16 = 9 → x.sqe.cdw10 / 2 ^ 16 % 2 ^ 16 = c →
    isPf c = false → c / 16 = x.skein / 16 → s.entryOf c = some e → s.controller c = some k →
    Answers (.virtualizationManagement n) s fun t =>
      s.ended t x 0 0 = true ∧ (t.controller c).map (·.offline) = some false) ∧
  (∀ (s : State) (n : Nat) (x : Slot) (id v : Nat), s.freshAdmin n 0x1d = some x → s.heard x = true → s.noInjection = true →
    Answers (.nvmeMiSend n (.configSet id v)) s fun t =>
      s.ended t x 0 0 = true ∧ kget id t.host.miConfig = some (v % 2 ^ 32) ∧ t.host.miReply = [0]) ∧
  (∀ (s : State) (n : Nat) (x : Slot), s.freshAdmin n 0x1e = some x → s.heard x = true → s.noInjection = true →
    Answers (.nvmeMiReceive n) s fun t =>
      s.ended t x 0 0 = true ∧ t.host.sent.contains (.page x.skein x.sqe.cid s.host.miReply) = true) ∧
  (∀ (s : State) (n : Nat) (x : Slot), s.slot n = some x → x.fresh = true → s.isIo x = false →
    s.adminOpcodes.contains x.sqe.opcode = false → s.heard x = true → s.noInjection = true →
    Answers (.invalidAdminOpcode n) s fun t =>
      s.ended t x 1 0 = true)

/-- Format NVM, Security Send and Receive, and Sanitize (R119, R269, R288, R314, R397, R399): accepted commands start
their work, WRITE_HOLD holds them, each step of a sanitize takes its zones in turn and records the next, and
unsupported parameters end with their status. -/
def Obligations.FormatSecuritySanitize : Prop :=
  (∀ (s : State) (n : Nat) (x : Slot) (e : NamespaceEntry), s.freshAdmin n 0x80 = some x → s.heard x = true →
    s.noInjection = true → s.fld F.ORD_LEDGER_STATUS_WRITE_HOLD = 0 → s.formatStatus x = 0 → s.formatTargets x = [e] →
    Answers (.formatNvm n) s fun t =>
      t.host.formatting = s.host.formatting ++ [(e.nsid, x.sqe.cdw10 % 2 ^ 32, n + 1)] ∧
      (t.slot n).map (·.stage) = some .media ∧ t.host.sent = s.host.sent ∧ OnlyChanged s t [] [.host, .flow]) ∧
  (∀ (s : State) (n : Nat) (x : Slot), s.freshAdmin n 0x80 = some x → s.heard x = true → s.noInjection = true →
    s.fld F.ORD_LEDGER_STATUS_WRITE_HOLD = 1 → Answers (.formatNvm n) s fun t =>
      (t.slot n).map (fun y => (y.stage, y.writeHeld)) = some (.admitWait, true) ∧ OnlyChanged s t [] [.flow]) ∧
  (∀ (s : State) (n : Nat) (x : Slot) (e : NamespaceEntry), s.freshAdmin n 0x80 = some x → s.heard x = true →
    s.noInjection = true → s.fld F.ORD_LEDGER_STATUS_WRITE_HOLD = 0 → s.formatTargets x = [e] → x.sqe.nsid = e.nsid →
    s.namespaceOf e.nsid = some e → s.host.sanitize = none → s.host.formatting = [] → 2 ≤ x.sqe.cdw10 % 16 →
    Answers (.formatNvm n) s fun t =>
      s.ended t x 0x10A 0 = true ∧ t.host.formatting = []) ∧
  (∀ (s : State) (nsid d n : Nat) (e : NamespaceEntry), s.host.formatting = [(nsid, d, n + 1)] →
    s.namespaceOf nsid = some e → d / 2 ^ 9 % 8 = 0 → s.noInjection = true → Answers (.formatNvmDone nsid) s fun t =>
      t.host.formatting = [] ∧ kget nsid t.host.lbaFormat = some (d % 16) ∧ t.slot n = none ∧
      t.host.changedNamespaces.contains nsid = true) ∧
  (∀ (s : State) (n : Nat) (x : Slot) (l : List Byte), s.freshAdmin n 0x81 = some x → s.heard x = true →
    s.noInjection = true → s.fuse.nSuffix = false → x.sqe.cdw10 / 2 ^ 24 % 256 = 1 → l.length ≤ 2 ^ 21 →
    Answers (.securitySend n l) s fun t =>
      s.ended t x 0 0 = true) ∧
  (∀ (s : State) (n : Nat) (x : Slot) (l : List Byte), s.freshAdmin n 0x81 = some x → s.heard x = true →
    s.noInjection = true → s.fuse.nSuffix = true → Answers (.securitySend n l) s fun t =>
      s.ended t x 1 0 = true) ∧
  (∀ (s : State) (n : Nat) (x : Slot), s.freshAdmin n 0x82 = some x → s.heard x = true → s.noInjection = true →
    s.fuse.nSuffix = false → x.sqe.cdw10 / 2 ^ 24 % 256 = 2 → x.sqe.cdw11 % 2 ^ 32 ≤ 2 ^ 21 →
    Answers (.securityReceive n) s fun t =>
      s.ended t x 0 0 = true ∧ t.draws = s.draws + 1) ∧
  (∀ (s : State) (n : Nat) (x : Slot), s.freshAdmin n 0x84 = some x → s.heard x = true → s.noInjection = true →
    s.fld F.ORD_LEDGER_STATUS_WRITE_HOLD = 0 → x.fromPf = true →
    (sanAct (x.sqe.cdw10 % 2 ^ 32) = 2 ∨ sanAct (x.sqe.cdw10 % 2 ^ 32) = 3) → s.host.sanitize = none →
    Answers (.sanitize n) s fun t =>
      s.ended t x 0 0 = true ∧ t.host.sanitize = some (x.sqe.cdw10 % 2 ^ 32, x.sqe.cdw11 % 2 ^ 32) ∧ t.tir.sanitizeStep = 2) ∧
  (∀ (s : State) (n : Nat) (x : Slot) (y : Nat × Nat), s.freshAdmin n 0x84 = some x → s.heard x = true →
    s.noInjection = true → s.fld F.ORD_LEDGER_STATUS_WRITE_HOLD = 0 → x.fromPf = true → sanAct (x.sqe.cdw10 % 2 ^ 32) = 2 →
    s.host.sanitize = some y → Answers (.sanitize n) s fun t =>
      s.ended t x 0x1D 0 = true ∧ t.host.sanitize = some y ∧ t.tir.sanitizeStep = s.tir.sanitizeStep) ∧
  (∀ (s : State) (n : Nat) (x : Slot), s.freshAdmin n 0x84 = some x → s.heard x = true → s.noInjection = true →
    s.fld F.ORD_LEDGER_STATUS_WRITE_HOLD = 1 → Answers (.sanitize n) s fun t =>
      (t.slot n).map (fun y => (y.stage, y.writeHeld)) = some (.admitWait, true) ∧ OnlyChanged s t [] [.flow]) ∧
  (∀ (s : State) (y : Nat × Nat), s.host.sanitize = some y → s.walkerHolds = false → s.tir.sanitizeStep = 1 →
    Answers (.sanitizeStepDone) s fun t =>
      t.tir.sanitizeStep = 2 ∧ t.tir.keyCache = [] ∧ t.tir.injected = [] ∧ t.cip.reservations = [] ∧ t.host.sanitize = some y) ∧
  (∀ (s : State) (d w : Nat), s.host.sanitize = some (d, w) → s.walkerHolds = false → s.tir.sanitizeStep = 2 →
    Answers (.sanitizeStepDone) s fun t =>
      t.tir.sanitizeStep = (if sanAct d = 2 then 3 else if sanAct d = 3 then 4 else 5) ∧ t.tir.sanitizeZone = 0 ∧
      t.tir.injected = [] ∧ t.stitch.leaves = [] ∧ t.stitch.snapshots = [] ∧ t.keeper.saves = [] ∧ t.darn.unreadable = []) ∧
  (∀ (s : State) (y : Nat × Nat) (z : Nat), s.host.sanitize = some y → s.walkerHolds = false → s.tir.sanitizeStep = 3 →
    s.eraseZones[s.tir.sanitizeZone]? = some z → Answers (.sanitizeStepDone) s fun t =>
      (∀ m ∈ t.stitch.media, s.zoneOfPsa m.1 ≠ some z) ∧ t.tir.sanitizeZone = s.tir.sanitizeZone + 1 ∧
      t.tir.sanitizeStep = 3 ∧ OnlyChanged s t [] [.stitch, .tir]) ∧
  (∀ (s : State) (y : Nat × Nat), s.host.sanitize = some y → s.walkerHolds = false → s.tir.sanitizeStep = 3 →
    s.eraseZones[s.tir.sanitizeZone]? = none → Answers (.sanitizeStepDone) s fun t =>
      t.tir.sanitizeStep = 5 ∧ t.tir.sanitizeZone = 0 ∧ OnlyChanged s t [] [.tir]) ∧
  (∀ (s : State) (y : Nat × Nat), s.host.sanitize = some y → s.walkerHolds = false → s.tir.sanitizeStep = 4 →
    s.overwrites = false → s.overwriteZones.length ≤ s.tir.sanitizeZone → Answers (.sanitizeStepDone) s fun t =>
      t.tir.sanitizeStep = (if s.tir.sanitizePass + 1 < sanPasses y.1 then 4 else 5) ∧
      t.tir.sanitizePass = (if s.tir.sanitizePass + 1 < sanPasses y.1 then s.tir.sanitizePass + 1 else 0) ∧
      t.tir.sanitizeZone = 0) ∧
  (∀ (s : State) (d w : Nat), s.host.sanitize = some (d, w) → sanAct d = 3 → s.walkerHolds = false →
    s.tir.sanitizeStep = 5 → Answers (.sanitizeStepDone) s fun t =>
      t.host.sanitize = none ∧ t.host.sanitizeDone = some d ∧ t.tir.sanitizeStep = 0 ∧ t.stitch = s.stitch)

/-- The I/O commands (R267, R270, R318, R322, R331, R332, R338): what is refused completes with its status, a read
takes its sources, a write is accepted at its place and counted, what writes no sector is visible at once, and Flush
waits for older writes. -/
def Obligations.InputOutputCommands : Prop :=
  (∀ (s : State) (n : Nat) (x : Slot), s.freshIo n 0 = some x → s.heard x = true → s.noInjection = true →
    x.sqe.nsid ≠ 0xFFFFFFFF → s.ioStatus x [0, 1, 2] false 0 = 0 →
    s.flow.slots.any (fun w => w.liveWrite && w.epoch < x.epoch && w.sqe.nsid == x.sqe.nsid) = false →
    Answers (.flush n) s fun t =>
      s.ended t x 0 0 = true) ∧
  (∀ (s : State) (n : Nat) (x : Slot), s.freshIo n 0 = some x → s.heard x = true → s.noInjection = true →
    x.sqe.nsid ≠ 0xFFFFFFFF → s.ioStatus x [0, 1, 2] false 0 = 0 →
    s.flow.slots.any (fun w => w.liveWrite && w.epoch < x.epoch && w.sqe.nsid == x.sqe.nsid) = true →
    Answers (.flush n) s fun t =>
      t = s) ∧
  (∀ (s : State) (n : Nat) (x : Slot) (d : Sector) (p : List Byte), s.freshIo n 2 = some x → s.heard x = true →
    s.noInjection = true → x.isRead = true → x.isWrite = false → x.stage = .fetched → x.got = [] → x.readPoint = false →
    x.lbas = 1 → s.readHeld x = false → s.underRebuild x.dla 1 = false → s.ioStatus x [0, 1, 2] true 512 = 0 →
    s.sourceOf x.epoch x.dla = .clean d p → Answers (.read n) s fun t =>
      (t.slot n).map (fun y => (y.stage, y.readPoint, y.got, y.src)) = some (.xferOut, true, [some (d, p)], [1]) ∧
      t.host.sent = s.host.sent) ∧
  (∀ (s : State) (n : Nat) (x : Slot) (st : Nat), s.freshIo n 2 = some x → s.heard x = true → s.noInjection = true →
    x.got = [] → s.ioStatus x [0, 1, 2] true 512 = st → st ≠ 0 → x.readPoint = false → Answers (.read n) s fun t =>
      s.ended t x st 0 = true) ∧
  (∀ (s : State) (n : Nat) (x : Slot) (d e : Sector) (p : List Byte), s.freshIo n 5 = some x → s.heard x = true →
    s.noInjection = true → x.isRead = true → x.isWrite = false → x.stage = .fetched → x.got = [] → x.readPoint = false →
    x.lbas = 1 → s.readHeld x = false → s.underRebuild x.dla 1 = false → s.ioStatus x [0, 1, 2] true 512 = 0 →
    s.sourceOf x.epoch x.dla = .clean d p → Answers (.compare n [e]) s fun t =>
      s.ended t x (if padTo 4096 d == padTo 4096 e then 0 else 0x285) 0 = true) ∧
  (∀ (s : State) (n : Nat) (x : Slot) (d : Sector) (p : List Byte), s.freshIo n 12 = some x → s.heard x = true →
    s.noInjection = true → x.isRead = true → x.isWrite = false → x.stage = .fetched → x.got = [] → x.readPoint = false →
    x.lbas = 1 → s.readHeld x = false → s.underRebuild x.dla 1 = false → s.ioStatus x [0, 1, 2] true 65536 = 0 →
    s.sourceOf x.epoch x.dla = .clean d p → Answers (.verify n) s fun t =>
      s.ended t x 0 0 = true) ∧
  (∀ (s : State) (n : Nat) (x : Slot), s.freshIo n 12 = some x → s.heard x = true → s.noInjection = true → x.isRead = true →
    x.isWrite = false → x.stage = .fetched → x.got = [] → x.readPoint = false → x.lbas = 1 → s.readHeld x = false →
    s.underRebuild x.dla 1 = false → s.ioStatus x [0, 1, 2] true 65536 = 0 → s.sourceOf x.epoch x.dla = .lost →
    Answers (.verify n) s fun t =>
      s.ended t x 0x281 0 = true) ∧
  (∀ (s : State) (n : Nat) (x : Slot), s.freshIo n 1 = some x → s.heard x = true → s.noInjection = true →
    s.countersSpent x = none → s.ioStatus x [0, 1, 2] true 512 = 0 → s.inZns x = false → x.writeZones = [x.zone] →
    s.fld F.ORD_LEDGER_STATUS_WRITE_HOLD = 0 → Answers (.write n) s fun t =>
      (t.slot n).map (fun y => (y.stage, y.writeHeld, y.wcount, y.zoneGen)) = some (.admitWait, false, (s.zdesc
        x.zone).wcount + 1, (s.zdesc x.zone).gen) ∧ (t.slot n).map (·.verified) = some (List.replicate x.lbas false) ∧
      (t.zdesc x.zone).wcount = (s.zdesc x.zone).wcount + 1 ∧ OnlyChanged s t [] [.flow, .stitch]) ∧
  (∀ (s : State) (n : Nat) (x : Slot) (ns : NamespaceEntry), s.freshIo n 1 = some x → s.heard x = true →
    s.noInjection = true → s.countersSpent x = none → s.stitch.rebuilding = [] → s.stitch.held = [] → s.offMedia + 4 ≤ 65536 →
    s.ioStatus x [0, 1, 2] true 512 = 0 → s.inZns x = true → s.namespaceOf x.sqe.nsid = some ns →
    s.olderInZone x x.zone = false → s.acceptStatus x = 0 → (s.zdesc x.zone).state = .empty →
    s.makeOpenRoom ns x.zone true = (0, s) → x.writeZones = [x.zone] → Answers (.write n) s fun t =>
      (t.slot n).map (·.stage) = some .admitWait ∧ (t.acceptOf x.zone).1 = (s.acceptOf x.zone).1 + x.lbas ∧
      (t.zdesc x.zone).state = .implicitOpen ∧ (t.zdesc x.zone).wcount = (s.zdesc x.zone).wcount + 1) ∧
  (∀ (s : State) (n : Nat) (x : Slot), s.freshIo n 1 = some x → s.heard x = true → s.noInjection = true →
    s.countersSpent x = none → s.ioStatus x [0, 1, 2] true 512 = 0 → s.inZns x = true → s.olderInZone x x.zone = false →
    (s.zdesc x.zone).state = .empty → x.dla % zoneSectors ≠ (s.acceptOf x.zone).1 → Answers (.write n) s fun t =>
      s.ended t x 0x1BC 0 = true) ∧
  (∀ (s : State) (n : Nat) (x : Slot) (st : Nat), s.freshIo n 1 = some x → s.heard x = true → s.noInjection = true →
    s.ioStatus x [0, 1, 2] true 512 = st → st ≠ 0 → Answers (.write n) s fun t =>
      s.ended t x st 0 = true) ∧
  (∀ (s : State) (n : Nat) (x : Slot), s.freshIo n 8 = some x → s.heard x = true → s.noInjection = true →
    s.countersSpent x = none → s.ioStatus x [0, 1, 2] true 65536 = 0 → s.inZns x = false → s.writesHeld = false →
    Answers (.writeZeroes n) s fun t =>
      (t.slot n).map (fun y => (y.stage, y.visible)) = some (.media, true) ∧ t.host.sent = s.host.sent) ∧
  (∀ (s : State) (n : Nat) (x : Slot) (ns : NamespaceEntry) (a k : Nat), s.freshIo n 9 = some x → s.heard x = true →
    s.noInjection = true → s.ioStatus x [0, 2] false 0 = 0 → x.isWrite = true → s.namespaceOf x.sqe.nsid = some ns → 0 < k →
    a + k ≤ ns.capacity → s.countersSpent { x with ranges := [(ns.dla a, k)] } = none → s.writesHeld = false →
    Answers (.datasetManagement n [(a, k)]) s fun t =>
      (t.slot n).map (fun y => (y.stage, y.visible, y.ranges)) = some (.media, true, [(ns.dla a, k)])) ∧
  (∀ (s : State) (n : Nat) (x : Slot) (ns : NamespaceEntry) (l : List (Nat × Nat)), s.freshIo n 9 = some x →
    s.heard x = true → s.noInjection = true → s.ioStatus x [0, 2] false 0 = 0 → x.isWrite = false →
    s.namespaceOf x.sqe.nsid = some ns → Answers (.datasetManagement n l) s fun t =>
      s.ended t x 0 0 = true) ∧
  (∀ (s : State) (n : Nat) (x : Slot), s.freshIo n 4 = some x → s.heard x = true → s.noInjection = true →
    s.countersSpent x = none → s.ioStatus x [0, 2] true 65536 = 0 → s.writesHeld = false →
    Answers (.writeUncorrectable n) s fun t =>
      (t.slot n).map (fun y => (y.stage, y.visible)) = some (.media, true) ∧ t.host.sent = s.host.sent) ∧
  (∀ (s : State) (n : Nat) (x : Slot) (ns : NamespaceEntry), s.freshIo n 0x7D = some x → s.heard x = true →
    s.noInjection = true → s.countersSpent x = none → s.stitch.rebuilding = [] → s.stitch.held = [] → s.offMedia + 4 ≤ 65536 →
    s.ioStatus x [1] true 512 = 0 → s.namespaceOf x.sqe.nsid = some ns → (s.zdesc x.zone).state = .empty →
    s.olderInZone x x.zone = false → s.appendStatus x = 0 → s.makeOpenRoom ns x.zone true = (0, s) →
    Answers (.zoneAppend n) s fun t =>
      (t.slot n).map (·.stage) = some .admitWait ∧
      t.acceptOf x.zone = ((s.acceptOf x.zone).1, (s.acceptOf x.zone).2 + x.lbas) ∧ (t.zdesc x.zone).state = .implicitOpen) ∧
  (∀ (s : State) (n : Nat) (x : Slot) (ns : NamespaceEntry), s.freshIo n 0x7D = some x → s.heard x = true →
    s.noInjection = true → s.ioStatus x [1] true 512 = 0 → s.namespaceOf x.sqe.nsid = some ns →
    (s.zdesc x.zone).state = .empty → s.olderInZone x x.zone = false → x.dla % zoneSectors ≠ 0 →
    Answers (.zoneAppend n) s fun t =>
      s.ended t x 2 0 = true) ∧
  (∀ (s : State) (n : Nat) (x : Slot), s.slot n = some x → x.stage = .fetched → s.isIo x = true → x.got = [] →
    ioOpcodes.contains x.sqe.opcode = false → s.heard x = true → s.noInjection = true →
    Answers (.invalidIoOpcode n) s fun t =>
      s.ended t x 1 0 = true)

/-- The zone commands (R290, R291, R314, R326): Open, Close, Finish, Reset and Offline move the named zone and
complete, an invalid transition and a descriptor extension are refused, Reset makes a new generation, WRITE_HOLD
holds it, and Report Zones answers what the zones are. -/
def Obligations.ZoneCommands : Prop :=
  (∀ (s : State) (n : Nat) (x : Slot) (ns : NamespaceEntry), s.freshAction n 3 = some x → s.heard x = true →
    s.noInjection = true → s.actionStatus x = 0 → x.sqe.cdw13.testBit 8 = false → s.namespaceOf x.sqe.nsid = some ns →
    s.stitch.rebuilding = [] → s.stitch.held = [] → s.offMedia + 4 ≤ 65536 → (s.zdesc x.zone).state = .empty →
    s.makeOpenRoom ns x.zone false = (0, s) → Answers (.zoneOpen n) s fun t =>
      s.ended t x 0 0 = true ∧ (t.zdesc x.zone).state = .explicitOpen) ∧
  (∀ (s : State) (n : Nat) (x : Slot) (ns : NamespaceEntry), s.freshAction n 3 = some x → s.heard x = true →
    s.noInjection = true → s.actionStatus x = 0 → x.sqe.cdw13.testBit 8 = false → s.namespaceOf x.sqe.nsid = some ns →
    (s.zdesc x.zone).state = .full → Answers (.zoneOpen n) s fun t =>
      s.ended t x 0x1BF 0 = true ∧ t.stitch = s.stitch) ∧
  (∀ (s : State) (n : Nat) (x : Slot) (ns : NamespaceEntry), s.freshAction n 1 = some x → s.heard x = true →
    s.noInjection = true → s.actionStatus x = 0 → x.sqe.cdw13.testBit 8 = false → s.namespaceOf x.sqe.nsid = some ns →
    s.stitch.rebuilding = [] → s.stitch.held = [] → s.offMedia + 4 ≤ 65536 → (s.zdesc x.zone).state = .explicitOpen →
    Answers (.zoneClose n) s fun t =>
      s.ended t x 0 0 = true ∧ (t.zdesc x.zone).state = (if (s.zdesc x.zone).hostWp = 0 then .empty else .closed)) ∧
  (∀ (s : State) (n : Nat) (x : Slot) (ns : NamespaceEntry), s.freshAction n 2 = some x → s.heard x = true →
    s.noInjection = true → s.actionStatus x = 0 → x.sqe.cdw13.testBit 8 = false → s.namespaceOf x.sqe.nsid = some ns →
    s.stitch.rebuilding = [] → s.stitch.held = [] → s.offMedia + 4 ≤ 65536 → s.fld F.ORD_LEDGER_STATUS_WRITE_HOLD = 0 →
    (s.zdesc x.zone).state = .closed → s.actionHeld x [x.zone] = false → (s.writePos x.zone).1 % 64 = 0 → s.flow.ops = [] →
    Answers (.zoneFinish n) s fun t =>
      s.ended t x 0 0 = true ∧ (t.zdesc x.zone).state = .full) ∧
  (∀ (s : State) (n : Nat) (x : Slot) (ns : NamespaceEntry), s.freshAction n 2 = some x → s.heard x = true →
    s.noInjection = true → s.actionStatus x = 0 → x.sqe.cdw13.testBit 8 = false → s.namespaceOf x.sqe.nsid = some ns →
    s.fld F.ORD_LEDGER_STATUS_WRITE_HOLD = 1 → x.stage = .fetched → Answers (.zoneFinish n) s fun t =>
      (t.slot n).map (fun y => (y.stage, y.writeHeld)) = some (.admitWait, true) ∧ OnlyChanged s t [] [.flow]) ∧
  (∀ (s : State) (n : Nat) (x : Slot) (ns : NamespaceEntry), s.freshAction n 4 = some x → s.heard x = true →
    s.noInjection = true → s.actionStatus x = 0 → x.sqe.cdw13.testBit 8 = false → s.namespaceOf x.sqe.nsid = some ns →
    s.stitch.rebuilding = [] → s.stitch.held = [] → s.offMedia + 4 ≤ 65536 → s.fld F.ORD_LEDGER_STATUS_WRITE_HOLD = 0 →
    (s.zdesc x.zone).state = .full → s.actionHeld x [x.zone] = false → s.darn.rewrite = none → s.stitch.snapshots = [] →
    (s.zdesc x.zone).gen < 0xFFFFFFFF → Answers (.zoneReset n) s fun t =>
      s.ended t x 0 0 = true ∧ (t.zdesc x.zone).state = .empty ∧ (t.zdesc x.zone).gen = (s.zdesc x.zone).gen + 1 ∧
      (t.zdesc x.zone).wp = 0) ∧
  (∀ (s : State) (n : Nat) (x : Slot) (ns : NamespaceEntry), s.freshAction n 4 = some x → s.heard x = true →
    s.noInjection = true → s.actionStatus x = 0 → x.sqe.cdw13.testBit 8 = false → s.namespaceOf x.sqe.nsid = some ns →
    s.fld F.ORD_LEDGER_STATUS_WRITE_HOLD = 1 → Answers (.zoneReset n) s fun t =>
      (t.slot n).map (fun y => (y.stage, y.writeHeld)) = some (.admitWait, true) ∧ OnlyChanged s t [] [.flow]) ∧
  (∀ (s : State) (n : Nat) (x : Slot) (ns : NamespaceEntry), s.freshAction n 4 = some x → s.heard x = true →
    s.noInjection = true → s.actionStatus x = 0 → x.sqe.cdw13.testBit 8 = false → s.namespaceOf x.sqe.nsid = some ns →
    s.fld F.ORD_LEDGER_STATUS_WRITE_HOLD = 0 → (s.zdesc x.zone).state = .readOnly → s.actionHeld x [x.zone] = false →
    Answers (.zoneReset n) s fun t =>
      s.ended t x 0x1BA 0 = true) ∧
  (∀ (s : State) (n : Nat) (x : Slot) (ns : NamespaceEntry), s.freshAction n 5 = some x → s.heard x = true →
    s.noInjection = true → s.actionStatus x = 0 → x.sqe.cdw13.testBit 8 = false → s.namespaceOf x.sqe.nsid = some ns →
    s.stitch.rebuilding = [] → s.stitch.held = [] → s.offMedia + 4 ≤ 65536 → s.fld F.ORD_LEDGER_STATUS_WRITE_HOLD = 0 →
    (s.zdesc x.zone).state = .readOnly → Answers (.zoneOffline n) s fun t =>
      s.ended t x 0 0 = true ∧ (t.zdesc x.zone).state = .offline) ∧
  (∀ (s : State) (n : Nat) (x : Slot) (ns : NamespaceEntry), s.freshAction n 5 = some x → s.heard x = true →
    s.noInjection = true → s.actionStatus x = 0 → x.sqe.cdw13.testBit 8 = false → s.namespaceOf x.sqe.nsid = some ns →
    s.fld F.ORD_LEDGER_STATUS_WRITE_HOLD = 0 → (s.zdesc x.zone).state = .full → Answers (.zoneOffline n) s fun t =>
      s.ended t x 0x1BF 0 = true ∧ t.stitch = s.stitch) ∧
  (∀ (s : State) (n : Nat) (x : Slot), s.freshAction n 0x10 = some x → s.heard x = true → s.noInjection = true →
    s.fld F.ORD_LEDGER_STATUS_WRITE_HOLD = 0 → s.ioStatus x [1] false 0 = 0 → Answers (.zoneSetDescExt n) s fun t =>
      s.ended t x 2 0 = true) ∧
  (∀ (s : State) (n : Nat) (x : Slot) (ns : NamespaceEntry), s.freshIo n 0x7A = some x → s.heard x = true →
    s.noInjection = true → s.ioStatus x [1] false 0 = 0 → s.namespaceOf x.sqe.nsid = some ns → x.sqe.cdw13 = 0 →
    Sqe.slba x.sqe < ns.capacity → ns.zones = [x.zone] → 31 ≤ x.sqe.cdw12 → x.sqe.cdw12 < 2 ^ 30 →
    Answers (.zoneMgmtReceive n) s fun t =>
      s.ended t x 0 0 = true ∧
      t.host.sent.contains (.page x.skein x.sqe.cid (leBytes 8 1 ++ leBytes 56 0 ++ s.zoneReport ns x.zone)) = true) ∧
  (∀ (s : State) (n : Nat) (x : Slot), s.freshIo n 0x7A = some x → s.heard x = true → s.noInjection = true →
    s.ioStatus x [1] false 0 = 0 → x.sqe.cdw13 % 256 ≠ 0 → Answers (.zoneMgmtReceive n) s fun t =>
      s.ended t x 2 0 = true)

/-- The way of a command through pages and media (R301 to R307, R318, R322, R326, R329, R336, R337, R345): admission,
data, the window, the pick, preemption, media completion, the read point, the transfer, and the claims. -/
def Obligations.MediaFlow : Prop :=
  (∀ (s : State) (x : Slot), s.nextAdmission = some x → s.slot x.num = some x → s.writesHeld = false → x.verified ≠ [] →
    x.piece = 0 → s.dirtyAhead + x.lbas ≤ s.ceilingPages → 2 * x.lbas ≤ s.avail Class.free → s.flow.census.length = 23 →
    s.fld F.ROWT_STATUS_GUARD = 0 → s.noInjection = true → Answers (.writeAdmit) s fun t =>
      (t.slot x.num).map (fun y => (y.stage, y.pages, y.piece)) = some (.xferIn, x.lbas, 0) ∧
      t.census Class.hostIn = s.census Class.hostIn + x.lbas ∧ t.census Class.free = s.census Class.free - x.lbas) ∧
  (∀ (s : State) (x : Slot), s.nextAdmission = some x → s.writesHeld = false → x.verified ≠ [] → x.piece = 0 →
    x.lbas ≤ s.ceilingPages → s.ceilingPages < s.dirtyAhead + x.lbas → Answers (.writeAdmit) s fun t =>
      t = s) ∧
  (∀ (s : State) (n : Nat) (d : Sector) (l : List (List Byte)) (x : Slot), s.flow.slots = [x] → x.num = n →
    x.stage = .xferIn → x.isWrite = true → x.sqe.opcode = 1 → x.data = [] → x.shown = 0 → x.pages = 1 → x.lbas = 1 →
    x.early = false → s.inZns x = false → s.lbaf x.sqe.nsid = 0 → 1 ≤ s.avail Class.free → s.flow.held = [] →
    s.noInjection = true → Answers (.writeDataComplete n [d] l) s fun t =>
      (t.slot n).map (fun y => (y.stage, y.visible, y.data, y.shown)) = some (.media, true, [d], 1) ∧
      t.flow.ops.length = s.flow.ops.length + 1 ∧ t.host.sent = s.host.sent) ∧
  (∀ (s : State) (n st : Nat) (d : Sector) (p : List Byte) (x : Slot), s.slot n = some x → x.stage = .xferIn →
    x.isWrite = true → x.sqe.opcode = 1 → x.data = [] → x.shown = 0 → x.pages = 1 → s.inZns x = false →
    s.lbaf x.sqe.nsid ≠ 0 → kgetD x.sqe.nsid s.host.piType 0 = 1 → Sqe.pract x.sqe = false →
    Sqe.checkPi x.sqe 1 0 d (padTo 16 p) = st → st ≠ 0 → s.heard x = true → s.noInjection = true →
    Answers (.writeDataComplete n [d] [p]) s fun t =>
      s.ended t x st 0 = true ∧ t.fld F.ORD_OVL_EV_GUARD_WRITE = 1) ∧
  (∀ (s : State) (a : Nat) (o : MediaOp) (rest : List MediaOp), (s.opsAt a .window).length < 8192 →
    s.opsAt a .listed = o :: rest → (o :: rest).any (·.urgent) = false → s.op o.id = some o →
    Answers (.windowEnter a) s fun t =>
      (t.op o.id).map (fun p => (p.place, p.entered, p.cost)) = some (.window, s.row.now, none) ∧ OnlyChanged s t [] [.flow]) ∧
  (∀ (s : State) (a k : Nat) (o : MediaOp), a < 2 → s.hasAct a = true → s.fld F.ROWT_STATUS_GUARD = 0 → 1 ≤ k →
    s.opsAt a .window = [o] → s.op o.id = some o → o.kind = .read → s.eligible o = true → s.needsKey o = false →
    s.mayIssue a = true → Answers (.mediaPick a k) s fun t =>
      (t.op o.id).map (fun p => (p.place, p.cost)) = some (.issued, some (s.opCost o)) ∧ t.fld (F.SCH_BEST_VALID a) = 1 ∧
      t.fld (F.SCH_BEST_INDEX a) = 0 ∧ t.fld (F.SCH_BEST_COST_US a) = min (s.opCost o / 1000) 131071 ∧
      t.fld (F.SCH_PICKS_PICKS a) = min (s.fld (F.SCH_PICKS_PICKS a) + 1) (2 ^ (F.SCH_PICKS_PICKS a).width - 1)) ∧
  (∀ (s : State) (a k : Nat), a < 2 → s.hasAct a = true → s.fld F.ROWT_STATUS_GUARD = 0 → s.opsAt a .window = [] →
    Answers (.mediaPick a k) s fun t =>
      t.fld (F.SCH_BEST_VALID a) = 0 ∧ OnlyChanged s t [(F.SCH_BEST_VALID a).addr] []) ∧
  (∀ (s : State) (a k : Nat), s.fld F.ROWT_STATUS_GUARD = 1 → Answers (.mediaPick a k) s fun t =>
      t = s) ∧
  (∀ (s : State) (a : Nat) (o : MediaOp), a < 2 → (s.opsAt a .window).any (fun o => o.urgent && s.eligible o) = true →
    s.fld (F.SCH_CTRL_PREEMPT a) = 1 → (s.opsAt a .issued).find? (fun o => o.underWay && !o.urgent) = some o →
    s.op o.id = some o → o.framed = [] → o.transferring = false → Answers (.preempt a) s fun t =>
      (t.op o.id).map (fun p => (p.place, p.transferring)) = some (.window, false) ∧
      t.fld (F.SCH_EVALS_PREEMPTS a) = min (s.fld (F.SCH_EVALS_PREEMPTS a) + 1) (2 ^ (F.SCH_EVALS_PREEMPTS a).width - 1)) ∧
  (∀ (s : State) (n p : Nat) (x : Slot), s.flow.slots = [x] → x.num = n → x.isWrite = true → x.stage = .media → x.lbas = 1 →
    x.shown = 1 → x.done = 0 → x.verified = [true] → x.placed = [p] → x.ranges = [(x.dla, 1)] → s.walkerBusy x.dla 1 = false →
    s.resolve x.dla = .at p → s.inZns x = false → x.atomicStaged = false → s.heard x = true → s.noInjection = true →
    Answers (.mediaCompletion n) s fun t =>
      s.ended t x 0 x.result = true ∧ t.flow.clean.any (fun c => c.dla == x.dla) = true ∧ t.stitch = s.stitch) ∧
  (∀ (s : State) (n : Nat) (x : Slot) (d : Sector) (p : List Byte), s.slot n = some x → s.atReadPoint x = true →
    x.lbas = 1 → x.isWrite = false → x.sqe.opcode = 2 → x.orphan = false → s.sourceOf x.epoch x.dla = .clean d p →
    Answers (.readPoint n) s fun t =>
      (t.slot n).map (fun y => (y.stage, y.readPoint, y.got, y.src)) = some (.xferOut, true, [some (d, p)], [1]) ∧
      t.host.sent = s.host.sent) ∧
  (∀ (s : State) (n : Nat) (x : Slot), s.slot n = some x → s.readHeld x = true → Answers (.readPoint n) s fun t =>
      t = s) ∧
  (∀ (s : State) (n : Nat) (x : Slot) (d : Sector) (p : List Byte), s.slot n = some x → x.stage = .xferOut →
    x.got = [some (d, p)] → x.sent = [false] → s.heard x = true → s.noInjection = true →
    Answers (.readTransfer n 0 true) s fun t =>
      s.ended t x x.status 0 = true ∧
      t.host.sent.contains (.data x.skein x.sqe.cid (Sqe.slba x.sqe) (s.hostBytes x d p)) = true) ∧
  (∀ (s : State) (n q : Nat) (x : Slot) (d : Sector) (p : List Byte), s.slot n = some x → x.stage = .xferOut →
    x.got = [some (d, p)] → x.sent = [false] → x.src = [1] → x.orphan = false → s.resolve x.dla = .at q →
    s.noInjection = true → Answers (.readTransfer n 0 false) s fun t =>
      t.fld F.ORD_OVL_EV_GUARD_READ = 1 ∧ (t.slot n).map (fun y => (y.stage, y.got)) = some (.media, [none]) ∧
      t.host.sent = s.host.sent ∧ t.flow.clean.any (fun c => c.dla == x.dla) = false ∧
      t.flow.ops.length = s.flow.ops.length + 1) ∧
  (∀ (s : State) (o i d k : Nat), s.freeClaim = some i →
    s.fld F.ORD_CLAIM_DLA_LO_DLA_LO + 2 ^ 32 * s.fld F.ORD_CLAIM_DLA_HI_DLA_HI = d → s.fld F.ORD_CLAIM_DLA_HI_LEN_M1 + 1 = k →
    d / zoneSectors = (d + k - 1) / zoneSectors → Answers (.claimOpen o) s fun t =>
      t.fld F.ORD_CLAIM_STATUS_OPENED = i ∧ t.fld F.ORD_CLAIM_STATUS_OK = 1 ∧
      (t.claim i).map (fun c => (c.dla, c.count, c.owner, c.superseded)) = some (d, k, o, s.writesOver d k)) ∧
  (∀ (s : State) (o : Nat), s.freeClaim = none → Answers (.claimOpen o) s fun t =>
      t.fld F.ORD_CLAIM_STATUS_OK = 0 ∧ t.fld F.ORD_OVL_EV_CLAIM_REFUSED = 1 ∧
      OnlyChanged s t [R.ORD_CLAIM_STATUS, F.ORD_OVL_EV_CLAIM_REFUSED.addr] []) ∧
  (∀ (s : State) (i : Nat) (c : Claim), i < 64 → s.claim i = some c → Answers (.claimClose i) s fun t =>
      t.claim i = none ∧ t.fld F.ORD_CLAIM_STATUS_OK = 1 ∧ t.fld F.ORD_CLAIM_CMD_INDEX = i) ∧
  (∀ (s : State) (i : Nat), i < 64 → s.claim i = none → Answers (.claimClose i) s fun t =>
      t.flow.claims = s.flow.claims ∧ t.fld F.ORD_CLAIM_STATUS_OK = 0 ∧ t.fld F.ORD_OVL_EV_CLAIM_REFUSED = 1)

/-- SPDM (R390, R393 to R395): a connection is set up by its three requests in order, then digests, certificate,
challenge and measurements are answered from the chain and the blocks; what comes out of order, or is not supported,
is an error; requests wait while Tirium does not answer. That a portion of the chain is at most 4,088 bytes is the
model's reading (log 14). -/
def Obligations.SpdmExchanges : Prop :=
  (∀ (s : State) (k : Nat), k < 3 → k < s.tir.spdm.length → s.fld F.TIR_STATUS_STATE = 1 →
    Answers (.spdmGetVersion k) s fun t =>
      (t.spdmLink k).reply = some (.version) ∧ (t.spdmLink k).version = true ∧ (t.spdmLink k).capabilities = false ∧
      (t.spdmLink k).algorithms = false ∧ OnlyChanged s t [] [.tir]) ∧
  (∀ (s : State) (k : Nat), k < 3 → k < s.tir.spdm.length → s.fld F.TIR_STATUS_STATE = 1 → (s.spdmLink k).version = true →
    Answers (.spdmGetCapabilities k) s fun t =>
      (t.spdmLink k).reply = some (.capabilities) ∧ (t.spdmLink k).capabilities = true) ∧
  (∀ (s : State) (k : Nat), k < 3 → k < s.tir.spdm.length → s.fld F.TIR_STATUS_STATE = 1 → (s.spdmLink k).version = false →
    Answers (.spdmGetCapabilities k) s fun t =>
      (t.spdmLink k).reply = some (.error .unexpectedRequest) ∧ (t.spdmLink k).capabilities = (s.spdmLink k).capabilities) ∧
  (∀ (s : State) (k : Nat) (sm2 sm3 : Bool), k < 3 → k < s.tir.spdm.length → s.fld F.TIR_STATUS_STATE = 1 →
    (s.spdmLink k).capabilities = true → Answers (.spdmNegotiateAlgorithms k sm2 sm3) s fun t =>
      (t.spdmLink k).reply = some (if sm2 && sm3 then .algorithms else .error .negotiationFail) ∧
      (t.spdmLink k).algorithms = (sm2 && sm3 || (s.spdmLink k).algorithms)) ∧
  (∀ (s : State) (k : Nat), k < 3 → k < s.tir.spdm.length → s.fld F.TIR_STATUS_STATE = 1 →
    (s.spdmLink k).algorithms = true → Answers (.spdmGetDigests k) s fun t =>
      (t.spdmLink k).reply = some (.digests [(0, Config.sm3 s.chain)])) ∧
  (∀ (s : State) (k : Nat), k < 3 → k < s.tir.spdm.length → s.fld F.TIR_STATUS_STATE = 2 →
    (s.spdmLink k).waiting.length < 4 → Answers (.spdmGetDigests k) s fun t =>
      (t.spdmLink k).waiting = (s.spdmLink k).waiting ++ [.getDigests] ∧ (t.spdmLink k).reply = (s.spdmLink k).reply) ∧
  (∀ (s : State) (k : Nat), k < 3 → k < s.tir.spdm.length → s.fld F.TIR_STATUS_STATE = 2 →
    4 ≤ (s.spdmLink k).waiting.length → Answers (.spdmGetDigests k) s fun t =>
      (t.spdmLink k).waiting = (s.spdmLink k).waiting ∧ (t.spdmLink k).reply = some (.error .busy)) ∧
  (∀ (s : State) (k off n : Nat), k < 3 → k < s.tir.spdm.length → s.fld F.TIR_STATUS_STATE = 1 →
    (s.spdmLink k).algorithms = true → Answers (.spdmGetCertificate k 0 off n) s fun t =>
      (t.spdmLink k).reply = some (if s.chain.length ≤ off then .error .invalidRequest else .certificate (cutBytes s.chain
        off (min n (min (s.chain.length - off) 4088))) (s.chain.length - off - (cutBytes s.chain off (min n (min
        (s.chain.length - off) 4088))).length))) ∧
  (∀ (s : State) (k i off n : Nat), k < 3 → k < s.tir.spdm.length → s.fld F.TIR_STATUS_STATE = 1 →
    (s.spdmLink k).algorithms = true → i ≠ 0 → Answers (.spdmGetCertificate k i off n) s fun t =>
      (t.spdmLink k).reply = some (.error .invalidRequest)) ∧
  (∀ (s : State) (k : Nat) (l : List Byte), k < 3 → k < s.tir.spdm.length → s.fld F.TIR_STATUS_STATE = 1 →
    (s.spdmLink k).algorithms = true → Answers (.spdmChallenge k 0 l) s fun t =>
      ∃ n g, (t.spdmLink k).reply = some (.challengeAuth (Config.sm3 s.chain) n (Config.sm3 (s.blocksOf ((List.range 10).map
        (· + 1)))) g)) ∧
  (∀ (s : State) (k i : Nat) (l : List Byte), k < 3 → k < s.tir.spdm.length → s.fld F.TIR_STATUS_STATE = 1 →
    (s.spdmLink k).algorithms = true → 1 ≤ i → i ≤ 10 → Answers (.spdmGetMeasurements k i false l) s fun t =>
      ∃ n, (t.spdmLink k).reply = some (.measurements [(i, s.block i)] n [])) ∧
  (∀ (s : State) (k i : Nat) (b : Bool) (l : List Byte), k < 3 → k < s.tir.spdm.length → s.fld F.TIR_STATUS_STATE = 1 →
    (s.spdmLink k).algorithms = true → (i = 0 ∨ 10 < i) → i ≠ 0xFF → Answers (.spdmGetMeasurements k i b l) s fun t =>
      (t.spdmLink k).reply = some (.error .invalidRequest)) ∧
  (∀ (s : State) (k w : Nat), k < 3 → k < s.tir.spdm.length → s.fld F.TIR_STATUS_STATE = 1 →
    (s.spdmLink k).algorithms = true → Answers (.spdmRespondIfReady k w) s fun t =>
      (t.spdmLink k).reply = some (.error .unexpectedRequest)) ∧
  (∀ (s : State) (k c : Nat), k < 3 → k < s.tir.spdm.length → s.fld F.TIR_STATUS_STATE = 1 →
    [0x81, 0x82, 0x83, 0x84, 0xE0, 0xE1, 0xE3, 0xFF].contains c = false → Answers (.spdmUnsupported k c) s fun t =>
      (t.spdmLink k).reply = some (.error .unsupportedRequest))

/-- The mailboxes of Tirium (R389, R391, R396, R397, R405): a command ends with its result and its response; images,
measurements, media keys and random bytes; a command whose tag was the last one is answered again; one given while
Tirium does not answer stays BUSY. -/
def Obligations.TiriumKeysAndImages : Prop :=
  (∀ (s : State) (n tag : Nat) (addr c b : Nat), n < 4 → tag < 2 ^ 23 → s.tir.last.length = 5 →
    s.fld F.TIR_STATUS_STATE = 1 → s.fld (F.TIR_MBX_STATUS_BUSY n) = 0 →
    (s.tir.last.getD n none).all (fun d => d.tag != tag) = true → leField (memBytes addr 512 s.dram) 8 4 = b →
    512 + b ≤ 256 * 2 ^ 20 → Answers (.verifyImage n tag addr c) s fun t =>
      t.fld (F.TIR_MBX_STATUS_DONE n) = 1 ∧ t.fld (F.TIR_MBX_STATUS_BUSY n) = 0 ∧
      t.fld (F.TIR_MBX_STATUS_RESULT n) = (s.fuse.checkImage c (memBytes addr (512 + b) s.dram)).1 ∧
      ((s.fuse.checkImage c (memBytes addr (512 + b) s.dram)).1 = 0 → t.tir.verified.contains (c, (s.fuse.checkImage c
        (memBytes addr (512 + b) s.dram)).2.2) = true) ∧
      ((s.fuse.checkImage c (memBytes addr (512 + b) s.dram)).1 ≠ 0 → t.tir.verified = s.tir.verified)) ∧
  (∀ (s : State) (n tag : Nat) (c : Nat) (d : Digest), n < 4 → tag < 2 ^ 23 → s.tir.last.length = 5 →
    s.fld F.TIR_STATUS_STATE = 1 → s.fld (F.TIR_MBX_STATUS_BUSY n) = 0 →
    (s.tir.last.getD n none).all (fun d => d.tag != tag) = true → 2 ≤ c → c ≤ 4 → s.tir.verified.contains (c, d) = true →
    s.tir.blocks.length = 8 → Answers (.commitMeasurement n tag c d) s fun t =>
      t.fld (F.TIR_MBX_STATUS_DONE n) = 1 ∧ t.fld (F.TIR_MBX_STATUS_BUSY n) = 0 ∧ t.fld (F.TIR_MBX_STATUS_RESULT n) = 0 ∧
      t.tir.blocks.getD c 0 = d ∧ (∀ j < 8, j ≠ c → t.tir.blocks.getD j 0 = s.tir.blocks.getD j 0)) ∧
  (∀ (s : State) (n tag : Nat) (c : Nat) (d : Digest), n < 4 → tag < 2 ^ 23 → s.tir.last.length = 5 →
    s.fld F.TIR_STATUS_STATE = 1 → s.fld (F.TIR_MBX_STATUS_BUSY n) = 0 →
    (s.tir.last.getD n none).all (fun d => d.tag != tag) = true → s.tir.verified.contains (c, d) = false →
    Answers (.commitMeasurement n tag c d) s fun t =>
      t.fld (F.TIR_MBX_STATUS_DONE n) = 1 ∧ t.fld (F.TIR_MBX_STATUS_BUSY n) = 0 ∧ t.fld (F.TIR_MBX_STATUS_RESULT n) = 2 ∧
      t.tir.blocks = s.tir.blocks) ∧
  (∀ (s : State) (n tag : Nat) (k ns z g : Nat) (y : Digest), n < 4 → tag < 2 ^ 23 → s.tir.last.length = 5 →
    s.fld F.TIR_STATUS_STATE = 1 → s.fld (F.TIR_MBX_STATUS_BUSY n) = 0 →
    (s.tir.last.getD n none).all (fun d => d.tag != tag) = true → s.hasCipher = true → k < 112 → s.cip.slots.length = 128 →
    (s.keySlot k).test = false → (s.keySlot k).draining = false → s.cipherMode ns ≠ 0 → s.isKpio ns = false →
    kget ns s.tir.unwrapped = some y → Answers (.loadKey n tag k ns z g none) s fun t =>
      t.fld (F.TIR_MBX_STATUS_DONE n) = 1 ∧ t.fld (F.TIR_MBX_STATUS_BUSY n) = 0 ∧ t.fld (F.TIR_MBX_STATUS_RESULT n) = 0 ∧
      (t.keySlot k).bank.map (fun b => (b.nsid, b.zone, b.generation, b.keyTag)) = some (ns, z, g, none) ∧
      (t.keySlot k).current = 1 - (s.keySlot k).current) ∧
  (∀ (s : State) (n tag : Nat) (k ns z g : Nat) (kt : Option Nat), n < 4 → tag < 2 ^ 23 → s.tir.last.length = 5 →
    s.fld F.TIR_STATUS_STATE = 1 → s.fld (F.TIR_MBX_STATUS_BUSY n) = 0 →
    (s.tir.last.getD n none).all (fun d => d.tag != tag) = true → s.hasCipher = true → 112 ≤ k →
    Answers (.loadKey n tag k ns z g kt) s fun t =>
      t.fld (F.TIR_MBX_STATUS_DONE n) = 1 ∧ t.fld (F.TIR_MBX_STATUS_BUSY n) = 0 ∧ t.fld (F.TIR_MBX_STATUS_RESULT n) = 2 ∧
      t.cip = s.cip) ∧
  (∀ (s : State) (n tag : Nat) (k ns z g kt : Nat), n < 4 → tag < 2 ^ 23 → s.tir.last.length = 5 →
    s.fld F.TIR_STATUS_STATE = 1 → s.fld (F.TIR_MBX_STATUS_BUSY n) = 0 →
    (s.tir.last.getD n none).all (fun d => d.tag != tag) = true → s.hasCipher = true → k < 112 → (s.keySlot k).test = false →
    s.cipherMode ns ≠ 0 → s.isKpio ns = true → s.injectedKey ns kt = none →
    Answers (.loadKey n tag k ns z g (some kt)) s fun t =>
      t.fld (F.TIR_MBX_STATUS_DONE n) = 1 ∧ t.fld (F.TIR_MBX_STATUS_BUSY n) = 0 ∧ t.fld (F.TIR_MBX_STATUS_RESULT n) = 8 ∧
      t.cip = s.cip) ∧
  (∀ (s : State) (n tag : Nat) (ns : Nat), n < 4 → tag < 2 ^ 23 → s.tir.last.length = 5 → s.fld F.TIR_STATUS_STATE = 1 →
    s.fld (F.TIR_MBX_STATUS_BUSY n) = 0 → (s.tir.last.getD n none).all (fun d => d.tag != tag) = true → s.hasCipher = true →
    s.cipherMode ns ≠ 0 → Answers (.nsKeyNew n tag ns) s fun t =>
      t.fld (F.TIR_MBX_STATUS_DONE n) = 1 ∧ t.fld (F.TIR_MBX_STATUS_BUSY n) = 0 ∧ t.fld (F.TIR_MBX_STATUS_RESULT n) = 0 ∧
      (kget ns t.tir.unwrapped).isSome = true ∧ t.tir.keyRecords.any (fun r => r.nsid == ns) = true ∧
      t.tir.keyCache.all (fun e => e.nsid != ns) = true ∧ t.tir.trngUsed = s.tir.trngUsed + 48) ∧
  (∀ (s : State) (n tag : Nat) (ns : Nat), n < 4 → tag < 2 ^ 23 → s.tir.last.length = 5 → s.fld F.TIR_STATUS_STATE = 1 →
    s.fld (F.TIR_MBX_STATUS_BUSY n) = 0 → (s.tir.last.getD n none).all (fun d => d.tag != tag) = true → s.hasCipher = false →
    Answers (.nsKeyNew n tag ns) s fun t =>
      t.fld (F.TIR_MBX_STATUS_DONE n) = 1 ∧ t.fld (F.TIR_MBX_STATUS_BUSY n) = 0 ∧ t.fld (F.TIR_MBX_STATUS_RESULT n) = 4 ∧
      t.tir.keyRecords = s.tir.keyRecords) ∧
  (∀ (s : State) (n tag : Nat) (ns kt : Nat) (d : Digest), n < 4 → tag < 2 ^ 23 → s.tir.last.length = 5 →
    s.fld F.TIR_STATUS_STATE = 1 → s.fld (F.TIR_MBX_STATUS_BUSY n) = 0 →
    (s.tir.last.getD n none).all (fun d => d.tag != tag) = true → s.hasCipher = true → s.cipherMode ns ≠ 0 →
    s.isKpio ns = true → kt < 1024 → Answers (.kpio n tag [(ns, kt, some d)]) s fun t =>
      t.fld (F.TIR_MBX_STATUS_DONE n) = 1 ∧ t.fld (F.TIR_MBX_STATUS_BUSY n) = 0 ∧ t.fld (F.TIR_MBX_STATUS_RESULT n) = 0 ∧
      s.injectedKey ns kt = none → t.injectedKey ns kt = some d) ∧
  (∀ (s : State) (n tag : Nat) (ns kt : Nat) (o : Option Digest), n < 4 → tag < 2 ^ 23 → s.tir.last.length = 5 →
    s.fld F.TIR_STATUS_STATE = 1 → s.fld (F.TIR_MBX_STATUS_BUSY n) = 0 →
    (s.tir.last.getD n none).all (fun d => d.tag != tag) = true → s.hasCipher = true → (s.isKpio ns = false ∨ 1024 ≤ kt) →
    Answers (.kpio n tag [(ns, kt, o)]) s fun t =>
      t.fld (F.TIR_MBX_STATUS_DONE n) = 1 ∧ t.fld (F.TIR_MBX_STATUS_BUSY n) = 0 ∧ t.fld (F.TIR_MBX_STATUS_RESULT n) = 2 ∧
      t.tir.injected = s.tir.injected) ∧
  (∀ (s : State) (n tag : Nat) (c : Nat), n < 4 → tag < 2 ^ 23 → s.tir.last.length = 5 → s.fld F.TIR_STATUS_STATE = 1 →
    s.fld (F.TIR_MBX_STATUS_BUSY n) = 0 → (s.tir.last.getD n none).all (fun d => d.tag != tag) = true → 1 ≤ c → c ≤ 32 →
    Answers (.random n tag c) s fun t =>
      t.fld (F.TIR_MBX_STATUS_DONE n) = 1 ∧ t.fld (F.TIR_MBX_STATUS_BUSY n) = 0 ∧ t.fld (F.TIR_MBX_STATUS_RESULT n) = 0 ∧
      t.tir.trngUsed = s.tir.trngUsed + c ∧
      t.reg (R.TIR_MBX_RESP n 0) = BitVec.ofNat 32 (leField ((List.range c).map fun i => Config.trng (s.tir.trngUsed + i)) 0
        4)) ∧
  (∀ (s : State) (n tag : Nat) (c : Nat), n < 4 → tag < 2 ^ 23 → s.tir.last.length = 5 → s.fld F.TIR_STATUS_STATE = 1 →
    s.fld (F.TIR_MBX_STATUS_BUSY n) = 0 → (s.tir.last.getD n none).all (fun d => d.tag != tag) = true → (c = 0 ∨ 32 < c) →
    Answers (.random n tag c) s fun t =>
      t.fld (F.TIR_MBX_STATUS_DONE n) = 1 ∧ t.fld (F.TIR_MBX_STATUS_BUSY n) = 0 ∧ t.fld (F.TIR_MBX_STATUS_RESULT n) = 2 ∧
      t.tir.trngUsed = s.tir.trngUsed) ∧
  (∀ (s : State) (n tag : Nat) (c r : Nat) (l : List Word), n < 4 → tag < 2 ^ 23 → s.tir.last.length = 5 →
    s.fld F.TIR_STATUS_STATE = 1 → s.fld (F.TIR_MBX_STATUS_BUSY n) = 0 → s.tir.last.getD n none = some ⟨tag, r, l⟩ → r < 256 →
    Answers (.random n tag c) s fun t =>
      t.fld (F.TIR_MBX_STATUS_DONE n) = 1 ∧ t.fld (F.TIR_MBX_STATUS_BUSY n) = 0 ∧ t.fld (F.TIR_MBX_STATUS_RESULT n) = r ∧
      t.tir.trngUsed = s.tir.trngUsed) ∧
  (∀ (s : State) (n tag : Nat) (c : Nat), n < 4 → tag < 2 ^ 23 → s.fld F.TIR_STATUS_STATE = 2 →
    s.fld (F.TIR_MBX_STATUS_BUSY n) = 0 → Answers (.random n tag c) s fun t =>
      t.fld (F.TIR_MBX_STATUS_BUSY n) = 1 ∧ t.fld (F.TIR_MBX_CMD_OPCODE n) = 6 ∧ t.fld (F.TIR_MBX_CMD_TAG n) = tag ∧
      OnlyChanged s t [R.TIR_MBX_CMD n, R.TIR_MBX_STATUS n] []) ∧
  (∀ (s : State) (n tag : Nat) (op : Nat), n < 4 → tag < 2 ^ 23 → s.tir.last.length = 5 → s.fld F.TIR_STATUS_STATE = 1 →
    s.fld (F.TIR_MBX_STATUS_BUSY n) = 0 → (s.tir.last.getD n none).all (fun d => d.tag != tag) = true → (op = 0 ∨ 12 < op) →
    op < 256 → Answers (.tirUnknownOpcode n tag op) s fun t =>
      t.fld (F.TIR_MBX_STATUS_DONE n) = 1 ∧ t.fld (F.TIR_MBX_STATUS_BUSY n) = 0 ∧ t.fld (F.TIR_MBX_STATUS_RESULT n) = 1 ∧
      t.fld (F.TIR_MBX_CMD_OPCODE n) = op)

/-- Challenges, grants, the fuses and the tamper alarm (R385 to R387, R400 to R403): a challenge is given and used up
by its response, which grants its scopes or counts a failure; grants are revoked; versions, provisioning and the
identity are fused once; the alarm takes keys and grants, and its clearing restores the identity. -/
def Obligations.TiriumAuthorityAndFuses : Prop :=
  (∀ (s : State) (n tag : Nat) (sc : Nat), n < 4 → tag < 2 ^ 23 → s.tir.last.length = 5 → s.fld F.TIR_STATUS_STATE = 1 →
    s.fld (F.TIR_MBX_STATUS_BUSY n) = 0 → (s.tir.last.getD n none).all (fun d => d.tag != tag) = true →
    s.tir.challenges.length = 5 → s.fld F.TIR_STATUS_LOCKOUT = 0 → 1 ≤ sc → sc ≤ 15 →
    Answers (.tirChallenge n tag sc) s fun t =>
      t.fld (F.TIR_MBX_STATUS_DONE n) = 1 ∧ t.fld (F.TIR_MBX_STATUS_BUSY n) = 0 ∧ t.fld (F.TIR_MBX_STATUS_RESULT n) = 0 ∧
      (t.tir.challenges.getD n none).map (·.scopes) = some sc ∧ t.tir.trngUsed = s.tir.trngUsed + 32) ∧
  (∀ (s : State) (n tag : Nat) (sc : Nat), n < 4 → tag < 2 ^ 23 → s.tir.last.length = 5 → s.fld F.TIR_STATUS_STATE = 1 →
    s.fld (F.TIR_MBX_STATUS_BUSY n) = 0 → (s.tir.last.getD n none).all (fun d => d.tag != tag) = true →
    s.fld F.TIR_STATUS_LOCKOUT = 1 → Answers (.tirChallenge n tag sc) s fun t =>
      t.fld (F.TIR_MBX_STATUS_DONE n) = 1 ∧ t.fld (F.TIR_MBX_STATUS_BUSY n) = 0 ∧ t.fld (F.TIR_MBX_STATUS_RESULT n) = 5 ∧
      t.tir.challenges = s.tir.challenges) ∧
  (∀ (s : State) (n tag : Nat) (key sig : List Byte) (c : Challenge), n < 4 → tag < 2 ^ 23 → s.tir.last.length = 5 →
    s.fld F.TIR_STATUS_STATE = 1 → s.fld (F.TIR_MBX_STATUS_BUSY n) = 0 →
    (s.tir.last.getD n none).all (fun d => d.tag != tag) = true → s.tir.challenges.length = 5 →
    s.tir.challenges.getD n none = some c → c.scopes < 8 → Answers (.tirResponse n tag key sig) s fun t =>
      t.fld (F.TIR_MBX_STATUS_DONE n) = 1 ∧ t.fld (F.TIR_MBX_STATUS_BUSY n) = 0 ∧
      t.fld (F.TIR_MBX_STATUS_RESULT n) = (if (s.fuse.authority c.scopes key && Config.sm2Verify key sig (Config.sm3
        c.bytes)) then 0 else 0x30) ∧ t.tir.challenges.getD n none = none ∧
      t.fld F.TIR_STATUS_GRANTS = (if (s.fuse.authority c.scopes key && Config.sm2Verify key sig (Config.sm3 c.bytes)) then
        s.grants ||| c.scopes else s.grants) ∧
      ((s.fuse.authority c.scopes key && Config.sm2Verify key sig (Config.sm3 c.bytes)) = true → t.fld F.TIR_ALARM_AUTH_FAILS
        = 0) ∧
      ((s.fuse.authority c.scopes key && Config.sm2Verify key sig (Config.sm3 c.bytes)) = false → t.fld
        F.TIR_ALARM_AUTH_FAILS = min (s.fld F.TIR_ALARM_AUTH_FAILS + 1) 255)) ∧
  (∀ (s : State) (n tag : Nat) (key sig : List Byte), n < 4 → tag < 2 ^ 23 → s.tir.last.length = 5 →
    s.fld F.TIR_STATUS_STATE = 1 → s.fld (F.TIR_MBX_STATUS_BUSY n) = 0 →
    (s.tir.last.getD n none).all (fun d => d.tag != tag) = true → s.tir.challenges.getD n none = none →
    Answers (.tirResponse n tag key sig) s fun t =>
      t.fld (F.TIR_MBX_STATUS_DONE n) = 1 ∧ t.fld (F.TIR_MBX_STATUS_BUSY n) = 0 ∧ t.fld (F.TIR_MBX_STATUS_RESULT n) = 0x31 ∧
      t.grants = s.grants) ∧
  (∀ (s : State) (n tag : Nat) (sc : Nat), n < 4 → tag < 2 ^ 23 → s.tir.last.length = 5 → s.fld F.TIR_STATUS_STATE = 1 →
    s.fld (F.TIR_MBX_STATUS_BUSY n) = 0 → (s.tir.last.getD n none).all (fun d => d.tag != tag) = true → sc < 16 →
    Answers (.revoke n tag sc) s fun t =>
      t.fld (F.TIR_MBX_STATUS_DONE n) = 1 ∧ t.fld (F.TIR_MBX_STATUS_BUSY n) = 0 ∧ t.fld (F.TIR_MBX_STATUS_RESULT n) = 0 ∧
      t.fld F.TIR_STATUS_GRANTS = s.fld F.TIR_STATUS_GRANTS &&& (15 - sc) ∧
      t.fld F.DBG_STATUS_GRANTS = s.fld F.TIR_STATUS_GRANTS &&& (15 - sc)) ∧
  (∀ (s : State) (n tag : Nat) (c v : Nat), n < 4 → tag < 2 ^ 23 → s.tir.last.length = 5 → s.fld F.TIR_STATUS_STATE = 1 →
    s.fld (F.TIR_MBX_STATUS_BUSY n) = 0 → (s.tir.last.getD n none).all (fun d => d.tag != tag) = true → 1 ≤ c → c ≤ 5 →
    s.fuse.svnBanks.length = 5 → s.fuse.svn (c - 1) < v → v < 2 ^ 64 → (s.fuse.svnBanks.getD (c - 1) []).length < 32 →
    Answers (.svnAdvance n tag c v) s fun t =>
      t.fld (F.TIR_MBX_STATUS_DONE n) = 1 ∧ t.fld (F.TIR_MBX_STATUS_BUSY n) = 0 ∧ t.fld (F.TIR_MBX_STATUS_RESULT n) = 0 ∧
      t.fuse.svn (c - 1) = v ∧ t.reg (R.TIR_MBX_RESP n 0) = BitVec.ofNat 32 (31 - (s.fuse.svnBanks.getD (c - 1) []).length)) ∧
  (∀ (s : State) (n tag : Nat) (c v : Nat), n < 4 → tag < 2 ^ 23 → s.tir.last.length = 5 → s.fld F.TIR_STATUS_STATE = 1 →
    s.fld (F.TIR_MBX_STATUS_BUSY n) = 0 → (s.tir.last.getD n none).all (fun d => d.tag != tag) = true → 1 ≤ c → c ≤ 5 →
    s.fuse.svn (c - 1) < v → v < 2 ^ 64 → 32 ≤ (s.fuse.svnBanks.getD (c - 1) []).length →
    Answers (.svnAdvance n tag c v) s fun t =>
      t.fld (F.TIR_MBX_STATUS_DONE n) = 1 ∧ t.fld (F.TIR_MBX_STATUS_BUSY n) = 0 ∧ t.fld (F.TIR_MBX_STATUS_RESULT n) = 0x32 ∧
      t.fuse = s.fuse) ∧
  (∀ (s : State) (n tag : Nat) (c v : Nat), n < 4 → tag < 2 ^ 23 → s.tir.last.length = 5 → s.fld F.TIR_STATUS_STATE = 1 →
    s.fld (F.TIR_MBX_STATUS_BUSY n) = 0 → (s.tir.last.getD n none).all (fun d => d.tag != tag) = true →
    v ≤ s.fuse.svn (c - 1) → Answers (.svnAdvance n tag c v) s fun t =>
      t.fld (F.TIR_MBX_STATUS_DONE n) = 1 ∧ t.fld (F.TIR_MBX_STATUS_BUSY n) = 0 ∧ t.fld (F.TIR_MBX_STATUS_RESULT n) = 2 ∧
      t.fuse = s.fuse) ∧
  (∀ (s : State) (n tag : Nat) (a b c : Digest), n < 4 → tag < 2 ^ 23 → s.tir.last.length = 5 →
    s.fld F.TIR_STATUS_STATE = 1 → s.fld (F.TIR_MBX_STATUS_BUSY n) = 0 →
    (s.tir.last.getD n none).all (fun d => d.tag != tag) = true → s.fuse.isSealed = false → s.fuse.partlyFused = false →
    Answers (.provision n tag a b c true) s fun t =>
      t.fld (F.TIR_MBX_STATUS_DONE n) = 1 ∧ t.fld (F.TIR_MBX_STATUS_BUSY n) = 0 ∧ t.fld (F.TIR_MBX_STATUS_RESULT n) = 0 ∧
      t.fuse = { s.fuse with makerKeyHash := a, patternKeyHash := b, debugKeyHash := c, isSealed := true } ∧
      t.fld F.TIR_STATUS_SEALED = 1) ∧
  (∀ (s : State) (n tag : Nat) (a b c : Digest), n < 4 → tag < 2 ^ 23 → s.tir.last.length = 5 →
    s.fld F.TIR_STATUS_STATE = 1 → s.fld (F.TIR_MBX_STATUS_BUSY n) = 0 →
    (s.tir.last.getD n none).all (fun d => d.tag != tag) = true → s.fuse.isSealed = false → s.fuse.partlyFused = false →
    Answers (.provision n tag a b c false) s fun t =>
      t.fld (F.TIR_MBX_STATUS_DONE n) = 1 ∧ t.fld (F.TIR_MBX_STATUS_BUSY n) = 0 ∧ t.fld (F.TIR_MBX_STATUS_RESULT n) = 7 ∧
      t.fuse.isSealed = false ∧ t.fuse.partlyFused = true ∧ t.fld F.TIR_STATUS_SEALED = s.fld F.TIR_STATUS_SEALED) ∧
  (∀ (s : State) (n tag : Nat) (a b c : Digest) (r : Bool), n < 4 → tag < 2 ^ 23 → s.tir.last.length = 5 →
    s.fld F.TIR_STATUS_STATE = 1 → s.fld (F.TIR_MBX_STATUS_BUSY n) = 0 →
    (s.tir.last.getD n none).all (fun d => d.tag != tag) = true → s.fuse.isSealed = true →
    Answers (.provision n tag a b c r) s fun t =>
      t.fld (F.TIR_MBX_STATUS_DONE n) = 1 ∧ t.fld (F.TIR_MBX_STATUS_BUSY n) = 0 ∧ t.fld (F.TIR_MBX_STATUS_RESULT n) = 3 ∧
      t.fuse = s.fuse) ∧
  (∀ (s : State) (n tag : Nat), n < 4 → tag < 2 ^ 23 → s.tir.last.length = 5 → s.fld F.TIR_STATUS_STATE = 1 →
    s.fld (F.TIR_MBX_STATUS_BUSY n) = 0 → (s.tir.last.getD n none).all (fun d => d.tag != tag) = true →
    s.fuse.identityWrap = none → Answers (.genIdentity n tag) s fun t =>
      t.fld (F.TIR_MBX_STATUS_DONE n) = 1 ∧ t.fld (F.TIR_MBX_STATUS_BUSY n) = 0 ∧ t.fld (F.TIR_MBX_STATUS_RESULT n) = 0 ∧
      t.fuse.identityWrap.isSome = true ∧ t.tir.identity.isSome = true ∧ t.tir.trngUsed = s.tir.trngUsed + 32) ∧
  (∀ (s : State) (n tag : Nat) (w : Digest × Digest), n < 4 → tag < 2 ^ 23 → s.tir.last.length = 5 →
    s.fld F.TIR_STATUS_STATE = 1 → s.fld (F.TIR_MBX_STATUS_BUSY n) = 0 →
    (s.tir.last.getD n none).all (fun d => d.tag != tag) = true → s.fuse.identityWrap = some w →
    Answers (.genIdentity n tag) s fun t =>
      t.fld (F.TIR_MBX_STATUS_DONE n) = 1 ∧ t.fld (F.TIR_MBX_STATUS_BUSY n) = 0 ∧ t.fld (F.TIR_MBX_STATUS_RESULT n) = 3 ∧
      t.fuse = s.fuse ∧ t.tir.identity = s.tir.identity) ∧
  (∀ (s : State) (n : Nat), n < 5 → Answers (.challengeExpiry n) s fun t =>
      t.tir.challenges.getD n none = none ∧ OnlyChanged s t [] [.tir]) ∧
  (∀ (s : State) (c : Nat), 0 < c → c < 32 → s.keeper.halted = false → s.keeper.powered = true → s.hasCipher = true →
    s.fld F.TIR_ALARM_COUNT < 15 → s.fld F.TIR_STATUS_STATE = 1 → s.fld F.CIP_STATUS_STATE ≠ 4 →
    Answers (.tamperAlarm c) s fun t =>
      t.fld F.TIR_ALARM_CAUSE = s.fld F.TIR_ALARM_CAUSE ||| c ∧ t.fld F.TIR_ALARM_COUNT = s.fld F.TIR_ALARM_COUNT + 1 ∧
      t.fld F.TIR_STATUS_STATE = 2 ∧ t.fld F.TIR_STATUS_GRANTS = 0 ∧ t.fld F.CIP_STATUS_STATE = 4 ∧
      t.cip.heldState = s.fld F.CIP_STATUS_STATE ∧ t.tir.identity = none ∧ t.tir.keyCache = [] ∧ t.tir.injected = [] ∧
      t.tir.unwrapped = [] ∧ t.tir.aliasD = none) ∧
  (∀ (s : State) (c : Nat), 0 < c → c < 32 → s.keeper.halted = false → s.keeper.powered = true →
    15 ≤ s.fld F.TIR_ALARM_COUNT → Answers (.tamperAlarm c) s fun t =>
      t.fld F.TIR_STATUS_STATE = 3 ∧ t.fld F.TIR_STATUS_GRANTS = 0) ∧
  (∀ (s : State), s.fld F.TIR_STATUS_STATE = 2 → s.fld F.CIP_STATUS_STATE = 4 → s.cip.heldState < 8 →
    Answers (.alarmClear) s fun t =>
      t.fld F.TIR_STATUS_STATE = 1 ∧ t.tir.identity = s.fuse.identity ∧ t.tir.aliasD.isSome = true ∧
      (∀ k < 3, (t.spdmLink k).waiting = []) ∧ t.fld F.CIP_STATUS_STATE = s.cip.heldState) ∧
  (∀ (s : State), s.fld F.TIR_STATUS_STATE = 3 → Answers (.alarmClear) s fun t =>
      t = s)

/-- The sideband (R292 to R294): other MCTP types are dropped and counted; the endpoint identifier is set; the block
read and the NVMe-MI commands are answered; a supported admin command for a PF controller takes a slot; Reset acts as
NSSR. The response statuses 3 and 4 (assumption log 13), and when the I3C bit changes (log 115), are the model's. -/
def Obligations.Sideband : Prop :=
  (∀ (s : State) (y : Nat), s.sidebandRuns = true → y ≠ 0 → y ≠ 4 → y ≠ 5 → Answers (.mctpMessage 0 y) s fun t =>
      t.fld F.HIF_SB_STATUS_I3C = 0 ∧ t.fld F.HIF_SB_STATUS_DROPPED = min (s.fld F.HIF_SB_STATUS_DROPPED + 1) 65535 ∧
      OnlyChanged s t [R.HIF_SB_STATUS] []) ∧
  (∀ (s : State) (y : Nat), s.sidebandRuns = true → s.fld F.SYS_BALL_FUNC_SIDEBAND_FN = 0 → (y = 0 ∨ y = 4 ∨ y = 5) →
    Answers (.mctpMessage 3 y) s fun t =>
      t.fld F.HIF_SB_STATUS_I3C = 1 ∧ t.fld F.HIF_SB_STATUS_DROPPED = s.fld F.HIF_SB_STATUS_DROPPED ∧
      OnlyChanged s t [R.HIF_SB_STATUS] []) ∧
  (∀ (s : State) (k y : Nat), (k = 1 ∨ k = 2) → s.mctpRuns = true → y ≠ 5 → Answers (.mctpMessage k y) s fun t =>
      t.fld F.HIF_SB_STATUS_DROPPED = min (s.fld F.HIF_SB_STATUS_DROPPED + 1) 65535 ∧
      t.fld F.HIF_SB_STATUS_I3C = s.fld F.HIF_SB_STATUS_I3C ∧ OnlyChanged s t [R.HIF_SB_STATUS] []) ∧
  (∀ (s : State) (k y : Nat), (2 < k ∧ k ≠ 3 ∨ s.mctpRuns = false ∧ s.sidebandRuns = false) →
    Answers (.mctpMessage k y) s fun t =>
      t = s) ∧
  (∀ (s : State) (e : Nat), s.sidebandRuns = true → e < 256 → Answers (.setEndpointId e) s fun t =>
      t.fld F.HIF_SB_STATUS_EID = e ∧ t.fld F.HIF_SB_STATUS_DROPPED = s.fld F.HIF_SB_STATUS_DROPPED ∧
      OnlyChanged s t [R.HIF_SB_STATUS] []) ∧
  (∀ (s : State), s.sidebandRuns = true → Answers (.nvmeMiBasic) s fun t =>
      t.host.sidebandReply.length = 8 ∧ t.host.sidebandReply.getD 2 0 = BitVec.ofNat 8 (255 - s.host.smart) ∧
      t.host.sidebandReply.getD 4 0 = BitVec.ofNat 8 s.percentUsed) ∧
  (∀ (s : State) (i : Nat), s.sidebandRuns = true → Answers (.nvmeMiCommand (.configGet i)) s fun t =>
      t.host.sidebandReply = 0 :: leBytes 4 (kgetD i s.host.miConfig 0) ∧ t.host.miConfig = s.host.miConfig) ∧
  (∀ (s : State) (i v : Nat), s.sidebandRuns = true → v < 2 ^ 32 → Answers (.nvmeMiCommand (.configSet i v)) s fun t =>
      t.host.sidebandReply = [0] ∧ kgetD i t.host.miConfig 0 = v ∧
      ∀ j < 256, j ≠ i → kgetD j t.host.miConfig 0 = kgetD j s.host.miConfig 0) ∧
  (∀ (s : State) (k : Nat), s.sidebandRuns = true → s.controller k = none →
    Answers (.nvmeMiCommand (.controllerHealth k)) s fun t =>
      t.host.sidebandReply = [4] ∧ t.draws = s.draws) ∧
  (∀ (s : State) (q : Sqe) (k : Nat) (l : List Byte), s.sidebandRuns = true → (isPf k = false ∨ s.controller k = none) →
    Answers (.nvmeMiCommand (.admin q k l)) s fun t =>
      t.host.sidebandReply = [4] ∧ t.flow = s.flow) ∧
  (∀ (s : State) (q : Sqe) (k : Nat) (l : List Byte), s.sidebandRuns = true → isPf k = true →
    (s.controller k).isSome = true → [0x02, 0x06, 0x09, 0x0A, 0x10, 0x11].contains q.opcode = false →
    Answers (.nvmeMiCommand (.admin q k l)) s fun t =>
      t.host.sidebandReply = [3] ∧ t.flow = s.flow) ∧
  (∀ (s : State) (q : Sqe) (k : Nat) (l : List Byte), s.sidebandRuns = true → isPf k = true →
    (s.controller k).isSome = true → [0x02, 0x06, 0x09, 0x0A, 0x10, 0x11].contains q.opcode = true →
    (s.poolFor k false).isSome = true → Answers (.nvmeMiCommand (.admin q k l)) s fun t =>
      ((t.slot s.freeNumber).map fun x => (x.sqe, x.skein, x.sideband, x.data)) = some (q, k, true, [l]) ∧
      t.flow.slots.length = s.flow.slots.length + 1 ∧ t.host.sidebandReply = []) ∧
  (∀ (s : State), s.sidebandRuns = true → s.hostResets = true → s.record.atReset = false → Answers (.miReset) s fun t =>
      (∀ p < 2, t.fld (F.HIF_PORT_STATUS_LINK_UP p) = 0) ∧ ∀ x ∈ t.host.controllers, x.enabled = false) ∧
  (∀ (s : State), s.sidebandRuns = false → Answers (.miReset) s fun t =>
      t = s)

/-- The Darning unit (R346 to R349, R352, R353, R356, R359, R360, R365): a failed sector joins or starts a ladder run;
a step recovers it, moves on or loses it; the scrub reads its priority list first; a zone is rewritten and its list
kept; a Lifeline block is retired. -/
def Obligations.LadderScrubRewrite : Prop :=
  (∀ (s : State) (a i : Nat) (f : FailedSector), s.startable a = some f →
    s.darn.runs.find? (fun r => r.psa == f.psa) = none → f.claim = some i → a < 2 → Answers (.ladderRunStart a) s fun t =>
      (t.darn.runs.drop s.darn.runs.length).map (fun r => (r.id, r.act, r.psa, r.dla, r.claim)) = [(s.darn.nextRun, a, f.psa,
        f.dla, some i)] ∧ t.darn.runs.take s.darn.runs.length = s.darn.runs ∧ t.darn.nextRun = s.darn.nextRun + 1 ∧
      t.darn.failed = s.darn.failed.filter (fun g => !(g.op == f.op && g.index == f.index))) ∧
  (∀ (s : State) (a : Nat) (f : FailedSector) (r : LadderRun), s.startable a = some f →
    s.darn.runs.find? (fun r => r.psa == f.psa) = some r → Answers (.ladderRunStart a) s fun t =>
      t.darn.runs.length = s.darn.runs.length ∧ t.darn.nextRun = s.darn.nextRun ∧
      t.darn.failed = s.darn.failed.filter (fun g => !(g.op == f.op && g.index == f.index)) ∧
      t.darn.runs.any (fun q => q.id == r.id && q.joined == r.joined ++ (if f.darning then [] else [(f.op, f.index,
        s.limitedOp f.op)])) = true) ∧
  (∀ (s : State) (a : Nat), s.startable a = none → Answers (.ladderRunStart a) s fun t =>
      t = s) ∧
  (∀ (s : State) (n : Nat) (r : LadderRun) (x : MediaSector), s.darn.runs.find? (fun q => q.id == n) = some r → 1 ≤ r.step →
    r.step ≤ 7 → s.recoveredSector r = some x → r.joined = [] → Answers (.ladderStepDone n true) s fun t =>
      t.darn.runs = s.darn.runs.filter (fun q => q.id != n) ∧
      t.fld (F.DRN_STEP_RECOVERED r.step) = min (s.fld (F.DRN_STEP_RECOVERED r.step) + 1) 4294967295 ∧
      t.fld F.DRN_UNRECOVERED_COUNT = s.fld F.DRN_UNRECOVERED_COUNT) ∧
  (∀ (s : State) (n k : Nat) (r : LadderRun), s.darn.runs.find? (fun q => q.id == n) = some r → r.step ≠ 3 →
    s.nextStep r r.step = k → k ≠ 8 → Answers (.ladderStepDone n false) s fun t =>
      t.darn.runs.any (fun q => q.id == n && q.step == k) = true ∧ t.darn.runs.length = s.darn.runs.length) ∧
  (∀ (s : State) (n : Nat) (r : LadderRun), s.darn.runs.find? (fun q => q.id == n) = some r → r.step ≠ 3 →
    s.nextStep r r.step = 8 → r.joined = [] → Answers (.ladderStepDone n false) s fun t =>
      t.darn.runs = s.darn.runs.filter (fun q => q.id != n) ∧
      t.fld F.DRN_UNRECOVERED_COUNT = min (s.fld F.DRN_UNRECOVERED_COUNT + 1) 4294967295 ∧ t.fld F.DRN_EV_UNRECOVERED = 1) ∧
  (∀ (s : State) (n : Nat) (b : Bool), s.darn.runs.find? (fun q => q.id == n) = none →
    Answers (.ladderStepDone n b) s fun t =>
      t = s) ∧
  (∀ (s : State) (a d p : Nat), s.fld F.DRN_CTRL_SCRUB_EN = 1 → s.hasAct a = true →
    s.fld F.ORD_LEDGER_STATUS_WRITE_HOLD = 0 → s.fld (F.ACT_STATUS_LOAD_STATE a) = 2 → (s.actZoneRange a).2 ≠ 0 →
    s.flow.ops.any (fun o => o.act == a && o.purpose == .scrub) = false →
    (s.flow.claims.filter fun c => c.owner == 6).length < 40 → s.freeClaim.isSome = true → s.darn.priority = [d] →
    s.resolve d = .at p → psaAct p = a → Answers (.scrubOperation a) s fun t =>
      t.darn.priority = [] ∧ t.fld F.DRN_STATUS_SCRUB_BUSY = 1 ∧
      t.flow.ops.any (fun o => o.act == a && o.purpose == .scrub && o.places == [p] && o.dlas == [d] && o.claim ==
        s.freeClaim) = true) ∧
  (∀ (s : State) (a : Nat),
    (s.fld F.DRN_CTRL_SCRUB_EN = 0 ∨ s.fld F.ORD_LEDGER_STATUS_WRITE_HOLD = 1 ∨ s.fld (F.ACT_STATUS_LOAD_STATE a) ≠ 2) →
    Answers (.scrubOperation a) s fun t =>
      t = s) ∧
  (∀ (s : State) (z : Nat), z < 2 ^ 19 → s.rewriteRefusal z ≠ 0 → Answers (.drnRewriteGo z) s fun t =>
      t.fld F.DRN_REWRITE_STATUS_ERR = s.rewriteRefusal z ∧ t.darn = s.darn ∧
      OnlyChanged s t [R.DRN_REWRITE, R.DRN_REWRITE_STATUS] []) ∧
  (∀ (s : State) (z : Nat), z < 2 ^ 19 → s.rewriteRefusal z = 0 → s.fld F.ORD_LEDGER_STATUS_WRITE_HOLD = 0 →
    (s.zdesc z).gen ≠ 0xFFFFFFFF → s.stitch.held = [] → s.stitch.rebuilding = [] → s.journalFull = false →
    Answers (.drnRewriteGo z) s fun t =>
      t.darn.rewrite = some ⟨z, (s.zdesc z).gen, 2, (s.zdesc z).state⟩ ∧ t.fld F.DRN_REWRITE_STATUS_BUSY = 1 ∧
      t.fld F.DRN_REWRITE_STATUS_ZONE = z ∧ t.fld F.DRN_REWRITE_STATUS_ERR = 0) ∧
  (∀ (s : State) (z : Nat), z < 2 ^ 19 → s.rewriteRefusal z = 0 → s.fld F.ORD_LEDGER_STATUS_WRITE_HOLD = 1 →
    Answers (.drnRewriteGo z) s fun t =>
      t.darn.required.getLast? = some z ∧ t.darn.rewrite = s.darn.rewrite ∧ OnlyChanged s t [R.DRN_REWRITE] [.darn]) ∧
  (∀ (s : State) (z : Nat), z < 2 ^ 19 → s.rewriteRefusal z = 0 → s.fld F.ORD_LEDGER_STATUS_WRITE_HOLD = 0 →
    (s.zdesc z).gen = 0xFFFFFFFF → s.stitch.held = [] → s.stitch.rebuilding = [] → s.journalFull = false →
    Answers (.drnRewriteGo z) s fun t =>
      (t.zdesc z).state = .offline ∧ t.darn = s.darn ∧ t.host.changedZones.contains z = true) ∧
  (∀ (s : State), s.darn.due.length ≤ 64 → Answers (.drnDuePop) s fun t =>
      t.darn.due = s.darn.due.drop 1 ∧ t.fld F.DRN_DUE_DEPTH = s.darn.due.length - 1 ∧
      t.fld F.DRN_DUE_ZONE = (s.darn.due.drop 1).headD 0 % 2 ^ 19 ∧ OnlyChanged s t [R.DRN_DUE] [.darn]) ∧
  (∀ (s : State) (r : Rewrite) (sh : ZoneShape), s.darn.rewrite = some r → s.zoneShape r.zone = some sh →
    s.darn.required = [] → Answers (.rewriteDone) s fun t =>
      t.darn.rewrite = none ∧ t.fld F.DRN_REWRITE_STATUS_BUSY = 0 ∧ t.fld F.DRN_REWRITE_STATUS_DONE = 1 ∧
      t.fld F.DRN_EV_REWRITE_DONE = 1 ∧ t.stitch.snapshots.all (fun y => y.1 != r.zone) = true) ∧
  (∀ (s : State), s.darn.rewrite = none → Answers (.rewriteDone) s fun t =>
      t = s) ∧
  (∀ (s : State), Answers (.lifelineBlockFail .saveArea) s fun t =>
      t.darn.blocksRetired = s.darn.blocksRetired + 1 ∧
      t.darn.saveBlocksLost = (if s.sparesLeft = 0 then s.darn.saveBlocksLost + 1 else s.darn.saveBlocksLost) ∧
      t.fld F.ORD_DUR_STATUS_SAVE_MIB = (4096 - t.darn.saveBlocksLost) / 4) ∧
  (∀ (s : State) (c k : Nat), Answers (.lifelineBlockFail (.firmwareSlot c k)) s fun t =>
      t.darn.blocksRetired = s.darn.blocksRetired + 1 ∧
      t.upd.images = s.upd.images.filter (fun i => !(i.1 == c && i.2.1 == k)) ∧ t.record.seq = s.record.seq + 1) ∧
  (∀ (s : State) (i : Nat), Answers (.lifelineBlockFail (.recorderArea i)) s fun t =>
      t.darn.blocksRetired = s.darn.blocksRetired + 1 ∧
      t.recorder.fallback = s.recorder.fallback.filter (fun e => !(decide (i ≤ e.index) && decide (e.index < i + 4096))))

/-- Memory protection (R370, R373, R375, R376, R378 to R381): the scrub counts and writes back what it corrects, remaps
a granule at HARD_CE, and starts a page decode; a decode mends the page within 2e + f of 16, or the page is retired;
repairs are posted oldest first; SRAM errors are counted and end what they strike. -/
def Obligations.MemoryProtection : Prop :=
  (∀ (s : State) (d p g : Nat) (h : PageHolds), s.fld F.MEM_CTRL_SCRUB_EN = 1 → d < 2 → p < 2 ^ 20 → s.regionOf d p ≠ 0 →
    s.prot.quarantined.contains (p, d) = false → s.prot.retired.contains (p, d) = false →
    s.prot.decoding.any (fun e => e.1 == p && e.2.1 == d) = false →
    s.correctedOf (64 * p + g % 64) d + 1 < s.fld F.MEM_THRESH_HARD_CE →
    Answers (.memoryScrubRead d p [g] [] true h) s fun t =>
      t.fld (F.MEM_ERR_WORD_CE d) = min (s.fld (F.MEM_ERR_WORD_CE d) + 1) 65535 ∧
      t.correctedOf (64 * p + g % 64) d = s.correctedOf (64 * p + g % 64) d + 1 ∧ t.fld F.MEM_STATUS_SCRUB_PAGE = p ∧
      t.fld F.MEM_STATUS_SCRUB_DIE = d ∧ t.fld F.MEM_LAST_ERR_HI_KIND = 0 ∧ t.prot.remap = s.prot.remap ∧
      t.prot.decoding = s.prot.decoding) ∧
  (∀ (s : State) (d p g : Nat) (h : PageHolds), s.fld F.MEM_CTRL_SCRUB_EN = 1 → d < 2 → p < 2 ^ 20 → s.regionOf d p ≠ 0 →
    s.prot.quarantined.contains (p, d) = false → s.prot.retired.contains (p, d) = false →
    s.prot.decoding.any (fun e => e.1 == p && e.2.1 == d) = false →
    s.fld F.MEM_THRESH_HARD_CE ≤ s.correctedOf (64 * p + g % 64) d + 1 → s.prot.remap.contains (64 * p + g % 64, d) = false →
    s.prot.remap.length < 64 → Answers (.memoryScrubRead d p [g] [] true h) s fun t =>
      t.prot.remap = s.prot.remap ++ [(64 * p + g % 64, d)] ∧ t.fld F.MEM_REMAP_STATUS_USED = s.prot.remap.length + 1 ∧
      t.fld F.MEM_EV_REMAPPED = 1) ∧
  (∀ (s : State) (d p g : Nat) (h : PageHolds), s.fld F.MEM_CTRL_SCRUB_EN = 1 → d < 2 → p < 2 ^ 20 → s.regionOf d p ≠ 0 →
    s.prot.quarantined.contains (p, d) = false → s.prot.retired.contains (p, d) = false →
    s.prot.decoding.any (fun e => e.1 == p && e.2.1 == d) = false →
    s.fld F.MEM_THRESH_HARD_CE ≤ s.correctedOf (64 * p + g % 64) d + 1 → s.prot.remap.contains (64 * p + g % 64, d) = false →
    64 ≤ s.prot.remap.length → bufferRegion (s.regionOf d p) = true → Answers (.memoryScrubRead d p [g] [] true h) s fun t =>
      t.prot.remap = s.prot.remap ∧ t.fld F.MEM_STATUS_REMAP_FULL = 1 ∧ t.prot.repairs = s.prot.repairs ++ [⟨d, p, h, true⟩]) ∧
  (∀ (s : State) (d p g : Nat) (h : PageHolds), s.fld F.MEM_CTRL_SCRUB_EN = 1 → d < 2 → p < 2 ^ 20 → s.regionOf d p ≠ 0 →
    s.prot.quarantined.contains (p, d) = false → s.prot.retired.contains (p, d) = false →
    s.prot.decoding.any (fun e => e.1 == p && e.2.1 == d) = false → s.prot.writtenBack.contains (64 * p + g % 64, d) = false →
    Answers (.memoryScrubRead d p [] [g] true h) s fun t =>
      t.fld (F.MEM_ERR_WORD_UE d) = min (s.fld (F.MEM_ERR_WORD_UE d) + 1) 65535 ∧
      t.prot.decoding = s.prot.decoding ++ [(p, d, [g])] ∧ t.fld F.MEM_STATUS_SCRUB_BUSY = 1 ∧
      t.fld F.MEM_LAST_ERR_HI_KIND = 1 ∧ t.fld F.MEM_EV_WORD_UE = 1 ∧ t.prot.remap = s.prot.remap) ∧
  (∀ (s : State) (d p : Nat) (l m : List Nat) (b : Bool) (h : PageHolds),
    (s.fld F.MEM_CTRL_SCRUB_EN = 0 ∨ s.regionOf d p = 0) → Answers (.memoryScrubRead d p l m b h) s fun t =>
      t = s) ∧
  (∀ (s : State) (d p n : Nat) (h : PageHolds) (e : Nat × Nat × List Nat),
    s.prot.decoding.find? (fun x => x.1 == p && x.2.1 == d) = some e → d < 2 → 2 * n + 4 * e.2.2.length ≤ 16 →
    s.prot.fixedOnce.contains (p, d) = false → Answers (.pageDecodeDone d p n h) s fun t =>
      t.fld (F.MEM_PAGE_PAGE_FIXED d) = min (s.fld (F.MEM_PAGE_PAGE_FIXED d) + 1) 65535 ∧
      t.prot.fixedOnce = s.prot.fixedOnce ++ [(p, d)] ∧
      t.prot.writtenBack = s.prot.writtenBack ++ e.2.2.map (fun g => (64 * p + g % 64, d)) ∧
      t.fld F.MEM_LAST_ERR_HI_KIND = 2 ∧ t.prot.repairs = s.prot.repairs ∧ t.prot.retired = s.prot.retired ∧
      t.prot.decoding.any (fun x => x.1 == p && x.2.1 == d) = false) ∧
  (∀ (s : State) (d p n : Nat) (h : PageHolds) (e : Nat × Nat × List Nat),
    s.prot.decoding.find? (fun x => x.1 == p && x.2.1 == d) = some e → d < 2 → 2 * n + 4 * e.2.2.length ≤ 16 →
    s.prot.fixedOnce.contains (p, d) = true → bufferRegion (s.regionOf d p) = true →
    Answers (.pageDecodeDone d p n h) s fun t =>
      t.prot.repairs = s.prot.repairs ++ [⟨d, p, h, true⟩]) ∧
  (∀ (s : State) (d p n : Nat) (h : PageHolds) (e : Nat × Nat × List Nat),
    s.prot.decoding.find? (fun x => x.1 == p && x.2.1 == d) = some e → d < 2 → 16 < 2 * n + 4 * e.2.2.length →
    bufferRegion (s.regionOf d p) = true → Answers (.pageDecodeDone d p n h) s fun t =>
      t.fld (F.MEM_PAGE_PAGE_UE d) = min (s.fld (F.MEM_PAGE_PAGE_UE d) + 1) 65535 ∧
      t.prot.repairs = s.prot.repairs ++ [⟨d, p, h, false⟩] ∧ t.fld F.MEM_LAST_ERR_HI_KIND = 3 ∧ t.fld F.MEM_EV_PAGE_UE = 1 ∧
      t.prot.writtenBack = s.prot.writtenBack) ∧
  (∀ (s : State) (d p n k : Nat) (e : Nat × Nat × List Nat),
    s.prot.decoding.find? (fun x => x.1 == p && x.2.1 == d) = some e → d < 2 → 16 < 2 * n + 4 * e.2.2.length →
    bufferRegion (s.regionOf d p) = false → (s.prot.retired.filter fun r => r.2 == d).length < 1024 →
    Answers (.pageDecodeDone d p n (.leaf k)) s fun t =>
      t.prot.retired = s.prot.retired ++ [(p, d)] ∧ t.stitch.rebuilding.contains k = true ∧ t.fld F.DRN_EV_UNCOVERED = 1 ∧
      t.prot.repairs = s.prot.repairs) ∧
  (∀ (s : State) (d p n : Nat) (h : PageHolds), s.prot.decoding.find? (fun x => x.1 == p && x.2.1 == d) = none →
    Answers (.pageDecodeDone d p n h) s fun t =>
      t = s) ∧
  (∀ (s : State) (d p : Nat) (b : Bool) (l : List PageRepair), s.prot.repairs = ⟨d, p, .free, b⟩ :: l →
    s.avail Class.free ≠ 0 → Answers (.repairPost) s fun t =>
      t.prot.repairs = l ∧ t.prot.quarantined = s.prot.quarantined ++ [(p, d)] ∧ t.fld F.MEM_EV_RETIRED = 1) ∧
  (∀ (s : State) (d p y : Nat) (b : Bool) (l : List PageRepair), s.prot.repairs = ⟨d, p, .clean y, b⟩ :: l →
    s.flow.clean.any (fun c => c.dla == y) = false → Answers (.repairPost) s fun t =>
      t.prot.repairs = l ∧ t.prot.quarantined = s.prot.quarantined ∧ t.fld F.MEM_EV_REPAIR_ABORT = 1 ∧ t.flow = s.flow) ∧
  (∀ (s : State), s.prot.repairs = [] → Answers (.repairPost) s fun t =>
      t = s) ∧
  (∀ (s : State) (n : Nat), n < 48 * 2 ^ 20 → Answers (.sramPatrol n true none) s fun t =>
      t.fld (F.SRM_ERR_CE) = min (s.fld (F.SRM_ERR_CE) + 1) 65535 ∧ t.fld F.SRM_EV_CE = 1 ∧
      t.fld F.SRM_ERR_UE = s.fld F.SRM_ERR_UE) ∧
  (∀ (s : State) (n k : Nat) (b : Bool), n < 48 * 2 ^ 20 → Answers (.sramPatrol n b (some (.stitchMap k))) s fun t =>
      t.fld (F.SRM_ERR_UE) = min (s.fld (F.SRM_ERR_UE) + 1) 65535 ∧ t.fld F.SRM_LAST_ERR_OFFSET = n ∧
      t.stitch.rebuilding.contains k = true) ∧
  (∀ (s : State) (n k : Nat) (b : Bool), n < 48 * 2 ^ 20 → k < 6 → s.pairs.length = 6 →
    Answers (.sramPatrol n b (some (.checkpoint k))) s fun t =>
      t.fld (F.SRM_ERR_UE) = min (s.fld (F.SRM_ERR_UE) + 1) 65535 ∧ (t.pair k).checkpoint = none ∧
      t.fld F.SRM_LAST_ERR_OFFSET = n) ∧
  (∀ (s : State) (n : Nat) (b : Bool) (c : Option SramContents), 48 * 2 ^ 20 ≤ n → Answers (.sramPatrol n b c) s fun t =>
      t = s)

/-- The cipher engine (R408, R409, R413, R415, R416, R418, R419, R427 to R429): it is enabled and tested, disabled and
drained; a core fault gives its sector back; key slots are loaded, drained and erased; the Hook memory is written in
OFF only; tokens are posted; firmware jobs run on TEST slots. -/
def Obligations.CipherEngine : Prop :=
  (∀ (s : State), s.hasCipher = true → s.fld F.CIP_STATUS_STATE = 0 → Answers (.cipherEnable) s fun t =>
      t.fld F.CIP_STATUS_STATE = 1 ∧ t.fld F.CIP_CTRL_ENABLE = 1 ∧ t.fld F.CIP_STATUS_KAT_FAIL = 0 ∧
      OnlyChanged s t [R.CIP_CTRL, R.CIP_STATUS] []) ∧
  (∀ (s : State), s.hasCipher = false → Answers (.cipherEnable) s fun t =>
      t = s) ∧
  (∀ (s : State) (n : Nat), s.fld F.CIP_STATUS_STATE = 1 →
    (List.range 4).any (fun c => !s.cip.faulted.testBit c && n.testBit c) = true → Answers (.katDone n) s fun t =>
      t.fld F.CIP_STATUS_STATE = 2 ∧ ∀ c < 4, t.coreOk c = (!s.cip.faulted.testBit c && n.testBit c) ∧
      t.cip.faulted.testBit c = (s.cip.faulted.testBit c || !n.testBit c)) ∧
  (∀ (s : State) (n : Nat), s.fld F.CIP_STATUS_STATE = 1 →
    (List.range 4).any (fun c => !s.cip.faulted.testBit c && n.testBit c) = false → Answers (.katDone n) s fun t =>
      t.fld F.CIP_STATUS_STATE = 0 ∧ t.fld F.CIP_CTRL_ENABLE = 0 ∧ t.fld F.CIP_STATUS_KAT_FAIL = 1 ∧
      t.fld F.CIP_EV_KAT_FAIL = 1 ∧ t.cip = s.cip) ∧
  (∀ (s : State), s.fld F.CIP_STATUS_STATE = 2 → Answers (.cipherDisable) s fun t =>
      t.fld F.CIP_STATUS_STATE = 3 ∧ t.fld F.CIP_CTRL_ENABLE = 0) ∧
  (∀ (s : State) (w : CipherWork), s.fld F.CIP_STATUS_STATE = 2 → s.cip.queue = [w] → w.op = 0 → s.cip.threads.length = 4 →
    s.cip.threads.all (fun x => x.work.isNone) = true → Answers (.cipherDisable) s fun t =>
      t.cip.queue = [] ∧ t.cip.jobResult = some 1) ∧
  (∀ (s : State), s.fld F.CIP_STATUS_STATE = 1 → Answers (.cipherDisable) s fun t =>
      t.fld F.CIP_STATUS_STATE = 0 ∧ t.fld F.CIP_CTRL_ENABLE = 0 ∧ OnlyChanged s t [R.CIP_CTRL, R.CIP_STATUS] []) ∧
  (∀ (s : State), s.fld F.CIP_STATUS_STATE = 3 → s.cip.cores.all (·.isEmpty) = true →
    s.cip.threads.all (fun x => x.work.isNone) = true → Answers (.cipherDrained) s fun t =>
      t.fld F.CIP_STATUS_STATE = 0 ∧ t.fld F.CIP_EV_DRAINED = 1 ∧ OnlyChanged s t [R.CIP_STATUS, R.CIP_EVENTS] []) ∧
  (∀ (s : State), s.fld F.CIP_STATUS_STATE ≠ 3 → Answers (.cipherDrained) s fun t =>
      t = s) ∧
  (∀ (s : State) (c : Nat) (w : CipherWork), s.coreOk c = true → s.cip.cores.length = 4 → s.cip.threads.length = 4 →
    (s.thread c).work = some w → Answers (.cipherCoreFault c) s fun t =>
      t.coreOk c = false ∧ t.fld F.CIP_EV_CORE_FAULT = 1 ∧ t.cip.faulted = s.cip.faulted ||| 2 ^ c ∧
      t.cip.cores.getD c [] = [] ∧ (t.thread c).work = none ∧ t.cip.queue = { w with avoid := c } :: s.cip.queue) ∧
  (∀ (s : State) (c : Nat), s.coreOk c = false → Answers (.cipherCoreFault c) s fun t =>
      t = s) ∧
  (∀ (s : State), s.hasCipher = true → s.cip.slots.length = 128 → Answers (.keySlotErase) s fun t =>
      (t.keySlot (s.fld F.CIP_SLOT_SEL_SLOT)).bank0 = none ∧ (t.keySlot (s.fld F.CIP_SLOT_SEL_SLOT)).bank1 = none ∧
      ∀ k < 128, k ≠ s.fld F.CIP_SLOT_SEL_SLOT → t.keySlot k = s.keySlot k) ∧
  (∀ (s : State), s.hasCipher = false → Answers (.keySlotErase) s fun t =>
      t = s) ∧
  (∀ (s : State) (k : Nat), s.cip.slots.length = 128 → k < 128 → (s.keySlot k).draining = true →
    s.livePins (s.keySlot k).pinnedOld = [] → Answers (.bankDrainEnd k) s fun t =>
      (t.keySlot k).draining = false ∧ (t.keySlot k).pinnedOld = [] ∧ (t.keySlot k).bank = (s.keySlot k).bank ∧
      (if (s.keySlot k).current = 0 then (t.keySlot k).bank1 else (t.keySlot k).bank0) = none ∧ OnlyChanged s t [] [.cip]) ∧
  (∀ (s : State) (k : Nat), (s.keySlot k).draining = false → Answers (.bankDrainEnd k) s fun t =>
      t = s) ∧
  (∀ (s : State) (a m k : Nat), s.hasCipher = true → s.cip.slots.length = 128 → k < 112 → (s.keySlot k).test = true →
    1 ≤ a → a ≤ 3 → m ≤ 3 → (s.keySlot k).draining = false → Answers (.testkeyLoad a m k) s fun t =>
      (t.keySlot k).bank.map (fun b => (b.alg, b.mode)) = some (a, m) ∧ (t.keySlot k).current = 1 - (s.keySlot k).current ∧
      t.cip.testKey = [] ∧ ∀ j < 128, j ≠ k → t.keySlot j = s.keySlot j) ∧
  (∀ (s : State) (a m k : Nat), s.hasCipher = true → (112 ≤ k ∨ (s.keySlot k).test = false) →
    Answers (.testkeyLoad a m k) s fun t =>
      t.fld F.CIP_EV_KEY_MISMATCH = 1 ∧ t.cip = s.cip ∧ OnlyChanged s t [R.CIP_EVENTS] []) ∧
  (∀ (s : State) (a m k : Nat), s.hasCipher = true → k < 112 → (s.keySlot k).test = true → 1 ≤ a → a ≤ 3 → m ≤ 3 →
    (s.keySlot k).draining = true → Answers (.testkeyLoad a m k) s fun t =>
      t = s) ∧
  (∀ (s : State) (k o : Nat), s.hasCipher = true → s.fld F.CIP_JOB_STATUS_BUSY = 0 → k < 112 → o < 2 →
    (s.keySlot k).test = true → s.fld F.CIP_STATUS_STATE = 2 → (s.keySlot k).bank.isSome = true →
    Answers (.cipherJob k o) s fun t =>
      t.fld F.CIP_JOB_STATUS_BUSY = 1 ∧ t.cip.queue.take s.cip.queue.length = s.cip.queue ∧
      (t.cip.queue.drop s.cip.queue.length).map (fun w => (w.op, w.slot, w.mode, w.blocks.length)) = [(0, k, 2 + o, s.fld
        F.CIP_JOB_LEN_BLOCKS)]) ∧
  (∀ (s : State) (k o : Nat), s.hasCipher = true → s.fld F.CIP_JOB_STATUS_BUSY = 0 → (s.keySlot k).test = false →
    Answers (.cipherJob k o) s fun t =>
      t.fld F.CIP_JOB_STATUS_DONE = 1 ∧ t.fld F.CIP_JOB_STATUS_RESULT = 2 ∧ t.cip = s.cip) ∧
  (∀ (s : State) (k o : Nat), s.hasCipher = true → s.fld F.CIP_JOB_STATUS_BUSY = 0 → k < 112 → (s.keySlot k).test = true →
    s.fld F.CIP_STATUS_STATE ≠ 2 → Answers (.cipherJob k o) s fun t =>
      t.fld F.CIP_JOB_STATUS_DONE = 1 ∧ t.fld F.CIP_JOB_STATUS_RESULT = 3 ∧ t.cip = s.cip) ∧
  (∀ (s : State) (r : Nat), s.fld F.CIP_JOB_STATUS_BUSY = 1 → s.cip.jobResult = some r → r < 4 →
    Answers (.cipherJobDone) s fun t =>
      t.fld F.CIP_JOB_STATUS_BUSY = 0 ∧ t.fld F.CIP_JOB_STATUS_DONE = 1 ∧ t.fld F.CIP_JOB_STATUS_RESULT = r ∧
      t.cip.jobResult = none ∧ t.cip.queue = s.cip.queue ∧ OnlyChanged s t [R.CIP_JOB_STATUS] [.cip]) ∧
  (∀ (s : State), s.cip.jobResult = none → Answers (.cipherJobDone) s fun t =>
      t = s) ∧
  (∀ (s : State) (c : Nat) (b : CoreBlock) (l : List CoreBlock), s.cip.cores.getD c [] = b :: l → s.cip.cores.length = 4 →
    s.cip.freed.length = 4 → s.cip.threads.length = 4 → c < 4 → b.thread < 4 → b.reg < 8 →
    (s.thread b.thread).regs.length = 8 → Answers (.blockReturn c) s fun t =>
      t.cip.cores.getD c [] = l ∧ (t.thread b.thread).v b.reg = some b.result ∧
      t.cip.freed.getD c 0 = s.cip.freed.getD c 0 + 1 ∧ (t.thread b.thread).pc = (s.thread b.thread).pc ∧
      OnlyChanged s t [] [.cip]) ∧
  (∀ (s : State) (c : Nat), s.cip.cores.getD c [] = [] → Answers (.blockReturn c) s fun t =>
      t = s) ∧
  (∀ (s : State), s.hasCipher = true → s.fld F.ROWT_STATUS_GUARD = 0 → s.flow.census.length = 23 → s.cip.taken.length = 4 →
    s.cip.freed.length = 4 → s.flow.held = [] →
    (∀ c : Nat, c < 4 → s.cip.taken.getD c 0 ≤ s.census (Class.tokenFree c) ∧ s.cip.freed.getD c 0 ≤ s.census
      (Class.tokenHeld c) + s.cip.taken.getD c 0) → Answers (.tokenPost) s fun t =>
      ∀ c < 4, t.cip.taken.getD c 0 = 0 ∧ t.cip.freed.getD c 0 = 0 ∧
      t.census (Class.tokenHeld c) = s.census (Class.tokenHeld c) + s.cip.taken.getD c 0 - s.cip.freed.getD c 0) ∧
  (∀ (s : State) (v : Word), s.hasCipher = true → s.fld F.CIP_STATUS_STATE = 0 → s.fld F.CIP_CTRL_HOOK_WE = 1 →
    s.cip.program.length = 1024 → Answers (.hookDataWrite v) s fun t =>
      t.cip.program.getD (s.fld F.CIP_HOOK_ADDR_ADDR) 0 = v ∧
      t.fld F.CIP_HOOK_ADDR_ADDR = (s.fld F.CIP_HOOK_ADDR_ADDR + 1) % 1024 ∧
      (∀ k < 1024, k ≠ s.fld F.CIP_HOOK_ADDR_ADDR → t.cip.program.getD k 0 = s.cip.program.getD k 0) ∧
      OnlyChanged s t [R.CIP_HOOK_ADDR, R.CIP_HOOK_CRC] [.cip]) ∧
  (∀ (s : State) (v : Word), s.hasCipher = true → s.fld F.CIP_STATUS_STATE ≠ 0 → Answers (.hookDataWrite v) s fun t =>
      t.fld F.CIP_EV_HOOK_WRITE_REFUSED = 1 ∧ OnlyChanged s t [R.CIP_EVENTS] []) ∧
  (∀ (s : State) (v : Word), s.hasCipher = true → s.fld F.CIP_STATUS_STATE = 0 → Answers (.hookBindWrite v) s fun t =>
      t.reg R.CIP_HOOK_BIND = v ∧ OnlyChanged s t [R.CIP_HOOK_BIND] []) ∧
  (∀ (s : State) (v : Word), s.hasCipher = true → s.fld F.CIP_STATUS_STATE ≠ 0 → Answers (.hookBindWrite v) s fun t =>
      t.fld F.CIP_EV_HOOK_WRITE_REFUSED = 1 ∧ OnlyChanged s t [R.CIP_EVENTS] [])

/-- The instructions of the Hook sequencer (R410 to R412, R418, R424): each takes its operands from registers that have
returned, writes its result and goes on; ENC and DEC give a block to the core; a word with another opcode gives the
sector back; an instruction whose register waits stalls. -/
def Obligations.HookSequencer : Prop :=
  (∀ (s : State) (n : Nat) (i : Word) (w : CipherWork) (b : BitVec 128) (l : List (BitVec 128)), n < 4 →
    s.cip.threads.length = 4 → (s.thread n).work = some w → s.cip.program.getD (s.thread n).pc 0 = i → hookOp i = 1 →
    ((s.thread n).v (hookD i)).isSome = true → hookImm i = 0 → (s.thread n).input = b :: l → Answers (.hookLdi n) s fun t =>
      t.thread n = ({ s.thread n with input := l }.put (hookD i) b) ∧ OnlyChanged s t [] [.cip]) ∧
  (∀ (s : State) (n : Nat) (i : Word) (w : CipherWork), n < 4 → s.cip.threads.length = 4 → (s.thread n).work = some w →
    s.cip.program.getD (s.thread n).pc 0 = i → hookOp i = 1 → ((s.thread n).v (hookD i)).isSome = true → hookImm i = 1 →
    Answers (.hookLdi n) s fun t =>
      t.thread n = (s.thread n).put (hookD i) (w.context) ∧ t.draws = s.draws ∧ OnlyChanged s t [] [.cip]) ∧
  (∀ (s : State) (n : Nat) (i : Word) (w : CipherWork), n < 4 → s.cip.threads.length = 4 → (s.thread n).work = some w →
    s.cip.program.getD (s.thread n).pc 0 = i → hookOp i = 1 → ((s.thread n).v (hookD i)).isSome = true → hookImm i = 4 →
    Answers (.hookLdi n) s fun t =>
      t.thread n = (s.thread n).put (hookD i) (w.tag) ∧ t.draws = s.draws ∧ OnlyChanged s t [] [.cip]) ∧
  (∀ (s : State) (n : Nat) (i : Word) (w : CipherWork), n < 4 → s.cip.threads.length = 4 → (s.thread n).work = some w →
    s.cip.program.getD (s.thread n).pc 0 = i → hookOp i = 1 → ((s.thread n).v (hookD i)).isSome = true → 5 < hookImm i →
    Answers (.hookLdi n) s fun t =>
      t.draws = s.draws + 1 ∧ ((t.thread n).v (hookD i)).isSome = true ∧ (t.thread n).pc = (s.thread n).advance.pc ∧
      OnlyChanged s t [] [.cip, .draws]) ∧
  (∀ (s : State) (n : Nat) (i : Word) (w : CipherWork) (a : BitVec 128) (k : Bank), n < 4 → s.cip.threads.length = 4 →
    (s.thread n).work = some w → s.cip.program.getD (s.thread n).pc 0 = i → hookOp i = 2 →
    ((s.thread n).v (hookD i)).isSome = true → (s.thread n).v (hookA i) = some a → s.fld F.ROWT_STATUS_GUARD = 0 →
    s.coreOk n = true → (s.cip.cores.getD n []).length < 64 → s.cip.cores.length = 4 → s.cip.taken.length = 4 →
    (s.keySlot w.slot).bankOf w.op = some k → Answers (.hookEnc n) s fun t =>
      t.cip.cores.getD n [] = s.cip.cores.getD n [] ++ [⟨n, hookD i, blockEncrypt k.alg (keyPart k.alg w.mode (hookImm i % 2)
        k.key) a⟩] ∧
      t.thread n = { s.thread n with regs := putAt (hookD i) .waiting (s.thread n).regs, begun := true }.advance ∧
      t.cip.taken.getD n 0 = s.cip.taken.getD n 0 + 1 ∧ OnlyChanged s t [] [.cip]) ∧
  (∀ (s : State) (n : Nat) (i : Word) (w : CipherWork) (a : BitVec 128) (k : Bank), n < 4 → s.cip.threads.length = 4 →
    (s.thread n).work = some w → s.cip.program.getD (s.thread n).pc 0 = i → hookOp i = 3 →
    ((s.thread n).v (hookD i)).isSome = true → (s.thread n).v (hookA i) = some a → s.fld F.ROWT_STATUS_GUARD = 0 →
    s.coreOk n = true → (s.cip.cores.getD n []).length < 64 → s.cip.cores.length = 4 → s.cip.taken.length = 4 →
    (s.keySlot w.slot).bankOf w.op = some k → Answers (.hookDec n) s fun t =>
      t.cip.cores.getD n [] = s.cip.cores.getD n [] ++ [⟨n, hookD i, blockDecrypt k.alg (keyPart k.alg w.mode (hookImm i % 2)
        k.key) a⟩] ∧
      t.thread n = { s.thread n with regs := putAt (hookD i) .waiting (s.thread n).regs, begun := true }.advance ∧
      t.cip.taken.getD n 0 = s.cip.taken.getD n 0 + 1 ∧ OnlyChanged s t [] [.cip]) ∧
  (∀ (s : State) (n : Nat) (i : Word) (w : CipherWork), n < 4 → s.cip.threads.length = 4 → (s.thread n).work = some w →
    s.cip.program.getD (s.thread n).pc 0 = i → hookOp i = 2 → s.fld F.ROWT_STATUS_GUARD = 1 → Answers (.hookEnc n) s fun t =>
      t = s) ∧
  (∀ (s : State) (n : Nat) (i : Word) (w : CipherWork) (a b : BitVec 128), n < 4 → s.cip.threads.length = 4 →
    (s.thread n).work = some w → s.cip.program.getD (s.thread n).pc 0 = i → hookOp i = 4 →
    ((s.thread n).v (hookD i)).isSome = true → (s.thread n).v (hookA i) = some a → (s.thread n).v (hookB i) = some b →
    Answers (.hookXor n) s fun t =>
      t.thread n = (s.thread n).put (hookD i) (a ^^^ b) ∧ OnlyChanged s t [] [.cip]) ∧
  (∀ (s : State) (n : Nat) (i : Word) (w : CipherWork), n < 4 → s.cip.threads.length = 4 → (s.thread n).work = some w →
    s.cip.program.getD (s.thread n).pc 0 = i → hookOp i = 4 → (s.thread n).v (hookA i) = none →
    Answers (.hookXor n) s fun t =>
      t = s) ∧
  (∀ (s : State) (n : Nat) (i : Word) (w : CipherWork) (a b : BitVec 128), n < 4 → s.cip.threads.length = 4 →
    (s.thread n).work = some w → s.cip.program.getD (s.thread n).pc 0 = i → hookOp i = 5 →
    ((s.thread n).v (hookD i)).isSome = true → (s.thread n).v (hookA i) = some a → (s.thread n).v (hookB i) = some b →
    hookImm i % 4 = 1 → Answers (.hookGmul n) s fun t =>
      t.thread n = (s.thread n).put (hookD i) (gmulXts a b) ∧ OnlyChanged s t [] [.cip]) ∧
  (∀ (s : State) (n : Nat) (i : Word) (w : CipherWork) (a b : BitVec 128), n < 4 → s.cip.threads.length = 4 →
    (s.thread n).work = some w → s.cip.program.getD (s.thread n).pc 0 = i → hookOp i = 5 →
    ((s.thread n).v (hookD i)).isSome = true → (s.thread n).v (hookA i) = some a → (s.thread n).v (hookB i) = some b →
    hookImm i % 2 = 0 → Answers (.hookGmul n) s fun t =>
      t.thread n = (s.thread n).put (hookD i) (gmulGcm a b) ∧ OnlyChanged s t [] [.cip]) ∧
  (∀ (s : State) (n : Nat) (i : Word) (w : CipherWork) (a : BitVec 128), n < 4 → s.cip.threads.length = 4 →
    (s.thread n).work = some w → s.cip.program.getD (s.thread n).pc 0 = i → hookOp i = 5 →
    ((s.thread n).v (hookD i)).isSome = true → (s.thread n).v (hookA i) = some a → hookImm i % 4 = 3 →
    Answers (.hookGmul n) s fun t =>
      t.thread n = (s.thread n).put (hookD i) (mulAlpha a) ∧ OnlyChanged s t [] [.cip]) ∧
  (∀ (s : State) (n : Nat) (i : Word) (w : CipherWork) (a : BitVec 128), n < 4 → s.cip.threads.length = 4 →
    (s.thread n).work = some w → s.cip.program.getD (s.thread n).pc 0 = i → hookOp i = 6 →
    ((s.thread n).v (hookD i)).isSome = true → (s.thread n).v (hookA i) = some a → Answers (.hookInc32 n) s fun t =>
      t.thread n = (s.thread n).put (hookD i) (inc32 a) ∧ OnlyChanged s t [] [.cip]) ∧
  (∀ (s : State) (n : Nat) (i : Word) (w : CipherWork), n < 4 → s.cip.threads.length = 4 → (s.thread n).work = some w →
    s.cip.program.getD (s.thread n).pc 0 = i → hookOp i = 7 → ((s.thread n).v (hookD i)).isSome = true →
    Answers (.hookLen n) s fun t =>
      t.thread n = (s.thread n).put (hookD i) (gcmLength) ∧ OnlyChanged s t [] [.cip]) ∧
  (∀ (s : State) (n : Nat) (i : Word) (w : CipherWork) (a : BitVec 128), n < 4 → s.cip.threads.length = 4 →
    (s.thread n).work = some w → s.cip.program.getD (s.thread n).pc 0 = i → hookOp i = 8 → (s.thread n).v (hookA i) = some a →
    s.cutRead w = none → Answers (.hookOut n) s fun t =>
      t.thread n = { s.thread n with output := (s.thread n).output ++ [a] }.advance ∧ OnlyChanged s t [] [.cip]) ∧
  (∀ (s : State) (n : Nat) (i : Word) (w : CipherWork) (a : BitVec 128), n < 4 → s.cip.threads.length = 4 →
    (s.thread n).work = some w → s.cip.program.getD (s.thread n).pc 0 = i → hookOp i = 9 → (s.thread n).v (hookA i) = some a →
    w.encrypt = true → Answers (.hookTag n) s fun t =>
      t.thread n = { s.thread n with authTag := some a }.advance ∧ OnlyChanged s t [] [.cip]) ∧
  (∀ (s : State) (n : Nat) (i : Word) (w : CipherWork) (a : BitVec 128), n < 4 → s.cip.threads.length = 4 →
    (s.thread n).work = some w → s.cip.program.getD (s.thread n).pc 0 = i → hookOp i = 9 → (s.thread n).v (hookA i) = some a →
    w.encrypt = false → Answers (.hookTag n) s fun t =>
      t.thread n = { s.thread n with verdict := some (decide (a = w.tag)) }.advance ∧
      t.fld F.CIP_COUNTS_TAG_FAILS = (if a = w.tag then s.fld F.CIP_COUNTS_TAG_FAILS else min (s.fld F.CIP_COUNTS_TAG_FAILS +
        1) 65535) ∧ (a ≠ w.tag → t.fld F.CIP_EV_TAG_FAIL = 1)) ∧
  (∀ (s : State) (n : Nat) (i : Word) (w : CipherWork), n < 4 → s.cip.threads.length = 4 → (s.thread n).work = some w →
    s.cip.program.getD (s.thread n).pc 0 = i → hookOp i = 10 → hookImm i ≠ 0 → (s.thread n).input ≠ [] →
    Answers (.hookLoop n) s fun t =>
      t.thread n =
        { s.thread n with pc := ((s.thread n).pc + 1) % 1024, loop := some (((s.thread n).pc + 1) % 1024, hookImm i, (s.thread n).input.length) }
        ∧ OnlyChanged s t [] [.cip]) ∧
  (∀ (s : State) (n : Nat) (i : Word) (w : CipherWork), n < 4 → s.cip.threads.length = 4 → (s.thread n).work = some w →
    s.cip.program.getD (s.thread n).pc 0 = i → hookOp i = 10 → (s.thread n).input = [] → Answers (.hookLoop n) s fun t =>
      t.thread n = { s.thread n with pc := ((s.thread n).pc + 1 + hookImm i) % 1024 } ∧ OnlyChanged s t [] [.cip]) ∧
  (∀ (s : State) (n : Nat) (i : Word) (w : CipherWork), n < 4 → s.cip.threads.length = 4 → (s.thread n).work = some w →
    s.cip.program.getD (s.thread n).pc 0 = i → hookOp i = 11 → w.op = 0 → w.mode = 2 → Answers (.hookEnd n) s fun t =>
      t.cip.jobResult = some 0 ∧ t.thread n = HookThread.reset ∧
      memBytes (16 * s.fld F.CIP_JOB_DST_DST) (16 * (s.thread n).output.length) t.dram = (s.thread n).output.flatMap (fun x
        => leBytes 16 x.toNat) ∧
      (∀ y, (y < 16 * s.fld F.CIP_JOB_DST_DST ∨ 16 * s.fld F.CIP_JOB_DST_DST + 16 * (s.thread n).output.length ≤ y) → memByte
        y t.dram = memByte y s.dram) ∧ OnlyChanged s t [] [.cip, .dram, .prot]) ∧
  (∀ (s : State) (n o : Nat) (i : Word) (w : CipherWork), n < 4 → s.cip.threads.length = 4 → (s.thread n).work = some w →
    s.cip.program.getD (s.thread n).pc 0 = i → hookOp i = o → (o = 0 ∨ 11 < o) → Answers (.hookIllegalOp n) s fun t =>
      t.fld F.CIP_EV_HOOK_FAULT = 1 ∧ t.cip.queue = { w with avoid := n } :: s.cip.queue ∧ t.thread n = HookThread.reset ∧
      OnlyChanged s t [R.CIP_EVENTS] [.cip])

/-- The calibrations of the Gauge (R431, R433 to R436): a run on a target that is present starts, withholding the picks
of its actuator; one on a target that is absent is refused with RESULT 3; at its end the corrections are written with
saturation and the result shown. -/
def Obligations.Calibrations : Prop :=
  (∀ (s : State) (i : Nat), s.fld F.GAU_STATUS_BUSY = 0 → s.calibAbsent 1 i 0 0 = false →
    Answers (.gauAdcOffset i) s fun t =>
      t.fld F.GAU_STATUS_BUSY = 1 ∧ t.fld F.GAU_STATUS_KIND = 1 ∧ t.fld F.GAU_CMD_KIND = 1 ∧
      t.gauge.running.map (fun c => (c.kind, c.slice, c.act, c.head)) = some (1, i, s.fld (F.SLC_STATUS_ACT i), 0) ∧
      OnlyChanged s t [R.GAU_CMD, R.GAU_STATUS] [.gauge] ∧ t.fld F.GAU_CMD_SLICE = i) ∧
  (∀ (s : State) (i : Nat), s.fld F.GAU_STATUS_BUSY = 0 → s.calibAbsent 2 i 0 0 = false → Answers (.gauAdcGain i) s fun t =>
      t.fld F.GAU_STATUS_BUSY = 1 ∧ t.fld F.GAU_STATUS_KIND = 2 ∧ t.fld F.GAU_CMD_KIND = 2 ∧
      t.gauge.running.map (fun c => (c.kind, c.slice, c.act, c.head)) = some (2, i, s.fld (F.SLC_STATUS_ACT i), 0) ∧
      OnlyChanged s t [R.GAU_CMD, R.GAU_STATUS] [.gauge] ∧ t.fld F.GAU_CMD_SLICE = i) ∧
  (∀ (s : State) (i : Nat), s.fld F.GAU_STATUS_BUSY = 0 → s.calibAbsent 3 i 0 0 = false → Answers (.gauAdcSkew i) s fun t =>
      t.fld F.GAU_STATUS_BUSY = 1 ∧ t.fld F.GAU_STATUS_KIND = 3 ∧ t.fld F.GAU_CMD_KIND = 3 ∧
      t.gauge.running.map (fun c => (c.kind, c.slice, c.act, c.head)) = some (3, i, s.fld (F.SLC_STATUS_ACT i), 0) ∧
      OnlyChanged s t [R.GAU_CMD, R.GAU_STATUS] [.gauge] ∧ t.fld F.GAU_CMD_SLICE = i) ∧
  (∀ (s : State) (i : Nat), s.fld F.GAU_STATUS_BUSY = 0 → i < 8 → s.calibAbsent 1 i 0 0 = true →
    Answers (.gauAdcOffset i) s fun t =>
      t.fld F.GAU_STATUS_DONE = 1 ∧ t.fld F.GAU_STATUS_RESULT = 3 ∧ t.fld F.GAU_STATUS_BUSY = 0 ∧ t.gauge = s.gauge) ∧
  (∀ (s : State) (i : Nat), s.fld F.GAU_STATUS_BUSY = 1 → Answers (.gauAdcOffset i) s fun t =>
      t = s) ∧
  (∀ (s : State) (a h : Nat), s.fld F.GAU_STATUS_BUSY = 0 → s.calibAbsent 4 0 a h = false →
    Answers (.gauReaderBias a h) s fun t =>
      t.fld F.GAU_STATUS_BUSY = 1 ∧ t.fld F.GAU_STATUS_KIND = 4 ∧ t.fld F.GAU_CMD_KIND = 4 ∧
      t.gauge.running.map (fun c => (c.kind, c.slice, c.act, c.head)) = some (4, 0, a, h) ∧
      OnlyChanged s t [R.GAU_CMD, R.GAU_STATUS] [.gauge] ∧ t.gauge.holdPicks = [a] ∧ t.fld F.GAU_STATUS_WAIT = 1) ∧
  (∀ (s : State) (a h : Nat), s.fld F.GAU_STATUS_BUSY = 0 → s.calibAbsent 5 0 a h = false →
    Answers (.gauTouchdown a h) s fun t =>
      t.fld F.GAU_STATUS_BUSY = 1 ∧ t.fld F.GAU_STATUS_KIND = 5 ∧ t.fld F.GAU_CMD_KIND = 5 ∧
      t.gauge.running.map (fun c => (c.kind, c.slice, c.act, c.head)) = some (5, 0, a, h) ∧
      OnlyChanged s t [R.GAU_CMD, R.GAU_STATUS] [.gauge] ∧ t.gauge.holdPicks = [a] ∧ t.fld F.GAU_STATUS_WAIT = 1) ∧
  (∀ (s : State) (a h : Nat), s.fld F.GAU_STATUS_BUSY = 0 → s.calibAbsent 6 0 a h = false →
    Answers (.gauAssist a h) s fun t =>
      t.fld F.GAU_STATUS_BUSY = 1 ∧ t.fld F.GAU_STATUS_KIND = 6 ∧ t.fld F.GAU_CMD_KIND = 6 ∧
      t.gauge.running.map (fun c => (c.kind, c.slice, c.act, c.head)) = some (6, 0, a, h) ∧
      OnlyChanged s t [R.GAU_CMD, R.GAU_STATUS] [.gauge] ∧ t.gauge.holdPicks = [a] ∧ t.fld F.GAU_STATUS_WAIT = 1) ∧
  (∀ (s : State) (a h : Nat), s.fld F.GAU_STATUS_BUSY = 0 → s.calibAbsent 5 0 a h = true →
    Answers (.gauTouchdown a h) s fun t =>
      t.fld F.GAU_STATUS_DONE = 1 ∧ t.fld F.GAU_STATUS_RESULT = 3 ∧ t.fld F.GAU_STATUS_BUSY = 0 ∧ t.gauge = s.gauge) ∧
  (∀ (s : State), s.fld F.GAU_STATUS_BUSY = 0 → Answers (.gauIsenseSpn) s fun t =>
      t.fld F.GAU_STATUS_BUSY = 1 ∧ t.fld F.GAU_STATUS_KIND = 7 ∧ t.fld F.GAU_CMD_KIND = 7 ∧
      t.gauge.running.map (fun c => (c.kind, c.slice, c.act, c.head)) = some (7, 0, 0, 0) ∧
      OnlyChanged s t [R.GAU_CMD, R.GAU_STATUS] [.gauge] ∧ t.gauge.holdPicks = []) ∧
  (∀ (s : State) (a : Nat), s.fld F.GAU_STATUS_BUSY = 0 → s.calibAbsent 8 0 a 0 = false →
    Answers (.gauIsenseVcm a) s fun t =>
      t.fld F.GAU_STATUS_BUSY = 1 ∧ t.fld F.GAU_STATUS_KIND = 8 ∧ t.fld F.GAU_CMD_KIND = 8 ∧
      t.gauge.running.map (fun c => (c.kind, c.slice, c.act, c.head)) = some (8, 0, a, 0) ∧
      OnlyChanged s t [R.GAU_CMD, R.GAU_STATUS] [.gauge] ∧ t.gauge.holdPicks = [a]) ∧
  (∀ (s : State), s.fld F.GAU_STATUS_BUSY = 0 → Answers (.gauTemp) s fun t =>
      t.fld F.GAU_STATUS_BUSY = 1 ∧ t.fld F.GAU_STATUS_KIND = 9 ∧ t.fld F.GAU_CMD_KIND = 9 ∧
      t.gauge.running.map (fun c => (c.kind, c.slice, c.act, c.head)) = some (9, 0, 0, 0) ∧
      OnlyChanged s t [R.GAU_CMD, R.GAU_STATUS] [.gauge] ∧ t.gauge.holdPicks = []) ∧
  (∀ (s : State) (c : Calibration), s.gauge.running = some c → c.waits = 2 → s.opsAt c.act .issued = [] →
    Answers (.gaugeTargetIdle) s fun t =>
      t.gauge.running = some { c with waits := 0 } ∧ t.fld F.GAU_STATUS_WAIT = 0) ∧
  (∀ (s : State) (c : Calibration), s.gauge.running = some c → c.waits ≠ 2 → Answers (.gaugeTargetIdle) s fun t =>
      t = s) ∧
  (∀ (s : State) (x : Int) (c : Calibration), s.gauge.running = some c → c.waits = 0 → c.kind = 1 → c.slice < 5 →
    Answers (.calibrationEnd [x]) s fun t =>
      t.fld (F.GAU_ADC_OFFSET c.slice) = ofSigned 8 (satTo 8 x) ∧
      t.fld F.GAU_STATUS_RESULT = (if overflows 8 x then 1 else 0) ∧
      (∀ j < 5, j ≠ c.slice → t.fld (F.GAU_ADC_OFFSET j) = s.fld (F.GAU_ADC_OFFSET j)) ∧ t.fld F.GAU_STATUS_BUSY = 0 ∧
      t.fld F.GAU_STATUS_DONE = 1 ∧ t.gauge.running = none ∧ t.gauge.holdPicks = []) ∧
  (∀ (s : State) (x y z : Int) (c : Calibration), s.gauge.running = some c → c.waits = 0 → c.kind = 9 →
    Answers (.calibrationEnd [x, y, z]) s fun t =>
      t.fld F.GAU_TEMP_MON0 = ofSigned 8 (satTo 8 x) ∧ t.fld F.GAU_TEMP_MON1 = ofSigned 8 (satTo 8 y) ∧
      t.fld F.GAU_TEMP_MON2 = ofSigned 8 (satTo 8 z) ∧
      t.fld F.GAU_STATUS_RESULT = (if overflows 8 x || overflows 8 y || overflows 8 z then 1 else 0) ∧
      t.fld F.GAU_STATUS_BUSY = 0 ∧ t.fld F.GAU_STATUS_DONE = 1 ∧ t.gauge.running = none ∧ t.gauge.holdPicks = []) ∧
  (∀ (s : State) (l : List Int) (k : Nat) (c : Calibration), s.gauge.running = some c → c.waits = 0 → c.kind = 5 →
    c.act < 2 → c.head < 10 → touchdownStep l = some k → s.fld F.GAU_CFG_RD_BACKOFF ≤ k * s.fld F.GAU_CFG_TD_STEP →
    s.fld F.GAU_CFG_WR_BACKOFF ≤ k * s.fld F.GAU_CFG_TD_STEP → k * s.fld F.GAU_CFG_TD_STEP < 1024 →
    Answers (.calibrationEnd l) s fun t =>
      t.fld (F.ACT_HEAD_HEAT_RD c.act c.head) = k * s.fld F.GAU_CFG_TD_STEP - s.fld F.GAU_CFG_RD_BACKOFF ∧
      t.fld (F.ACT_HEAD_HEAT_WR c.act c.head) = k * s.fld F.GAU_CFG_TD_STEP - s.fld F.GAU_CFG_WR_BACKOFF ∧
      t.fld F.GAU_STATUS_RESULT = 0 ∧ t.fld F.GAU_STATUS_BUSY = 0 ∧ t.fld F.GAU_STATUS_DONE = 1 ∧ t.gauge.running = none ∧
      t.gauge.holdPicks = []) ∧
  (∀ (s : State) (l : List Int), s.gauge.running = none → Answers (.calibrationEnd l) s fun t =>
      t = s)

/-- Firmware update (R445, R446, R448 to R450, R463, R464): pieces are kept, a session expires or is aborted, a Commit
checks the bundle and acts as its Commit Action says, the written images enter the record, and a tentative set is
confirmed after 72 hours or asked to be frogged. -/
def Obligations.UpdateSessions : Prop :=
  (∀ (s : State) (n : Nat) (x : Slot) (p : List Byte) (y : Session) (k : Nat), s.freshAdmin n 0x11 = some x →
    s.heard x = true → s.noInjection = true → x.fromPf = true → s.upd.session = some y → x.sqe.cdw10 = 1023 →
    x.sqe.cdw11 = 1024 * k → 1 ≤ k → 4096 * (k + 1) ≤ y.length → y.members.testBit x.source = true → p.length = 4096 →
    kget k y.units = none → Answers (.firmwareImageDownload n p) s fun t =>
      s.ended t x 0 0 = true ∧ (t.upd.session.bind fun z => kget k z.units) = some p ∧
      t.fld F.UPD_PIECES_KEPT = (y.units.length + 1) % 2 ^ 17 ∧
      t.upd.session.map (fun z => (z.digest, z.length, z.members, z.lastProgress)) = some (y.digest, y.length, y.members,
        s.optime)) ∧
  (∀ (s : State) (n : Nat) (x : Slot) (p : List Byte), s.freshAdmin n 0x11 = some x → s.heard x = true →
    s.noInjection = true → x.fromPf = true → x.sqe.cdw10 = 1023 → x.sqe.cdw11 % 1024 ≠ 0 →
    Answers (.firmwareImageDownload n p) s fun t =>
      s.ended t x 2 0 = true ∧ t.upd = s.upd) ∧
  (∀ (s : State) (n : Nat) (x : Slot) (p : List Byte) (k : Nat), s.freshAdmin n 0x11 = some x → s.heard x = true →
    s.noInjection = true → x.fromPf = true → s.upd.session = none → x.sqe.cdw10 = 1023 → x.sqe.cdw11 = 1024 * k → 1 ≤ k →
    Answers (.firmwareImageDownload n p) s fun t =>
      s.ended t x 0x0C 0 = true ∧ t.upd = s.upd) ∧
  (∀ (s : State) (n : Nat) (x : Slot) (y : Session), s.freshAdmin n 0x10 = some x → s.heard x = true →
    s.noInjection = true → x.sqe.cdw10 / 8 % 8 = 0 → s.commitStatus x = 0 → s.upd.session = some y →
    Answers (.commitVerifyWrite n) s fun t =>
      ((s.commitFault y false).isNone = true → t.upd.verifying = some ⟨some n, 0⟩ ∧ t.fld F.UPD_STATUS_SESSION = 4 ∧ (t.slot
        n).map (·.stage) = some .xferOut ∧ t.host.sent = s.host.sent) ∧
      (∀ f ∈ s.commitFault y false, s.ended t x 0x107 0 = true ∧ t.upd.verifying = none ∧ t.fld F.UPD_EV_VERIFY_FAIL = 1 ∧
        t.fld F.UPD_ERR_CODE = f.code % 256 ∧ t.fld F.UPD_ERR_COMPONENT = f.component % 8)) ∧
  (∀ (s : State) (n : Nat) (x : Slot) (y : Session), s.freshAdmin n 0x10 = some x → s.heard x = true →
    s.noInjection = true → x.sqe.cdw10 / 8 % 8 = 1 → s.commitStatus x = 0 → s.upd.session = some y →
    Answers (.commitActivateAtReset n) s fun t =>
      ((s.commitFault y false).isNone = true → t.upd.verifying = some ⟨some n, 1⟩ ∧ t.fld F.UPD_STATUS_SESSION = 4 ∧ (t.slot
        n).map (·.stage) = some .xferOut ∧ t.host.sent = s.host.sent) ∧
      (∀ f ∈ s.commitFault y false, s.ended t x 0x107 0 = true ∧ t.upd.verifying = none ∧ t.fld F.UPD_EV_VERIFY_FAIL = 1 ∧
        t.fld F.UPD_ERR_CODE = f.code % 256 ∧ t.fld F.UPD_ERR_COMPONENT = f.component % 8)) ∧
  (∀ (s : State) (n : Nat) (x : Slot) (y : Session), s.freshAdmin n 0x10 = some x → s.heard x = true →
    s.noInjection = true → x.sqe.cdw10 / 8 % 8 = 3 → s.commitStatus x = 0 → s.upd.session = some y →
    Answers (.commitActivateNow n) s fun t =>
      ((s.commitFault y true).isNone = true → t.upd.verifying = some ⟨some n, 3⟩ ∧ t.fld F.UPD_STATUS_SESSION = 4 ∧ (t.slot
        n).map (·.stage) = some .xferOut ∧ t.host.sent = s.host.sent) ∧
      (∀ f ∈ s.commitFault y true, s.ended t x 0x107 0 = true ∧ t.upd.verifying = none ∧ t.fld F.UPD_EV_VERIFY_FAIL = 1 ∧
        t.fld F.UPD_ERR_CODE = f.code % 256 ∧ t.fld F.UPD_ERR_COMPONENT = f.component % 8)) ∧
  (∀ (s : State) (n : Nat) (x : Slot), s.freshAdmin n 0x10 = some x → s.heard x = true → s.noInjection = true →
    x.sqe.cdw10 / 8 % 8 = 0 → s.commitStatus x ≠ 0 → Answers (.commitVerifyWrite n) s fun t =>
      s.ended t x (s.commitStatus x) 0 = true ∧ t.upd = s.upd) ∧
  (∀ (s : State) (n : Nat) (x : Slot), s.freshAdmin n 0x10 = some x → s.heard x = true → s.noInjection = true →
    x.sqe.cdw10 / 8 % 8 = 1 → s.commitStatus x = 0 → s.upd.session = none → s.pattern.active.topology.legacy = false →
    s.cast.recovery = false → Answers (.commitActivateAtReset n) s fun t =>
      s.ended t x 0 0 = true ∧ t.record.staged = true ∧ t.record.atReset = true ∧ t.record.stagedSet = s.record.stagedSet ∧
      t.fld F.UPD_STATUS_AT_RESET = 1) ∧
  (∀ (s : State) (n : Nat) (x : Slot), s.freshAdmin n 0x10 = some x → s.heard x = true → s.noInjection = true →
    x.sqe.cdw10 / 8 % 8 = 2 → s.commitStatus x = 0 → s.upd.session = none → s.pattern.active.topology.legacy = false →
    s.cast.recovery = false → Answers (.commitActivateStaged n) s fun t =>
      s.ended t x 0 0 = true ∧ t.record.staged = true ∧ t.record.atReset = true ∧ t.record.stagedSet = s.record.stagedSet ∧
      t.record.state = s.record.state) ∧
  (∀ (s : State) (n : Nat) (x : Slot), s.freshAdmin n 0x10 = some x → s.heard x = true → s.noInjection = true →
    x.sqe.cdw10 / 8 % 8 = 3 → s.commitStatus x = 0 → s.upd.session = none → s.pattern.active.topology.legacy = true →
    Answers (.commitActivateNow n) s fun t =>
      s.ended t x 0x10B 0 = true ∧ t.record.state = .tentative ∧ t.upd.activation = none) ∧
  (∀ (s : State) (n : Nat) (x : Slot) (e : SlotEntry), s.freshAdmin n 0x10 = some x → s.heard x = true →
    s.noInjection = true → x.sqe.cdw10 / 8 % 8 = 3 → s.commitStatus x = 0 → s.upd.session = none →
    s.pattern.active.topology.legacy = false → s.cast.recovery = false → s.record.stagedSet = [e] → e.component = 1 →
    Answers (.commitActivateNow n) s fun t =>
      t.record.state = .tentative ∧
      t.upd.activation.map (fun v => (v.components, v.commit, v.ready)) = some ([1], some n, true) ∧
      t.fld F.UPD_STATUS_ACT_STATE = 2 ∧ t.fld F.UPD_STATUS_COMPONENT = 1 ∧ t.host.sent = s.host.sent) ∧
  (∀ (s : State) (n : Nat) (x : Slot) (y : Session), s.upd.verifying = some ⟨some n, 0⟩ → s.upd.session = some y →
    s.slot n = some x → s.heard x = true → s.noInjection = true → Answers (.bundleWritten) s fun t =>
      s.ended t x 0 0 = true ∧ t.upd.session = none ∧ t.upd.verifying = none ∧ t.record.staged = true ∧
      t.record.stagedSet = y.entries.map s.newEntry ∧ t.fld F.UPD_STATUS_SESSION = 0 ∧ t.fld F.UPD_EV_SESSION_DONE = 1) ∧
  (∀ (s : State) (y : Session) (e : BundleEntry), s.upd.verifying = some ⟨none, 0⟩ → s.upd.session = some y →
    y.entries = [e] → Answers (.bundleWritten) s fun t =>
      t.upd.images.any (fun i => i.1 == e.component && i.2.1 == s.inactiveSlot e.component && i.2.2 == y.image e) = true ∧
      t.record.staged = true) ∧
  (∀ (s : State), s.upd.verifying = none → Answers (.bundleWritten) s fun t =>
      t = s) ∧
  (∀ (s : State) (y : Session), s.upd.session = some y → 604800000 ≤ s.optime - y.lastProgress → s.upd.verifying = none →
    Answers (.sessionExpiry) s fun t =>
      t.upd.session = none ∧ t.fld F.UPD_EV_SESSION_EXPIRED = 1 ∧ t.fld F.UPD_STATUS_SESSION = 0 ∧
      t.fld F.UPD_PIECES_KEPT = 0) ∧
  (∀ (s : State) (y : Session), s.upd.session = some y → s.optime - y.lastProgress < 604800000 →
    Answers (.sessionExpiry) s fun t =>
      t = s) ∧
  (∀ (s : State) (y : Session), s.upd.session = some y → s.upd.verifying = none → Answers (.updAbort) s fun t =>
      t.upd.session = none ∧ t.fld F.UPD_EV_SESSION_ABORT = 1 ∧ t.fld F.UPD_STATUS_SESSION = 0 ∧ t.fld F.UPD_PIECES_KEPT = 0) ∧
  (∀ (s : State), s.upd.session = none → Answers (.updAbort) s fun t =>
      t = s) ∧
  (∀ (s : State), s.record.state = .tentative → s.pattern.active.security.autoConfirm = true →
    259200000 ≤ s.optime - max s.record.actOptime s.record.faultOptime → Answers (.autoConfirm) s fun t =>
      t.record.state = .confirmed ∧ t.record.unconf = 0 ∧ t.record.fallback = s.record.current ∧ t.record.svnPending = false ∧
      t.fld F.UPD_EV_CONFIRMED = 1 ∧ t.fld F.UPD_STATUS_TENTATIVE = 0) ∧
  (∀ (s : State), (s.record.state ≠ .tentative ∨ s.pattern.active.security.autoConfirm = false) →
    Answers (.autoConfirm) s fun t =>
      t = s) ∧
  (∀ (s : State), s.record.state = .tentative → Answers (.updFrog) s fun t =>
      t.record.state = .frogRequested ∧ t.record.seq = s.record.seq + 1 ∧ t.record.current = s.record.current ∧
      OnlyChanged s t [R.UPD_STATUS, R.UPD_SEQ_LO, R.UPD_SEQ_HI] [.upd]) ∧
  (∀ (s : State), s.record.state ≠ .tentative → Answers (.updFrog) s fun t =>
      t = s)

/-- Activation at runtime (R31, R391, R454, R456, R458): Tirium, then pairs by way of SPARE or quiesced, take the new
image in the steps of the handshake, each at the boundary that R31 allows; a missed deadline repeats the attempt or
aborts the activation with code 0x0D. -/
def Obligations.RuntimeHandover : Prop :=
  (∀ (s : State) (v : Activation), s.handing (· == 1) = some v → v.ready = true → s.allowed = true →
    s.fld F.TIR_STATUS_STATE = 1 → Answers (.tiriumHandover) s fun t =>
      t.fld F.TIR_STATUS_STATE = 0 ∧ t.upd.activation = some { v with step := 1, ready := false, start := s.rowCount } ∧
      t.row.swapped = true) ∧
  (∀ (s : State), s.allowed = false → Answers (.tiriumHandover) s fun t =>
      t = s) ∧
  (∀ (s : State), s.tiriumStarts = true → s.handing (· == 1) = none → s.tir.blocks.length = 8 →
    Answers (.tiriumReady) s fun t =>
      t.fld F.TIR_STATUS_STATE = 1 ∧ t.tir.blocks.getD 1 0 = imageDigest (s.currentImage 1) ∧ t.tir.aliasT.isSome = true) ∧
  (∀ (s : State) (v : Activation), s.tiriumStarts = true → s.handing (· == 1) = some v → v.components = [1] →
    v.commit = none → s.tir.blocks.length = 8 → Answers (.tiriumReady) s fun t =>
      t.fld F.TIR_STATUS_STATE = 1 ∧ t.tir.blocks.getD 1 0 = imageDigest (s.currentImage 1) ∧ t.upd.activation = none ∧
      t.fld F.UPD_EV_ACTIVATED = 1 ∧ t.fld F.UPD_STATUS_ACT_STATE = 0) ∧
  (∀ (s : State), s.fld F.TIR_STATUS_STATE ≠ 0 → Answers (.tiriumReady) s fun t =>
      t = s) ∧
  (∀ (s : State) (v : Activation), s.tiriumStarts = true → s.handing (· == 1) = some v →
    Answers (.tiriumReadyTimeout) s fun t =>
      t.fld F.TIR_STATUS_STATE = 1 ∧ t.upd.activation = none ∧ t.fld F.UPD_ERR_CODE = 0x0D ∧ t.fld F.UPD_EV_ABORTED = 1 ∧
      t.tir.blocks = s.tir.blocks) ∧
  (∀ (s : State), s.fld F.TIR_STATUS_STATE ≠ 0 → Answers (.tiriumReadyTimeout) s fun t =>
      t = s) ∧
  (∀ (s : State) (v : Activation), s.handing (fun c => c == 3 || c == 4) = some v → v.step = 1 →
    Answers (.handoverSpareReady) s fun t =>
      t.fld F.UPD_HANDOVER_SPARE_READY = 1 ∧ t.upd.activation = some { v with step := 2 } ∧
      OnlyChanged s t [R.UPD_HANDOVER] [.upd]) ∧
  (∀ (s : State), s.handing (fun c => c == 3 || c == 4) = none → Answers (.handoverSpareReady) s fun t =>
      t.fld F.UPD_HANDOVER_SPARE_READY = 1 ∧ OnlyChanged s t [R.UPD_HANDOVER] []) ∧
  (∀ (s : State) (v : Activation), s.handing (fun c => c == 3 || c == 4) = some v → v.step = 2 →
    Answers (.handoverRequest) s fun t =>
      t.fld F.UPD_HANDOVER_REQUEST = 1 ∧ t.fld F.UPD_HANDOVER_SPARE_READY = 0 ∧ t.fld F.UPD_STATUS_ACT_STATE = 2 ∧
      t.upd.activation = some { v with step := 3, start := s.rowCount }) ∧
  (∀ (s : State) (v : Activation), s.handing (fun c => c == 3 || c == 4) = some v → v.step ≠ 2 →
    Answers (.handoverRequest) s fun t =>
      t = s) ∧
  (∀ (s : State) (v : Activation), s.handing (fun c => c == 3 || c == 4) = some v → v.step = 3 → v.quiesced = false →
    Answers (.handoverQuiesced) s fun t =>
      t.fld F.UPD_HANDOVER_QUIESCED = 1 ∧ t.upd.activation = some { v with step := 4, ready := true }) ∧
  (∀ (s : State) (v : Activation) (p : Nat) (l : List Nat), s.handing (fun c => c == 3 || c == 4) = some v → v.step = 3 →
    v.quiesced = true → v.pairs = p :: l → p < 6 → s.pairs.length = 6 → Answers (.handoverQuiesced) s fun t =>
      t.fld F.UPD_HANDOVER_QUIESCED = 0 ∧ t.upd.activation = some { v with step := 4 } ∧ (t.pair p).undo = [] ∧
      (t.pair p).checkpoint.map (·.row) = some s.rowCount) ∧
  (∀ (s : State) (v : Activation) (p : Nat) (l : List Nat), s.handing (fun c => c == 3 || c == 4) = some v → v.step = 4 →
    v.quiesced = false → s.allowed = true → v.pairs = p :: l → p < 5 → v.leg = 1 → Answers (.handoverSwitch) s fun t =>
      t.pairState 5 = 5 ∧ t.pairState p = 3 ∧ t.fld F.SYS_PAIR_STATUS_SPARE_FOR = p ∧ t.fld F.UPD_HANDOVER_QUIESCED = 0 ∧
      t.upd.activation = some { v with step := 5, ready := false } ∧ t.row.swapped = true) ∧
  (∀ (s : State) (v : Activation) (p : Nat) (l : List Nat), s.handing (fun c => c == 3 || c == 4) = some v → v.step = 4 →
    v.quiesced = false → s.allowed = true → v.pairs = p :: l → p < 5 → v.leg = 2 → Answers (.handoverSwitch) s fun t =>
      t.pairState 5 = 3 ∧ t.pairState p = 1 ∧ t.fld F.SYS_PAIR_STATUS_SPARE_FOR = 15 ∧
      t.upd.activation = some { v with step := 5, ready := false }) ∧
  (∀ (s : State), s.allowed = false → Answers (.handoverSwitch) s fun t =>
      t = s) ∧
  (∀ (s : State) (v : Activation) (p : Nat) (l : List Nat), s.handing (fun c => c == 3 || c == 4) = some v → v.step = 5 →
    v.quiesced = false → v.leg = 1 → v.components = [3] → v.pairs = p :: l → p < 5 → Answers (.handoverTaken) s fun t =>
      t.pairState p = 4 ∧ t.fld F.UPD_HANDOVER_TAKEN = 0 ∧ t.fld F.UPD_HANDOVER_REQUEST = 0 ∧
      t.upd.activation = some { v with leg := 2, step := 1, attempts := 0 }) ∧
  (∀ (s : State) (v : Activation) (p : Nat), s.handing (fun c => c == 3 || c == 4) = some v → v.step = 5 →
    v.quiesced = false → v.leg = 2 → v.components = [3] → v.pairs = [p] → v.commit = none →
    Answers (.handoverTaken) s fun t =>
      t.upd.activation = none ∧ t.fld F.UPD_EV_ACTIVATED = 1 ∧ t.fld F.UPD_HANDOVER_REQUEST = 0 ∧
      t.fld F.UPD_HANDOVER_PAIR = 15) ∧
  (∀ (s : State), s.handing (fun c => c == 3 || c == 4) = none → Answers (.handoverTaken) s fun t =>
      t.fld F.UPD_HANDOVER_TAKEN = 1 ∧ OnlyChanged s t [R.UPD_HANDOVER] []) ∧
  (∀ (s : State) (v : Activation), s.handing (fun c => c == 3 || c == 4) = some v → v.quiesced = false → v.step = 3 →
    10 ≤ s.rowCount - v.start → v.attempts < 3 → Answers (.handoverDeadlineMiss) s fun t =>
      t.fld F.UPD_HANDOVER_REQUEST = 0 ∧
      t.upd.activation = some { v with step := 2, attempts := v.attempts + 1, ready := false }) ∧
  (∀ (s : State) (v : Activation), s.handing (fun c => c == 3 || c == 4) = some v → v.quiesced = false → v.step = 3 →
    10 ≤ s.rowCount - v.start → 3 ≤ v.attempts → Answers (.handoverDeadlineMiss) s fun t =>
      t.upd.activation = none ∧ t.fld F.UPD_ERR_CODE = 0x0D ∧ t.fld F.UPD_EV_ABORTED = 1 ∧ t.fld F.UPD_HANDOVER_REQUEST = 0) ∧
  (∀ (s : State) (v : Activation) (p : Nat) (l : List Nat), s.handing (fun c => c == 3 || c == 4) = some v →
    v.quiesced = false → v.step = 5 → v.leg = 1 → 17 ≤ s.rowCount - v.start → v.pairs = p :: l → p < 5 →
    Answers (.handoverDeadlineMiss) s fun t =>
      t.upd.activation = none ∧ t.fld F.UPD_ERR_CODE = 0x0D ∧ t.fld F.UPD_EV_ABORTED = 1 ∧ t.pairState p = 1 ∧
      t.pairState 5 = 3) ∧
  (∀ (s : State) (v : Activation), s.handing (fun c => c == 3 || c == 4) = some v → v.quiesced = true →
    Answers (.handoverDeadlineMiss) s fun t =>
      t = s) ∧
  (∀ (s : State) (v : Activation) (p : Nat) (l : List Nat), s.handing (fun c => c == 3 || c == 4) = some v →
    v.quiesced = true → v.step = 0 → v.pairs = p :: l → Answers (.quiescedActivation) s fun t =>
      t.fld F.UPD_HANDOVER_REQUEST = 1 ∧ t.fld F.UPD_STATUS_ACT_STATE = 3 ∧
      t.upd.activation = some { v with step := 3, start := s.rowCount } ∧
      t.host.controllers.all (fun k => !s.controllersOfPair p k.cntlid || k.paused) = true) ∧
  (∀ (s : State) (v : Activation) (m : List Nat), s.upd.activation = some v → v.components = 2 :: m → v.quiesced = true →
    v.step = 0 → (s.opsAt v.act .issued).isEmpty = false → Answers (.quiescedActivation) s fun t =>
      t.fld F.UPD_STATUS_ACT_STATE = 3 ∧ t.upd.activation = some { v with step := 1, start := s.rowCount }) ∧
  (∀ (s : State) (v : Activation), s.upd.activation = some v → v.quiesced = false → Answers (.quiescedActivation) s fun t =>
      t = s) ∧
  (∀ (s : State) (v : Activation) (p : Nat) (l : List Nat), s.handing (fun c => c == 3 || c == 4) = some v →
    v.quiesced = true → 3 ≤ v.step → v.pairs = p :: l → p < 6 → s.pairs.length = 6 → Answers (.quiescedTimeout) s fun t =>
      t.upd.activation = none ∧ t.fld F.UPD_ERR_CODE = 0x0D ∧ t.fld F.UPD_EV_ABORTED = 1 ∧ t.fld F.UPD_HANDOVER_REQUEST = 0 ∧
      (t.pair p).undo = []) ∧
  (∀ (s : State) (v : Activation), s.handing (fun c => c == 3 || c == 4) = some v → v.quiesced = false →
    Answers (.quiescedTimeout) s fun t =>
      t = s)

/-- The event recorder (R473, R474, R476 to R478, R481 to R483, R485, R486): firmware records and time anchors enter
the FIFO with the next number; a record is programmed at NEXT; a failed store gives way to the fallback area and that
to the shadow; a clear erases sector by sector; the cast-on scan finds the position. -/
def Obligations.EventRecorder : Prop :=
  (∀ (s : State) (a l v : Nat), s.keeper.inReset = false → s.fld F.REC_STATUS_STORE ≠ 2 → s.fld F.REC_STATUS_FULL = 0 →
    s.recorder.fifo.length < 240 → s.recorder.writing.isSome = true → 48 ≤ a → a < 64 → 1 ≤ l → l < 256 → v < 8 →
    s.fld F.REC_FILTER_MIN ≤ v → s.fld (F.REC_SOURCES_HI_MASK_HI.at (a - 32)) = 1 → Answers (.recFwPost a l v) s fun t =>
      t.recorder.fifo.take s.recorder.fifo.length = s.recorder.fifo ∧
      (t.recorder.fifo.drop s.recorder.fifo.length).map (fun r => (r.type, r.source, r.severity, r.payload, r.seq)) = [(a *
        256 + l, a, v, (List.range 8).map fun k => s.reg (R.REC_FW_PAYLOAD k), s.fld F.REC_SEQ_SEQ)] ∧
      t.fld F.REC_SEQ_SEQ = (s.fld F.REC_SEQ_SEQ + 1) % 2 ^ 32 ∧ t.fld F.REC_STATUS_FIFO_LEVEL = s.recorder.fifo.length + 1) ∧
  (∀ (s : State) (a l v : Nat), (a < 48 ∨ l = 0) → a < 64 → l < 256 → Answers (.recFwPost a l v) s fun t =>
      t.fld F.REC_EV_FW_REFUSED = 1 ∧ OnlyChanged s t [R.REC_FW_TYPE, R.REC_EVENTS] []) ∧
  (∀ (s : State) (h x : Nat), s.keeper.inReset = false → s.fld F.REC_STATUS_STORE ≠ 2 → s.fld F.REC_STATUS_FULL = 0 →
    s.recorder.fifo.length < 240 → s.recorder.writing.isSome = true → h < 2 ^ 16 → x < 256 →
    Answers (.timeAnchor h x) s fun t =>
      t.recorder.fifo.take s.recorder.fifo.length = s.recorder.fifo ∧
      (t.recorder.fifo.drop s.recorder.fifo.length).map (fun r => (r.type, r.source, r.severity, r.payload, r.seq)) = [(1, 0,
        1, [s.reg R.REC_ANCHOR_LO, BitVec.ofNat 32 (h + 0x10000 * x)], s.fld F.REC_SEQ_SEQ)] ∧
      t.fld F.REC_SEQ_SEQ = (s.fld F.REC_SEQ_SEQ + 1) % 2 ^ 32 ∧ t.fld F.REC_STATUS_FIFO_LEVEL = s.recorder.fifo.length + 1) ∧
  (∀ (s : State) (r : Record), s.recorder.writing = some r → s.fld F.REC_STATUS_STORE = 0 → s.noInjection = true →
    s.fld F.REC_NEXT_INDEX + 1 < 262143 → Answers (.recordProgrammed) s fun t =>
      t.recorder.store = ⟨s.fld F.REC_NEXT_INDEX, r, false⟩ :: s.recorder.store ∧
      t.fld F.REC_NEXT_INDEX = s.fld F.REC_NEXT_INDEX + 1 ∧ t.fld F.REC_STATUS_FULL = s.fld F.REC_STATUS_FULL) ∧
  (∀ (s : State) (r : Record), s.recorder.writing = some r → s.fld F.REC_STATUS_STORE = 0 → s.noInjection = true →
    s.fld F.REC_NEXT_INDEX = 262143 → Answers (.recordProgrammed) s fun t =>
      t.recorder.store = ⟨262143, r, false⟩ :: s.recorder.store ∧ t.fld F.REC_STATUS_FULL = 1 ∧ t.fld F.REC_EV_FULL = 1 ∧
      t.recorder.fifo = [] ∧ t.recorder.writing = none) ∧
  (∀ (s : State) (r : Record), s.recorder.writing = some r → s.fld F.REC_STATUS_STORE = 1 →
    s.fld F.REC_NEXT_INDEX + 1 < 16383 → Answers (.recordProgrammed) s fun t =>
      t.recorder.unit = s.recorder.unit ++ [r] ∧ t.recorder.store = s.recorder.store ∧
      t.fld F.REC_NEXT_INDEX = s.fld F.REC_NEXT_INDEX + 1) ∧
  (∀ (s : State), s.recorder.writing = none → Answers (.recordProgrammed) s fun t =>
      t = s) ∧
  (∀ (s : State) (k : Nat), s.fld F.REC_STATUS_STORE = 0 → Answers (.recStoreFail k) s fun t =>
      t.fld F.REC_STATUS_STORE = 1 ∧ t.recorder.storeFailed = true ∧ t.fld F.REC_EV_STORE_FAIL = 1 ∧
      t.recorder.store = s.recorder.store) ∧
  (∀ (s : State) (k : Nat), s.fld F.REC_STATUS_STORE = 1 → Answers (.recStoreFail k) s fun t =>
      t.fld F.REC_STATUS_STORE = 2 ∧ t.recorder.lifelineFailed = true ∧ t.recorder.fifo = [] ∧ t.recorder.writing = none ∧
      t.recorder.fallback = s.recorder.fallback) ∧
  (∀ (s : State) (k : Nat), s.fld F.REC_STATUS_STORE = 2 → Answers (.recStoreFail k) s fun t =>
      t = s) ∧
  (∀ (s : State), s.recorder.reserve ≠ [] → s.place7Ready = true → Answers (.recordMirrorCopy) s fun t =>
      t.recorder.place7 = s.recorder.place7 ++ s.recorder.reserve ∧ t.recorder.reserve = [] ∧
      t.fld F.REC_STATUS_MIRROR_PENDING = 0 ∧ OnlyChanged s t [R.REC_STATUS] [.recorder]) ∧
  (∀ (s : State), s.place7Ready = false → Answers (.recordMirrorCopy) s fun t =>
      t = s) ∧
  (∀ (s : State) (r : Record), s.recorder.unit = [r] → s.noInjection = true → Answers (.fallbackUnitProgram) s fun t =>
      t.recorder.unit = [] ∧
      t.recorder.fallback = ⟨s.recorder.fallback.foldl (fun m e => max m (e.index + 1)) 0, r, false⟩ :: s.recorder.fallback) ∧
  (∀ (s : State), s.recorder.unit = [] → Answers (.fallbackUnitProgram) s fun t =>
      t = s) ∧
  (∀ (s : State), s.clearGranted = true → s.fld F.REC_STATUS_CLEAR_BUSY = 0 → s.fld F.REC_STATUS_STORE = 0 →
    Answers (.recClear 0) s fun t =>
      t.recorder.clearing = some ⟨0, 0, s.fld F.REC_NEXT_INDEX, false⟩ ∧ t.fld F.REC_STATUS_CLEAR_BUSY = 1 ∧
      t.fld F.REC_NEXT_INDEX = 0 ∧ t.recorder.writing = none ∧
      t.recorder.carry = s.recorder.writing.toList ++ s.recorder.carry ∧ t.recorder.store = s.recorder.store) ∧
  (∀ (s : State), s.clearGranted = true → s.fld F.REC_STATUS_CLEAR_BUSY = 0 → Answers (.recClear 2) s fun t =>
      t.recorder.shadow = [] ∧ t.recorder.clearing = s.recorder.clearing ∧ OnlyChanged s t [R.REC_CTRL] [.recorder]) ∧
  (∀ (s : State) (x : Nat), (s.clearGranted = false ∨ s.fld F.REC_STATUS_CLEAR_BUSY = 1) → Answers (.recClear x) s fun t =>
      t.fld F.REC_EV_CLEAR_REFUSED = 1 ∧ OnlyChanged s t [R.REC_CTRL, R.REC_EVENTS] []) ∧
  (∀ (s : State) (c : Clearing), s.recorder.clearing = some c → c.area = 0 → c.headWritten = true → c.nextSector < 255 →
    Answers (.clearSectorErased) s fun t =>
      t.recorder.clearing = some { c with nextSector := c.nextSector + 1 } ∧
      t.recorder.store = s.recorder.store.filter (fun e => e.index / 1024 != c.nextSector || e.index == 0) ∧
      t.recorder.fallback = s.recorder.fallback) ∧
  (∀ (s : State) (c : Clearing), s.recorder.clearing = some c → c.area = 0 → c.headWritten = true → 255 ≤ c.nextSector →
    Answers (.clearSectorErased) s fun t =>
      t.recorder.clearing = none ∧ t.fld F.REC_STATUS_CLEAR_BUSY = 0 ∧ t.fld F.REC_EV_CLEAR_DONE = 1) ∧
  (∀ (s : State) (c : Clearing) (n : Nat), s.recorder.clearing = some c → c = ⟨0, 0, n, false⟩ →
    s.fld F.REC_STATUS_STORE = 0 → Answers (.clearSectorErased) s fun t =>
      t.fld F.REC_NEXT_INDEX = 1 ∧ t.fld F.REC_STATUS_FULL = 0 ∧ (∀ k < 8, t.fld (F.REC_LOST_LOST k) = 0) ∧
      (t.recorder.store.head?.map fun e => (e.index, e.record.type, e.record.severity, e.record.payload)) = some (0, 5, 5,
        [BitVec.ofNat 32 n, BitVec.ofNat 32 s.lostSum]) ∧
      t.recorder.store.tail = s.recorder.store.filter (fun e => e.index / 1024 != 0)) ∧
  (∀ (s : State), s.recorder.clearing = none → s.recorder.writing.isSome = true → Answers (.clearSectorErased) s fun t =>
      t = s) ∧
  (∀ (s : State), s.recorder.scanned = false → s.keeper.inReset = false → s.cast.cold = true →
    writePosition s.recorder.store < 2 ^ 18 → Answers (.recorderCastonScan true) s fun t =>
      t.recorder.scanned = true ∧ t.fld F.REC_STATUS_STORE = 0 ∧ t.recorder.storeFailed = false ∧
      t.fld F.REC_NEXT_INDEX = writePosition s.recorder.store ∧ t.recorder.store = s.recorder.store) ∧
  (∀ (s : State) (b : Bool), s.recorder.scanned = true → Answers (.recorderCastonScan b) s fun t =>
      t = s)

/-- The Snag unit and debug access (R400, R489 to R492, R494, R497): arming needs a grant, disarming stops every
injector; GO runs a legal injector, injects once at points 4, 7 and 9, or holds until a resource is ready; a debug
warm reset and halts need their grants. -/
def Obligations.SnagUnit : Prop :=
  (∀ (s : State), s.grants &&& 9 ≠ 0 → s.fld F.SNG_STATUS_ARMED = 0 → Answers (.sngArm) s fun t =>
      t.fld F.SNG_STATUS_ARMED = 1 ∧ t.fld F.TIR_STATUS_SNAG_ARMED = 1 ∧ t.snag.armedBy = s.grants &&& 9 ∧
      t.snag.injectors = s.snag.injectors) ∧
  (∀ (s : State), s.grants &&& 9 = 0 → Answers (.sngArm) s fun t =>
      t.fld F.SNG_EV_ARM_REFUSED = 1 ∧ OnlyChanged s t [R.SNG_EVENTS] []) ∧
  (∀ (s : State), s.fld F.SNG_STATUS_ARMED = 1 → Answers (.sngDisarm) s fun t =>
      t.fld F.SNG_STATUS_ARMED = 0 ∧ t.fld F.TIR_STATUS_SNAG_ARMED = 0 ∧ t.snag.armedBy = 0 ∧ t.fld F.SNG_STATUS_ACTIVE = 0 ∧
      t.fld F.SNG_STATUS_HELD = 0 ∧ t.snag.injectors.all (fun x => !x.running && !x.held) = true) ∧
  (∀ (s : State), s.fld F.SNG_STATUS_ARMED = 0 → Answers (.sngDisarm) s fun t =>
      t = s) ∧
  (∀ (s : State) (n : Nat) (g : Word), s.fld F.SNG_STATUS_ARMED = 1 → n < 8 → s.snag.injectors.length = 8 →
    snagLegal (getBits g 0 8) (s.fld (F.SNG_INJ_TARGET_INSTANCE n)) (getBits g 10 4) (s.fld (F.SNG_INJ_TARGET_PARAM n))
      (s.fld (F.SNG_INJ_ADDR_ADDR n)) = true → getBits g 8 2 ≠ 3 → getBits g 0 8 ≠ 4 → getBits g 0 8 ≠ 7 → getBits g 0 8 ≠ 9 →
    Answers (.snagInjectorGo n g) s fun t =>
      t.snag.injectors.getD n ⟨false, false, 0, 1⟩ = ⟨true, false, 0, s.reg R.SNG_SEED⟩ ∧ t.fld (F.SNG_INJ_COUNT_DONE n) = 0 ∧
      t.fld (F.SNG_INJ_CFG_POINT n) = getBits g 0 8 ∧ t.fld F.SNG_COUNT_INJECTED = s.fld F.SNG_COUNT_INJECTED ∧
      ∀ j < 8, j ≠ n → t.snag.injectors.getD j ⟨false, false, 0, 1⟩ = s.snag.injectors.getD j ⟨false, false, 0, 1⟩) ∧
  (∀ (s : State) (n : Nat) (g : Word), s.fld F.SNG_STATUS_ARMED = 1 → n < 8 → s.snag.injectors.length = 8 →
    snagLegal (getBits g 0 8) (s.fld (F.SNG_INJ_TARGET_INSTANCE n)) (getBits g 10 4) (s.fld (F.SNG_INJ_TARGET_PARAM n))
      (s.fld (F.SNG_INJ_ADDR_ADDR n)) = true → getBits g 8 2 ≠ 3 → getBits g 0 8 = 4 → getBits g 10 4 = 0 →
    s.prot.flipped.contains (s.fld (F.SNG_INJ_TARGET_INSTANCE n), 8 * s.fld (F.SNG_INJ_ADDR_ADDR n)) = false →
    Answers (.snagInjectorGo n g) s fun t =>
      t.prot.flipped = s.prot.flipped ++ [(s.fld (F.SNG_INJ_TARGET_INSTANCE n), 8 * s.fld (F.SNG_INJ_ADDR_ADDR n))] ∧
      t.fld F.SNG_COUNT_INJECTED = min (s.fld F.SNG_COUNT_INJECTED + 1) 4294967295 ∧
      (t.snag.injectors.getD n ⟨false, false, 0, 1⟩).running = false ∧ t.fld (F.SNG_INJ_COUNT_DONE n) = 1) ∧
  (∀ (s : State) (n : Nat) (g : Word), s.fld F.SNG_STATUS_ARMED = 1 → n < 8 → s.snag.injectors.length = 8 →
    snagLegal (getBits g 0 8) (s.fld (F.SNG_INJ_TARGET_INSTANCE n)) (getBits g 10 4) (s.fld (F.SNG_INJ_TARGET_PARAM n))
      (s.fld (F.SNG_INJ_ADDR_ADDR n)) = true → getBits g 8 2 ≠ 3 → getBits g 0 8 = 7 → getBits g 14 1 = 0 →
    s.pairState 5 ≠ 3 → Answers (.snagInjectorGo n g) s fun t =>
      t.snag.injectors.getD n ⟨false, false, 0, 1⟩ = ⟨true, true, 0, s.reg R.SNG_SEED⟩ ∧
      t.fld F.SNG_COUNT_INJECTED = s.fld F.SNG_COUNT_INJECTED ∧ t.pairs = s.pairs ∧ t.fld (pairFld 5) = s.fld (pairFld 5)) ∧
  (∀ (s : State) (n : Nat) (g : Word) (p : Nat), s.fld F.SNG_STATUS_ARMED = 1 → n < 8 → s.snag.injectors.length = 8 →
    snagLegal (getBits g 0 8) (s.fld (F.SNG_INJ_TARGET_INSTANCE n)) (getBits g 10 4) (s.fld (F.SNG_INJ_TARGET_PARAM n))
      (s.fld (F.SNG_INJ_ADDR_ADDR n)) = true → getBits g 8 2 ≠ 3 → getBits g 0 8 = 7 → s.pairState 5 = 3 →
    s.fld (F.SNG_INJ_TARGET_INSTANCE n) = p → p < 5 → s.pairState p = 1 → (s.pair p).checkpoint.isSome = true →
    (s.takeoverPair p).isSome = true → s.pairs.length = 6 → Answers (.snagInjectorGo n g) s fun t =>
      t.pairState p = 2 ∧ (t.pair p).takeover = true ∧ (t.snag.injectors.getD n ⟨false, false, 0, 1⟩).running = false) ∧
  (∀ (s : State) (n : Nat) (g : Word), n < 8 →
    (s.fld F.SNG_STATUS_ARMED = 0 ∨ snagLegal (getBits g 0 8) (s.fld (F.SNG_INJ_TARGET_INSTANCE n)) (getBits g 10 4) (s.fld
      (F.SNG_INJ_TARGET_PARAM n)) (s.fld (F.SNG_INJ_ADDR_ADDR n)) = false ∨ getBits g 8 2 = 3) →
    Answers (.snagInjectorGo n g) s fun t =>
      t.fld F.SNG_EV_INJ_REFUSED = 1 ∧ t.snag = s.snag ∧ OnlyChanged s t [R.SNG_INJ_CFG n, R.SNG_EVENTS] []) ∧
  (∀ (s : State) (n : Nat) (g : Word), 7 < n → Answers (.snagInjectorGo n g) s fun t =>
      t = s) ∧
  (∀ (s : State) (n k : Nat) (r : Bool) (w : Word), n < 8 → s.snag.injectors.length = 8 →
    s.snag.injectors.getD n ⟨false, false, 0, 1⟩ = ⟨r, true, k, w⟩ → s.fld (F.SNG_INJ_CFG_POINT n) = 6 →
    s.fld (F.NDL_STATUS_ROLE 2) = 2 → Answers (.snagHeldRelease n) s fun t =>
      t.snag.injectors.getD n ⟨false, false, 0, 1⟩ = ⟨r, false, k, w⟩ ∧
      t.fld F.SNG_COUNT_INJECTED = s.fld F.SNG_COUNT_INJECTED ∧
      ∀ j < 8, j ≠ n → t.snag.injectors.getD j ⟨false, false, 0, 1⟩ = s.snag.injectors.getD j ⟨false, false, 0, 1⟩ ∧
      OnlyChanged s t [R.SNG_STATUS] [.snag]) ∧
  (∀ (s : State) (n : Nat), (s.snag.injectors.getD n ⟨false, false, 0, 1⟩).held = false →
    Answers (.snagHeldRelease n) s fun t =>
      t = s) ∧
  (∀ (s : State), s.coreDebug = true → s.warmAllowed = true → Answers (.dbgWarmReset 0xA55A) s fun t =>
      t.keeper.inReset = true ∧ t.fld F.SYS_RST_CAUSE_LAST = 4 ∧ t.fld F.SYS_RST_CAUSE_WDOG_PAIR = 15 ∧ t.cast.cold = false ∧
      t.sram = [] ∧ t.dram = []) ∧
  (∀ (s : State), s.coreDebug = false → s.warmAllowed = true → Answers (.dbgWarmReset 0xA55A) s fun t =>
      t.fld F.DBG_EV_REFUSED = 1 ∧ OnlyChanged s t [R.DBG_EVENTS] []) ∧
  (∀ (s : State) (k : Nat), (k ≠ 0xA55A ∨ s.warmAllowed = false) → Answers (.dbgWarmReset k) s fun t =>
      t = s) ∧
  (∀ (s : State) (m : Nat), m < 64 → s.coreDebug = true → s.pairs.length = 6 → Answers (.dbgHalt m 0) s fun t =>
      (∀ p < 6, (t.pair p).halted = m.testBit p) ∧ t.fld F.DBG_HALT_PAIRS = m ∧ t.fld F.DBG_HALT_NEEDLES = 0 ∧
      t.fld F.DBG_EV_REFUSED = s.fld F.DBG_EV_REFUSED) ∧
  (∀ (s : State) (m k : Nat), s.coreDebug = false → (List.range 6).any (fun p => m.testBit p && !(s.pair p).halted) = true →
    Answers (.dbgHalt m k) s fun t =>
      t.fld F.DBG_EV_REFUSED = 1 ∧ OnlyChanged s t [R.DBG_EVENTS] [])

/-- JTAG and the UART (R405, R496 to R498): each TAP instruction shifts out its data register, the Tirium mailbox
carries challenges only, the access port needs its grant; UART bytes queue to 16 in each direction, and what does not
fit is dropped and flagged. -/
def Obligations.DebugPorts : Prop :=
  (∀ (s : State) (b : Bool), Answers (.jtagBypass b) s fun t =>
      t.dbg.tap = 0 ∧ t.dbg.tdo = [if b then 1 else 0] ∧ OnlyChanged s t [] [.dbg]) ∧
  (∀ (s : State), Answers (.jtagIdcode) s fun t =>
      t.dbg.tap = 1 ∧
      t.dbg.tdo = [BitVec.ofNat 32 (s.fuse.stepping % 16 * 2 ^ 28 + 0xB008 * 2 ^ 12 + s.fuse.manufacturer % 2 ^ 11 * 2 + 1)] ∧
      OnlyChanged s t [] [.dbg]) ∧
  (∀ (s : State) (l m : List Bool), Answers (.jtagSamplePreload l m) s fun t =>
      t.dbg.tap = 2 ∧ t.dbg.tdo = [] ∧ t.dbg.scanCaptured = l ∧ t.dbg.scanDriven = m ∧ OnlyChanged s t [] [.dbg]) ∧
  (∀ (s : State) (l : List Bool), Answers (.jtagExtest l) s fun t =>
      t.dbg.tap = 3 ∧ t.dbg.tdo = [] ∧ t.dbg.scanCaptured = l ∧ t.dbg.scanDriven = s.dbg.scanDriven ∧
      OnlyChanged s t [] [.dbg]) ∧
  (∀ (s : State) (o g : Nat) (l : List Byte), o ≠ 7 → o ≠ 8 → o ≠ 9 → Answers (.jtagTmbx o g l) s fun t =>
      t.dbg.tap = 4 ∧ t.dbg.tdo = [3] ∧ OnlyChanged s t [] [.dbg]) ∧
  (∀ (s : State) (g c : Nat) (l : List Byte), s.fld F.TIR_STATUS_STATE = 1 → g < 2 ^ 23 → s.tir.last.length = 5 →
    s.tir.challenges.length = 5 → s.tir.last.getD 4 none = none → s.fld F.TIR_STATUS_LOCKOUT = 0 → leField l 0 4 = c → 1 ≤ c →
    c ≤ 15 → Answers (.jtagTmbx 7 g l) s fun t =>
      t.dbg.tdo.head? = some 0 ∧ (t.tir.challenges.getD 4 none).map (·.scopes) = some c ∧
      t.tir.trngUsed = s.tir.trngUsed + 32) ∧
  (∀ (s : State) (u : Nat), u ≤ 5 → s.coreDebug = true → Answers (.jtagDbgap u false) s fun t =>
      t.dbg.tap = 5 ∧ t.dbg.tdo.length = 1 ∧ t.draws = s.draws + 1 ∧ OnlyChanged s t [] [.dbg, .draws]) ∧
  (∀ (s : State) (u : Nat), u ≤ 5 → s.coreDebug = true → Answers (.jtagDbgap u true) s fun t =>
      t.dbg.tap = 5 ∧ t.dbg.tdo = [] ∧ OnlyChanged s t [] [.dbg]) ∧
  (∀ (s : State) (u : Nat) (b : Bool), u ≤ 5 → s.coreDebug = false → Answers (.jtagDbgap u b) s fun t =>
      t.dbg.tap = 5 ∧ t.dbg.tdo = [] ∧ t.fld F.DBG_EV_REFUSED = 1 ∧ OnlyChanged s t [R.DBG_EVENTS] [.dbg]) ∧
  (∀ (s : State) (u : Nat) (b : Bool), 6 ≤ u → u ≤ 9 → s.faDebug = false → Answers (.jtagDbgap u b) s fun t =>
      t.dbg.tap = 5 ∧ t.dbg.tdo = [] ∧ t.fld F.DBG_EV_REFUSED = 1 ∧ OnlyChanged s t [R.DBG_EVENTS] [.dbg]) ∧
  (∀ (s : State) (b : Byte), s.uartPins = true → s.dbg.txFifo.length < 16 → Answers (.uartTxWrite b) s fun t =>
      t.dbg.txFifo = s.dbg.txFifo ++ [b] ∧ t.fld F.DBG_UART_STATUS_TX_LEVEL = t.dbg.txFifo.length ∧
      OnlyChanged s t [R.DBG_UART_TXD, R.DBG_UART_RXD, R.DBG_UART_STATUS] [.dbg]) ∧
  (∀ (s : State) (b : Byte), s.uartPins = true → 16 ≤ s.dbg.txFifo.length → Answers (.uartTxWrite b) s fun t =>
      t.fld F.DBG_UART_STATUS_TX_DROP = 1 ∧ OnlyChanged s t [R.DBG_UART_TXD, R.DBG_UART_STATUS] []) ∧
  (∀ (s : State), s.uartPins = true → s.fld F.DBG_UART_CTRL_EN = 1 → s.dbg.txFifo.length ≤ 16 →
    Answers (.uartTxByteSent) s fun t =>
      t.dbg.txFifo = s.dbg.txFifo.drop 1 ∧ t.fld F.DBG_UART_STATUS_TX_LEVEL = t.dbg.txFifo.length ∧
      OnlyChanged s t [R.DBG_UART_TXD, R.DBG_UART_RXD, R.DBG_UART_STATUS] [.dbg]) ∧
  (∀ (s : State), (s.uartPins = false ∨ s.fld F.DBG_UART_CTRL_EN = 0) → Answers (.uartTxByteSent) s fun t =>
      t = s) ∧
  (∀ (s : State) (b : Byte) (e : Bool), s.uartPins = true → s.fld F.DBG_UART_CTRL_EN = 1 → s.dbg.rxFifo.length < 16 →
    Answers (.uartRxByte b e) s fun t =>
      t.dbg.rxFifo = s.dbg.rxFifo ++ [b] ∧ t.fld F.DBG_UART_STATUS_RX_LEVEL = t.dbg.rxFifo.length ∧
      t.fld F.DBG_UART_RXD_VALID = 1 ∧
      t.fld F.DBG_UART_STATUS_FRAME_ERR = (if e then s.fld F.DBG_UART_STATUS_FRAME_ERR else 1) ∧
      OnlyChanged s t [R.DBG_UART_TXD, R.DBG_UART_RXD, R.DBG_UART_STATUS] [.dbg]) ∧
  (∀ (s : State) (b : Byte) (e : Bool), s.uartPins = true → s.fld F.DBG_UART_CTRL_EN = 1 → 16 ≤ s.dbg.rxFifo.length →
    Answers (.uartRxByte b e) s fun t =>
      t.fld F.DBG_UART_STATUS_RX_OVERRUN = 1 ∧ OnlyChanged s t [R.DBG_UART_STATUS] []) ∧
  (∀ (s : State), s.dbg.rxFifo.length ≤ 16 → Answers (.uartRxPop) s fun t =>
      t.dbg.rxFifo = s.dbg.rxFifo.drop 1 ∧ t.fld F.DBG_UART_STATUS_RX_LEVEL = t.dbg.rxFifo.length ∧
      t.fld F.DBG_UART_RXD_DATA = ((s.dbg.rxFifo.drop 1).headD 0).toNat ∧
      t.fld F.DBG_UART_RXD_VALID = (if (s.dbg.rxFifo.drop 1).isEmpty then 0 else 1) ∧
      OnlyChanged s t [R.DBG_UART_TXD, R.DBG_UART_RXD, R.DBG_UART_STATUS] [.dbg])

/-- Register accesses (R8 to R10, R15, R79, R503): a write takes each field by its access code, an RWL field only
before the lock, and a W1C bit that an event raises in the same cycle stays set; a read answers the word; SRAM
accesses move bytes under the undo log; a fenced or halted pair issues nothing; the activity output is released. -/
def Obligations.RegisterAccess : Prop :=
  (∀ (s : State) (p v w q : Nat), s.silent p = false → Answers (.registerWrite p false (R.SNG_SEED) 4 ⟨v, w, q⟩) s fun t =>
      t.reg R.SNG_SEED = (BitVec.ofNat 32 v) ∧ t.bus = ⟨p, 0, false⟩ ∧ OnlyChanged s t [R.SNG_SEED] [.bus]) ∧
  (∀ (s : State) (p v w q : Nat) (n : Nat), s.silent p = false → s.fld F.PAT_STATUS_LOCKED = 0 → n < 2 →
    Answers (.registerWrite p false (R.SCH_SETTLE n) 4 ⟨v, w, q⟩) s fun t =>
      t.reg (R.SCH_SETTLE n) = (BitVec.ofNat 32 v) ∧ t.bus = ⟨p, 0, false⟩ ∧ OnlyChanged s t [R.SCH_SETTLE n] [.bus]) ∧
  (∀ (s : State) (p v w q : Nat), s.silent p = false → s.fld F.PAT_STATUS_LOCKED = 1 →
    Answers (.registerWrite p false (R.MEM_THRESH) 4 ⟨v, w, q⟩) s fun t =>
      t.fld F.MEM_THRESH_TEST_MAX = s.fld F.MEM_THRESH_TEST_MAX ∧ t.fld F.MEM_THRESH_RETIRE_WARN = v / 2 ^ 16 % 2 ^ 16 ∧
      t.bus = ⟨p, 0, false⟩) ∧
  (∀ (s : State) (p v w q : Nat), s.silent p = false → s.fld F.PAT_STATUS_LOCKED = 0 →
    Answers (.registerWrite p false (R.MEM_THRESH) 4 ⟨v, w, q⟩) s fun t =>
      t.fld F.MEM_THRESH_RETIRE_WARN = v / 2 ^ 16 % 2 ^ 16 ∧ t.bus = ⟨p, 0, false⟩ ∧ OnlyChanged s t [R.MEM_THRESH] [.bus]) ∧
  (∀ (s : State) (p v w q : Nat), s.silent p = false →
    Answers (.registerWrite p false (R.SRM_EVENTS) 4 ⟨v, w, q⟩) s fun t =>
      t.reg R.SRM_EVENTS = (s.reg R.SRM_EVENTS &&& ~~~((BitVec.ofNat 32 v) &&& 0xF)) ||| (BitVec.ofNat 32 w &&& 0xF) ∧
      t.bus = ⟨p, 0, false⟩ ∧ OnlyChanged s t [R.SRM_EVENTS] [.bus]) ∧
  (∀ (s : State) (p v w q : Nat), s.silent p = false → Answers (.registerWrite p false (R.KEEP_PCC) 4 ⟨v, w, q⟩) s fun t =>
      t.reg R.KEEP_PCC = s.reg R.KEEP_PCC ∧ t.bus = ⟨p, 0, false⟩ ∧ OnlyChanged s t [] [.bus]) ∧
  (∀ (s : State) (p a n v w q : Nat), p < 6 → s.pairs.length = 6 → s.pairRuns p = true → (s.pair p).halted = false →
    (s.pair p).stalled = [] → (s.pair p).undo.length + (storeWords a n).length ≤ 4096 → inSram a n = true →
    Answers (.registerWrite p false a n ⟨v, w, q⟩) s fun t =>
      memBytes a n t.sram = leBytes n v ∧ (∀ x, (x < a ∨ a + n ≤ x) → memByte x t.sram = memByte x s.sram) ∧
      (t.pair p).undo.length = (s.pair p).undo.length + (storeWords a n).length ∧ t.bus = ⟨p, 0, false⟩ ∧
      OnlyChanged s t [] [.bus, .pairs, .sram]) ∧
  (∀ (s : State) (p a n v w q : Nat), s.silent p = true → Answers (.registerWrite p false a n ⟨v, w, q⟩) s fun t =>
      t = s) ∧
  (∀ (s : State) (p : Nat), s.silent p = false → Answers (.registerRead p R.SNG_SEED 4) s fun t =>
      t.bus = ⟨p, (s.reg R.SNG_SEED).toNat, false⟩ ∧ OnlyChanged s t [] [.bus]) ∧
  (∀ (s : State) (p n : Nat), s.silent p = false → n < 2 → Answers (.registerRead p (R.SCH_SETTLE n) 4) s fun t =>
      t.bus = ⟨p, (s.reg (R.SCH_SETTLE n)).toNat, false⟩ ∧ OnlyChanged s t [] [.bus]) ∧
  (∀ (s : State) (p a n : Nat), s.silent p = false → inSram a n = true → Answers (.registerRead p a n) s fun t =>
      t.bus = ⟨p, ofLe (memBytes a n s.sram), false⟩ ∧ OnlyChanged s t [] [.bus]) ∧
  (∀ (s : State) (p a n : Nat), s.silent p = true → Answers (.registerRead p a n) s fun t =>
      t = s) ∧
  (∀ (s : State), Answers (.statActRelease) s fun t =>
      t.pins.statActN = .hiZ ∧ t.pins.statRdy = s.pins.statRdy ∧ t.pins.statFaultN = s.pins.statFaultN ∧
      OnlyChanged s t [] [.pins])
end

