-- ==== Sys2Proof/Laws/Addresses.lean ====
section
/-!
SUPPORT. Sys2Proof/Laws/Addresses.lean: the register each field is in.
-/

namespace Sys2Proof.Machine

@[simp] theorem Fld.at_addr (f : Fld) (i : Nat) : (f.at i).addr = f.addr := rfl
@[simp] theorem Fld.at_lo (f : Fld) (i : Nat) : (f.at i).lo = f.lo + i := rfl
@[simp] theorem Fld.at_width (f : Fld) (i : Nat) : (f.at i).width = 1 := rfl

@[simp] theorem Fld.ite_addr (c : Prop) [Decidable c] (f g : Fld) : (if c then f else g).addr = if c then f.addr else g.addr := by
  split <;> rfl

@[simp] theorem F.SYS_CAP_LO_ACT_A_addr : F.SYS_CAP_LO_ACT_A.addr = R.SYS_CAP_LO := id rfl
@[simp] theorem F.SYS_CAP_LO_ACT_B_addr : F.SYS_CAP_LO_ACT_B.addr = R.SYS_CAP_LO := id rfl
@[simp] theorem F.SYS_CAP_LO_NDL_A_addr : F.SYS_CAP_LO_NDL_A.addr = R.SYS_CAP_LO := id rfl
@[simp] theorem F.SYS_CAP_LO_NDL_B_addr : F.SYS_CAP_LO_NDL_B.addr = R.SYS_CAP_LO := id rfl
@[simp] theorem F.SYS_CAP_LO_NDL_C_addr : F.SYS_CAP_LO_NDL_C.addr = R.SYS_CAP_LO := id rfl
@[simp] theorem F.SYS_CAP_LO_SLICE_PRESENT_addr : F.SYS_CAP_LO_SLICE_PRESENT.addr = R.SYS_CAP_LO := id rfl
@[simp] theorem F.SYS_CAP_LO_ASSIST_LASER_addr : F.SYS_CAP_LO_ASSIST_LASER.addr = R.SYS_CAP_LO := id rfl
@[simp] theorem F.SYS_CAP_LO_ASSIST_STO_addr : F.SYS_CAP_LO_ASSIST_STO.addr = R.SYS_CAP_LO := id rfl
@[simp] theorem F.SYS_CAP_LO_CIPHER_addr : F.SYS_CAP_LO_CIPHER.addr = R.SYS_CAP_LO := id rfl
@[simp] theorem F.SYS_CAP_LO_HOOK_addr : F.SYS_CAP_LO_HOOK.addr = R.SYS_CAP_LO := id rfl
@[simp] theorem F.SYS_CAP_LO_TIRIUM_addr : F.SYS_CAP_LO_TIRIUM.addr = R.SYS_CAP_LO := id rfl
@[simp] theorem F.SYS_CAP_LO_SPARE_PAIR_addr : F.SYS_CAP_LO_SPARE_PAIR.addr = R.SYS_CAP_LO := id rfl
@[simp] theorem F.SYS_CAP_LO_FRONT_PAIRS_addr : F.SYS_CAP_LO_FRONT_PAIRS.addr = R.SYS_CAP_LO := id rfl
@[simp] theorem F.SYS_CAP_LO_MEDIA_PAIRS_addr : F.SYS_CAP_LO_MEDIA_PAIRS.addr = R.SYS_CAP_LO := id rfl
@[simp] theorem F.SYS_CAP_LO_SNAG_addr : F.SYS_CAP_LO_SNAG.addr = R.SYS_CAP_LO := id rfl
@[simp] theorem F.SYS_CAP_HI_DEVICE_ID_addr : F.SYS_CAP_HI_DEVICE_ID.addr = R.SYS_CAP_HI := id rfl
@[simp] theorem F.SYS_CAP_HI_VARIANT_addr : F.SYS_CAP_HI_VARIANT.addr = R.SYS_CAP_HI := id rfl
@[simp] theorem F.SYS_CAP_HI_N_SUFFIX_addr : F.SYS_CAP_HI_N_SUFFIX.addr = R.SYS_CAP_HI := id rfl
@[simp] theorem F.SYS_CAP_HI_STEPPING_addr : F.SYS_CAP_HI_STEPPING.addr = R.SYS_CAP_HI := id rfl
@[simp] theorem F.SYS_PAIR_STATUS_FRONT_0_addr : F.SYS_PAIR_STATUS_FRONT_0.addr = R.SYS_PAIR_STATUS := id rfl
@[simp] theorem F.SYS_PAIR_STATUS_FRONT_1_addr : F.SYS_PAIR_STATUS_FRONT_1.addr = R.SYS_PAIR_STATUS := id rfl
@[simp] theorem F.SYS_PAIR_STATUS_FRONT_2_addr : F.SYS_PAIR_STATUS_FRONT_2.addr = R.SYS_PAIR_STATUS := id rfl
@[simp] theorem F.SYS_PAIR_STATUS_MEDIA_0_addr : F.SYS_PAIR_STATUS_MEDIA_0.addr = R.SYS_PAIR_STATUS := id rfl
@[simp] theorem F.SYS_PAIR_STATUS_MEDIA_1_addr : F.SYS_PAIR_STATUS_MEDIA_1.addr = R.SYS_PAIR_STATUS := id rfl
@[simp] theorem F.SYS_PAIR_STATUS_SPARE_addr : F.SYS_PAIR_STATUS_SPARE.addr = R.SYS_PAIR_STATUS := id rfl
@[simp] theorem F.SYS_PAIR_STATUS_SPARE_FOR_addr : F.SYS_PAIR_STATUS_SPARE_FOR.addr = R.SYS_PAIR_STATUS := id rfl
@[simp] theorem F.ROWT_CTRL_MASTER_addr : F.ROWT_CTRL_MASTER.addr = R.ROWT_CTRL := id rfl
@[simp] theorem F.ROWT_CTRL_WEDGE_WIN_addr : F.ROWT_CTRL_WEDGE_WIN.addr = R.ROWT_CTRL := id rfl
@[simp] theorem F.ROWT_CTRL_FLYWHEEL_MAX_addr : F.ROWT_CTRL_FLYWHEEL_MAX.addr = R.ROWT_CTRL := id rfl
@[simp] theorem F.ROWT_STATUS_SOURCE_addr : F.ROWT_STATUS_SOURCE.addr = R.ROWT_STATUS := id rfl
@[simp] theorem F.ROWT_STATUS_LOCK_A_addr : F.ROWT_STATUS_LOCK_A.addr = R.ROWT_STATUS := id rfl
@[simp] theorem F.ROWT_STATUS_LOCK_B_addr : F.ROWT_STATUS_LOCK_B.addr = R.ROWT_STATUS := id rfl
@[simp] theorem F.ROWT_STATUS_GUARD_addr : F.ROWT_STATUS_GUARD.addr = R.ROWT_STATUS := id rfl
@[simp] theorem F.ROWT_STATUS_HANDOVER_PEND_addr : F.ROWT_STATUS_HANDOVER_PEND.addr = R.ROWT_STATUS := id rfl
@[simp] theorem F.ROWT_STATUS_OFFSET_VALID_addr : F.ROWT_STATUS_OFFSET_VALID.addr = R.ROWT_STATUS := id rfl
@[simp] theorem F.ROWT_STATUS_EARLY_SEEN_addr : F.ROWT_STATUS_EARLY_SEEN.addr = R.ROWT_STATUS := id rfl
@[simp] theorem F.ROWT_STATUS_FLYWHEEL_SEEN_addr : F.ROWT_STATUS_FLYWHEEL_SEEN.addr = R.ROWT_STATUS := id rfl
@[simp] theorem F.ROWT_STATUS_IDLE_FALLBACK_addr : F.ROWT_STATUS_IDLE_FALLBACK.addr = R.ROWT_STATUS := id rfl
@[simp] theorem F.ROWT_COUNT_LO_COUNT_LO_addr : F.ROWT_COUNT_LO_COUNT_LO.addr = R.ROWT_COUNT_LO := id rfl
@[simp] theorem F.ROWT_COUNT_HI_COUNT_HI_addr : F.ROWT_COUNT_HI_COUNT_HI.addr = R.ROWT_COUNT_HI := id rfl
@[simp] theorem F.ROWT_PERIOD_PERIOD_PS_addr : F.ROWT_PERIOD_PERIOD_PS.addr = R.ROWT_PERIOD := id rfl
@[simp] theorem F.ROWT_IDLE_PERIOD_PERIOD_PS_addr : F.ROWT_IDLE_PERIOD_PERIOD_PS.addr = R.ROWT_IDLE_PERIOD := id rfl
@[simp] theorem F.ROWT_AB_OFFSET_OFFSET_NS_addr : F.ROWT_AB_OFFSET_OFFSET_NS.addr = R.ROWT_AB_OFFSET := id rfl
@[simp] theorem F.ROWT_FAULTS_MISSED_WEDGE_addr : F.ROWT_FAULTS_MISSED_WEDGE.addr = R.ROWT_FAULTS := id rfl
@[simp] theorem F.ROWT_FAULTS_EARLY_BOUNDARY_addr : F.ROWT_FAULTS_EARLY_BOUNDARY.addr = R.ROWT_FAULTS := id rfl
@[simp] theorem F.ROWT_FAULTS_IDLE_ENTRIES_addr : F.ROWT_FAULTS_IDLE_ENTRIES.addr = R.ROWT_FAULTS := id rfl
@[simp] theorem F.PAT_STATUS_STATE_addr : F.PAT_STATUS_STATE.addr = R.PAT_STATUS := id rfl
@[simp] theorem F.PAT_STATUS_LOCKED_addr : F.PAT_STATUS_LOCKED.addr = R.PAT_STATUS := id rfl
@[simp] theorem F.PAT_STATUS_LEGACY_addr : F.PAT_STATUS_LEGACY.addr = R.PAT_STATUS := id rfl
@[simp] theorem F.PAT_STATUS_RELOAD_BUSY_addr : F.PAT_STATUS_RELOAD_BUSY.addr = R.PAT_STATUS := id rfl
@[simp] theorem F.PAT_STATUS_RELOAD_PEND_addr : F.PAT_STATUS_RELOAD_PEND.addr = R.PAT_STATUS := id rfl
@[simp] theorem F.PAT_STATUS_RELOAD_DONE_addr : F.PAT_STATUS_RELOAD_DONE.addr = R.PAT_STATUS := id rfl
@[simp] theorem F.PAT_STATUS_ERROR_addr : F.PAT_STATUS_ERROR.addr = R.PAT_STATUS := id rfl
@[simp] theorem F.PAT_STATUS_RELOAD_ERR_addr : F.PAT_STATUS_RELOAD_ERR.addr = R.PAT_STATUS := id rfl
@[simp] theorem F.PAT_STATUS_ERROR_ALT_addr : F.PAT_STATUS_ERROR_ALT.addr = R.PAT_STATUS := id rfl
@[simp] theorem F.PAT_CTRL_LOCK_addr : F.PAT_CTRL_LOCK.addr = R.PAT_CTRL := id rfl
@[simp] theorem F.PAT_CTRL_RELOAD_addr : F.PAT_CTRL_RELOAD.addr = R.PAT_CTRL := id rfl
@[simp] theorem F.PAT_CTRL_CANCEL_addr : F.PAT_CTRL_CANCEL.addr = R.PAT_CTRL := id rfl
@[simp] theorem F.PAT_RELOAD_ADDR_ADDR_addr : F.PAT_RELOAD_ADDR_ADDR.addr = R.PAT_RELOAD_ADDR := id rfl
@[simp] theorem F.PAT_ERR_LOC_PANEL_addr : F.PAT_ERR_LOC_PANEL.addr = R.PAT_ERR_LOC := id rfl
@[simp] theorem F.PAT_ERR_LOC_ENTRY_addr : F.PAT_ERR_LOC_ENTRY.addr = R.PAT_ERR_LOC := id rfl
@[simp] theorem F.PAT_ID_ID_addr : F.PAT_ID_ID.addr = R.PAT_ID := id rfl
@[simp] theorem F.PAT_SVN_LO_SVN_LO_addr : F.PAT_SVN_LO_SVN_LO.addr = R.PAT_SVN_LO := id rfl
@[simp] theorem F.PAT_SVN_HI_SVN_HI_addr : F.PAT_SVN_HI_SVN_HI.addr = R.PAT_SVN_HI := id rfl
@[simp] theorem F.PAT_GEOM_CRC_CRC_addr : F.PAT_GEOM_CRC_CRC.addr = R.PAT_GEOM_CRC := id rfl
@[simp] theorem F.PAT_DIGEST_DIGEST_addr (n : Nat) : (F.PAT_DIGEST_DIGEST n).addr = R.PAT_DIGEST n := id rfl
@[simp] theorem F.PAT_RT_DIGEST_DIGEST_addr (n : Nat) : (F.PAT_RT_DIGEST_DIGEST n).addr = R.PAT_RT_DIGEST n := id rfl
@[simp] theorem F.SYS_BALL_FUNC_GPIO_FN_addr : F.SYS_BALL_FUNC_GPIO_FN.addr = R.SYS_BALL_FUNC := id rfl
@[simp] theorem F.SYS_BALL_FUNC_TRACE_FN_addr : F.SYS_BALL_FUNC_TRACE_FN.addr = R.SYS_BALL_FUNC := id rfl
@[simp] theorem F.SYS_BALL_FUNC_STATUS_FN_addr : F.SYS_BALL_FUNC_STATUS_FN.addr = R.SYS_BALL_FUNC := id rfl
@[simp] theorem F.SYS_BALL_FUNC_PORT1_SB_FN_addr : F.SYS_BALL_FUNC_PORT1_SB_FN.addr = R.SYS_BALL_FUNC := id rfl
@[simp] theorem F.SYS_BALL_FUNC_SIDEBAND_FN_addr : F.SYS_BALL_FUNC_SIDEBAND_FN.addr = R.SYS_BALL_FUNC := id rfl
@[simp] theorem F.SYS_GPIO_OUT_OUT_addr : F.SYS_GPIO_OUT_OUT.addr = R.SYS_GPIO_OUT := id rfl
@[simp] theorem F.SYS_GPIO_OE_OE_addr : F.SYS_GPIO_OE_OE.addr = R.SYS_GPIO_OE := id rfl
@[simp] theorem F.SYS_GPIO_IN_IN_addr : F.SYS_GPIO_IN_IN.addr = R.SYS_GPIO_IN := id rfl
@[simp] theorem F.PWR_STATUS_VIN12_OK_addr : F.PWR_STATUS_VIN12_OK.addr = R.PWR_STATUS := id rfl
@[simp] theorem F.PWR_STATUS_VIN5_OK_addr : F.PWR_STATUS_VIN5_OK.addr = R.PWR_STATUS := id rfl
@[simp] theorem F.PWR_STATUS_SW12_ON_addr : F.PWR_STATUS_SW12_ON.addr = R.PWR_STATUS := id rfl
@[simp] theorem F.PWR_STATUS_SW5_ON_addr : F.PWR_STATUS_SW5_ON.addr = R.PWR_STATUS := id rfl
@[simp] theorem F.PWR_STATUS_SPINUP_LIMITING_addr : F.PWR_STATUS_SPINUP_LIMITING.addr = R.PWR_STATUS := id rfl
@[simp] theorem F.PWR_STATUS_RAIL_PG_addr : F.PWR_STATUS_RAIL_PG.addr = R.PWR_STATUS := id rfl
@[simp] theorem F.PWR_CTRL_SPINUP_MA_addr : F.PWR_CTRL_SPINUP_MA.addr = R.PWR_CTRL := id rfl
@[simp] theorem F.PWR_VIN_VIN12_MV_addr : F.PWR_VIN_VIN12_MV.addr = R.PWR_VIN := id rfl
@[simp] theorem F.PWR_VIN_VIN5_MV_addr : F.PWR_VIN_VIN5_MV.addr = R.PWR_VIN := id rfl
@[simp] theorem F.PWR_IIN_IIN12_MA_addr : F.PWR_IIN_IIN12_MA.addr = R.PWR_IIN := id rfl
@[simp] theorem F.PWR_IIN_IIN5_MA_addr : F.PWR_IIN_IIN5_MA.addr = R.PWR_IIN := id rfl
@[simp] theorem F.PWR_EVENTS_REV12_addr : F.PWR_EVENTS_REV12.addr = R.PWR_EVENTS := id rfl
@[simp] theorem F.PWR_EVENTS_REV5_addr : F.PWR_EVENTS_REV5.addr = R.PWR_EVENTS := id rfl
@[simp] theorem F.PWR_EVENTS_INRUSH_TIMEOUT_addr : F.PWR_EVENTS_INRUSH_TIMEOUT.addr = R.PWR_EVENTS := id rfl
@[simp] theorem F.PWR_EVENTS_GLITCH_addr : F.PWR_EVENTS_GLITCH.addr = R.PWR_EVENTS := id rfl
@[simp] theorem F.PWR_EVENTS_EARLY_LOSS_addr : F.PWR_EVENTS_EARLY_LOSS.addr = R.PWR_EVENTS := id rfl
@[simp] theorem F.KEEP_MODEL_MIN_PCT_addr : F.KEEP_MODEL_MIN_PCT.addr = R.KEEP_MODEL := id rfl
@[simp] theorem F.KEEP_MODEL_RESERVE_PCT_addr : F.KEEP_MODEL_RESERVE_PCT.addr = R.KEEP_MODEL := id rfl
@[simp] theorem F.KEEP_MODEL_DIRTY_CEILING_MIB_addr : F.KEEP_MODEL_DIRTY_CEILING_MIB.addr = R.KEEP_MODEL := id rfl
@[simp] theorem F.KEEP_INERTIA_INERTIA_addr : F.KEEP_INERTIA_INERTIA.addr = R.KEEP_INERTIA := id rfl
@[simp] theorem F.KEEP_DRAG_DRAG_MW_addr : F.KEEP_DRAG_DRAG_MW.addr = R.KEEP_DRAG := id rfl
@[simp] theorem F.KEEP_ENERGY_E_MECH_MJ_addr : F.KEEP_ENERGY_E_MECH_MJ.addr = R.KEEP_ENERGY := id rfl
@[simp] theorem F.KEEP_CEILING_ENERGY_MIB_addr : F.KEEP_CEILING_ENERGY_MIB.addr = R.KEEP_CEILING := id rfl
@[simp] theorem F.KEEP_CEILING_EFFECTIVE_MIB_addr : F.KEEP_CEILING_EFFECTIVE_MIB.addr = R.KEEP_CEILING := id rfl
@[simp] theorem F.KEEP_DIRTY_PAGES_addr : F.KEEP_DIRTY_PAGES.addr = R.KEEP_DIRTY := id rfl
@[simp] theorem F.KEEP_STATUS_EARLY_SAVE_addr : F.KEEP_STATUS_EARLY_SAVE.addr = R.KEEP_STATUS := id rfl
@[simp] theorem F.KEEP_STATUS_ENERGY_HOLD_addr : F.KEEP_STATUS_ENERGY_HOLD.addr = R.KEEP_STATUS := id rfl
@[simp] theorem F.KEEP_STATUS_SAVE_PRESENT_addr : F.KEEP_STATUS_SAVE_PRESENT.addr = R.KEEP_STATUS := id rfl
@[simp] theorem F.KEEP_STATUS_RESTORE_LOSS_addr : F.KEEP_STATUS_RESTORE_LOSS.addr = R.KEEP_STATUS := id rfl
@[simp] theorem F.KEEP_PCC_COUNT_addr : F.KEEP_PCC_COUNT.addr = R.KEEP_PCC := id rfl
@[simp] theorem F.KEEP_OPTIME_LO_MS_LO_addr : F.KEEP_OPTIME_LO_MS_LO.addr = R.KEEP_OPTIME_LO := id rfl
@[simp] theorem F.KEEP_OPTIME_HI_MS_HI_addr : F.KEEP_OPTIME_HI_MS_HI.addr = R.KEEP_OPTIME_HI := id rfl
@[simp] theorem F.KEEP_BO_LAST_RESULT_addr : F.KEEP_BO_LAST_RESULT.addr = R.KEEP_BO_LAST := id rfl
@[simp] theorem F.KEEP_BO_LAST_SAVED_MIB_addr : F.KEEP_BO_LAST_SAVED_MIB.addr = R.KEEP_BO_LAST := id rfl
@[simp] theorem F.KEEP_BO_LAST_END_SPEED_PCT_addr : F.KEEP_BO_LAST_END_SPEED_PCT.addr = R.KEEP_BO_LAST := id rfl
@[simp] theorem F.SYS_RST_CAUSE_LAST_addr : F.SYS_RST_CAUSE_LAST.addr = R.SYS_RST_CAUSE := id rfl
@[simp] theorem F.SYS_RST_CAUSE_WDOG_PAIR_addr : F.SYS_RST_CAUSE_WDOG_PAIR.addr = R.SYS_RST_CAUSE := id rfl
@[simp] theorem F.SYS_RST_CAUSE_WARM_COUNT_addr : F.SYS_RST_CAUSE_WARM_COUNT.addr = R.SYS_RST_CAUSE := id rfl
@[simp] theorem F.SYS_RST_CTRL_WARM_addr : F.SYS_RST_CTRL_WARM.addr = R.SYS_RST_CTRL := id rfl
@[simp] theorem F.SYS_RST_CTRL_RELEASE_addr : F.SYS_RST_CTRL_RELEASE.addr = R.SYS_RST_CTRL := id rfl
@[simp] theorem F.SYS_RST_CTRL_KEY_addr : F.SYS_RST_CTRL_KEY.addr = R.SYS_RST_CTRL := id rfl
@[simp] theorem F.SYS_WDOG_PERIOD_addr : F.SYS_WDOG_PERIOD.addr = R.SYS_WDOG := id rfl
@[simp] theorem F.SYS_WDOG_PAIRS_addr : F.SYS_WDOG_PAIRS.addr = R.SYS_WDOG := id rfl
@[simp] theorem F.SYS_WDOG_KICK_KICK_addr : F.SYS_WDOG_KICK_KICK.addr = R.SYS_WDOG_KICK := id rfl
@[simp] theorem F.SYS_CASTON_PHASE_addr : F.SYS_CASTON_PHASE.addr = R.SYS_CASTON := id rfl
@[simp] theorem F.SYS_CASTON_HOST_READY_addr : F.SYS_CASTON_HOST_READY.addr = R.SYS_CASTON := id rfl
@[simp] theorem F.SYS_CASTON_ERROR_addr : F.SYS_CASTON_ERROR.addr = R.SYS_CASTON := id rfl
@[simp] theorem F.SYS_CASTON_TIME_MS_addr : F.SYS_CASTON_TIME_MS.addr = R.SYS_CASTON_TIME := id rfl
@[simp] theorem F.SPN_CMD_START_addr : F.SPN_CMD_START.addr = R.SPN_CMD := id rfl
@[simp] theorem F.SPN_CMD_STOP_addr : F.SPN_CMD_STOP.addr = R.SPN_CMD := id rfl
@[simp] theorem F.SPN_CMD_COAST_addr : F.SPN_CMD_COAST.addr = R.SPN_CMD := id rfl
@[simp] theorem F.SPN_CMD_CLEAR_addr : F.SPN_CMD_CLEAR.addr = R.SPN_CMD := id rfl
@[simp] theorem F.SPN_STATUS_STATE_addr : F.SPN_STATUS_STATE.addr = R.SPN_STATUS := id rfl
@[simp] theorem F.SPN_STATUS_WRITE_OK_addr : F.SPN_STATUS_WRITE_OK.addr = R.SPN_STATUS := id rfl
@[simp] theorem F.SPN_STATUS_OBS_LOCK_addr : F.SPN_STATUS_OBS_LOCK.addr = R.SPN_STATUS := id rfl
@[simp] theorem F.SPN_STATUS_SERVO_VALID_addr : F.SPN_STATUS_SERVO_VALID.addr = R.SPN_STATUS := id rfl
@[simp] theorem F.SPN_STATUS_HOLD_MODE_addr : F.SPN_STATUS_HOLD_MODE.addr = R.SPN_STATUS := id rfl
@[simp] theorem F.SPN_STATUS_FW_ACTIVE_addr : F.SPN_STATUS_FW_ACTIVE.addr = R.SPN_STATUS := id rfl
@[simp] theorem F.SPN_STATUS_START_PEND_addr : F.SPN_STATUS_START_PEND.addr = R.SPN_STATUS := id rfl
@[simp] theorem F.SPN_STATUS_COAST_CAUSE_addr : F.SPN_STATUS_COAST_CAUSE.addr = R.SPN_STATUS := id rfl
@[simp] theorem F.SPN_STATUS_RETRY_addr : F.SPN_STATUS_RETRY.addr = R.SPN_STATUS := id rfl
@[simp] theorem F.SPN_STATUS_LOCK_CAUSE_addr : F.SPN_STATUS_LOCK_CAUSE.addr = R.SPN_STATUS := id rfl
@[simp] theorem F.SPN_STATUS_CMD_ERR_addr : F.SPN_STATUS_CMD_ERR.addr = R.SPN_STATUS := id rfl
@[simp] theorem F.SPN_SPEED_RPM_X100_addr : F.SPN_SPEED_RPM_X100.addr = R.SPN_SPEED := id rfl
@[simp] theorem F.SPN_SPEED_REVERSE_addr : F.SPN_SPEED_REVERSE.addr = R.SPN_SPEED := id rfl
@[simp] theorem F.SPN_SPEED_SOURCE_addr : F.SPN_SPEED_SOURCE.addr = R.SPN_SPEED := id rfl
@[simp] theorem F.SPN_UNC_UNC_addr : F.SPN_UNC_UNC.addr = R.SPN_UNC := id rfl
@[simp] theorem F.SPN_ANGLE_OBS_addr : F.SPN_ANGLE_OBS.addr = R.SPN_ANGLE := id rfl
@[simp] theorem F.SPN_ANGLE_SERVO_addr : F.SPN_ANGLE_SERVO.addr = R.SPN_ANGLE := id rfl
@[simp] theorem F.SPN_CURRENT_IQ_MA_addr : F.SPN_CURRENT_IQ_MA.addr = R.SPN_CURRENT := id rfl
@[simp] theorem F.SPN_CURRENT_ID_MA_addr : F.SPN_CURRENT_ID_MA.addr = R.SPN_CURRENT := id rfl
@[simp] theorem F.SPN_DRIVE_MARGIN_addr : F.SPN_DRIVE_MARGIN.addr = R.SPN_DRIVE := id rfl
@[simp] theorem F.SPN_CTRL_WR_TOL_addr : F.SPN_CTRL_WR_TOL.addr = R.SPN_CTRL := id rfl
@[simp] theorem F.SPN_CTRL_ALIGN_10MS_addr : F.SPN_CTRL_ALIGN_10MS.addr = R.SPN_CTRL := id rfl
@[simp] theorem F.SPN_CTRL_FORCED_ACC_addr : F.SPN_CTRL_FORCED_ACC.addr = R.SPN_CTRL := id rfl
@[simp] theorem F.SPN_CTRL_AUTO_CATCH_addr : F.SPN_CTRL_AUTO_CATCH.addr = R.SPN_CTRL := id rfl
@[simp] theorem F.SPN_ILIM_PHASE_MA_addr : F.SPN_ILIM_PHASE_MA.addr = R.SPN_ILIM := id rfl
@[simp] theorem F.SPN_ILIM_BRAKE_MA_addr : F.SPN_ILIM_BRAKE_MA.addr = R.SPN_ILIM := id rfl
@[simp] theorem F.SPN_FW_ID_MIN_MA_addr : F.SPN_FW_ID_MIN_MA.addr = R.SPN_FW := id rfl
@[simp] theorem F.SPN_MOTOR_0_R_MOHM_addr : F.SPN_MOTOR_0_R_MOHM.addr = R.SPN_MOTOR_0 := id rfl
@[simp] theorem F.SPN_MOTOR_0_L_UH10_addr : F.SPN_MOTOR_0_L_UH10.addr = R.SPN_MOTOR_0 := id rfl
@[simp] theorem F.SPN_MOTOR_1_PSI_UWB_addr : F.SPN_MOTOR_1_PSI_UWB.addr = R.SPN_MOTOR_1 := id rfl
@[simp] theorem F.SPN_SPEED_PI_KP_addr : F.SPN_SPEED_PI_KP.addr = R.SPN_SPEED_PI := id rfl
@[simp] theorem F.SPN_SPEED_PI_KI_addr : F.SPN_SPEED_PI_KI.addr = R.SPN_SPEED_PI := id rfl
@[simp] theorem F.SPN_CUR_PI_KP_addr : F.SPN_CUR_PI_KP.addr = R.SPN_CUR_PI := id rfl
@[simp] theorem F.SPN_CUR_PI_KI_addr : F.SPN_CUR_PI_KI.addr = R.SPN_CUR_PI := id rfl
@[simp] theorem F.SPN_SERVO_OFS_OFS_addr : F.SPN_SERVO_OFS_OFS.addr = R.SPN_SERVO_OFS := id rfl
@[simp] theorem F.SPN_SERVO_OFS_VALID_addr : F.SPN_SERVO_OFS_VALID.addr = R.SPN_SERVO_OFS := id rfl
@[simp] theorem F.SPN_EVENTS_EVENTS_addr : F.SPN_EVENTS_EVENTS.addr = R.SPN_EVENTS := id rfl
@[simp] theorem F.SPN_EV_OBS_LOST_addr : F.SPN_EV_OBS_LOST.addr = R.SPN_EVENTS := id rfl
@[simp] theorem F.SPN_EV_HOLD_ENTRY_addr : F.SPN_EV_HOLD_ENTRY.addr = R.SPN_EVENTS := id rfl
@[simp] theorem F.SPN_EV_RELOCK_addr : F.SPN_EV_RELOCK.addr = R.SPN_EVENTS := id rfl
@[simp] theorem F.SPN_EV_COAST_ENTRY_addr : F.SPN_EV_COAST_ENTRY.addr = R.SPN_EVENTS := id rfl
@[simp] theorem F.SPN_EV_LOCKED_addr : F.SPN_EV_LOCKED.addr = R.SPN_EVENTS := id rfl
@[simp] theorem F.SPN_EV_RETRY_addr : F.SPN_EV_RETRY.addr = R.SPN_EVENTS := id rfl
@[simp] theorem F.SPN_EV_REVERSE_SEEN_addr : F.SPN_EV_REVERSE_SEEN.addr = R.SPN_EVENTS := id rfl
@[simp] theorem F.SPN_EV_FW_ENTRY_addr : F.SPN_EV_FW_ENTRY.addr = R.SPN_EVENTS := id rfl
@[simp] theorem F.SPN_EV_CMD_REFUSED_addr : F.SPN_EV_CMD_REFUSED.addr = R.SPN_EVENTS := id rfl
@[simp] theorem F.SPN_EV_WRITE_INHIBIT_addr : F.SPN_EV_WRITE_INHIBIT.addr = R.SPN_EVENTS := id rfl
@[simp] theorem F.SPN_COUNTS_HOLD_COUNT_addr : F.SPN_COUNTS_HOLD_COUNT.addr = R.SPN_COUNTS := id rfl
@[simp] theorem F.SPN_COUNTS_COAST_COUNT_addr : F.SPN_COUNTS_COAST_COUNT.addr = R.SPN_COUNTS := id rfl
@[simp] theorem F.SPN_COUNTS_LOCKED_COUNT_addr : F.SPN_COUNTS_LOCKED_COUNT.addr = R.SPN_COUNTS := id rfl
@[simp] theorem F.SPN_SINE_ENTRY_EVEN_addr (n : Nat) : (F.SPN_SINE_ENTRY_EVEN n).addr = R.SPN_SINE n := id rfl
@[simp] theorem F.SPN_SINE_ENTRY_ODD_addr (n : Nat) : (F.SPN_SINE_ENTRY_ODD n).addr = R.SPN_SINE n := id rfl
@[simp] theorem F.NDL_CTRL_MISS_MAX_addr (i : Nat) : (F.NDL_CTRL_MISS_MAX i).addr = R.NDL_CTRL i := id rfl
@[simp] theorem F.NDL_CTRL_HOLD_ROWS_addr (i : Nat) : (F.NDL_CTRL_HOLD_ROWS i).addr = R.NDL_CTRL i := id rfl
@[simp] theorem F.NDL_CTRL_PROFILE_FALLBACK_addr (i : Nat) : (F.NDL_CTRL_PROFILE_FALLBACK i).addr = R.NDL_CTRL i := id rfl
@[simp] theorem F.NDL_CTRL_DISABLE_addr (i : Nat) : (F.NDL_CTRL_DISABLE i).addr = R.NDL_CTRL i := id rfl
@[simp] theorem F.NDL_STATUS_MODE_addr (i : Nat) : (F.NDL_STATUS_MODE i).addr = R.NDL_STATUS i := id rfl
@[simp] theorem F.NDL_STATUS_LOCK_addr (i : Nat) : (F.NDL_STATUS_LOCK i).addr = R.NDL_STATUS i := id rfl
@[simp] theorem F.NDL_STATUS_POS_OK_addr (i : Nat) : (F.NDL_STATUS_POS_OK i).addr = R.NDL_STATUS i := id rfl
@[simp] theorem F.NDL_STATUS_ROLE_addr (i : Nat) : (F.NDL_STATUS_ROLE i).addr = R.NDL_STATUS i := id rfl
@[simp] theorem F.NDL_STATUS_ACT_addr (i : Nat) : (F.NDL_STATUS_ACT i).addr = R.NDL_STATUS i := id rfl
@[simp] theorem F.NDL_STATUS_BANK_addr (i : Nat) : (F.NDL_STATUS_BANK i).addr = R.NDL_STATUS i := id rfl
@[simp] theorem F.NDL_STATUS_OVR_RUN_addr (i : Nat) : (F.NDL_STATUS_OVR_RUN i).addr = R.NDL_STATUS i := id rfl
@[simp] theorem F.NDL_STATUS_TRANSFER_PEND_addr (i : Nat) : (F.NDL_STATUS_TRANSFER_PEND i).addr = R.NDL_STATUS i := id rfl
@[simp] theorem F.NDL_STATUS_HOLD_CMD_addr (i : Nat) : (F.NDL_STATUS_HOLD_CMD i).addr = R.NDL_STATUS i := id rfl
@[simp] theorem F.NDL_FLAGS_FLAGS_addr (i : Nat) : (F.NDL_FLAGS_FLAGS i).addr = R.NDL_FLAGS i := id rfl
@[simp] theorem F.NDL_FLAG_OVR_addr (i : Nat) : (F.NDL_FLAG_OVR i).addr = R.NDL_FLAGS i := id rfl
@[simp] theorem F.NDL_FLAG_MISS_addr (i : Nat) : (F.NDL_FLAG_MISS i).addr = R.NDL_FLAGS i := id rfl
@[simp] theorem F.NDL_FLAG_SAT_addr (i : Nat) : (F.NDL_FLAG_SAT i).addr = R.NDL_FLAGS i := id rfl
@[simp] theorem F.NDL_FLAG_MBX_REFUSED_addr (i : Nat) : (F.NDL_FLAG_MBX_REFUSED i).addr = R.NDL_FLAGS i := id rfl
@[simp] theorem F.NDL_FLAG_PROFILE_STEP_addr (i : Nat) : (F.NDL_FLAG_PROFILE_STEP i).addr = R.NDL_FLAGS i := id rfl
@[simp] theorem F.NDL_FLAG_PRESET_FAIL_addr (i : Nat) : (F.NDL_FLAG_PRESET_FAIL i).addr = R.NDL_FLAGS i := id rfl
@[simp] theorem F.NDL_FLAG_SETTLE_TIMEOUT_addr (i : Nat) : (F.NDL_FLAG_SETTLE_TIMEOUT i).addr = R.NDL_FLAGS i := id rfl
@[simp] theorem F.NDL_FLAG_DISABLE_REFUSED_addr (i : Nat) : (F.NDL_FLAG_DISABLE_REFUSED i).addr = R.NDL_FLAGS i := id rfl
@[simp] theorem F.NDL_FLAG_INT_CHECK_addr (i : Nat) : (F.NDL_FLAG_INT_CHECK i).addr = R.NDL_FLAGS i := id rfl
@[simp] theorem F.NDL_COUNTS_OVR_COUNT_addr (i : Nat) : (F.NDL_COUNTS_OVR_COUNT i).addr = R.NDL_COUNTS i := id rfl
@[simp] theorem F.NDL_COUNTS_MISS_COUNT_addr (i : Nat) : (F.NDL_COUNTS_MISS_COUNT i).addr = R.NDL_COUNTS i := id rfl
@[simp] theorem F.NDL_SP_POS_POS_addr (i : Nat) : (F.NDL_SP_POS_POS i).addr = R.NDL_SP_POS i := id rfl
@[simp] theorem F.NDL_SP_VEL_VEL_addr (i : Nat) : (F.NDL_SP_VEL_VEL i).addr = R.NDL_SP_VEL i := id rfl
@[simp] theorem F.NDL_SP_ACC_ACC_addr (i : Nat) : (F.NDL_SP_ACC_ACC i).addr = R.NDL_SP_ACC i := id rfl
@[simp] theorem F.NDL_TARGET_TARGET_addr (i : Nat) : (F.NDL_TARGET_TARGET i).addr = R.NDL_TARGET i := id rfl
@[simp] theorem F.NDL_OFFSET_OFFSET_addr (i : Nat) : (F.NDL_OFFSET_OFFSET i).addr = R.NDL_OFFSET i := id rfl
@[simp] theorem F.NDL_POSITION_POS_addr (i : Nat) : (F.NDL_POSITION_POS i).addr = R.NDL_POSITION i := id rfl
@[simp] theorem F.NDL_ERR_ERR_addr (i : Nat) : (F.NDL_ERR_ERR i).addr = R.NDL_ERR i := id rfl
@[simp] theorem F.NDL_OUT_VCM_addr (i : Nat) : (F.NDL_OUT_VCM i).addr = R.NDL_OUT i := id rfl
@[simp] theorem F.NDL_OUT_MA_addr (i : Nat) : (F.NDL_OUT_MA i).addr = R.NDL_OUT i := id rfl
@[simp] theorem F.NDL_MANUAL_VCM_addr (i : Nat) : (F.NDL_MANUAL_VCM i).addr = R.NDL_MANUAL i := id rfl
@[simp] theorem F.NDL_MANUAL_MA_addr (i : Nat) : (F.NDL_MANUAL_MA i).addr = R.NDL_MANUAL i := id rfl
@[simp] theorem F.NDL_SETTLE_WIN_addr (i : Nat) : (F.NDL_SETTLE_WIN i).addr = R.NDL_SETTLE i := id rfl
@[simp] theorem F.NDL_SETTLE_ROWS_addr (i : Nat) : (F.NDL_SETTLE_ROWS i).addr = R.NDL_SETTLE i := id rfl
@[simp] theorem F.NDL_WRFAULT_THRESH_addr (i : Nat) : (F.NDL_WRFAULT_THRESH i).addr = R.NDL_WRFAULT i := id rfl
@[simp] theorem F.NDL_TIMING_LAST_NS_addr (i : Nat) : (F.NDL_TIMING_LAST_NS i).addr = R.NDL_TIMING i := id rfl
@[simp] theorem F.NDL_TIMING_WORST_NS_addr (i : Nat) : (F.NDL_TIMING_WORST_NS i).addr = R.NDL_TIMING i := id rfl
@[simp] theorem F.NDL_GRAPH_COST_addr (i : Nat) : (F.NDL_GRAPH_COST i).addr = R.NDL_GRAPH i := id rfl
@[simp] theorem F.NDL_GRAPH_BLOCKS_addr (i : Nat) : (F.NDL_GRAPH_BLOCKS i).addr = R.NDL_GRAPH i := id rfl
@[simp] theorem F.NDL_UCODE_LEVEL_CUR_addr (i : Nat) : (F.NDL_UCODE_LEVEL_CUR i).addr = R.NDL_UCODE i := id rfl
@[simp] theorem F.NDL_UCODE_LEVEL_ALT_addr (i : Nat) : (F.NDL_UCODE_LEVEL_ALT i).addr = R.NDL_UCODE i := id rfl
@[simp] theorem F.NDL_BUMP_VCM_STEP_addr (i : Nat) : (F.NDL_BUMP_VCM_STEP i).addr = R.NDL_BUMP i := id rfl
@[simp] theorem F.NDL_BUMP_MA_STEP_addr (i : Nat) : (F.NDL_BUMP_MA_STEP i).addr = R.NDL_BUMP i := id rfl
@[simp] theorem F.NDL_MBX_STATUS_CREDITS_addr (i : Nat) : (F.NDL_MBX_STATUS_CREDITS i).addr = R.NDL_MBX_STATUS i := id rfl
@[simp] theorem F.NDL_MBX_STATUS_LAST_RESULT_addr (i : Nat) : (F.NDL_MBX_STATUS_LAST_RESULT i).addr = R.NDL_MBX_STATUS i := id rfl
@[simp] theorem F.NDL_MBX_STATUS_LAST_TAG_addr (i : Nat) : (F.NDL_MBX_STATUS_LAST_TAG i).addr = R.NDL_MBX_STATUS i := id rfl
@[simp] theorem F.NDL_MBX_W0_W0_addr (i : Nat) : (F.NDL_MBX_W0_W0 i).addr = R.NDL_MBX_W0 i := id rfl
@[simp] theorem F.NDL_MBX_W1_W1_addr (i : Nat) : (F.NDL_MBX_W1_W1 i).addr = R.NDL_MBX_W1 i := id rfl
@[simp] theorem F.NDL_MBX_PUSH_PUSH_addr (i : Nat) : (F.NDL_MBX_PUSH_PUSH i).addr = R.NDL_MBX_PUSH i := id rfl
@[simp] theorem F.NDL_LIM_VMAX_VMAX_addr (i n : Nat) : (F.NDL_LIM_VMAX_VMAX i n).addr = R.NDL_LIM_VMAX i n := id rfl
@[simp] theorem F.NDL_LIM_AMAX_AMAX_addr (i n : Nat) : (F.NDL_LIM_AMAX_AMAX i n).addr = R.NDL_LIM_AMAX i n := id rfl
@[simp] theorem F.NDL_LIM_JMAX_JMAX_addr (i n : Nat) : (F.NDL_LIM_JMAX_JMAX i n).addr = R.NDL_LIM_JMAX i n := id rfl
@[simp] theorem F.NDL_SAT_LO_SAT_addr (i : Nat) : (F.NDL_SAT_LO_SAT i).addr = R.NDL_SAT_LO i := id rfl
@[simp] theorem F.NDL_SAT_HI_SAT_addr (i : Nat) : (F.NDL_SAT_HI_SAT i).addr = R.NDL_SAT_HI i := id rfl
@[simp] theorem F.ACT_CTRL_DISABLE_addr (a : Nat) : (F.ACT_CTRL_DISABLE a).addr = R.ACT_CTRL a := id rfl
@[simp] theorem F.ACT_CTRL_WG_INHIBIT_addr (a : Nat) : (F.ACT_CTRL_WG_INHIBIT a).addr = R.ACT_CTRL a := id rfl
@[simp] theorem F.ACT_CTRL_LINK_EN_addr (a : Nat) : (F.ACT_CTRL_LINK_EN a).addr = R.ACT_CTRL a := id rfl
@[simp] theorem F.ACT_CTRL_HEAD_REQ_addr (a : Nat) : (F.ACT_CTRL_HEAD_REQ a).addr = R.ACT_CTRL a := id rfl
@[simp] theorem F.ACT_CMD_LOAD_addr (a : Nat) : (F.ACT_CMD_LOAD a).addr = R.ACT_CMD a := id rfl
@[simp] theorem F.ACT_CMD_UNLOAD_addr (a : Nat) : (F.ACT_CMD_UNLOAD a).addr = R.ACT_CMD a := id rfl
@[simp] theorem F.ACT_CMD_ERETRACT_addr (a : Nat) : (F.ACT_CMD_ERETRACT a).addr = R.ACT_CMD a := id rfl
@[simp] theorem F.ACT_CMD_LINK_CLEAR_addr (a : Nat) : (F.ACT_CMD_LINK_CLEAR a).addr = R.ACT_CMD a := id rfl
@[simp] theorem F.ACT_STATUS_LOAD_STATE_addr (a : Nat) : (F.ACT_STATUS_LOAD_STATE a).addr = R.ACT_STATUS a := id rfl
@[simp] theorem F.ACT_STATUS_WG_addr (a : Nat) : (F.ACT_STATUS_WG a).addr = R.ACT_STATUS a := id rfl
@[simp] theorem F.ACT_STATUS_AEN_addr (a : Nat) : (F.ACT_STATUS_AEN a).addr = R.ACT_STATUS a := id rfl
@[simp] theorem F.ACT_STATUS_HEAD_addr (a : Nat) : (F.ACT_STATUS_HEAD a).addr = R.ACT_STATUS a := id rfl
@[simp] theorem F.ACT_STATUS_LINK_FAULT_addr (a : Nat) : (F.ACT_STATUS_LINK_FAULT a).addr = R.ACT_STATUS a := id rfl
@[simp] theorem F.ACT_STATUS_CMD_ERR_addr (a : Nat) : (F.ACT_STATUS_CMD_ERR a).addr = R.ACT_STATUS a := id rfl
@[simp] theorem F.ACT_STATUS_RETRACT_CAUSE_addr (a : Nat) : (F.ACT_STATUS_RETRACT_CAUSE a).addr = R.ACT_STATUS a := id rfl
@[simp] theorem F.ACT_WSTOP_STOP_addr (a : Nat) : (F.ACT_WSTOP_STOP a).addr = R.ACT_WSTOP a := id rfl
@[simp] theorem F.ACT_EVENTS_EVENTS_addr (a : Nat) : (F.ACT_EVENTS_EVENTS a).addr = R.ACT_EVENTS a := id rfl
@[simp] theorem F.ACT_EV_LOAD_DONE_addr (a : Nat) : (F.ACT_EV_LOAD_DONE a).addr = R.ACT_EVENTS a := id rfl
@[simp] theorem F.ACT_EV_LOAD_FAIL_addr (a : Nat) : (F.ACT_EV_LOAD_FAIL a).addr = R.ACT_EVENTS a := id rfl
@[simp] theorem F.ACT_EV_UNLOAD_DONE_addr (a : Nat) : (F.ACT_EV_UNLOAD_DONE a).addr = R.ACT_EVENTS a := id rfl
@[simp] theorem F.ACT_EV_RETRACT_DONE_addr (a : Nat) : (F.ACT_EV_RETRACT_DONE a).addr = R.ACT_EVENTS a := id rfl
@[simp] theorem F.ACT_EV_LASER_CUT_addr (a : Nat) : (F.ACT_EV_LASER_CUT a).addr = R.ACT_EVENTS a := id rfl
@[simp] theorem F.ACT_EV_LINK_FAULT_addr (a : Nat) : (F.ACT_EV_LINK_FAULT a).addr = R.ACT_EVENTS a := id rfl
@[simp] theorem F.ACT_EV_PREAMP_FAULT_addr (a : Nat) : (F.ACT_EV_PREAMP_FAULT a).addr = R.ACT_EVENTS a := id rfl
@[simp] theorem F.ACT_EV_CMD_REFUSED_addr (a : Nat) : (F.ACT_EV_CMD_REFUSED a).addr = R.ACT_EVENTS a := id rfl
@[simp] theorem F.ACT_EV_DISABLE_REFUSED_addr (a : Nat) : (F.ACT_EV_DISABLE_REFUSED a).addr = R.ACT_EVENTS a := id rfl
@[simp] theorem F.ACT_EV_WG_DROPPED_addr (a : Nat) : (F.ACT_EV_WG_DROPPED a).addr = R.ACT_EVENTS a := id rfl
@[simp] theorem F.ACT_COUNTS_LASER_CUTS_addr (a : Nat) : (F.ACT_COUNTS_LASER_CUTS a).addr = R.ACT_COUNTS a := id rfl
@[simp] theorem F.ACT_COUNTS_LINK_RETRIES_addr (a : Nat) : (F.ACT_COUNTS_LINK_RETRIES a).addr = R.ACT_COUNTS a := id rfl
@[simp] theorem F.ACT_COUNTS_ERETRACTS_addr (a : Nat) : (F.ACT_COUNTS_ERETRACTS a).addr = R.ACT_COUNTS a := id rfl
@[simp] theorem F.ACT_VCM_LIM_MA_addr (a : Nat) : (F.ACT_VCM_LIM_MA a).addr = R.ACT_VCM a := id rfl
@[simp] theorem F.ACT_VCM_RET_MA_addr (a : Nat) : (F.ACT_VCM_RET_MA a).addr = R.ACT_VCM a := id rfl
@[simp] theorem F.ACT_MA_LIM_DV_addr (a : Nat) : (F.ACT_MA_LIM_DV a).addr = R.ACT_MA a := id rfl
@[simp] theorem F.ACT_LOAD_LOAD_MV_addr (a : Nat) : (F.ACT_LOAD_LOAD_MV a).addr = R.ACT_LOAD a := id rfl
@[simp] theorem F.ACT_LOAD_UNLOAD_MV_addr (a : Nat) : (F.ACT_LOAD_UNLOAD_MV a).addr = R.ACT_LOAD a := id rfl
@[simp] theorem F.ACT_TIMING_HEAD_SETTLE_addr (a : Nat) : (F.ACT_TIMING_HEAD_SETTLE a).addr = R.ACT_TIMING a := id rfl
@[simp] theorem F.ACT_TIMING_PREHEAT_ROWS_addr (a : Nat) : (F.ACT_TIMING_PREHEAT_ROWS a).addr = R.ACT_TIMING a := id rfl
@[simp] theorem F.ACT_TIMING_AEN_LEAD_addr (a : Nat) : (F.ACT_TIMING_AEN_LEAD a).addr = R.ACT_TIMING a := id rfl
@[simp] theorem F.ACT_TIMING_LOAD_TIMEOUT_addr (a : Nat) : (F.ACT_TIMING_LOAD_TIMEOUT a).addr = R.ACT_TIMING a := id rfl
@[simp] theorem F.ACT_COIL_R_MOHM_addr (a : Nat) : (F.ACT_COIL_R_MOHM a).addr = R.ACT_COIL a := id rfl
@[simp] theorem F.ACT_COIL_RET_MV_addr (a : Nat) : (F.ACT_COIL_RET_MV a).addr = R.ACT_COIL a := id rfl
@[simp] theorem F.ACT_PAMAP_STATUS_ADDR_addr (a : Nat) : (F.ACT_PAMAP_STATUS_ADDR a).addr = R.ACT_PAMAP a := id rfl
@[simp] theorem F.ACT_PAMAP_HEAD_ADDR_addr (a : Nat) : (F.ACT_PAMAP_HEAD_ADDR a).addr = R.ACT_PAMAP a := id rfl
@[simp] theorem F.ACT_PAMAP_HEATER_ADDR_addr (a : Nat) : (F.ACT_PAMAP_HEATER_ADDR a).addr = R.ACT_PAMAP a := id rfl
@[simp] theorem F.ACT_PAMAP_ASSIST_ADDR_addr (a : Nat) : (F.ACT_PAMAP_ASSIST_ADDR a).addr = R.ACT_PAMAP a := id rfl
@[simp] theorem F.ACT_PAFAULT_FAULT_MASK_addr (a : Nat) : (F.ACT_PAFAULT_FAULT_MASK a).addr = R.ACT_PAFAULT a := id rfl
@[simp] theorem F.ACT_PAFAULT_HEAD_TPL_addr (a : Nat) : (F.ACT_PAFAULT_HEAD_TPL a).addr = R.ACT_PAFAULT a := id rfl
@[simp] theorem F.ACT_LINK_CMD_ADDR_addr (a : Nat) : (F.ACT_LINK_CMD_ADDR a).addr = R.ACT_LINK_CMD a := id rfl
@[simp] theorem F.ACT_LINK_CMD_RW_addr (a : Nat) : (F.ACT_LINK_CMD_RW a).addr = R.ACT_LINK_CMD a := id rfl
@[simp] theorem F.ACT_LINK_CMD_GO_addr (a : Nat) : (F.ACT_LINK_CMD_GO a).addr = R.ACT_LINK_CMD a := id rfl
@[simp] theorem F.ACT_LINK_CMD_DATA_addr (a : Nat) : (F.ACT_LINK_CMD_DATA a).addr = R.ACT_LINK_CMD a := id rfl
@[simp] theorem F.ACT_LINK_RESP_DATA_addr (a : Nat) : (F.ACT_LINK_RESP_DATA a).addr = R.ACT_LINK_RESP a := id rfl
@[simp] theorem F.ACT_LINK_RESP_STATUS_addr (a : Nat) : (F.ACT_LINK_RESP_STATUS a).addr = R.ACT_LINK_RESP a := id rfl
@[simp] theorem F.ACT_LINK_RESP_DONE_addr (a : Nat) : (F.ACT_LINK_RESP_DONE a).addr = R.ACT_LINK_RESP a := id rfl
@[simp] theorem F.ACT_LINK_RESP_ERR_addr (a : Nat) : (F.ACT_LINK_RESP_ERR a).addr = R.ACT_LINK_RESP a := id rfl
@[simp] theorem F.ACT_LASER_ACC_ENERGY_addr (a : Nat) : (F.ACT_LASER_ACC_ENERGY a).addr = R.ACT_LASER_ACC a := id rfl
@[simp] theorem F.ACT_LASER_ACC_HEAD_addr (a : Nat) : (F.ACT_LASER_ACC_HEAD a).addr = R.ACT_LASER_ACC a := id rfl
@[simp] theorem F.ACT_HEAD_HEAT_RD_addr (a h : Nat) : (F.ACT_HEAD_HEAT_RD a h).addr = R.ACT_HEAD_HEAT a h := id rfl
@[simp] theorem F.ACT_HEAD_HEAT_WR_addr (a h : Nat) : (F.ACT_HEAD_HEAT_WR a h).addr = R.ACT_HEAD_HEAT a h := id rfl
@[simp] theorem F.ACT_HEAD_ASSIST_CODE_addr (a h : Nat) : (F.ACT_HEAD_ASSIST_CODE a h).addr = R.ACT_HEAD_ASSIST a h := id rfl
@[simp] theorem F.ACT_HEAD_ASSIST_MW_addr (a h : Nat) : (F.ACT_HEAD_ASSIST_MW a h).addr = R.ACT_HEAD_ASSIST a h := id rfl
@[simp] theorem F.ACT_HEAD_LLIM_LIMIT_addr (a h : Nat) : (F.ACT_HEAD_LLIM_LIMIT a h).addr = R.ACT_HEAD_LLIM a h := id rfl
@[simp] theorem F.ACT_LASER_FUSE_CEILING_addr : F.ACT_LASER_FUSE_CEILING.addr = R.ACT_LASER_FUSE := id rfl
@[simp] theorem F.SLC_CTRL_DISABLE_addr (i : Nat) : (F.SLC_CTRL_DISABLE i).addr = R.SLC_CTRL i := id rfl
@[simp] theorem F.SLC_CTRL_FIR_ADAPT_addr (i : Nat) : (F.SLC_CTRL_FIR_ADAPT i).addr = R.SLC_CTRL i := id rfl
@[simp] theorem F.SLC_STATUS_ROLE_addr (i : Nat) : (F.SLC_STATUS_ROLE i).addr = R.SLC_STATUS i := id rfl
@[simp] theorem F.SLC_STATUS_ACT_addr (i : Nat) : (F.SLC_STATUS_ACT i).addr = R.SLC_STATUS i := id rfl
@[simp] theorem F.SLC_STATUS_POSITION_addr (i : Nat) : (F.SLC_STATUS_POSITION i).addr = R.SLC_STATUS i := id rfl
@[simp] theorem F.SLC_STATUS_MODE_addr (i : Nat) : (F.SLC_STATUS_MODE i).addr = R.SLC_STATUS i := id rfl
@[simp] theorem F.SLC_STATUS_FOR_SLICE_addr (i : Nat) : (F.SLC_STATUS_FOR_SLICE i).addr = R.SLC_STATUS i := id rfl
@[simp] theorem F.SLC_STATUS_PINNED_addr (i : Nat) : (F.SLC_STATUS_PINNED i).addr = R.SLC_STATUS i := id rfl
@[simp] theorem F.SLC_STATUS_FAULT_CAUSE_addr (i : Nat) : (F.SLC_STATUS_FAULT_CAUSE i).addr = R.SLC_STATUS i := id rfl
@[simp] theorem F.SLC_STATUS_RECOV_BUSY_addr (i : Nat) : (F.SLC_STATUS_RECOV_BUSY i).addr = R.SLC_STATUS i := id rfl
@[simp] theorem F.SLC_MARK_WIN_addr (i : Nat) : (F.SLC_MARK_WIN i).addr = R.SLC_MARK i := id rfl
@[simp] theorem F.SLC_MARK_TOL_addr (i : Nat) : (F.SLC_MARK_TOL i).addr = R.SLC_MARK i := id rfl
@[simp] theorem F.SLC_TENSION_GAIN_MU_addr (i : Nat) : (F.SLC_TENSION_GAIN_MU i).addr = R.SLC_TENSION i := id rfl
@[simp] theorem F.SLC_TENSION_BASE_MU_addr (i : Nat) : (F.SLC_TENSION_BASE_MU i).addr = R.SLC_TENSION i := id rfl
@[simp] theorem F.SLC_TENSION_ASYM_MU_addr (i : Nat) : (F.SLC_TENSION_ASYM_MU i).addr = R.SLC_TENSION i := id rfl
@[simp] theorem F.SLC_TENSION_ACQ_SHIFT_addr (i : Nat) : (F.SLC_TENSION_ACQ_SHIFT i).addr = R.SLC_TENSION i := id rfl
@[simp] theorem F.SLC_DEFECT_LO_PCT_addr (i : Nat) : (F.SLC_DEFECT_LO_PCT i).addr = R.SLC_DEFECT i := id rfl
@[simp] theorem F.SLC_DEFECT_HI_PCT_addr (i : Nat) : (F.SLC_DEFECT_HI_PCT i).addr = R.SLC_DEFECT i := id rfl
@[simp] theorem F.SLC_DEFECT_BASE_JUMP_addr (i : Nat) : (F.SLC_DEFECT_BASE_JUMP i).addr = R.SLC_DEFECT i := id rfl
@[simp] theorem F.SLC_DEFECT_ERASE_addr (i : Nat) : (F.SLC_DEFECT_ERASE i).addr = R.SLC_DEFECT i := id rfl
@[simp] theorem F.SLC_LDPC_INLINE_ITER_addr (i : Nat) : (F.SLC_LDPC_INLINE_ITER i).addr = R.SLC_LDPC i := id rfl
@[simp] theorem F.SLC_LDPC_RECOV_ITER_addr (i : Nat) : (F.SLC_LDPC_RECOV_ITER i).addr = R.SLC_LDPC i := id rfl
@[simp] theorem F.SLC_VERIFY_MAX_ITER_addr (i : Nat) : (F.SLC_VERIFY_MAX_ITER i).addr = R.SLC_VERIFY i := id rfl
@[simp] theorem F.SLC_VERIFY_RESTITCH_MAX_addr (i : Nat) : (F.SLC_VERIFY_RESTITCH_MAX i).addr = R.SLC_VERIFY i := id rfl
@[simp] theorem F.SLC_TWIN_MASK_MASK_addr (i : Nat) : (F.SLC_TWIN_MASK_MASK i).addr = R.SLC_TWIN_MASK i := id rfl
@[simp] theorem F.SLC_EVENTS_EVENTS_addr (i : Nat) : (F.SLC_EVENTS_EVENTS i).addr = R.SLC_EVENTS i := id rfl
@[simp] theorem F.SLC_EV_DECODE_FAIL_addr (i : Nat) : (F.SLC_EV_DECODE_FAIL i).addr = R.SLC_EVENTS i := id rfl
@[simp] theorem F.SLC_EV_FALLBACK_OK_addr (i : Nat) : (F.SLC_EV_FALLBACK_OK i).addr = R.SLC_EVENTS i := id rfl
@[simp] theorem F.SLC_EV_PIN_FULL_addr (i : Nat) : (F.SLC_EV_PIN_FULL i).addr = R.SLC_EVENTS i := id rfl
@[simp] theorem F.SLC_EV_VERIFY_FAIL_addr (i : Nat) : (F.SLC_EV_VERIFY_FAIL i).addr = R.SLC_EVENTS i := id rfl
@[simp] theorem F.SLC_EV_RESTITCH_EXHAUSTED_addr (i : Nat) : (F.SLC_EV_RESTITCH_EXHAUSTED i).addr = R.SLC_EVENTS i := id rfl
@[simp] theorem F.SLC_EV_DEFECT_addr (i : Nat) : (F.SLC_EV_DEFECT i).addr = R.SLC_EVENTS i := id rfl
@[simp] theorem F.SLC_EV_TAG_MISMATCH_addr (i : Nat) : (F.SLC_EV_TAG_MISMATCH i).addr = R.SLC_EVENTS i := id rfl
@[simp] theorem F.SLC_EV_FAULT_addr (i : Nat) : (F.SLC_EV_FAULT i).addr = R.SLC_EVENTS i := id rfl
@[simp] theorem F.SLC_EV_DISABLE_DONE_addr (i : Nat) : (F.SLC_EV_DISABLE_DONE i).addr = R.SLC_EVENTS i := id rfl
@[simp] theorem F.SLC_DROP_A_MISS_addr (i : Nat) : (F.SLC_DROP_A_MISS i).addr = R.SLC_DROP i := id rfl
@[simp] theorem F.SLC_DROP_B_MISS_addr (i : Nat) : (F.SLC_DROP_B_MISS i).addr = R.SLC_DROP i := id rfl
@[simp] theorem F.SLC_DROP_SPACING_addr (i : Nat) : (F.SLC_DROP_SPACING i).addr = R.SLC_DROP i := id rfl
@[simp] theorem F.SLC_DROP_REFRAME_addr (i : Nat) : (F.SLC_DROP_REFRAME i).addr = R.SLC_DROP i := id rfl
@[simp] theorem F.SLC_DROP_TOTAL_TOTAL_addr (i : Nat) : (F.SLC_DROP_TOTAL_TOTAL i).addr = R.SLC_DROP_TOTAL i := id rfl
@[simp] theorem F.SLC_DECODE_FAILS_addr (i : Nat) : (F.SLC_DECODE_FAILS i).addr = R.SLC_DECODE i := id rfl
@[simp] theorem F.SLC_DECODE_FALLBACK_OK_addr (i : Nat) : (F.SLC_DECODE_FALLBACK_OK i).addr = R.SLC_DECODE i := id rfl
@[simp] theorem F.SLC_RECOV_CMD_SLOT_addr (i : Nat) : (F.SLC_RECOV_CMD_SLOT i).addr = R.SLC_RECOV_CMD i := id rfl
@[simp] theorem F.SLC_RECOV_CMD_OP_addr (i : Nat) : (F.SLC_RECOV_CMD_OP i).addr = R.SLC_RECOV_CMD i := id rfl
@[simp] theorem F.SLC_RECOV_CMD_SPAN_addr (i : Nat) : (F.SLC_RECOV_CMD_SPAN i).addr = R.SLC_RECOV_CMD i := id rfl
@[simp] theorem F.SLC_RECOV_CMD_ITER_addr (i : Nat) : (F.SLC_RECOV_CMD_ITER i).addr = R.SLC_RECOV_CMD i := id rfl
@[simp] theorem F.SLC_RECOV_CMD_GO_addr (i : Nat) : (F.SLC_RECOV_CMD_GO i).addr = R.SLC_RECOV_CMD i := id rfl
@[simp] theorem F.SLC_RECOV_STATUS_BUSY_addr (i : Nat) : (F.SLC_RECOV_STATUS_BUSY i).addr = R.SLC_RECOV_STATUS i := id rfl
@[simp] theorem F.SLC_RECOV_STATUS_DONE_addr (i : Nat) : (F.SLC_RECOV_STATUS_DONE i).addr = R.SLC_RECOV_STATUS i := id rfl
@[simp] theorem F.SLC_RECOV_STATUS_OK_addr (i : Nat) : (F.SLC_RECOV_STATUS_OK i).addr = R.SLC_RECOV_STATUS i := id rfl
@[simp] theorem F.SLC_RECOV_STATUS_OFFSET_addr (i : Nat) : (F.SLC_RECOV_STATUS_OFFSET i).addr = R.SLC_RECOV_STATUS i := id rfl
@[simp] theorem F.SLC_RECOV_STATUS_ITER_USED_addr (i : Nat) : (F.SLC_RECOV_STATUS_ITER_USED i).addr = R.SLC_RECOV_STATUS i := id rfl
@[simp] theorem F.SLC_RECOV_STATUS_READS_addr (i : Nat) : (F.SLC_RECOV_STATUS_READS i).addr = R.SLC_RECOV_STATUS i := id rfl
@[simp] theorem F.SLC_PIN_LO_PIN_addr (i : Nat) : (F.SLC_PIN_LO_PIN i).addr = R.SLC_PIN_LO i := id rfl
@[simp] theorem F.SLC_PIN_HI_PIN_addr (i : Nat) : (F.SLC_PIN_HI_PIN i).addr = R.SLC_PIN_HI i := id rfl
@[simp] theorem F.SLC_HEAD_VLAG_NS_addr (i h : Nat) : (F.SLC_HEAD_VLAG_NS i h).addr = R.SLC_HEAD i h := id rfl
@[simp] theorem F.SLC_HEAD_RLAG_NS_addr (i h : Nat) : (F.SLC_HEAD_RLAG_NS i h).addr = R.SLC_HEAD i h := id rfl
@[simp] theorem F.SLC_FIR_TAP_EVEN_addr (i k : Nat) : (F.SLC_FIR_TAP_EVEN i k).addr = R.SLC_FIR i k := id rfl
@[simp] theorem F.SLC_FIR_TAP_ODD_addr (i k : Nat) : (F.SLC_FIR_TAP_ODD i k).addr = R.SLC_FIR i k := id rfl
@[simp] theorem F.FMT_ZONE_SEL_ZONE_addr : F.FMT_ZONE_SEL_ZONE.addr = R.FMT_ZONE_SEL := id rfl
@[simp] theorem F.FMT_ZONE_DESC_DESC_addr (n : Nat) : (F.FMT_ZONE_DESC_DESC n).addr = R.FMT_ZONE_DESC n := id rfl
@[simp] theorem F.FMT_ZONE_PLACE_FIRST_TRACK_addr : F.FMT_ZONE_PLACE_FIRST_TRACK.addr = R.FMT_ZONE_PLACE := id rfl
@[simp] theorem F.FMT_ZONE_PLACE_HEAD_addr : F.FMT_ZONE_PLACE_HEAD.addr = R.FMT_ZONE_PLACE := id rfl
@[simp] theorem F.FMT_ZONE_PLACE_ACT_addr : F.FMT_ZONE_PLACE_ACT.addr = R.FMT_ZONE_PLACE := id rfl
@[simp] theorem F.FMT_ZONE_SHAPE_SPT_addr : F.FMT_ZONE_SHAPE_SPT.addr = R.FMT_ZONE_SHAPE := id rfl
@[simp] theorem F.FMT_ZONE_SHAPE_GROUPS_addr : F.FMT_ZONE_SHAPE_GROUPS.addr = R.FMT_ZONE_SHAPE := id rfl
@[simp] theorem F.FMT_ZONE_SHAPE_TRACKS_addr : F.FMT_ZONE_SHAPE_TRACKS.addr = R.FMT_ZONE_SHAPE := id rfl
@[simp] theorem F.FMT_TOTALS_ZONES_addr : F.FMT_TOTALS_ZONES.addr = R.FMT_TOTALS := id rfl
@[simp] theorem F.FMT_PARITY_RECON_addr : F.FMT_PARITY_RECON.addr = R.FMT_PARITY := id rfl
@[simp] theorem F.FMT_PARITY_NOPARITY_addr : F.FMT_PARITY_NOPARITY.addr = R.FMT_PARITY := id rfl
@[simp] theorem F.STM_CTRL_CKPT_PAGES_addr : F.STM_CTRL_CKPT_PAGES.addr = R.STM_CTRL := id rfl
@[simp] theorem F.STM_CTRL_LOW_LEAVES_addr : F.STM_CTRL_LOW_LEAVES.addr = R.STM_CTRL := id rfl
@[simp] theorem F.STM_CTRL_CKPT_REQ_addr : F.STM_CTRL_CKPT_REQ.addr = R.STM_CTRL := id rfl
@[simp] theorem F.STM_STATUS_READY_addr : F.STM_STATUS_READY.addr = R.STM_STATUS := id rfl
@[simp] theorem F.STM_STATUS_REBUILDING_addr : F.STM_STATUS_REBUILDING.addr = R.STM_STATUS := id rfl
@[simp] theorem F.STM_STATUS_FULL_addr : F.STM_STATUS_FULL.addr = R.STM_STATUS := id rfl
@[simp] theorem F.STM_STATUS_CKPT_BUSY_addr : F.STM_STATUS_CKPT_BUSY.addr = R.STM_STATUS := id rfl
@[simp] theorem F.STM_STATUS_CKPT_SLOT_addr : F.STM_STATUS_CKPT_SLOT.addr = R.STM_STATUS := id rfl
@[simp] theorem F.STM_USAGE_ENTRIES_addr : F.STM_USAGE_ENTRIES.addr = R.STM_USAGE := id rfl
@[simp] theorem F.STM_LEAVES_FREE_addr : F.STM_LEAVES_FREE.addr = R.STM_LEAVES := id rfl
@[simp] theorem F.STM_CACHE_HIT_HITS_addr : F.STM_CACHE_HIT_HITS.addr = R.STM_CACHE_HIT := id rfl
@[simp] theorem F.STM_CACHE_MISS_MISSES_addr : F.STM_CACHE_MISS_MISSES.addr = R.STM_CACHE_MISS := id rfl
@[simp] theorem F.STM_JOURNAL_PENDING_KIB_addr : F.STM_JOURNAL_PENDING_KIB.addr = R.STM_JOURNAL := id rfl
@[simp] theorem F.STM_JSEQ_LO_SEQ_LO_addr : F.STM_JSEQ_LO_SEQ_LO.addr = R.STM_JSEQ_LO := id rfl
@[simp] theorem F.STM_JSEQ_HI_SEQ_HI_addr : F.STM_JSEQ_HI_SEQ_HI.addr = R.STM_JSEQ_HI := id rfl
@[simp] theorem F.STM_EVENTS_EVENTS_addr : F.STM_EVENTS_EVENTS.addr = R.STM_EVENTS := id rfl
@[simp] theorem F.STM_EV_FULL_ENTERED_addr : F.STM_EV_FULL_ENTERED.addr = R.STM_EVENTS := id rfl
@[simp] theorem F.STM_EV_RESERVE_OUT_addr : F.STM_EV_RESERVE_OUT.addr = R.STM_EVENTS := id rfl
@[simp] theorem F.STM_EV_REPLAY_GAP_addr : F.STM_EV_REPLAY_GAP.addr = R.STM_EVENTS := id rfl
@[simp] theorem F.STM_EV_STALE_REFUSED_addr : F.STM_EV_STALE_REFUSED.addr = R.STM_EVENTS := id rfl
@[simp] theorem F.STM_EV_LEAF_REBUILD_addr : F.STM_EV_LEAF_REBUILD.addr = R.STM_EVENTS := id rfl
@[simp] theorem F.HIF_PORT_STATUS_LINK_UP_addr (n : Nat) : (F.HIF_PORT_STATUS_LINK_UP n).addr = R.HIF_PORT_STATUS n := id rfl
@[simp] theorem F.HIF_PORT_STATUS_SPEED_addr (n : Nat) : (F.HIF_PORT_STATUS_SPEED n).addr = R.HIF_PORT_STATUS n := id rfl
@[simp] theorem F.HIF_PORT_STATUS_WIDTH_addr (n : Nat) : (F.HIF_PORT_STATUS_WIDTH n).addr = R.HIF_PORT_STATUS n := id rfl
@[simp] theorem F.HIF_PORT_STATUS_PERST_addr (n : Nat) : (F.HIF_PORT_STATUS_PERST n).addr = R.HIF_PORT_STATUS n := id rfl
@[simp] theorem F.HIF_PORT_STATUS_NUMVFS_addr (n : Nat) : (F.HIF_PORT_STATUS_NUMVFS n).addr = R.HIF_PORT_STATUS n := id rfl
@[simp] theorem F.HIF_PORT_ERR_CORR_addr (n : Nat) : (F.HIF_PORT_ERR_CORR n).addr = R.HIF_PORT_ERR n := id rfl
@[simp] theorem F.HIF_PORT_ERR_UNCORR_addr (n : Nat) : (F.HIF_PORT_ERR_UNCORR n).addr = R.HIF_PORT_ERR n := id rfl
@[simp] theorem F.HIF_CFS_CFS_addr : F.HIF_CFS_CFS.addr = R.HIF_CFS := id rfl
@[simp] theorem F.HIF_CTRL_EXIST_EXIST_addr : F.HIF_CTRL_EXIST_EXIST.addr = R.HIF_CTRL_EXIST := id rfl
@[simp] theorem F.HIF_CTRL_RDY_RDY_addr : F.HIF_CTRL_RDY_RDY.addr = R.HIF_CTRL_RDY := id rfl
@[simp] theorem F.HIF_AEN_MASK_MASK_addr : F.HIF_AEN_MASK_MASK.addr = R.HIF_AEN_MASK := id rfl
@[simp] theorem F.HIF_AEN_POST_INFO_addr : F.HIF_AEN_POST_INFO.addr = R.HIF_AEN_POST := id rfl
@[simp] theorem F.HIF_AEN_POST_TYPE_addr : F.HIF_AEN_POST_TYPE.addr = R.HIF_AEN_POST := id rfl
@[simp] theorem F.HIF_AEN_POST_GO_addr : F.HIF_AEN_POST_GO.addr = R.HIF_AEN_POST := id rfl
@[simp] theorem F.HIF_SB_STATUS_EID_addr : F.HIF_SB_STATUS_EID.addr = R.HIF_SB_STATUS := id rfl
@[simp] theorem F.HIF_SB_STATUS_I3C_addr : F.HIF_SB_STATUS_I3C.addr = R.HIF_SB_STATUS := id rfl
@[simp] theorem F.HIF_SB_STATUS_DROPPED_addr : F.HIF_SB_STATUS_DROPPED.addr = R.HIF_SB_STATUS := id rfl
@[simp] theorem F.QUE_SKEIN_SEL_SKEIN_addr : F.QUE_SKEIN_SEL_SKEIN.addr = R.QUE_SKEIN_SEL := id rfl
@[simp] theorem F.QUE_SKEIN_SQ_SQ_BASE_addr : F.QUE_SKEIN_SQ_SQ_BASE.addr = R.QUE_SKEIN_SQ := id rfl
@[simp] theorem F.QUE_SKEIN_SQ_SQ_COUNT_addr : F.QUE_SKEIN_SQ_SQ_COUNT.addr = R.QUE_SKEIN_SQ := id rfl
@[simp] theorem F.QUE_SKEIN_CQ_CQ_BASE_addr : F.QUE_SKEIN_CQ_CQ_BASE.addr = R.QUE_SKEIN_CQ := id rfl
@[simp] theorem F.QUE_SKEIN_CQ_CQ_COUNT_addr : F.QUE_SKEIN_CQ_CQ_COUNT.addr = R.QUE_SKEIN_CQ := id rfl
@[simp] theorem F.QUE_SKEIN_LIVE_SQ_LIVE_addr : F.QUE_SKEIN_LIVE_SQ_LIVE.addr = R.QUE_SKEIN_LIVE := id rfl
@[simp] theorem F.QUE_SKEIN_LIVE_CQ_LIVE_addr : F.QUE_SKEIN_LIVE_CQ_LIVE.addr = R.QUE_SKEIN_LIVE := id rfl
@[simp] theorem F.QUE_SKEIN_SLOTS_INFLIGHT_addr : F.QUE_SKEIN_SLOTS_INFLIGHT.addr = R.QUE_SKEIN_SLOTS := id rfl
@[simp] theorem F.QUE_SKEIN_SLOTS_URGENT_addr : F.QUE_SKEIN_SLOTS_URGENT.addr = R.QUE_SKEIN_SLOTS := id rfl
@[simp] theorem F.QUE_SLOTS_FREE_addr : F.QUE_SLOTS_FREE.addr = R.QUE_SLOTS := id rfl
@[simp] theorem F.QUE_FETCH_HOLD_HOLD_addr : F.QUE_FETCH_HOLD_HOLD.addr = R.QUE_FETCH_HOLD := id rfl
@[simp] theorem F.QUE_RING_SEL_RING_addr : F.QUE_RING_SEL_RING.addr = R.QUE_RING_SEL := id rfl
@[simp] theorem F.QUE_RING_STATE_HEAD_addr : F.QUE_RING_STATE_HEAD.addr = R.QUE_RING_STATE := id rfl
@[simp] theorem F.QUE_RING_STATE_TAIL_addr : F.QUE_RING_STATE_TAIL.addr = R.QUE_RING_STATE := id rfl
@[simp] theorem F.QUE_RING_CFG_SIZE_addr : F.QUE_RING_CFG_SIZE.addr = R.QUE_RING_CFG := id rfl
@[simp] theorem F.QUE_RING_CFG_VALID_addr : F.QUE_RING_CFG_VALID.addr = R.QUE_RING_CFG := id rfl
@[simp] theorem F.QUE_RING_CFG_QPRIO_addr : F.QUE_RING_CFG_QPRIO.addr = R.QUE_RING_CFG := id rfl
@[simp] theorem F.QUE_RING_CFG_LINK_addr : F.QUE_RING_CFG_LINK.addr = R.QUE_RING_CFG := id rfl
@[simp] theorem F.SCH_CTRL_AGE_WEIGHT_addr (n : Nat) : (F.SCH_CTRL_AGE_WEIGHT n).addr = R.SCH_CTRL n := id rfl
@[simp] theorem F.SCH_CTRL_ZERO_LAT_addr (n : Nat) : (F.SCH_CTRL_ZERO_LAT n).addr = R.SCH_CTRL n := id rfl
@[simp] theorem F.SCH_CTRL_PREEMPT_addr (n : Nat) : (F.SCH_CTRL_PREEMPT n).addr = R.SCH_CTRL n := id rfl
@[simp] theorem F.SCH_SETTLE_SETTLE_US_addr (n : Nat) : (F.SCH_SETTLE_SETTLE_US n).addr = R.SCH_SETTLE n := id rfl
@[simp] theorem F.SCH_SETTLE_HEAD_SWITCH_US_addr (n : Nat) : (F.SCH_SETTLE_HEAD_SWITCH_US n).addr = R.SCH_SETTLE n := id rfl
@[simp] theorem F.SCH_WINDOW_OPS_addr (n : Nat) : (F.SCH_WINDOW_OPS n).addr = R.SCH_WINDOW n := id rfl
@[simp] theorem F.SCH_WINDOW_URGENT_addr (n : Nat) : (F.SCH_WINDOW_URGENT n).addr = R.SCH_WINDOW n := id rfl
@[simp] theorem F.SCH_BEST_INDEX_addr (n : Nat) : (F.SCH_BEST_INDEX n).addr = R.SCH_BEST n := id rfl
@[simp] theorem F.SCH_BEST_VALID_addr (n : Nat) : (F.SCH_BEST_VALID n).addr = R.SCH_BEST n := id rfl
@[simp] theorem F.SCH_BEST_URGENT_addr (n : Nat) : (F.SCH_BEST_URGENT n).addr = R.SCH_BEST n := id rfl
@[simp] theorem F.SCH_BEST_COST_US_addr (n : Nat) : (F.SCH_BEST_COST_US n).addr = R.SCH_BEST n := id rfl
@[simp] theorem F.SCH_PICKS_PICKS_addr (n : Nat) : (F.SCH_PICKS_PICKS n).addr = R.SCH_PICKS n := id rfl
@[simp] theorem F.SCH_EVALS_EVALS_addr (n : Nat) : (F.SCH_EVALS_EVALS n).addr = R.SCH_EVALS n := id rfl
@[simp] theorem F.SCH_EVALS_PREEMPTS_addr (n : Nat) : (F.SCH_EVALS_PREEMPTS n).addr = R.SCH_EVALS n := id rfl
@[simp] theorem F.SCH_SEEK_DIST_X64_addr (n k : Nat) : (F.SCH_SEEK_DIST_X64 n k).addr = R.SCH_SEEK n k := id rfl
@[simp] theorem F.SCH_SEEK_TIME_US_addr (n k : Nat) : (F.SCH_SEEK_TIME_US n k).addr = R.SCH_SEEK n k := id rfl
@[simp] theorem F.SCH_SLOT_CFG_URGENT_POOL_addr : F.SCH_SLOT_CFG_URGENT_POOL.addr = R.SCH_SLOT_CFG := id rfl
@[simp] theorem F.SCH_SLOT_CFG_CTRL_RESERVE_addr : F.SCH_SLOT_CFG_CTRL_RESERVE.addr = R.SCH_SLOT_CFG := id rfl
@[simp] theorem F.SCH_SLOT_DIRTY_DIRTY_MAX_addr : F.SCH_SLOT_DIRTY_DIRTY_MAX.addr = R.SCH_SLOT_DIRTY := id rfl
@[simp] theorem F.SCH_SLOT_DIRTY_IN_USE_addr : F.SCH_SLOT_DIRTY_IN_USE.addr = R.SCH_SLOT_DIRTY := id rfl
@[simp] theorem F.ORD_LEDGER_STATUS_LEDGER_FAULT_addr : F.ORD_LEDGER_STATUS_LEDGER_FAULT.addr = R.ORD_LEDGER_STATUS := id rfl
@[simp] theorem F.ORD_LEDGER_STATUS_WRITE_HOLD_addr : F.ORD_LEDGER_STATUS_WRITE_HOLD.addr = R.ORD_LEDGER_STATUS := id rfl
@[simp] theorem F.ORD_LEDGER_STATUS_RECOUNT_PEND_addr : F.ORD_LEDGER_STATUS_RECOUNT_PEND.addr = R.ORD_LEDGER_STATUS := id rfl
@[simp] theorem F.ORD_LEDGER_STATUS_RELEASE_PEND_addr : F.ORD_LEDGER_STATUS_RELEASE_PEND.addr = R.ORD_LEDGER_STATUS := id rfl
@[simp] theorem F.ORD_LEDGER_STATUS_FAULT_ROWS_addr : F.ORD_LEDGER_STATUS_FAULT_ROWS.addr = R.ORD_LEDGER_STATUS := id rfl
@[simp] theorem F.ORD_LEDGER_CTRL_RECOUNT_addr : F.ORD_LEDGER_CTRL_RECOUNT.addr = R.ORD_LEDGER_CTRL := id rfl
@[simp] theorem F.ORD_LEDGER_CTRL_RELEASE_addr : F.ORD_LEDGER_CTRL_RELEASE.addr = R.ORD_LEDGER_CTRL := id rfl
@[simp] theorem F.ORD_LEDGER_ACCTS_ACCOUNTS_addr : F.ORD_LEDGER_ACCTS_ACCOUNTS.addr = R.ORD_LEDGER_ACCTS := id rfl
@[simp] theorem F.ORD_LEDGER_FAULTS_COUNT_addr : F.ORD_LEDGER_FAULTS_COUNT.addr = R.ORD_LEDGER_FAULTS := id rfl
@[simp] theorem F.ORD_LEDGER_SEL_CLASS_addr : F.ORD_LEDGER_SEL_CLASS.addr = R.ORD_LEDGER_SEL := id rfl
@[simp] theorem F.ORD_LEDGER_VAL_VALUE_addr : F.ORD_LEDGER_VAL_VALUE.addr = R.ORD_LEDGER_VAL := id rfl
@[simp] theorem F.ORD_LEDGER_CENSUS_VALUE_addr : F.ORD_LEDGER_CENSUS_VALUE.addr = R.ORD_LEDGER_CENSUS := id rfl
@[simp] theorem F.ORD_LEDGER_ROW_LO_ROW_LO_addr : F.ORD_LEDGER_ROW_LO_ROW_LO.addr = R.ORD_LEDGER_ROW_LO := id rfl
@[simp] theorem F.ORD_LEDGER_ROW_HI_ROW_HI_addr : F.ORD_LEDGER_ROW_HI_ROW_HI.addr = R.ORD_LEDGER_ROW_HI := id rfl
@[simp] theorem F.ORD_OVL_STATUS_WRITES_addr : F.ORD_OVL_STATUS_WRITES.addr = R.ORD_OVL_STATUS := id rfl
@[simp] theorem F.ORD_OVL_STATUS_READS_addr : F.ORD_OVL_STATUS_READS.addr = R.ORD_OVL_STATUS := id rfl
@[simp] theorem F.ORD_OVL_BLOCKED_ACT_A_addr : F.ORD_OVL_BLOCKED_ACT_A.addr = R.ORD_OVL_BLOCKED := id rfl
@[simp] theorem F.ORD_OVL_BLOCKED_ACT_B_addr : F.ORD_OVL_BLOCKED_ACT_B.addr = R.ORD_OVL_BLOCKED := id rfl
@[simp] theorem F.ORD_OVL_EPOCH_LO_EPOCH_LO_addr : F.ORD_OVL_EPOCH_LO_EPOCH_LO.addr = R.ORD_OVL_EPOCH_LO := id rfl
@[simp] theorem F.ORD_OVL_EPOCH_HI_EPOCH_HI_addr : F.ORD_OVL_EPOCH_HI_EPOCH_HI.addr = R.ORD_OVL_EPOCH_HI := id rfl
@[simp] theorem F.ORD_OVL_COUNTS_TRIMMED_addr : F.ORD_OVL_COUNTS_TRIMMED.addr = R.ORD_OVL_COUNTS := id rfl
@[simp] theorem F.ORD_OVL_COUNTS_ROLLBACKS_addr : F.ORD_OVL_COUNTS_ROLLBACKS.addr = R.ORD_OVL_COUNTS := id rfl
@[simp] theorem F.ORD_OVL_EVENTS_EVENTS_addr : F.ORD_OVL_EVENTS_EVENTS.addr = R.ORD_OVL_EVENTS := id rfl
@[simp] theorem F.ORD_OVL_EV_TRIMMED_addr : F.ORD_OVL_EV_TRIMMED.addr = R.ORD_OVL_EVENTS := id rfl
@[simp] theorem F.ORD_OVL_EV_ZONE_ROLLBACK_addr : F.ORD_OVL_EV_ZONE_ROLLBACK.addr = R.ORD_OVL_EVENTS := id rfl
@[simp] theorem F.ORD_OVL_EV_GUARD_WRITE_addr : F.ORD_OVL_EV_GUARD_WRITE.addr = R.ORD_OVL_EVENTS := id rfl
@[simp] theorem F.ORD_OVL_EV_GUARD_READ_addr : F.ORD_OVL_EV_GUARD_READ.addr = R.ORD_OVL_EVENTS := id rfl
@[simp] theorem F.ORD_OVL_EV_SAVE_SHORT_addr : F.ORD_OVL_EV_SAVE_SHORT.addr = R.ORD_OVL_EVENTS := id rfl
@[simp] theorem F.ORD_OVL_EV_CLAIM_REFUSED_addr : F.ORD_OVL_EV_CLAIM_REFUSED.addr = R.ORD_OVL_EVENTS := id rfl
@[simp] theorem F.ORD_OVL_EV_REUSE_HOLD_addr : F.ORD_OVL_EV_REUSE_HOLD.addr = R.ORD_OVL_EVENTS := id rfl
@[simp] theorem F.ORD_DUR_STATUS_SAVE_MIB_addr : F.ORD_DUR_STATUS_SAVE_MIB.addr = R.ORD_DUR_STATUS := id rfl
@[simp] theorem F.ORD_DUR_STATUS_SAVE_SHORT_addr : F.ORD_DUR_STATUS_SAVE_SHORT.addr = R.ORD_DUR_STATUS := id rfl
@[simp] theorem F.ORD_CLAIM_DLA_LO_DLA_LO_addr : F.ORD_CLAIM_DLA_LO_DLA_LO.addr = R.ORD_CLAIM_DLA_LO := id rfl
@[simp] theorem F.ORD_CLAIM_DLA_HI_DLA_HI_addr : F.ORD_CLAIM_DLA_HI_DLA_HI.addr = R.ORD_CLAIM_DLA_HI := id rfl
@[simp] theorem F.ORD_CLAIM_DLA_HI_LEN_M1_addr : F.ORD_CLAIM_DLA_HI_LEN_M1.addr = R.ORD_CLAIM_DLA_HI := id rfl
@[simp] theorem F.ORD_CLAIM_CMD_INDEX_addr : F.ORD_CLAIM_CMD_INDEX.addr = R.ORD_CLAIM_CMD := id rfl
@[simp] theorem F.ORD_CLAIM_CMD_OPEN_addr : F.ORD_CLAIM_CMD_OPEN.addr = R.ORD_CLAIM_CMD := id rfl
@[simp] theorem F.ORD_CLAIM_CMD_CLOSE_addr : F.ORD_CLAIM_CMD_CLOSE.addr = R.ORD_CLAIM_CMD := id rfl
@[simp] theorem F.ORD_CLAIM_STATUS_OPENED_addr : F.ORD_CLAIM_STATUS_OPENED.addr = R.ORD_CLAIM_STATUS := id rfl
@[simp] theorem F.ORD_CLAIM_STATUS_OK_addr : F.ORD_CLAIM_STATUS_OK.addr = R.ORD_CLAIM_STATUS := id rfl
@[simp] theorem F.ORD_CLAIM_STATUS_FREE_addr : F.ORD_CLAIM_STATUS_FREE.addr = R.ORD_CLAIM_STATUS := id rfl
@[simp] theorem F.ORD_CLAIM_STATUS_SUPERSEDED_addr : F.ORD_CLAIM_STATUS_SUPERSEDED.addr = R.ORD_CLAIM_STATUS := id rfl
@[simp] theorem F.DRN_CTRL_SCRUB_EN_addr : F.DRN_CTRL_SCRUB_EN.addr = R.DRN_CTRL := id rfl
@[simp] theorem F.DRN_CTRL_RELOC_EN_addr : F.DRN_CTRL_RELOC_EN.addr = R.DRN_CTRL := id rfl
@[simp] theorem F.DRN_CTRL_RELOC_MIN_STEP_addr : F.DRN_CTRL_RELOC_MIN_STEP.addr = R.DRN_CTRL := id rfl
@[simp] theorem F.DRN_CTRL_WEAK_ITER_addr : F.DRN_CTRL_WEAK_ITER.addr = R.DRN_CTRL := id rfl
@[simp] theorem F.DRN_CTRL_WEAK_MARGIN_addr : F.DRN_CTRL_WEAK_MARGIN.addr = R.DRN_CTRL := id rfl
@[simp] theorem F.DRN_SCRUB_PERIOD_DAYS_addr : F.DRN_SCRUB_PERIOD_DAYS.addr = R.DRN_SCRUB := id rfl
@[simp] theorem F.DRN_SCRUB_RATE_PCT_addr : F.DRN_SCRUB_RATE_PCT.addr = R.DRN_SCRUB := id rfl
@[simp] theorem F.DRN_LADDER_OFFSET_addr : F.DRN_LADDER_OFFSET.addr = R.DRN_LADDER := id rfl
@[simp] theorem F.DRN_LADDER_SPAN_addr : F.DRN_LADDER_SPAN.addr = R.DRN_LADDER := id rfl
@[simp] theorem F.DRN_STATUS_SCRUB_BUSY_addr : F.DRN_STATUS_SCRUB_BUSY.addr = R.DRN_STATUS := id rfl
@[simp] theorem F.DRN_STATUS_BEHIND_addr : F.DRN_STATUS_BEHIND.addr = R.DRN_STATUS := id rfl
@[simp] theorem F.DRN_STATUS_UNREAD_FULL_addr : F.DRN_STATUS_UNREAD_FULL.addr = R.DRN_STATUS := id rfl
@[simp] theorem F.DRN_STATUS_RUNS_A_addr : F.DRN_STATUS_RUNS_A.addr = R.DRN_STATUS := id rfl
@[simp] theorem F.DRN_STATUS_RUNS_B_addr : F.DRN_STATUS_RUNS_B.addr = R.DRN_STATUS := id rfl
@[simp] theorem F.DRN_SCRUB_POS_ZONE_addr (n : Nat) : (F.DRN_SCRUB_POS_ZONE n).addr = R.DRN_SCRUB_POS n := id rfl
@[simp] theorem F.DRN_PASS_PASSES_addr (n : Nat) : (F.DRN_PASS_PASSES n).addr = R.DRN_PASS n := id rfl
@[simp] theorem F.DRN_PASS_DAYS_addr (n : Nat) : (F.DRN_PASS_DAYS n).addr = R.DRN_PASS n := id rfl
@[simp] theorem F.DRN_STEP_RECOVERED_addr (k : Nat) : (F.DRN_STEP_RECOVERED k).addr = R.DRN_STEP k := id rfl
@[simp] theorem F.DRN_UNRECOVERED_COUNT_addr : F.DRN_UNRECOVERED_COUNT.addr = R.DRN_UNRECOVERED := id rfl
@[simp] theorem F.DRN_RELOC_RELOCATED_addr : F.DRN_RELOC_RELOCATED.addr = R.DRN_RELOC := id rfl
@[simp] theorem F.DRN_RELOC_WEAK_addr : F.DRN_RELOC_WEAK.addr = R.DRN_RELOC := id rfl
@[simp] theorem F.DRN_UNREAD_ENTRIES_addr : F.DRN_UNREAD_ENTRIES.addr = R.DRN_UNREAD := id rfl
@[simp] theorem F.DRN_UNREAD_OVERFLOW_addr : F.DRN_UNREAD_OVERFLOW.addr = R.DRN_UNREAD := id rfl
@[simp] theorem F.DRN_DUE_ZONE_addr : F.DRN_DUE_ZONE.addr = R.DRN_DUE := id rfl
@[simp] theorem F.DRN_DUE_VALID_addr : F.DRN_DUE_VALID.addr = R.DRN_DUE := id rfl
@[simp] theorem F.DRN_DUE_DEPTH_addr : F.DRN_DUE_DEPTH.addr = R.DRN_DUE := id rfl
@[simp] theorem F.DRN_REWRITE_ZONE_addr : F.DRN_REWRITE_ZONE.addr = R.DRN_REWRITE := id rfl
@[simp] theorem F.DRN_REWRITE_POP_addr : F.DRN_REWRITE_POP.addr = R.DRN_REWRITE := id rfl
@[simp] theorem F.DRN_REWRITE_GO_addr : F.DRN_REWRITE_GO.addr = R.DRN_REWRITE := id rfl
@[simp] theorem F.DRN_REWRITE_STATUS_ZONE_addr : F.DRN_REWRITE_STATUS_ZONE.addr = R.DRN_REWRITE_STATUS := id rfl
@[simp] theorem F.DRN_REWRITE_STATUS_BUSY_addr : F.DRN_REWRITE_STATUS_BUSY.addr = R.DRN_REWRITE_STATUS := id rfl
@[simp] theorem F.DRN_REWRITE_STATUS_DONE_addr : F.DRN_REWRITE_STATUS_DONE.addr = R.DRN_REWRITE_STATUS := id rfl
@[simp] theorem F.DRN_REWRITE_STATUS_ERR_addr : F.DRN_REWRITE_STATUS_ERR.addr = R.DRN_REWRITE_STATUS := id rfl
@[simp] theorem F.DRN_REWRITE_STATUS_PCT_addr : F.DRN_REWRITE_STATUS_PCT.addr = R.DRN_REWRITE_STATUS := id rfl
@[simp] theorem F.DRN_EVENTS_EVENTS_addr : F.DRN_EVENTS_EVENTS.addr = R.DRN_EVENTS := id rfl
@[simp] theorem F.DRN_EV_UNRECOVERED_addr : F.DRN_EV_UNRECOVERED.addr = R.DRN_EVENTS := id rfl
@[simp] theorem F.DRN_EV_RELOCATED_addr : F.DRN_EV_RELOCATED.addr = R.DRN_EVENTS := id rfl
@[simp] theorem F.DRN_EV_REWRITE_DUE_addr : F.DRN_EV_REWRITE_DUE.addr = R.DRN_EVENTS := id rfl
@[simp] theorem F.DRN_EV_REWRITE_DONE_addr : F.DRN_EV_REWRITE_DONE.addr = R.DRN_EVENTS := id rfl
@[simp] theorem F.DRN_EV_BEHIND_addr : F.DRN_EV_BEHIND.addr = R.DRN_EVENTS := id rfl
@[simp] theorem F.DRN_EV_UNREAD_FULL_addr : F.DRN_EV_UNREAD_FULL.addr = R.DRN_EVENTS := id rfl
@[simp] theorem F.DRN_EV_DUE_FULL_addr : F.DRN_EV_DUE_FULL.addr = R.DRN_EVENTS := id rfl
@[simp] theorem F.DRN_EV_TAKEOVER_addr : F.DRN_EV_TAKEOVER.addr = R.DRN_EVENTS := id rfl
@[simp] theorem F.DRN_EV_UNCOVERED_addr : F.DRN_EV_UNCOVERED.addr = R.DRN_EVENTS := id rfl
@[simp] theorem F.DRN_FAILOVER_PAIR_addr : F.DRN_FAILOVER_PAIR.addr = R.DRN_FAILOVER := id rfl
@[simp] theorem F.DRN_FAILOVER_NEEDLE_addr : F.DRN_FAILOVER_NEEDLE.addr = R.DRN_FAILOVER := id rfl
@[simp] theorem F.DRN_FAILOVER_SLICE_addr : F.DRN_FAILOVER_SLICE.addr = R.DRN_FAILOVER := id rfl
@[simp] theorem F.DRN_FAILOVER_UNCOVERED_addr : F.DRN_FAILOVER_UNCOVERED.addr = R.DRN_FAILOVER := id rfl
@[simp] theorem F.MEM_CTRL_SCRUB_EN_addr : F.MEM_CTRL_SCRUB_EN.addr = R.MEM_CTRL := id rfl
@[simp] theorem F.MEM_CTRL_PERIOD_H_addr : F.MEM_CTRL_PERIOD_H.addr = R.MEM_CTRL := id rfl
@[simp] theorem F.MEM_STATUS_SCRUB_BUSY_addr : F.MEM_STATUS_SCRUB_BUSY.addr = R.MEM_STATUS := id rfl
@[simp] theorem F.MEM_STATUS_REMAP_FULL_addr : F.MEM_STATUS_REMAP_FULL.addr = R.MEM_STATUS := id rfl
@[simp] theorem F.MEM_STATUS_RETIRE_HIGH_0_addr : F.MEM_STATUS_RETIRE_HIGH_0.addr = R.MEM_STATUS := id rfl
@[simp] theorem F.MEM_STATUS_RETIRE_HIGH_1_addr : F.MEM_STATUS_RETIRE_HIGH_1.addr = R.MEM_STATUS := id rfl
@[simp] theorem F.MEM_STATUS_SCRUB_PAGE_addr : F.MEM_STATUS_SCRUB_PAGE.addr = R.MEM_STATUS := id rfl
@[simp] theorem F.MEM_STATUS_SCRUB_DIE_addr : F.MEM_STATUS_SCRUB_DIE.addr = R.MEM_STATUS := id rfl
@[simp] theorem F.MEM_THRESH_HARD_CE_addr : F.MEM_THRESH_HARD_CE.addr = R.MEM_THRESH := id rfl
@[simp] theorem F.MEM_THRESH_TEST_MAX_addr : F.MEM_THRESH_TEST_MAX.addr = R.MEM_THRESH := id rfl
@[simp] theorem F.MEM_THRESH_RETIRE_WARN_addr : F.MEM_THRESH_RETIRE_WARN.addr = R.MEM_THRESH := id rfl
@[simp] theorem F.MEM_ERR_WORD_CE_addr (n : Nat) : (F.MEM_ERR_WORD_CE n).addr = R.MEM_ERR n := id rfl
@[simp] theorem F.MEM_ERR_WORD_UE_addr (n : Nat) : (F.MEM_ERR_WORD_UE n).addr = R.MEM_ERR n := id rfl
@[simp] theorem F.MEM_PAGE_PAGE_FIXED_addr (n : Nat) : (F.MEM_PAGE_PAGE_FIXED n).addr = R.MEM_PAGE n := id rfl
@[simp] theorem F.MEM_PAGE_PAGE_UE_addr (n : Nat) : (F.MEM_PAGE_PAGE_UE n).addr = R.MEM_PAGE n := id rfl
@[simp] theorem F.MEM_RETIRE_RETIRED_SPARE_addr (n : Nat) : (F.MEM_RETIRE_RETIRED_SPARE n).addr = R.MEM_RETIRE n := id rfl
@[simp] theorem F.MEM_RETIRE_RETIRED_BUF_addr (n : Nat) : (F.MEM_RETIRE_RETIRED_BUF n).addr = R.MEM_RETIRE n := id rfl
@[simp] theorem F.MEM_REMAP_STATUS_USED_addr : F.MEM_REMAP_STATUS_USED.addr = R.MEM_REMAP_STATUS := id rfl
@[simp] theorem F.MEM_REMAP_SEL_INDEX_addr : F.MEM_REMAP_SEL_INDEX.addr = R.MEM_REMAP_SEL := id rfl
@[simp] theorem F.MEM_REMAP_ENTRY_GRANULE_addr : F.MEM_REMAP_ENTRY_GRANULE.addr = R.MEM_REMAP_ENTRY := id rfl
@[simp] theorem F.MEM_REMAP_ENTRY_DIE_addr : F.MEM_REMAP_ENTRY_DIE.addr = R.MEM_REMAP_ENTRY := id rfl
@[simp] theorem F.MEM_REMAP_ENTRY_VALID_addr : F.MEM_REMAP_ENTRY_VALID.addr = R.MEM_REMAP_ENTRY := id rfl
@[simp] theorem F.MEM_LAST_ERR_LO_ADDR_addr : F.MEM_LAST_ERR_LO_ADDR.addr = R.MEM_LAST_ERR_LO := id rfl
@[simp] theorem F.MEM_LAST_ERR_HI_DIE_addr : F.MEM_LAST_ERR_HI_DIE.addr = R.MEM_LAST_ERR_HI := id rfl
@[simp] theorem F.MEM_LAST_ERR_HI_KIND_addr : F.MEM_LAST_ERR_HI_KIND.addr = R.MEM_LAST_ERR_HI := id rfl
@[simp] theorem F.MEM_LAST_ERR_HI_REGION_addr : F.MEM_LAST_ERR_HI_REGION.addr = R.MEM_LAST_ERR_HI := id rfl
@[simp] theorem F.MEM_EVENTS_EVENTS_addr : F.MEM_EVENTS_EVENTS.addr = R.MEM_EVENTS := id rfl
@[simp] theorem F.MEM_EV_WORD_CE_addr : F.MEM_EV_WORD_CE.addr = R.MEM_EVENTS := id rfl
@[simp] theorem F.MEM_EV_WORD_UE_addr : F.MEM_EV_WORD_UE.addr = R.MEM_EVENTS := id rfl
@[simp] theorem F.MEM_EV_PAGE_FIXED_addr : F.MEM_EV_PAGE_FIXED.addr = R.MEM_EVENTS := id rfl
@[simp] theorem F.MEM_EV_PAGE_UE_addr : F.MEM_EV_PAGE_UE.addr = R.MEM_EVENTS := id rfl
@[simp] theorem F.MEM_EV_REMAPPED_addr : F.MEM_EV_REMAPPED.addr = R.MEM_EVENTS := id rfl
@[simp] theorem F.MEM_EV_RETIRED_addr : F.MEM_EV_RETIRED.addr = R.MEM_EVENTS := id rfl
@[simp] theorem F.MEM_EV_REMAP_FULL_addr : F.MEM_EV_REMAP_FULL.addr = R.MEM_EVENTS := id rfl
@[simp] theorem F.MEM_EV_RETIRE_HIGH_addr : F.MEM_EV_RETIRE_HIGH.addr = R.MEM_EVENTS := id rfl
@[simp] theorem F.MEM_EV_REPAIR_ABORT_addr : F.MEM_EV_REPAIR_ABORT.addr = R.MEM_EVENTS := id rfl
@[simp] theorem F.MEM_TEST_FAILS_addr (n : Nat) : (F.MEM_TEST_FAILS n).addr = R.MEM_TEST n := id rfl
@[simp] theorem F.SRM_STATUS_SPARES_FUSED_addr : F.SRM_STATUS_SPARES_FUSED.addr = R.SRM_STATUS := id rfl
@[simp] theorem F.SRM_STATUS_SPARES_SOFT_addr : F.SRM_STATUS_SPARES_SOFT.addr = R.SRM_STATUS := id rfl
@[simp] theorem F.SRM_STATUS_SPARES_FREE_addr : F.SRM_STATUS_SPARES_FREE.addr = R.SRM_STATUS := id rfl
@[simp] theorem F.SRM_ERR_CE_addr : F.SRM_ERR_CE.addr = R.SRM_ERR := id rfl
@[simp] theorem F.SRM_ERR_UE_addr : F.SRM_ERR_UE.addr = R.SRM_ERR := id rfl
@[simp] theorem F.SRM_LAST_ERR_OFFSET_addr : F.SRM_LAST_ERR_OFFSET.addr = R.SRM_LAST_ERR := id rfl
@[simp] theorem F.SRM_EVENTS_EVENTS_addr : F.SRM_EVENTS_EVENTS.addr = R.SRM_EVENTS := id rfl
@[simp] theorem F.SRM_EV_CE_addr : F.SRM_EV_CE.addr = R.SRM_EVENTS := id rfl
@[simp] theorem F.SRM_EV_UE_addr : F.SRM_EV_UE.addr = R.SRM_EVENTS := id rfl
@[simp] theorem F.SRM_EV_SOFT_REPAIR_addr : F.SRM_EV_SOFT_REPAIR.addr = R.SRM_EVENTS := id rfl
@[simp] theorem F.SRM_EV_CTX_UE_addr : F.SRM_EV_CTX_UE.addr = R.SRM_EVENTS := id rfl
@[simp] theorem F.TIR_STATUS_STATE_addr : F.TIR_STATUS_STATE.addr = R.TIR_STATUS := id rfl
@[simp] theorem F.TIR_STATUS_SEALED_addr : F.TIR_STATUS_SEALED.addr = R.TIR_STATUS := id rfl
@[simp] theorem F.TIR_STATUS_SNAG_ARMED_addr : F.TIR_STATUS_SNAG_ARMED.addr = R.TIR_STATUS := id rfl
@[simp] theorem F.TIR_STATUS_GRANTS_addr : F.TIR_STATUS_GRANTS.addr = R.TIR_STATUS := id rfl
@[simp] theorem F.TIR_STATUS_LOCKOUT_addr : F.TIR_STATUS_LOCKOUT.addr = R.TIR_STATUS := id rfl
@[simp] theorem F.TIR_ALARM_CAUSE_addr : F.TIR_ALARM_CAUSE.addr = R.TIR_ALARM := id rfl
@[simp] theorem F.TIR_ALARM_SIMULATED_addr : F.TIR_ALARM_SIMULATED.addr = R.TIR_ALARM := id rfl
@[simp] theorem F.TIR_ALARM_COUNT_addr : F.TIR_ALARM_COUNT.addr = R.TIR_ALARM := id rfl
@[simp] theorem F.TIR_ALARM_AUTH_FAILS_addr : F.TIR_ALARM_AUTH_FAILS.addr = R.TIR_ALARM := id rfl
@[simp] theorem F.TIR_SVN_SEL_COMPONENT_addr : F.TIR_SVN_SEL_COMPONENT.addr = R.TIR_SVN_SEL := id rfl
@[simp] theorem F.TIR_SVN_LO_SVN_LO_addr : F.TIR_SVN_LO_SVN_LO.addr = R.TIR_SVN_LO := id rfl
@[simp] theorem F.TIR_SVN_HI_SVN_HI_addr : F.TIR_SVN_HI_SVN_HI.addr = R.TIR_SVN_HI := id rfl
@[simp] theorem F.TIR_MBX_CMD_OPCODE_addr (n : Nat) : (F.TIR_MBX_CMD_OPCODE n).addr = R.TIR_MBX_CMD n := id rfl
@[simp] theorem F.TIR_MBX_CMD_TAG_addr (n : Nat) : (F.TIR_MBX_CMD_TAG n).addr = R.TIR_MBX_CMD n := id rfl
@[simp] theorem F.TIR_MBX_CMD_GO_addr (n : Nat) : (F.TIR_MBX_CMD_GO n).addr = R.TIR_MBX_CMD n := id rfl
@[simp] theorem F.TIR_MBX_ARG_ARG_addr (n k : Nat) : (F.TIR_MBX_ARG_ARG n k).addr = R.TIR_MBX_ARG n k := id rfl
@[simp] theorem F.TIR_MBX_STATUS_BUSY_addr (n : Nat) : (F.TIR_MBX_STATUS_BUSY n).addr = R.TIR_MBX_STATUS n := id rfl
@[simp] theorem F.TIR_MBX_STATUS_DONE_addr (n : Nat) : (F.TIR_MBX_STATUS_DONE n).addr = R.TIR_MBX_STATUS n := id rfl
@[simp] theorem F.TIR_MBX_STATUS_RESULT_addr (n : Nat) : (F.TIR_MBX_STATUS_RESULT n).addr = R.TIR_MBX_STATUS n := id rfl
@[simp] theorem F.TIR_MBX_RESP_RESP_addr (n k : Nat) : (F.TIR_MBX_RESP_RESP n k).addr = R.TIR_MBX_RESP n k := id rfl
@[simp] theorem F.CIP_CTRL_ENABLE_addr : F.CIP_CTRL_ENABLE.addr = R.CIP_CTRL := id rfl
@[simp] theorem F.CIP_CTRL_HOOK_WE_addr : F.CIP_CTRL_HOOK_WE.addr = R.CIP_CTRL := id rfl
@[simp] theorem F.CIP_STATUS_STATE_addr : F.CIP_STATUS_STATE.addr = R.CIP_STATUS := id rfl
@[simp] theorem F.CIP_STATUS_CORE_OK_addr : F.CIP_STATUS_CORE_OK.addr = R.CIP_STATUS := id rfl
@[simp] theorem F.CIP_STATUS_KAT_FAIL_addr : F.CIP_STATUS_KAT_FAIL.addr = R.CIP_STATUS := id rfl
@[simp] theorem F.CIP_HOOK_BIND_XTS_ENC_addr : F.CIP_HOOK_BIND_XTS_ENC.addr = R.CIP_HOOK_BIND := id rfl
@[simp] theorem F.CIP_HOOK_BIND_XTS_DEC_addr : F.CIP_HOOK_BIND_XTS_DEC.addr = R.CIP_HOOK_BIND := id rfl
@[simp] theorem F.CIP_HOOK_BIND_GCM_ENC_addr : F.CIP_HOOK_BIND_GCM_ENC.addr = R.CIP_HOOK_BIND := id rfl
@[simp] theorem F.CIP_HOOK_BIND_GCM_DEC_addr : F.CIP_HOOK_BIND_GCM_DEC.addr = R.CIP_HOOK_BIND := id rfl
@[simp] theorem F.CIP_HOOK_BIND_CTR_ENC_addr : F.CIP_HOOK_BIND_CTR_ENC.addr = R.CIP_HOOK_BIND := id rfl
@[simp] theorem F.CIP_HOOK_BIND_CTR_DEC_addr : F.CIP_HOOK_BIND_CTR_DEC.addr = R.CIP_HOOK_BIND := id rfl
@[simp] theorem F.CIP_HOOK_BIND_CMAC_GEN_addr : F.CIP_HOOK_BIND_CMAC_GEN.addr = R.CIP_HOOK_BIND := id rfl
@[simp] theorem F.CIP_HOOK_BIND_CMAC_VER_addr : F.CIP_HOOK_BIND_CMAC_VER.addr = R.CIP_HOOK_BIND := id rfl
@[simp] theorem F.CIP_HOOK_ADDR_ADDR_addr : F.CIP_HOOK_ADDR_ADDR.addr = R.CIP_HOOK_ADDR := id rfl
@[simp] theorem F.CIP_HOOK_DATA_DATA_addr : F.CIP_HOOK_DATA_DATA.addr = R.CIP_HOOK_DATA := id rfl
@[simp] theorem F.CIP_HOOK_CRC_CRC_addr : F.CIP_HOOK_CRC_CRC.addr = R.CIP_HOOK_CRC := id rfl
@[simp] theorem F.CIP_SLOT_SEL_SLOT_addr : F.CIP_SLOT_SEL_SLOT.addr = R.CIP_SLOT_SEL := id rfl
@[simp] theorem F.CIP_SLOT_CFG_ALG_addr : F.CIP_SLOT_CFG_ALG.addr = R.CIP_SLOT_CFG := id rfl
@[simp] theorem F.CIP_SLOT_CFG_MODE_addr : F.CIP_SLOT_CFG_MODE.addr = R.CIP_SLOT_CFG := id rfl
@[simp] theorem F.CIP_SLOT_CFG_TEST_addr : F.CIP_SLOT_CFG_TEST.addr = R.CIP_SLOT_CFG := id rfl
@[simp] theorem F.CIP_SLOT_CFG_RESERVED_addr : F.CIP_SLOT_CFG_RESERVED.addr = R.CIP_SLOT_CFG := id rfl
@[simp] theorem F.CIP_SLOT_CFG_CUR_BANK_addr : F.CIP_SLOT_CFG_CUR_BANK.addr = R.CIP_SLOT_CFG := id rfl
@[simp] theorem F.CIP_SLOT_CFG_DRAINING_addr : F.CIP_SLOT_CFG_DRAINING.addr = R.CIP_SLOT_CFG := id rfl
@[simp] theorem F.CIP_SLOT_CFG_EXHAUSTED_addr : F.CIP_SLOT_CFG_EXHAUSTED.addr = R.CIP_SLOT_CFG := id rfl
@[simp] theorem F.CIP_SLOT_BIND_ZONE_addr : F.CIP_SLOT_BIND_ZONE.addr = R.CIP_SLOT_BIND := id rfl
@[simp] theorem F.CIP_SLOT_BIND_NSID_addr : F.CIP_SLOT_BIND_NSID.addr = R.CIP_SLOT_BIND := id rfl
@[simp] theorem F.CIP_SLOT_BIND_KPIO_addr : F.CIP_SLOT_BIND_KPIO.addr = R.CIP_SLOT_BIND := id rfl
@[simp] theorem F.CIP_SLOT_GEN_GEN_addr : F.CIP_SLOT_GEN_GEN.addr = R.CIP_SLOT_GEN := id rfl
@[simp] theorem F.CIP_SLOT_TAG_KEY_TAG_addr : F.CIP_SLOT_TAG_KEY_TAG.addr = R.CIP_SLOT_TAG := id rfl
@[simp] theorem F.CIP_SLOT_TAG_PINNED_addr : F.CIP_SLOT_TAG_PINNED.addr = R.CIP_SLOT_TAG := id rfl
@[simp] theorem F.CIP_SLOT_USE_LO_USE_LO_addr : F.CIP_SLOT_USE_LO_USE_LO.addr = R.CIP_SLOT_USE_LO := id rfl
@[simp] theorem F.CIP_SLOT_USE_HI_USE_HI_addr : F.CIP_SLOT_USE_HI_USE_HI.addr = R.CIP_SLOT_USE_HI := id rfl
@[simp] theorem F.CIP_SLOT_CMD_ERASE_addr : F.CIP_SLOT_CMD_ERASE.addr = R.CIP_SLOT_CMD := id rfl
@[simp] theorem F.CIP_TESTKEY_KEY_addr (k : Nat) : (F.CIP_TESTKEY_KEY k).addr = R.CIP_TESTKEY k := id rfl
@[simp] theorem F.CIP_TESTKEY_LOAD_ALG_addr : F.CIP_TESTKEY_LOAD_ALG.addr = R.CIP_TESTKEY_LOAD := id rfl
@[simp] theorem F.CIP_TESTKEY_LOAD_MODE_addr : F.CIP_TESTKEY_LOAD_MODE.addr = R.CIP_TESTKEY_LOAD := id rfl
@[simp] theorem F.CIP_TESTKEY_LOAD_SLOT_addr : F.CIP_TESTKEY_LOAD_SLOT.addr = R.CIP_TESTKEY_LOAD := id rfl
@[simp] theorem F.CIP_TESTKEY_LOAD_GO_addr : F.CIP_TESTKEY_LOAD_GO.addr = R.CIP_TESTKEY_LOAD := id rfl
@[simp] theorem F.CIP_EVENTS_EVENTS_addr : F.CIP_EVENTS_EVENTS.addr = R.CIP_EVENTS := id rfl
@[simp] theorem F.CIP_EV_TAG_FAIL_addr : F.CIP_EV_TAG_FAIL.addr = R.CIP_EVENTS := id rfl
@[simp] theorem F.CIP_EV_POISONED_addr : F.CIP_EV_POISONED.addr = R.CIP_EVENTS := id rfl
@[simp] theorem F.CIP_EV_KEY_ERASED_addr : F.CIP_EV_KEY_ERASED.addr = R.CIP_EVENTS := id rfl
@[simp] theorem F.CIP_EV_KEY_EXHAUSTED_addr : F.CIP_EV_KEY_EXHAUSTED.addr = R.CIP_EVENTS := id rfl
@[simp] theorem F.CIP_EV_KEY_MISMATCH_addr : F.CIP_EV_KEY_MISMATCH.addr = R.CIP_EVENTS := id rfl
@[simp] theorem F.CIP_EV_CORE_FAULT_addr : F.CIP_EV_CORE_FAULT.addr = R.CIP_EVENTS := id rfl
@[simp] theorem F.CIP_EV_KAT_FAIL_addr : F.CIP_EV_KAT_FAIL.addr = R.CIP_EVENTS := id rfl
@[simp] theorem F.CIP_EV_HOOK_WRITE_REFUSED_addr : F.CIP_EV_HOOK_WRITE_REFUSED.addr = R.CIP_EVENTS := id rfl
@[simp] theorem F.CIP_EV_DRAINED_addr : F.CIP_EV_DRAINED.addr = R.CIP_EVENTS := id rfl
@[simp] theorem F.CIP_EV_HOOK_FAULT_addr : F.CIP_EV_HOOK_FAULT.addr = R.CIP_EVENTS := id rfl
@[simp] theorem F.CIP_COUNTS_TAG_FAILS_addr : F.CIP_COUNTS_TAG_FAILS.addr = R.CIP_COUNTS := id rfl
@[simp] theorem F.CIP_COUNTS_POISONED_SECTORS_addr : F.CIP_COUNTS_POISONED_SECTORS.addr = R.CIP_COUNTS := id rfl
@[simp] theorem F.CIP_JOB_SRC_SRC_addr : F.CIP_JOB_SRC_SRC.addr = R.CIP_JOB_SRC := id rfl
@[simp] theorem F.CIP_JOB_DST_DST_addr : F.CIP_JOB_DST_DST.addr = R.CIP_JOB_DST := id rfl
@[simp] theorem F.CIP_JOB_LEN_BLOCKS_addr : F.CIP_JOB_LEN_BLOCKS.addr = R.CIP_JOB_LEN := id rfl
@[simp] theorem F.CIP_JOB_CTRL_SLOT_addr : F.CIP_JOB_CTRL_SLOT.addr = R.CIP_JOB_CTRL := id rfl
@[simp] theorem F.CIP_JOB_CTRL_OP_addr : F.CIP_JOB_CTRL_OP.addr = R.CIP_JOB_CTRL := id rfl
@[simp] theorem F.CIP_JOB_CTRL_GO_addr : F.CIP_JOB_CTRL_GO.addr = R.CIP_JOB_CTRL := id rfl
@[simp] theorem F.CIP_JOB_STATUS_BUSY_addr : F.CIP_JOB_STATUS_BUSY.addr = R.CIP_JOB_STATUS := id rfl
@[simp] theorem F.CIP_JOB_STATUS_DONE_addr : F.CIP_JOB_STATUS_DONE.addr = R.CIP_JOB_STATUS := id rfl
@[simp] theorem F.CIP_JOB_STATUS_RESULT_addr : F.CIP_JOB_STATUS_RESULT.addr = R.CIP_JOB_STATUS := id rfl
@[simp] theorem F.GAU_CMD_KIND_addr : F.GAU_CMD_KIND.addr = R.GAU_CMD := id rfl
@[simp] theorem F.GAU_CMD_SLICE_addr : F.GAU_CMD_SLICE.addr = R.GAU_CMD := id rfl
@[simp] theorem F.GAU_CMD_ACT_addr : F.GAU_CMD_ACT.addr = R.GAU_CMD := id rfl
@[simp] theorem F.GAU_CMD_HEAD_addr : F.GAU_CMD_HEAD.addr = R.GAU_CMD := id rfl
@[simp] theorem F.GAU_CMD_GO_addr : F.GAU_CMD_GO.addr = R.GAU_CMD := id rfl
@[simp] theorem F.GAU_STATUS_BUSY_addr : F.GAU_STATUS_BUSY.addr = R.GAU_STATUS := id rfl
@[simp] theorem F.GAU_STATUS_DONE_addr : F.GAU_STATUS_DONE.addr = R.GAU_STATUS := id rfl
@[simp] theorem F.GAU_STATUS_RESULT_addr : F.GAU_STATUS_RESULT.addr = R.GAU_STATUS := id rfl
@[simp] theorem F.GAU_STATUS_WAIT_addr : F.GAU_STATUS_WAIT.addr = R.GAU_STATUS := id rfl
@[simp] theorem F.GAU_STATUS_KIND_addr : F.GAU_STATUS_KIND.addr = R.GAU_STATUS := id rfl
@[simp] theorem F.GAU_RAW_RAW_addr : F.GAU_RAW_RAW.addr = R.GAU_RAW := id rfl
@[simp] theorem F.GAU_CFG_TD_STEP_addr : F.GAU_CFG_TD_STEP.addr = R.GAU_CFG := id rfl
@[simp] theorem F.GAU_CFG_RD_BACKOFF_addr : F.GAU_CFG_RD_BACKOFF.addr = R.GAU_CFG := id rfl
@[simp] theorem F.GAU_CFG_WR_BACKOFF_addr : F.GAU_CFG_WR_BACKOFF.addr = R.GAU_CFG := id rfl
@[simp] theorem F.GAU_CFG_AP_HEADROOM_addr : F.GAU_CFG_AP_HEADROOM.addr = R.GAU_CFG := id rfl
@[simp] theorem F.GAU_CFG2_AP_STEP_addr : F.GAU_CFG2_AP_STEP.addr = R.GAU_CFG2 := id rfl
@[simp] theorem F.GAU_CFG2_DRIFT_PCT_addr : F.GAU_CFG2_DRIFT_PCT.addr = R.GAU_CFG2 := id rfl
@[simp] theorem F.GAU_SWATCH_TRACK_addr : F.GAU_SWATCH_TRACK.addr = R.GAU_SWATCH := id rfl
@[simp] theorem F.GAU_SWATCH_WRITE_addr : F.GAU_SWATCH_WRITE.addr = R.GAU_SWATCH := id rfl
@[simp] theorem F.GAU_TREF_TEMP_addr : F.GAU_TREF_TEMP.addr = R.GAU_TREF := id rfl
@[simp] theorem F.GAU_EVENTS_EVENTS_addr : F.GAU_EVENTS_EVENTS.addr = R.GAU_EVENTS := id rfl
@[simp] theorem F.GAU_EV_SAT_addr : F.GAU_EV_SAT.addr = R.GAU_EVENTS := id rfl
@[simp] theorem F.GAU_EV_ABANDONED_addr : F.GAU_EV_ABANDONED.addr = R.GAU_EVENTS := id rfl
@[simp] theorem F.GAU_EV_DRIFT_addr : F.GAU_EV_DRIFT.addr = R.GAU_EVENTS := id rfl
@[simp] theorem F.GAU_DRIFT_HEAD_addr : F.GAU_DRIFT_HEAD.addr = R.GAU_DRIFT := id rfl
@[simp] theorem F.GAU_DRIFT_ACT_addr : F.GAU_DRIFT_ACT.addr = R.GAU_DRIFT := id rfl
@[simp] theorem F.GAU_ADC_OFFSET_addr (n : Nat) : (F.GAU_ADC_OFFSET n).addr = R.GAU_ADC n := id rfl
@[simp] theorem F.GAU_ADC_GAIN_addr (n : Nat) : (F.GAU_ADC_GAIN n).addr = R.GAU_ADC n := id rfl
@[simp] theorem F.GAU_SKEW_SKEW_addr (n : Nat) : (F.GAU_SKEW_SKEW n).addr = R.GAU_SKEW n := id rfl
@[simp] theorem F.GAU_RDR_GAIN_R1_addr (a h : Nat) : (F.GAU_RDR_GAIN_R1 a h).addr = R.GAU_RDR a h := id rfl
@[simp] theorem F.GAU_RDR_GAIN_R2_addr (a h : Nat) : (F.GAU_RDR_GAIN_R2 a h).addr = R.GAU_RDR a h := id rfl
@[simp] theorem F.GAU_RDR_ASYM_R1_addr (a h : Nat) : (F.GAU_RDR_ASYM_R1 a h).addr = R.GAU_RDR a h := id rfl
@[simp] theorem F.GAU_RDR_ASYM_R2_addr (a h : Nat) : (F.GAU_RDR_ASYM_R2 a h).addr = R.GAU_RDR a h := id rfl
@[simp] theorem F.GAU_ISENSE_SPN_U_addr : F.GAU_ISENSE_SPN_U.addr = R.GAU_ISENSE := id rfl
@[simp] theorem F.GAU_ISENSE_SPN_V_addr : F.GAU_ISENSE_SPN_V.addr = R.GAU_ISENSE := id rfl
@[simp] theorem F.GAU_ISENSE_SPN_W_addr : F.GAU_ISENSE_SPN_W.addr = R.GAU_ISENSE := id rfl
@[simp] theorem F.GAU_ISENSE_VCM_A_addr : F.GAU_ISENSE_VCM_A.addr = R.GAU_ISENSE_VCM := id rfl
@[simp] theorem F.GAU_ISENSE_VCM_B_addr : F.GAU_ISENSE_VCM_B.addr = R.GAU_ISENSE_VCM := id rfl
@[simp] theorem F.GAU_TEMP_MON0_addr : F.GAU_TEMP_MON0.addr = R.GAU_TEMP := id rfl
@[simp] theorem F.GAU_TEMP_MON1_addr : F.GAU_TEMP_MON1.addr = R.GAU_TEMP := id rfl
@[simp] theorem F.GAU_TEMP_MON2_addr : F.GAU_TEMP_MON2.addr = R.GAU_TEMP := id rfl
@[simp] theorem F.GAU_HEALTH_SHORT_addr (a h : Nat) : (F.GAU_HEALTH_SHORT a h).addr = R.GAU_HEALTH a h := id rfl
@[simp] theorem F.GAU_HEALTH_LONG_addr (a h : Nat) : (F.GAU_HEALTH_LONG a h).addr = R.GAU_HEALTH a h := id rfl
@[simp] theorem F.UPD_STATUS_SESSION_addr : F.UPD_STATUS_SESSION.addr = R.UPD_STATUS := id rfl
@[simp] theorem F.UPD_STATUS_SOURCES_addr : F.UPD_STATUS_SOURCES.addr = R.UPD_STATUS := id rfl
@[simp] theorem F.UPD_STATUS_ACT_STATE_addr : F.UPD_STATUS_ACT_STATE.addr = R.UPD_STATUS := id rfl
@[simp] theorem F.UPD_STATUS_COMPONENT_addr : F.UPD_STATUS_COMPONENT.addr = R.UPD_STATUS := id rfl
@[simp] theorem F.UPD_STATUS_TENTATIVE_addr : F.UPD_STATUS_TENTATIVE.addr = R.UPD_STATUS := id rfl
@[simp] theorem F.UPD_STATUS_UNCONF_addr : F.UPD_STATUS_UNCONF.addr = R.UPD_STATUS := id rfl
@[simp] theorem F.UPD_STATUS_STAGED_addr : F.UPD_STATUS_STAGED.addr = R.UPD_STATUS := id rfl
@[simp] theorem F.UPD_STATUS_AT_RESET_addr : F.UPD_STATUS_AT_RESET.addr = R.UPD_STATUS := id rfl
@[simp] theorem F.UPD_CTRL_ABORT_addr : F.UPD_CTRL_ABORT.addr = R.UPD_CTRL := id rfl
@[simp] theorem F.UPD_CTRL_FROG_addr : F.UPD_CTRL_FROG.addr = R.UPD_CTRL := id rfl
@[simp] theorem F.UPD_ERR_CODE_addr : F.UPD_ERR_CODE.addr = R.UPD_ERR := id rfl
@[simp] theorem F.UPD_ERR_DETAIL_addr : F.UPD_ERR_DETAIL.addr = R.UPD_ERR := id rfl
@[simp] theorem F.UPD_ERR_COMPONENT_addr : F.UPD_ERR_COMPONENT.addr = R.UPD_ERR := id rfl
@[simp] theorem F.UPD_PIECES_KEPT_addr : F.UPD_PIECES_KEPT.addr = R.UPD_PIECES := id rfl
@[simp] theorem F.UPD_TOTAL_TOTAL_addr : F.UPD_TOTAL_TOTAL.addr = R.UPD_TOTAL := id rfl
@[simp] theorem F.UPD_IDLE_MIN_LEFT_addr : F.UPD_IDLE_MIN_LEFT.addr = R.UPD_IDLE := id rfl
@[simp] theorem F.UPD_HANDOVER_SPARE_READY_addr : F.UPD_HANDOVER_SPARE_READY.addr = R.UPD_HANDOVER := id rfl
@[simp] theorem F.UPD_HANDOVER_QUIESCED_addr : F.UPD_HANDOVER_QUIESCED.addr = R.UPD_HANDOVER := id rfl
@[simp] theorem F.UPD_HANDOVER_TAKEN_addr : F.UPD_HANDOVER_TAKEN.addr = R.UPD_HANDOVER := id rfl
@[simp] theorem F.UPD_HANDOVER_REQUEST_addr : F.UPD_HANDOVER_REQUEST.addr = R.UPD_HANDOVER := id rfl
@[simp] theorem F.UPD_HANDOVER_PAIR_addr : F.UPD_HANDOVER_PAIR.addr = R.UPD_HANDOVER := id rfl
@[simp] theorem F.UPD_HANDOVER_X_FOR_addr : F.UPD_HANDOVER_X_FOR.addr = R.UPD_HANDOVER := id rfl
@[simp] theorem F.UPD_REC_ADDR_ADDR_addr : F.UPD_REC_ADDR_ADDR.addr = R.UPD_REC_ADDR := id rfl
@[simp] theorem F.UPD_SEQ_LO_SEQ_LO_addr : F.UPD_SEQ_LO_SEQ_LO.addr = R.UPD_SEQ_LO := id rfl
@[simp] theorem F.UPD_SEQ_HI_SEQ_HI_addr : F.UPD_SEQ_HI_SEQ_HI.addr = R.UPD_SEQ_HI := id rfl
@[simp] theorem F.UPD_EVENTS_EVENTS_addr : F.UPD_EVENTS_EVENTS.addr = R.UPD_EVENTS := id rfl
@[simp] theorem F.UPD_EV_SESSION_OPEN_addr : F.UPD_EV_SESSION_OPEN.addr = R.UPD_EVENTS := id rfl
@[simp] theorem F.UPD_EV_SESSION_DONE_addr : F.UPD_EV_SESSION_DONE.addr = R.UPD_EVENTS := id rfl
@[simp] theorem F.UPD_EV_SESSION_ABORT_addr : F.UPD_EV_SESSION_ABORT.addr = R.UPD_EVENTS := id rfl
@[simp] theorem F.UPD_EV_SESSION_EXPIRED_addr : F.UPD_EV_SESSION_EXPIRED.addr = R.UPD_EVENTS := id rfl
@[simp] theorem F.UPD_EV_VERIFY_FAIL_addr : F.UPD_EV_VERIFY_FAIL.addr = R.UPD_EVENTS := id rfl
@[simp] theorem F.UPD_EV_ACTIVATED_addr : F.UPD_EV_ACTIVATED.addr = R.UPD_EVENTS := id rfl
@[simp] theorem F.UPD_EV_ABORTED_addr : F.UPD_EV_ABORTED.addr = R.UPD_EVENTS := id rfl
@[simp] theorem F.UPD_EV_CONFIRMED_addr : F.UPD_EV_CONFIRMED.addr = R.UPD_EVENTS := id rfl
@[simp] theorem F.UPD_EV_FROGGED_addr : F.UPD_EV_FROGGED.addr = R.UPD_EVENTS := id rfl
@[simp] theorem F.UPD_EV_SETTINGS_RESET_addr : F.UPD_EV_SETTINGS_RESET.addr = R.UPD_EVENTS := id rfl
@[simp] theorem F.UPD_DIGEST_DIGEST_addr (n : Nat) : (F.UPD_DIGEST_DIGEST n).addr = R.UPD_DIGEST n := id rfl
@[simp] theorem F.REC_STATUS_STORE_addr : F.REC_STATUS_STORE.addr = R.REC_STATUS := id rfl
@[simp] theorem F.REC_STATUS_FULL_addr : F.REC_STATUS_FULL.addr = R.REC_STATUS := id rfl
@[simp] theorem F.REC_STATUS_CLEAR_BUSY_addr : F.REC_STATUS_CLEAR_BUSY.addr = R.REC_STATUS := id rfl
@[simp] theorem F.REC_STATUS_MIRROR_PENDING_addr : F.REC_STATUS_MIRROR_PENDING.addr = R.REC_STATUS := id rfl
@[simp] theorem F.REC_STATUS_FIFO_LEVEL_addr : F.REC_STATUS_FIFO_LEVEL.addr = R.REC_STATUS := id rfl
@[simp] theorem F.REC_CTRL_CLEAR_addr : F.REC_CTRL_CLEAR.addr = R.REC_CTRL := id rfl
@[simp] theorem F.REC_CTRL_CLEAR_SEL_addr : F.REC_CTRL_CLEAR_SEL.addr = R.REC_CTRL := id rfl
@[simp] theorem F.REC_NEXT_INDEX_addr : F.REC_NEXT_INDEX.addr = R.REC_NEXT := id rfl
@[simp] theorem F.REC_SEQ_SEQ_addr : F.REC_SEQ_SEQ.addr = R.REC_SEQ := id rfl
@[simp] theorem F.REC_FILTER_MIN_addr : F.REC_FILTER_MIN.addr = R.REC_FILTER := id rfl
@[simp] theorem F.REC_SOURCES_LO_MASK_LO_addr : F.REC_SOURCES_LO_MASK_LO.addr = R.REC_SOURCES_LO := id rfl
@[simp] theorem F.REC_SOURCES_HI_MASK_HI_addr : F.REC_SOURCES_HI_MASK_HI.addr = R.REC_SOURCES_HI := id rfl
@[simp] theorem F.REC_LOST_LOST_addr (n : Nat) : (F.REC_LOST_LOST n).addr = R.REC_LOST n := id rfl
@[simp] theorem F.REC_COAL_SEL_SOURCE_addr : F.REC_COAL_SEL_SOURCE.addr = R.REC_COAL_SEL := id rfl
@[simp] theorem F.REC_COAL_VAL_COUNT_addr : F.REC_COAL_VAL_COUNT.addr = R.REC_COAL_VAL := id rfl
@[simp] theorem F.REC_EVENTS_EVENTS_addr : F.REC_EVENTS_EVENTS.addr = R.REC_EVENTS := id rfl
@[simp] theorem F.REC_EV_OVERFLOW_addr : F.REC_EV_OVERFLOW.addr = R.REC_EVENTS := id rfl
@[simp] theorem F.REC_EV_FULL_addr : F.REC_EV_FULL.addr = R.REC_EVENTS := id rfl
@[simp] theorem F.REC_EV_STORE_FAIL_addr : F.REC_EV_STORE_FAIL.addr = R.REC_EVENTS := id rfl
@[simp] theorem F.REC_EV_FALLBACK_FULL_addr : F.REC_EV_FALLBACK_FULL.addr = R.REC_EVENTS := id rfl
@[simp] theorem F.REC_EV_CLEAR_DONE_addr : F.REC_EV_CLEAR_DONE.addr = R.REC_EVENTS := id rfl
@[simp] theorem F.REC_EV_CLEAR_REFUSED_addr : F.REC_EV_CLEAR_REFUSED.addr = R.REC_EVENTS := id rfl
@[simp] theorem F.REC_EV_TORN_addr : F.REC_EV_TORN.addr = R.REC_EVENTS := id rfl
@[simp] theorem F.REC_EV_MIRROR_LOST_addr : F.REC_EV_MIRROR_LOST.addr = R.REC_EVENTS := id rfl
@[simp] theorem F.REC_EV_FW_REFUSED_addr : F.REC_EV_FW_REFUSED.addr = R.REC_EVENTS := id rfl
@[simp] theorem F.REC_ANCHOR_LO_HOST_LO_addr : F.REC_ANCHOR_LO_HOST_LO.addr = R.REC_ANCHOR_LO := id rfl
@[simp] theorem F.REC_ANCHOR_HI_HOST_HI_addr : F.REC_ANCHOR_HI_HOST_HI.addr = R.REC_ANCHOR_HI := id rfl
@[simp] theorem F.REC_ANCHOR_HI_ATTR_addr : F.REC_ANCHOR_HI_ATTR.addr = R.REC_ANCHOR_HI := id rfl
@[simp] theorem F.REC_ANCHOR_HI_GO_addr : F.REC_ANCHOR_HI_GO.addr = R.REC_ANCHOR_HI := id rfl
@[simp] theorem F.REC_FW_TYPE_TYPE_LO_addr : F.REC_FW_TYPE_TYPE_LO.addr = R.REC_FW_TYPE := id rfl
@[simp] theorem F.REC_FW_TYPE_SOURCE_addr : F.REC_FW_TYPE_SOURCE.addr = R.REC_FW_TYPE := id rfl
@[simp] theorem F.REC_FW_TYPE_SEVERITY_addr : F.REC_FW_TYPE_SEVERITY.addr = R.REC_FW_TYPE := id rfl
@[simp] theorem F.REC_FW_TYPE_GO_addr : F.REC_FW_TYPE_GO.addr = R.REC_FW_TYPE := id rfl
@[simp] theorem F.REC_FW_PAYLOAD_PAYLOAD_addr (k : Nat) : (F.REC_FW_PAYLOAD_PAYLOAD k).addr = R.REC_FW_PAYLOAD k := id rfl
@[simp] theorem F.SNG_CTRL_ARM_addr : F.SNG_CTRL_ARM.addr = R.SNG_CTRL := id rfl
@[simp] theorem F.SNG_CTRL_DISARM_addr : F.SNG_CTRL_DISARM.addr = R.SNG_CTRL := id rfl
@[simp] theorem F.SNG_STATUS_ARMED_addr : F.SNG_STATUS_ARMED.addr = R.SNG_STATUS := id rfl
@[simp] theorem F.SNG_STATUS_ACTIVE_addr : F.SNG_STATUS_ACTIVE.addr = R.SNG_STATUS := id rfl
@[simp] theorem F.SNG_STATUS_HELD_addr : F.SNG_STATUS_HELD.addr = R.SNG_STATUS := id rfl
@[simp] theorem F.SNG_SEED_SEED_addr : F.SNG_SEED_SEED.addr = R.SNG_SEED := id rfl
@[simp] theorem F.SNG_COUNT_INJECTED_addr : F.SNG_COUNT_INJECTED.addr = R.SNG_COUNT := id rfl
@[simp] theorem F.SNG_EVENTS_EVENTS_addr : F.SNG_EVENTS_EVENTS.addr = R.SNG_EVENTS := id rfl
@[simp] theorem F.SNG_EV_ARM_REFUSED_addr : F.SNG_EV_ARM_REFUSED.addr = R.SNG_EVENTS := id rfl
@[simp] theorem F.SNG_EV_INJ_REFUSED_addr : F.SNG_EV_INJ_REFUSED.addr = R.SNG_EVENTS := id rfl
@[simp] theorem F.SNG_EV_INJ_DONE_addr : F.SNG_EV_INJ_DONE.addr = R.SNG_EVENTS := id rfl
@[simp] theorem F.SNG_INJ_CFG_POINT_addr (n : Nat) : (F.SNG_INJ_CFG_POINT n).addr = R.SNG_INJ_CFG n := id rfl
@[simp] theorem F.SNG_INJ_CFG_TIMING_addr (n : Nat) : (F.SNG_INJ_CFG_TIMING n).addr = R.SNG_INJ_CFG n := id rfl
@[simp] theorem F.SNG_INJ_CFG_ACTION_addr (n : Nat) : (F.SNG_INJ_CFG_ACTION n).addr = R.SNG_INJ_CFG n := id rfl
@[simp] theorem F.SNG_INJ_CFG_FORCE_addr (n : Nat) : (F.SNG_INJ_CFG_FORCE n).addr = R.SNG_INJ_CFG n := id rfl
@[simp] theorem F.SNG_INJ_CFG_REPLAY_addr (n : Nat) : (F.SNG_INJ_CFG_REPLAY n).addr = R.SNG_INJ_CFG n := id rfl
@[simp] theorem F.SNG_INJ_CFG_GO_addr (n : Nat) : (F.SNG_INJ_CFG_GO n).addr = R.SNG_INJ_CFG n := id rfl
@[simp] theorem F.SNG_INJ_TARGET_INSTANCE_addr (n : Nat) : (F.SNG_INJ_TARGET_INSTANCE n).addr = R.SNG_INJ_TARGET n := id rfl
@[simp] theorem F.SNG_INJ_TARGET_PARAM_addr (n : Nat) : (F.SNG_INJ_TARGET_PARAM n).addr = R.SNG_INJ_TARGET n := id rfl
@[simp] theorem F.SNG_INJ_TARGET_PERIOD_addr (n : Nat) : (F.SNG_INJ_TARGET_PERIOD n).addr = R.SNG_INJ_TARGET n := id rfl
@[simp] theorem F.SNG_INJ_ADDR_ADDR_addr (n : Nat) : (F.SNG_INJ_ADDR_ADDR n).addr = R.SNG_INJ_ADDR n := id rfl
@[simp] theorem F.SNG_INJ_COUNT_LIMIT_addr (n : Nat) : (F.SNG_INJ_COUNT_LIMIT n).addr = R.SNG_INJ_COUNT n := id rfl
@[simp] theorem F.SNG_INJ_COUNT_DONE_addr (n : Nat) : (F.SNG_INJ_COUNT_DONE n).addr = R.SNG_INJ_COUNT n := id rfl
@[simp] theorem F.DBG_STATUS_GRANTS_addr : F.DBG_STATUS_GRANTS.addr = R.DBG_STATUS := id rfl
@[simp] theorem F.DBG_STATUS_TRACE_ON_addr : F.DBG_STATUS_TRACE_ON.addr = R.DBG_STATUS := id rfl
@[simp] theorem F.DBG_STATUS_HALTED_addr : F.DBG_STATUS_HALTED.addr = R.DBG_STATUS := id rfl
@[simp] theorem F.DBG_CTRL_WARM_addr : F.DBG_CTRL_WARM.addr = R.DBG_CTRL := id rfl
@[simp] theorem F.DBG_CTRL_KEY_addr : F.DBG_CTRL_KEY.addr = R.DBG_CTRL := id rfl
@[simp] theorem F.DBG_HALT_PAIRS_addr : F.DBG_HALT_PAIRS.addr = R.DBG_HALT := id rfl
@[simp] theorem F.DBG_HALT_NEEDLES_addr : F.DBG_HALT_NEEDLES.addr = R.DBG_HALT := id rfl
@[simp] theorem F.DBG_EVENTS_EVENTS_addr : F.DBG_EVENTS_EVENTS.addr = R.DBG_EVENTS := id rfl
@[simp] theorem F.DBG_EV_REFUSED_addr : F.DBG_EV_REFUSED.addr = R.DBG_EVENTS := id rfl
@[simp] theorem F.DBG_EV_RELEASED_BY_REVOKE_addr : F.DBG_EV_RELEASED_BY_REVOKE.addr = R.DBG_EVENTS := id rfl
@[simp] theorem F.DBG_UART_CTRL_DIV_addr : F.DBG_UART_CTRL_DIV.addr = R.DBG_UART_CTRL := id rfl
@[simp] theorem F.DBG_UART_CTRL_EN_addr : F.DBG_UART_CTRL_EN.addr = R.DBG_UART_CTRL := id rfl
@[simp] theorem F.DBG_UART_CTRL_RX_POP_addr : F.DBG_UART_CTRL_RX_POP.addr = R.DBG_UART_CTRL := id rfl
@[simp] theorem F.DBG_UART_TXD_DATA_addr : F.DBG_UART_TXD_DATA.addr = R.DBG_UART_TXD := id rfl
@[simp] theorem F.DBG_UART_RXD_DATA_addr : F.DBG_UART_RXD_DATA.addr = R.DBG_UART_RXD := id rfl
@[simp] theorem F.DBG_UART_RXD_VALID_addr : F.DBG_UART_RXD_VALID.addr = R.DBG_UART_RXD := id rfl
@[simp] theorem F.DBG_UART_STATUS_TX_LEVEL_addr : F.DBG_UART_STATUS_TX_LEVEL.addr = R.DBG_UART_STATUS := id rfl
@[simp] theorem F.DBG_UART_STATUS_RX_LEVEL_addr : F.DBG_UART_STATUS_RX_LEVEL.addr = R.DBG_UART_STATUS := id rfl
@[simp] theorem F.DBG_UART_STATUS_TX_DROP_addr : F.DBG_UART_STATUS_TX_DROP.addr = R.DBG_UART_STATUS := id rfl
@[simp] theorem F.DBG_UART_STATUS_RX_OVERRUN_addr : F.DBG_UART_STATUS_RX_OVERRUN.addr = R.DBG_UART_STATUS := id rfl
@[simp] theorem F.DBG_UART_STATUS_FRAME_ERR_addr : F.DBG_UART_STATUS_FRAME_ERR.addr = R.DBG_UART_STATUS := id rfl

end Sys2Proof.Machine
end

