-- ==== Sys2Proof/Laws/Dispatch.lean ====
section
/-!
SUPPORT. Sys2Proof/Laws/Dispatch.lean: what `exec` answers for each command, its meaning; true by computation.
-/

set_option linter.all false
set_option Elab.async false

namespace Sys2Proof.Machine

@[simp] theorem exec_registerWrite (a0 : Nat) (a1 : Bool) (a2 : Nat) (a3 : Nat) (a4 : BusWrite) (s : State) : exec (.registerWrite a0 a1 a2 a3 a4) s = execRegisterWrite a0 a1 a2 a3 a4 s := rfl
@[simp] theorem exec_lockstepMismatch (a0 : Nat) (s : State) : exec (.lockstepMismatch a0) s = execLockstepMismatch a0 s := rfl
@[simp] theorem exec_pairStore (a0 : Nat) (a1 : Space) (a2 : Nat) (a3 : List Byte) (s : State) : exec (.pairStore a0 a1 a2 a3) s = execPairStore a0 a1 a2 a3 s := rfl
@[simp] theorem exec_cablePacketReceive (a0 : Nat) (a1 : Bool) (a2 : CablePacket) (s : State) : exec (.cablePacketReceive a0 a1 a2) s = execCablePacketReceive a0 a1 a2 s := rfl
@[simp] theorem exec_cableFail (a0 : Nat) (a1 : Bool) (s : State) : exec (.cableFail a0 a1) s = execCableFail a0 a1 s := rfl
@[simp] theorem exec_wedgeSample (a0 : Nat) (a1 : Nat) (a2 : WedgeObs) (s : State) : exec (.wedgeSample a0 a1 a2) s = execWedgeSample a0 a1 a2 s := rfl
@[simp] theorem exec_idlePeriodExpiry (s : State) : exec (.idlePeriodExpiry) s = execIdlePeriodExpiry s := rfl
@[simp] theorem exec_flywheelBoundary (s : State) : exec (.flywheelBoundary) s = execFlywheelBoundary s := rfl
@[simp] theorem exec_flywheelMaxReached (s : State) : exec (.flywheelMaxReached) s = execFlywheelMaxReached s := rfl
@[simp] theorem exec_longRowTimeout (s : State) : exec (.longRowTimeout) s = execLongRowTimeout s := rfl
@[simp] theorem exec_guardStart (s : State) : exec (.guardStart) s = execGuardStart s := rfl
@[simp] theorem exec_ledgerCheck (s : State) : exec (.ledgerCheck) s = execLedgerCheck s := rfl
@[simp] theorem exec_writeHoldEnter (s : State) : exec (.writeHoldEnter) s = execWriteHoldEnter s := rfl
@[simp] theorem exec_pairTakeover (s : State) : exec (.pairTakeover) s = execPairTakeover s := rfl
@[simp] theorem exec_logicDieResetEnd (s : State) : exec (.logicDieResetEnd) s = execLogicDieResetEnd s := rfl
@[simp] theorem exec_vin5AonRise (s : State) : exec (.vin5AonRise) s = execVin5AonRise s := rfl
@[simp] theorem exec_keeperQualifyDone (s : State) : exec (.keeperQualifyDone) s = execKeeperQualifyDone s := rfl
@[simp] theorem exec_switchRampDone (a0 : Nat) (s : State) : exec (.switchRampDone a0) s = execSwitchRampDone a0 s := rfl
@[simp] theorem exec_inrushTimeout (s : State) : exec (.inrushTimeout) s = execInrushTimeout s := rfl
@[simp] theorem exec_powerRetry (s : State) : exec (.powerRetry) s = execPowerRetry s := rfl
@[simp] theorem exec_earlyLoss (s : State) : exec (.earlyLoss) s = execEarlyLoss s := rfl
@[simp] theorem exec_railPowerGood (s : State) : exec (.railPowerGood) s = execRailPowerGood s := rfl
@[simp] theorem exec_selftestDone (a0 : Nat) (a1 : Bool) (a2 : Bool) (a3 : Bool) (s : State) : exec (.selftestDone a0 a1 a2 a3) s = execSelftestDone a0 a1 a2 a3 s := rfl
@[simp] theorem exec_patternPhaseDone (s : State) : exec (.patternPhaseDone) s = execPatternPhaseDone s := rfl
@[simp] theorem exec_dramTrainDone (a0 : List (Nat × Nat)) (s : State) : exec (.dramTrainDone a0) s = execDramTrainDone a0 s := rfl
@[simp] theorem exec_loadDone (s : State) : exec (.loadDone) s = execLoadDone s := rfl
@[simp] theorem exec_legacyRelease (s : State) : exec (.legacyRelease) s = execLegacyRelease s := rfl
@[simp] theorem exec_hostReady (s : State) : exec (.hostReady) s = execHostReady s := rfl
@[simp] theorem exec_controllerReady (a0 : Nat) (s : State) : exec (.controllerReady a0) s = execControllerReady a0 s := rfl
@[simp] theorem exec_patLockCmd (s : State) : exec (.patLockCmd) s = execPatLockCmd s := rfl
@[simp] theorem exec_patReload (s : State) : exec (.patReload) s = execPatReload s := rfl
@[simp] theorem exec_patCancel (s : State) : exec (.patCancel) s = execPatCancel s := rfl
@[simp] theorem exec_repatternValidated (s : State) : exec (.repatternValidated) s = execRepatternValidated s := rfl
@[simp] theorem exec_repatternApply (s : State) : exec (.repatternApply) s = execRepatternApply s := rfl
@[simp] theorem exec_testModeRise (s : State) : exec (.testModeRise) s = execTestModeRise s := rfl
@[simp] theorem exec_testModeRelease (s : State) : exec (.testModeRelease) s = execTestModeRelease s := rfl
@[simp] theorem exec_outputRelease (s : State) : exec (.outputRelease) s = execOutputRelease s := rfl
@[simp] theorem exec_tempWarning (a0 : Bool) (s : State) : exec (.tempWarning a0) s = execTempWarning a0 s := rfl
@[simp] theorem exec_tempCritical (a0 : Bool) (s : State) : exec (.tempCritical a0) s = execTempCritical a0 s := rfl
@[simp] theorem exec_thermalBindOff (s : State) : exec (.thermalBindOff) s = execThermalBindOff s := rfl
@[simp] theorem exec_thermalRelease (s : State) : exec (.thermalRelease) s = execThermalRelease s := rfl
@[simp] theorem exec_reverseTrip (a0 : Nat) (s : State) : exec (.reverseTrip a0) s = execReverseTrip a0 s := rfl
@[simp] theorem exec_switchReclose (a0 : Nat) (s : State) : exec (.switchReclose a0) s = execSwitchReclose a0 s := rfl
@[simp] theorem exec_spinupCurrentSample (a0 : Nat) (a1 : Nat) (s : State) : exec (.spinupCurrentSample a0 a1) s = execSpinupCurrentSample a0 a1 s := rfl
@[simp] theorem exec_energyUpdate (s : State) : exec (.energyUpdate) s = execEnergyUpdate s := rfl
@[simp] theorem exec_earlySaveDone (s : State) : exec (.earlySaveDone) s = execEarlySaveDone s := rfl
@[simp] theorem exec_energyHoldClear (s : State) : exec (.energyHoldClear) s = execEnergyHoldClear s := rfl
@[simp] theorem exec_bindOffStart (a0 : BindOffObs) (s : State) : exec (.bindOffStart a0) s = execBindOffStart a0 s := rfl
@[simp] theorem exec_inputGlitch (s : State) : exec (.inputGlitch) s = execInputGlitch s := rfl
@[simp] theorem exec_inputReturn (s : State) : exec (.inputReturn) s = execInputReturn s := rfl
@[simp] theorem exec_inputLossInHold (s : State) : exec (.inputLossInHold) s = execInputLossInHold s := rfl
@[simp] theorem exec_saveRestore (s : State) : exec (.saveRestore) s = execSaveRestore s := rfl
@[simp] theorem exec_warmReset (a0 : Nat) (s : State) : exec (.warmReset a0) s = execWarmReset a0 s := rfl
@[simp] theorem exec_watchdogExpiry (a0 : Nat) (s : State) : exec (.watchdogExpiry a0) s = execWatchdogExpiry a0 s := rfl
@[simp] theorem exec_watchdogKick (a0 : Nat) (s : State) : exec (.watchdogKick a0) s = execWatchdogKick a0 s := rfl
@[simp] theorem exec_watchdogConfig (a0 : Nat) (a1 : Nat) (s : State) : exec (.watchdogConfig a0 a1) s = execWatchdogConfig a0 a1 s := rfl
@[simp] theorem exec_nssr (a0 : Nat) (s : State) : exec (.nssr a0) s = execNssr a0 s := rfl
@[simp] theorem exec_perstAssert (a0 : Nat) (s : State) : exec (.perstAssert a0) s = execPerstAssert a0 s := rfl
@[simp] theorem exec_perstDeassert (a0 : Nat) (s : State) : exec (.perstDeassert a0) s = execPerstDeassert a0 s := rfl
@[simp] theorem exec_flr (a0 : Nat) (a1 : Nat) (s : State) : exec (.flr a0 a1) s = execFlr a0 a1 s := rfl
@[simp] theorem exec_vfEnableClear (a0 : Nat) (s : State) : exec (.vfEnableClear a0) s = execVfEnableClear a0 s := rfl
@[simp] theorem exec_controllerReset (a0 : Nat) (s : State) : exec (.controllerReset a0) s = execControllerReset a0 s := rfl
@[simp] theorem exec_controllerEnable (a0 : Nat) (a1 : Nat) (a2 : Nat) (a3 : Nat) (s : State) : exec (.controllerEnable a0 a1 a2 a3) s = execControllerEnable a0 a1 a2 a3 s := rfl
@[simp] theorem exec_spnStart (s : State) : exec (.spnStart) s = execSpnStart s := rfl
@[simp] theorem exec_spnStop (s : State) : exec (.spnStop) s = execSpnStop s := rfl
@[simp] theorem exec_spnCoast (s : State) : exec (.spnCoast) s = execSpnCoast s := rfl
@[simp] theorem exec_spnClear (s : State) : exec (.spnClear) s = execSpnClear s := rfl
@[simp] theorem exec_currentLoopRun (a0 : LoopObs) (s : State) : exec (.currentLoopRun a0) s = execCurrentLoopRun a0 s := rfl
@[simp] theorem exec_servoOffsetLearn (s : State) : exec (.servoOffsetLearn) s = execServoOffsetLearn s := rfl
@[simp] theorem exec_catchMeasureDone (a0 : Bool) (a1 : Nat) (a2 : Nat) (a3 : Nat) (s : State) : exec (.catchMeasureDone a0 a1 a2 a3) s = execCatchMeasureDone a0 a1 a2 a3 s := rfl
@[simp] theorem exec_catchTimeout (s : State) : exec (.catchTimeout) s = execCatchTimeout s := rfl
@[simp] theorem exec_alignDone (a0 : Nat) (s : State) : exec (.alignDone a0) s = execAlignDone a0 s := rfl
@[simp] theorem exec_commutationTimeout (s : State) : exec (.commutationTimeout) s = execCommutationTimeout s := rfl
@[simp] theorem exec_speedBandReached (s : State) : exec (.speedBandReached) s = execSpeedBandReached s := rfl
@[simp] theorem exec_holdFloatWindow (a0 : Int) (a1 : Nat) (a2 : Nat) (s : State) : exec (.holdFloatWindow a0 a1 a2) s = execHoldFloatWindow a0 a1 a2 s := rfl
@[simp] theorem exec_holdTimeout (s : State) : exec (.holdTimeout) s = execHoldTimeout s := rfl
@[simp] theorem exec_lockedRotor (s : State) : exec (.lockedRotor) s = execLockedRotor s := rfl
@[simp] theorem exec_coastStopped (s : State) : exec (.coastStopped) s = execCoastStopped s := rfl
@[simp] theorem exec_coastRetractTimeout (s : State) : exec (.coastRetractTimeout) s = execCoastRetractTimeout s := rfl
@[simp] theorem exec_brakeDone (s : State) : exec (.brakeDone) s = execBrakeDone s := rfl
@[simp] theorem exec_needleLatch (a0 : Nat) (a1 : Nat) (a2 : Int) (a3 : Int) (s : State) : exec (.needleLatch a0 a1 a2 a3) s = execNeedleLatch a0 a1 a2 a3 s := rfl
@[simp] theorem exec_needleDeadline (a0 : Nat) (s : State) : exec (.needleDeadline a0) s = execNeedleDeadline a0 s := rfl
@[simp] theorem exec_needleInternalFault (a0 : Nat) (s : State) : exec (.needleInternalFault a0) s = execNeedleInternalFault a0 s := rfl
@[simp] theorem exec_needleTakeover (a0 : Nat) (s : State) : exec (.needleTakeover a0) s = execNeedleTakeover a0 s := rfl
@[simp] theorem exec_settleReached (a0 : Nat) (s : State) : exec (.settleReached a0) s = execSettleReached a0 s := rfl
@[simp] theorem exec_settleTimeout (a0 : Nat) (s : State) : exec (.settleTimeout a0) s = execSettleTimeout a0 s := rfl
@[simp] theorem exec_missMaxReached (a0 : Nat) (s : State) : exec (.missMaxReached a0) s = execMissMaxReached a0 s := rfl
@[simp] theorem exec_holdRowsExpired (a0 : Nat) (s : State) : exec (.holdRowsExpired a0) s = execHoldRowsExpired a0 s := rfl
@[simp] theorem exec_ndlMbxPush (a0 : MailboxPush) (s : State) : exec (.ndlMbxPush a0) s = execNdlMbxPush a0 s := rfl
@[simp] theorem exec_ndlSeek (a0 : Nat) (s : State) : exec (.ndlSeek a0) s = execNdlSeek a0 s := rfl
@[simp] theorem exec_ndlOffset (a0 : Nat) (s : State) : exec (.ndlOffset a0) s = execNdlOffset a0 s := rfl
@[simp] theorem exec_ndlEngage (a0 : Nat) (s : State) : exec (.ndlEngage a0) s = execNdlEngage a0 s := rfl
@[simp] theorem exec_ndlHold (a0 : Nat) (s : State) : exec (.ndlHold a0) s = execNdlHold a0 s := rfl
@[simp] theorem exec_ndlRelease (a0 : Nat) (s : State) : exec (.ndlRelease a0) s = execNdlRelease a0 s := rfl
@[simp] theorem exec_ndlManual (a0 : Nat) (s : State) : exec (.ndlManual a0) s = execNdlManual a0 s := rfl
@[simp] theorem exec_ndlRetract (a0 : Nat) (s : State) : exec (.ndlRetract a0) s = execNdlRetract a0 s := rfl
@[simp] theorem exec_ndlUnknownOpcode (a0 : Nat) (s : State) : exec (.ndlUnknownOpcode a0) s = execNdlUnknownOpcode a0 s := rfl
@[simp] theorem exec_needleSwap (a0 : Nat) (s : State) : exec (.needleSwap a0) s = execNeedleSwap a0 s := rfl
@[simp] theorem exec_swapFaultAbort (a0 : Nat) (s : State) : exec (.swapFaultAbort a0) s = execSwapFaultAbort a0 s := rfl
@[simp] theorem exec_ndlDisable (a0 : Nat) (a1 : Bool) (s : State) : exec (.ndlDisable a0 a1) s = execNdlDisable a0 a1 s := rfl
@[simp] theorem exec_actLoad (a0 : Nat) (s : State) : exec (.actLoad a0) s = execActLoad a0 s := rfl
@[simp] theorem exec_actUnload (a0 : Nat) (s : State) : exec (.actUnload a0) s = execActUnload a0 s := rfl
@[simp] theorem exec_actEretract (a0 : Nat) (s : State) : exec (.actEretract a0) s = execActEretract a0 s := rfl
@[simp] theorem exec_retractConstantPhase (a0 : Nat) (s : State) : exec (.retractConstantPhase a0) s = execRetractConstantPhase a0 s := rfl
@[simp] theorem exec_retractEnd (a0 : Nat) (s : State) : exec (.retractEnd a0) s = execRetractEnd a0 s := rfl
@[simp] theorem exec_actLinkClear (a0 : Nat) (s : State) : exec (.actLinkClear a0) s = execActLinkClear a0 s := rfl
@[simp] theorem exec_actDisable (a0 : Nat) (a1 : Bool) (s : State) : exec (.actDisable a0 a1) s = execActDisable a0 a1 s := rfl
@[simp] theorem exec_actLinkEnable (a0 : Nat) (s : State) : exec (.actLinkEnable a0) s = execActLinkEnable a0 s := rfl
@[simp] theorem exec_headRequest (a0 : Nat) (a1 : Nat) (s : State) : exec (.headRequest a0 a1) s = execHeadRequest a0 a1 s := rfl
@[simp] theorem exec_headSelect (a0 : Nat) (a1 : Nat) (s : State) : exec (.headSelect a0 a1) s = execHeadSelect a0 a1 s := rfl
@[simp] theorem exec_actLinkGo (a0 : Nat) (a1 : Nat) (a2 : Bool) (a3 : Nat) (s : State) : exec (.actLinkGo a0 a1 a2 a3) s = execActLinkGo a0 a1 a2 a3 s := rfl
@[simp] theorem exec_preampFrame (a0 : Nat) (a1 : Nat) (a2 : Nat) (a3 : PreampAnswer) (s : State) : exec (.preampFrame a0 a1 a2 a3) s = execPreampFrame a0 a1 a2 a3 s := rfl
@[simp] theorem exec_loadComplete (a0 : Nat) (a1 : Nat) (s : State) : exec (.loadComplete a0 a1) s = execLoadComplete a0 a1 s := rfl
@[simp] theorem exec_loadTimeout (a0 : Nat) (s : State) : exec (.loadTimeout a0) s = execLoadTimeout a0 s := rfl
@[simp] theorem exec_unloadRampStop (a0 : Nat) (s : State) : exec (.unloadRampStop a0) s = execUnloadRampStop a0 s := rfl
@[simp] theorem exec_unloadHoldEnd (a0 : Nat) (s : State) : exec (.unloadHoldEnd a0) s = execUnloadHoldEnd a0 s := rfl
@[simp] theorem exec_unloadTimeout (a0 : Nat) (s : State) : exec (.unloadTimeout a0) s = execUnloadTimeout a0 s := rfl
@[simp] theorem exec_vcmCurrentLoop (a0 : Nat) (a1 : Int) (a2 : Int) (a3 : Int) (s : State) : exec (.vcmCurrentLoop a0 a1 a2 a3) s = execVcmCurrentLoop a0 a1 a2 a3 s := rfl
@[simp] theorem exec_aenLeadStart (a0 : Nat) (a1 : Nat) (a2 : Nat) (s : State) : exec (.aenLeadStart a0 a1 a2) s = execAenLeadStart a0 a1 a2 s := rfl
@[simp] theorem exec_writeGateRaise (a0 : Nat) (a1 : Nat) (s : State) : exec (.writeGateRaise a0 a1) s = execWriteGateRaise a0 a1 s := rfl
@[simp] theorem exec_laserCut (a0 : Nat) (a1 : Nat) (s : State) : exec (.laserCut a0 a1) s = execLaserCut a0 a1 s := rfl
@[simp] theorem exec_sectorFrame (a0 : Nat) (a1 : FrameObs) (s : State) : exec (.sectorFrame a0 a1) s = execSectorFrame a0 a1 s := rfl
@[simp] theorem exec_sectorBoundary (a0 : Nat) (s : State) : exec (.sectorBoundary a0) s = execSectorBoundary a0 s := rfl
@[simp] theorem exec_inlineDecodeDone (a0 : Nat) (a1 : DecodeObs) (s : State) : exec (.inlineDecodeDone a0 a1) s = execInlineDecodeDone a0 a1 s := rfl
@[simp] theorem exec_autoActionDone (a0 : Nat) (a1 : Int) (a2 : DecodeObs) (s : State) : exec (.autoActionDone a0 a1 a2) s = execAutoActionDone a0 a1 a2 s := rfl
@[simp] theorem exec_slcReDecode (a0 : Nat) (a1 : Nat) (a2 : Nat) (s : State) : exec (.slcReDecode a0 a1 a2) s = execSlcReDecode a0 a1 a2 s := rfl
@[simp] theorem exec_slcReframe (a0 : Nat) (a1 : Nat) (a2 : Nat) (a3 : Nat) (s : State) : exec (.slcReframe a0 a1 a2 a3) s = execSlcReframe a0 a1 a2 a3 s := rfl
@[simp] theorem exec_slcCombine (a0 : Nat) (a1 : Nat) (a2 : Nat) (s : State) : exec (.slcCombine a0 a1 a2) s = execSlcCombine a0 a1 a2 s := rfl
@[simp] theorem exec_recoveryRequestDone (a0 : Nat) (a1 : Int) (a2 : DecodeObs) (s : State) : exec (.recoveryRequestDone a0 a1 a2) s = execRecoveryRequestDone a0 a1 a2 s := rfl
@[simp] theorem exec_slcUnpin (a0 : Nat) (a1 : Nat) (a2 : Nat) (s : State) : exec (.slcUnpin a0 a1 a2) s = execSlcUnpin a0 a1 a2 s := rfl
@[simp] theorem exec_sliceFault (a0 : Nat) (a1 : Nat) (s : State) : exec (.sliceFault a0 a1) s = execSliceFault a0 a1 s := rfl
@[simp] theorem exec_sliceTakeover (a0 : Nat) (s : State) : exec (.sliceTakeover a0) s = execSliceTakeover a0 s := rfl
@[simp] theorem exec_slcDisable (a0 : Nat) (a1 : Bool) (s : State) : exec (.slcDisable a0 a1) s = execSlcDisable a0 a1 s := rfl
@[simp] theorem exec_sliceDisabled (a0 : Nat) (s : State) : exec (.sliceDisabled a0) s = execSliceDisabled a0 s := rfl
@[simp] theorem exec_walkerLookup (a0 : Nat) (a1 : Nat) (a2 : Bool) (s : State) : exec (.walkerLookup a0 a1 a2) s = execWalkerLookup a0 a1 a2 s := rfl
@[simp] theorem exec_walkerMap (a0 : Nat) (a1 : Nat) (a2 : MapPlace) (a3 : Bool) (a4 : Bool) (a5 : Bool) (a6 : Nat) (a7 : Option Nat) (s : State) : exec (.walkerMap a0 a1 a2 a3 a4 a5 a6 a7) s = execWalkerMap a0 a1 a2 a3 a4 a5 a6 a7 s := rfl
@[simp] theorem exec_walkerExtend (a0 : Nat) (a1 : Nat) (a2 : Nat) (s : State) : exec (.walkerExtend a0 a1 a2) s = execWalkerExtend a0 a1 a2 s := rfl
@[simp] theorem exec_walkerFlags (a0 : Nat) (a1 : Nat) (a2 : Nat) (a3 : Nat) (a4 : Nat) (a5 : Option Nat) (s : State) : exec (.walkerFlags a0 a1 a2 a3 a4 a5) s = execWalkerFlags a0 a1 a2 a3 a4 a5 s := rfl
@[simp] theorem exec_walkerGenBump (a0 : Nat) (s : State) : exec (.walkerGenBump a0) s = execWalkerGenBump a0 s := rfl
@[simp] theorem exec_walkerDesc (a0 : Nat) (a1 : Nat) (a2 : Nat) (a3 : Nat) (s : State) : exec (.walkerDesc a0 a1 a2 a3) s = execWalkerDesc a0 a1 a2 a3 s := rfl
@[simp] theorem exec_leafMerge (s : State) : exec (.leafMerge) s = execLeafMerge s := rfl
@[simp] theorem exec_staleEntryDelete (s : State) : exec (.staleEntryDelete) s = execStaleEntryDelete s := rfl
@[simp] theorem exec_journalPageWrite (s : State) : exec (.journalPageWrite) s = execJournalPageWrite s := rfl
@[simp] theorem exec_journalOnMedia (s : State) : exec (.journalOnMedia) s = execJournalOnMedia s := rfl
@[simp] theorem exec_checkpointStart (s : State) : exec (.checkpointStart) s = execCheckpointStart s := rfl
@[simp] theorem exec_ckptReq (s : State) : exec (.ckptReq) s = execCkptReq s := rfl
@[simp] theorem exec_checkpointDone (s : State) : exec (.checkpointDone) s = execCheckpointDone s := rfl
@[simp] theorem exec_mapRebuild (a0 : Option Nat) (s : State) : exec (.mapRebuild a0) s = execMapRebuild a0 s := rfl
@[simp] theorem exec_cacheZoneClean (a0 : Nat) (s : State) : exec (.cacheZoneClean a0) s = execCacheZoneClean a0 s := rfl
@[simp] theorem exec_doorbellWrite (a0 : Nat) (a1 : Nat) (a2 : Bool) (a3 : Nat) (a4 : List Sqe) (s : State) : exec (.doorbellWrite a0 a1 a2 a3 a4) s = execDoorbellWrite a0 a1 a2 a3 a4 s := rfl
@[simp] theorem exec_fetchRound (a0 : Nat) (s : State) : exec (.fetchRound a0) s = execFetchRound a0 s := rfl
@[simp] theorem exec_tlpError (a0 : TlpError) (a1 : Nat) (a2 : Nat) (a3 : Nat) (s : State) : exec (.tlpError a0 a1 a2 a3) s = execTlpError a0 a1 a2 a3 s := rfl
@[simp] theorem exec_deleteIoSq (a0 : Nat) (s : State) : exec (.deleteIoSq a0) s = execDeleteIoSq a0 s := rfl
@[simp] theorem exec_deleteIoCq (a0 : Nat) (s : State) : exec (.deleteIoCq a0) s = execDeleteIoCq a0 s := rfl
@[simp] theorem exec_createIoSq (a0 : Nat) (s : State) : exec (.createIoSq a0) s = execCreateIoSq a0 s := rfl
@[simp] theorem exec_createIoCq (a0 : Nat) (s : State) : exec (.createIoCq a0) s = execCreateIoCq a0 s := rfl
@[simp] theorem exec_getLogPage (a0 : Nat) (s : State) : exec (.getLogPage a0) s = execGetLogPage a0 s := rfl
@[simp] theorem exec_identify (a0 : Nat) (s : State) : exec (.identify a0) s = execIdentify a0 s := rfl
@[simp] theorem exec_abort (a0 : Nat) (s : State) : exec (.abort a0) s = execAbort a0 s := rfl
@[simp] theorem exec_setFeatures (a0 : Nat) (a1 : List Byte) (s : State) : exec (.setFeatures a0 a1) s = execSetFeatures a0 a1 s := rfl
@[simp] theorem exec_setDirtyCeiling (a0 : Nat) (s : State) : exec (.setDirtyCeiling a0) s = execSetDirtyCeiling a0 s := rfl
@[simp] theorem exec_setReadPath (a0 : Nat) (s : State) : exec (.setReadPath a0) s = execSetReadPath a0 s := rfl
@[simp] theorem exec_setConfirmActivation (a0 : Nat) (s : State) : exec (.setConfirmActivation a0) s = execSetConfirmActivation a0 s := rfl
@[simp] theorem exec_getFeatures (a0 : Nat) (s : State) : exec (.getFeatures a0) s = execGetFeatures a0 s := rfl
@[simp] theorem exec_asyncEventRequest (a0 : Nat) (s : State) : exec (.asyncEventRequest a0) s = execAsyncEventRequest a0 s := rfl
@[simp] theorem exec_firmwareImageDownload (a0 : Nat) (a1 : List Byte) (s : State) : exec (.firmwareImageDownload a0 a1) s = execFirmwareImageDownload a0 a1 s := rfl
@[simp] theorem exec_commitVerifyWrite (a0 : Nat) (s : State) : exec (.commitVerifyWrite a0) s = execCommitVerifyWrite a0 s := rfl
@[simp] theorem exec_commitActivateAtReset (a0 : Nat) (s : State) : exec (.commitActivateAtReset a0) s = execCommitActivateAtReset a0 s := rfl
@[simp] theorem exec_commitActivateStaged (a0 : Nat) (s : State) : exec (.commitActivateStaged a0) s = execCommitActivateStaged a0 s := rfl
@[simp] theorem exec_commitActivateNow (a0 : Nat) (s : State) : exec (.commitActivateNow a0) s = execCommitActivateNow a0 s := rfl
@[simp] theorem exec_deviceSelfTest (a0 : Nat) (s : State) : exec (.deviceSelfTest a0) s = execDeviceSelfTest a0 s := rfl
@[simp] theorem exec_virtualizationManagement (a0 : Nat) (s : State) : exec (.virtualizationManagement a0) s = execVirtualizationManagement a0 s := rfl
@[simp] theorem exec_nvmeMiSend (a0 : Nat) (a1 : MiCommand) (s : State) : exec (.nvmeMiSend a0 a1) s = execNvmeMiSend a0 a1 s := rfl
@[simp] theorem exec_nvmeMiReceive (a0 : Nat) (s : State) : exec (.nvmeMiReceive a0) s = execNvmeMiReceive a0 s := rfl
@[simp] theorem exec_formatNvm (a0 : Nat) (s : State) : exec (.formatNvm a0) s = execFormatNvm a0 s := rfl
@[simp] theorem exec_securitySend (a0 : Nat) (a1 : List Byte) (s : State) : exec (.securitySend a0 a1) s = execSecuritySend a0 a1 s := rfl
@[simp] theorem exec_securityReceive (a0 : Nat) (s : State) : exec (.securityReceive a0) s = execSecurityReceive a0 s := rfl
@[simp] theorem exec_sanitize (a0 : Nat) (s : State) : exec (.sanitize a0) s = execSanitize a0 s := rfl
@[simp] theorem exec_sanitizeStepDone (s : State) : exec (.sanitizeStepDone) s = execSanitizeStepDone s := rfl
@[simp] theorem exec_invalidAdminOpcode (a0 : Nat) (s : State) : exec (.invalidAdminOpcode a0) s = execInvalidAdminOpcode a0 s := rfl
@[simp] theorem exec_flush (a0 : Nat) (s : State) : exec (.flush a0) s = execFlush a0 s := rfl
@[simp] theorem exec_read (a0 : Nat) (s : State) : exec (.read a0) s = execRead a0 s := rfl
@[simp] theorem exec_write (a0 : Nat) (s : State) : exec (.write a0) s = execWrite a0 s := rfl
@[simp] theorem exec_compare (a0 : Nat) (a1 : List (List Byte)) (s : State) : exec (.compare a0 a1) s = execCompare a0 a1 s := rfl
@[simp] theorem exec_verify (a0 : Nat) (s : State) : exec (.verify a0) s = execVerify a0 s := rfl
@[simp] theorem exec_writeZeroes (a0 : Nat) (s : State) : exec (.writeZeroes a0) s = execWriteZeroes a0 s := rfl
@[simp] theorem exec_datasetManagement (a0 : Nat) (a1 : List (Nat × Nat)) (s : State) : exec (.datasetManagement a0 a1) s = execDatasetManagement a0 a1 s := rfl
@[simp] theorem exec_writeUncorrectable (a0 : Nat) (s : State) : exec (.writeUncorrectable a0) s = execWriteUncorrectable a0 s := rfl
@[simp] theorem exec_zoneOpen (a0 : Nat) (s : State) : exec (.zoneOpen a0) s = execZoneOpen a0 s := rfl
@[simp] theorem exec_zoneClose (a0 : Nat) (s : State) : exec (.zoneClose a0) s = execZoneClose a0 s := rfl
@[simp] theorem exec_zoneFinish (a0 : Nat) (s : State) : exec (.zoneFinish a0) s = execZoneFinish a0 s := rfl
@[simp] theorem exec_zoneReset (a0 : Nat) (s : State) : exec (.zoneReset a0) s = execZoneReset a0 s := rfl
@[simp] theorem exec_zoneOffline (a0 : Nat) (s : State) : exec (.zoneOffline a0) s = execZoneOffline a0 s := rfl
@[simp] theorem exec_zoneSetDescExt (a0 : Nat) (s : State) : exec (.zoneSetDescExt a0) s = execZoneSetDescExt a0 s := rfl
@[simp] theorem exec_zoneMgmtReceive (a0 : Nat) (s : State) : exec (.zoneMgmtReceive a0) s = execZoneMgmtReceive a0 s := rfl
@[simp] theorem exec_zoneAppend (a0 : Nat) (s : State) : exec (.zoneAppend a0) s = execZoneAppend a0 s := rfl
@[simp] theorem exec_invalidIoOpcode (a0 : Nat) (s : State) : exec (.invalidIoOpcode a0) s = execInvalidIoOpcode a0 s := rfl
@[simp] theorem exec_hifAenPost (a0 : Nat) (a1 : Nat) (s : State) : exec (.hifAenPost a0 a1) s = execHifAenPost a0 a1 s := rfl
@[simp] theorem exec_hifCfsSet (a0 : Nat) (s : State) : exec (.hifCfsSet a0) s = execHifCfsSet a0 s := rfl
@[simp] theorem exec_fetchHold (a0 : Nat) (s : State) : exec (.fetchHold a0) s = execFetchHold a0 s := rfl
@[simp] theorem exec_interruptCoalesceTimer (a0 : Nat) (a1 : Nat) (s : State) : exec (.interruptCoalesceTimer a0 a1) s = execInterruptCoalesceTimer a0 a1 s := rfl
@[simp] theorem exec_mctpMessage (a0 : Nat) (a1 : Nat) (s : State) : exec (.mctpMessage a0 a1) s = execMctpMessage a0 a1 s := rfl
@[simp] theorem exec_setEndpointId (a0 : Nat) (s : State) : exec (.setEndpointId a0) s = execSetEndpointId a0 s := rfl
@[simp] theorem exec_nvmeMiBasic (s : State) : exec (.nvmeMiBasic) s = execNvmeMiBasic s := rfl
@[simp] theorem exec_nvmeMiCommand (a0 : MiCommand) (s : State) : exec (.nvmeMiCommand a0) s = execNvmeMiCommand a0 s := rfl
@[simp] theorem exec_miReset (s : State) : exec (.miReset) s = execMiReset s := rfl
@[simp] theorem exec_spdmGetVersion (a0 : Nat) (s : State) : exec (.spdmGetVersion a0) s = execSpdmGetVersion a0 s := rfl
@[simp] theorem exec_spdmGetCapabilities (a0 : Nat) (s : State) : exec (.spdmGetCapabilities a0) s = execSpdmGetCapabilities a0 s := rfl
@[simp] theorem exec_spdmNegotiateAlgorithms (a0 : Nat) (a1 : Bool) (a2 : Bool) (s : State) : exec (.spdmNegotiateAlgorithms a0 a1 a2) s = execSpdmNegotiateAlgorithms a0 a1 a2 s := rfl
@[simp] theorem exec_spdmGetDigests (a0 : Nat) (s : State) : exec (.spdmGetDigests a0) s = execSpdmGetDigests a0 s := rfl
@[simp] theorem exec_spdmGetCertificate (a0 : Nat) (a1 : Nat) (a2 : Nat) (a3 : Nat) (s : State) : exec (.spdmGetCertificate a0 a1 a2 a3) s = execSpdmGetCertificate a0 a1 a2 a3 s := rfl
@[simp] theorem exec_spdmChallenge (a0 : Nat) (a1 : Nat) (a2 : List Byte) (s : State) : exec (.spdmChallenge a0 a1 a2) s = execSpdmChallenge a0 a1 a2 s := rfl
@[simp] theorem exec_spdmGetMeasurements (a0 : Nat) (a1 : Nat) (a2 : Bool) (a3 : List Byte) (s : State) : exec (.spdmGetMeasurements a0 a1 a2 a3) s = execSpdmGetMeasurements a0 a1 a2 a3 s := rfl
@[simp] theorem exec_spdmRespondIfReady (a0 : Nat) (a1 : Nat) (s : State) : exec (.spdmRespondIfReady a0 a1) s = execSpdmRespondIfReady a0 a1 s := rfl
@[simp] theorem exec_spdmUnsupported (a0 : Nat) (a1 : Nat) (s : State) : exec (.spdmUnsupported a0 a1) s = execSpdmUnsupported a0 a1 s := rfl
@[simp] theorem exec_writeAdmit (s : State) : exec (.writeAdmit) s = execWriteAdmit s := rfl
@[simp] theorem exec_writeDataComplete (a0 : Nat) (a1 : List (List Byte)) (a2 : List (List Byte)) (s : State) : exec (.writeDataComplete a0 a1 a2) s = execWriteDataComplete a0 a1 a2 s := rfl
@[simp] theorem exec_windowEnter (a0 : Nat) (s : State) : exec (.windowEnter a0) s = execWindowEnter a0 s := rfl
@[simp] theorem exec_mediaPick (a0 : Nat) (a1 : Nat) (s : State) : exec (.mediaPick a0 a1) s = execMediaPick a0 a1 s := rfl
@[simp] theorem exec_preempt (a0 : Nat) (s : State) : exec (.preempt a0) s = execPreempt a0 s := rfl
@[simp] theorem exec_ledgerRecount (s : State) : exec (.ledgerRecount) s = execLedgerRecount s := rfl
@[simp] theorem exec_ledgerRelease (s : State) : exec (.ledgerRelease) s = execLedgerRelease s := rfl
@[simp] theorem exec_writeHoldRelease (s : State) : exec (.writeHoldRelease) s = execWriteHoldRelease s := rfl
@[simp] theorem exec_mediaCompletion (a0 : Nat) (s : State) : exec (.mediaCompletion a0) s = execMediaCompletion a0 s := rfl
@[simp] theorem exec_readPoint (a0 : Nat) (s : State) : exec (.readPoint a0) s = execReadPoint a0 s := rfl
@[simp] theorem exec_readTransfer (a0 : Nat) (a1 : Nat) (a2 : Bool) (s : State) : exec (.readTransfer a0 a1 a2) s = execReadTransfer a0 a1 a2 s := rfl
@[simp] theorem exec_claimOpen (a0 : Nat) (s : State) : exec (.claimOpen a0) s = execClaimOpen a0 s := rfl
@[simp] theorem exec_claimClose (a0 : Nat) (s : State) : exec (.claimClose a0) s = execClaimClose a0 s := rfl
@[simp] theorem exec_ladderRunStart (a0 : Nat) (s : State) : exec (.ladderRunStart a0) s = execLadderRunStart a0 s := rfl
@[simp] theorem exec_ladderStepDone (a0 : Nat) (a1 : Bool) (s : State) : exec (.ladderStepDone a0 a1) s = execLadderStepDone a0 a1 s := rfl
@[simp] theorem exec_scrubOperation (a0 : Nat) (s : State) : exec (.scrubOperation a0) s = execScrubOperation a0 s := rfl
@[simp] theorem exec_drnRewriteGo (a0 : Nat) (s : State) : exec (.drnRewriteGo a0) s = execDrnRewriteGo a0 s := rfl
@[simp] theorem exec_drnDuePop (s : State) : exec (.drnDuePop) s = execDrnDuePop s := rfl
@[simp] theorem exec_rewriteDone (s : State) : exec (.rewriteDone) s = execRewriteDone s := rfl
@[simp] theorem exec_lifelineBlockFail (a0 : LifelinePart) (s : State) : exec (.lifelineBlockFail a0) s = execLifelineBlockFail a0 s := rfl
@[simp] theorem exec_memoryScrubRead (a0 : Nat) (a1 : Nat) (a2 : List Nat) (a3 : List Nat) (a4 : Bool) (a5 : PageHolds) (s : State) : exec (.memoryScrubRead a0 a1 a2 a3 a4 a5) s = execMemoryScrubRead a0 a1 a2 a3 a4 a5 s := rfl
@[simp] theorem exec_pageDecodeDone (a0 : Nat) (a1 : Nat) (a2 : Nat) (a3 : PageHolds) (s : State) : exec (.pageDecodeDone a0 a1 a2 a3) s = execPageDecodeDone a0 a1 a2 a3 s := rfl
@[simp] theorem exec_repairPost (s : State) : exec (.repairPost) s = execRepairPost s := rfl
@[simp] theorem exec_sramPatrol (a0 : Nat) (a1 : Bool) (a2 : Option SramContents) (s : State) : exec (.sramPatrol a0 a1 a2) s = execSramPatrol a0 a1 a2 s := rfl
@[simp] theorem exec_verifyImage (a0 : Nat) (a1 : Nat) (a2 : Nat) (a3 : Nat) (s : State) : exec (.verifyImage a0 a1 a2 a3) s = execVerifyImage a0 a1 a2 a3 s := rfl
@[simp] theorem exec_commitMeasurement (a0 : Nat) (a1 : Nat) (a2 : Nat) (a3 : Digest) (s : State) : exec (.commitMeasurement a0 a1 a2 a3) s = execCommitMeasurement a0 a1 a2 a3 s := rfl
@[simp] theorem exec_loadKey (a0 : Nat) (a1 : Nat) (a2 : Nat) (a3 : Nat) (a4 : Nat) (a5 : Nat) (a6 : Option Nat) (s : State) : exec (.loadKey a0 a1 a2 a3 a4 a5 a6) s = execLoadKey a0 a1 a2 a3 a4 a5 a6 s := rfl
@[simp] theorem exec_nsKeyNew (a0 : Nat) (a1 : Nat) (a2 : Nat) (s : State) : exec (.nsKeyNew a0 a1 a2) s = execNsKeyNew a0 a1 a2 s := rfl
@[simp] theorem exec_kpio (a0 : Nat) (a1 : Nat) (a2 : List (Nat × Nat × Option Digest)) (s : State) : exec (.kpio a0 a1 a2) s = execKpio a0 a1 a2 s := rfl
@[simp] theorem exec_random (a0 : Nat) (a1 : Nat) (a2 : Nat) (s : State) : exec (.random a0 a1 a2) s = execRandom a0 a1 a2 s := rfl
@[simp] theorem exec_tirChallenge (a0 : Nat) (a1 : Nat) (a2 : Nat) (s : State) : exec (.tirChallenge a0 a1 a2) s = execTirChallenge a0 a1 a2 s := rfl
@[simp] theorem exec_tirResponse (a0 : Nat) (a1 : Nat) (a2 : List Byte) (a3 : List Byte) (s : State) : exec (.tirResponse a0 a1 a2 a3) s = execTirResponse a0 a1 a2 a3 s := rfl
@[simp] theorem exec_revoke (a0 : Nat) (a1 : Nat) (a2 : Nat) (s : State) : exec (.revoke a0 a1 a2) s = execRevoke a0 a1 a2 s := rfl
@[simp] theorem exec_svnAdvance (a0 : Nat) (a1 : Nat) (a2 : Nat) (a3 : Nat) (s : State) : exec (.svnAdvance a0 a1 a2 a3) s = execSvnAdvance a0 a1 a2 a3 s := rfl
@[simp] theorem exec_provision (a0 : Nat) (a1 : Nat) (a2 : Digest) (a3 : Digest) (a4 : Digest) (a5 : Bool) (s : State) : exec (.provision a0 a1 a2 a3 a4 a5) s = execProvision a0 a1 a2 a3 a4 a5 s := rfl
@[simp] theorem exec_genIdentity (a0 : Nat) (a1 : Nat) (s : State) : exec (.genIdentity a0 a1) s = execGenIdentity a0 a1 s := rfl
@[simp] theorem exec_tirUnknownOpcode (a0 : Nat) (a1 : Nat) (a2 : Nat) (s : State) : exec (.tirUnknownOpcode a0 a1 a2) s = execTirUnknownOpcode a0 a1 a2 s := rfl
@[simp] theorem exec_challengeExpiry (a0 : Nat) (s : State) : exec (.challengeExpiry a0) s = execChallengeExpiry a0 s := rfl
@[simp] theorem exec_tamperAlarm (a0 : Nat) (s : State) : exec (.tamperAlarm a0) s = execTamperAlarm a0 s := rfl
@[simp] theorem exec_alarmClear (s : State) : exec (.alarmClear) s = execAlarmClear s := rfl
@[simp] theorem exec_cipherEnable (s : State) : exec (.cipherEnable) s = execCipherEnable s := rfl
@[simp] theorem exec_katDone (a0 : Nat) (s : State) : exec (.katDone a0) s = execKatDone a0 s := rfl
@[simp] theorem exec_cipherDisable (s : State) : exec (.cipherDisable) s = execCipherDisable s := rfl
@[simp] theorem exec_cipherDrained (s : State) : exec (.cipherDrained) s = execCipherDrained s := rfl
@[simp] theorem exec_cipherCoreFault (a0 : Nat) (s : State) : exec (.cipherCoreFault a0) s = execCipherCoreFault a0 s := rfl
@[simp] theorem exec_hookLdi (a0 : Nat) (s : State) : exec (.hookLdi a0) s = execHookLdi a0 s := rfl
@[simp] theorem exec_hookEnc (a0 : Nat) (s : State) : exec (.hookEnc a0) s = execHookEnc a0 s := rfl
@[simp] theorem exec_hookDec (a0 : Nat) (s : State) : exec (.hookDec a0) s = execHookDec a0 s := rfl
@[simp] theorem exec_hookXor (a0 : Nat) (s : State) : exec (.hookXor a0) s = execHookXor a0 s := rfl
@[simp] theorem exec_hookGmul (a0 : Nat) (s : State) : exec (.hookGmul a0) s = execHookGmul a0 s := rfl
@[simp] theorem exec_hookInc32 (a0 : Nat) (s : State) : exec (.hookInc32 a0) s = execHookInc32 a0 s := rfl
@[simp] theorem exec_hookLen (a0 : Nat) (s : State) : exec (.hookLen a0) s = execHookLen a0 s := rfl
@[simp] theorem exec_hookOut (a0 : Nat) (s : State) : exec (.hookOut a0) s = execHookOut a0 s := rfl
@[simp] theorem exec_hookTag (a0 : Nat) (s : State) : exec (.hookTag a0) s = execHookTag a0 s := rfl
@[simp] theorem exec_hookLoop (a0 : Nat) (s : State) : exec (.hookLoop a0) s = execHookLoop a0 s := rfl
@[simp] theorem exec_hookEnd (a0 : Nat) (s : State) : exec (.hookEnd a0) s = execHookEnd a0 s := rfl
@[simp] theorem exec_hookIllegalOp (a0 : Nat) (s : State) : exec (.hookIllegalOp a0) s = execHookIllegalOp a0 s := rfl
@[simp] theorem exec_blockReturn (a0 : Nat) (s : State) : exec (.blockReturn a0) s = execBlockReturn a0 s := rfl
@[simp] theorem exec_tokenPost (s : State) : exec (.tokenPost) s = execTokenPost s := rfl
@[simp] theorem exec_hookDataWrite (a0 : Word) (s : State) : exec (.hookDataWrite a0) s = execHookDataWrite a0 s := rfl
@[simp] theorem exec_hookBindWrite (a0 : Word) (s : State) : exec (.hookBindWrite a0) s = execHookBindWrite a0 s := rfl
@[simp] theorem exec_keySlotErase (s : State) : exec (.keySlotErase) s = execKeySlotErase s := rfl
@[simp] theorem exec_bankDrainEnd (a0 : Nat) (s : State) : exec (.bankDrainEnd a0) s = execBankDrainEnd a0 s := rfl
@[simp] theorem exec_testkeyLoad (a0 : Nat) (a1 : Nat) (a2 : Nat) (s : State) : exec (.testkeyLoad a0 a1 a2) s = execTestkeyLoad a0 a1 a2 s := rfl
@[simp] theorem exec_cipherJob (a0 : Nat) (a1 : Nat) (s : State) : exec (.cipherJob a0 a1) s = execCipherJob a0 a1 s := rfl
@[simp] theorem exec_cipherJobDone (s : State) : exec (.cipherJobDone) s = execCipherJobDone s := rfl
@[simp] theorem exec_gauAdcOffset (a0 : Nat) (s : State) : exec (.gauAdcOffset a0) s = execGauAdcOffset a0 s := rfl
@[simp] theorem exec_gauAdcGain (a0 : Nat) (s : State) : exec (.gauAdcGain a0) s = execGauAdcGain a0 s := rfl
@[simp] theorem exec_gauAdcSkew (a0 : Nat) (s : State) : exec (.gauAdcSkew a0) s = execGauAdcSkew a0 s := rfl
@[simp] theorem exec_gauReaderBias (a0 : Nat) (a1 : Nat) (s : State) : exec (.gauReaderBias a0 a1) s = execGauReaderBias a0 a1 s := rfl
@[simp] theorem exec_gauTouchdown (a0 : Nat) (a1 : Nat) (s : State) : exec (.gauTouchdown a0 a1) s = execGauTouchdown a0 a1 s := rfl
@[simp] theorem exec_gauAssist (a0 : Nat) (a1 : Nat) (s : State) : exec (.gauAssist a0 a1) s = execGauAssist a0 a1 s := rfl
@[simp] theorem exec_gauIsenseSpn (s : State) : exec (.gauIsenseSpn) s = execGauIsenseSpn s := rfl
@[simp] theorem exec_gauIsenseVcm (a0 : Nat) (s : State) : exec (.gauIsenseVcm a0) s = execGauIsenseVcm a0 s := rfl
@[simp] theorem exec_gauTemp (s : State) : exec (.gauTemp) s = execGauTemp s := rfl
@[simp] theorem exec_gaugeTargetIdle (s : State) : exec (.gaugeTargetIdle) s = execGaugeTargetIdle s := rfl
@[simp] theorem exec_calibrationEnd (a0 : List Int) (s : State) : exec (.calibrationEnd a0) s = execCalibrationEnd a0 s := rfl
@[simp] theorem exec_sessionExpiry (s : State) : exec (.sessionExpiry) s = execSessionExpiry s := rfl
@[simp] theorem exec_bundleWritten (s : State) : exec (.bundleWritten) s = execBundleWritten s := rfl
@[simp] theorem exec_tiriumHandover (s : State) : exec (.tiriumHandover) s = execTiriumHandover s := rfl
@[simp] theorem exec_tiriumReady (s : State) : exec (.tiriumReady) s = execTiriumReady s := rfl
@[simp] theorem exec_tiriumReadyTimeout (s : State) : exec (.tiriumReadyTimeout) s = execTiriumReadyTimeout s := rfl
@[simp] theorem exec_handoverSpareReady (s : State) : exec (.handoverSpareReady) s = execHandoverSpareReady s := rfl
@[simp] theorem exec_handoverRequest (s : State) : exec (.handoverRequest) s = execHandoverRequest s := rfl
@[simp] theorem exec_handoverQuiesced (s : State) : exec (.handoverQuiesced) s = execHandoverQuiesced s := rfl
@[simp] theorem exec_handoverSwitch (s : State) : exec (.handoverSwitch) s = execHandoverSwitch s := rfl
@[simp] theorem exec_handoverTaken (s : State) : exec (.handoverTaken) s = execHandoverTaken s := rfl
@[simp] theorem exec_handoverDeadlineMiss (s : State) : exec (.handoverDeadlineMiss) s = execHandoverDeadlineMiss s := rfl
@[simp] theorem exec_quiescedActivation (s : State) : exec (.quiescedActivation) s = execQuiescedActivation s := rfl
@[simp] theorem exec_quiescedTimeout (s : State) : exec (.quiescedTimeout) s = execQuiescedTimeout s := rfl
@[simp] theorem exec_autoConfirm (s : State) : exec (.autoConfirm) s = execAutoConfirm s := rfl
@[simp] theorem exec_updAbort (s : State) : exec (.updAbort) s = execUpdAbort s := rfl
@[simp] theorem exec_updFrog (s : State) : exec (.updFrog) s = execUpdFrog s := rfl
@[simp] theorem exec_recFwPost (a0 : Nat) (a1 : Nat) (a2 : Nat) (s : State) : exec (.recFwPost a0 a1 a2) s = execRecFwPost a0 a1 a2 s := rfl
@[simp] theorem exec_recordProgrammed (s : State) : exec (.recordProgrammed) s = execRecordProgrammed s := rfl
@[simp] theorem exec_recStoreFail (a0 : Nat) (s : State) : exec (.recStoreFail a0) s = execRecStoreFail a0 s := rfl
@[simp] theorem exec_recordMirrorCopy (s : State) : exec (.recordMirrorCopy) s = execRecordMirrorCopy s := rfl
@[simp] theorem exec_fallbackUnitProgram (s : State) : exec (.fallbackUnitProgram) s = execFallbackUnitProgram s := rfl
@[simp] theorem exec_recClear (a0 : Nat) (s : State) : exec (.recClear a0) s = execRecClear a0 s := rfl
@[simp] theorem exec_clearSectorErased (s : State) : exec (.clearSectorErased) s = execClearSectorErased s := rfl
@[simp] theorem exec_timeAnchor (a0 : Nat) (a1 : Nat) (s : State) : exec (.timeAnchor a0 a1) s = execTimeAnchor a0 a1 s := rfl
@[simp] theorem exec_recorderCastonScan (a0 : Bool) (s : State) : exec (.recorderCastonScan a0) s = execRecorderCastonScan a0 s := rfl
@[simp] theorem exec_sngArm (s : State) : exec (.sngArm) s = execSngArm s := rfl
@[simp] theorem exec_sngDisarm (s : State) : exec (.sngDisarm) s = execSngDisarm s := rfl
@[simp] theorem exec_snagInjectorGo (a0 : Nat) (a1 : Word) (s : State) : exec (.snagInjectorGo a0 a1) s = execSnagInjectorGo a0 a1 s := rfl
@[simp] theorem exec_snagHeldRelease (a0 : Nat) (s : State) : exec (.snagHeldRelease a0) s = execSnagHeldRelease a0 s := rfl
@[simp] theorem exec_dbgWarmReset (a0 : Nat) (s : State) : exec (.dbgWarmReset a0) s = execDbgWarmReset a0 s := rfl
@[simp] theorem exec_dbgHalt (a0 : Nat) (a1 : Nat) (s : State) : exec (.dbgHalt a0 a1) s = execDbgHalt a0 a1 s := rfl
@[simp] theorem exec_jtagBypass (a0 : Bool) (s : State) : exec (.jtagBypass a0) s = execJtagBypass a0 s := rfl
@[simp] theorem exec_jtagIdcode (s : State) : exec (.jtagIdcode) s = execJtagIdcode s := rfl
@[simp] theorem exec_jtagSamplePreload (a0 : List Bool) (a1 : List Bool) (s : State) : exec (.jtagSamplePreload a0 a1) s = execJtagSamplePreload a0 a1 s := rfl
@[simp] theorem exec_jtagExtest (a0 : List Bool) (s : State) : exec (.jtagExtest a0) s = execJtagExtest a0 s := rfl
@[simp] theorem exec_jtagTmbx (a0 : Nat) (a1 : Nat) (a2 : List Byte) (s : State) : exec (.jtagTmbx a0 a1 a2) s = execJtagTmbx a0 a1 a2 s := rfl
@[simp] theorem exec_jtagDbgap (a0 : Nat) (a1 : Bool) (s : State) : exec (.jtagDbgap a0 a1) s = execJtagDbgap a0 a1 s := rfl
@[simp] theorem exec_uartTxWrite (a0 : Byte) (s : State) : exec (.uartTxWrite a0) s = execUartTxWrite a0 s := rfl
@[simp] theorem exec_uartTxByteSent (s : State) : exec (.uartTxByteSent) s = execUartTxByteSent s := rfl
@[simp] theorem exec_uartRxByte (a0 : Byte) (a1 : Bool) (s : State) : exec (.uartRxByte a0 a1) s = execUartRxByte a0 a1 s := rfl
@[simp] theorem exec_uartRxPop (s : State) : exec (.uartRxPop) s = execUartRxPop s := rfl
@[simp] theorem exec_registerRead (a0 : Nat) (a1 : Nat) (a2 : Nat) (s : State) : exec (.registerRead a0 a1 a2) s = execRegisterRead a0 a1 a2 s := rfl
@[simp] theorem exec_linkUp (a0 : Nat) (a1 : Nat) (a2 : Nat) (s : State) : exec (.linkUp a0 a1 a2) s = execLinkUp a0 a1 a2 s := rfl
@[simp] theorem exec_linkDown (a0 : Nat) (s : State) : exec (.linkDown a0) s = execLinkDown a0 s := rfl
@[simp] theorem exec_vfEnableSet (a0 : Nat) (a1 : Nat) (s : State) : exec (.vfEnableSet a0 a1) s = execVfEnableSet a0 a1 s := rfl
@[simp] theorem exec_statActRelease (s : State) : exec (.statActRelease) s = execStatActRelease s := rfl
@[simp] theorem exec_leafRebuildDone (a0 : Nat) (s : State) : exec (.leafRebuildDone a0) s = execLeafRebuildDone a0 s := rfl
@[simp] theorem exec_formatNvmDone (a0 : Nat) (s : State) : exec (.formatNvmDone a0) s = execFormatNvmDone a0 s := rfl

end Sys2Proof.Machine
end

