-- ==== Sys2Proof/Laws/State.lean ====
section
/-!
SUPPORT. Sys2Proof/Laws/State.lean: what each update of the state leaves in each field, by unfolding the update once.
-/

namespace Sys2Proof.Machine

@[simp] theorem State.modRow_regs (s : State) (f : RowMachine → RowMachine) : (s.modRow f).regs = s.regs := rfl
@[simp] theorem State.modRow_fuse (s : State) (f : RowMachine → RowMachine) : (s.modRow f).fuse = s.fuse := rfl
@[simp] theorem State.modRow_draws (s : State) (f : RowMachine → RowMachine) : (s.modRow f).draws = s.draws := rfl
@[simp] theorem State.modRow_row (s : State) (f : RowMachine → RowMachine) : (s.modRow f).row = f s.row := rfl
@[simp] theorem State.modRow_pairs (s : State) (f : RowMachine → RowMachine) : (s.modRow f).pairs = s.pairs := rfl
@[simp] theorem State.modRow_cable (s : State) (f : RowMachine → RowMachine) : (s.modRow f).cable = s.cable := rfl
@[simp] theorem State.modRow_bus (s : State) (f : RowMachine → RowMachine) : (s.modRow f).bus = s.bus := rfl
@[simp] theorem State.modRow_pins (s : State) (f : RowMachine → RowMachine) : (s.modRow f).pins = s.pins := rfl
@[simp] theorem State.modRow_keeper (s : State) (f : RowMachine → RowMachine) : (s.modRow f).keeper = s.keeper := rfl
@[simp] theorem State.modRow_cast (s : State) (f : RowMachine → RowMachine) : (s.modRow f).cast = s.cast := rfl
@[simp] theorem State.modRow_pattern (s : State) (f : RowMachine → RowMachine) : (s.modRow f).pattern = s.pattern := rfl
@[simp] theorem State.modRow_spn (s : State) (f : RowMachine → RowMachine) : (s.modRow f).spn = s.spn := rfl
@[simp] theorem State.modRow_needles (s : State) (f : RowMachine → RowMachine) : (s.modRow f).needles = s.needles := rfl
@[simp] theorem State.modRow_acts (s : State) (f : RowMachine → RowMachine) : (s.modRow f).acts = s.acts := rfl
@[simp] theorem State.modRow_slices (s : State) (f : RowMachine → RowMachine) : (s.modRow f).slices = s.slices := rfl
@[simp] theorem State.modRow_stitch (s : State) (f : RowMachine → RowMachine) : (s.modRow f).stitch = s.stitch := rfl
@[simp] theorem State.modRow_host (s : State) (f : RowMachine → RowMachine) : (s.modRow f).host = s.host := rfl
@[simp] theorem State.modRow_flow (s : State) (f : RowMachine → RowMachine) : (s.modRow f).flow = s.flow := rfl
@[simp] theorem State.modRow_darn (s : State) (f : RowMachine → RowMachine) : (s.modRow f).darn = s.darn := rfl
@[simp] theorem State.modRow_prot (s : State) (f : RowMachine → RowMachine) : (s.modRow f).prot = s.prot := rfl
@[simp] theorem State.modRow_tir (s : State) (f : RowMachine → RowMachine) : (s.modRow f).tir = s.tir := rfl
@[simp] theorem State.modRow_cip (s : State) (f : RowMachine → RowMachine) : (s.modRow f).cip = s.cip := rfl
@[simp] theorem State.modRow_gauge (s : State) (f : RowMachine → RowMachine) : (s.modRow f).gauge = s.gauge := rfl
@[simp] theorem State.modRow_upd (s : State) (f : RowMachine → RowMachine) : (s.modRow f).upd = s.upd := rfl
@[simp] theorem State.modRow_recorder (s : State) (f : RowMachine → RowMachine) : (s.modRow f).recorder = s.recorder := rfl
@[simp] theorem State.modRow_snag (s : State) (f : RowMachine → RowMachine) : (s.modRow f).snag = s.snag := rfl
@[simp] theorem State.modRow_dbg (s : State) (f : RowMachine → RowMachine) : (s.modRow f).dbg = s.dbg := rfl
@[simp] theorem State.modRow_sram (s : State) (f : RowMachine → RowMachine) : (s.modRow f).sram = s.sram := rfl
@[simp] theorem State.modRow_dram (s : State) (f : RowMachine → RowMachine) : (s.modRow f).dram = s.dram := rfl
@[simp] theorem State.modRow_pending (s : State) (f : RowMachine → RowMachine) : (s.modRow f).pending = s.pending := rfl

@[simp] theorem State.modPairs_regs (s : State) (f : List CorePair → List CorePair) : (s.modPairs f).regs = s.regs := rfl
@[simp] theorem State.modPairs_fuse (s : State) (f : List CorePair → List CorePair) : (s.modPairs f).fuse = s.fuse := rfl
@[simp] theorem State.modPairs_draws (s : State) (f : List CorePair → List CorePair) : (s.modPairs f).draws = s.draws := rfl
@[simp] theorem State.modPairs_row (s : State) (f : List CorePair → List CorePair) : (s.modPairs f).row = s.row := rfl
@[simp] theorem State.modPairs_pairs (s : State) (f : List CorePair → List CorePair) : (s.modPairs f).pairs = f s.pairs := rfl
@[simp] theorem State.modPairs_cable (s : State) (f : List CorePair → List CorePair) : (s.modPairs f).cable = s.cable := rfl
@[simp] theorem State.modPairs_bus (s : State) (f : List CorePair → List CorePair) : (s.modPairs f).bus = s.bus := rfl
@[simp] theorem State.modPairs_pins (s : State) (f : List CorePair → List CorePair) : (s.modPairs f).pins = s.pins := rfl
@[simp] theorem State.modPairs_keeper (s : State) (f : List CorePair → List CorePair) : (s.modPairs f).keeper = s.keeper := rfl
@[simp] theorem State.modPairs_cast (s : State) (f : List CorePair → List CorePair) : (s.modPairs f).cast = s.cast := rfl
@[simp] theorem State.modPairs_pattern (s : State) (f : List CorePair → List CorePair) : (s.modPairs f).pattern = s.pattern := rfl
@[simp] theorem State.modPairs_spn (s : State) (f : List CorePair → List CorePair) : (s.modPairs f).spn = s.spn := rfl
@[simp] theorem State.modPairs_needles (s : State) (f : List CorePair → List CorePair) : (s.modPairs f).needles = s.needles := rfl
@[simp] theorem State.modPairs_acts (s : State) (f : List CorePair → List CorePair) : (s.modPairs f).acts = s.acts := rfl
@[simp] theorem State.modPairs_slices (s : State) (f : List CorePair → List CorePair) : (s.modPairs f).slices = s.slices := rfl
@[simp] theorem State.modPairs_stitch (s : State) (f : List CorePair → List CorePair) : (s.modPairs f).stitch = s.stitch := rfl
@[simp] theorem State.modPairs_host (s : State) (f : List CorePair → List CorePair) : (s.modPairs f).host = s.host := rfl
@[simp] theorem State.modPairs_flow (s : State) (f : List CorePair → List CorePair) : (s.modPairs f).flow = s.flow := rfl
@[simp] theorem State.modPairs_darn (s : State) (f : List CorePair → List CorePair) : (s.modPairs f).darn = s.darn := rfl
@[simp] theorem State.modPairs_prot (s : State) (f : List CorePair → List CorePair) : (s.modPairs f).prot = s.prot := rfl
@[simp] theorem State.modPairs_tir (s : State) (f : List CorePair → List CorePair) : (s.modPairs f).tir = s.tir := rfl
@[simp] theorem State.modPairs_cip (s : State) (f : List CorePair → List CorePair) : (s.modPairs f).cip = s.cip := rfl
@[simp] theorem State.modPairs_gauge (s : State) (f : List CorePair → List CorePair) : (s.modPairs f).gauge = s.gauge := rfl
@[simp] theorem State.modPairs_upd (s : State) (f : List CorePair → List CorePair) : (s.modPairs f).upd = s.upd := rfl
@[simp] theorem State.modPairs_recorder (s : State) (f : List CorePair → List CorePair) : (s.modPairs f).recorder = s.recorder := rfl
@[simp] theorem State.modPairs_snag (s : State) (f : List CorePair → List CorePair) : (s.modPairs f).snag = s.snag := rfl
@[simp] theorem State.modPairs_dbg (s : State) (f : List CorePair → List CorePair) : (s.modPairs f).dbg = s.dbg := rfl
@[simp] theorem State.modPairs_sram (s : State) (f : List CorePair → List CorePair) : (s.modPairs f).sram = s.sram := rfl
@[simp] theorem State.modPairs_dram (s : State) (f : List CorePair → List CorePair) : (s.modPairs f).dram = s.dram := rfl
@[simp] theorem State.modPairs_pending (s : State) (f : List CorePair → List CorePair) : (s.modPairs f).pending = s.pending := rfl

@[simp] theorem State.modCable_regs (s : State) (f : CableNet → CableNet) : (s.modCable f).regs = s.regs := rfl
@[simp] theorem State.modCable_fuse (s : State) (f : CableNet → CableNet) : (s.modCable f).fuse = s.fuse := rfl
@[simp] theorem State.modCable_draws (s : State) (f : CableNet → CableNet) : (s.modCable f).draws = s.draws := rfl
@[simp] theorem State.modCable_row (s : State) (f : CableNet → CableNet) : (s.modCable f).row = s.row := rfl
@[simp] theorem State.modCable_pairs (s : State) (f : CableNet → CableNet) : (s.modCable f).pairs = s.pairs := rfl
@[simp] theorem State.modCable_cable (s : State) (f : CableNet → CableNet) : (s.modCable f).cable = f s.cable := rfl
@[simp] theorem State.modCable_bus (s : State) (f : CableNet → CableNet) : (s.modCable f).bus = s.bus := rfl
@[simp] theorem State.modCable_pins (s : State) (f : CableNet → CableNet) : (s.modCable f).pins = s.pins := rfl
@[simp] theorem State.modCable_keeper (s : State) (f : CableNet → CableNet) : (s.modCable f).keeper = s.keeper := rfl
@[simp] theorem State.modCable_cast (s : State) (f : CableNet → CableNet) : (s.modCable f).cast = s.cast := rfl
@[simp] theorem State.modCable_pattern (s : State) (f : CableNet → CableNet) : (s.modCable f).pattern = s.pattern := rfl
@[simp] theorem State.modCable_spn (s : State) (f : CableNet → CableNet) : (s.modCable f).spn = s.spn := rfl
@[simp] theorem State.modCable_needles (s : State) (f : CableNet → CableNet) : (s.modCable f).needles = s.needles := rfl
@[simp] theorem State.modCable_acts (s : State) (f : CableNet → CableNet) : (s.modCable f).acts = s.acts := rfl
@[simp] theorem State.modCable_slices (s : State) (f : CableNet → CableNet) : (s.modCable f).slices = s.slices := rfl
@[simp] theorem State.modCable_stitch (s : State) (f : CableNet → CableNet) : (s.modCable f).stitch = s.stitch := rfl
@[simp] theorem State.modCable_host (s : State) (f : CableNet → CableNet) : (s.modCable f).host = s.host := rfl
@[simp] theorem State.modCable_flow (s : State) (f : CableNet → CableNet) : (s.modCable f).flow = s.flow := rfl
@[simp] theorem State.modCable_darn (s : State) (f : CableNet → CableNet) : (s.modCable f).darn = s.darn := rfl
@[simp] theorem State.modCable_prot (s : State) (f : CableNet → CableNet) : (s.modCable f).prot = s.prot := rfl
@[simp] theorem State.modCable_tir (s : State) (f : CableNet → CableNet) : (s.modCable f).tir = s.tir := rfl
@[simp] theorem State.modCable_cip (s : State) (f : CableNet → CableNet) : (s.modCable f).cip = s.cip := rfl
@[simp] theorem State.modCable_gauge (s : State) (f : CableNet → CableNet) : (s.modCable f).gauge = s.gauge := rfl
@[simp] theorem State.modCable_upd (s : State) (f : CableNet → CableNet) : (s.modCable f).upd = s.upd := rfl
@[simp] theorem State.modCable_recorder (s : State) (f : CableNet → CableNet) : (s.modCable f).recorder = s.recorder := rfl
@[simp] theorem State.modCable_snag (s : State) (f : CableNet → CableNet) : (s.modCable f).snag = s.snag := rfl
@[simp] theorem State.modCable_dbg (s : State) (f : CableNet → CableNet) : (s.modCable f).dbg = s.dbg := rfl
@[simp] theorem State.modCable_sram (s : State) (f : CableNet → CableNet) : (s.modCable f).sram = s.sram := rfl
@[simp] theorem State.modCable_dram (s : State) (f : CableNet → CableNet) : (s.modCable f).dram = s.dram := rfl
@[simp] theorem State.modCable_pending (s : State) (f : CableNet → CableNet) : (s.modCable f).pending = s.pending := rfl

@[simp] theorem State.modBus_regs (s : State) (f : BusReply → BusReply) : (s.modBus f).regs = s.regs := rfl
@[simp] theorem State.modBus_fuse (s : State) (f : BusReply → BusReply) : (s.modBus f).fuse = s.fuse := rfl
@[simp] theorem State.modBus_draws (s : State) (f : BusReply → BusReply) : (s.modBus f).draws = s.draws := rfl
@[simp] theorem State.modBus_row (s : State) (f : BusReply → BusReply) : (s.modBus f).row = s.row := rfl
@[simp] theorem State.modBus_pairs (s : State) (f : BusReply → BusReply) : (s.modBus f).pairs = s.pairs := rfl
@[simp] theorem State.modBus_cable (s : State) (f : BusReply → BusReply) : (s.modBus f).cable = s.cable := rfl
@[simp] theorem State.modBus_bus (s : State) (f : BusReply → BusReply) : (s.modBus f).bus = f s.bus := rfl
@[simp] theorem State.modBus_pins (s : State) (f : BusReply → BusReply) : (s.modBus f).pins = s.pins := rfl
@[simp] theorem State.modBus_keeper (s : State) (f : BusReply → BusReply) : (s.modBus f).keeper = s.keeper := rfl
@[simp] theorem State.modBus_cast (s : State) (f : BusReply → BusReply) : (s.modBus f).cast = s.cast := rfl
@[simp] theorem State.modBus_pattern (s : State) (f : BusReply → BusReply) : (s.modBus f).pattern = s.pattern := rfl
@[simp] theorem State.modBus_spn (s : State) (f : BusReply → BusReply) : (s.modBus f).spn = s.spn := rfl
@[simp] theorem State.modBus_needles (s : State) (f : BusReply → BusReply) : (s.modBus f).needles = s.needles := rfl
@[simp] theorem State.modBus_acts (s : State) (f : BusReply → BusReply) : (s.modBus f).acts = s.acts := rfl
@[simp] theorem State.modBus_slices (s : State) (f : BusReply → BusReply) : (s.modBus f).slices = s.slices := rfl
@[simp] theorem State.modBus_stitch (s : State) (f : BusReply → BusReply) : (s.modBus f).stitch = s.stitch := rfl
@[simp] theorem State.modBus_host (s : State) (f : BusReply → BusReply) : (s.modBus f).host = s.host := rfl
@[simp] theorem State.modBus_flow (s : State) (f : BusReply → BusReply) : (s.modBus f).flow = s.flow := rfl
@[simp] theorem State.modBus_darn (s : State) (f : BusReply → BusReply) : (s.modBus f).darn = s.darn := rfl
@[simp] theorem State.modBus_prot (s : State) (f : BusReply → BusReply) : (s.modBus f).prot = s.prot := rfl
@[simp] theorem State.modBus_tir (s : State) (f : BusReply → BusReply) : (s.modBus f).tir = s.tir := rfl
@[simp] theorem State.modBus_cip (s : State) (f : BusReply → BusReply) : (s.modBus f).cip = s.cip := rfl
@[simp] theorem State.modBus_gauge (s : State) (f : BusReply → BusReply) : (s.modBus f).gauge = s.gauge := rfl
@[simp] theorem State.modBus_upd (s : State) (f : BusReply → BusReply) : (s.modBus f).upd = s.upd := rfl
@[simp] theorem State.modBus_recorder (s : State) (f : BusReply → BusReply) : (s.modBus f).recorder = s.recorder := rfl
@[simp] theorem State.modBus_snag (s : State) (f : BusReply → BusReply) : (s.modBus f).snag = s.snag := rfl
@[simp] theorem State.modBus_dbg (s : State) (f : BusReply → BusReply) : (s.modBus f).dbg = s.dbg := rfl
@[simp] theorem State.modBus_sram (s : State) (f : BusReply → BusReply) : (s.modBus f).sram = s.sram := rfl
@[simp] theorem State.modBus_dram (s : State) (f : BusReply → BusReply) : (s.modBus f).dram = s.dram := rfl
@[simp] theorem State.modBus_pending (s : State) (f : BusReply → BusReply) : (s.modBus f).pending = s.pending := rfl

@[simp] theorem State.modPins_regs (s : State) (f : Pins → Pins) : (s.modPins f).regs = s.regs := rfl
@[simp] theorem State.modPins_fuse (s : State) (f : Pins → Pins) : (s.modPins f).fuse = s.fuse := rfl
@[simp] theorem State.modPins_draws (s : State) (f : Pins → Pins) : (s.modPins f).draws = s.draws := rfl
@[simp] theorem State.modPins_row (s : State) (f : Pins → Pins) : (s.modPins f).row = s.row := rfl
@[simp] theorem State.modPins_pairs (s : State) (f : Pins → Pins) : (s.modPins f).pairs = s.pairs := rfl
@[simp] theorem State.modPins_cable (s : State) (f : Pins → Pins) : (s.modPins f).cable = s.cable := rfl
@[simp] theorem State.modPins_bus (s : State) (f : Pins → Pins) : (s.modPins f).bus = s.bus := rfl
@[simp] theorem State.modPins_pins (s : State) (f : Pins → Pins) : (s.modPins f).pins = f s.pins := rfl
@[simp] theorem State.modPins_keeper (s : State) (f : Pins → Pins) : (s.modPins f).keeper = s.keeper := rfl
@[simp] theorem State.modPins_cast (s : State) (f : Pins → Pins) : (s.modPins f).cast = s.cast := rfl
@[simp] theorem State.modPins_pattern (s : State) (f : Pins → Pins) : (s.modPins f).pattern = s.pattern := rfl
@[simp] theorem State.modPins_spn (s : State) (f : Pins → Pins) : (s.modPins f).spn = s.spn := rfl
@[simp] theorem State.modPins_needles (s : State) (f : Pins → Pins) : (s.modPins f).needles = s.needles := rfl
@[simp] theorem State.modPins_acts (s : State) (f : Pins → Pins) : (s.modPins f).acts = s.acts := rfl
@[simp] theorem State.modPins_slices (s : State) (f : Pins → Pins) : (s.modPins f).slices = s.slices := rfl
@[simp] theorem State.modPins_stitch (s : State) (f : Pins → Pins) : (s.modPins f).stitch = s.stitch := rfl
@[simp] theorem State.modPins_host (s : State) (f : Pins → Pins) : (s.modPins f).host = s.host := rfl
@[simp] theorem State.modPins_flow (s : State) (f : Pins → Pins) : (s.modPins f).flow = s.flow := rfl
@[simp] theorem State.modPins_darn (s : State) (f : Pins → Pins) : (s.modPins f).darn = s.darn := rfl
@[simp] theorem State.modPins_prot (s : State) (f : Pins → Pins) : (s.modPins f).prot = s.prot := rfl
@[simp] theorem State.modPins_tir (s : State) (f : Pins → Pins) : (s.modPins f).tir = s.tir := rfl
@[simp] theorem State.modPins_cip (s : State) (f : Pins → Pins) : (s.modPins f).cip = s.cip := rfl
@[simp] theorem State.modPins_gauge (s : State) (f : Pins → Pins) : (s.modPins f).gauge = s.gauge := rfl
@[simp] theorem State.modPins_upd (s : State) (f : Pins → Pins) : (s.modPins f).upd = s.upd := rfl
@[simp] theorem State.modPins_recorder (s : State) (f : Pins → Pins) : (s.modPins f).recorder = s.recorder := rfl
@[simp] theorem State.modPins_snag (s : State) (f : Pins → Pins) : (s.modPins f).snag = s.snag := rfl
@[simp] theorem State.modPins_dbg (s : State) (f : Pins → Pins) : (s.modPins f).dbg = s.dbg := rfl
@[simp] theorem State.modPins_sram (s : State) (f : Pins → Pins) : (s.modPins f).sram = s.sram := rfl
@[simp] theorem State.modPins_dram (s : State) (f : Pins → Pins) : (s.modPins f).dram = s.dram := rfl
@[simp] theorem State.modPins_pending (s : State) (f : Pins → Pins) : (s.modPins f).pending = s.pending := rfl

@[simp] theorem State.modKeeper_regs (s : State) (f : Keeper → Keeper) : (s.modKeeper f).regs = s.regs := rfl
@[simp] theorem State.modKeeper_fuse (s : State) (f : Keeper → Keeper) : (s.modKeeper f).fuse = s.fuse := rfl
@[simp] theorem State.modKeeper_draws (s : State) (f : Keeper → Keeper) : (s.modKeeper f).draws = s.draws := rfl
@[simp] theorem State.modKeeper_row (s : State) (f : Keeper → Keeper) : (s.modKeeper f).row = s.row := rfl
@[simp] theorem State.modKeeper_pairs (s : State) (f : Keeper → Keeper) : (s.modKeeper f).pairs = s.pairs := rfl
@[simp] theorem State.modKeeper_cable (s : State) (f : Keeper → Keeper) : (s.modKeeper f).cable = s.cable := rfl
@[simp] theorem State.modKeeper_bus (s : State) (f : Keeper → Keeper) : (s.modKeeper f).bus = s.bus := rfl
@[simp] theorem State.modKeeper_pins (s : State) (f : Keeper → Keeper) : (s.modKeeper f).pins = s.pins := rfl
@[simp] theorem State.modKeeper_keeper (s : State) (f : Keeper → Keeper) : (s.modKeeper f).keeper = f s.keeper := rfl
@[simp] theorem State.modKeeper_cast (s : State) (f : Keeper → Keeper) : (s.modKeeper f).cast = s.cast := rfl
@[simp] theorem State.modKeeper_pattern (s : State) (f : Keeper → Keeper) : (s.modKeeper f).pattern = s.pattern := rfl
@[simp] theorem State.modKeeper_spn (s : State) (f : Keeper → Keeper) : (s.modKeeper f).spn = s.spn := rfl
@[simp] theorem State.modKeeper_needles (s : State) (f : Keeper → Keeper) : (s.modKeeper f).needles = s.needles := rfl
@[simp] theorem State.modKeeper_acts (s : State) (f : Keeper → Keeper) : (s.modKeeper f).acts = s.acts := rfl
@[simp] theorem State.modKeeper_slices (s : State) (f : Keeper → Keeper) : (s.modKeeper f).slices = s.slices := rfl
@[simp] theorem State.modKeeper_stitch (s : State) (f : Keeper → Keeper) : (s.modKeeper f).stitch = s.stitch := rfl
@[simp] theorem State.modKeeper_host (s : State) (f : Keeper → Keeper) : (s.modKeeper f).host = s.host := rfl
@[simp] theorem State.modKeeper_flow (s : State) (f : Keeper → Keeper) : (s.modKeeper f).flow = s.flow := rfl
@[simp] theorem State.modKeeper_darn (s : State) (f : Keeper → Keeper) : (s.modKeeper f).darn = s.darn := rfl
@[simp] theorem State.modKeeper_prot (s : State) (f : Keeper → Keeper) : (s.modKeeper f).prot = s.prot := rfl
@[simp] theorem State.modKeeper_tir (s : State) (f : Keeper → Keeper) : (s.modKeeper f).tir = s.tir := rfl
@[simp] theorem State.modKeeper_cip (s : State) (f : Keeper → Keeper) : (s.modKeeper f).cip = s.cip := rfl
@[simp] theorem State.modKeeper_gauge (s : State) (f : Keeper → Keeper) : (s.modKeeper f).gauge = s.gauge := rfl
@[simp] theorem State.modKeeper_upd (s : State) (f : Keeper → Keeper) : (s.modKeeper f).upd = s.upd := rfl
@[simp] theorem State.modKeeper_recorder (s : State) (f : Keeper → Keeper) : (s.modKeeper f).recorder = s.recorder := rfl
@[simp] theorem State.modKeeper_snag (s : State) (f : Keeper → Keeper) : (s.modKeeper f).snag = s.snag := rfl
@[simp] theorem State.modKeeper_dbg (s : State) (f : Keeper → Keeper) : (s.modKeeper f).dbg = s.dbg := rfl
@[simp] theorem State.modKeeper_sram (s : State) (f : Keeper → Keeper) : (s.modKeeper f).sram = s.sram := rfl
@[simp] theorem State.modKeeper_dram (s : State) (f : Keeper → Keeper) : (s.modKeeper f).dram = s.dram := rfl
@[simp] theorem State.modKeeper_pending (s : State) (f : Keeper → Keeper) : (s.modKeeper f).pending = s.pending := rfl

@[simp] theorem State.modCast_regs (s : State) (f : CastOn → CastOn) : (s.modCast f).regs = s.regs := rfl
@[simp] theorem State.modCast_fuse (s : State) (f : CastOn → CastOn) : (s.modCast f).fuse = s.fuse := rfl
@[simp] theorem State.modCast_draws (s : State) (f : CastOn → CastOn) : (s.modCast f).draws = s.draws := rfl
@[simp] theorem State.modCast_row (s : State) (f : CastOn → CastOn) : (s.modCast f).row = s.row := rfl
@[simp] theorem State.modCast_pairs (s : State) (f : CastOn → CastOn) : (s.modCast f).pairs = s.pairs := rfl
@[simp] theorem State.modCast_cable (s : State) (f : CastOn → CastOn) : (s.modCast f).cable = s.cable := rfl
@[simp] theorem State.modCast_bus (s : State) (f : CastOn → CastOn) : (s.modCast f).bus = s.bus := rfl
@[simp] theorem State.modCast_pins (s : State) (f : CastOn → CastOn) : (s.modCast f).pins = s.pins := rfl
@[simp] theorem State.modCast_keeper (s : State) (f : CastOn → CastOn) : (s.modCast f).keeper = s.keeper := rfl
@[simp] theorem State.modCast_cast (s : State) (f : CastOn → CastOn) : (s.modCast f).cast = f s.cast := rfl
@[simp] theorem State.modCast_pattern (s : State) (f : CastOn → CastOn) : (s.modCast f).pattern = s.pattern := rfl
@[simp] theorem State.modCast_spn (s : State) (f : CastOn → CastOn) : (s.modCast f).spn = s.spn := rfl
@[simp] theorem State.modCast_needles (s : State) (f : CastOn → CastOn) : (s.modCast f).needles = s.needles := rfl
@[simp] theorem State.modCast_acts (s : State) (f : CastOn → CastOn) : (s.modCast f).acts = s.acts := rfl
@[simp] theorem State.modCast_slices (s : State) (f : CastOn → CastOn) : (s.modCast f).slices = s.slices := rfl
@[simp] theorem State.modCast_stitch (s : State) (f : CastOn → CastOn) : (s.modCast f).stitch = s.stitch := rfl
@[simp] theorem State.modCast_host (s : State) (f : CastOn → CastOn) : (s.modCast f).host = s.host := rfl
@[simp] theorem State.modCast_flow (s : State) (f : CastOn → CastOn) : (s.modCast f).flow = s.flow := rfl
@[simp] theorem State.modCast_darn (s : State) (f : CastOn → CastOn) : (s.modCast f).darn = s.darn := rfl
@[simp] theorem State.modCast_prot (s : State) (f : CastOn → CastOn) : (s.modCast f).prot = s.prot := rfl
@[simp] theorem State.modCast_tir (s : State) (f : CastOn → CastOn) : (s.modCast f).tir = s.tir := rfl
@[simp] theorem State.modCast_cip (s : State) (f : CastOn → CastOn) : (s.modCast f).cip = s.cip := rfl
@[simp] theorem State.modCast_gauge (s : State) (f : CastOn → CastOn) : (s.modCast f).gauge = s.gauge := rfl
@[simp] theorem State.modCast_upd (s : State) (f : CastOn → CastOn) : (s.modCast f).upd = s.upd := rfl
@[simp] theorem State.modCast_recorder (s : State) (f : CastOn → CastOn) : (s.modCast f).recorder = s.recorder := rfl
@[simp] theorem State.modCast_snag (s : State) (f : CastOn → CastOn) : (s.modCast f).snag = s.snag := rfl
@[simp] theorem State.modCast_dbg (s : State) (f : CastOn → CastOn) : (s.modCast f).dbg = s.dbg := rfl
@[simp] theorem State.modCast_sram (s : State) (f : CastOn → CastOn) : (s.modCast f).sram = s.sram := rfl
@[simp] theorem State.modCast_dram (s : State) (f : CastOn → CastOn) : (s.modCast f).dram = s.dram := rfl
@[simp] theorem State.modCast_pending (s : State) (f : CastOn → CastOn) : (s.modCast f).pending = s.pending := rfl

@[simp] theorem State.modPattern_regs (s : State) (f : PatternUnit → PatternUnit) : (s.modPattern f).regs = s.regs := rfl
@[simp] theorem State.modPattern_fuse (s : State) (f : PatternUnit → PatternUnit) : (s.modPattern f).fuse = s.fuse := rfl
@[simp] theorem State.modPattern_draws (s : State) (f : PatternUnit → PatternUnit) : (s.modPattern f).draws = s.draws := rfl
@[simp] theorem State.modPattern_row (s : State) (f : PatternUnit → PatternUnit) : (s.modPattern f).row = s.row := rfl
@[simp] theorem State.modPattern_pairs (s : State) (f : PatternUnit → PatternUnit) : (s.modPattern f).pairs = s.pairs := rfl
@[simp] theorem State.modPattern_cable (s : State) (f : PatternUnit → PatternUnit) : (s.modPattern f).cable = s.cable := rfl
@[simp] theorem State.modPattern_bus (s : State) (f : PatternUnit → PatternUnit) : (s.modPattern f).bus = s.bus := rfl
@[simp] theorem State.modPattern_pins (s : State) (f : PatternUnit → PatternUnit) : (s.modPattern f).pins = s.pins := rfl
@[simp] theorem State.modPattern_keeper (s : State) (f : PatternUnit → PatternUnit) : (s.modPattern f).keeper = s.keeper := rfl
@[simp] theorem State.modPattern_cast (s : State) (f : PatternUnit → PatternUnit) : (s.modPattern f).cast = s.cast := rfl
@[simp] theorem State.modPattern_pattern (s : State) (f : PatternUnit → PatternUnit) : (s.modPattern f).pattern = f s.pattern := rfl
@[simp] theorem State.modPattern_spn (s : State) (f : PatternUnit → PatternUnit) : (s.modPattern f).spn = s.spn := rfl
@[simp] theorem State.modPattern_needles (s : State) (f : PatternUnit → PatternUnit) : (s.modPattern f).needles = s.needles := rfl
@[simp] theorem State.modPattern_acts (s : State) (f : PatternUnit → PatternUnit) : (s.modPattern f).acts = s.acts := rfl
@[simp] theorem State.modPattern_slices (s : State) (f : PatternUnit → PatternUnit) : (s.modPattern f).slices = s.slices := rfl
@[simp] theorem State.modPattern_stitch (s : State) (f : PatternUnit → PatternUnit) : (s.modPattern f).stitch = s.stitch := rfl
@[simp] theorem State.modPattern_host (s : State) (f : PatternUnit → PatternUnit) : (s.modPattern f).host = s.host := rfl
@[simp] theorem State.modPattern_flow (s : State) (f : PatternUnit → PatternUnit) : (s.modPattern f).flow = s.flow := rfl
@[simp] theorem State.modPattern_darn (s : State) (f : PatternUnit → PatternUnit) : (s.modPattern f).darn = s.darn := rfl
@[simp] theorem State.modPattern_prot (s : State) (f : PatternUnit → PatternUnit) : (s.modPattern f).prot = s.prot := rfl
@[simp] theorem State.modPattern_tir (s : State) (f : PatternUnit → PatternUnit) : (s.modPattern f).tir = s.tir := rfl
@[simp] theorem State.modPattern_cip (s : State) (f : PatternUnit → PatternUnit) : (s.modPattern f).cip = s.cip := rfl
@[simp] theorem State.modPattern_gauge (s : State) (f : PatternUnit → PatternUnit) : (s.modPattern f).gauge = s.gauge := rfl
@[simp] theorem State.modPattern_upd (s : State) (f : PatternUnit → PatternUnit) : (s.modPattern f).upd = s.upd := rfl
@[simp] theorem State.modPattern_recorder (s : State) (f : PatternUnit → PatternUnit) : (s.modPattern f).recorder = s.recorder := rfl
@[simp] theorem State.modPattern_snag (s : State) (f : PatternUnit → PatternUnit) : (s.modPattern f).snag = s.snag := rfl
@[simp] theorem State.modPattern_dbg (s : State) (f : PatternUnit → PatternUnit) : (s.modPattern f).dbg = s.dbg := rfl
@[simp] theorem State.modPattern_sram (s : State) (f : PatternUnit → PatternUnit) : (s.modPattern f).sram = s.sram := rfl
@[simp] theorem State.modPattern_dram (s : State) (f : PatternUnit → PatternUnit) : (s.modPattern f).dram = s.dram := rfl
@[simp] theorem State.modPattern_pending (s : State) (f : PatternUnit → PatternUnit) : (s.modPattern f).pending = s.pending := rfl

@[simp] theorem State.modSpn_regs (s : State) (f : Spindle → Spindle) : (s.modSpn f).regs = s.regs := rfl
@[simp] theorem State.modSpn_fuse (s : State) (f : Spindle → Spindle) : (s.modSpn f).fuse = s.fuse := rfl
@[simp] theorem State.modSpn_draws (s : State) (f : Spindle → Spindle) : (s.modSpn f).draws = s.draws := rfl
@[simp] theorem State.modSpn_row (s : State) (f : Spindle → Spindle) : (s.modSpn f).row = s.row := rfl
@[simp] theorem State.modSpn_pairs (s : State) (f : Spindle → Spindle) : (s.modSpn f).pairs = s.pairs := rfl
@[simp] theorem State.modSpn_cable (s : State) (f : Spindle → Spindle) : (s.modSpn f).cable = s.cable := rfl
@[simp] theorem State.modSpn_bus (s : State) (f : Spindle → Spindle) : (s.modSpn f).bus = s.bus := rfl
@[simp] theorem State.modSpn_pins (s : State) (f : Spindle → Spindle) : (s.modSpn f).pins = s.pins := rfl
@[simp] theorem State.modSpn_keeper (s : State) (f : Spindle → Spindle) : (s.modSpn f).keeper = s.keeper := rfl
@[simp] theorem State.modSpn_cast (s : State) (f : Spindle → Spindle) : (s.modSpn f).cast = s.cast := rfl
@[simp] theorem State.modSpn_pattern (s : State) (f : Spindle → Spindle) : (s.modSpn f).pattern = s.pattern := rfl
@[simp] theorem State.modSpn_spn (s : State) (f : Spindle → Spindle) : (s.modSpn f).spn = f s.spn := rfl
@[simp] theorem State.modSpn_needles (s : State) (f : Spindle → Spindle) : (s.modSpn f).needles = s.needles := rfl
@[simp] theorem State.modSpn_acts (s : State) (f : Spindle → Spindle) : (s.modSpn f).acts = s.acts := rfl
@[simp] theorem State.modSpn_slices (s : State) (f : Spindle → Spindle) : (s.modSpn f).slices = s.slices := rfl
@[simp] theorem State.modSpn_stitch (s : State) (f : Spindle → Spindle) : (s.modSpn f).stitch = s.stitch := rfl
@[simp] theorem State.modSpn_host (s : State) (f : Spindle → Spindle) : (s.modSpn f).host = s.host := rfl
@[simp] theorem State.modSpn_flow (s : State) (f : Spindle → Spindle) : (s.modSpn f).flow = s.flow := rfl
@[simp] theorem State.modSpn_darn (s : State) (f : Spindle → Spindle) : (s.modSpn f).darn = s.darn := rfl
@[simp] theorem State.modSpn_prot (s : State) (f : Spindle → Spindle) : (s.modSpn f).prot = s.prot := rfl
@[simp] theorem State.modSpn_tir (s : State) (f : Spindle → Spindle) : (s.modSpn f).tir = s.tir := rfl
@[simp] theorem State.modSpn_cip (s : State) (f : Spindle → Spindle) : (s.modSpn f).cip = s.cip := rfl
@[simp] theorem State.modSpn_gauge (s : State) (f : Spindle → Spindle) : (s.modSpn f).gauge = s.gauge := rfl
@[simp] theorem State.modSpn_upd (s : State) (f : Spindle → Spindle) : (s.modSpn f).upd = s.upd := rfl
@[simp] theorem State.modSpn_recorder (s : State) (f : Spindle → Spindle) : (s.modSpn f).recorder = s.recorder := rfl
@[simp] theorem State.modSpn_snag (s : State) (f : Spindle → Spindle) : (s.modSpn f).snag = s.snag := rfl
@[simp] theorem State.modSpn_dbg (s : State) (f : Spindle → Spindle) : (s.modSpn f).dbg = s.dbg := rfl
@[simp] theorem State.modSpn_sram (s : State) (f : Spindle → Spindle) : (s.modSpn f).sram = s.sram := rfl
@[simp] theorem State.modSpn_dram (s : State) (f : Spindle → Spindle) : (s.modSpn f).dram = s.dram := rfl
@[simp] theorem State.modSpn_pending (s : State) (f : Spindle → Spindle) : (s.modSpn f).pending = s.pending := rfl

@[simp] theorem State.modNeedles_regs (s : State) (f : List Needle → List Needle) : (s.modNeedles f).regs = s.regs := rfl
@[simp] theorem State.modNeedles_fuse (s : State) (f : List Needle → List Needle) : (s.modNeedles f).fuse = s.fuse := rfl
@[simp] theorem State.modNeedles_draws (s : State) (f : List Needle → List Needle) : (s.modNeedles f).draws = s.draws := rfl
@[simp] theorem State.modNeedles_row (s : State) (f : List Needle → List Needle) : (s.modNeedles f).row = s.row := rfl
@[simp] theorem State.modNeedles_pairs (s : State) (f : List Needle → List Needle) : (s.modNeedles f).pairs = s.pairs := rfl
@[simp] theorem State.modNeedles_cable (s : State) (f : List Needle → List Needle) : (s.modNeedles f).cable = s.cable := rfl
@[simp] theorem State.modNeedles_bus (s : State) (f : List Needle → List Needle) : (s.modNeedles f).bus = s.bus := rfl
@[simp] theorem State.modNeedles_pins (s : State) (f : List Needle → List Needle) : (s.modNeedles f).pins = s.pins := rfl
@[simp] theorem State.modNeedles_keeper (s : State) (f : List Needle → List Needle) : (s.modNeedles f).keeper = s.keeper := rfl
@[simp] theorem State.modNeedles_cast (s : State) (f : List Needle → List Needle) : (s.modNeedles f).cast = s.cast := rfl
@[simp] theorem State.modNeedles_pattern (s : State) (f : List Needle → List Needle) : (s.modNeedles f).pattern = s.pattern := rfl
@[simp] theorem State.modNeedles_spn (s : State) (f : List Needle → List Needle) : (s.modNeedles f).spn = s.spn := rfl
@[simp] theorem State.modNeedles_needles (s : State) (f : List Needle → List Needle) : (s.modNeedles f).needles = f s.needles := rfl
@[simp] theorem State.modNeedles_acts (s : State) (f : List Needle → List Needle) : (s.modNeedles f).acts = s.acts := rfl
@[simp] theorem State.modNeedles_slices (s : State) (f : List Needle → List Needle) : (s.modNeedles f).slices = s.slices := rfl
@[simp] theorem State.modNeedles_stitch (s : State) (f : List Needle → List Needle) : (s.modNeedles f).stitch = s.stitch := rfl
@[simp] theorem State.modNeedles_host (s : State) (f : List Needle → List Needle) : (s.modNeedles f).host = s.host := rfl
@[simp] theorem State.modNeedles_flow (s : State) (f : List Needle → List Needle) : (s.modNeedles f).flow = s.flow := rfl
@[simp] theorem State.modNeedles_darn (s : State) (f : List Needle → List Needle) : (s.modNeedles f).darn = s.darn := rfl
@[simp] theorem State.modNeedles_prot (s : State) (f : List Needle → List Needle) : (s.modNeedles f).prot = s.prot := rfl
@[simp] theorem State.modNeedles_tir (s : State) (f : List Needle → List Needle) : (s.modNeedles f).tir = s.tir := rfl
@[simp] theorem State.modNeedles_cip (s : State) (f : List Needle → List Needle) : (s.modNeedles f).cip = s.cip := rfl
@[simp] theorem State.modNeedles_gauge (s : State) (f : List Needle → List Needle) : (s.modNeedles f).gauge = s.gauge := rfl
@[simp] theorem State.modNeedles_upd (s : State) (f : List Needle → List Needle) : (s.modNeedles f).upd = s.upd := rfl
@[simp] theorem State.modNeedles_recorder (s : State) (f : List Needle → List Needle) : (s.modNeedles f).recorder = s.recorder := rfl
@[simp] theorem State.modNeedles_snag (s : State) (f : List Needle → List Needle) : (s.modNeedles f).snag = s.snag := rfl
@[simp] theorem State.modNeedles_dbg (s : State) (f : List Needle → List Needle) : (s.modNeedles f).dbg = s.dbg := rfl
@[simp] theorem State.modNeedles_sram (s : State) (f : List Needle → List Needle) : (s.modNeedles f).sram = s.sram := rfl
@[simp] theorem State.modNeedles_dram (s : State) (f : List Needle → List Needle) : (s.modNeedles f).dram = s.dram := rfl
@[simp] theorem State.modNeedles_pending (s : State) (f : List Needle → List Needle) : (s.modNeedles f).pending = s.pending := rfl

@[simp] theorem State.modActs_regs (s : State) (f : List Actuator → List Actuator) : (s.modActs f).regs = s.regs := rfl
@[simp] theorem State.modActs_fuse (s : State) (f : List Actuator → List Actuator) : (s.modActs f).fuse = s.fuse := rfl
@[simp] theorem State.modActs_draws (s : State) (f : List Actuator → List Actuator) : (s.modActs f).draws = s.draws := rfl
@[simp] theorem State.modActs_row (s : State) (f : List Actuator → List Actuator) : (s.modActs f).row = s.row := rfl
@[simp] theorem State.modActs_pairs (s : State) (f : List Actuator → List Actuator) : (s.modActs f).pairs = s.pairs := rfl
@[simp] theorem State.modActs_cable (s : State) (f : List Actuator → List Actuator) : (s.modActs f).cable = s.cable := rfl
@[simp] theorem State.modActs_bus (s : State) (f : List Actuator → List Actuator) : (s.modActs f).bus = s.bus := rfl
@[simp] theorem State.modActs_pins (s : State) (f : List Actuator → List Actuator) : (s.modActs f).pins = s.pins := rfl
@[simp] theorem State.modActs_keeper (s : State) (f : List Actuator → List Actuator) : (s.modActs f).keeper = s.keeper := rfl
@[simp] theorem State.modActs_cast (s : State) (f : List Actuator → List Actuator) : (s.modActs f).cast = s.cast := rfl
@[simp] theorem State.modActs_pattern (s : State) (f : List Actuator → List Actuator) : (s.modActs f).pattern = s.pattern := rfl
@[simp] theorem State.modActs_spn (s : State) (f : List Actuator → List Actuator) : (s.modActs f).spn = s.spn := rfl
@[simp] theorem State.modActs_needles (s : State) (f : List Actuator → List Actuator) : (s.modActs f).needles = s.needles := rfl
@[simp] theorem State.modActs_acts (s : State) (f : List Actuator → List Actuator) : (s.modActs f).acts = f s.acts := rfl
@[simp] theorem State.modActs_slices (s : State) (f : List Actuator → List Actuator) : (s.modActs f).slices = s.slices := rfl
@[simp] theorem State.modActs_stitch (s : State) (f : List Actuator → List Actuator) : (s.modActs f).stitch = s.stitch := rfl
@[simp] theorem State.modActs_host (s : State) (f : List Actuator → List Actuator) : (s.modActs f).host = s.host := rfl
@[simp] theorem State.modActs_flow (s : State) (f : List Actuator → List Actuator) : (s.modActs f).flow = s.flow := rfl
@[simp] theorem State.modActs_darn (s : State) (f : List Actuator → List Actuator) : (s.modActs f).darn = s.darn := rfl
@[simp] theorem State.modActs_prot (s : State) (f : List Actuator → List Actuator) : (s.modActs f).prot = s.prot := rfl
@[simp] theorem State.modActs_tir (s : State) (f : List Actuator → List Actuator) : (s.modActs f).tir = s.tir := rfl
@[simp] theorem State.modActs_cip (s : State) (f : List Actuator → List Actuator) : (s.modActs f).cip = s.cip := rfl
@[simp] theorem State.modActs_gauge (s : State) (f : List Actuator → List Actuator) : (s.modActs f).gauge = s.gauge := rfl
@[simp] theorem State.modActs_upd (s : State) (f : List Actuator → List Actuator) : (s.modActs f).upd = s.upd := rfl
@[simp] theorem State.modActs_recorder (s : State) (f : List Actuator → List Actuator) : (s.modActs f).recorder = s.recorder := rfl
@[simp] theorem State.modActs_snag (s : State) (f : List Actuator → List Actuator) : (s.modActs f).snag = s.snag := rfl
@[simp] theorem State.modActs_dbg (s : State) (f : List Actuator → List Actuator) : (s.modActs f).dbg = s.dbg := rfl
@[simp] theorem State.modActs_sram (s : State) (f : List Actuator → List Actuator) : (s.modActs f).sram = s.sram := rfl
@[simp] theorem State.modActs_dram (s : State) (f : List Actuator → List Actuator) : (s.modActs f).dram = s.dram := rfl
@[simp] theorem State.modActs_pending (s : State) (f : List Actuator → List Actuator) : (s.modActs f).pending = s.pending := rfl

@[simp] theorem State.modSlices_regs (s : State) (f : List Slice → List Slice) : (s.modSlices f).regs = s.regs := rfl
@[simp] theorem State.modSlices_fuse (s : State) (f : List Slice → List Slice) : (s.modSlices f).fuse = s.fuse := rfl
@[simp] theorem State.modSlices_draws (s : State) (f : List Slice → List Slice) : (s.modSlices f).draws = s.draws := rfl
@[simp] theorem State.modSlices_row (s : State) (f : List Slice → List Slice) : (s.modSlices f).row = s.row := rfl
@[simp] theorem State.modSlices_pairs (s : State) (f : List Slice → List Slice) : (s.modSlices f).pairs = s.pairs := rfl
@[simp] theorem State.modSlices_cable (s : State) (f : List Slice → List Slice) : (s.modSlices f).cable = s.cable := rfl
@[simp] theorem State.modSlices_bus (s : State) (f : List Slice → List Slice) : (s.modSlices f).bus = s.bus := rfl
@[simp] theorem State.modSlices_pins (s : State) (f : List Slice → List Slice) : (s.modSlices f).pins = s.pins := rfl
@[simp] theorem State.modSlices_keeper (s : State) (f : List Slice → List Slice) : (s.modSlices f).keeper = s.keeper := rfl
@[simp] theorem State.modSlices_cast (s : State) (f : List Slice → List Slice) : (s.modSlices f).cast = s.cast := rfl
@[simp] theorem State.modSlices_pattern (s : State) (f : List Slice → List Slice) : (s.modSlices f).pattern = s.pattern := rfl
@[simp] theorem State.modSlices_spn (s : State) (f : List Slice → List Slice) : (s.modSlices f).spn = s.spn := rfl
@[simp] theorem State.modSlices_needles (s : State) (f : List Slice → List Slice) : (s.modSlices f).needles = s.needles := rfl
@[simp] theorem State.modSlices_acts (s : State) (f : List Slice → List Slice) : (s.modSlices f).acts = s.acts := rfl
@[simp] theorem State.modSlices_slices (s : State) (f : List Slice → List Slice) : (s.modSlices f).slices = f s.slices := rfl
@[simp] theorem State.modSlices_stitch (s : State) (f : List Slice → List Slice) : (s.modSlices f).stitch = s.stitch := rfl
@[simp] theorem State.modSlices_host (s : State) (f : List Slice → List Slice) : (s.modSlices f).host = s.host := rfl
@[simp] theorem State.modSlices_flow (s : State) (f : List Slice → List Slice) : (s.modSlices f).flow = s.flow := rfl
@[simp] theorem State.modSlices_darn (s : State) (f : List Slice → List Slice) : (s.modSlices f).darn = s.darn := rfl
@[simp] theorem State.modSlices_prot (s : State) (f : List Slice → List Slice) : (s.modSlices f).prot = s.prot := rfl
@[simp] theorem State.modSlices_tir (s : State) (f : List Slice → List Slice) : (s.modSlices f).tir = s.tir := rfl
@[simp] theorem State.modSlices_cip (s : State) (f : List Slice → List Slice) : (s.modSlices f).cip = s.cip := rfl
@[simp] theorem State.modSlices_gauge (s : State) (f : List Slice → List Slice) : (s.modSlices f).gauge = s.gauge := rfl
@[simp] theorem State.modSlices_upd (s : State) (f : List Slice → List Slice) : (s.modSlices f).upd = s.upd := rfl
@[simp] theorem State.modSlices_recorder (s : State) (f : List Slice → List Slice) : (s.modSlices f).recorder = s.recorder := rfl
@[simp] theorem State.modSlices_snag (s : State) (f : List Slice → List Slice) : (s.modSlices f).snag = s.snag := rfl
@[simp] theorem State.modSlices_dbg (s : State) (f : List Slice → List Slice) : (s.modSlices f).dbg = s.dbg := rfl
@[simp] theorem State.modSlices_sram (s : State) (f : List Slice → List Slice) : (s.modSlices f).sram = s.sram := rfl
@[simp] theorem State.modSlices_dram (s : State) (f : List Slice → List Slice) : (s.modSlices f).dram = s.dram := rfl
@[simp] theorem State.modSlices_pending (s : State) (f : List Slice → List Slice) : (s.modSlices f).pending = s.pending := rfl

@[simp] theorem State.modStitch_regs (s : State) (f : Stitch → Stitch) : (s.modStitch f).regs = s.regs := rfl
@[simp] theorem State.modStitch_fuse (s : State) (f : Stitch → Stitch) : (s.modStitch f).fuse = s.fuse := rfl
@[simp] theorem State.modStitch_draws (s : State) (f : Stitch → Stitch) : (s.modStitch f).draws = s.draws := rfl
@[simp] theorem State.modStitch_row (s : State) (f : Stitch → Stitch) : (s.modStitch f).row = s.row := rfl
@[simp] theorem State.modStitch_pairs (s : State) (f : Stitch → Stitch) : (s.modStitch f).pairs = s.pairs := rfl
@[simp] theorem State.modStitch_cable (s : State) (f : Stitch → Stitch) : (s.modStitch f).cable = s.cable := rfl
@[simp] theorem State.modStitch_bus (s : State) (f : Stitch → Stitch) : (s.modStitch f).bus = s.bus := rfl
@[simp] theorem State.modStitch_pins (s : State) (f : Stitch → Stitch) : (s.modStitch f).pins = s.pins := rfl
@[simp] theorem State.modStitch_keeper (s : State) (f : Stitch → Stitch) : (s.modStitch f).keeper = s.keeper := rfl
@[simp] theorem State.modStitch_cast (s : State) (f : Stitch → Stitch) : (s.modStitch f).cast = s.cast := rfl
@[simp] theorem State.modStitch_pattern (s : State) (f : Stitch → Stitch) : (s.modStitch f).pattern = s.pattern := rfl
@[simp] theorem State.modStitch_spn (s : State) (f : Stitch → Stitch) : (s.modStitch f).spn = s.spn := rfl
@[simp] theorem State.modStitch_needles (s : State) (f : Stitch → Stitch) : (s.modStitch f).needles = s.needles := rfl
@[simp] theorem State.modStitch_acts (s : State) (f : Stitch → Stitch) : (s.modStitch f).acts = s.acts := rfl
@[simp] theorem State.modStitch_slices (s : State) (f : Stitch → Stitch) : (s.modStitch f).slices = s.slices := rfl
@[simp] theorem State.modStitch_stitch (s : State) (f : Stitch → Stitch) : (s.modStitch f).stitch = f s.stitch := rfl
@[simp] theorem State.modStitch_host (s : State) (f : Stitch → Stitch) : (s.modStitch f).host = s.host := rfl
@[simp] theorem State.modStitch_flow (s : State) (f : Stitch → Stitch) : (s.modStitch f).flow = s.flow := rfl
@[simp] theorem State.modStitch_darn (s : State) (f : Stitch → Stitch) : (s.modStitch f).darn = s.darn := rfl
@[simp] theorem State.modStitch_prot (s : State) (f : Stitch → Stitch) : (s.modStitch f).prot = s.prot := rfl
@[simp] theorem State.modStitch_tir (s : State) (f : Stitch → Stitch) : (s.modStitch f).tir = s.tir := rfl
@[simp] theorem State.modStitch_cip (s : State) (f : Stitch → Stitch) : (s.modStitch f).cip = s.cip := rfl
@[simp] theorem State.modStitch_gauge (s : State) (f : Stitch → Stitch) : (s.modStitch f).gauge = s.gauge := rfl
@[simp] theorem State.modStitch_upd (s : State) (f : Stitch → Stitch) : (s.modStitch f).upd = s.upd := rfl
@[simp] theorem State.modStitch_recorder (s : State) (f : Stitch → Stitch) : (s.modStitch f).recorder = s.recorder := rfl
@[simp] theorem State.modStitch_snag (s : State) (f : Stitch → Stitch) : (s.modStitch f).snag = s.snag := rfl
@[simp] theorem State.modStitch_dbg (s : State) (f : Stitch → Stitch) : (s.modStitch f).dbg = s.dbg := rfl
@[simp] theorem State.modStitch_sram (s : State) (f : Stitch → Stitch) : (s.modStitch f).sram = s.sram := rfl
@[simp] theorem State.modStitch_dram (s : State) (f : Stitch → Stitch) : (s.modStitch f).dram = s.dram := rfl
@[simp] theorem State.modStitch_pending (s : State) (f : Stitch → Stitch) : (s.modStitch f).pending = s.pending := rfl

@[simp] theorem State.modHost_regs (s : State) (f : HostUnit → HostUnit) : (s.modHost f).regs = s.regs := rfl
@[simp] theorem State.modHost_fuse (s : State) (f : HostUnit → HostUnit) : (s.modHost f).fuse = s.fuse := rfl
@[simp] theorem State.modHost_draws (s : State) (f : HostUnit → HostUnit) : (s.modHost f).draws = s.draws := rfl
@[simp] theorem State.modHost_row (s : State) (f : HostUnit → HostUnit) : (s.modHost f).row = s.row := rfl
@[simp] theorem State.modHost_pairs (s : State) (f : HostUnit → HostUnit) : (s.modHost f).pairs = s.pairs := rfl
@[simp] theorem State.modHost_cable (s : State) (f : HostUnit → HostUnit) : (s.modHost f).cable = s.cable := rfl
@[simp] theorem State.modHost_bus (s : State) (f : HostUnit → HostUnit) : (s.modHost f).bus = s.bus := rfl
@[simp] theorem State.modHost_pins (s : State) (f : HostUnit → HostUnit) : (s.modHost f).pins = s.pins := rfl
@[simp] theorem State.modHost_keeper (s : State) (f : HostUnit → HostUnit) : (s.modHost f).keeper = s.keeper := rfl
@[simp] theorem State.modHost_cast (s : State) (f : HostUnit → HostUnit) : (s.modHost f).cast = s.cast := rfl
@[simp] theorem State.modHost_pattern (s : State) (f : HostUnit → HostUnit) : (s.modHost f).pattern = s.pattern := rfl
@[simp] theorem State.modHost_spn (s : State) (f : HostUnit → HostUnit) : (s.modHost f).spn = s.spn := rfl
@[simp] theorem State.modHost_needles (s : State) (f : HostUnit → HostUnit) : (s.modHost f).needles = s.needles := rfl
@[simp] theorem State.modHost_acts (s : State) (f : HostUnit → HostUnit) : (s.modHost f).acts = s.acts := rfl
@[simp] theorem State.modHost_slices (s : State) (f : HostUnit → HostUnit) : (s.modHost f).slices = s.slices := rfl
@[simp] theorem State.modHost_stitch (s : State) (f : HostUnit → HostUnit) : (s.modHost f).stitch = s.stitch := rfl
@[simp] theorem State.modHost_host (s : State) (f : HostUnit → HostUnit) : (s.modHost f).host = f s.host := rfl
@[simp] theorem State.modHost_flow (s : State) (f : HostUnit → HostUnit) : (s.modHost f).flow = s.flow := rfl
@[simp] theorem State.modHost_darn (s : State) (f : HostUnit → HostUnit) : (s.modHost f).darn = s.darn := rfl
@[simp] theorem State.modHost_prot (s : State) (f : HostUnit → HostUnit) : (s.modHost f).prot = s.prot := rfl
@[simp] theorem State.modHost_tir (s : State) (f : HostUnit → HostUnit) : (s.modHost f).tir = s.tir := rfl
@[simp] theorem State.modHost_cip (s : State) (f : HostUnit → HostUnit) : (s.modHost f).cip = s.cip := rfl
@[simp] theorem State.modHost_gauge (s : State) (f : HostUnit → HostUnit) : (s.modHost f).gauge = s.gauge := rfl
@[simp] theorem State.modHost_upd (s : State) (f : HostUnit → HostUnit) : (s.modHost f).upd = s.upd := rfl
@[simp] theorem State.modHost_recorder (s : State) (f : HostUnit → HostUnit) : (s.modHost f).recorder = s.recorder := rfl
@[simp] theorem State.modHost_snag (s : State) (f : HostUnit → HostUnit) : (s.modHost f).snag = s.snag := rfl
@[simp] theorem State.modHost_dbg (s : State) (f : HostUnit → HostUnit) : (s.modHost f).dbg = s.dbg := rfl
@[simp] theorem State.modHost_sram (s : State) (f : HostUnit → HostUnit) : (s.modHost f).sram = s.sram := rfl
@[simp] theorem State.modHost_dram (s : State) (f : HostUnit → HostUnit) : (s.modHost f).dram = s.dram := rfl
@[simp] theorem State.modHost_pending (s : State) (f : HostUnit → HostUnit) : (s.modHost f).pending = s.pending := rfl

@[simp] theorem State.modFlow_regs (s : State) (f : Flow → Flow) : (s.modFlow f).regs = s.regs := rfl
@[simp] theorem State.modFlow_fuse (s : State) (f : Flow → Flow) : (s.modFlow f).fuse = s.fuse := rfl
@[simp] theorem State.modFlow_draws (s : State) (f : Flow → Flow) : (s.modFlow f).draws = s.draws := rfl
@[simp] theorem State.modFlow_row (s : State) (f : Flow → Flow) : (s.modFlow f).row = s.row := rfl
@[simp] theorem State.modFlow_pairs (s : State) (f : Flow → Flow) : (s.modFlow f).pairs = s.pairs := rfl
@[simp] theorem State.modFlow_cable (s : State) (f : Flow → Flow) : (s.modFlow f).cable = s.cable := rfl
@[simp] theorem State.modFlow_bus (s : State) (f : Flow → Flow) : (s.modFlow f).bus = s.bus := rfl
@[simp] theorem State.modFlow_pins (s : State) (f : Flow → Flow) : (s.modFlow f).pins = s.pins := rfl
@[simp] theorem State.modFlow_keeper (s : State) (f : Flow → Flow) : (s.modFlow f).keeper = s.keeper := rfl
@[simp] theorem State.modFlow_cast (s : State) (f : Flow → Flow) : (s.modFlow f).cast = s.cast := rfl
@[simp] theorem State.modFlow_pattern (s : State) (f : Flow → Flow) : (s.modFlow f).pattern = s.pattern := rfl
@[simp] theorem State.modFlow_spn (s : State) (f : Flow → Flow) : (s.modFlow f).spn = s.spn := rfl
@[simp] theorem State.modFlow_needles (s : State) (f : Flow → Flow) : (s.modFlow f).needles = s.needles := rfl
@[simp] theorem State.modFlow_acts (s : State) (f : Flow → Flow) : (s.modFlow f).acts = s.acts := rfl
@[simp] theorem State.modFlow_slices (s : State) (f : Flow → Flow) : (s.modFlow f).slices = s.slices := rfl
@[simp] theorem State.modFlow_stitch (s : State) (f : Flow → Flow) : (s.modFlow f).stitch = s.stitch := rfl
@[simp] theorem State.modFlow_host (s : State) (f : Flow → Flow) : (s.modFlow f).host = s.host := rfl
@[simp] theorem State.modFlow_flow (s : State) (f : Flow → Flow) : (s.modFlow f).flow = f s.flow := rfl
@[simp] theorem State.modFlow_darn (s : State) (f : Flow → Flow) : (s.modFlow f).darn = s.darn := rfl
@[simp] theorem State.modFlow_prot (s : State) (f : Flow → Flow) : (s.modFlow f).prot = s.prot := rfl
@[simp] theorem State.modFlow_tir (s : State) (f : Flow → Flow) : (s.modFlow f).tir = s.tir := rfl
@[simp] theorem State.modFlow_cip (s : State) (f : Flow → Flow) : (s.modFlow f).cip = s.cip := rfl
@[simp] theorem State.modFlow_gauge (s : State) (f : Flow → Flow) : (s.modFlow f).gauge = s.gauge := rfl
@[simp] theorem State.modFlow_upd (s : State) (f : Flow → Flow) : (s.modFlow f).upd = s.upd := rfl
@[simp] theorem State.modFlow_recorder (s : State) (f : Flow → Flow) : (s.modFlow f).recorder = s.recorder := rfl
@[simp] theorem State.modFlow_snag (s : State) (f : Flow → Flow) : (s.modFlow f).snag = s.snag := rfl
@[simp] theorem State.modFlow_dbg (s : State) (f : Flow → Flow) : (s.modFlow f).dbg = s.dbg := rfl
@[simp] theorem State.modFlow_sram (s : State) (f : Flow → Flow) : (s.modFlow f).sram = s.sram := rfl
@[simp] theorem State.modFlow_dram (s : State) (f : Flow → Flow) : (s.modFlow f).dram = s.dram := rfl
@[simp] theorem State.modFlow_pending (s : State) (f : Flow → Flow) : (s.modFlow f).pending = s.pending := rfl

@[simp] theorem State.modDarn_regs (s : State) (f : Darning → Darning) : (s.modDarn f).regs = s.regs := rfl
@[simp] theorem State.modDarn_fuse (s : State) (f : Darning → Darning) : (s.modDarn f).fuse = s.fuse := rfl
@[simp] theorem State.modDarn_draws (s : State) (f : Darning → Darning) : (s.modDarn f).draws = s.draws := rfl
@[simp] theorem State.modDarn_row (s : State) (f : Darning → Darning) : (s.modDarn f).row = s.row := rfl
@[simp] theorem State.modDarn_pairs (s : State) (f : Darning → Darning) : (s.modDarn f).pairs = s.pairs := rfl
@[simp] theorem State.modDarn_cable (s : State) (f : Darning → Darning) : (s.modDarn f).cable = s.cable := rfl
@[simp] theorem State.modDarn_bus (s : State) (f : Darning → Darning) : (s.modDarn f).bus = s.bus := rfl
@[simp] theorem State.modDarn_pins (s : State) (f : Darning → Darning) : (s.modDarn f).pins = s.pins := rfl
@[simp] theorem State.modDarn_keeper (s : State) (f : Darning → Darning) : (s.modDarn f).keeper = s.keeper := rfl
@[simp] theorem State.modDarn_cast (s : State) (f : Darning → Darning) : (s.modDarn f).cast = s.cast := rfl
@[simp] theorem State.modDarn_pattern (s : State) (f : Darning → Darning) : (s.modDarn f).pattern = s.pattern := rfl
@[simp] theorem State.modDarn_spn (s : State) (f : Darning → Darning) : (s.modDarn f).spn = s.spn := rfl
@[simp] theorem State.modDarn_needles (s : State) (f : Darning → Darning) : (s.modDarn f).needles = s.needles := rfl
@[simp] theorem State.modDarn_acts (s : State) (f : Darning → Darning) : (s.modDarn f).acts = s.acts := rfl
@[simp] theorem State.modDarn_slices (s : State) (f : Darning → Darning) : (s.modDarn f).slices = s.slices := rfl
@[simp] theorem State.modDarn_stitch (s : State) (f : Darning → Darning) : (s.modDarn f).stitch = s.stitch := rfl
@[simp] theorem State.modDarn_host (s : State) (f : Darning → Darning) : (s.modDarn f).host = s.host := rfl
@[simp] theorem State.modDarn_flow (s : State) (f : Darning → Darning) : (s.modDarn f).flow = s.flow := rfl
@[simp] theorem State.modDarn_darn (s : State) (f : Darning → Darning) : (s.modDarn f).darn = f s.darn := rfl
@[simp] theorem State.modDarn_prot (s : State) (f : Darning → Darning) : (s.modDarn f).prot = s.prot := rfl
@[simp] theorem State.modDarn_tir (s : State) (f : Darning → Darning) : (s.modDarn f).tir = s.tir := rfl
@[simp] theorem State.modDarn_cip (s : State) (f : Darning → Darning) : (s.modDarn f).cip = s.cip := rfl
@[simp] theorem State.modDarn_gauge (s : State) (f : Darning → Darning) : (s.modDarn f).gauge = s.gauge := rfl
@[simp] theorem State.modDarn_upd (s : State) (f : Darning → Darning) : (s.modDarn f).upd = s.upd := rfl
@[simp] theorem State.modDarn_recorder (s : State) (f : Darning → Darning) : (s.modDarn f).recorder = s.recorder := rfl
@[simp] theorem State.modDarn_snag (s : State) (f : Darning → Darning) : (s.modDarn f).snag = s.snag := rfl
@[simp] theorem State.modDarn_dbg (s : State) (f : Darning → Darning) : (s.modDarn f).dbg = s.dbg := rfl
@[simp] theorem State.modDarn_sram (s : State) (f : Darning → Darning) : (s.modDarn f).sram = s.sram := rfl
@[simp] theorem State.modDarn_dram (s : State) (f : Darning → Darning) : (s.modDarn f).dram = s.dram := rfl
@[simp] theorem State.modDarn_pending (s : State) (f : Darning → Darning) : (s.modDarn f).pending = s.pending := rfl

@[simp] theorem State.modProt_regs (s : State) (f : Protection → Protection) : (s.modProt f).regs = s.regs := rfl
@[simp] theorem State.modProt_fuse (s : State) (f : Protection → Protection) : (s.modProt f).fuse = s.fuse := rfl
@[simp] theorem State.modProt_draws (s : State) (f : Protection → Protection) : (s.modProt f).draws = s.draws := rfl
@[simp] theorem State.modProt_row (s : State) (f : Protection → Protection) : (s.modProt f).row = s.row := rfl
@[simp] theorem State.modProt_pairs (s : State) (f : Protection → Protection) : (s.modProt f).pairs = s.pairs := rfl
@[simp] theorem State.modProt_cable (s : State) (f : Protection → Protection) : (s.modProt f).cable = s.cable := rfl
@[simp] theorem State.modProt_bus (s : State) (f : Protection → Protection) : (s.modProt f).bus = s.bus := rfl
@[simp] theorem State.modProt_pins (s : State) (f : Protection → Protection) : (s.modProt f).pins = s.pins := rfl
@[simp] theorem State.modProt_keeper (s : State) (f : Protection → Protection) : (s.modProt f).keeper = s.keeper := rfl
@[simp] theorem State.modProt_cast (s : State) (f : Protection → Protection) : (s.modProt f).cast = s.cast := rfl
@[simp] theorem State.modProt_pattern (s : State) (f : Protection → Protection) : (s.modProt f).pattern = s.pattern := rfl
@[simp] theorem State.modProt_spn (s : State) (f : Protection → Protection) : (s.modProt f).spn = s.spn := rfl
@[simp] theorem State.modProt_needles (s : State) (f : Protection → Protection) : (s.modProt f).needles = s.needles := rfl
@[simp] theorem State.modProt_acts (s : State) (f : Protection → Protection) : (s.modProt f).acts = s.acts := rfl
@[simp] theorem State.modProt_slices (s : State) (f : Protection → Protection) : (s.modProt f).slices = s.slices := rfl
@[simp] theorem State.modProt_stitch (s : State) (f : Protection → Protection) : (s.modProt f).stitch = s.stitch := rfl
@[simp] theorem State.modProt_host (s : State) (f : Protection → Protection) : (s.modProt f).host = s.host := rfl
@[simp] theorem State.modProt_flow (s : State) (f : Protection → Protection) : (s.modProt f).flow = s.flow := rfl
@[simp] theorem State.modProt_darn (s : State) (f : Protection → Protection) : (s.modProt f).darn = s.darn := rfl
@[simp] theorem State.modProt_prot (s : State) (f : Protection → Protection) : (s.modProt f).prot = f s.prot := rfl
@[simp] theorem State.modProt_tir (s : State) (f : Protection → Protection) : (s.modProt f).tir = s.tir := rfl
@[simp] theorem State.modProt_cip (s : State) (f : Protection → Protection) : (s.modProt f).cip = s.cip := rfl
@[simp] theorem State.modProt_gauge (s : State) (f : Protection → Protection) : (s.modProt f).gauge = s.gauge := rfl
@[simp] theorem State.modProt_upd (s : State) (f : Protection → Protection) : (s.modProt f).upd = s.upd := rfl
@[simp] theorem State.modProt_recorder (s : State) (f : Protection → Protection) : (s.modProt f).recorder = s.recorder := rfl
@[simp] theorem State.modProt_snag (s : State) (f : Protection → Protection) : (s.modProt f).snag = s.snag := rfl
@[simp] theorem State.modProt_dbg (s : State) (f : Protection → Protection) : (s.modProt f).dbg = s.dbg := rfl
@[simp] theorem State.modProt_sram (s : State) (f : Protection → Protection) : (s.modProt f).sram = s.sram := rfl
@[simp] theorem State.modProt_dram (s : State) (f : Protection → Protection) : (s.modProt f).dram = s.dram := rfl
@[simp] theorem State.modProt_pending (s : State) (f : Protection → Protection) : (s.modProt f).pending = s.pending := rfl

@[simp] theorem State.modTir_regs (s : State) (f : Tirium → Tirium) : (s.modTir f).regs = s.regs := rfl
@[simp] theorem State.modTir_fuse (s : State) (f : Tirium → Tirium) : (s.modTir f).fuse = s.fuse := rfl
@[simp] theorem State.modTir_draws (s : State) (f : Tirium → Tirium) : (s.modTir f).draws = s.draws := rfl
@[simp] theorem State.modTir_row (s : State) (f : Tirium → Tirium) : (s.modTir f).row = s.row := rfl
@[simp] theorem State.modTir_pairs (s : State) (f : Tirium → Tirium) : (s.modTir f).pairs = s.pairs := rfl
@[simp] theorem State.modTir_cable (s : State) (f : Tirium → Tirium) : (s.modTir f).cable = s.cable := rfl
@[simp] theorem State.modTir_bus (s : State) (f : Tirium → Tirium) : (s.modTir f).bus = s.bus := rfl
@[simp] theorem State.modTir_pins (s : State) (f : Tirium → Tirium) : (s.modTir f).pins = s.pins := rfl
@[simp] theorem State.modTir_keeper (s : State) (f : Tirium → Tirium) : (s.modTir f).keeper = s.keeper := rfl
@[simp] theorem State.modTir_cast (s : State) (f : Tirium → Tirium) : (s.modTir f).cast = s.cast := rfl
@[simp] theorem State.modTir_pattern (s : State) (f : Tirium → Tirium) : (s.modTir f).pattern = s.pattern := rfl
@[simp] theorem State.modTir_spn (s : State) (f : Tirium → Tirium) : (s.modTir f).spn = s.spn := rfl
@[simp] theorem State.modTir_needles (s : State) (f : Tirium → Tirium) : (s.modTir f).needles = s.needles := rfl
@[simp] theorem State.modTir_acts (s : State) (f : Tirium → Tirium) : (s.modTir f).acts = s.acts := rfl
@[simp] theorem State.modTir_slices (s : State) (f : Tirium → Tirium) : (s.modTir f).slices = s.slices := rfl
@[simp] theorem State.modTir_stitch (s : State) (f : Tirium → Tirium) : (s.modTir f).stitch = s.stitch := rfl
@[simp] theorem State.modTir_host (s : State) (f : Tirium → Tirium) : (s.modTir f).host = s.host := rfl
@[simp] theorem State.modTir_flow (s : State) (f : Tirium → Tirium) : (s.modTir f).flow = s.flow := rfl
@[simp] theorem State.modTir_darn (s : State) (f : Tirium → Tirium) : (s.modTir f).darn = s.darn := rfl
@[simp] theorem State.modTir_prot (s : State) (f : Tirium → Tirium) : (s.modTir f).prot = s.prot := rfl
@[simp] theorem State.modTir_tir (s : State) (f : Tirium → Tirium) : (s.modTir f).tir = f s.tir := rfl
@[simp] theorem State.modTir_cip (s : State) (f : Tirium → Tirium) : (s.modTir f).cip = s.cip := rfl
@[simp] theorem State.modTir_gauge (s : State) (f : Tirium → Tirium) : (s.modTir f).gauge = s.gauge := rfl
@[simp] theorem State.modTir_upd (s : State) (f : Tirium → Tirium) : (s.modTir f).upd = s.upd := rfl
@[simp] theorem State.modTir_recorder (s : State) (f : Tirium → Tirium) : (s.modTir f).recorder = s.recorder := rfl
@[simp] theorem State.modTir_snag (s : State) (f : Tirium → Tirium) : (s.modTir f).snag = s.snag := rfl
@[simp] theorem State.modTir_dbg (s : State) (f : Tirium → Tirium) : (s.modTir f).dbg = s.dbg := rfl
@[simp] theorem State.modTir_sram (s : State) (f : Tirium → Tirium) : (s.modTir f).sram = s.sram := rfl
@[simp] theorem State.modTir_dram (s : State) (f : Tirium → Tirium) : (s.modTir f).dram = s.dram := rfl
@[simp] theorem State.modTir_pending (s : State) (f : Tirium → Tirium) : (s.modTir f).pending = s.pending := rfl

@[simp] theorem State.modCip_regs (s : State) (f : Cipher → Cipher) : (s.modCip f).regs = s.regs := rfl
@[simp] theorem State.modCip_fuse (s : State) (f : Cipher → Cipher) : (s.modCip f).fuse = s.fuse := rfl
@[simp] theorem State.modCip_draws (s : State) (f : Cipher → Cipher) : (s.modCip f).draws = s.draws := rfl
@[simp] theorem State.modCip_row (s : State) (f : Cipher → Cipher) : (s.modCip f).row = s.row := rfl
@[simp] theorem State.modCip_pairs (s : State) (f : Cipher → Cipher) : (s.modCip f).pairs = s.pairs := rfl
@[simp] theorem State.modCip_cable (s : State) (f : Cipher → Cipher) : (s.modCip f).cable = s.cable := rfl
@[simp] theorem State.modCip_bus (s : State) (f : Cipher → Cipher) : (s.modCip f).bus = s.bus := rfl
@[simp] theorem State.modCip_pins (s : State) (f : Cipher → Cipher) : (s.modCip f).pins = s.pins := rfl
@[simp] theorem State.modCip_keeper (s : State) (f : Cipher → Cipher) : (s.modCip f).keeper = s.keeper := rfl
@[simp] theorem State.modCip_cast (s : State) (f : Cipher → Cipher) : (s.modCip f).cast = s.cast := rfl
@[simp] theorem State.modCip_pattern (s : State) (f : Cipher → Cipher) : (s.modCip f).pattern = s.pattern := rfl
@[simp] theorem State.modCip_spn (s : State) (f : Cipher → Cipher) : (s.modCip f).spn = s.spn := rfl
@[simp] theorem State.modCip_needles (s : State) (f : Cipher → Cipher) : (s.modCip f).needles = s.needles := rfl
@[simp] theorem State.modCip_acts (s : State) (f : Cipher → Cipher) : (s.modCip f).acts = s.acts := rfl
@[simp] theorem State.modCip_slices (s : State) (f : Cipher → Cipher) : (s.modCip f).slices = s.slices := rfl
@[simp] theorem State.modCip_stitch (s : State) (f : Cipher → Cipher) : (s.modCip f).stitch = s.stitch := rfl
@[simp] theorem State.modCip_host (s : State) (f : Cipher → Cipher) : (s.modCip f).host = s.host := rfl
@[simp] theorem State.modCip_flow (s : State) (f : Cipher → Cipher) : (s.modCip f).flow = s.flow := rfl
@[simp] theorem State.modCip_darn (s : State) (f : Cipher → Cipher) : (s.modCip f).darn = s.darn := rfl
@[simp] theorem State.modCip_prot (s : State) (f : Cipher → Cipher) : (s.modCip f).prot = s.prot := rfl
@[simp] theorem State.modCip_tir (s : State) (f : Cipher → Cipher) : (s.modCip f).tir = s.tir := rfl
@[simp] theorem State.modCip_cip (s : State) (f : Cipher → Cipher) : (s.modCip f).cip = f s.cip := rfl
@[simp] theorem State.modCip_gauge (s : State) (f : Cipher → Cipher) : (s.modCip f).gauge = s.gauge := rfl
@[simp] theorem State.modCip_upd (s : State) (f : Cipher → Cipher) : (s.modCip f).upd = s.upd := rfl
@[simp] theorem State.modCip_recorder (s : State) (f : Cipher → Cipher) : (s.modCip f).recorder = s.recorder := rfl
@[simp] theorem State.modCip_snag (s : State) (f : Cipher → Cipher) : (s.modCip f).snag = s.snag := rfl
@[simp] theorem State.modCip_dbg (s : State) (f : Cipher → Cipher) : (s.modCip f).dbg = s.dbg := rfl
@[simp] theorem State.modCip_sram (s : State) (f : Cipher → Cipher) : (s.modCip f).sram = s.sram := rfl
@[simp] theorem State.modCip_dram (s : State) (f : Cipher → Cipher) : (s.modCip f).dram = s.dram := rfl
@[simp] theorem State.modCip_pending (s : State) (f : Cipher → Cipher) : (s.modCip f).pending = s.pending := rfl

@[simp] theorem State.modGauge_regs (s : State) (f : Gauge → Gauge) : (s.modGauge f).regs = s.regs := rfl
@[simp] theorem State.modGauge_fuse (s : State) (f : Gauge → Gauge) : (s.modGauge f).fuse = s.fuse := rfl
@[simp] theorem State.modGauge_draws (s : State) (f : Gauge → Gauge) : (s.modGauge f).draws = s.draws := rfl
@[simp] theorem State.modGauge_row (s : State) (f : Gauge → Gauge) : (s.modGauge f).row = s.row := rfl
@[simp] theorem State.modGauge_pairs (s : State) (f : Gauge → Gauge) : (s.modGauge f).pairs = s.pairs := rfl
@[simp] theorem State.modGauge_cable (s : State) (f : Gauge → Gauge) : (s.modGauge f).cable = s.cable := rfl
@[simp] theorem State.modGauge_bus (s : State) (f : Gauge → Gauge) : (s.modGauge f).bus = s.bus := rfl
@[simp] theorem State.modGauge_pins (s : State) (f : Gauge → Gauge) : (s.modGauge f).pins = s.pins := rfl
@[simp] theorem State.modGauge_keeper (s : State) (f : Gauge → Gauge) : (s.modGauge f).keeper = s.keeper := rfl
@[simp] theorem State.modGauge_cast (s : State) (f : Gauge → Gauge) : (s.modGauge f).cast = s.cast := rfl
@[simp] theorem State.modGauge_pattern (s : State) (f : Gauge → Gauge) : (s.modGauge f).pattern = s.pattern := rfl
@[simp] theorem State.modGauge_spn (s : State) (f : Gauge → Gauge) : (s.modGauge f).spn = s.spn := rfl
@[simp] theorem State.modGauge_needles (s : State) (f : Gauge → Gauge) : (s.modGauge f).needles = s.needles := rfl
@[simp] theorem State.modGauge_acts (s : State) (f : Gauge → Gauge) : (s.modGauge f).acts = s.acts := rfl
@[simp] theorem State.modGauge_slices (s : State) (f : Gauge → Gauge) : (s.modGauge f).slices = s.slices := rfl
@[simp] theorem State.modGauge_stitch (s : State) (f : Gauge → Gauge) : (s.modGauge f).stitch = s.stitch := rfl
@[simp] theorem State.modGauge_host (s : State) (f : Gauge → Gauge) : (s.modGauge f).host = s.host := rfl
@[simp] theorem State.modGauge_flow (s : State) (f : Gauge → Gauge) : (s.modGauge f).flow = s.flow := rfl
@[simp] theorem State.modGauge_darn (s : State) (f : Gauge → Gauge) : (s.modGauge f).darn = s.darn := rfl
@[simp] theorem State.modGauge_prot (s : State) (f : Gauge → Gauge) : (s.modGauge f).prot = s.prot := rfl
@[simp] theorem State.modGauge_tir (s : State) (f : Gauge → Gauge) : (s.modGauge f).tir = s.tir := rfl
@[simp] theorem State.modGauge_cip (s : State) (f : Gauge → Gauge) : (s.modGauge f).cip = s.cip := rfl
@[simp] theorem State.modGauge_gauge (s : State) (f : Gauge → Gauge) : (s.modGauge f).gauge = f s.gauge := rfl
@[simp] theorem State.modGauge_upd (s : State) (f : Gauge → Gauge) : (s.modGauge f).upd = s.upd := rfl
@[simp] theorem State.modGauge_recorder (s : State) (f : Gauge → Gauge) : (s.modGauge f).recorder = s.recorder := rfl
@[simp] theorem State.modGauge_snag (s : State) (f : Gauge → Gauge) : (s.modGauge f).snag = s.snag := rfl
@[simp] theorem State.modGauge_dbg (s : State) (f : Gauge → Gauge) : (s.modGauge f).dbg = s.dbg := rfl
@[simp] theorem State.modGauge_sram (s : State) (f : Gauge → Gauge) : (s.modGauge f).sram = s.sram := rfl
@[simp] theorem State.modGauge_dram (s : State) (f : Gauge → Gauge) : (s.modGauge f).dram = s.dram := rfl
@[simp] theorem State.modGauge_pending (s : State) (f : Gauge → Gauge) : (s.modGauge f).pending = s.pending := rfl

@[simp] theorem State.modUpd_regs (s : State) (f : Update → Update) : (s.modUpd f).regs = s.regs := rfl
@[simp] theorem State.modUpd_fuse (s : State) (f : Update → Update) : (s.modUpd f).fuse = s.fuse := rfl
@[simp] theorem State.modUpd_draws (s : State) (f : Update → Update) : (s.modUpd f).draws = s.draws := rfl
@[simp] theorem State.modUpd_row (s : State) (f : Update → Update) : (s.modUpd f).row = s.row := rfl
@[simp] theorem State.modUpd_pairs (s : State) (f : Update → Update) : (s.modUpd f).pairs = s.pairs := rfl
@[simp] theorem State.modUpd_cable (s : State) (f : Update → Update) : (s.modUpd f).cable = s.cable := rfl
@[simp] theorem State.modUpd_bus (s : State) (f : Update → Update) : (s.modUpd f).bus = s.bus := rfl
@[simp] theorem State.modUpd_pins (s : State) (f : Update → Update) : (s.modUpd f).pins = s.pins := rfl
@[simp] theorem State.modUpd_keeper (s : State) (f : Update → Update) : (s.modUpd f).keeper = s.keeper := rfl
@[simp] theorem State.modUpd_cast (s : State) (f : Update → Update) : (s.modUpd f).cast = s.cast := rfl
@[simp] theorem State.modUpd_pattern (s : State) (f : Update → Update) : (s.modUpd f).pattern = s.pattern := rfl
@[simp] theorem State.modUpd_spn (s : State) (f : Update → Update) : (s.modUpd f).spn = s.spn := rfl
@[simp] theorem State.modUpd_needles (s : State) (f : Update → Update) : (s.modUpd f).needles = s.needles := rfl
@[simp] theorem State.modUpd_acts (s : State) (f : Update → Update) : (s.modUpd f).acts = s.acts := rfl
@[simp] theorem State.modUpd_slices (s : State) (f : Update → Update) : (s.modUpd f).slices = s.slices := rfl
@[simp] theorem State.modUpd_stitch (s : State) (f : Update → Update) : (s.modUpd f).stitch = s.stitch := rfl
@[simp] theorem State.modUpd_host (s : State) (f : Update → Update) : (s.modUpd f).host = s.host := rfl
@[simp] theorem State.modUpd_flow (s : State) (f : Update → Update) : (s.modUpd f).flow = s.flow := rfl
@[simp] theorem State.modUpd_darn (s : State) (f : Update → Update) : (s.modUpd f).darn = s.darn := rfl
@[simp] theorem State.modUpd_prot (s : State) (f : Update → Update) : (s.modUpd f).prot = s.prot := rfl
@[simp] theorem State.modUpd_tir (s : State) (f : Update → Update) : (s.modUpd f).tir = s.tir := rfl
@[simp] theorem State.modUpd_cip (s : State) (f : Update → Update) : (s.modUpd f).cip = s.cip := rfl
@[simp] theorem State.modUpd_gauge (s : State) (f : Update → Update) : (s.modUpd f).gauge = s.gauge := rfl
@[simp] theorem State.modUpd_upd (s : State) (f : Update → Update) : (s.modUpd f).upd = f s.upd := rfl
@[simp] theorem State.modUpd_recorder (s : State) (f : Update → Update) : (s.modUpd f).recorder = s.recorder := rfl
@[simp] theorem State.modUpd_snag (s : State) (f : Update → Update) : (s.modUpd f).snag = s.snag := rfl
@[simp] theorem State.modUpd_dbg (s : State) (f : Update → Update) : (s.modUpd f).dbg = s.dbg := rfl
@[simp] theorem State.modUpd_sram (s : State) (f : Update → Update) : (s.modUpd f).sram = s.sram := rfl
@[simp] theorem State.modUpd_dram (s : State) (f : Update → Update) : (s.modUpd f).dram = s.dram := rfl
@[simp] theorem State.modUpd_pending (s : State) (f : Update → Update) : (s.modUpd f).pending = s.pending := rfl

@[simp] theorem State.modRec_regs (s : State) (f : Recorder → Recorder) : (s.modRec f).regs = s.regs := rfl
@[simp] theorem State.modRec_fuse (s : State) (f : Recorder → Recorder) : (s.modRec f).fuse = s.fuse := rfl
@[simp] theorem State.modRec_draws (s : State) (f : Recorder → Recorder) : (s.modRec f).draws = s.draws := rfl
@[simp] theorem State.modRec_row (s : State) (f : Recorder → Recorder) : (s.modRec f).row = s.row := rfl
@[simp] theorem State.modRec_pairs (s : State) (f : Recorder → Recorder) : (s.modRec f).pairs = s.pairs := rfl
@[simp] theorem State.modRec_cable (s : State) (f : Recorder → Recorder) : (s.modRec f).cable = s.cable := rfl
@[simp] theorem State.modRec_bus (s : State) (f : Recorder → Recorder) : (s.modRec f).bus = s.bus := rfl
@[simp] theorem State.modRec_pins (s : State) (f : Recorder → Recorder) : (s.modRec f).pins = s.pins := rfl
@[simp] theorem State.modRec_keeper (s : State) (f : Recorder → Recorder) : (s.modRec f).keeper = s.keeper := rfl
@[simp] theorem State.modRec_cast (s : State) (f : Recorder → Recorder) : (s.modRec f).cast = s.cast := rfl
@[simp] theorem State.modRec_pattern (s : State) (f : Recorder → Recorder) : (s.modRec f).pattern = s.pattern := rfl
@[simp] theorem State.modRec_spn (s : State) (f : Recorder → Recorder) : (s.modRec f).spn = s.spn := rfl
@[simp] theorem State.modRec_needles (s : State) (f : Recorder → Recorder) : (s.modRec f).needles = s.needles := rfl
@[simp] theorem State.modRec_acts (s : State) (f : Recorder → Recorder) : (s.modRec f).acts = s.acts := rfl
@[simp] theorem State.modRec_slices (s : State) (f : Recorder → Recorder) : (s.modRec f).slices = s.slices := rfl
@[simp] theorem State.modRec_stitch (s : State) (f : Recorder → Recorder) : (s.modRec f).stitch = s.stitch := rfl
@[simp] theorem State.modRec_host (s : State) (f : Recorder → Recorder) : (s.modRec f).host = s.host := rfl
@[simp] theorem State.modRec_flow (s : State) (f : Recorder → Recorder) : (s.modRec f).flow = s.flow := rfl
@[simp] theorem State.modRec_darn (s : State) (f : Recorder → Recorder) : (s.modRec f).darn = s.darn := rfl
@[simp] theorem State.modRec_prot (s : State) (f : Recorder → Recorder) : (s.modRec f).prot = s.prot := rfl
@[simp] theorem State.modRec_tir (s : State) (f : Recorder → Recorder) : (s.modRec f).tir = s.tir := rfl
@[simp] theorem State.modRec_cip (s : State) (f : Recorder → Recorder) : (s.modRec f).cip = s.cip := rfl
@[simp] theorem State.modRec_gauge (s : State) (f : Recorder → Recorder) : (s.modRec f).gauge = s.gauge := rfl
@[simp] theorem State.modRec_upd (s : State) (f : Recorder → Recorder) : (s.modRec f).upd = s.upd := rfl
@[simp] theorem State.modRec_recorder (s : State) (f : Recorder → Recorder) : (s.modRec f).recorder = f s.recorder := rfl
@[simp] theorem State.modRec_snag (s : State) (f : Recorder → Recorder) : (s.modRec f).snag = s.snag := rfl
@[simp] theorem State.modRec_dbg (s : State) (f : Recorder → Recorder) : (s.modRec f).dbg = s.dbg := rfl
@[simp] theorem State.modRec_sram (s : State) (f : Recorder → Recorder) : (s.modRec f).sram = s.sram := rfl
@[simp] theorem State.modRec_dram (s : State) (f : Recorder → Recorder) : (s.modRec f).dram = s.dram := rfl
@[simp] theorem State.modRec_pending (s : State) (f : Recorder → Recorder) : (s.modRec f).pending = s.pending := rfl

@[simp] theorem State.modSnag_regs (s : State) (f : Snag → Snag) : (s.modSnag f).regs = s.regs := rfl
@[simp] theorem State.modSnag_fuse (s : State) (f : Snag → Snag) : (s.modSnag f).fuse = s.fuse := rfl
@[simp] theorem State.modSnag_draws (s : State) (f : Snag → Snag) : (s.modSnag f).draws = s.draws := rfl
@[simp] theorem State.modSnag_row (s : State) (f : Snag → Snag) : (s.modSnag f).row = s.row := rfl
@[simp] theorem State.modSnag_pairs (s : State) (f : Snag → Snag) : (s.modSnag f).pairs = s.pairs := rfl
@[simp] theorem State.modSnag_cable (s : State) (f : Snag → Snag) : (s.modSnag f).cable = s.cable := rfl
@[simp] theorem State.modSnag_bus (s : State) (f : Snag → Snag) : (s.modSnag f).bus = s.bus := rfl
@[simp] theorem State.modSnag_pins (s : State) (f : Snag → Snag) : (s.modSnag f).pins = s.pins := rfl
@[simp] theorem State.modSnag_keeper (s : State) (f : Snag → Snag) : (s.modSnag f).keeper = s.keeper := rfl
@[simp] theorem State.modSnag_cast (s : State) (f : Snag → Snag) : (s.modSnag f).cast = s.cast := rfl
@[simp] theorem State.modSnag_pattern (s : State) (f : Snag → Snag) : (s.modSnag f).pattern = s.pattern := rfl
@[simp] theorem State.modSnag_spn (s : State) (f : Snag → Snag) : (s.modSnag f).spn = s.spn := rfl
@[simp] theorem State.modSnag_needles (s : State) (f : Snag → Snag) : (s.modSnag f).needles = s.needles := rfl
@[simp] theorem State.modSnag_acts (s : State) (f : Snag → Snag) : (s.modSnag f).acts = s.acts := rfl
@[simp] theorem State.modSnag_slices (s : State) (f : Snag → Snag) : (s.modSnag f).slices = s.slices := rfl
@[simp] theorem State.modSnag_stitch (s : State) (f : Snag → Snag) : (s.modSnag f).stitch = s.stitch := rfl
@[simp] theorem State.modSnag_host (s : State) (f : Snag → Snag) : (s.modSnag f).host = s.host := rfl
@[simp] theorem State.modSnag_flow (s : State) (f : Snag → Snag) : (s.modSnag f).flow = s.flow := rfl
@[simp] theorem State.modSnag_darn (s : State) (f : Snag → Snag) : (s.modSnag f).darn = s.darn := rfl
@[simp] theorem State.modSnag_prot (s : State) (f : Snag → Snag) : (s.modSnag f).prot = s.prot := rfl
@[simp] theorem State.modSnag_tir (s : State) (f : Snag → Snag) : (s.modSnag f).tir = s.tir := rfl
@[simp] theorem State.modSnag_cip (s : State) (f : Snag → Snag) : (s.modSnag f).cip = s.cip := rfl
@[simp] theorem State.modSnag_gauge (s : State) (f : Snag → Snag) : (s.modSnag f).gauge = s.gauge := rfl
@[simp] theorem State.modSnag_upd (s : State) (f : Snag → Snag) : (s.modSnag f).upd = s.upd := rfl
@[simp] theorem State.modSnag_recorder (s : State) (f : Snag → Snag) : (s.modSnag f).recorder = s.recorder := rfl
@[simp] theorem State.modSnag_snag (s : State) (f : Snag → Snag) : (s.modSnag f).snag = f s.snag := rfl
@[simp] theorem State.modSnag_dbg (s : State) (f : Snag → Snag) : (s.modSnag f).dbg = s.dbg := rfl
@[simp] theorem State.modSnag_sram (s : State) (f : Snag → Snag) : (s.modSnag f).sram = s.sram := rfl
@[simp] theorem State.modSnag_dram (s : State) (f : Snag → Snag) : (s.modSnag f).dram = s.dram := rfl
@[simp] theorem State.modSnag_pending (s : State) (f : Snag → Snag) : (s.modSnag f).pending = s.pending := rfl

@[simp] theorem State.modDbg_regs (s : State) (f : Debug → Debug) : (s.modDbg f).regs = s.regs := rfl
@[simp] theorem State.modDbg_fuse (s : State) (f : Debug → Debug) : (s.modDbg f).fuse = s.fuse := rfl
@[simp] theorem State.modDbg_draws (s : State) (f : Debug → Debug) : (s.modDbg f).draws = s.draws := rfl
@[simp] theorem State.modDbg_row (s : State) (f : Debug → Debug) : (s.modDbg f).row = s.row := rfl
@[simp] theorem State.modDbg_pairs (s : State) (f : Debug → Debug) : (s.modDbg f).pairs = s.pairs := rfl
@[simp] theorem State.modDbg_cable (s : State) (f : Debug → Debug) : (s.modDbg f).cable = s.cable := rfl
@[simp] theorem State.modDbg_bus (s : State) (f : Debug → Debug) : (s.modDbg f).bus = s.bus := rfl
@[simp] theorem State.modDbg_pins (s : State) (f : Debug → Debug) : (s.modDbg f).pins = s.pins := rfl
@[simp] theorem State.modDbg_keeper (s : State) (f : Debug → Debug) : (s.modDbg f).keeper = s.keeper := rfl
@[simp] theorem State.modDbg_cast (s : State) (f : Debug → Debug) : (s.modDbg f).cast = s.cast := rfl
@[simp] theorem State.modDbg_pattern (s : State) (f : Debug → Debug) : (s.modDbg f).pattern = s.pattern := rfl
@[simp] theorem State.modDbg_spn (s : State) (f : Debug → Debug) : (s.modDbg f).spn = s.spn := rfl
@[simp] theorem State.modDbg_needles (s : State) (f : Debug → Debug) : (s.modDbg f).needles = s.needles := rfl
@[simp] theorem State.modDbg_acts (s : State) (f : Debug → Debug) : (s.modDbg f).acts = s.acts := rfl
@[simp] theorem State.modDbg_slices (s : State) (f : Debug → Debug) : (s.modDbg f).slices = s.slices := rfl
@[simp] theorem State.modDbg_stitch (s : State) (f : Debug → Debug) : (s.modDbg f).stitch = s.stitch := rfl
@[simp] theorem State.modDbg_host (s : State) (f : Debug → Debug) : (s.modDbg f).host = s.host := rfl
@[simp] theorem State.modDbg_flow (s : State) (f : Debug → Debug) : (s.modDbg f).flow = s.flow := rfl
@[simp] theorem State.modDbg_darn (s : State) (f : Debug → Debug) : (s.modDbg f).darn = s.darn := rfl
@[simp] theorem State.modDbg_prot (s : State) (f : Debug → Debug) : (s.modDbg f).prot = s.prot := rfl
@[simp] theorem State.modDbg_tir (s : State) (f : Debug → Debug) : (s.modDbg f).tir = s.tir := rfl
@[simp] theorem State.modDbg_cip (s : State) (f : Debug → Debug) : (s.modDbg f).cip = s.cip := rfl
@[simp] theorem State.modDbg_gauge (s : State) (f : Debug → Debug) : (s.modDbg f).gauge = s.gauge := rfl
@[simp] theorem State.modDbg_upd (s : State) (f : Debug → Debug) : (s.modDbg f).upd = s.upd := rfl
@[simp] theorem State.modDbg_recorder (s : State) (f : Debug → Debug) : (s.modDbg f).recorder = s.recorder := rfl
@[simp] theorem State.modDbg_snag (s : State) (f : Debug → Debug) : (s.modDbg f).snag = s.snag := rfl
@[simp] theorem State.modDbg_dbg (s : State) (f : Debug → Debug) : (s.modDbg f).dbg = f s.dbg := rfl
@[simp] theorem State.modDbg_sram (s : State) (f : Debug → Debug) : (s.modDbg f).sram = s.sram := rfl
@[simp] theorem State.modDbg_dram (s : State) (f : Debug → Debug) : (s.modDbg f).dram = s.dram := rfl
@[simp] theorem State.modDbg_pending (s : State) (f : Debug → Debug) : (s.modDbg f).pending = s.pending := rfl

@[simp] theorem State.setReg_regs (s : State) (a : Nat) (w : Word) : (s.setReg a w).regs = regStore a w s.regs := rfl
@[simp] theorem State.setReg_fuse (s : State) (a : Nat) (w : Word) : (s.setReg a w).fuse = s.fuse := rfl
@[simp] theorem State.setReg_draws (s : State) (a : Nat) (w : Word) : (s.setReg a w).draws = s.draws := rfl
@[simp] theorem State.setReg_row (s : State) (a : Nat) (w : Word) : (s.setReg a w).row = s.row := rfl
@[simp] theorem State.setReg_pairs (s : State) (a : Nat) (w : Word) : (s.setReg a w).pairs = s.pairs := rfl
@[simp] theorem State.setReg_cable (s : State) (a : Nat) (w : Word) : (s.setReg a w).cable = s.cable := rfl
@[simp] theorem State.setReg_bus (s : State) (a : Nat) (w : Word) : (s.setReg a w).bus = s.bus := rfl
@[simp] theorem State.setReg_pins (s : State) (a : Nat) (w : Word) : (s.setReg a w).pins = s.pins := rfl
@[simp] theorem State.setReg_keeper (s : State) (a : Nat) (w : Word) : (s.setReg a w).keeper = s.keeper := rfl
@[simp] theorem State.setReg_cast (s : State) (a : Nat) (w : Word) : (s.setReg a w).cast = s.cast := rfl
@[simp] theorem State.setReg_pattern (s : State) (a : Nat) (w : Word) : (s.setReg a w).pattern = s.pattern := rfl
@[simp] theorem State.setReg_spn (s : State) (a : Nat) (w : Word) : (s.setReg a w).spn = s.spn := rfl
@[simp] theorem State.setReg_needles (s : State) (a : Nat) (w : Word) : (s.setReg a w).needles = s.needles := rfl
@[simp] theorem State.setReg_acts (s : State) (a : Nat) (w : Word) : (s.setReg a w).acts = s.acts := rfl
@[simp] theorem State.setReg_slices (s : State) (a : Nat) (w : Word) : (s.setReg a w).slices = s.slices := rfl
@[simp] theorem State.setReg_stitch (s : State) (a : Nat) (w : Word) : (s.setReg a w).stitch = s.stitch := rfl
@[simp] theorem State.setReg_host (s : State) (a : Nat) (w : Word) : (s.setReg a w).host = s.host := rfl
@[simp] theorem State.setReg_flow (s : State) (a : Nat) (w : Word) : (s.setReg a w).flow = s.flow := rfl
@[simp] theorem State.setReg_darn (s : State) (a : Nat) (w : Word) : (s.setReg a w).darn = s.darn := rfl
@[simp] theorem State.setReg_prot (s : State) (a : Nat) (w : Word) : (s.setReg a w).prot = s.prot := rfl
@[simp] theorem State.setReg_tir (s : State) (a : Nat) (w : Word) : (s.setReg a w).tir = s.tir := rfl
@[simp] theorem State.setReg_cip (s : State) (a : Nat) (w : Word) : (s.setReg a w).cip = s.cip := rfl
@[simp] theorem State.setReg_gauge (s : State) (a : Nat) (w : Word) : (s.setReg a w).gauge = s.gauge := rfl
@[simp] theorem State.setReg_upd (s : State) (a : Nat) (w : Word) : (s.setReg a w).upd = s.upd := rfl
@[simp] theorem State.setReg_recorder (s : State) (a : Nat) (w : Word) : (s.setReg a w).recorder = s.recorder := rfl
@[simp] theorem State.setReg_snag (s : State) (a : Nat) (w : Word) : (s.setReg a w).snag = s.snag := rfl
@[simp] theorem State.setReg_dbg (s : State) (a : Nat) (w : Word) : (s.setReg a w).dbg = s.dbg := rfl
@[simp] theorem State.setReg_sram (s : State) (a : Nat) (w : Word) : (s.setReg a w).sram = s.sram := rfl
@[simp] theorem State.setReg_dram (s : State) (a : Nat) (w : Word) : (s.setReg a w).dram = s.dram := rfl
@[simp] theorem State.setReg_pending (s : State) (a : Nat) (w : Word) : (s.setReg a w).pending = s.pending := rfl

@[simp] theorem State.store_regs (s : State) (sp : Space) (a : Nat) (l : List Byte) : (s.store sp a l).regs = s.regs := by cases sp <;> rfl
@[simp] theorem State.store_fuse (s : State) (sp : Space) (a : Nat) (l : List Byte) : (s.store sp a l).fuse = s.fuse := by cases sp <;> rfl
@[simp] theorem State.store_draws (s : State) (sp : Space) (a : Nat) (l : List Byte) : (s.store sp a l).draws = s.draws := by cases sp <;> rfl
@[simp] theorem State.store_row (s : State) (sp : Space) (a : Nat) (l : List Byte) : (s.store sp a l).row = s.row := by cases sp <;> rfl
@[simp] theorem State.store_pairs (s : State) (sp : Space) (a : Nat) (l : List Byte) : (s.store sp a l).pairs = s.pairs := by cases sp <;> rfl
@[simp] theorem State.store_cable (s : State) (sp : Space) (a : Nat) (l : List Byte) : (s.store sp a l).cable = s.cable := by cases sp <;> rfl
@[simp] theorem State.store_bus (s : State) (sp : Space) (a : Nat) (l : List Byte) : (s.store sp a l).bus = s.bus := by cases sp <;> rfl
@[simp] theorem State.store_pins (s : State) (sp : Space) (a : Nat) (l : List Byte) : (s.store sp a l).pins = s.pins := by cases sp <;> rfl
@[simp] theorem State.store_keeper (s : State) (sp : Space) (a : Nat) (l : List Byte) : (s.store sp a l).keeper = s.keeper := by cases sp <;> rfl
@[simp] theorem State.store_cast (s : State) (sp : Space) (a : Nat) (l : List Byte) : (s.store sp a l).cast = s.cast := by cases sp <;> rfl
@[simp] theorem State.store_pattern (s : State) (sp : Space) (a : Nat) (l : List Byte) : (s.store sp a l).pattern = s.pattern := by cases sp <;> rfl
@[simp] theorem State.store_spn (s : State) (sp : Space) (a : Nat) (l : List Byte) : (s.store sp a l).spn = s.spn := by cases sp <;> rfl
@[simp] theorem State.store_needles (s : State) (sp : Space) (a : Nat) (l : List Byte) : (s.store sp a l).needles = s.needles := by cases sp <;> rfl
@[simp] theorem State.store_acts (s : State) (sp : Space) (a : Nat) (l : List Byte) : (s.store sp a l).acts = s.acts := by cases sp <;> rfl
@[simp] theorem State.store_slices (s : State) (sp : Space) (a : Nat) (l : List Byte) : (s.store sp a l).slices = s.slices := by cases sp <;> rfl
@[simp] theorem State.store_stitch (s : State) (sp : Space) (a : Nat) (l : List Byte) : (s.store sp a l).stitch = s.stitch := by cases sp <;> rfl
@[simp] theorem State.store_host (s : State) (sp : Space) (a : Nat) (l : List Byte) : (s.store sp a l).host = s.host := by cases sp <;> rfl
@[simp] theorem State.store_flow (s : State) (sp : Space) (a : Nat) (l : List Byte) : (s.store sp a l).flow = s.flow := by cases sp <;> rfl
@[simp] theorem State.store_darn (s : State) (sp : Space) (a : Nat) (l : List Byte) : (s.store sp a l).darn = s.darn := by cases sp <;> rfl
@[simp] theorem State.store_tir (s : State) (sp : Space) (a : Nat) (l : List Byte) : (s.store sp a l).tir = s.tir := by cases sp <;> rfl
@[simp] theorem State.store_cip (s : State) (sp : Space) (a : Nat) (l : List Byte) : (s.store sp a l).cip = s.cip := by cases sp <;> rfl
@[simp] theorem State.store_gauge (s : State) (sp : Space) (a : Nat) (l : List Byte) : (s.store sp a l).gauge = s.gauge := by cases sp <;> rfl
@[simp] theorem State.store_upd (s : State) (sp : Space) (a : Nat) (l : List Byte) : (s.store sp a l).upd = s.upd := by cases sp <;> rfl
@[simp] theorem State.store_recorder (s : State) (sp : Space) (a : Nat) (l : List Byte) : (s.store sp a l).recorder = s.recorder := by cases sp <;> rfl
@[simp] theorem State.store_snag (s : State) (sp : Space) (a : Nat) (l : List Byte) : (s.store sp a l).snag = s.snag := by cases sp <;> rfl
@[simp] theorem State.store_dbg (s : State) (sp : Space) (a : Nat) (l : List Byte) : (s.store sp a l).dbg = s.dbg := by cases sp <;> rfl
@[simp] theorem State.store_pending (s : State) (sp : Space) (a : Nat) (l : List Byte) : (s.store sp a l).pending = s.pending := by cases sp <;> rfl

end Sys2Proof.Machine
end

