-- ==== Sys2Proof/Laws/Memory.lean ====
section
/-!
SUPPORT. Sys2Proof/Laws/Memory.lean: the lists keyed by numbers, the memories and the register file: what a read after a write
gives, that a write leaves every other place alone, and that every operation keeps the canonical form.
-/

set_option linter.all false
set_option Elab.async false

namespace Sys2Proof.Machine

/-! ### Lists keyed by their position -/

theorem updAt_getElem? {α : Type} (i j : Nat) (f : α → α) (l : List α) :
    (updAt i f l)[j]? = if i = j then l[j]?.map f else l[j]? := by
  induction l generalizing i j with
  | nil => simp [updAt]
  | cons x rest ih =>
    simp only [updAt]
    split
    · next h =>
      subst h
      cases j with
      | zero => simp
      | succ j => simp
    · next h =>
      cases j with
      | zero => simp [h]
      | succ j =>
        rw [List.getElem?_cons_succ, ih]
        by_cases hij : i = j + 1
        · simp [hij]
        · rw [if_neg (by omega), if_neg hij, List.getElem?_cons_succ]

@[simp] theorem updAt_length {α : Type} (i : Nat) (f : α → α) (l : List α) : (updAt i f l).length = l.length := by
  induction l generalizing i with
  | nil => simp [updAt]
  | cons x rest ih => simp only [updAt]; split <;> simp [ih]

theorem putAt_getD {α : Type} (i j : Nat) (v d : α) (l : List α) :
    (putAt i v l).getD j d = if i = j ∧ j < l.length then v else l.getD j d := by
  rw [putAt, List.getD_eq_getElem?_getD, List.getD_eq_getElem?_getD, updAt_getElem?]
  by_cases h : i = j
  · subst h
    by_cases hl : i < l.length
    · simp [hl]
    · simp [hl]
  · simp [h]

/-! ### Lists keyed by numbers -/

/-- Keys strictly rising. -/
def keysRise {α : Type} (l : List (Nat × α)) : Prop := l.Pairwise fun a b => a.1 < b.1

theorem mem_kput {α : Type} {k : Nat} {v : α} {l : List (Nat × α)} {e : Nat × α} (h : e ∈ kput k v l) : e = (k, v) ∨ e ∈ l := by
  induction l with
  | nil => simpa [kput] using h
  | cons x rest ih =>
    obtain ⟨j, w⟩ := x
    simp only [kput] at h
    split at h
    · simpa using h
    · split at h
      · rcases List.mem_cons.1 h with h | h
        · exact .inl h
        · exact .inr (List.mem_cons_of_mem _ h)
      · rcases List.mem_cons.1 h with h | h
        · exact .inr (h ▸ List.mem_cons_self)
        · exact (ih h).imp id (List.mem_cons_of_mem _)

theorem keysRise_kput {α : Type} (k : Nat) (v : α) {l : List (Nat × α)} (h : keysRise l) : keysRise (kput k v l) := by
  induction l with
  | nil => simp [kput, keysRise]
  | cons x rest ih =>
    obtain ⟨j, w⟩ := x
    obtain ⟨hx, hr⟩ := List.pairwise_cons.1 h
    simp only [kput]
    split
    · next hk =>
      refine List.pairwise_cons.2 ⟨fun e he => ?_, h⟩
      rcases List.mem_cons.1 he with rfl | he
      · exact hk
      · exact Nat.lt_trans hk (hx e he)
    · split
      · next hk => subst hk; exact List.pairwise_cons.2 ⟨hx, hr⟩
      · next h₁ h₂ =>
        refine List.pairwise_cons.2 ⟨fun e he => ?_, ih hr⟩
        rcases mem_kput he with rfl | he
        · exact Nat.lt_of_le_of_ne (Nat.le_of_not_lt h₁) (Ne.symm h₂)
        · exact hx e he

theorem keysRise_filter {α : Type} (p : Nat × α → Bool) {l : List (Nat × α)} (h : keysRise l) : keysRise (l.filter p) :=
  List.Pairwise.filter p h

@[simp] theorem kget_kput_same {α : Type} (k : Nat) (v : α) (l : List (Nat × α)) : kget k (kput k v l) = some v := by
  induction l with
  | nil => simp [kput, kget]
  | cons x rest ih =>
    obtain ⟨j, w⟩ := x
    simp only [kput]
    split
    · simp [kget]
    · split
      · simp [kget]
      · next h => simp [kget, Ne.symm h, ih]

theorem kget_kput_ne {α : Type} {k m : Nat} (h : m ≠ k) (v : α) (l : List (Nat × α)) : kget m (kput k v l) = kget m l := by
  induction l with
  | nil => simp [kput, kget, Ne.symm h]
  | cons x rest ih =>
    obtain ⟨j, w⟩ := x
    simp only [kput]
    split
    · simp [kget, Ne.symm h]
    · split
      · next hk => subst hk; simp [kget, Ne.symm h]
      · simp [kget, ih]

@[simp] theorem kget_kdel_same {α : Type} (k : Nat) (l : List (Nat × α)) : kget k (kdel k l) = none := by
  induction l with
  | nil => rfl
  | cons x rest ih =>
    obtain ⟨j, w⟩ := x
    unfold kdel at ih ⊢
    rw [List.filter_cons]
    by_cases hj : j = k
    · simpa [hj] using ih
    · simpa [kget, hj] using ih

theorem kget_kdel_ne {α : Type} {k m : Nat} (h : m ≠ k) (l : List (Nat × α)) : kget m (kdel k l) = kget m l := by
  induction l with
  | nil => rfl
  | cons x rest ih =>
    obtain ⟨j, w⟩ := x
    unfold kdel at ih ⊢
    rw [List.filter_cons]
    by_cases hj : j = k
    · simpa [hj, kget, Ne.symm h] using ih
    · simp [kget, hj, ih]

/-! ### The register file -/

theorem regsWf_iff (l : List (Nat × Word)) :
    regsWf l = true ↔ (∀ e ∈ l, e.2 ≠ BitVec.ofNat 32 (resetValue e.1)) ∧ keysRise l := by
  induction l with
  | nil => simp [regsWf, keysRise]
  | cons e rest ih =>
    cases rest with
    | nil => simp [regsWf, keysRise]
    | cons f rest =>
      simp only [regsWf, Bool.and_eq_true, decide_eq_true_eq, ih]
      constructor
      · rintro ⟨⟨h₁, h₂⟩, h₃, h₄⟩
        refine ⟨fun x hx => ?_, List.pairwise_cons.2 ⟨fun x hx => ?_, h₄⟩⟩
        · rcases List.mem_cons.1 hx with rfl | hx
          · exact h₁
          · exact h₃ x hx
        · rcases List.mem_cons.1 hx with rfl | hx
          · exact h₂
          · exact Nat.lt_trans h₂ ((List.pairwise_cons.1 h₄).1 x hx)
      · rintro ⟨h₁, h₂⟩
        exact ⟨⟨h₁ e List.mem_cons_self, (List.pairwise_cons.1 h₂).1 f List.mem_cons_self⟩,
          fun x hx => h₁ x (List.mem_cons_of_mem _ hx), (List.pairwise_cons.1 h₂).2⟩

/-- A register write keeps the canonical form. -/
theorem regsWf_regStore (a : Nat) (w : Word) {l : List (Nat × Word)} (h : regsWf l = true) : regsWf (regStore a w l) = true := by
  rw [regsWf_iff] at h ⊢
  unfold regStore
  split
  · exact ⟨fun e he => h.1 e (List.mem_filter.1 he).1, keysRise_filter _ h.2⟩
  · next hw =>
    refine ⟨fun e he => ?_, keysRise_kput a w h.2⟩
    rcases mem_kput he with rfl | he
    · exact hw
    · exact h.1 e he

/-- Dropping entries keeps the canonical form. -/
theorem regsWf_filter (p : Nat × Word → Bool) {l : List (Nat × Word)} (h : regsWf l = true) : regsWf (l.filter p) = true := by
  rw [regsWf_iff] at h ⊢
  exact ⟨fun e he => h.1 e (List.mem_filter.1 he).1, keysRise_filter _ h.2⟩

/-- A register reads what was written to it. -/
@[simp] theorem State.reg_setReg_same (s : State) (a : Nat) (w : Word) : (s.setReg a w).reg a = w := by
  simp only [State.reg, State.setReg, regLookup, regStore]
  split
  · next h => simp [h]
  · simp

/-- A register write leaves every other register alone. -/
theorem State.reg_setReg_ne (s : State) {a b : Nat} (h : b ≠ a) (w : Word) : (s.setReg a w).reg b = s.reg b := by
  simp only [State.reg, State.setReg, regLookup, regStore]
  split
  · rw [kget_kdel_ne h]
  · rw [kget_kput_ne h]

/-! ### Memories -/

theorem memWf_iff (m : List Host.Cell) : memWf m = true ↔ (∀ e ∈ m, e.2 ≠ 0) ∧ keysRise m := by
  induction m with
  | nil => simp [memWf, keysRise]
  | cons e rest ih =>
    cases rest with
    | nil => simp [memWf, keysRise]
    | cons f rest =>
      simp only [memWf, Bool.and_eq_true, decide_eq_true_eq, ih]
      constructor
      · rintro ⟨⟨h₁, h₂⟩, h₃, h₄⟩
        refine ⟨fun x hx => ?_, List.pairwise_cons.2 ⟨fun x hx => ?_, h₄⟩⟩
        · rcases List.mem_cons.1 hx with rfl | hx
          · exact h₁
          · exact h₃ x hx
        · rcases List.mem_cons.1 hx with rfl | hx
          · exact h₂
          · exact Nat.lt_trans h₂ ((List.pairwise_cons.1 h₄).1 x hx)
      · rintro ⟨h₁, h₂⟩
        exact ⟨⟨h₁ e List.mem_cons_self, (List.pairwise_cons.1 h₂).1 f List.mem_cons_self⟩,
          fun x hx => h₁ x (List.mem_cons_of_mem _ hx), (List.pairwise_cons.1 h₂).2⟩

/-- A byte store keeps the canonical form. -/
theorem memWf_memStore (a : Nat) (b : Byte) {m : List Host.Cell} (h : memWf m = true) : memWf (memStore a b m) = true := by
  rw [memWf_iff] at h ⊢
  unfold memStore
  split
  · exact ⟨fun e he => h.1 e (List.mem_filter.1 he).1, keysRise_filter _ h.2⟩
  · next hb =>
    refine ⟨fun e he => ?_, keysRise_kput a b h.2⟩
    rcases mem_kput he with rfl | he
    · exact hb
    · exact h.1 e he

/-- A string store keeps the canonical form. -/
theorem memWf_memStoreAll (l : List Byte) (a : Nat) {m : List Host.Cell} (h : memWf m = true) : memWf (memStoreAll a l m) = true := by
  induction l generalizing a m with
  | nil => exact h
  | cons b rest ih => exact ih (a + 1) (memWf_memStore a b h)

/-- A byte reads what was stored. -/
@[simp] theorem memByte_memStore_same (a : Nat) (b : Byte) (m : List Host.Cell) : memByte a (memStore a b m) = b := by
  unfold memStore memByte
  split
  · next h => simp [h]
  · simp

/-- A byte store leaves every other byte alone. -/
theorem memByte_memStore_ne {a x : Nat} (h : x ≠ a) (b : Byte) (m : List Host.Cell) : memByte x (memStore a b m) = memByte x m := by
  unfold memStore memByte
  split
  · rw [kget_kdel_ne h]
  · rw [kget_kput_ne h]

/-- A string store leaves every byte outside it alone. -/
theorem memByte_memStoreAll_out (l : List Byte) (a x : Nat) (m : List Host.Cell) (h : x < a ∨ a + l.length ≤ x) :
    memByte x (memStoreAll a l m) = memByte x m := by
  induction l generalizing a m with
  | nil => rfl
  | cons b rest ih =>
    simp only [List.length_cons] at h
    rw [memStoreAll, ih (a + 1) _ (by omega), memByte_memStore_ne (by omega)]

/-- A string store shows its bytes. -/
theorem memByte_memStoreAll_in (l : List Byte) (a i : Nat) (m : List Host.Cell) (h : i < l.length) :
    memByte (a + i) (memStoreAll a l m) = l.getD i 0 := by
  induction l generalizing a i m with
  | nil => simp at h
  | cons b rest ih =>
    cases i with
    | zero => rw [memStoreAll, memByte_memStoreAll_out _ _ _ _ (by omega)]; simp
    | succ j =>
      rw [memStoreAll, show a + (j + 1) = a + 1 + j from by omega, ih _ _ _ (by simpa using h)]
      simp

end Sys2Proof.Machine
end

