-- ==== Sys2Proof/Laws/Fields.lean ====
section
/-!
SUPPORT. Sys2Proof/Laws/Fields.lean: what a read of a register field gives after a write of a field: the value written, cut to
the field's width, in the field itself; what stood there before in every field that shares no bit with it.
-/

set_option linter.all false
set_option Elab.async false

namespace Sys2Proof.Machine

theorem getBits_testBit (w : Word) (lo width i : Nat) :
    (getBits w lo width).testBit i = (decide (i < width) && w.getLsbD (lo + i)) := by
  rw [getBits, Nat.testBit_mod_two_pow, BitVec.testBit_toNat, BitVec.getLsbD_ushiftRight]

theorem setBits_getLsbD (w : Word) (lo width v j : Nat) (h : lo + width ≤ 32) :
    (setBits w lo width v).getLsbD j =
      if lo ≤ j ∧ j < lo + width then v.testBit (j - lo) else w.getLsbD j := by
  simp only [setBits, BitVec.getLsbD_or, BitVec.getLsbD_and, BitVec.getLsbD_not, BitVec.getLsbD_shiftLeft, BitVec.getLsbD_ofNat,
    Nat.testBit_two_pow_sub_one, Nat.testBit_mod_two_pow]
  by_cases hj : j < 32
  · by_cases hl : lo ≤ j
    · by_cases hw : j - lo < width
      · have hr : j < lo + width := by omega
        have : j - lo < 32 := by omega
        simp [hj, hl, hw, hr, this, Nat.not_lt.2 hl]
      · have hr : ¬ j < lo + width := by omega
        simp [hj, hl, hw, hr]
    · simp [hj, hl, Nat.lt_of_not_le hl]
  · have : w.getLsbD j = false := BitVec.getLsbD_of_ge _ _ (by omega)
    have hr : ¬ j < lo + width := by omega
    simp [hj, hr, this]

theorem getBits_setBits_same (w : Word) (lo width v : Nat) (h : lo + width ≤ 32) :
    getBits (setBits w lo width v) lo width = v % 2 ^ width := by
  refine Nat.eq_of_testBit_eq fun i => ?_
  rw [getBits_testBit, setBits_getLsbD _ _ _ _ _ h, Nat.testBit_mod_two_pow]
  by_cases hi : i < width
  · simp [hi]
  · simp [hi]

theorem getBits_setBits_apart (w : Word) (lo width v : Nat) {lo' width' : Nat} (h : lo + width ≤ 32)
    (d : lo' + width' ≤ lo ∨ lo + width ≤ lo') : getBits (setBits w lo width v) lo' width' = getBits w lo' width' := by
  refine Nat.eq_of_testBit_eq fun i => ?_
  rw [getBits_testBit, getBits_testBit, setBits_getLsbD _ _ _ _ _ h]
  by_cases hi : i < width'
  · rw [if_neg (by omega)]
  · simp [hi]

/-- Two fields share no bit. -/
def Fld.apart (f g : Fld) : Prop := f.addr ≠ g.addr ∨ f.lo + f.width ≤ g.lo ∨ g.lo + g.width ≤ f.lo

theorem getBits_lt (w : Word) (lo width : Nat) : getBits w lo width < 2 ^ width := Nat.mod_lt _ (Nat.two_pow_pos _)

theorem State.fld_lt (s : State) (f : Fld) : s.fld f < 2 ^ f.width := getBits_lt _ _ _

/-- A field read after it was written. -/
theorem State.fld_setFld_same (s : State) (f : Fld) (v : Nat) (h : f.lo + f.width ≤ 32) : (s.setFld f v).fld f = v % 2 ^ f.width := by
  rw [State.fld, State.setFld, State.reg_setReg_same, getBits_setBits_same _ _ _ _ h]

/-- A field read after another was written. -/
theorem State.fld_setFld_apart (s : State) {f g : Fld} (v : Nat) (h : f.lo + f.width ≤ 32) (d : g.apart f) :
    (s.setFld f v).fld g = s.fld g := by
  rw [State.fld, State.fld, State.setFld]
  by_cases e : g.addr = f.addr
  · rw [e, State.reg_setReg_same]
    refine getBits_setBits_apart _ _ _ _ h ?_
    rcases d with d | d
    · exact absurd e d
    · exact d
  · rw [State.reg_setReg_ne s e]

theorem State.fld_setReg_ne (s : State) (a : Nat) (w : Word) {f : Fld} (h : f.addr ≠ a) : (s.setReg a w).fld f = s.fld f := by
  rw [State.fld, State.fld, State.reg_setReg_ne s h]

theorem State.on_flag_same (s : State) (f : Fld) (h : f.lo + f.width ≤ 32) (hw : 0 < f.width) : (s.flag f).on f = true := by
  have : 1 < 2 ^ f.width := Nat.one_lt_two_pow (by omega)
  simp [State.on, State.flag, State.fld_setFld_same _ _ _ h, Nat.mod_eq_of_lt this]

theorem State.on_clr_same (s : State) (f : Fld) (h : f.lo + f.width ≤ 32) : (s.clr f).on f = false := by
  simp [State.on, State.clr, State.fld_setFld_same _ _ _ h]

end Sys2Proof.Machine
end

