-- ==== Sys2Proof/Laws/Keeps.lean ====
section
/-!
SUPPORT. Sys2Proof/Laws/Keeps.lean: what no operation of the block ever does, as one relation between the state before and the
state after: the queue is left alone, what the fuses fix is kept, a canonical state stays canonical, and nothing outside the
operation's scope changes.
-/

set_option linter.all false
set_option Elab.async false

namespace Sys2Proof.Machine

/-- The state after keeps the queue, what the fuses fix, the canonical form, and all that lies outside a scope. -/
def Keeps (A : Scope) (s t : State) : Prop :=
  t.pending = s.pending ∧ s.fuse.Kept t.fuse ∧ (s.canonical = true → t.canonical = true) ∧ A.Frame s t

theorem Fuses.kept_refl (f : Fuses) : f.Kept f :=
  ⟨⟨rfl, rfl, rfl⟩, ⟨rfl, rfl, rfl⟩, ⟨rfl, rfl⟩, id, id, fun _ => ⟨rfl, rfl, rfl⟩, fun _ => rfl, fun _ => Nat.le_refl _⟩

theorem Fuses.kept_trans {f g h : Fuses} (a : f.Kept g) (b : g.Kept h) : f.Kept h where
  part := ⟨b.part.1.trans a.part.1, b.part.2.1.trans a.part.2.1, b.part.2.2.trans a.part.2.2⟩
  limits := ⟨b.limits.1.trans a.limits.1, b.limits.2.1.trans a.limits.2.1, b.limits.2.2.trans a.limits.2.2⟩
  roots := ⟨b.roots.1.trans a.roots.1, b.roots.2.trans a.roots.2⟩
  sealedStays := b.sealedStays ∘ a.sealedStays
  partlyStays := b.partlyStays ∘ a.partlyStays
  provisioned h := by
    have p := a.provisioned h
    have q := b.provisioned (h.imp a.sealedStays a.partlyStays)
    exact ⟨q.1.trans p.1, q.2.1.trans p.2.1, q.2.2.trans p.2.2⟩
  identity h := by
    have p := a.identity h
    exact (b.identity (by rw [p]; exact h)).trans p
  versions c := Nat.le_trans (a.versions c) (b.versions c)

theorem Part.same_refl (s : State) (p : Part) : p.Same s s := by cases p <;> exact rfl

theorem Part.same_trans {s t u : State} {p : Part} (a : p.Same s t) (b : p.Same t u) : p.Same s u := by
  cases p <;> exact Eq.trans b a

theorem Scope.frame_refl (A : Scope) (s : State) : A.Frame s s := ⟨fun _ _ => rfl, fun p _ => p.same_refl s⟩

theorem Scope.frame_trans {A : Scope} {s t u : State} (a : A.Frame s t) (b : A.Frame t u) : A.Frame s u :=
  ⟨fun x h => (b.1 x h).trans (a.1 x h), fun p h => Part.same_trans (a.2 p h) (b.2 p h)⟩

@[simp] theorem Scope.covers_nil (A : Scope) : A.covers [] := by simp [Scope.covers]

@[simp] theorem Scope.covers_cons (A : Scope) (x : Site) (l : List Site) : A.covers (x :: l) ↔ A.has x ∧ A.covers l := by
  simp [Scope.covers]

@[simp] theorem Scope.covers_append (A : Scope) (l m : List Site) : A.covers (l ++ m) ↔ A.covers l ∧ A.covers m := by
  simp [Scope.covers, or_imp, forall_and]

@[simp] theorem Scope.has_one (A : Scope) (a : Nat) : A.has (.one a) ↔ A.reg a := Iff.rfl

@[simp] theorem Scope.has_each (A : Scope) (f : Nat → Nat) : A.has (.each f) ↔ ∀ i, A.reg (f i) := Iff.rfl

@[simp] theorem Scope.has_grid (A : Scope) (f : Nat → Nat → Nat) : A.has (.grid f) ↔ ∀ i n, A.reg (f i n) := Iff.rfl

@[simp] theorem Scope.has_part (A : Scope) (p : Part) : A.has (.part p) ↔ A.part p := Iff.rfl

@[simp] theorem Scope.reg_ite (A : Scope) (c : Prop) [Decidable c] (a b : Nat) :
    A.reg (if c then a else b) ↔ if c then A.reg a else A.reg b := by split <;> rfl

@[simp] theorem Scope.space_sram {A : Scope} : A.space .sram ↔ A.part .sram := by simp [Scope.space, Part.ofSpace]

@[simp] theorem Scope.space_dram {A : Scope} : A.space .dram ↔ A.part .dram ∧ A.part .prot := by
  simp [Scope.space, Part.ofSpace]

@[simp] theorem Scope.space_any {A : Scope} (sp : Space) (hs : A.part .sram) (hd : A.part .dram) (hp : A.part .prot) :
    A.space sp := by
  cases sp <;> simp [*]

/-- The scope of everything. -/
def Scope.all : Scope := ⟨fun _ => True, fun _ => True⟩

theorem Scope.all_covers (l : List Site) : Scope.all.covers l := by
  intro x _
  cases x <;> simp [Scope.all]

@[simp ↓] theorem Keeps.refl (A : Scope) (s : State) : Keeps A s s := ⟨rfl, Fuses.kept_refl _, id, A.frame_refl s⟩

theorem Keeps.trans {A : Scope} {s t u : State} (a : Keeps A s t) (b : Keeps A t u) : Keeps A s u :=
  ⟨b.1.trans a.1, Fuses.kept_trans a.2.1 b.2.1, b.2.2.1 ∘ a.2.2.1, A.frame_trans a.2.2.2 b.2.2.2⟩

/-- A part of a scope, changed and nothing else. -/
theorem Scope.frame_part {A : Scope} {s t : State} {p : Part} (hp : A.part p) (hr : t.regs = s.regs)
    (h : ∀ q, q ≠ p → q.Same s t) : A.Frame s t :=
  ⟨fun _ _ => by simp [State.reg, hr], fun q hq => h q fun e => hq (e ▸ hp)⟩

/-- A change of a part that the fuses, the registers and the memories are not. -/
theorem Keeps.unit {A : Scope} {s₀ s t : State} {p : Part} (h : Keeps A s₀ s) (hp : A.part p)
    (hq : t.pending = s.pending := by rfl) (hf : t.fuse = s.fuse := by rfl) (hr : t.regs = s.regs := by rfl)
    (hs : t.sram = s.sram := by rfl) (hd : t.dram = s.dram := by rfl)
    (hx : ∀ q, q ≠ p → q.Same s t := by intro q hq; cases q <;> first | rfl | exact absurd rfl hq) : Keeps A s₀ t :=
  h.trans ⟨hq, by rw [hf]; exact Fuses.kept_refl _, by simp only [State.canonical, hr, hs, hd]; exact id,
    Scope.frame_part hp hr hx⟩

/-- A change of the fuses that keeps what they fix. -/
theorem Keeps.fuses {A : Scope} {s₀ s : State} (h : Keeps A s₀ s) (hA : A.part .fuse) {f : Fuses} (hf : s.fuse.Kept f) :
    Keeps A s₀ { s with fuse := f } :=
  h.trans ⟨rfl, hf, id, Scope.frame_part hA rfl (by intro q hq; cases q <;> first | rfl | exact absurd rfl hq)⟩

/-- A value named first, then used. -/
theorem keepsLet {α : Sort _} {P : α → Prop} {a : α} {Q : α → Prop} (ha : P a) (h : ∀ x, P x → Q x) : let x := a; Q x := h a ha

@[simp ↓] theorem keeps_ite {A : Scope} {s₀ a b : State} {c : Prop} [Decidable c] (ha : Keeps A s₀ a) (hb : Keeps A s₀ b) :
    Keeps A s₀ (if c then a else b) := by split <;> assumption

/-- What every turn of a fold preserves, the fold preserves. -/
theorem foldl_preserves {α β : Type} (P : β → Prop) {f : β → α → β} (hf : ∀ b a, P b → P (f b a)) (l : List α) {b : β} (hb : P b) :
    P (l.foldl f b) := by
  induction l generalizing b with
  | nil => exact hb
  | cons x rest ih => exact ih (hf b x hb)

/-- A fold that carries the state beside what it collects. -/
@[simp ↓] theorem keeps_foldl_snd {α β : Type} {A : Scope} {s₀ : State} {f : β × State → α → β × State} (hf : ∀ b a, Keeps A s₀ b.2 → Keeps A s₀ (f b a).2) (l : List α)
    {b : β × State} (hb : Keeps A s₀ b.2) : Keeps A s₀ (l.foldl f b).2 := foldl_preserves (fun b : β × State => Keeps A s₀ b.2) hf l hb

/-- A fold of operations that keep. -/
@[simp ↓] theorem keeps_foldl {α : Type} {A : Scope} {s₀ : State} {f : State → α → State} (hf : ∀ s x, Keeps A s₀ s → Keeps A s₀ (f s x)) (l : List α) {s : State}
    (h : Keeps A s₀ s) : Keeps A s₀ (l.foldl f s) := by
  induction l generalizing s with
  | nil => exact h
  | cons x rest ih => exact ih (hf s x h)

@[simp ↓] theorem keeps_foldr {α : Type} {A : Scope} {s₀ : State} {f : α → State → State} (hf : ∀ x s, Keeps A s₀ s → Keeps A s₀ (f x s)) (l : List α)
    {s : State} (h : Keeps A s₀ s) : Keeps A s₀ (l.foldr f s) := by
  induction l with
  | nil => exact h
  | cons x rest ih => exact hf x _ ih

@[simp ↓] theorem State.setReg_keeps {A : Scope} {s₀ : State} (s : State) (a : Nat) (w : Word) (h : Keeps A s₀ s)
    (hA : A.reg a) : Keeps A s₀ (s.setReg a w) :=
  h.trans ⟨rfl, Fuses.kept_refl _, fun c => by
    simp only [State.canonical, Bool.and_eq_true] at c ⊢
    exact ⟨⟨regsWf_regStore a w c.1.1, c.1.2⟩, c.2⟩,
    fun b hb => State.reg_setReg_ne s (fun e : b = a => hb (by rw [e]; exact hA)) w, fun p _ => by cases p <;> rfl⟩

@[simp ↓] theorem State.store_keeps {A : Scope} {s₀ : State} (s : State) (sp : Space) (a : Nat) (l : List Byte) (h : Keeps A s₀ s)
    (hA : A.space sp) : Keeps A s₀ (s.store sp a l) :=
  h.trans ⟨by simp, by simpa using Fuses.kept_refl _, fun c => by
    cases sp <;> simp only [State.store, State.canonical, Bool.and_eq_true] at c ⊢
    · exact ⟨⟨c.1.1, memWf_memStoreAll l a c.1.2⟩, c.2⟩
    · exact ⟨c.1, memWf_memStoreAll l a c.2⟩,
    by
      refine ⟨fun b _ => by simp [State.reg], fun q hq => ?_⟩
      have hq : q ∉ Part.ofSpace sp := fun h => hq (hA q h)
      cases sp <;> cases q <;> first | rfl | exact absurd (by simp [Part.ofSpace]) hq⟩

/-- An optional result whose state, if there is one, keeps. -/
def KeepsOpt {α : Type} (A : Scope) (p : α → State) (s₀ : State) (o : Option α) : Prop := ∀ t, o = some t → Keeps A s₀ (p t)

@[simp ↓] theorem keepsOpt_none {α : Type} {p : α → State} {A : Scope} {s₀ : State} : KeepsOpt A p s₀ none := by simp [KeepsOpt]

@[simp ↓] theorem keepsOpt_some {α : Type} {p : α → State} {A : Scope} {s₀ : State} {t : α} (h : Keeps A s₀ (p t)) : KeepsOpt A p s₀ (some t) := by
  intro u hu; cases hu; exact h

@[simp ↓] theorem keepsOpt_ite {α : Type} {p : α → State} {A : Scope} {s₀ : State} {a b : Option α} {c : Prop} [Decidable c] (ha : KeepsOpt A p s₀ a)
    (hb : KeepsOpt A p s₀ b) : KeepsOpt A p s₀ (if c then a else b) := by split <;> assumption

@[simp ↓] theorem keepsOpt_map {α β : Type} {p : β → State} {A : Scope} {s₀ : State} {f : α → β} {o : Option α}
    (h : KeepsOpt A (fun t => p (f t)) s₀ o) : KeepsOpt A p s₀ (o.map f) := by
  cases o with
  | none => simp
  | some t => exact keepsOpt_some (h t rfl)

theorem keepsOpt_map_of {α β : Type} {p : β → State} {A : Scope} {s₀ : State} {f : α → β} {o : Option α} (h : ∀ t, Keeps A s₀ (p (f t))) :
    KeepsOpt A p s₀ (o.map f) := keepsOpt_map fun t _ => h t

/-- An outcome whose next state, if it is one, keeps. -/
def KeepsOut (A : Scope) (s₀ : State) (o : Host.Outcome State Fault Refusal) : Prop := ∀ t, o = .next t → Keeps A s₀ t

@[simp ↓] theorem keepsOut_next {A : Scope} {s₀ t : State} : KeepsOut A s₀ (.next t) ↔ Keeps A s₀ t := by simp [KeepsOut]

@[simp ↓] theorem keepsOut_ite {A : Scope} {s₀ : State} {a b : Host.Outcome State Fault Refusal} {c : Prop} [Decidable c]
    (ha : KeepsOut A s₀ a) (hb : KeepsOut A s₀ b) : KeepsOut A s₀ (if c then a else b) := by split <;> assumption

end Sys2Proof.Machine
end

