-- ==== Sys2Proof/Laws/KeepsOps.lean ====
section
/-!
SUPPORT. Sys2Proof/Laws/KeepsOps.lean: the operations and meanings of Machine/Ops.lean keep (Laws/Keeps.lean).
-/

set_option linter.all false
set_option Elab.async false

namespace Sys2Proof.Machine

@[simp ↓] theorem State.setFld_keeps {A : Scope} {s₀ : State} (s : State) (f : Fld) (v : Nat) (hk : Keeps A s₀ s)
    (hf : A.reg f.addr) :
    Keeps A s₀ (State.setFld s f v) := by simp (maxDischargeDepth := 99) [State.setFld, hk, hf]

@[simp ↓] theorem State.setSfld_keeps {A : Scope} {s₀ : State} (s : State) (f : Fld) (v : Int) (hk : Keeps A s₀ s)
    (hf : A.reg f.addr) :
    Keeps A s₀ (State.setSfld s f v) := by simp (maxDischargeDepth := 99) [State.setSfld, hk, hf]

@[simp ↓] theorem State.flag_keeps {A : Scope} {s₀ : State} (s : State) (f : Fld) (hk : Keeps A s₀ s)
    (hf : A.reg f.addr) :
    Keeps A s₀ (State.flag s f) := by simp (maxDischargeDepth := 99) [State.flag, hk, hf]

@[simp ↓] theorem State.clr_keeps {A : Scope} {s₀ : State} (s : State) (f : Fld) (hk : Keeps A s₀ s)
    (hf : A.reg f.addr) :
    Keeps A s₀ (State.clr s f) := by simp (maxDischargeDepth := 99) [State.clr, hk, hf]

@[simp ↓] theorem State.setBit_keeps {A : Scope} {s₀ : State} (s : State) (f : Fld) (b : Bool) (hk : Keeps A s₀ s)
    (hf : A.reg f.addr) :
    Keeps A s₀ (State.setBit s f b) := by simp (maxDischargeDepth := 99) [State.setBit, hk, hf]

@[simp ↓] theorem State.addSat_keeps {A : Scope} {s₀ : State} (s : State) (f : Fld) (n : Nat) (hk : Keeps A s₀ s)
    (hf : A.reg f.addr) :
    Keeps A s₀ (State.addSat s f n) := by simp (maxDischargeDepth := 99) [State.addSat, hk, hf]

@[simp ↓] theorem State.count_keeps {A : Scope} {s₀ : State} (s : State) (f : Fld) (hk : Keeps A s₀ s)
    (hf : A.reg f.addr) :
    Keeps A s₀ (State.count s f) := by simp (maxDischargeDepth := 99) [State.count, hk, hf]

@[simp ↓] theorem State.setWide_keeps {A : Scope} {s₀ : State} (s : State) (lo : Fld) (hi : Fld) (v : Nat) (hk : Keeps A s₀ s)
    (hlo : A.reg lo.addr) (hhi : A.reg hi.addr) :
    Keeps A s₀ (State.setWide s lo hi v) := by simp (maxDischargeDepth := 99) [State.setWide, hk, hlo, hhi]

@[simp ↓] theorem State.modRow_keeps {A : Scope} {s₀ : State} (s : State) (f : RowMachine → RowMachine) (hk : Keeps A s₀ s)
    (hA : A.part .row) : Keeps A s₀ (State.modRow s f) := hk.unit hA

@[simp ↓] theorem State.modPairs_keeps {A : Scope} {s₀ : State} (s : State) (f : List CorePair → List CorePair) (hk : Keeps A s₀ s)
    (hA : A.part .pairs) : Keeps A s₀ (State.modPairs s f) := hk.unit hA

@[simp ↓] theorem State.modCable_keeps {A : Scope} {s₀ : State} (s : State) (f : CableNet → CableNet) (hk : Keeps A s₀ s)
    (hA : A.part .cable) : Keeps A s₀ (State.modCable s f) := hk.unit hA

@[simp ↓] theorem State.modBus_keeps {A : Scope} {s₀ : State} (s : State) (f : BusReply → BusReply) (hk : Keeps A s₀ s)
    (hA : A.part .bus) : Keeps A s₀ (State.modBus s f) := hk.unit hA

@[simp ↓] theorem State.modPins_keeps {A : Scope} {s₀ : State} (s : State) (f : Pins → Pins) (hk : Keeps A s₀ s)
    (hA : A.part .pins) : Keeps A s₀ (State.modPins s f) := hk.unit hA

@[simp ↓] theorem State.modKeeper_keeps {A : Scope} {s₀ : State} (s : State) (f : Keeper → Keeper) (hk : Keeps A s₀ s)
    (hA : A.part .keeper) : Keeps A s₀ (State.modKeeper s f) := hk.unit hA

@[simp ↓] theorem State.modCast_keeps {A : Scope} {s₀ : State} (s : State) (f : CastOn → CastOn) (hk : Keeps A s₀ s)
    (hA : A.part .cast) : Keeps A s₀ (State.modCast s f) := hk.unit hA

@[simp ↓] theorem State.modPattern_keeps {A : Scope} {s₀ : State} (s : State) (f : PatternUnit → PatternUnit) (hk : Keeps A s₀ s)
    (hA : A.part .pattern) : Keeps A s₀ (State.modPattern s f) := hk.unit hA

@[simp ↓] theorem State.modSpn_keeps {A : Scope} {s₀ : State} (s : State) (f : Spindle → Spindle) (hk : Keeps A s₀ s)
    (hA : A.part .spn) : Keeps A s₀ (State.modSpn s f) := hk.unit hA

@[simp ↓] theorem State.modNeedles_keeps {A : Scope} {s₀ : State} (s : State) (f : List Needle → List Needle) (hk : Keeps A s₀ s)
    (hA : A.part .needles) : Keeps A s₀ (State.modNeedles s f) := hk.unit hA

@[simp ↓] theorem State.modActs_keeps {A : Scope} {s₀ : State} (s : State) (f : List Actuator → List Actuator) (hk : Keeps A s₀ s)
    (hA : A.part .acts) : Keeps A s₀ (State.modActs s f) := hk.unit hA

@[simp ↓] theorem State.modSlices_keeps {A : Scope} {s₀ : State} (s : State) (f : List Slice → List Slice) (hk : Keeps A s₀ s)
    (hA : A.part .slices) : Keeps A s₀ (State.modSlices s f) := hk.unit hA

@[simp ↓] theorem State.modStitch_keeps {A : Scope} {s₀ : State} (s : State) (f : Stitch → Stitch) (hk : Keeps A s₀ s)
    (hA : A.part .stitch) : Keeps A s₀ (State.modStitch s f) := hk.unit hA

@[simp ↓] theorem State.modHost_keeps {A : Scope} {s₀ : State} (s : State) (f : HostUnit → HostUnit) (hk : Keeps A s₀ s)
    (hA : A.part .host) : Keeps A s₀ (State.modHost s f) := hk.unit hA

@[simp ↓] theorem State.modFlow_keeps {A : Scope} {s₀ : State} (s : State) (f : Flow → Flow) (hk : Keeps A s₀ s)
    (hA : A.part .flow) : Keeps A s₀ (State.modFlow s f) := hk.unit hA

@[simp ↓] theorem State.modDarn_keeps {A : Scope} {s₀ : State} (s : State) (f : Darning → Darning) (hk : Keeps A s₀ s)
    (hA : A.part .darn) : Keeps A s₀ (State.modDarn s f) := hk.unit hA

@[simp ↓] theorem State.modProt_keeps {A : Scope} {s₀ : State} (s : State) (f : Protection → Protection) (hk : Keeps A s₀ s)
    (hA : A.part .prot) : Keeps A s₀ (State.modProt s f) := hk.unit hA

@[simp ↓] theorem State.modTir_keeps {A : Scope} {s₀ : State} (s : State) (f : Tirium → Tirium) (hk : Keeps A s₀ s)
    (hA : A.part .tir) : Keeps A s₀ (State.modTir s f) := hk.unit hA

@[simp ↓] theorem State.modCip_keeps {A : Scope} {s₀ : State} (s : State) (f : Cipher → Cipher) (hk : Keeps A s₀ s)
    (hA : A.part .cip) : Keeps A s₀ (State.modCip s f) := hk.unit hA

@[simp ↓] theorem State.modGauge_keeps {A : Scope} {s₀ : State} (s : State) (f : Gauge → Gauge) (hk : Keeps A s₀ s)
    (hA : A.part .gauge) : Keeps A s₀ (State.modGauge s f) := hk.unit hA

@[simp ↓] theorem State.modUpd_keeps {A : Scope} {s₀ : State} (s : State) (f : Update → Update) (hk : Keeps A s₀ s)
    (hA : A.part .upd) : Keeps A s₀ (State.modUpd s f) := hk.unit hA

@[simp ↓] theorem State.modRec_keeps {A : Scope} {s₀ : State} (s : State) (f : Recorder → Recorder) (hk : Keeps A s₀ s)
    (hA : A.part .recorder) : Keeps A s₀ (State.modRec s f) := hk.unit hA

@[simp ↓] theorem State.modSnag_keeps {A : Scope} {s₀ : State} (s : State) (f : Snag → Snag) (hk : Keeps A s₀ s)
    (hA : A.part .snag) : Keeps A s₀ (State.modSnag s f) := hk.unit hA

@[simp ↓] theorem State.modDbg_keeps {A : Scope} {s₀ : State} (s : State) (f : Debug → Debug) (hk : Keeps A s₀ s)
    (hA : A.part .dbg) : Keeps A s₀ (State.modDbg s f) := hk.unit hA

@[simp ↓] theorem State.modNeedle_keeps {A : Scope} {s₀ : State} (s : State) (n : Nat) (f : Needle → Needle) (hk : Keeps A s₀ s)
    (hA : A.part .needles) : Keeps A s₀ (State.modNeedle s n f) := hk.unit hA

@[simp ↓] theorem State.modAct_keeps {A : Scope} {s₀ : State} (s : State) (a : Nat) (f : Actuator → Actuator) (hk : Keeps A s₀ s)
    (hA : A.part .acts) : Keeps A s₀ (State.modAct s a f) := hk.unit hA

@[simp ↓] theorem State.modSlice_keeps {A : Scope} {s₀ : State} (s : State) (i : Nat) (f : Slice → Slice) (hk : Keeps A s₀ s)
    (hA : A.part .slices) : Keeps A s₀ (State.modSlice s i f) := hk.unit hA

@[simp ↓] theorem State.modPair_keeps {A : Scope} {s₀ : State} (s : State) (p : Nat) (f : CorePair → CorePair) (hk : Keeps A s₀ s)
    (hA : A.part .pairs) : Keeps A s₀ (State.modPair s p f) := hk.unit hA

def State.draw_sites : List Site := [.part .draws]

@[simp ↓] theorem State.draw_keeps {A : Scope} {s₀ : State} (s : State) (hk : Keeps A s₀ s)
    (hA : A.covers State.draw_sites) : Keeps A s₀ (State.draw s).2 := hk.unit (by simpa [State.draw_sites] using hA)

def State.drawBytes_sites : List Site := [.part .tir]

@[simp ↓] theorem State.drawBytes_keeps {A : Scope} {s₀ : State} (s : State) (n : Nat) (hk : Keeps A s₀ s)
    (hA : A.covers State.drawBytes_sites) : Keeps A s₀ (State.drawBytes s n).2 := hk.unit (by simpa [State.drawBytes_sites] using hA)

end Sys2Proof.Machine
end

