-- ==== Sys2Proof/Laws/KeepsFlags.lean ====
section
/-!
SUPPORT. Sys2Proof/Laws/KeepsFlags.lean: the operations and meanings of Machine/Flags.lean keep (Laws/Keeps.lean).
-/

set_option linter.all false
set_option Elab.async false

namespace Sys2Proof.Machine

def State.send_sites : List Site := [.part .host]

@[simp ↓] theorem State.send_keeps {A : Scope} {s₀ : State} (s : State) (m : HostMsg) (hk : Keeps A s₀ s)
    (hA : A.covers State.send_sites) :
    Keeps A s₀ (State.send s m) := by
  simp [State.send_sites] at hA
  simp (maxDischargeDepth := 99) [State.send, hk, hA]

def State.modController_sites : List Site := [.part .host]

@[simp ↓] theorem State.modController_keeps {A : Scope} {s₀ : State} (s : State) (c : Nat) (f : Controller → Controller) (hk : Keeps A s₀ s)
    (hA : A.covers State.modController_sites) :
    Keeps A s₀ (State.modController s c f) := by
  simp [State.modController_sites] at hA
  simp (maxDischargeDepth := 99) [State.modController, hk, hA]

def State.modRing_sites : List Site := [.part .host]

@[simp ↓] theorem State.modRing_keeps {A : Scope} {s₀ : State} (s : State) (r : Nat) (f : Ring → Ring) (hk : Keeps A s₀ s)
    (hA : A.covers State.modRing_sites) :
    Keeps A s₀ (State.modRing s r f) := by
  simp [State.modRing_sites] at hA
  simp (maxDischargeDepth := 99) [State.modRing, hk, hA]

def State.postTo_sites : List Site := State.modController_sites ++ State.modRing_sites ++ State.send_sites

@[simp ↓] theorem State.postTo_keeps {A : Scope} {s₀ : State} (s : State) (type : Nat) (info : Nat) (c : Nat) (hk : Keeps A s₀ s)
    (hA : A.covers State.postTo_sites) :
    Keeps A s₀ (State.postTo s type info c) := by
  simp [State.postTo_sites] at hA
  unfold State.postTo
  repeat' (first
    | (intro x; first
        | (have hx : Keeps A s₀ x := by
             subst x
             repeat' split
             all_goals first | with_reducible assumption | (simp (maxDischargeDepth := 99) +contextual [*]; done) | simp_all (maxDischargeDepth := 99) +contextual
           clear_value x)
        | clear_value x)
    | (split <;> try lift_lets))
  all_goals first | (simp (maxDischargeDepth := 99) +contextual [*]; done) | simp_all (maxDischargeDepth := 99) +contextual

def State.postAsync_sites : List Site := State.postTo_sites

@[simp ↓] theorem State.postAsync_keeps {A : Scope} {s₀ : State} (s : State) (type : Nat) (info : Nat) (takes : Nat → Bool) (hk : Keeps A s₀ s)
    (hA : A.covers State.postAsync_sites) :
    Keeps A s₀ (State.postAsync s type info takes) := by
  simp [State.postAsync_sites] at hA
  unfold State.postAsync
  repeat' (first
    | (intro x; clear_value x))
  all_goals first | (simp (maxDischargeDepth := 99) +contextual [*]; done) | simp_all (maxDischargeDepth := 99) +contextual

def State.postVendor_sites : List Site := State.postAsync_sites

@[simp ↓] theorem State.postVendor_keeps {A : Scope} {s₀ : State} (s : State) (info : Nat) (hk : Keeps A s₀ s)
    (hA : A.covers State.postVendor_sites) :
    Keeps A s₀ (State.postVendor s info) := by
  simp [State.postVendor_sites] at hA
  simp (maxDischargeDepth := 99) [State.postVendor, hk, hA]

def State.smartSet_sites : List Site := State.postAsync_sites ++ [.part .host]

@[simp ↓] theorem State.smartSet_keeps {A : Scope} {s₀ : State} (s : State) (bit : Nat) (hk : Keeps A s₀ s)
    (hA : A.covers State.smartSet_sites) :
    Keeps A s₀ (State.smartSet s bit) := by
  simp [State.smartSet_sites] at hA
  simp (maxDischargeDepth := 99) [State.smartSet, hk, hA]

def State.smartClear_sites : List Site := [.part .host]

@[simp ↓] theorem State.smartClear_keeps {A : Scope} {s₀ : State} (s : State) (bit : Nat) (hk : Keeps A s₀ s)
    (hA : A.covers State.smartClear_sites) :
    Keeps A s₀ (State.smartClear s bit) := by
  simp [State.smartClear_sites] at hA
  simp (maxDischargeDepth := 99) [State.smartClear, hk, hA]

def State.raiseVector_sites : List Site := State.modController_sites ++ State.send_sites

@[simp ↓] theorem State.raiseVector_keeps {A : Scope} {s₀ : State} (s : State) (c : Nat) (vector : Nat) (urgent : Bool) (hk : Keeps A s₀ s)
    (hA : A.covers State.raiseVector_sites) :
    Keeps A s₀ (State.raiseVector s c vector urgent) := by
  simp [State.raiseVector_sites] at hA
  unfold State.raiseVector
  repeat' (first
    | (intro x; clear_value x)
    | (split <;> try lift_lets))
  all_goals first | (simp (maxDischargeDepth := 99) +contextual [*]; done) | simp_all (maxDischargeDepth := 99) +contextual

def State.driveStatus_sites : List Site := [.part .pins]

@[simp ↓] theorem State.driveStatus_keeps {A : Scope} {s₀ : State} (s : State) (hk : Keeps A s₀ s)
    (hA : A.covers State.driveStatus_sites) :
    Keeps A s₀ (State.driveStatus s) := by
  simp [State.driveStatus_sites] at hA
  simp (maxDischargeDepth := 99) [State.driveStatus, hk, hA]

def State.loadRecordRegs_sites : List Site := [.one R.UPD_SEQ_HI, .one R.UPD_SEQ_LO, .one R.UPD_STATUS]

@[simp ↓] theorem State.loadRecordRegs_keeps {A : Scope} {s₀ : State} (s : State) (hk : Keeps A s₀ s)
    (hA : A.covers State.loadRecordRegs_sites) :
    Keeps A s₀ (State.loadRecordRegs s) := by
  simp [State.loadRecordRegs_sites] at hA
  simp (maxDischargeDepth := 99) [State.loadRecordRegs, hk, hA]

def State.putRecord_sites : List Site := State.loadRecordRegs_sites ++ [.part .upd]

@[simp ↓] theorem State.putRecord_keeps {A : Scope} {s₀ : State} (s : State) (f : ActRecord → ActRecord) (hk : Keeps A s₀ s)
    (hA : A.covers State.putRecord_sites) :
    Keeps A s₀ (State.putRecord s f) := by
  simp [State.putRecord_sites] at hA
  simp (maxDischargeDepth := 99) [State.putRecord, hk, hA]

def State.noteFault_sites : List Site := State.putRecord_sites

@[simp ↓] theorem State.noteFault_keeps {A : Scope} {s₀ : State} (s : State) (hk : Keeps A s₀ s)
    (hA : A.covers State.noteFault_sites) :
    Keeps A s₀ (State.noteFault s) := by
  simp [State.noteFault_sites] at hA
  simp (maxDischargeDepth := 99) [State.noteFault, hk, hA]

def State.setCfs_sites : List Site := State.driveStatus_sites ++ State.noteFault_sites ++ [.one R.HIF_CFS, .part .host]

@[simp ↓] theorem State.setCfs_keeps {A : Scope} {s₀ : State} (s : State) (mask : Nat) (sticky : Bool) (hk : Keeps A s₀ s)
    (hA : A.covers State.setCfs_sites) :
    Keeps A s₀ (State.setCfs s mask sticky) := by
  simp [State.setCfs_sites] at hA
  simp (maxDischargeDepth := 99) [State.setCfs, hk, hA]

end Sys2Proof.Machine
end

