-- ==== Sys2Proof/Laws/KeepsInjection.lean ====
section
/-!
SUPPORT. Sys2Proof/Laws/KeepsInjection.lean: the operations and meanings of Machine/Injection.lean keep (Laws/Keeps.lean).
-/

set_option linter.all false
set_option Elab.async false

namespace Sys2Proof.Machine

def State.snagStatus_sites : List Site := [.one R.SNG_STATUS]

@[simp ↓] theorem State.snagStatus_keeps {A : Scope} {s₀ : State} (s : State) (hk : Keeps A s₀ s)
    (hA : A.covers State.snagStatus_sites) :
    Keeps A s₀ (State.snagStatus s) := by
  simp [State.snagStatus_sites] at hA
  simp (maxDischargeDepth := 99) [State.snagStatus, hk, hA]

def State.holdInjectors_sites : List Site := State.snagStatus_sites ++ [.part .snag]

@[simp ↓] theorem State.holdInjectors_keeps {A : Scope} {s₀ : State} (s : State) (point : Nat) (inst : Nat) (wouldFault : Bool) (hk : Keeps A s₀ s)
    (hA : A.covers State.holdInjectors_sites) :
    Keeps A s₀ (State.holdInjectors s point inst wouldFault) := by
  simp [State.holdInjectors_sites] at hA
  simp (maxDischargeDepth := 99) [State.holdInjectors, hk, hA]

def State.timingHits_sites : List Site := [.part .snag]

@[simp ↓] theorem State.timingHits_keeps {A : Scope} {s₀ : State} (s : State) (n : Nat) (hk : Keeps A s₀ s)
    (hA : A.covers State.timingHits_sites) :
    Keeps A s₀ (State.timingHits s n).1 := by
  simp [State.timingHits_sites] at hA
  simp only [State.timingHits]
  repeat' split
  all_goals simp_all (maxDischargeDepth := 99)

end Sys2Proof.Machine
end

