-- ==== Sys2Proof/Laws/KeepsRecorder.lean ====
section
/-!
SUPPORT. Sys2Proof/Laws/KeepsRecorder.lean: the operations and meanings of Machine/Recorder.lean keep (Laws/Keeps.lean).
-/

set_option linter.all false
set_option Elab.async false

namespace Sys2Proof.Machine

def State.takeSeq_sites : List Site := [.one R.REC_SEQ]

@[simp ↓] theorem State.takeSeq_keeps {A : Scope} {s₀ : State} (s : State) (hk : Keeps A s₀ s)
    (hA : A.covers State.takeSeq_sites) :
    Keeps A s₀ (State.takeSeq s).2 := by
  simp [State.takeSeq_sites] at hA
  simp (maxDischargeDepth := 99) [State.takeSeq, hk, hA]

def State.fifoLevel_sites : List Site := [.one R.REC_STATUS]

@[simp ↓] theorem State.fifoLevel_keeps {A : Scope} {s₀ : State} (s : State) (hk : Keeps A s₀ s)
    (hA : A.covers State.fifoLevel_sites) :
    Keeps A s₀ (State.fifoLevel s) := by
  simp [State.fifoLevel_sites] at hA
  simp (maxDischargeDepth := 99) [State.fifoLevel, hk, hA]

def State.carryCoalesced_sites : List Site := State.takeSeq_sites ++ [.part .recorder]

@[simp ↓] theorem State.carryCoalesced_keeps {A : Scope} {s₀ : State} (s : State) (p : List Word) (hk : Keeps A s₀ s)
    (hA : A.covers State.carryCoalesced_sites) :
    Keeps A s₀ (State.carryCoalesced s p) := by
  simp [State.carryCoalesced_sites] at hA
  simp (maxDischargeDepth := 99) [State.carryCoalesced, hk, hA]

def State.coalesce_sites : List Site := State.carryCoalesced_sites ++ [.part .recorder]

@[simp ↓] theorem State.coalesce_keeps {A : Scope} {s₀ : State} (s : State) (hk : Keeps A s₀ s)
    (hA : A.covers State.coalesce_sites) :
    Keeps A s₀ (State.coalesce s) := by
  simp [State.coalesce_sites] at hA
  unfold State.coalesce
  repeat' (first
    | (intro x; clear_value x))
  all_goals first | (simp (maxDischargeDepth := 99) +contextual [*]; done) | simp_all (maxDischargeDepth := 99) +contextual

def State.startWriter_sites : List Site := State.coalesce_sites ++ State.fifoLevel_sites ++ [.part .recorder]

@[simp ↓] theorem State.startWriter_keeps {A : Scope} {s₀ : State} (s : State) (hk : Keeps A s₀ s)
    (hA : A.covers State.startWriter_sites) :
    Keeps A s₀ (State.startWriter s) := by
  simp [State.startWriter_sites] at hA
  unfold State.startWriter
  repeat' (first
    | (intro x; first
        | (have hx : Keeps A s₀ x := by
             subst x
             repeat' split
             all_goals first | with_reducible assumption | (simp (maxDischargeDepth := 99) +contextual [*]; done) | simp_all (maxDischargeDepth := 99) +contextual
           clear_value x)
        | clear_value x)
    | (split <;> try lift_lets))
  all_goals first | (simp (maxDischargeDepth := 99) +contextual [*]; done) | simp_all (maxDischargeDepth := 99) +contextual

def State.shadowAlone_sites : List Site := State.takeSeq_sites ++ [.part .recorder]

@[simp ↓] theorem State.shadowAlone_keeps {A : Scope} {s₀ : State} (s : State) (r : Record) (hk : Keeps A s₀ s)
    (hA : A.covers State.shadowAlone_sites) :
    Keeps A s₀ (State.shadowAlone s r) := by
  simp [State.shadowAlone_sites] at hA
  simp (maxDischargeDepth := 99) [State.shadowAlone, hk, hA]

def State.enterRecord_sites : List Site :=
  State.fifoLevel_sites ++ State.shadowAlone_sites ++ State.startWriter_sites ++ State.takeSeq_sites ++ [.one R.REC_EVENTS,
    .each R.REC_LOST, .part .recorder]

@[simp ↓] theorem State.enterRecord_keeps {A : Scope} {s₀ : State} (s : State) (r : Record) (hk : Keeps A s₀ s)
    (hA : A.covers State.enterRecord_sites) :
    Keeps A s₀ (State.enterRecord s r) := by
  simp [State.enterRecord_sites] at hA
  simp (maxDischargeDepth := 99) [State.enterRecord, hk, hA]

def State.event_sites : List Site := State.enterRecord_sites

@[simp ↓] theorem State.event_keeps {A : Scope} {s₀ : State} (s : State) (src : Nat) (idx : Nat) (sev : Nat) (inst : Nat) (cause : Nat) (hk : Keeps A s₀ s)
    (hA : A.covers State.event_sites) :
    Keeps A s₀ (State.event s src idx sev inst cause) := by
  simp [State.event_sites] at hA
  simp (maxDischargeDepth := 99) [State.event, hk, hA]

def State.eventWith_sites : List Site := State.enterRecord_sites

@[simp ↓] theorem State.eventWith_keeps {A : Scope} {s₀ : State} (s : State) (src : Nat) (idx : Nat) (sev : Nat) (payload : List Word) (hk : Keeps A s₀ s)
    (hA : A.covers State.eventWith_sites) :
    Keeps A s₀ (State.eventWith s src idx sev payload) := by
  simp [State.eventWith_sites] at hA
  simp (maxDischargeDepth := 99) [State.eventWith, hk, hA]

def State.inject_sites : List Site :=
  State.eventWith_sites ++ State.snagStatus_sites ++ [.one R.SNG_COUNT, .one R.SNG_EVENTS, .each R.SNG_INJ_COUNT, .part .snag]

@[simp ↓] theorem State.inject_keeps {A : Scope} {s₀ : State} (s : State) (n : Nat) (hk : Keeps A s₀ s)
    (hA : A.covers State.inject_sites) :
    Keeps A s₀ (State.inject s n) := by
  simp [State.inject_sites] at hA
  simp (maxDischargeDepth := 99) [State.inject, hk, hA]

def State.injectorMeets_sites : List Site := State.inject_sites ++ State.timingHits_sites

@[simp ↓] theorem State.injectorMeets_keeps {A : Scope} {s₀ : State} (point inst : Nat) (replay : Bool) (acc : Option (Nat × Nat) × State) (n : Nat)
    (hk : Keeps A s₀ acc.2) (hA : A.covers State.injectorMeets_sites) :
    Keeps A s₀ (State.injectorMeets point inst replay acc n).2 := by
  simp [State.injectorMeets_sites] at hA
  have hp := State.timingHits_keeps acc.2 n hk hA.2
  simp only [State.injectorMeets]
  generalize State.timingHits acc.2 n = r at hp ⊢
  obtain ⟨t, b⟩ := r
  repeat' split
  all_goals simp_all (maxDischargeDepth := 99)

def State.snagPass_sites : List Site := State.injectorMeets_sites

@[simp ↓] theorem State.snagPass_keeps {A : Scope} {s₀ : State} (s : State) (point inst : Nat) (replay : Bool) (hk : Keeps A s₀ s)
    (hA : A.covers State.snagPass_sites) :
    Keeps A s₀ (s.snagPass point inst replay).2 := by
  simp [State.snagPass_sites] at hA
  have fold (l : List Nat) (acc : Option (Nat × Nat) × State) (h : Keeps A s₀ acc.2) :
      Keeps A s₀ (l.foldl (State.injectorMeets point inst replay) acc).2 := by
    induction l generalizing acc with
    | nil => exact h
    | cons x rest ih => exact ih _ (State.injectorMeets_keeps _ _ _ _ _ h (by first | assumption | simp [*]))
  exact fold _ _ hk

def State.becomeFull_sites : List Site :=
  State.fifoLevel_sites ++ State.postVendor_sites ++ [.one R.REC_EVENTS, .each R.REC_LOST, .one R.REC_STATUS, .part .recorder]

@[simp ↓] theorem State.becomeFull_keeps {A : Scope} {s₀ : State} (s : State) (hk : Keeps A s₀ s)
    (hA : A.covers State.becomeFull_sites) :
    Keeps A s₀ (State.becomeFull s) := by
  simp [State.becomeFull_sites] at hA
  unfold State.becomeFull
  repeat' (first
    | (intro x; clear_value x))
  all_goals first | (simp (maxDischargeDepth := 99) +contextual [*]; done) | simp_all (maxDischargeDepth := 99) +contextual

def State.carryLogFull_sites : List Site := State.takeSeq_sites ++ [.part .recorder]

@[simp ↓] theorem State.carryLogFull_keeps {A : Scope} {s₀ : State} (s : State) (hk : Keeps A s₀ s)
    (hA : A.covers State.carryLogFull_sites) :
    Keeps A s₀ (State.carryLogFull s) := by
  simp [State.carryLogFull_sites] at hA
  simp (maxDischargeDepth := 99) [State.carryLogFull, hk, hA]

def State.afterRecord_sites : List Site :=
  State.becomeFull_sites ++ State.carryLogFull_sites ++ State.startWriter_sites ++ [.one R.REC_NEXT, .part .recorder]

@[simp ↓] theorem State.afterRecord_keeps {A : Scope} {s₀ : State} (s : State) (i : Nat) (hk : Keeps A s₀ s)
    (hA : A.covers State.afterRecord_sites) :
    Keeps A s₀ (State.afterRecord s i) := by
  simp [State.afterRecord_sites] at hA
  simp (maxDischargeDepth := 99) [State.afterRecord, hk, hA]

def State.mirrorRecord_sites : List Site := [.one R.REC_EVENTS, .one R.REC_STATUS, .part .recorder]

@[simp ↓] theorem State.mirrorRecord_keeps {A : Scope} {s₀ : State} (s : State) (r : Record) (hk : Keeps A s₀ s)
    (hA : A.covers State.mirrorRecord_sites) :
    Keeps A s₀ (State.mirrorRecord s r) := by
  simp [State.mirrorRecord_sites] at hA
  simp (maxDischargeDepth := 99) [State.mirrorRecord, hk, hA]

def State.storeFailed_sites : List Site :=
  State.becomeFull_sites ++ State.mirrorRecord_sites ++ State.postVendor_sites ++ State.startWriter_sites ++
    State.takeSeq_sites ++ [.one R.REC_EVENTS, .one R.REC_NEXT, .one R.REC_STATUS, .part .recorder]

@[simp ↓] theorem State.storeFailed_keeps {A : Scope} {s₀ : State} (s : State) (kind : Nat) (hk : Keeps A s₀ s)
    (hA : A.covers State.storeFailed_sites) :
    Keeps A s₀ (State.storeFailed s kind) := by
  simp [State.storeFailed_sites] at hA
  simp (maxDischargeDepth := 99) [State.storeFailed, hk, hA]

def State.shadowOnly_sites : List Site :=
  State.fifoLevel_sites ++ State.postVendor_sites ++ [.one R.REC_STATUS, .part .recorder]

@[simp ↓] theorem State.shadowOnly_keeps {A : Scope} {s₀ : State} (s : State) (hk : Keeps A s₀ s)
    (hA : A.covers State.shadowOnly_sites) :
    Keeps A s₀ (State.shadowOnly s) := by
  simp [State.shadowOnly_sites] at hA
  simp (maxDischargeDepth := 99) [State.shadowOnly, hk, hA]

def execRecordProgrammed_sites : List Site :=
  State.afterRecord_sites ++ State.snagPass_sites ++ State.storeFailed_sites ++ [.part .recorder]

theorem execRecordProgrammed_keeps {A : Scope} (s : State)
    (hA : A.covers execRecordProgrammed_sites) : KeepsOut A s (execRecordProgrammed s) := by
  simp [execRecordProgrammed_sites] at hA
  have hk := Keeps.refl A s
  unfold execRecordProgrammed
  repeat' (first
    | (intro x; clear_value x)
    | (generalize he : State.snagPass _ _ _ _ = p
       have hp : Keeps A s p.2 := by subst he; first | with_reducible assumption | simp (maxDischargeDepth := 99) +contextual [*]
       clear he
       obtain ⟨_, _⟩ := p)
    | (split <;> try lift_lets))
  all_goals first | (simp (maxDischargeDepth := 99) +contextual [*]; done) | simp_all (maxDischargeDepth := 99) +contextual

def State.programUnit_sites : List Site := [.part .recorder]

@[simp ↓] theorem State.programUnit_keeps {A : Scope} {s₀ : State} (s : State) (hk : Keeps A s₀ s)
    (hA : A.covers State.programUnit_sites) :
    Keeps A s₀ (State.programUnit s) := by
  simp [State.programUnit_sites] at hA
  simp (maxDischargeDepth := 99) [State.programUnit, hk, hA]

def execFallbackUnitProgram_sites : List Site :=
  State.programUnit_sites ++ State.shadowOnly_sites ++ State.snagPass_sites ++ State.startWriter_sites

theorem execFallbackUnitProgram_keeps {A : Scope} (s : State)
    (hA : A.covers execFallbackUnitProgram_sites) : KeepsOut A s (execFallbackUnitProgram s) := by
  simp [execFallbackUnitProgram_sites] at hA
  have hk := Keeps.refl A s
  unfold execFallbackUnitProgram
  repeat' (first
    | (intro x; clear_value x)
    | (generalize he : State.snagPass _ _ _ _ = p
       have hp : Keeps A s p.2 := by subst he; first | with_reducible assumption | simp (maxDischargeDepth := 99) +contextual [*]
       clear he
       obtain ⟨_, _⟩ := p)
    | (split <;> try lift_lets))
  all_goals first | (simp (maxDischargeDepth := 99) +contextual [*]; done) | simp_all (maxDischargeDepth := 99) +contextual

def execRecStoreFail_sites : List Site := State.shadowOnly_sites ++ State.storeFailed_sites

theorem execRecStoreFail_keeps {A : Scope} (kind : Nat) (s : State)
    (hA : A.covers execRecStoreFail_sites) : KeepsOut A s (execRecStoreFail kind s) := by
  simp [execRecStoreFail_sites] at hA
  have hk := Keeps.refl A s
  unfold execRecStoreFail
  repeat' (first
    | (intro x; clear_value x)
    | (split <;> try lift_lets))
  all_goals first | (simp (maxDischargeDepth := 99) +contextual [*]; done) | simp_all (maxDischargeDepth := 99) +contextual

def State.copyMirror_sites : List Site := [.one R.REC_STATUS, .part .recorder]

@[simp ↓] theorem State.copyMirror_keeps {A : Scope} {s₀ : State} (s : State) (hk : Keeps A s₀ s)
    (hA : A.covers State.copyMirror_sites) :
    Keeps A s₀ (State.copyMirror s) := by
  simp [State.copyMirror_sites] at hA
  simp (maxDischargeDepth := 99) [State.copyMirror, hk, hA]

def execRecordMirrorCopy_sites : List Site := State.copyMirror_sites

theorem execRecordMirrorCopy_keeps {A : Scope} (s : State)
    (hA : A.covers execRecordMirrorCopy_sites) : KeepsOut A s (execRecordMirrorCopy s) := by
  simp [execRecordMirrorCopy_sites] at hA
  simp (maxDischargeDepth := 99) [execRecordMirrorCopy, hA]

def execRecFwPost_sites : List Site := State.eventWith_sites ++ [.one R.REC_EVENTS, .one R.REC_FW_TYPE]

theorem execRecFwPost_keeps {A : Scope} (source : Nat) (typeLo : Nat) (severity : Nat) (s : State)
    (hA : A.covers execRecFwPost_sites) : KeepsOut A s (execRecFwPost source typeLo severity s) := by
  simp [execRecFwPost_sites] at hA
  simp (maxDischargeDepth := 99) [execRecFwPost, hA]

def execTimeAnchor_sites : List Site := State.eventWith_sites ++ [.one R.REC_ANCHOR_HI]

theorem execTimeAnchor_keeps {A : Scope} (hostHi : Nat) (attr : Nat) (s : State)
    (hA : A.covers execTimeAnchor_sites) : KeepsOut A s (execTimeAnchor hostHi attr s) := by
  simp [execTimeAnchor_sites] at hA
  simp (maxDischargeDepth := 99) [execTimeAnchor, hA]

def execRecClear_sites : List Site :=
  [.one R.REC_CTRL, .one R.REC_EVENTS, .one R.REC_NEXT, .one R.REC_STATUS, .part .recorder]

theorem execRecClear_keeps {A : Scope} (select : Nat) (s : State)
    (hA : A.covers execRecClear_sites) : KeepsOut A s (execRecClear select s) := by
  simp [execRecClear_sites] at hA
  simp (maxDischargeDepth := 99) [execRecClear, hA]

def State.writeLogCleared_sites : List Site :=
  State.coalesce_sites ++ State.takeSeq_sites ++ [.each R.REC_LOST, .one R.REC_NEXT, .one R.REC_STATUS, .part .recorder]

@[simp ↓] theorem State.writeLogCleared_keeps {A : Scope} {s₀ : State} (s : State) (c : Clearing) (hk : Keeps A s₀ s)
    (hA : A.covers State.writeLogCleared_sites) :
    Keeps A s₀ (State.writeLogCleared s c) := by
  simp [State.writeLogCleared_sites] at hA
  unfold State.writeLogCleared
  repeat' (first
    | (intro x; first
        | (have hx : Keeps A s₀ x := by
             subst x
             repeat' split
             all_goals first | with_reducible assumption | (simp (maxDischargeDepth := 99) +contextual [*]; done) | simp_all (maxDischargeDepth := 99) +contextual
           clear_value x)
        | clear_value x)
    | (generalize he : State.takeSeq _ = p
       have hp : Keeps A s₀ p.2 := by subst he; first | with_reducible assumption | simp (maxDischargeDepth := 99) +contextual [*]
       clear he
       obtain ⟨_, _⟩ := p)
    | (split <;> try lift_lets))
  all_goals first | (simp (maxDischargeDepth := 99) +contextual [*]; done) | simp_all (maxDischargeDepth := 99) +contextual

def execClearSectorErased_sites : List Site :=
  State.startWriter_sites ++ State.writeLogCleared_sites ++ [.one R.REC_EVENTS, .one R.REC_STATUS, .part .recorder]

theorem execClearSectorErased_keeps {A : Scope} (s : State)
    (hA : A.covers execClearSectorErased_sites) : KeepsOut A s (execClearSectorErased s) := by
  simp [execClearSectorErased_sites] at hA
  have hk := Keeps.refl A s
  unfold execClearSectorErased
  repeat' (first
    | (intro x; first
        | (have hx : Keeps A s x := by
             subst x
             repeat' split
             all_goals first | with_reducible assumption | (simp (maxDischargeDepth := 99) +contextual [*]; done) | simp_all (maxDischargeDepth := 99) +contextual
           clear_value x)
        | clear_value x)
    | (split <;> try lift_lets))
  all_goals first | (simp (maxDischargeDepth := 99) +contextual [*]; done) | simp_all (maxDischargeDepth := 99) +contextual

def State.chooseStore_sites : List Site := [.one R.REC_STATUS, .part .recorder]

@[simp ↓] theorem State.chooseStore_keeps {A : Scope} {s₀ : State} (s : State) (sound : Bool) (hk : Keeps A s₀ s)
    (hA : A.covers State.chooseStore_sites) :
    Keeps A s₀ (State.chooseStore s sound) := by
  simp [State.chooseStore_sites] at hA
  simp (maxDischargeDepth := 99) [State.chooseStore, hk, hA]

def State.recordTorn_sites : List Site := State.eventWith_sites ++ [.one R.REC_EVENTS]

@[simp ↓] theorem State.recordTorn_keeps {A : Scope} {s₀ : State} (s : State) (e : Stored) (hk : Keeps A s₀ s)
    (hA : A.covers State.recordTorn_sites) :
    Keeps A s₀ (State.recordTorn s e) := by
  simp [State.recordTorn_sites] at hA
  simp (maxDischargeDepth := 99) [State.recordTorn, hk, hA]

def execRecorderCastonScan_sites : List Site :=
  State.chooseStore_sites ++ State.recordTorn_sites ++ State.startWriter_sites ++ State.storeFailed_sites ++ [.one R.REC_NEXT,
    .one R.REC_SEQ, .one R.REC_STATUS, .part .recorder]

theorem execRecorderCastonScan_keeps {A : Scope} (sound : Bool) (s : State)
    (hA : A.covers execRecorderCastonScan_sites) : KeepsOut A s (execRecorderCastonScan sound s) := by
  simp [execRecorderCastonScan_sites] at hA
  have hk := Keeps.refl A s
  unfold execRecorderCastonScan
  repeat' (first
    | (intro x; first
        | (have hx : Keeps A s x := by
             subst x
             repeat' split
             all_goals first | with_reducible assumption | (simp (maxDischargeDepth := 99) +contextual [*]; done) | simp_all (maxDischargeDepth := 99) +contextual
           clear_value x)
        | clear_value x)
    | (split <;> try lift_lets))
  all_goals first | (simp (maxDischargeDepth := 99) +contextual [*]; done) | simp_all (maxDischargeDepth := 99) +contextual

end Sys2Proof.Machine
end

