-- ==== Sys2Proof/Laws/KeepsLedger.lean ====
section
/-!
SUPPORT. Sys2Proof/Laws/KeepsLedger.lean: the operations and meanings of Machine/Ledger.lean keep (Laws/Keeps.lean).
-/

set_option linter.all false
set_option Elab.async false

namespace Sys2Proof.Machine

def State.loadClass_sites : List Site := [.part .flow]

@[simp ↓] theorem State.loadClass_keeps {A : Scope} {s₀ : State} (s : State) (c : Nat) (n : Nat) (hk : Keeps A s₀ s)
    (hA : A.covers State.loadClass_sites) :
    Keeps A s₀ (State.loadClass s c n) := by
  simp [State.loadClass_sites] at hA
  simp (maxDischargeDepth := 99) [State.loadClass, hk, hA]

def State.accountRegs_sites : List Site := [.one R.KEEP_DIRTY, .one R.QUE_SLOTS]

@[simp ↓] theorem State.accountRegs_keeps {A : Scope} {s₀ : State} (s : State) (hk : Keeps A s₀ s)
    (hA : A.covers State.accountRegs_sites) :
    Keeps A s₀ (State.accountRegs s) := by
  simp [State.accountRegs_sites] at hA
  simp (maxDischargeDepth := 99) [State.accountRegs, hk, hA]

def State.transferNow_sites : List Site := State.accountRegs_sites ++ State.snagPass_sites ++ [.part .flow]

@[simp ↓] theorem State.transferNow_keeps {A : Scope} {s₀ : State} (s : State) (from_ : Nat) (dst : Nat) (n : Nat) (hk : Keeps A s₀ s)
    (hA : A.covers State.transferNow_sites) :
    Keeps A s₀ (State.transferNow s from_ dst n) := by
  simp [State.transferNow_sites] at hA
  simp (maxDischargeDepth := 99) [State.transferNow, hk, hA]

def State.transfer_sites : List Site := State.transferNow_sites ++ [.part .flow]

@[simp ↓] theorem State.transfer_keeps {A : Scope} {s₀ : State} (s : State) (from_ : Nat) (dst : Nat) (n : Nat) (hk : Keeps A s₀ s)
    (hA : A.covers State.transfer_sites) :
    Keeps A s₀ (State.transfer s from_ dst n) := by
  simp [State.transfer_sites] at hA
  simp (maxDischargeDepth := 99) [State.transfer, hk, hA]

def State.transferSet_sites : List Site := State.transfer_sites

@[simp ↓] theorem State.transferSet_keeps {A : Scope} {s₀ : State} (s : State) (l : List (Nat × Nat × Nat)) (hk : Keeps A s₀ s)
    (hA : A.covers State.transferSet_sites) :
    Keeps A s₀ (State.transferSet s l) := by
  simp [State.transferSet_sites] at hA
  simp (maxDischargeDepth := 99) +contextual [State.transferSet, hk, hA]

def State.releaseTransfers_sites : List Site := State.transferNow_sites ++ [.part .flow]

@[simp ↓] theorem State.releaseTransfers_keeps {A : Scope} {s₀ : State} (s : State) (hk : Keeps A s₀ s)
    (hA : A.covers State.releaseTransfers_sites) :
    Keeps A s₀ (State.releaseTransfers s) := by
  simp [State.releaseTransfers_sites] at hA
  unfold State.releaseTransfers
  repeat' (first
    | (intro x; clear_value x))
  all_goals first | (simp (maxDischargeDepth := 99) +contextual [*]; done) | simp_all (maxDischargeDepth := 99) +contextual

def State.ledgerFails_sites : List Site :=
  State.event_sites ++ State.noteFault_sites ++ State.postVendor_sites ++ [.one R.ORD_LEDGER_ACCTS, .one R.ORD_LEDGER_FAULTS,
    .one R.ORD_LEDGER_ROW_HI, .one R.ORD_LEDGER_ROW_LO, .one R.ORD_LEDGER_STATUS, .part .flow]

@[simp ↓] theorem State.ledgerFails_keeps {A : Scope} {s₀ : State} (s : State) (accts : Nat) (hk : Keeps A s₀ s)
    (hA : A.covers State.ledgerFails_sites) :
    Keeps A s₀ (State.ledgerFails s accts) := by
  simp [State.ledgerFails_sites] at hA
  simp (maxDischargeDepth := 99) [State.ledgerFails, hk, hA]

def State.ledgerPasses_sites : List Site := [.one R.ORD_LEDGER_STATUS, .part .flow]

@[simp ↓] theorem State.ledgerPasses_keeps {A : Scope} {s₀ : State} (s : State) (hk : Keeps A s₀ s)
    (hA : A.covers State.ledgerPasses_sites) :
    Keeps A s₀ (State.ledgerPasses s) := by
  simp [State.ledgerPasses_sites] at hA
  simp (maxDischargeDepth := 99) [State.ledgerPasses, hk, hA]

def State.recountNow_sites : List Site := State.event_sites ++ [.one R.ORD_LEDGER_STATUS, .part .flow]

@[simp ↓] theorem State.recountNow_keeps {A : Scope} {s₀ : State} (s : State) (hk : Keeps A s₀ s)
    (hA : A.covers State.recountNow_sites) :
    Keeps A s₀ (State.recountNow s) := by
  simp [State.recountNow_sites] at hA
  simp (maxDischargeDepth := 99) [State.recountNow, hk, hA]

def State.runCheck_sites : List Site :=
  State.ledgerFails_sites ++ State.ledgerPasses_sites ++ State.recountNow_sites ++ [.part .flow]

@[simp ↓] theorem State.runCheck_keeps {A : Scope} {s₀ : State} (s : State) (hk : Keeps A s₀ s)
    (hA : A.covers State.runCheck_sites) :
    Keeps A s₀ (State.runCheck s) := by
  simp [State.runCheck_sites] at hA
  simp (maxDischargeDepth := 99) [State.runCheck, hk, hA]

def execGuardStart_sites : List Site := [.one R.ROWT_STATUS]

theorem execGuardStart_keeps {A : Scope} (s : State)
    (hA : A.covers execGuardStart_sites) : KeepsOut A s (execGuardStart s) := by
  simp [execGuardStart_sites] at hA
  simp (maxDischargeDepth := 99) [execGuardStart, hA]

def execLedgerRecount_sites : List Site := [.one R.ORD_LEDGER_STATUS]

theorem execLedgerRecount_keeps {A : Scope} (s : State)
    (hA : A.covers execLedgerRecount_sites) : KeepsOut A s (execLedgerRecount s) := by
  simp [execLedgerRecount_sites] at hA
  simp (maxDischargeDepth := 99) [execLedgerRecount, hA]

def execLedgerRelease_sites : List Site := [.one R.ORD_LEDGER_STATUS]

theorem execLedgerRelease_keeps {A : Scope} (s : State)
    (hA : A.covers execLedgerRelease_sites) : KeepsOut A s (execLedgerRelease s) := by
  simp [execLedgerRelease_sites] at hA
  simp (maxDischargeDepth := 99) [execLedgerRelease, hA]

def State.enterWriteHold_sites : List Site := State.postVendor_sites ++ [.one R.ORD_LEDGER_STATUS, .part .flow]

@[simp ↓] theorem State.enterWriteHold_keeps {A : Scope} {s₀ : State} (s : State) (hk : Keeps A s₀ s)
    (hA : A.covers State.enterWriteHold_sites) :
    Keeps A s₀ (State.enterWriteHold s) := by
  simp [State.enterWriteHold_sites] at hA
  simp (maxDischargeDepth := 99) [State.enterWriteHold, hk, hA]

def State.leaveWriteHold_sites : List Site := State.event_sites ++ [.one R.ORD_LEDGER_STATUS, .part .flow]

@[simp ↓] theorem State.leaveWriteHold_keeps {A : Scope} {s₀ : State} (s : State) (hk : Keeps A s₀ s)
    (hA : A.covers State.leaveWriteHold_sites) :
    Keeps A s₀ (State.leaveWriteHold s) := by
  simp [State.leaveWriteHold_sites] at hA
  simp (maxDischargeDepth := 99) [State.leaveWriteHold, hk, hA]

def execWriteHoldEnter_sites : List Site := State.enterWriteHold_sites

theorem execWriteHoldEnter_keeps {A : Scope} (s : State)
    (hA : A.covers execWriteHoldEnter_sites) : KeepsOut A s (execWriteHoldEnter s) := by
  simp [execWriteHoldEnter_sites] at hA
  simp (maxDischargeDepth := 99) [execWriteHoldEnter, hA]

end Sys2Proof.Machine
end

