-- ==== Sys2Proof/Laws/KeepsDrive.lean ====
section
/-!
SUPPORT. Sys2Proof/Laws/KeepsDrive.lean: the operations and meanings of Machine/Drive.lean keep (Laws/Keeps.lean).
-/

set_option linter.all false
set_option Elab.async false

namespace Sys2Proof.Machine

def State.driveMa_sites : List Site := [.part .acts]

@[simp ↓] theorem State.driveMa_keeps {A : Scope} {s₀ : State} (s : State) (a : Nat) (hk : Keeps A s₀ s)
    (hA : A.covers State.driveMa_sites) :
    Keeps A s₀ (State.driveMa s a) := by
  simp [State.driveMa_sites] at hA
  simp (maxDischargeDepth := 99) [State.driveMa, hk, hA]

def State.pendMode_sites : List Site := [.each R.NDL_STATUS, .part .needles]

@[simp ↓] theorem State.pendMode_keeps {A : Scope} {s₀ : State} (s : State) (n : Nat) (m : Nat) (hk : Keeps A s₀ s)
    (hA : A.covers State.pendMode_sites) :
    Keeps A s₀ (State.pendMode s n m) := by
  simp [State.pendMode_sites] at hA
  simp (maxDischargeDepth := 99) [State.pendMode, hk, hA]

def State.abandonCalibration_sites : List Site := [.one R.GAU_EVENTS, .one R.GAU_STATUS, .part .gauge]

@[simp ↓] theorem State.abandonCalibration_keeps {A : Scope} {s₀ : State} (s : State) (hk : Keeps A s₀ s)
    (hA : A.covers State.abandonCalibration_sites) :
    Keeps A s₀ (State.abandonCalibration s) := by
  simp [State.abandonCalibration_sites] at hA
  unfold State.abandonCalibration
  repeat' (first
    | (intro x; first
        | (have hx : Keeps A s₀ x := by
             subst x
             repeat' split
             all_goals first | with_reducible assumption | (simp (maxDischargeDepth := 99) +contextual [*]; done) | simp_all (maxDischargeDepth := 99) +contextual
           clear_value x)
        | clear_value x)
    | (split <;> try lift_lets))
  all_goals first | (simp (maxDischargeDepth := 99) +contextual [*]; done) | simp_all (maxDischargeDepth := 99) +contextual

def State.abandonIf_sites : List Site := State.abandonCalibration_sites

@[simp ↓] theorem State.abandonIf_keeps {A : Scope} {s₀ : State} (s : State) (p : Calibration → Bool) (hk : Keeps A s₀ s)
    (hA : A.covers State.abandonIf_sites) :
    Keeps A s₀ (State.abandonIf s p) := by
  simp [State.abandonIf_sites] at hA
  unfold State.abandonIf
  repeat' (first
    | (intro x; clear_value x)
    | (split <;> try lift_lets))
  all_goals first | (simp (maxDischargeDepth := 99) +contextual [*]; done) | simp_all (maxDischargeDepth := 99) +contextual

def State.lowerAen_sites : List Site := [.each R.ACT_STATUS, .part .pins, .part .acts]

@[simp ↓] theorem State.lowerAen_keeps {A : Scope} {s₀ : State} (s : State) (a : Nat) (t : Nat) (hk : Keeps A s₀ s)
    (hA : A.covers State.lowerAen_sites) :
    Keeps A s₀ (State.lowerAen s a t) := by
  simp [State.lowerAen_sites] at hA
  simp (maxDischargeDepth := 99) [State.lowerAen, hk, hA]

def State.lowerWg_sites : List Site := [.each R.ACT_STATUS, .part .pins]

@[simp ↓] theorem State.lowerWg_keeps {A : Scope} {s₀ : State} (s : State) (a : Nat) (hk : Keeps A s₀ s)
    (hA : A.covers State.lowerWg_sites) :
    Keeps A s₀ (State.lowerWg s a) := by
  simp [State.lowerWg_sites] at hA
  simp (maxDischargeDepth := 99) [State.lowerWg, hk, hA]

def State.wgDropped_sites : List Site := [.each R.ACT_EVENTS, .part .flow]

@[simp ↓] theorem State.wgDropped_keeps {A : Scope} {s₀ : State} (s : State) (a : Nat) (hk : Keeps A s₀ s)
    (hA : A.covers State.wgDropped_sites) :
    Keeps A s₀ (State.wgDropped s a) := by
  simp [State.wgDropped_sites] at hA
  simp (maxDischargeDepth := 99) [State.wgDropped, hk, hA]

def State.gate_sites : List Site :=
  State.lowerAen_sites ++ State.lowerWg_sites ++ State.wgDropped_sites ++ [.each R.ACT_WSTOP]

@[simp ↓] theorem State.gate_keeps {A : Scope} {s₀ : State} (s : State) (a : Nat) (hk : Keeps A s₀ s)
    (hA : A.covers State.gate_sites) :
    Keeps A s₀ (State.gate s a) := by
  simp [State.gate_sites] at hA
  simp (maxDischargeDepth := 99) [State.gate, hk, hA]

def State.gates_sites : List Site := State.gate_sites

@[simp ↓] theorem State.gates_keeps {A : Scope} {s₀ : State} (s : State) (hk : Keeps A s₀ s)
    (hA : A.covers State.gates_sites) :
    Keeps A s₀ (State.gates s) := by
  simp [State.gates_sites] at hA
  simp (maxDischargeDepth := 99) [State.gates, hk, hA]

def State.endGate_sites : List Site := State.lowerAen_sites ++ State.lowerWg_sites

@[simp ↓] theorem State.endGate_keeps {A : Scope} {s₀ : State} (s : State) (a : Nat) (hk : Keeps A s₀ s)
    (hA : A.covers State.endGate_sites) :
    Keeps A s₀ (State.endGate s a) := by
  simp [State.endGate_sites] at hA
  simp (maxDischargeDepth := 99) [State.endGate, hk, hA]

def State.queueFrames_sites : List Site := [.part .acts]

@[simp ↓] theorem State.queueFrames_keeps {A : Scope} {s₀ : State} (s : State) (a : Nat) (l : List Frame) (hk : Keeps A s₀ s)
    (hA : A.covers State.queueFrames_sites) :
    Keeps A s₀ (State.queueFrames s a l) := by
  simp [State.queueFrames_sites] at hA
  simp (maxDischargeDepth := 99) [State.queueFrames, hk, hA]

def State.heatersOff_sites : List Site := State.queueFrames_sites ++ [.part .acts]

@[simp ↓] theorem State.heatersOff_keeps {A : Scope} {s₀ : State} (s : State) (a : Nat) (hk : Keeps A s₀ s)
    (hA : A.covers State.heatersOff_sites) :
    Keeps A s₀ (State.heatersOff s a) := by
  simp [State.heatersOff_sites] at hA
  simp (maxDischargeDepth := 99) [State.heatersOff, hk, hA]

def State.requestHead_sites : List Site := [.each R.ACT_EVENTS, .part .acts]

@[simp ↓] theorem State.requestHead_keeps {A : Scope} {s₀ : State} (s : State) (a : Nat) (h : Nat) (hk : Keeps A s₀ s)
    (hA : A.covers State.requestHead_sites) :
    Keeps A s₀ (State.requestHead s a h) := by
  simp [State.requestHead_sites] at hA
  simp (maxDischargeDepth := 99) [State.requestHead, hk, hA]

def State.followHead_sites : List Site := State.requestHead_sites

@[simp ↓] theorem State.followHead_keeps {A : Scope} {s₀ : State} (s : State) (a : Nat) (hk : Keeps A s₀ s)
    (hA : A.covers State.followHead_sites) :
    Keeps A s₀ (State.followHead s a) := by
  simp [State.followHead_sites] at hA
  simp (maxDischargeDepth := 99) [State.followHead, hk, hA]

def State.preheat_sites : List Site := State.queueFrames_sites ++ [.part .acts]

@[simp ↓] theorem State.preheat_keeps {A : Scope} {s₀ : State} (s : State) (a : Nat) (h : Nat) (hk : Keeps A s₀ s)
    (hA : A.covers State.preheat_sites) :
    Keeps A s₀ (State.preheat s a h) := by
  simp [State.preheat_sites] at hA
  simp (maxDischargeDepth := 99) [State.preheat, hk, hA]

def State.readHeat_sites : List Site := State.queueFrames_sites ++ [.part .acts]

@[simp ↓] theorem State.readHeat_keeps {A : Scope} {s₀ : State} (s : State) (a : Nat) (hk : Keeps A s₀ s)
    (hA : A.covers State.readHeat_sites) :
    Keeps A s₀ (State.readHeat s a) := by
  simp [State.readHeat_sites] at hA
  simp (maxDischargeDepth := 99) [State.readHeat, hk, hA]

def State.followOps_sites : List Site := State.followHead_sites ++ State.readHeat_sites

@[simp ↓] theorem State.followOps_keeps {A : Scope} {s₀ : State} (s : State) (a : Nat) (hk : Keeps A s₀ s)
    (hA : A.covers State.followOps_sites) :
    Keeps A s₀ (State.followOps s a) := by
  simp [State.followOps_sites] at hA
  simp (maxDischargeDepth := 99) [State.followOps, hk, hA]

def State.leaveMedia_sites : List Site :=
  State.abandonIf_sites ++ State.gate_sites ++ State.heatersOff_sites ++ State.pendMode_sites ++ [.each R.ACT_STATUS, .part
    .acts]

@[simp ↓] theorem State.leaveMedia_keeps {A : Scope} {s₀ : State} (s : State) (a : Nat) (st : Nat) (coil : Coil) (hk : Keeps A s₀ s)
    (hA : A.covers State.leaveMedia_sites) :
    Keeps A s₀ (State.leaveMedia s a st coil) := by
  simp [State.leaveMedia_sites] at hA
  unfold State.leaveMedia
  try lift_lets
  repeat' (first
    | (intro x; first
        | (have hx : Keeps A s₀ x := by
             subst x
             repeat' split
             all_goals first | with_reducible assumption | (simp (maxDischargeDepth := 99) +contextual [*]; done) | simp_all (maxDischargeDepth := 99) +contextual
           clear_value x)
        | clear_value x))
  all_goals first | (simp (maxDischargeDepth := 99) +contextual [*]; done) | simp_all (maxDischargeDepth := 99) +contextual

def State.startUnload_sites : List Site := State.leaveMedia_sites

@[simp ↓] theorem State.startUnload_keeps {A : Scope} {s₀ : State} (s : State) (a : Nat) (hk : Keeps A s₀ s)
    (hA : A.covers State.startUnload_sites) :
    Keeps A s₀ (State.startUnload s a) := by
  simp [State.startUnload_sites] at hA
  simp (maxDischargeDepth := 99) [State.startUnload, hk, hA]

def State.eretract_sites : List Site := State.leaveMedia_sites ++ [.each R.ACT_COUNTS, .each R.ACT_STATUS]

@[simp ↓] theorem State.eretract_keeps {A : Scope} {s₀ : State} (s : State) (a : Nat) (cause : Nat) (hk : Keeps A s₀ s)
    (hA : A.covers State.eretract_sites) :
    Keeps A s₀ (State.eretract s a cause) := by
  simp [State.eretract_sites] at hA
  simp (maxDischargeDepth := 99) [State.eretract, hk, hA]

def State.eretractBoth_sites : List Site := State.eretract_sites

@[simp ↓] theorem State.eretractBoth_keeps {A : Scope} {s₀ : State} (s : State) (cause : Nat) (hk : Keeps A s₀ s)
    (hA : A.covers State.eretractBoth_sites) :
    Keeps A s₀ (State.eretractBoth s cause) := by
  simp [State.eretractBoth_sites] at hA
  simp (maxDischargeDepth := 99) [State.eretractBoth, hk, hA]

def State.unloaded_sites : List Site :=
  State.gate_sites ++ State.pendMode_sites ++ [.each R.ACT_STATUS, .each R.NDL_MANUAL, .part .acts]

@[simp ↓] theorem State.unloaded_keeps {A : Scope} {s₀ : State} (s : State) (a : Nat) (event : Fld) (hk : Keeps A s₀ s)
    (hevent : A.reg event.addr) (hA : A.covers State.unloaded_sites) :
    Keeps A s₀ (State.unloaded s a event) := by
  simp [State.unloaded_sites] at hA
  unfold State.unloaded
  try lift_lets
  repeat' (first
    | (intro x; first
        | (have hx : Keeps A s₀ x := by
             subst x
             repeat' split
             all_goals first | with_reducible assumption | (simp (maxDischargeDepth := 99) +contextual [*]; done) | simp_all (maxDischargeDepth := 99) +contextual
           clear_value x)
        | clear_value x))
  all_goals first | (simp (maxDischargeDepth := 99) +contextual [*]; done) | simp_all (maxDischargeDepth := 99) +contextual

def State.finishRetracts_sites : List Site := State.unloaded_sites ++ [.each R.ACT_EVENTS]

@[simp ↓] theorem State.finishRetracts_keeps {A : Scope} {s₀ : State} (s : State) (hk : Keeps A s₀ s)
    (hA : A.covers State.finishRetracts_sites) :
    Keeps A s₀ (State.finishRetracts s) := by
  simp [State.finishRetracts_sites] at hA
  unfold State.finishRetracts
  repeat' (first
    | (intro x; clear_value x))
  all_goals first | (simp (maxDischargeDepth := 99) +contextual [*]; done) | simp_all (maxDischargeDepth := 99) +contextual

end Sys2Proof.Machine
end

