-- ==== Sys2Proof/Laws/KeepsActuator.lean ====
section
/-!
SUPPORT. Sys2Proof/Laws/KeepsActuator.lean: the operations and meanings of Machine/Actuator.lean keep (Laws/Keeps.lean).
-/

set_option linter.all false
set_option Elab.async false

namespace Sys2Proof.Machine

def execVcmCurrentLoop_sites : List Site := [.part .acts]

theorem execVcmCurrentLoop_keeps {A : Scope} (a : Nat) (mv : Int) (ma : Int) (rate : Int) (s : State)
    (hA : A.covers execVcmCurrentLoop_sites) : KeepsOut A s (execVcmCurrentLoop a mv ma rate s) := by
  simp [execVcmCurrentLoop_sites] at hA
  simp (maxDischargeDepth := 99) [execVcmCurrentLoop, hA]

def State.refuseAct_sites : List Site := [.each R.ACT_EVENTS, .each R.ACT_STATUS]

@[simp ↓] theorem State.refuseAct_keeps {A : Scope} {s₀ : State} (s : State) (a : Nat) (code : Nat) (hk : Keeps A s₀ s)
    (hA : A.covers State.refuseAct_sites) :
    Keeps A s₀ (State.refuseAct s a code) := by
  simp [State.refuseAct_sites] at hA
  simp (maxDischargeDepth := 99) [State.refuseAct, hk, hA]

def execActLoad_sites : List Site := State.gate_sites ++ State.refuseAct_sites ++ [.each R.ACT_STATUS, .part .acts]

theorem execActLoad_keeps {A : Scope} (a : Nat) (s : State)
    (hA : A.covers execActLoad_sites) : KeepsOut A s (execActLoad a s) := by
  simp [execActLoad_sites] at hA
  simp (maxDischargeDepth := 99) [execActLoad, hA]

def execActUnload_sites : List Site := State.startUnload_sites

theorem execActUnload_keeps {A : Scope} (a : Nat) (s : State)
    (hA : A.covers execActUnload_sites) : KeepsOut A s (execActUnload a s) := by
  simp [execActUnload_sites] at hA
  simp (maxDischargeDepth := 99) [execActUnload, hA]

def execActEretract_sites : List Site := State.eretract_sites

theorem execActEretract_keeps {A : Scope} (a : Nat) (s : State)
    (hA : A.covers execActEretract_sites) : KeepsOut A s (execActEretract a s) := by
  simp [execActEretract_sites] at hA
  simp (maxDischargeDepth := 99) [execActEretract, hA]

def execRetractConstantPhase_sites : List Site := [.part .acts]

theorem execRetractConstantPhase_keeps {A : Scope} (a : Nat) (s : State)
    (hA : A.covers execRetractConstantPhase_sites) : KeepsOut A s (execRetractConstantPhase a s) := by
  simp [execRetractConstantPhase_sites] at hA
  simp (maxDischargeDepth := 99) [execRetractConstantPhase, hA]

def execLoadComplete_sites : List Site :=
  State.driveMa_sites ++ State.gate_sites ++ [.each R.ACT_EVENTS, .each R.ACT_STATUS, .each R.NDL_MANUAL, .each R.NDL_OUT,
    .part .acts]

theorem execLoadComplete_keeps {A : Scope} (a : Nat) (inductance : Nat) (s : State)
    (hA : A.covers execLoadComplete_sites) : KeepsOut A s (execLoadComplete a inductance s) := by
  simp [execLoadComplete_sites] at hA
  have hk := Keeps.refl A s
  unfold execLoadComplete
  repeat' (first
    | (intro x; first
        | (have hx : Keeps A s x := by
             subst x
             repeat' split
             all_goals first | with_reducible assumption | (simp (maxDischargeDepth := 99) +contextual [*]; done) | simp_all (maxDischargeDepth := 99) +contextual
           clear_value x)
        | clear_value x)
    | (split <;> try lift_lets))
  all_goals first | (simp (maxDischargeDepth := 99) +contextual [*]; done) | simp_all (maxDischargeDepth := 99) +contextual

def execLoadTimeout_sites : List Site := State.startUnload_sites ++ [.each R.ACT_EVENTS]

theorem execLoadTimeout_keeps {A : Scope} (a : Nat) (s : State)
    (hA : A.covers execLoadTimeout_sites) : KeepsOut A s (execLoadTimeout a s) := by
  simp [execLoadTimeout_sites] at hA
  simp (maxDischargeDepth := 99) [execLoadTimeout, hA]

def execUnloadRampStop_sites : List Site := [.part .acts]

theorem execUnloadRampStop_keeps {A : Scope} (a : Nat) (s : State)
    (hA : A.covers execUnloadRampStop_sites) : KeepsOut A s (execUnloadRampStop a s) := by
  simp [execUnloadRampStop_sites] at hA
  simp (maxDischargeDepth := 99) [execUnloadRampStop, hA]

def execUnloadTimeout_sites : List Site := State.eretract_sites

theorem execUnloadTimeout_keeps {A : Scope} (a : Nat) (s : State)
    (hA : A.covers execUnloadTimeout_sites) : KeepsOut A s (execUnloadTimeout a s) := by
  simp [execUnloadTimeout_sites] at hA
  simp (maxDischargeDepth := 99) [execUnloadTimeout, hA]

def State.startLink_sites : List Site := [.part .acts]

@[simp ↓] theorem State.startLink_keeps {A : Scope} {s₀ : State} (s : State) (a : Nat) (hk : Keeps A s₀ s)
    (hA : A.covers State.startLink_sites) :
    Keeps A s₀ (State.startLink s a) := by
  simp [State.startLink_sites] at hA
  simp (maxDischargeDepth := 99) [State.startLink, hk, hA]

def State.enableLink_sites : List Site := State.gate_sites ++ State.startLink_sites ++ [.each R.ACT_CTRL]

@[simp ↓] theorem State.enableLink_keeps {A : Scope} {s₀ : State} (s : State) (a : Nat) (hk : Keeps A s₀ s)
    (hA : A.covers State.enableLink_sites) :
    Keeps A s₀ (State.enableLink s a) := by
  simp [State.enableLink_sites] at hA
  simp (maxDischargeDepth := 99) [State.enableLink, hk, hA]

def execActLinkEnable_sites : List Site := State.enableLink_sites

theorem execActLinkEnable_keeps {A : Scope} (a : Nat) (s : State)
    (hA : A.covers execActLinkEnable_sites) : KeepsOut A s (execActLinkEnable a s) := by
  simp [execActLinkEnable_sites] at hA
  simp (maxDischargeDepth := 99) [execActLinkEnable, hA]

def execActLinkClear_sites : List Site := [.part .acts]

theorem execActLinkClear_keeps {A : Scope} (a : Nat) (s : State)
    (hA : A.covers execActLinkClear_sites) : KeepsOut A s (execActLinkClear a s) := by
  simp [execActLinkClear_sites] at hA
  simp (maxDischargeDepth := 99) [execActLinkClear, hA]

def State.linkGo_sites : List Site := [.each R.ACT_LINK_CMD, .each R.ACT_LINK_RESP, .part .acts]

@[simp ↓] theorem State.linkGo_keeps {A : Scope} {s₀ : State} (s : State) (a : Nat) (addr : Nat) (read : Bool) (data : Nat) (hk : Keeps A s₀ s)
    (hA : A.covers State.linkGo_sites) :
    Keeps A s₀ (State.linkGo s a addr read data) := by
  simp [State.linkGo_sites] at hA
  simp (maxDischargeDepth := 99) [State.linkGo, hk, hA]

def execActLinkGo_sites : List Site := State.linkGo_sites

theorem execActLinkGo_keeps {A : Scope} (a : Nat) (addr : Nat) (read : Bool) (data : Nat) (s : State)
    (hA : A.covers execActLinkGo_sites) : KeepsOut A s (execActLinkGo a addr read data s) := by
  simp [execActLinkGo_sites] at hA
  simp (maxDischargeDepth := 99) [execActLinkGo, hA]

def State.frameDone_sites : List Site :=
  State.gate_sites ++ [.each R.ACT_EVENTS, .each R.ACT_LINK_RESP, .each R.ACT_STATUS, .part .acts]

@[simp ↓] theorem State.frameDone_keeps {A : Scope} {s₀ : State} (s : State) (a : Nat) (f : Frame) (t : Nat) (status : Nat) (data : Nat) (hk : Keeps A s₀ s)
    (hA : A.covers State.frameDone_sites) :
    Keeps A s₀ (State.frameDone s a f t status data) := by
  simp [State.frameDone_sites] at hA
  unfold State.frameDone
  repeat' (first
    | (intro x; first
        | (have hx : Keeps A s₀ x := by
             subst x
             repeat' split
             all_goals first | with_reducible assumption | (simp (maxDischargeDepth := 99) +contextual [*]; done) | simp_all (maxDischargeDepth := 99) +contextual
           clear_value x)
        | clear_value x)
    | (split <;> try lift_lets))
  all_goals first | (simp (maxDischargeDepth := 99) +contextual [*]; done) | simp_all (maxDischargeDepth := 99) +contextual

def State.linkFault_sites : List Site :=
  State.event_sites ++ State.followHead_sites ++ State.gate_sites ++ [.each R.ACT_EVENTS, .each R.ACT_LINK_RESP, .each
    R.ACT_STATUS, .part .acts]

@[simp ↓] theorem State.linkFault_keeps {A : Scope} {s₀ : State} (s : State) (a : Nat) (f : Frame) (hk : Keeps A s₀ s)
    (hA : A.covers State.linkFault_sites) :
    Keeps A s₀ (State.linkFault s a f) := by
  simp [State.linkFault_sites] at hA
  unfold State.linkFault
  repeat' (first
    | (intro x; first
        | (have hx : Keeps A s₀ x := by
             subst x
             repeat' split
             all_goals first | with_reducible assumption | (simp (maxDischargeDepth := 99) +contextual [*]; done) | simp_all (maxDischargeDepth := 99) +contextual
           clear_value x)
        | clear_value x)
    | (split <;> try lift_lets))
  all_goals first | (simp (maxDischargeDepth := 99) +contextual [*]; done) | simp_all (maxDischargeDepth := 99) +contextual

def State.frameFailed_sites : List Site := State.linkFault_sites ++ [.each R.ACT_COUNTS, .part .acts]

@[simp ↓] theorem State.frameFailed_keeps {A : Scope} {s₀ : State} (s : State) (a : Nat) (f : Frame) (hk : Keeps A s₀ s)
    (hA : A.covers State.frameFailed_sites) :
    Keeps A s₀ (State.frameFailed s a f) := by
  simp [State.frameFailed_sites] at hA
  simp (maxDischargeDepth := 99) [State.frameFailed, hk, hA]

def execPreampFrame_sites : List Site :=
  State.frameDone_sites ++ State.frameFailed_sites ++ State.snagPass_sites ++ [.part .row, .part .acts]

theorem execPreampFrame_keeps {A : Scope} (a : Nat) (t : Nat) (crc : Nat) (x : PreampAnswer) (s : State)
    (hA : A.covers execPreampFrame_sites) : KeepsOut A s (execPreampFrame a t crc x s) := by
  simp [execPreampFrame_sites] at hA
  have hk := Keeps.refl A s
  unfold execPreampFrame
  repeat' (first
    | (intro x; first
        | (have hx : Keeps A s x := by
             subst x
             repeat' split
             all_goals first | with_reducible assumption | (simp (maxDischargeDepth := 99) +contextual [*]; done) | simp_all (maxDischargeDepth := 99) +contextual
           clear_value x)
        | clear_value x)
    | (split <;> try lift_lets))
  all_goals first | (simp (maxDischargeDepth := 99) +contextual [*]; done) | simp_all (maxDischargeDepth := 99) +contextual

def execHeadRequest_sites : List Site := State.followHead_sites ++ [.each R.ACT_CTRL, .each R.ACT_EVENTS]

theorem execHeadRequest_keeps {A : Scope} (a : Nat) (head : Nat) (s : State)
    (hA : A.covers execHeadRequest_sites) : KeepsOut A s (execHeadRequest a head s) := by
  simp [execHeadRequest_sites] at hA
  simp (maxDischargeDepth := 99) [execHeadRequest, hA]

def execHeadSelect_sites : List Site := State.gate_sites ++ State.queueFrames_sites ++ [.part .row, .part .acts]

theorem execHeadSelect_keeps {A : Scope} (a : Nat) (t : Nat) (s : State)
    (hA : A.covers execHeadSelect_sites) : KeepsOut A s (execHeadSelect a t s) := by
  simp [execHeadSelect_sites] at hA
  have hk := Keeps.refl A s
  unfold execHeadSelect
  repeat' (first
    | (intro x; first
        | (have hx : Keeps A s x := by
             subst x
             repeat' split
             all_goals first | with_reducible assumption | (simp (maxDischargeDepth := 99) +contextual [*]; done) | simp_all (maxDischargeDepth := 99) +contextual
           clear_value x)
        | clear_value x)
    | (split <;> try lift_lets))
  all_goals first | (simp (maxDischargeDepth := 99) +contextual [*]; done) | simp_all (maxDischargeDepth := 99) +contextual

def State.settleElapsed_sites : List Site := [.part .acts]

@[simp ↓] theorem State.settleElapsed_keeps {A : Scope} {s₀ : State} (s : State) (a : Nat) (t : Nat) (hk : Keeps A s₀ s)
    (hA : A.covers State.settleElapsed_sites) :
    Keeps A s₀ (State.settleElapsed s a t) := by
  simp [State.settleElapsed_sites] at hA
  unfold State.settleElapsed
  repeat' (first
    | (intro x; clear_value x)
    | (split <;> try lift_lets))
  all_goals first | (simp (maxDischargeDepth := 99) +contextual [*]; done) | simp_all (maxDischargeDepth := 99) +contextual

def execAenLeadStart_sites : List Site :=
  State.gate_sites ++ State.settleElapsed_sites ++ [.each R.ACT_STATUS, .part .row, .part .pins, .part .acts]

theorem execAenLeadStart_keeps {A : Scope} (a : Nat) (slice : Nat) (t : Nat) (s : State)
    (hA : A.covers execAenLeadStart_sites) : KeepsOut A s (execAenLeadStart a slice t s) := by
  simp [execAenLeadStart_sites] at hA
  simp (maxDischargeDepth := 99) [execAenLeadStart, hA]

def execWriteGateRaise_sites : List Site := [.each R.ACT_STATUS, .part .row, .part .pins, .part .acts]

theorem execWriteGateRaise_keeps {A : Scope} (a : Nat) (t : Nat) (s : State)
    (hA : A.covers execWriteGateRaise_sites) : KeepsOut A s (execWriteGateRaise a t s) := by
  simp [execWriteGateRaise_sites] at hA
  simp (maxDischargeDepth := 99) [execWriteGateRaise, hA]

def execLaserCut_sites : List Site :=
  State.event_sites ++ State.gate_sites ++ State.lowerAen_sites ++ [.each R.ACT_COUNTS, .each R.ACT_EVENTS, .part .row, .part
    .acts]

theorem execLaserCut_keeps {A : Scope} (a : Nat) (t : Nat) (s : State)
    (hA : A.covers execLaserCut_sites) : KeepsOut A s (execLaserCut a t s) := by
  simp [execLaserCut_sites] at hA
  simp (maxDischargeDepth := 99) [execLaserCut, hA]

def State.revolution_sites : List Site := State.gate_sites ++ [.grid R.ACT_HEAD_LLIM, .part .acts]

@[simp ↓] theorem State.revolution_keeps {A : Scope} {s₀ : State} (s : State) (a : Nat) (hk : Keeps A s₀ s)
    (hA : A.covers State.revolution_sites) :
    Keeps A s₀ (State.revolution s a) := by
  simp [State.revolution_sites] at hA
  unfold State.revolution
  repeat' (first
    | (intro x; clear_value x))
  all_goals first | (simp (maxDischargeDepth := 99) +contextual [*]; done) | simp_all (maxDischargeDepth := 99) +contextual

def execActDisable_sites : List Site :=
  State.gate_sites ++ State.startLink_sites ++ [.each R.ACT_CTRL, .each R.ACT_EVENTS, .part .acts]

theorem execActDisable_keeps {A : Scope} (a : Nat) (disable : Bool) (s : State)
    (hA : A.covers execActDisable_sites) : KeepsOut A s (execActDisable a disable s) := by
  simp [execActDisable_sites] at hA
  simp (maxDischargeDepth := 99) [execActDisable, hA]

end Sys2Proof.Machine
end

