-- ==== Sys2Proof/Laws/KeepsSlots.lean ====
section
/-!
SUPPORT. Sys2Proof/Laws/KeepsSlots.lean: the operations and meanings of Machine/Slots.lean keep (Laws/Keeps.lean).
-/

set_option linter.all false
set_option Elab.async false

namespace Sys2Proof.Machine

def State.modSlot_sites : List Site := [.part .flow]

@[simp ↓] theorem State.modSlot_keeps {A : Scope} {s₀ : State} (s : State) (n : Nat) (f : Slot → Slot) (hk : Keeps A s₀ s)
    (hA : A.covers State.modSlot_sites) :
    Keeps A s₀ (State.modSlot s n f) := by
  simp [State.modSlot_sites] at hA
  simp (maxDischargeDepth := 99) [State.modSlot, hk, hA]

def State.freeSlot_sites : List Site :=
  State.transfer_sites ++ [.one R.SCH_SLOT_DIRTY, .part .host, .part .flow, .part .upd]

@[simp ↓] theorem State.freeSlot_keeps {A : Scope} {s₀ : State} (s : State) (n : Nat) (hk : Keeps A s₀ s)
    (hA : A.covers State.freeSlot_sites) :
    Keeps A s₀ (State.freeSlot s n) := by
  simp [State.freeSlot_sites] at hA
  simp (maxDischargeDepth := 99) [State.freeSlot, hk, hA]

def State.tlpPass_sites : List Site := State.snagPass_sites ++ [.each R.HIF_PORT_ERR]

@[simp ↓] theorem State.tlpPass_keeps {A : Scope} {s₀ : State} (s : State) (port : Nat) (received : Bool) (hk : Keeps A s₀ s)
    (hA : A.covers State.tlpPass_sites) :
    Keeps A s₀ (State.tlpPass s port received) := by
  simp [State.tlpPass_sites] at hA
  unfold State.tlpPass
  repeat' (first
    | (intro x; clear_value x)
    | (generalize he : State.snagPass _ _ _ _ = p
       have hp : Keeps A s₀ p.2 := by subst he; first | with_reducible assumption | simp (maxDischargeDepth := 99) +contextual [*]
       clear he
       obtain ⟨_, _⟩ := p)
    | (split <;> try lift_lets))
  all_goals first | (simp (maxDischargeDepth := 99) +contextual [*]; done) | simp_all (maxDischargeDepth := 99) +contextual

def State.postCompletion_sites : List Site :=
  State.modRing_sites ++ State.modSlot_sites ++ State.raiseVector_sites ++ State.send_sites ++ State.tlpPass_sites ++ [.part
    .host, .part .flow]

@[simp ↓] theorem State.postCompletion_keeps {A : Scope} {s₀ : State} (s : State) (n : Nat) (status : Nat) (dw0 : Nat) (hk : Keeps A s₀ s)
    (hA : A.covers State.postCompletion_sites) :
    Keeps A s₀ (State.postCompletion s n status dw0) := by
  simp [State.postCompletion_sites] at hA
  unfold State.postCompletion
  repeat' (first
    | (intro x; first
        | (have hx : Keeps A s₀ x := by
             subst x
             repeat' split
             all_goals first | with_reducible assumption | (simp (maxDischargeDepth := 99) +contextual [*]; done) | simp_all (maxDischargeDepth := 99) +contextual
           clear_value x)
        | clear_value x)
    | (split <;> try lift_lets))
  all_goals first | (simp (maxDischargeDepth := 99) +contextual [*]; done) | simp_all (maxDischargeDepth := 99) +contextual

def State.completeSlot_sites : List Site := State.freeSlot_sites ++ State.postCompletion_sites

@[simp ↓] theorem State.completeSlot_keeps {A : Scope} {s₀ : State} (s : State) (n : Nat) (status : Nat) (dw0 : Nat) (hk : Keeps A s₀ s)
    (hA : A.covers State.completeSlot_sites) :
    Keeps A s₀ (State.completeSlot s n status dw0) := by
  simp [State.completeSlot_sites] at hA
  simp (maxDischargeDepth := 99) [State.completeSlot, hk, hA]

def State.sendBytes_sites : List Site := State.send_sites ++ [.part .host]

@[simp ↓] theorem State.sendBytes_keeps {A : Scope} {s₀ : State} (s : State) (x : Slot) (bytes : List Byte) (hk : Keeps A s₀ s)
    (hA : A.covers State.sendBytes_sites) :
    Keeps A s₀ (State.sendBytes s x bytes) := by
  simp [State.sendBytes_sites] at hA
  simp (maxDischargeDepth := 99) [State.sendBytes, hk, hA]

def State.logError_sites : List Site := State.modController_sites

@[simp ↓] theorem State.logError_keeps {A : Scope} {s₀ : State} (s : State) (c : Nat) (status : Nat) (lba : Nat) (hk : Keeps A s₀ s)
    (hA : A.covers State.logError_sites) :
    Keeps A s₀ (State.logError s c status lba) := by
  simp [State.logError_sites] at hA
  simp (maxDischargeDepth := 99) [State.logError, hk, hA]

def State.abortActivation_sites : List Site :=
  State.completeSlot_sites ++ State.event_sites ++ [.one R.SYS_PAIR_STATUS, .one R.UPD_ERR, .one R.UPD_EVENTS, .one
    R.UPD_HANDOVER, .one R.UPD_STATUS, .part .host, .part .upd]

@[simp ↓] theorem State.abortActivation_keeps {A : Scope} {s₀ : State} (s : State) (code : Nat) (hk : Keeps A s₀ s)
    (hA : A.covers State.abortActivation_sites) :
    Keeps A s₀ (State.abortActivation s code) := by
  simp [State.abortActivation_sites] at hA
  unfold State.abortActivation
  repeat' (first
    | (intro x; first
        | (have hx : Keeps A s₀ x := by
             subst x
             repeat' split
             all_goals first | with_reducible assumption | (simp (maxDischargeDepth := 99) +contextual [*]; done) | simp_all (maxDischargeDepth := 99) +contextual
           clear_value x)
        | clear_value x)
    | (split <;> try lift_lets))
  all_goals first | (simp (maxDischargeDepth := 99) +contextual [*]; done) | simp_all (maxDischargeDepth := 99) +contextual

end Sys2Proof.Machine
end

