-- ==== Sys2Proof/Laws/KeepsNeedle.lean ====
section
/-!
SUPPORT. Sys2Proof/Laws/KeepsNeedle.lean: the operations and meanings of Machine/Needle.lean keep (Laws/Keeps.lean).
-/

set_option linter.all false
set_option Elab.async false

namespace Sys2Proof.Machine

def State.flagSat_sites : List Site := [.each R.NDL_FLAGS, .each R.NDL_SAT_HI, .each R.NDL_SAT_LO]

@[simp ↓] theorem State.flagSat_keeps {A : Scope} {s₀ : State} (s : State) (n : Nat) (ids : List Nat) (hk : Keeps A s₀ s)
    (hA : A.covers State.flagSat_sites) :
    Keeps A s₀ (State.flagSat s n ids) := by
  simp [State.flagSat_sites] at hA
  unfold State.flagSat
  repeat' (first
    | (intro x; clear_value x))
  all_goals first | (simp (maxDischargeDepth := 99) +contextual [*]; done) | simp_all (maxDischargeDepth := 99) +contextual

def State.requestMode_sites : List Site := State.pendMode_sites ++ [.each R.NDL_STATUS]

@[simp ↓] theorem State.requestMode_keeps {A : Scope} {s₀ : State} (s : State) (n : Nat) (m : Nat) (hk : Keeps A s₀ s)
    (hA : A.covers State.requestMode_sites) :
    Keeps A s₀ (State.requestMode s n m) := by
  simp [State.requestMode_sites] at hA
  simp (maxDischargeDepth := 99) [State.requestMode, hk, hA]

def State.trialPass_sites : List Site := State.event_sites ++ [.each R.NDL_FLAGS]

@[simp ↓] theorem State.trialPass_keeps {A : Scope} {s₀ : State} (s : State) (n : Nat) (a : Nat) (m : Nat) (trial : BlockStates) (last : BlockStates) (inputs : List Int) (vcm : Int) (ma : Int) (hk : Keeps A s₀ s)
    (hA : A.covers State.trialPass_sites) :
    Keeps A s₀ (State.trialPass s n a m trial last inputs vcm ma).2 := by
  simp [State.trialPass_sites] at hA
  simp (maxDischargeDepth := 99) [State.trialPass, hk, hA]

def State.settlePoint_sites : List Site := [.each R.NDL_SP_ACC, .each R.NDL_SP_POS, .each R.NDL_SP_VEL, .part .needles]

@[simp ↓] theorem State.settlePoint_keeps {A : Scope} {s₀ : State} (s : State) (n : Nat) (hk : Keeps A s₀ s)
    (hA : A.covers State.settlePoint_sites) :
    Keeps A s₀ (State.settlePoint s n) := by
  simp [State.settlePoint_sites] at hA
  simp (maxDischargeDepth := 99) [State.settlePoint, hk, hA]

def State.enterMode_sites : List Site :=
  State.settlePoint_sites ++ [.each R.NDL_STATUS, .one R.ROWT_STATUS, .part .needles]

@[simp ↓] theorem State.enterMode_keeps {A : Scope} {s₀ : State} (s : State) (n : Nat) (m : Nat) (hk : Keeps A s₀ s)
    (hA : A.covers State.enterMode_sites) :
    Keeps A s₀ (State.enterMode s n m) := by
  simp [State.enterMode_sites] at hA
  unfold State.enterMode
  repeat' (first
    | (intro x; first
        | (have hx : Keeps A s₀ x := by
             subst x
             repeat' split
             all_goals first | with_reducible assumption | (simp (maxDischargeDepth := 99) +contextual [*]; done) | simp_all (maxDischargeDepth := 99) +contextual
           clear_value x)
        | clear_value x)
    | (split <;> try lift_lets))
  all_goals first | (simp (maxDischargeDepth := 99) +contextual [*]; done) | simp_all (maxDischargeDepth := 99) +contextual

def State.applyMode_sites : List Site :=
  State.enterMode_sites ++ State.pendMode_sites ++ State.startUnload_sites ++ State.trialPass_sites ++ [.each R.NDL_MANUAL,
    .each R.NDL_STATUS, .part .needles]

@[simp ↓] theorem State.applyMode_keeps {A : Scope} {s₀ : State} (s : State) (n : Nat) (hk : Keeps A s₀ s)
    (hA : A.covers State.applyMode_sites) :
    Keeps A s₀ (State.applyMode s n) := by
  simp [State.applyMode_sites] at hA
  simp only [State.applyMode]
  repeat' split
  all_goals simp_all (maxDischargeDepth := 99)

def State.applyModes_sites : List Site := State.applyMode_sites

@[simp ↓] theorem State.applyModes_keeps {A : Scope} {s₀ : State} (s : State) (hk : Keeps A s₀ s)
    (hA : A.covers State.applyModes_sites) :
    Keeps A s₀ (State.applyModes s) := by
  simp [State.applyModes_sites] at hA
  unfold State.applyModes
  repeat' (first
    | (intro x; clear_value x))
  all_goals first | (simp (maxDischargeDepth := 99) +contextual [*]; done) | simp_all (maxDischargeDepth := 99) +contextual

def State.setLock_sites : List Site := [.each R.NDL_STATUS, .one R.ROWT_STATUS]

@[simp ↓] theorem State.setLock_keeps {A : Scope} {s₀ : State} (s : State) (n : Nat) (a : Nat) (b : Bool) (hk : Keeps A s₀ s)
    (hA : A.covers State.setLock_sites) :
    Keeps A s₀ (State.setLock s n a b) := by
  simp [State.setLock_sites] at hA
  simp (maxDischargeDepth := 99) [State.setLock, hk, hA]

def State.missedWedge_sites : List Site := State.setLock_sites ++ [.each R.NDL_COUNTS, .each R.NDL_FLAGS, .part .needles]

@[simp ↓] theorem State.missedWedge_keeps {A : Scope} {s₀ : State} (s : State) (n : Nat) (a : Nat) (discontinuity : Bool) (hk : Keeps A s₀ s)
    (hA : A.covers State.missedWedge_sites) :
    Keeps A s₀ (State.missedWedge s n a discontinuity) := by
  simp [State.missedWedge_sites] at hA
  simp (maxDischargeDepth := 99) [State.missedWedge, hk, hA]

def State.formInputs_sites : List Site := State.flagSat_sites ++ [.each R.NDL_ERR, .part .needles]

@[simp ↓] theorem State.formInputs_keeps {A : Scope} {s₀ : State} (s : State) (n : Nat) (a : Nat) (err : Int) (pes : Int) (hk : Keeps A s₀ s)
    (hA : A.covers State.formInputs_sites) :
    Keeps A s₀ (State.formInputs s n a err pes) := by
  simp [State.formInputs_sites] at hA
  simp (maxDischargeDepth := 99) [State.formInputs, hk, hA]

def State.sampleWedge_sites : List Site :=
  State.missedWedge_sites ++ State.setLock_sites ++ [.each R.NDL_POSITION, .part .needles]

@[simp ↓] theorem State.sampleWedge_keeps {A : Scope} {s₀ : State} (s : State) (n : Nat) (a : Nat) (o : WedgeObs) (inWindow : Bool) (hk : Keeps A s₀ s)
    (hA : A.covers State.sampleWedge_sites) :
    Keeps A s₀ (State.sampleWedge s n a o inWindow) := by
  simp [State.sampleWedge_sites] at hA
  simp (maxDischargeDepth := 99) [State.sampleWedge, hk, hA]

def State.formRow_sites : List Site := State.formInputs_sites

@[simp ↓] theorem State.formRow_keeps {A : Scope} {s₀ : State} (s : State) (n : Nat) (a : Nat) (hk : Keeps A s₀ s)
    (hA : A.covers State.formRow_sites) :
    Keeps A s₀ (State.formRow s n a) := by
  simp [State.formRow_sites] at hA
  simp (maxDischargeDepth := 99) [State.formRow, hk, hA]

def State.predictedRow_sites : List Site := State.formRow_sites ++ State.sampleWedge_sites

@[simp ↓] theorem State.predictedRow_keeps {A : Scope} {s₀ : State} (s : State) (n : Nat) (a : Nat) (hk : Keeps A s₀ s)
    (hA : A.covers State.predictedRow_sites) :
    Keeps A s₀ (State.predictedRow s n a) := by
  simp [State.predictedRow_sites] at hA
  simp (maxDischargeDepth := 99) [State.predictedRow, hk, hA]

def State.commitPass_sites : List Site := State.flagSat_sites ++ [.part .needles]

@[simp ↓] theorem State.commitPass_keeps {A : Scope} {s₀ : State} (s : State) (n : Nat) (p : Pass) (hk : Keeps A s₀ s)
    (hA : A.covers State.commitPass_sites) :
    Keeps A s₀ (State.commitPass s n p) := by
  simp [State.commitPass_sites] at hA
  simp (maxDischargeDepth := 99) [State.commitPass, hk, hA]

def State.latchOutputs_sites : List Site :=
  [.each R.NDL_BUMP, .each R.NDL_OUT, .each R.NDL_STATUS, .each R.NDL_TIMING, .part .needles]

@[simp ↓] theorem State.latchOutputs_keeps {A : Scope} {s₀ : State} (s : State) (n : Nat) (ns : Nat) (p : Pass) (hk : Keeps A s₀ s)
    (hA : A.covers State.latchOutputs_sites) :
    Keeps A s₀ (State.latchOutputs s n ns p) := by
  simp [State.latchOutputs_sites] at hA
  unfold State.latchOutputs
  try lift_lets
  repeat' (first
    | (intro x; first
        | (have hx : Keeps A s₀ x := by
             subst x
             repeat' split
             all_goals first | with_reducible assumption | (simp (maxDischargeDepth := 99) +contextual [*]; done) | simp_all (maxDischargeDepth := 99) +contextual
           clear_value x)
        | clear_value x))
  all_goals first | (simp (maxDischargeDepth := 99) +contextual [*]; done) | simp_all (maxDischargeDepth := 99) +contextual

def execNeedleLatch_sites : List Site :=
  State.commitPass_sites ++ State.driveMa_sites ++ State.holdInjectors_sites ++ State.latchOutputs_sites ++
    State.predictedRow_sites ++ State.snagPass_sites ++ [.part .needles]

theorem execNeedleLatch_keeps {A : Scope} (n : Nat) (ns : Nat) (maPos : Int) (vcmI : Int) (s : State)
    (hA : A.covers execNeedleLatch_sites) : KeepsOut A s (execNeedleLatch n ns maPos vcmI s) := by
  simp [execNeedleLatch_sites] at hA
  have hk := Keeps.refl A s
  unfold execNeedleLatch
  repeat' (first
    | (intro x; first
        | (have hx : Keeps A s x := by
             subst x
             repeat' split
             all_goals first | with_reducible assumption | (simp (maxDischargeDepth := 99) +contextual [*]; done) | simp_all (maxDischargeDepth := 99) +contextual
           clear_value x)
        | clear_value x)
    | (generalize he : State.snagPass _ _ _ _ = p
       have hp : Keeps A s p.2 := by subst he; first | with_reducible assumption | simp (maxDischargeDepth := 99) +contextual [*]
       clear he
       obtain ⟨_, _⟩ := p)
    | (split <;> try lift_lets))
  all_goals first | (simp (maxDischargeDepth := 99) +contextual [*]; done) | simp_all (maxDischargeDepth := 99) +contextual

def State.creditsReg_sites : List Site := [.each R.NDL_MBX_STATUS]

@[simp ↓] theorem State.creditsReg_keeps {A : Scope} {s₀ : State} (s : State) (n : Nat) (hk : Keeps A s₀ s)
    (hA : A.covers State.creditsReg_sites) :
    Keeps A s₀ (State.creditsReg s n) := by
  simp [State.creditsReg_sites] at hA
  simp (maxDischargeDepth := 99) [State.creditsReg, hk, hA]

def State.mbxPush_sites : List Site :=
  State.creditsReg_sites ++ State.transfer_sites ++ [.each R.NDL_FLAGS, .part .needles]

@[simp ↓] theorem State.mbxPush_keeps {A : Scope} {s₀ : State} (s : State) (n : Nat) (row : Nat) (seq : Nat) (hk : Keeps A s₀ s)
    (hA : A.covers State.mbxPush_sites) :
    Keeps A s₀ (State.mbxPush s n row seq) := by
  simp [State.mbxPush_sites] at hA
  simp (maxDischargeDepth := 99) [State.mbxPush, hk, hA]

def execNdlMbxPush_sites : List Site := State.mbxPush_sites

theorem execNdlMbxPush_keeps {A : Scope} (p : MailboxPush) (s : State)
    (hA : A.covers execNdlMbxPush_sites) : KeepsOut A s (execNdlMbxPush p s) := by
  simp [execNdlMbxPush_sites] at hA
  simp (maxDischargeDepth := 99) [execNdlMbxPush, hA]

def State.moveTo_sites : List Site :=
  State.requestMode_sites ++ State.settlePoint_sites ++ [.each R.NDL_OFFSET, .each R.NDL_TARGET]

@[simp ↓] theorem State.moveTo_keeps {A : Scope} {s₀ : State} (s : State) (n : Nat) (target : Int) (offset : Int) (hk : Keeps A s₀ s)
    (hA : A.covers State.moveTo_sites) :
    Keeps A s₀ (State.moveTo s n target offset) := by
  simp [State.moveTo_sites] at hA
  simp (maxDischargeDepth := 99) [State.moveTo, hk, hA]

def State.commandEffect_sites : List Site :=
  State.moveTo_sites ++ State.requestMode_sites ++ [.each R.NDL_MANUAL, .each R.NDL_OFFSET, .each R.NDL_STATUS, .each
    R.NDL_TARGET, .part .needles]

@[simp ↓] theorem State.commandEffect_keeps {A : Scope} {s₀ : State} (s : State) (n : Nat) (w0 : Word) (w1 : Word) (hk : Keeps A s₀ s)
    (hA : A.covers State.commandEffect_sites) :
    Keeps A s₀ (State.commandEffect s n w0 w1) := by
  simp [State.commandEffect_sites] at hA
  unfold State.commandEffect
  repeat' (first
    | (intro x; clear_value x)
    | (split <;> try lift_lets))
  all_goals first | (simp (maxDischargeDepth := 99) +contextual [*]; done) | simp_all (maxDischargeDepth := 99) +contextual

def State.takeEntry_sites : List Site :=
  State.commandEffect_sites ++ State.creditsReg_sites ++ State.transfer_sites ++ [.each R.NDL_MBX_STATUS, .part .needles]

@[simp ↓] theorem State.takeEntry_keeps {A : Scope} {s₀ : State} (s : State) (n : Nat) (hk : Keeps A s₀ s)
    (hA : A.covers State.takeEntry_sites) :
    Keeps A s₀ (State.takeEntry s n) := by
  simp [State.takeEntry_sites] at hA
  unfold State.takeEntry
  repeat' (first
    | (intro x; first
        | (have hx : Keeps A s₀ x := by
             subst x
             repeat' split
             all_goals first | with_reducible assumption | (simp (maxDischargeDepth := 99) +contextual [*]; done) | simp_all (maxDischargeDepth := 99) +contextual
           clear_value x)
        | clear_value x)
    | (split <;> try lift_lets))
  all_goals first | (simp (maxDischargeDepth := 99) +contextual [*]; done) | simp_all (maxDischargeDepth := 99) +contextual

def State.takeCommand_sites : List Site := State.takeEntry_sites

@[simp ↓] theorem State.takeCommand_keeps {A : Scope} {s₀ : State} (s : State) (n : Nat) (mine : Nat → Bool) (hk : Keeps A s₀ s)
    (hA : A.covers State.takeCommand_sites) :
    Keeps A s₀ (State.takeCommand s n mine) := by
  simp [State.takeCommand_sites] at hA
  unfold State.takeCommand
  repeat' (first
    | (intro x; clear_value x)
    | (split <;> try lift_lets))
  all_goals first | (simp (maxDischargeDepth := 99) +contextual [*]; done) | simp_all (maxDischargeDepth := 99) +contextual

def execNdlSeek_sites : List Site := State.takeCommand_sites

theorem execNdlSeek_keeps {A : Scope} (n : Nat) (s : State)
    (hA : A.covers execNdlSeek_sites) : KeepsOut A s (execNdlSeek n s) := by
  simp [execNdlSeek_sites] at hA
  simp (maxDischargeDepth := 99) [execNdlSeek, hA]

def execNdlOffset_sites : List Site := State.takeCommand_sites

theorem execNdlOffset_keeps {A : Scope} (n : Nat) (s : State)
    (hA : A.covers execNdlOffset_sites) : KeepsOut A s (execNdlOffset n s) := by
  simp [execNdlOffset_sites] at hA
  simp (maxDischargeDepth := 99) [execNdlOffset, hA]

def execNdlEngage_sites : List Site := State.takeCommand_sites

theorem execNdlEngage_keeps {A : Scope} (n : Nat) (s : State)
    (hA : A.covers execNdlEngage_sites) : KeepsOut A s (execNdlEngage n s) := by
  simp [execNdlEngage_sites] at hA
  simp (maxDischargeDepth := 99) [execNdlEngage, hA]

def execNdlHold_sites : List Site := State.takeCommand_sites

theorem execNdlHold_keeps {A : Scope} (n : Nat) (s : State)
    (hA : A.covers execNdlHold_sites) : KeepsOut A s (execNdlHold n s) := by
  simp [execNdlHold_sites] at hA
  simp (maxDischargeDepth := 99) [execNdlHold, hA]

def execNdlRelease_sites : List Site := State.takeCommand_sites

theorem execNdlRelease_keeps {A : Scope} (n : Nat) (s : State)
    (hA : A.covers execNdlRelease_sites) : KeepsOut A s (execNdlRelease n s) := by
  simp [execNdlRelease_sites] at hA
  simp (maxDischargeDepth := 99) [execNdlRelease, hA]

def execNdlManual_sites : List Site := State.takeCommand_sites

theorem execNdlManual_keeps {A : Scope} (n : Nat) (s : State)
    (hA : A.covers execNdlManual_sites) : KeepsOut A s (execNdlManual n s) := by
  simp [execNdlManual_sites] at hA
  simp (maxDischargeDepth := 99) [execNdlManual, hA]

def execNdlRetract_sites : List Site := State.takeCommand_sites

theorem execNdlRetract_keeps {A : Scope} (n : Nat) (s : State)
    (hA : A.covers execNdlRetract_sites) : KeepsOut A s (execNdlRetract n s) := by
  simp [execNdlRetract_sites] at hA
  simp (maxDischargeDepth := 99) [execNdlRetract, hA]

def execNdlUnknownOpcode_sites : List Site := State.takeCommand_sites

theorem execNdlUnknownOpcode_keeps {A : Scope} (n : Nat) (s : State)
    (hA : A.covers execNdlUnknownOpcode_sites) : KeepsOut A s (execNdlUnknownOpcode n s) := by
  simp [execNdlUnknownOpcode_sites] at hA
  simp (maxDischargeDepth := 99) [execNdlUnknownOpcode, hA]

def State.needleFaulted_sites : List Site :=
  State.abortActivation_sites ++ State.event_sites ++ State.gates_sites ++ [.each R.NDL_MBX_STATUS, .each R.NDL_STATUS, .part
    .needles]

@[simp ↓] theorem State.needleFaulted_keeps {A : Scope} {s₀ : State} (s : State) (n : Nat) (hk : Keeps A s₀ s)
    (hA : A.covers State.needleFaulted_sites) :
    Keeps A s₀ (State.needleFaulted s n) := by
  simp [State.needleFaulted_sites] at hA
  simp only [State.needleFaulted]
  repeat' split
  all_goals simp_all (maxDischargeDepth := 99) +contextual

def State.rowLost_sites : List Site :=
  State.event_sites ++ State.gate_sites ++ [.each R.NDL_COUNTS, .each R.NDL_FLAGS, .each R.NDL_STATUS, .each R.NDL_TIMING,
    .part .needles, .part .acts]

@[simp ↓] theorem State.rowLost_keeps {A : Scope} {s₀ : State} (s : State) (n : Nat) (a : Nat) (hk : Keeps A s₀ s)
    (hA : A.covers State.rowLost_sites) :
    Keeps A s₀ (State.rowLost s n a) := by
  simp [State.rowLost_sites] at hA
  simp (maxDischargeDepth := 99) [State.rowLost, hk, hA]

def State.internalFault_sites : List Site := State.needleFaulted_sites ++ State.rowLost_sites ++ [.each R.NDL_FLAGS]

@[simp ↓] theorem State.internalFault_keeps {A : Scope} {s₀ : State} (s : State) (n : Nat) (hk : Keeps A s₀ s)
    (hA : A.covers State.internalFault_sites) :
    Keeps A s₀ (State.internalFault s n) := by
  simp [State.internalFault_sites] at hA
  simp (maxDischargeDepth := 99) [State.internalFault, hk, hA]

def execNeedleInternalFault_sites : List Site := State.internalFault_sites

theorem execNeedleInternalFault_keeps {A : Scope} (n : Nat) (s : State)
    (hA : A.covers execNeedleInternalFault_sites) : KeepsOut A s (execNeedleInternalFault n s) := by
  simp [execNeedleInternalFault_sites] at hA
  simp (maxDischargeDepth := 99) [execNeedleInternalFault, hA]

def State.overrun_sites : List Site := State.needleFaulted_sites ++ State.rowLost_sites

@[simp ↓] theorem State.overrun_keeps {A : Scope} {s₀ : State} (s : State) (n : Nat) (a : Nat) (hk : Keeps A s₀ s)
    (hA : A.covers State.overrun_sites) :
    Keeps A s₀ (State.overrun s n a) := by
  simp [State.overrun_sites] at hA
  simp (maxDischargeDepth := 99) [State.overrun, hk, hA]

def State.takeEntries_sites : List Site := State.takeEntry_sites

@[simp ↓] theorem State.takeEntries_keeps {A : Scope} {s₀ : State} (s : State) (n : Nat) (hk : Keeps A s₀ s)
    (hA : A.covers State.takeEntries_sites) :
    Keeps A s₀ (State.takeEntries s n) := by
  simp [State.takeEntries_sites] at hA
  unfold State.takeEntries
  repeat' (first
    | (intro x; clear_value x))
  all_goals first | (simp (maxDischargeDepth := 99) +contextual [*]; done) | simp_all (maxDischargeDepth := 99) +contextual

def State.runGenerator_sites : List Site :=
  State.event_sites ++ State.requestMode_sites ++ [.each R.NDL_FLAGS, .each R.NDL_SP_ACC, .each R.NDL_SP_POS, .each
    R.NDL_SP_VEL, .part .needles]

@[simp ↓] theorem State.runGenerator_keeps {A : Scope} {s₀ : State} (s : State) (n : Nat) (hk : Keeps A s₀ s)
    (hA : A.covers State.runGenerator_sites) :
    Keeps A s₀ (State.runGenerator s n) := by
  simp [State.runGenerator_sites] at hA
  simp (maxDischargeDepth := 99) [State.runGenerator, hk, hA]

def State.countRow_sites : List Site := State.requestMode_sites ++ [.part .needles]

@[simp ↓] theorem State.countRow_keeps {A : Scope} {s₀ : State} (s : State) (n : Nat) (hk : Keeps A s₀ s)
    (hA : A.covers State.countRow_sites) :
    Keeps A s₀ (State.countRow s n) := by
  simp [State.countRow_sites] at hA
  simp only [State.countRow]
  repeat' split
  all_goals simp_all (maxDischargeDepth := 99)

def State.posOk_sites : List Site := [.each R.NDL_STATUS]

@[simp ↓] theorem State.posOk_keeps {A : Scope} {s₀ : State} (s : State) (n : Nat) (hk : Keeps A s₀ s)
    (hA : A.covers State.posOk_sites) :
    Keeps A s₀ (State.posOk s n) := by
  simp [State.posOk_sites] at hA
  simp (maxDischargeDepth := 99) [State.posOk, hk, hA]

def State.sendMirror_sites : List Site := [.each R.NDL_STATUS, .part .needles]

@[simp ↓] theorem State.sendMirror_keeps {A : Scope} {s₀ : State} (s : State) (n : Nat) (a : Nat) (hk : Keeps A s₀ s)
    (hA : A.covers State.sendMirror_sites) :
    Keeps A s₀ (State.sendMirror s n a) := by
  simp [State.sendMirror_sites] at hA
  simp (maxDischargeDepth := 99) +contextual [State.sendMirror, hk, hA]

def State.finishPhase_sites : List Site :=
  State.runGenerator_sites ++ State.sendMirror_sites ++ State.takeEntries_sites ++ [.part .needles]

@[simp ↓] theorem State.finishPhase_keeps {A : Scope} {s₀ : State} (s : State) (n : Nat) (hk : Keeps A s₀ s)
    (hA : A.covers State.finishPhase_sites) :
    Keeps A s₀ (State.finishPhase s n) := by
  simp [State.finishPhase_sites] at hA
  simp (maxDischargeDepth := 99) [State.finishPhase, hk, hA]

def State.finishPhases_sites : List Site := State.finishPhase_sites

@[simp ↓] theorem State.finishPhases_keeps {A : Scope} {s₀ : State} (s : State) (hk : Keeps A s₀ s)
    (hA : A.covers State.finishPhases_sites) :
    Keeps A s₀ (State.finishPhases s) := by
  simp [State.finishPhases_sites] at hA
  simp (maxDischargeDepth := 99) +contextual [State.finishPhases, hk, hA]

def State.openPhase_sites : List Site := State.countRow_sites ++ [.part .needles]

@[simp ↓] theorem State.openPhase_keeps {A : Scope} {s₀ : State} (s : State) (n : Nat) (hk : Keeps A s₀ s)
    (hA : A.covers State.openPhase_sites) :
    Keeps A s₀ (State.openPhase s n) := by
  simp [State.openPhase_sites] at hA
  simp (maxDischargeDepth := 99) [State.openPhase, hk, hA]

def execNeedleDeadline_sites : List Site :=
  State.driveMa_sites ++ State.finishPhase_sites ++ State.gate_sites ++ State.openPhase_sites ++ State.overrun_sites ++
    State.posOk_sites ++ State.predictedRow_sites ++ [.each R.NDL_OUT, .each R.NDL_STATUS, .part .needles, .part .acts, .part
    .upd]

theorem execNeedleDeadline_keeps {A : Scope} (n : Nat) (s : State)
    (hA : A.covers execNeedleDeadline_sites) : KeepsOut A s (execNeedleDeadline n s) := by
  simp [execNeedleDeadline_sites] at hA
  simp (maxDischargeDepth := 99) [execNeedleDeadline, hA]

def execSettleReached_sites : List Site := State.requestMode_sites

theorem execSettleReached_keeps {A : Scope} (n : Nat) (s : State)
    (hA : A.covers execSettleReached_sites) : KeepsOut A s (execSettleReached n s) := by
  simp [execSettleReached_sites] at hA
  simp (maxDischargeDepth := 99) [execSettleReached, hA]

def execSettleTimeout_sites : List Site := State.event_sites ++ [.each R.NDL_FLAGS, .part .needles]

theorem execSettleTimeout_keeps {A : Scope} (n : Nat) (s : State)
    (hA : A.covers execSettleTimeout_sites) : KeepsOut A s (execSettleTimeout n s) := by
  simp [execSettleTimeout_sites] at hA
  simp (maxDischargeDepth := 99) [execSettleTimeout, hA]

def execMissMaxReached_sites : List Site := State.requestMode_sites ++ [.each R.NDL_STATUS]

theorem execMissMaxReached_keeps {A : Scope} (n : Nat) (s : State)
    (hA : A.covers execMissMaxReached_sites) : KeepsOut A s (execMissMaxReached n s) := by
  simp [execMissMaxReached_sites] at hA
  simp (maxDischargeDepth := 99) [execMissMaxReached, hA]

def execHoldRowsExpired_sites : List Site := State.eretract_sites ++ State.requestMode_sites

theorem execHoldRowsExpired_keeps {A : Scope} (n : Nat) (s : State)
    (hA : A.covers execHoldRowsExpired_sites) : KeepsOut A s (execHoldRowsExpired n s) := by
  simp [execHoldRowsExpired_sites] at hA
  simp (maxDischargeDepth := 99) [execHoldRowsExpired, hA]

def State.loadCredits_sites : List Site := State.creditsReg_sites ++ State.loadClass_sites

@[simp ↓] theorem State.loadCredits_keeps {A : Scope} {s₀ : State} (s : State) (n : Nat) (held : Nat) (hk : Keeps A s₀ s)
    (hA : A.covers State.loadCredits_sites) :
    Keeps A s₀ (State.loadCredits s n held) := by
  simp [State.loadCredits_sites] at hA
  simp (maxDischargeDepth := 99) [State.loadCredits, hk, hA]

def State.resourceHeld_sites : List Site := State.smartSet_sites ++ [.one R.DRN_EVENTS]

@[simp ↓] theorem State.resourceHeld_keeps {A : Scope} {s₀ : State} (s : State) (counter : Fld) (hk : Keeps A s₀ s)
    (hcounter : A.reg counter.addr) (hA : A.covers State.resourceHeld_sites) :
    Keeps A s₀ (State.resourceHeld s counter) := by
  simp [State.resourceHeld_sites] at hA
  simp (maxDischargeDepth := 99) [State.resourceHeld, hk, hcounter, hA]

def State.uncovered_sites : List Site := [.one R.DRN_EVENTS, .one R.DRN_FAILOVER]

@[simp ↓] theorem State.uncovered_keeps {A : Scope} {s₀ : State} (s : State) (hk : Keeps A s₀ s)
    (hA : A.covers State.uncovered_sites) :
    Keeps A s₀ (State.uncovered s) := by
  simp [State.uncovered_sites] at hA
  simp (maxDischargeDepth := 99) [State.uncovered, hk, hA]

def State.moveCredits_sites : List Site := State.creditsReg_sites ++ State.transfer_sites

@[simp ↓] theorem State.moveCredits_keeps {A : Scope} {s₀ : State} (s : State) (n : Nat) (k : Nat) (hk : Keeps A s₀ s)
    (hA : A.covers State.moveCredits_sites) :
    Keeps A s₀ (State.moveCredits s n k) := by
  simp [State.moveCredits_sites] at hA
  simp (maxDischargeDepth := 99) [State.moveCredits, hk, hA]

def State.dropCredits_sites : List Site := State.creditsReg_sites ++ State.loadClass_sites

@[simp ↓] theorem State.dropCredits_keeps {A : Scope} {s₀ : State} (s : State) (n : Nat) (hk : Keeps A s₀ s)
    (hA : A.covers State.dropCredits_sites) :
    Keeps A s₀ (State.dropCredits s n) := by
  simp [State.dropCredits_sites] at hA
  simp (maxDischargeDepth := 99) [State.dropCredits, hk, hA]

def State.standIn_sites : List Site :=
  State.enterMode_sites ++ State.moveCredits_sites ++ State.trialPass_sites ++ [.each R.NDL_ERR, .each R.NDL_GRAPH, .each
    R.NDL_MANUAL, .each R.NDL_OFFSET, .each R.NDL_OUT, .each R.NDL_POSITION, .each R.NDL_SP_ACC, .each R.NDL_SP_POS, .each
    R.NDL_SP_VEL, .each R.NDL_STATUS, .each R.NDL_TARGET, .part .needles]

@[simp ↓] theorem State.standIn_keeps {A : Scope} {s₀ : State} (s : State) (n : Nat) (k : Nat) (a : Nat) (swap : Bool) (onTime : Bool) (hk : Keeps A s₀ s)
    (hA : A.covers State.standIn_sites) :
    Keeps A s₀ (State.standIn s n k a swap onTime) := by
  simp [State.standIn_sites] at hA
  simp only [State.standIn]
  repeat' split
  all_goals simp_all (maxDischargeDepth := 99)

def State.keepBank_sites : List Site := [.each R.NDL_STATUS, .each R.NDL_UCODE, .part .needles]

@[simp ↓] theorem State.keepBank_keeps {A : Scope} {s₀ : State} (s : State) (k : Nat) (hk : Keeps A s₀ s)
    (hA : A.covers State.keepBank_sites) :
    Keeps A s₀ (State.keepBank s k) := by
  simp [State.keepBank_sites] at hA
  simp (maxDischargeDepth := 99) [State.keepBank, hk, hA]

def State.needleUncovered_sites : List Site :=
  State.dropCredits_sites ++ State.enterMode_sites ++ State.eretract_sites ++ State.gate_sites ++ State.uncovered_sites ++
    [.each R.NDL_STATUS, .part .needles]

@[simp ↓] theorem State.needleUncovered_keeps {A : Scope} {s₀ : State} (s : State) (n : Nat) (a : Nat) (hk : Keeps A s₀ s)
    (hA : A.covers State.needleUncovered_sites) :
    Keeps A s₀ (State.needleUncovered s n a) := by
  simp [State.needleUncovered_sites] at hA
  simp (maxDischargeDepth := 99) [State.needleUncovered, hk, hA]

def State.takeBack_sites : List Site := State.keepBank_sites ++ State.standIn_sites ++ [.each R.NDL_STATUS]

@[simp ↓] theorem State.takeBack_keeps {A : Scope} {s₀ : State} (s : State) (k : Nat) (own : Nat) (a : Nat) (hk : Keeps A s₀ s)
    (hA : A.covers State.takeBack_sites) :
    Keeps A s₀ (State.takeBack s k own a) := by
  simp [State.takeBack_sites] at hA
  simp (maxDischargeDepth := 99) [State.takeBack, hk, hA]

def State.swapFault_sites : List Site :=
  State.abortActivation_sites ++ State.gate_sites ++ State.keepBank_sites ++ State.needleUncovered_sites ++
    State.noteFault_sites ++ State.resourceHeld_sites ++ State.standIn_sites ++ State.takeBack_sites ++ State.trialPass_sites
    ++ [.one R.DRN_FAILOVER, .each R.NDL_STATUS, .part .needles]

@[simp ↓] theorem State.swapFault_keeps {A : Scope} {s₀ : State} (s : State) (n : Nat) (k : Nat) (a : Nat) (hk : Keeps A s₀ s)
    (hA : A.covers State.swapFault_sites) :
    Keeps A s₀ (State.swapFault s n k a) := by
  simp [State.swapFault_sites] at hA
  simp only [State.swapFault]
  repeat' split
  all_goals simp_all (maxDischargeDepth := 99)

def execSwapFaultAbort_sites : List Site := State.internalFault_sites ++ State.swapFault_sites

theorem execSwapFaultAbort_keeps {A : Scope} (n : Nat) (s : State)
    (hA : A.covers execSwapFaultAbort_sites) : KeepsOut A s (execSwapFaultAbort n s) := by
  simp [execSwapFaultAbort_sites] at hA
  have hk := Keeps.refl A s
  unfold execSwapFaultAbort
  repeat' (first
    | (intro x; first
        | (have hx : Keeps A s x := by
             subst x
             repeat' split
             all_goals first | with_reducible assumption | (simp (maxDischargeDepth := 99) +contextual [*]; done) | simp_all (maxDischargeDepth := 99) +contextual
           clear_value x)
        | clear_value x)
    | (split <;> try lift_lets))
  all_goals first | (simp (maxDischargeDepth := 99) +contextual [*]; done) | simp_all (maxDischargeDepth := 99) +contextual

def execNeedleTakeover_sites : List Site :=
  State.abortActivation_sites ++ State.gate_sites ++ State.keepBank_sites ++ State.needleUncovered_sites ++
    State.noteFault_sites ++ State.resourceHeld_sites ++ State.standIn_sites ++ State.swapFault_sites ++ [.one R.DRN_FAILOVER,
    .each R.NDL_STATUS]

theorem execNeedleTakeover_keeps {A : Scope} (n : Nat) (s : State)
    (hA : A.covers execNeedleTakeover_sites) : KeepsOut A s (execNeedleTakeover n s) := by
  simp [execNeedleTakeover_sites] at hA
  have hk := Keeps.refl A s
  unfold execNeedleTakeover
  repeat' (first
    | (intro x; first
        | (have hx : Keeps A s x := by
             subst x
             repeat' split
             all_goals first | with_reducible assumption | (simp (maxDischargeDepth := 99) +contextual [*]; done) | simp_all (maxDischargeDepth := 99) +contextual
           clear_value x)
        | clear_value x)
    | (split <;> try lift_lets))
  all_goals first | (simp (maxDischargeDepth := 99) +contextual [*]; done) | simp_all (maxDischargeDepth := 99) +contextual

def execNdlDisable_sites : List Site :=
  State.abortActivation_sites ++ State.dropCredits_sites ++ State.gates_sites ++ State.keepBank_sites ++
    State.loadCredits_sites ++ [.each R.NDL_CTRL, .each R.NDL_FLAGS, .each R.NDL_STATUS, .part .needles]

theorem execNdlDisable_keeps {A : Scope} (n : Nat) (disable : Bool) (s : State)
    (hA : A.covers execNdlDisable_sites) : KeepsOut A s (execNdlDisable n disable s) := by
  simp [execNdlDisable_sites] at hA
  simp (maxDischargeDepth := 99) [execNdlDisable, hA]

end Sys2Proof.Machine
end

