-- ==== Sys2Proof/Laws/KeepsSpindle.lean ====
section
/-!
SUPPORT. Sys2Proof/Laws/KeepsSpindle.lean: the operations and meanings of Machine/Spindle.lean keep (Laws/Keeps.lean).
-/

set_option linter.all false
set_option Elab.async false

namespace Sys2Proof.Machine

def State.evalWriteOk_sites : List Site :=
  State.event_sites ++ State.gates_sites ++ [.one R.SPN_EVENTS, .one R.SPN_STATUS, .part .spn]

@[simp ↓] theorem State.evalWriteOk_keeps {A : Scope} {s₀ : State} (s : State) (hk : Keeps A s₀ s)
    (hA : A.covers State.evalWriteOk_sites) :
    Keeps A s₀ (State.evalWriteOk s) := by
  simp [State.evalWriteOk_sites] at hA
  simp (maxDischargeDepth := 99) [State.evalWriteOk, hk, hA]

def State.setIdRef_sites : List Site := [.one R.SPN_STATUS, .part .spn]

@[simp ↓] theorem State.setIdRef_keeps {A : Scope} {s₀ : State} (s : State) (i : Int) (hk : Keeps A s₀ s)
    (hA : A.covers State.setIdRef_sites) :
    Keeps A s₀ (State.setIdRef s i) := by
  simp [State.setIdRef_sites] at hA
  simp (maxDischargeDepth := 99) [State.setIdRef, hk, hA]

def State.openBridge_sites : List Site := [.part .spn]

@[simp ↓] theorem State.openBridge_keeps {A : Scope} {s₀ : State} (s : State) (hk : Keeps A s₀ s)
    (hA : A.covers State.openBridge_sites) :
    Keeps A s₀ (State.openBridge s) := by
  simp [State.openBridge_sites] at hA
  simp (maxDischargeDepth := 99) [State.openBridge, hk, hA]

def State.driveOff_sites : List Site := State.openBridge_sites ++ State.setIdRef_sites ++ [.part .spn]

@[simp ↓] theorem State.driveOff_keeps {A : Scope} {s₀ : State} (s : State) (hk : Keeps A s₀ s)
    (hA : A.covers State.driveOff_sites) :
    Keeps A s₀ (State.driveOff s) := by
  simp [State.driveOff_sites] at hA
  simp (maxDischargeDepth := 99) [State.driveOff, hk, hA]

def State.toSpn_sites : List Site := State.abandonIf_sites ++ State.evalWriteOk_sites ++ [.one R.SPN_STATUS]

@[simp ↓] theorem State.toSpn_keeps {A : Scope} {s₀ : State} (s : State) (st : Nat) (hk : Keeps A s₀ s)
    (hA : A.covers State.toSpn_sites) :
    Keeps A s₀ (State.toSpn s st) := by
  simp [State.toSpn_sites] at hA
  simp (maxDischargeDepth := 99) [State.toSpn, hk, hA]

def State.noSpeed_sites : List Site := [.one R.SPN_SPEED, .one R.SPN_UNC]

@[simp ↓] theorem State.noSpeed_keeps {A : Scope} {s₀ : State} (s : State) (hk : Keeps A s₀ s)
    (hA : A.covers State.noSpeed_sites) :
    Keeps A s₀ (State.noSpeed s) := by
  simp [State.noSpeed_sites] at hA
  simp (maxDischargeDepth := 99) [State.noSpeed, hk, hA]

def State.spnStopped_sites : List Site :=
  State.driveOff_sites ++ State.noSpeed_sites ++ State.toSpn_sites ++ [.one R.SPN_STATUS]

@[simp ↓] theorem State.spnStopped_keeps {A : Scope} {s₀ : State} (s : State) (hk : Keeps A s₀ s)
    (hA : A.covers State.spnStopped_sites) :
    Keeps A s₀ (State.spnStopped s) := by
  simp [State.spnStopped_sites] at hA
  simp (maxDischargeDepth := 99) [State.spnStopped, hk, hA]

def State.spnCatch_sites : List Site :=
  State.driveOff_sites ++ State.noSpeed_sites ++ State.toSpn_sites ++ [.one R.SPN_SPEED, .one R.SPN_STATUS, .part .spn]

@[simp ↓] theorem State.spnCatch_keeps {A : Scope} {s₀ : State} (s : State) (hk : Keeps A s₀ s)
    (hA : A.covers State.spnCatch_sites) :
    Keeps A s₀ (State.spnCatch s) := by
  simp [State.spnCatch_sites] at hA
  simp (maxDischargeDepth := 99) [State.spnCatch, hk, hA]

def State.spnBrake_sites : List Site := State.toSpn_sites ++ [.one R.SPN_STATUS, .part .spn]

@[simp ↓] theorem State.spnBrake_keeps {A : Scope} {s₀ : State} (s : State) (target : Nat) (pend : Bool) (hk : Keeps A s₀ s)
    (hA : A.covers State.spnBrake_sites) :
    Keeps A s₀ (State.spnBrake s target pend) := by
  simp [State.spnBrake_sites] at hA
  simp (maxDischargeDepth := 99) [State.spnBrake, hk, hA]

def State.spnAlign_sites : List Site := State.noSpeed_sites ++ State.toSpn_sites ++ [.one R.SPN_STATUS, .part .spn]

@[simp ↓] theorem State.spnAlign_keeps {A : Scope} {s₀ : State} (s : State) (rock : Nat) (hk : Keeps A s₀ s)
    (hA : A.covers State.spnAlign_sites) :
    Keeps A s₀ (State.spnAlign s rock) := by
  simp [State.spnAlign_sites] at hA
  simp (maxDischargeDepth := 99) [State.spnAlign, hk, hA]

def State.spnCoast_sites : List Site :=
  State.driveOff_sites ++ State.event_sites ++ State.toSpn_sites ++ [.one R.SPN_COUNTS, .one R.SPN_EVENTS, .one R.SPN_STATUS]

@[simp ↓] theorem State.spnCoast_keeps {A : Scope} {s₀ : State} (s : State) (cause : Nat) (hk : Keeps A s₀ s)
    (hA : A.covers State.spnCoast_sites) :
    Keeps A s₀ (State.spnCoast s cause) := by
  simp [State.spnCoast_sites] at hA
  simp (maxDischargeDepth := 99) [State.spnCoast, hk, hA]

def State.spnLocked_sites : List Site :=
  State.driveOff_sites ++ State.eretractBoth_sites ++ State.event_sites ++ State.toSpn_sites ++ [.one R.SPN_COUNTS, .one
    R.SPN_EVENTS, .one R.SPN_STATUS, .part .spn]

@[simp ↓] theorem State.spnLocked_keeps {A : Scope} {s₀ : State} (s : State) (cause : Nat) (hk : Keeps A s₀ s)
    (hA : A.covers State.spnLocked_sites) :
    Keeps A s₀ (State.spnLocked s cause) := by
  simp [State.spnLocked_sites] at hA
  simp (maxDischargeDepth := 99) [State.spnLocked, hk, hA]

def State.spnHold_sites : List Site :=
  State.toSpn_sites ++ [.one R.SPN_COUNTS, .one R.SPN_EVENTS, .one R.SPN_STATUS, .part .spn]

@[simp ↓] theorem State.spnHold_keeps {A : Scope} {s₀ : State} (s : State) (hk : Keeps A s₀ s)
    (hA : A.covers State.spnHold_sites) :
    Keeps A s₀ (State.spnHold s) := by
  simp [State.spnHold_sites] at hA
  simp (maxDischargeDepth := 99) [State.spnHold, hk, hA]

def State.spnEffect_sites : List Site :=
  State.spnBrake_sites ++ State.spnCatch_sites ++ State.spnCoast_sites ++ State.spnStopped_sites ++ [.one R.SPN_STATUS]

@[simp ↓] theorem State.spnEffect_keeps {A : Scope} {s₀ : State} (s : State) (cmd : Nat) (hk : Keeps A s₀ s)
    (hA : A.covers State.spnEffect_sites) :
    Keeps A s₀ (State.spnEffect s cmd) := by
  simp [State.spnEffect_sites] at hA
  unfold State.spnEffect
  repeat' (first
    | (intro x; clear_value x)
    | (split <;> try lift_lets))
  all_goals first | (simp (maxDischargeDepth := 99) +contextual [*]; done) | simp_all (maxDischargeDepth := 99) +contextual

def State.spnCommand_sites : List Site := State.spnEffect_sites ++ [.one R.SPN_EVENTS, .one R.SPN_STATUS]

@[simp ↓] theorem State.spnCommand_keeps {A : Scope} {s₀ : State} (s : State) (cmd : Nat) (hk : Keeps A s₀ s)
    (hA : A.covers State.spnCommand_sites) :
    Keeps A s₀ (State.spnCommand s cmd) := by
  simp [State.spnCommand_sites] at hA
  simp (maxDischargeDepth := 99) [State.spnCommand, hk, hA]

def execSpnStart_sites : List Site := State.spnCommand_sites

theorem execSpnStart_keeps {A : Scope} (s : State)
    (hA : A.covers execSpnStart_sites) : KeepsOut A s (execSpnStart s) := by
  simp [execSpnStart_sites] at hA
  simp (maxDischargeDepth := 99) [execSpnStart, hA]

def execSpnStop_sites : List Site := State.spnCommand_sites

theorem execSpnStop_keeps {A : Scope} (s : State)
    (hA : A.covers execSpnStop_sites) : KeepsOut A s (execSpnStop s) := by
  simp [execSpnStop_sites] at hA
  simp (maxDischargeDepth := 99) [execSpnStop, hA]

def execSpnCoast_sites : List Site := State.spnCommand_sites

theorem execSpnCoast_keeps {A : Scope} (s : State)
    (hA : A.covers execSpnCoast_sites) : KeepsOut A s (execSpnCoast s) := by
  simp [execSpnCoast_sites] at hA
  simp (maxDischargeDepth := 99) [execSpnCoast, hA]

def execSpnClear_sites : List Site := State.spnCommand_sites

theorem execSpnClear_keeps {A : Scope} (s : State)
    (hA : A.covers execSpnClear_sites) : KeepsOut A s (execSpnClear s) := by
  simp [execSpnClear_sites] at hA
  simp (maxDischargeDepth := 99) [execSpnClear, hA]

def State.servoAngle_sites : List Site := [.one R.SPN_ANGLE, .one R.SPN_STATUS, .part .spn]

@[simp ↓] theorem State.servoAngle_keeps {A : Scope} {s₀ : State} (s : State) (source : Nat) (index : Nat) (hk : Keeps A s₀ s)
    (hA : A.covers State.servoAngle_sites) :
    Keeps A s₀ (State.servoAngle s source index) := by
  simp [State.servoAngle_sites] at hA
  simp (maxDischargeDepth := 99) [State.servoAngle, hk, hA]

def State.measureSpeed_sites : List Site := State.noSpeed_sites ++ [.one R.SPN_SPEED, .one R.SPN_UNC, .part .spn]

@[simp ↓] theorem State.measureSpeed_keeps {A : Scope} {s₀ : State} (s : State) (source : Nat) (hk : Keeps A s₀ s)
    (hA : A.covers State.measureSpeed_sites) :
    Keeps A s₀ (State.measureSpeed s source) := by
  simp [State.measureSpeed_sites] at hA
  simp (maxDischargeDepth := 99) [State.measureSpeed, hk, hA]

def State.speedControl_sites : List Site := [.part .spn]

@[simp ↓] theorem State.speedControl_keeps {A : Scope} {s₀ : State} (s : State) (hk : Keeps A s₀ s)
    (hA : A.covers State.speedControl_sites) :
    Keeps A s₀ (State.speedControl s) := by
  simp [State.speedControl_sites] at hA
  simp (maxDischargeDepth := 99) [State.speedControl, hk, hA]

def State.holdRow_sites : List Site := [.one R.SPN_STATUS, .part .spn]

@[simp ↓] theorem State.holdRow_keeps {A : Scope} {s₀ : State} (s : State) (ps : Nat) (hk : Keeps A s₀ s)
    (hA : A.covers State.holdRow_sites) :
    Keeps A s₀ (State.holdRow s ps) := by
  simp [State.holdRow_sites] at hA
  simp (maxDischargeDepth := 99) [State.holdRow, hk, hA]

def State.offsetRow_sites : List Site := [.part .spn]

@[simp ↓] theorem State.offsetRow_keeps {A : Scope} {s₀ : State} (s : State) (source : Nat) (index : Nat) (hk : Keeps A s₀ s)
    (hA : A.covers State.offsetRow_sites) :
    Keeps A s₀ (State.offsetRow s source index) := by
  simp [State.offsetRow_sites] at hA
  simp (maxDischargeDepth := 99) [State.offsetRow, hk, hA]

def State.coastCatch_sites : List Site := State.spnCatch_sites

@[simp ↓] theorem State.coastCatch_keeps {A : Scope} {s₀ : State} (s : State) (hk : Keeps A s₀ s)
    (hA : A.covers State.coastCatch_sites) :
    Keeps A s₀ (State.coastCatch s) := by
  simp [State.coastCatch_sites] at hA
  simp (maxDischargeDepth := 99) [State.coastCatch, hk, hA]

def State.spindleRow_sites : List Site :=
  State.coastCatch_sites ++ State.holdRow_sites ++ State.measureSpeed_sites ++ State.offsetRow_sites ++ State.servoAngle_sites
    ++ State.speedControl_sites ++ [.part .spn]

@[simp ↓] theorem State.spindleRow_keeps {A : Scope} {s₀ : State} (s : State) (source : Nat) (index : Nat) (ps : Nat) (hk : Keeps A s₀ s)
    (hA : A.covers State.spindleRow_sites) :
    Keeps A s₀ (State.spindleRow s source index ps) := by
  simp [State.spindleRow_sites] at hA
  simp (maxDischargeDepth := 99) [State.spindleRow, hk, hA]

def State.observe_sites : List Site := [.one R.SPN_ANGLE, .one R.SPN_STATUS, .part .spn]

@[simp ↓] theorem State.observe_keeps {A : Scope} {s₀ : State} (s : State) (ps : Nat) (i : Int × Int) (hk : Keeps A s₀ s)
    (hA : A.covers State.observe_sites) :
    Keeps A s₀ (State.observe s ps i) := by
  simp [State.observe_sites] at hA
  simp (maxDischargeDepth := 99) [State.observe, hk, hA]

def State.currentPi_sites : List Site := [.part .spn]

@[simp ↓] theorem State.currentPi_keeps {A : Scope} {s₀ : State} (s : State) (vmax : Int) (refs : Int × Int) (dq : Int × Int) (hk : Keeps A s₀ s)
    (hA : A.covers State.currentPi_sites) :
    Keeps A s₀ (State.currentPi s vmax refs dq) := by
  simp [State.currentPi_sites] at hA
  simp (maxDischargeDepth := 99) [State.currentPi, hk, hA]

def State.applyVoltage_sites : List Site := [.part .spn]

@[simp ↓] theorem State.applyVoltage_keeps {A : Scope} {s₀ : State} (s : State) (vin : Nat) (angle : Nat) (hk : Keeps A s₀ s)
    (hA : A.covers State.applyVoltage_sites) :
    Keeps A s₀ (State.applyVoltage s vin angle) := by
  simp [State.applyVoltage_sites] at hA
  simp (maxDischargeDepth := 99) [State.applyVoltage, hk, hA]

def State.applyZero_sites : List Site := [.part .spn]

@[simp ↓] theorem State.applyZero_keeps {A : Scope} {s₀ : State} (s : State) (hk : Keeps A s₀ s)
    (hA : A.covers State.applyZero_sites) :
    Keeps A s₀ (State.applyZero s) := by
  simp [State.applyZero_sites] at hA
  simp (maxDischargeDepth := 99) [State.applyZero, hk, hA]

def State.fieldWeaken_sites : List Site := State.setIdRef_sites ++ [.one R.SPN_DRIVE, .one R.SPN_EVENTS]

@[simp ↓] theorem State.fieldWeaken_keeps {A : Scope} {s₀ : State} (s : State) (vmax : Int) (hk : Keeps A s₀ s)
    (hA : A.covers State.fieldWeaken_sites) :
    Keeps A s₀ (State.fieldWeaken s vmax) := by
  simp [State.fieldWeaken_sites] at hA
  simp (maxDischargeDepth := 99) [State.fieldWeaken, hk, hA]

def State.floatWindow_sites : List Site := [.part .spn]

@[simp ↓] theorem State.floatWindow_keeps {A : Scope} {s₀ : State} (s : State) (angle : Nat) (step : Int) (hk : Keeps A s₀ s)
    (hA : A.covers State.floatWindow_sites) :
    Keeps A s₀ (State.floatWindow s angle step) := by
  simp [State.floatWindow_sites] at hA
  unfold State.floatWindow
  exact State.modSpn_keeps _ _ hk (by simp [hA])

def State.relock_sites : List Site := State.toSpn_sites ++ [.one R.SPN_EVENTS, .part .spn]

@[simp ↓] theorem State.relock_keeps {A : Scope} {s₀ : State} (s : State) (hk : Keeps A s₀ s)
    (hA : A.covers State.relock_sites) :
    Keeps A s₀ (State.relock s) := by
  simp [State.relock_sites] at hA
  simp (maxDischargeDepth := 99) [State.relock, hk, hA]

def State.observerState_sites : List Site := State.relock_sites ++ State.spnHold_sites ++ State.toSpn_sites ++ [.part .spn]

@[simp ↓] theorem State.observerState_keeps {A : Scope} {s₀ : State} (s : State) (wasLocked : Bool) (hk : Keeps A s₀ s)
    (hA : A.covers State.observerState_sites) :
    Keeps A s₀ (State.observerState s wasLocked) := by
  simp [State.observerState_sites] at hA
  simp only [State.observerState]
  repeat' split
  all_goals simp_all (maxDischargeDepth := 99)

def State.rampRun_sites : List Site := [.part .spn]

@[simp ↓] theorem State.rampRun_keeps {A : Scope} {s₀ : State} (s : State) (ps : Nat) (hk : Keeps A s₀ s)
    (hA : A.covers State.rampRun_sites) :
    Keeps A s₀ (State.rampRun s ps) := by
  simp [State.rampRun_sites] at hA
  simp (maxDischargeDepth := 99) [State.rampRun, hk, hA]

def State.drive_sites : List Site :=
  State.applyVoltage_sites ++ State.applyZero_sites ++ State.currentPi_sites ++ State.fieldWeaken_sites ++
    State.floatWindow_sites

@[simp ↓] theorem State.drive_keeps {A : Scope} {s₀ : State} (s : State) (obs : LoopObs) (ps : Nat) (dq : Int × Int) (hk : Keeps A s₀ s)
    (hA : A.covers State.drive_sites) :
    Keeps A s₀ (State.drive s obs ps dq) := by
  simp [State.drive_sites] at hA
  simp only [State.drive]
  repeat' split
  all_goals simp_all (maxDischargeDepth := 99) +contextual

def execCurrentLoopRun_sites : List Site :=
  State.drive_sites ++ State.evalWriteOk_sites ++ State.observe_sites ++ State.observerState_sites ++ State.openBridge_sites
    ++ State.rampRun_sites ++ [.one R.SPN_CURRENT, .part .spn]

theorem execCurrentLoopRun_keeps {A : Scope} (obs : LoopObs) (s : State)
    (hA : A.covers execCurrentLoopRun_sites) : KeepsOut A s (execCurrentLoopRun obs s) := by
  simp [execCurrentLoopRun_sites] at hA
  simp only [execCurrentLoopRun]
  repeat' split
  all_goals simp_all (maxDischargeDepth := 99)

def execServoOffsetLearn_sites : List Site := [.one R.SPN_SERVO_OFS, .part .spn]

theorem execServoOffsetLearn_keeps {A : Scope} (s : State)
    (hA : A.covers execServoOffsetLearn_sites) : KeepsOut A s (execServoOffsetLearn s) := by
  simp [execServoOffsetLearn_sites] at hA
  simp (maxDischargeDepth := 99) [execServoOffsetLearn, hA]

def execCatchMeasureDone_sites : List Site :=
  State.event_sites ++ State.spnAlign_sites ++ State.spnBrake_sites ++ [.one R.SPN_ANGLE, .one R.SPN_EVENTS, .one R.SPN_SPEED,
    .part .spn]

theorem execCatchMeasureDone_keeps {A : Scope} (forward : Bool) (rate : Nat) (amplitude : Nat) (angle : Nat) (s : State)
    (hA : A.covers execCatchMeasureDone_sites) : KeepsOut A s (execCatchMeasureDone forward rate amplitude angle s) := by
  simp [execCatchMeasureDone_sites] at hA
  simp (maxDischargeDepth := 99) [execCatchMeasureDone, hA]

def execCatchTimeout_sites : List Site := State.spnBrake_sites ++ [.part .spn]

theorem execCatchTimeout_keeps {A : Scope} (s : State)
    (hA : A.covers execCatchTimeout_sites) : KeepsOut A s (execCatchTimeout s) := by
  simp [execCatchTimeout_sites] at hA
  simp (maxDischargeDepth := 99) [execCatchTimeout, hA]

def execAlignDone_sites : List Site := State.setIdRef_sites ++ State.toSpn_sites ++ [.part .spn]

theorem execAlignDone_keeps {A : Scope} (stage : Nat) (s : State)
    (hA : A.covers execAlignDone_sites) : KeepsOut A s (execAlignDone stage s) := by
  simp [execAlignDone_sites] at hA
  simp (maxDischargeDepth := 99) [execAlignDone, hA]

def execCommutationTimeout_sites : List Site :=
  State.driveOff_sites ++ State.event_sites ++ State.spnAlign_sites ++ State.spnLocked_sites ++ [.one R.SPN_EVENTS, .one
    R.SPN_STATUS, .part .spn]

theorem execCommutationTimeout_keeps {A : Scope} (s : State)
    (hA : A.covers execCommutationTimeout_sites) : KeepsOut A s (execCommutationTimeout s) := by
  simp [execCommutationTimeout_sites] at hA
  simp (maxDischargeDepth := 99) [execCommutationTimeout, hA]

def execSpeedBandReached_sites : List Site := State.toSpn_sites ++ [.one R.SPN_STATUS, .part .spn]

theorem execSpeedBandReached_keeps {A : Scope} (s : State)
    (hA : A.covers execSpeedBandReached_sites) : KeepsOut A s (execSpeedBandReached s) := by
  simp [execSpeedBandReached_sites] at hA
  simp (maxDischargeDepth := 99) [execSpeedBandReached, hA]

def execHoldFloatWindow_sites : List Site :=
  State.relock_sites ++ [.one R.SPN_ANGLE, .one R.SPN_SPEED, .one R.SPN_STATUS, .one R.SPN_UNC, .part .spn]

theorem execHoldFloatWindow_keeps {A : Scope} (offset : Int) (amplitude : Nat) (interval : Nat) (s : State)
    (hA : A.covers execHoldFloatWindow_sites) : KeepsOut A s (execHoldFloatWindow offset amplitude interval s) := by
  simp [execHoldFloatWindow_sites] at hA
  have hk := Keeps.refl A s
  unfold execHoldFloatWindow
  repeat' (first
    | (intro x; clear_value x))
  all_goals first | (simp (maxDischargeDepth := 99) +contextual [*]; done) | simp_all (maxDischargeDepth := 99) +contextual

def execHoldTimeout_sites : List Site := State.spnCatch_sites ++ State.spnCoast_sites ++ State.startUnload_sites

theorem execHoldTimeout_keeps {A : Scope} (s : State)
    (hA : A.covers execHoldTimeout_sites) : KeepsOut A s (execHoldTimeout s) := by
  simp [execHoldTimeout_sites] at hA
  simp (maxDischargeDepth := 99) [execHoldTimeout, hA]

def execLockedRotor_sites : List Site := State.spnLocked_sites

theorem execLockedRotor_keeps {A : Scope} (s : State)
    (hA : A.covers execLockedRotor_sites) : KeepsOut A s (execLockedRotor s) := by
  simp [execLockedRotor_sites] at hA
  simp (maxDischargeDepth := 99) [execLockedRotor, hA]

def execCoastStopped_sites : List Site := State.spnStopped_sites

theorem execCoastStopped_keeps {A : Scope} (s : State)
    (hA : A.covers execCoastStopped_sites) : KeepsOut A s (execCoastStopped s) := by
  simp [execCoastStopped_sites] at hA
  simp (maxDischargeDepth := 99) [execCoastStopped, hA]

def execCoastRetractTimeout_sites : List Site := State.eretractBoth_sites

theorem execCoastRetractTimeout_keeps {A : Scope} (s : State)
    (hA : A.covers execCoastRetractTimeout_sites) : KeepsOut A s (execCoastRetractTimeout s) := by
  simp [execCoastRetractTimeout_sites] at hA
  simp (maxDischargeDepth := 99) [execCoastRetractTimeout, hA]

def execBrakeDone_sites : List Site := State.spnAlign_sites ++ State.spnStopped_sites

theorem execBrakeDone_keeps {A : Scope} (s : State)
    (hA : A.covers execBrakeDone_sites) : KeepsOut A s (execBrakeDone s) := by
  simp [execBrakeDone_sites] at hA
  simp (maxDischargeDepth := 99) [execBrakeDone, hA]

def execUnloadHoldEnd_sites : List Site := State.coastCatch_sites ++ State.unloaded_sites ++ [.each R.ACT_EVENTS]

theorem execUnloadHoldEnd_keeps {A : Scope} (a : Nat) (s : State)
    (hA : A.covers execUnloadHoldEnd_sites) : KeepsOut A s (execUnloadHoldEnd a s) := by
  simp [execUnloadHoldEnd_sites] at hA
  simp (maxDischargeDepth := 99) [execUnloadHoldEnd, hA]

def execRetractEnd_sites : List Site := State.coastCatch_sites ++ State.unloaded_sites ++ [.each R.ACT_EVENTS]

theorem execRetractEnd_keeps {A : Scope} (a : Nat) (s : State)
    (hA : A.covers execRetractEnd_sites) : KeepsOut A s (execRetractEnd a s) := by
  simp [execRetractEnd_sites] at hA
  simp (maxDischargeDepth := 99) [execRetractEnd, hA]

end Sys2Proof.Machine
end

