-- ==== Sys2Proof/Laws/KeepsRow.lean ====
section
/-!
SUPPORT. Sys2Proof/Laws/KeepsRow.lean: the operations and meanings of Machine/Row.lean keep (Laws/Keeps.lean).
-/

set_option linter.all false
set_option Elab.async false

namespace Sys2Proof.Machine

@[simp] theorem pairFld_addr (p : Nat) : (pairFld p).addr = R.SYS_PAIR_STATUS := id rfl

def State.pairStore_sites : List Site := State.event_sites ++ [.part .pairs, .part .prot, .part .sram, .part .dram]

@[simp ↓] theorem State.pairStore_keeps {A : Scope} {s₀ : State} (s : State) (p : Nat) (sp : Space) (addr : Nat) (bytes : List Byte) (hk : Keeps A s₀ s)
    (hA : A.covers State.pairStore_sites) :
    Keeps A s₀ (State.pairStore s p sp addr bytes) := by
  simp [State.pairStore_sites] at hA
  simp (maxDischargeDepth := 99) [State.pairStore, hk, hA]

def execPairStore_sites : List Site := State.pairStore_sites

theorem execPairStore_keeps {A : Scope} (p : Nat) (sp : Space) (addr : Nat) (bytes : List Byte) (s : State)
    (hA : A.covers execPairStore_sites) : KeepsOut A s (execPairStore p sp addr bytes s) := by
  simp [execPairStore_sites] at hA
  simp (maxDischargeDepth := 99) [execPairStore, hA]

def State.checkpointPair_sites : List Site := State.draw_sites ++ State.pairStore_sites ++ [.part .pairs]

@[simp ↓] theorem State.checkpointPair_keeps {A : Scope} {s₀ : State} (s : State) (p : Nat) (hk : Keeps A s₀ s)
    (hA : A.covers State.checkpointPair_sites) :
    Keeps A s₀ (State.checkpointPair s p) := by
  simp [State.checkpointPair_sites] at hA
  simp (maxDischargeDepth := 99) +contextual [State.checkpointPair, hk, hA]

def State.checkpoints_sites : List Site := State.checkpointPair_sites

@[simp ↓] theorem State.checkpoints_keeps {A : Scope} {s₀ : State} (s : State) (hk : Keeps A s₀ s)
    (hA : A.covers State.checkpoints_sites) :
    Keeps A s₀ (State.checkpoints s) := by
  simp [State.checkpoints_sites] at hA
  unfold State.checkpoints
  repeat' (first
    | (intro x; clear_value x))
  all_goals first | (simp (maxDischargeDepth := 99) +contextual [*]; done) | simp_all (maxDischargeDepth := 99) +contextual

def State.vendorPage_sites : List Site := [.part .host]

@[simp ↓] theorem State.vendorPage_keeps {A : Scope} {s₀ : State} (s : State) (lid : Nat) (entries : Nat) (body : List Byte) (hk : Keeps A s₀ s)
    (hA : A.covers State.vendorPage_sites) :
    Keeps A s₀ (State.vendorPage s lid entries body).2 := by
  simp [State.vendorPage_sites] at hA
  simp (maxDischargeDepth := 99) [State.vendorPage, hk, hA]

def State.sendPage_sites : List Site := State.completeSlot_sites ++ State.sendBytes_sites

@[simp ↓] theorem State.sendPage_keeps {A : Scope} {s₀ : State} (s : State) (n : Nat) (page : List Byte) (hk : Keeps A s₀ s)
    (hA : A.covers State.sendPage_sites) :
    Keeps A s₀ (State.sendPage s n page) := by
  simp [State.sendPage_sites] at hA
  unfold State.sendPage
  repeat' (first
    | (intro x; clear_value x)
    | (split <;> try lift_lets))
  all_goals first | (simp (maxDischargeDepth := 99) +contextual [*]; done) | simp_all (maxDischargeDepth := 99) +contextual

def State.keepSnapshot_sites : List Site := State.modController_sites

@[simp ↓] theorem State.keepSnapshot_keeps {A : Scope} {s₀ : State} (s : State) (c : Nat) (lid : Nat) (page : List Byte) (hk : Keeps A s₀ s)
    (hA : A.covers State.keepSnapshot_sites) :
    Keeps A s₀ (State.keepSnapshot s c lid page) := by
  simp [State.keepSnapshot_sites] at hA
  simp (maxDischargeDepth := 99) [State.keepSnapshot, hk, hA]

def State.finishLedgerRead_sites : List Site := State.keepSnapshot_sites ++ State.sendPage_sites ++ State.vendorPage_sites

@[simp ↓] theorem State.finishLedgerRead_keeps {A : Scope} {s₀ : State} (s : State) (n : Nat) (hk : Keeps A s₀ s)
    (hA : A.covers State.finishLedgerRead_sites) :
    Keeps A s₀ (State.finishLedgerRead s n) := by
  simp [State.finishLedgerRead_sites] at hA
  simp only [State.finishLedgerRead]
  repeat' split
  all_goals simp_all (maxDischargeDepth := 99)

def State.ledgerCheck_sites : List Site := State.finishLedgerRead_sites ++ State.runCheck_sites ++ [.part .host]

@[simp ↓] theorem State.ledgerCheck_keeps {A : Scope} {s₀ : State} (s : State) (hk : Keeps A s₀ s)
    (hA : A.covers State.ledgerCheck_sites) :
    Keeps A s₀ (State.ledgerCheck s) := by
  simp [State.ledgerCheck_sites] at hA
  unfold State.ledgerCheck
  repeat' (first
    | (intro x; clear_value x))
  all_goals first | (simp (maxDischargeDepth := 99) +contextual [*]; done) | simp_all (maxDischargeDepth := 99) +contextual

def execLedgerCheck_sites : List Site := State.ledgerCheck_sites

theorem execLedgerCheck_keeps {A : Scope} (s : State)
    (hA : A.covers execLedgerCheck_sites) : KeepsOut A s (execLedgerCheck s) := by
  simp [execLedgerCheck_sites] at hA
  simp (maxDischargeDepth := 99) [execLedgerCheck, hA]

def State.checkFirst_sites : List Site := State.ledgerCheck_sites ++ [.one R.ROWT_FAULTS, .one R.ROWT_STATUS]

@[simp ↓] theorem State.checkFirst_keeps {A : Scope} {s₀ : State} (s : State) (t : Nat) (hk : Keeps A s₀ s)
    (hA : A.covers State.checkFirst_sites) :
    Keeps A s₀ (State.checkFirst s t) := by
  simp [State.checkFirst_sites] at hA
  simp (maxDischargeDepth := 99) [State.checkFirst, hk, hA]

def State.addOptime_sites : List Site := [.one R.KEEP_OPTIME_HI, .one R.KEEP_OPTIME_LO]

@[simp ↓] theorem State.addOptime_keeps {A : Scope} {s₀ : State} (s : State) (from_ : Nat) (until_ : Nat) (hk : Keeps A s₀ s)
    (hA : A.covers State.addOptime_sites) :
    Keeps A s₀ (State.addOptime s from_ until_) := by
  simp [State.addOptime_sites] at hA
  simp (maxDischargeDepth := 99) [State.addOptime, hk, hA]

def State.readInputs_sites : List Site := State.draw_sites ++ [.one R.PWR_VIN]

@[simp ↓] theorem State.readInputs_keeps {A : Scope} {s₀ : State} (s : State) (hk : Keeps A s₀ s)
    (hA : A.covers State.readInputs_sites) :
    Keeps A s₀ (State.readInputs s) := by
  simp [State.readInputs_sites] at hA
  simp (maxDischargeDepth := 99) [State.readInputs, hk, hA]

def State.applyCeiling_sites : List Site := [.one R.KEEP_CEILING, .part .keeper]

@[simp ↓] theorem State.applyCeiling_keeps {A : Scope} {s₀ : State} (s : State) (hk : Keeps A s₀ s)
    (hA : A.covers State.applyCeiling_sites) :
    Keeps A s₀ (State.applyCeiling s) := by
  simp [State.applyCeiling_sites] at hA
  unfold State.applyCeiling
  repeat' (first
    | (intro x; clear_value x)
    | (split <;> try lift_lets))
  all_goals first | (simp (maxDischargeDepth := 99) +contextual [*]; done) | simp_all (maxDischargeDepth := 99) +contextual

def State.seeIndex_sites : List Site := State.revolution_sites ++ [.part .acts]

@[simp ↓] theorem State.seeIndex_keeps {A : Scope} {s₀ : State} (s : State) (a : Nat) (t : Nat) (index : Nat) (hk : Keeps A s₀ s)
    (hA : A.covers State.seeIndex_sites) :
    Keeps A s₀ (State.seeIndex s a t index) := by
  simp [State.seeIndex_sites] at hA
  simp (maxDischargeDepth := 99) [State.seeIndex, hk, hA]

def State.indexRow_sites : List Site := State.revolution_sites ++ [.part .acts]

@[simp ↓] theorem State.indexRow_keeps {A : Scope} {s₀ : State} (s : State) (a : Nat) (hk : Keeps A s₀ s)
    (hA : A.covers State.indexRow_sites) :
    Keeps A s₀ (State.indexRow s a) := by
  simp [State.indexRow_sites] at hA
  simp (maxDischargeDepth := 99) [State.indexRow, hk, hA]

def State.actuatorRow_sites : List Site :=
  State.endGate_sites ++ State.followOps_sites ++ State.gate_sites ++ State.indexRow_sites ++ [.part .acts]

@[simp ↓] theorem State.actuatorRow_keeps {A : Scope} {s₀ : State} (s : State) (a : Nat) (hk : Keeps A s₀ s)
    (hA : A.covers State.actuatorRow_sites) :
    Keeps A s₀ (State.actuatorRow s a) := by
  simp [State.actuatorRow_sites] at hA
  simp (maxDischargeDepth := 99) [State.actuatorRow, hk, hA]

def State.handoverPend_sites : List Site := [.one R.ROWT_STATUS]

@[simp ↓] theorem State.handoverPend_keeps {A : Scope} {s₀ : State} (s : State) (hk : Keeps A s₀ s)
    (hA : A.covers State.handoverPend_sites) :
    Keeps A s₀ (State.handoverPend s) := by
  simp [State.handoverPend_sites] at hA
  simp (maxDischargeDepth := 99) [State.handoverPend, hk, hA]

def State.countEvals_sites : List Site := [.each R.SCH_EVALS, .part .flow]

@[simp ↓] theorem State.countEvals_keeps {A : Scope} {s₀ : State} (s : State) (hk : Keeps A s₀ s)
    (hA : A.covers State.countEvals_sites) :
    Keeps A s₀ (State.countEvals s) := by
  simp [State.countEvals_sites] at hA
  simp (maxDischargeDepth := 99) +contextual [State.countEvals, hk, hA]

def State.boundary_sites : List Site :=
  State.actuatorRow_sites ++ State.addOptime_sites ++ State.applyCeiling_sites ++ State.applyModes_sites ++
    State.checkFirst_sites ++ State.checkpoints_sites ++ State.countEvals_sites ++ State.finishPhases_sites ++
    State.handoverPend_sites ++ State.readInputs_sites ++ State.releaseTransfers_sites ++ State.spindleRow_sites ++ [.one
    R.ROWT_COUNT_HI, .one R.ROWT_COUNT_LO, .one R.ROWT_PERIOD, .one R.ROWT_STATUS, .part .row, .part .stitch, .part .flow]

@[simp ↓] theorem State.boundary_keeps {A : Scope} {s₀ : State} (s : State) (t : Nat) (source : Nat) (hk : Keeps A s₀ s)
    (hA : A.covers State.boundary_sites) :
    Keeps A s₀ (State.boundary s t source) := by
  simp [State.boundary_sites] at hA
  simp (maxDischargeDepth := 99) [State.boundary, hk, hA]

def State.timedBoundary_sites : List Site := State.boundary_sites ++ [.part .row]

@[simp ↓] theorem State.timedBoundary_keeps {A : Scope} {s₀ : State} (s : State) (t : Nat) (source : Nat) (hk : Keeps A s₀ s)
    (hA : A.covers State.timedBoundary_sites) :
    Keeps A s₀ (State.timedBoundary s t source) := by
  simp [State.timedBoundary_sites] at hA
  simp (maxDischargeDepth := 99) [State.timedBoundary, hk, hA]

def State.averageOffset_sites : List Site := [.one R.ROWT_AB_OFFSET, .one R.ROWT_STATUS, .part .row]

@[simp ↓] theorem State.averageOffset_keeps {A : Scope} {s₀ : State} (s : State) (hk : Keeps A s₀ s)
    (hA : A.covers State.averageOffset_sites) :
    Keeps A s₀ (State.averageOffset s) := by
  simp [State.averageOffset_sites] at hA
  unfold State.averageOffset
  repeat' (first
    | (intro x; first
        | (have hx : Keeps A s₀ x := by
             subst x
             repeat' split
             all_goals first | with_reducible assumption | (simp (maxDischargeDepth := 99) +contextual [*]; done) | simp_all (maxDischargeDepth := 99) +contextual
           clear_value x)
        | clear_value x)
    | (split <;> try lift_lets))
  all_goals first | (simp (maxDischargeDepth := 99) +contextual [*]; done) | simp_all (maxDischargeDepth := 99) +contextual

def State.enterFlywheel_sites : List Site := [.one R.ROWT_STATUS, .part .row]

@[simp ↓] theorem State.enterFlywheel_keeps {A : Scope} {s₀ : State} (s : State) (hk : Keeps A s₀ s)
    (hA : A.covers State.enterFlywheel_sites) :
    Keeps A s₀ (State.enterFlywheel s) := by
  simp [State.enterFlywheel_sites] at hA
  simp (maxDischargeDepth := 99) [State.enterFlywheel, hk, hA]

def State.acceptedWedge_sites : List Site := State.boundary_sites ++ [.one R.ROWT_STATUS, .part .row]

@[simp ↓] theorem State.acceptedWedge_keeps {A : Scope} {s₀ : State} (s : State) (a : Nat) (t : Nat) (hk : Keeps A s₀ s)
    (hA : A.covers State.acceptedWedge_sites) :
    Keeps A s₀ (State.acceptedWedge s a t) := by
  simp [State.acceptedWedge_sites] at hA
  unfold State.acceptedWedge
  repeat' (first
    | (intro x; first
        | (have hx : Keeps A s₀ x := by
             subst x
             repeat' split
             all_goals first | with_reducible assumption | (simp (maxDischargeDepth := 99) +contextual [*]; done) | simp_all (maxDischargeDepth := 99) +contextual
           clear_value x)
        | clear_value x)
    | (split <;> try lift_lets))
  all_goals first | (simp (maxDischargeDepth := 99) +contextual [*]; done) | simp_all (maxDischargeDepth := 99) +contextual

def State.wedgeInUseMissed_sites : List Site := State.boundary_sites ++ State.enterFlywheel_sites ++ [.one R.ROWT_STATUS]

@[simp ↓] theorem State.wedgeInUseMissed_keeps {A : Scope} {s₀ : State} (s : State) (hk : Keeps A s₀ s)
    (hA : A.covers State.wedgeInUseMissed_sites) :
    Keeps A s₀ (State.wedgeInUseMissed s) := by
  simp [State.wedgeInUseMissed_sites] at hA
  unfold State.wedgeInUseMissed
  repeat' (first
    | (intro x; clear_value x)
    | (split <;> try lift_lets))
  all_goals first | (simp (maxDischargeDepth := 99) +contextual [*]; done) | simp_all (maxDischargeDepth := 99) +contextual

def execWedgeSample_sites : List Site :=
  State.acceptedWedge_sites ++ State.averageOffset_sites ++ State.endGate_sites ++ State.finishPhase_sites ++
    State.formRow_sites ++ State.gate_sites ++ State.sampleWedge_sites ++ State.seeIndex_sites ++ State.settleElapsed_sites ++
    State.wedgeInUseMissed_sites ++ [.part .row]

theorem execWedgeSample_keeps {A : Scope} (a : Nat) (t : Nat) (obs : WedgeObs) (s : State)
    (hA : A.covers execWedgeSample_sites) : KeepsOut A s (execWedgeSample a t obs s) := by
  simp [execWedgeSample_sites] at hA
  have hk := Keeps.refl A s
  unfold execWedgeSample
  repeat' (first
    | (intro x; first
        | (have hx : Keeps A s x := by
             subst x
             repeat' split
             all_goals first | with_reducible assumption | (simp (maxDischargeDepth := 99) +contextual [*]; done) | simp_all (maxDischargeDepth := 99) +contextual
           clear_value x)
        | clear_value x)
    | (split <;> try lift_lets))
  all_goals first | (simp (maxDischargeDepth := 99) +contextual [*]; done) | simp_all (maxDischargeDepth := 99) +contextual

def execIdlePeriodExpiry_sites : List Site := State.timedBoundary_sites

theorem execIdlePeriodExpiry_keeps {A : Scope} (s : State)
    (hA : A.covers execIdlePeriodExpiry_sites) : KeepsOut A s (execIdlePeriodExpiry s) := by
  simp [execIdlePeriodExpiry_sites] at hA
  simp (maxDischargeDepth := 99) [execIdlePeriodExpiry, hA]

def State.flywheelBoundary_sites : List Site :=
  State.gates_sites ++ State.timedBoundary_sites ++ [.one R.ROWT_FAULTS, .part .row]

@[simp ↓] theorem State.flywheelBoundary_keeps {A : Scope} {s₀ : State} (s : State) (hk : Keeps A s₀ s)
    (hA : A.covers State.flywheelBoundary_sites) :
    Keeps A s₀ (State.flywheelBoundary s) := by
  simp [State.flywheelBoundary_sites] at hA
  simp (maxDischargeDepth := 99) [State.flywheelBoundary, hk, hA]

def execFlywheelBoundary_sites : List Site := State.flywheelBoundary_sites ++ State.wedgeInUseMissed_sites

theorem execFlywheelBoundary_keeps {A : Scope} (s : State)
    (hA : A.covers execFlywheelBoundary_sites) : KeepsOut A s (execFlywheelBoundary s) := by
  simp [execFlywheelBoundary_sites] at hA
  have hk := Keeps.refl A s
  unfold execFlywheelBoundary
  repeat' (first
    | (intro x; first
        | (have hx : Keeps A s x := by
             subst x
             repeat' split
             all_goals first | with_reducible assumption | (simp (maxDischargeDepth := 99) +contextual [*]; done) | simp_all (maxDischargeDepth := 99) +contextual
           clear_value x)
        | clear_value x)
    | (split <;> try lift_lets))
  all_goals first | (simp (maxDischargeDepth := 99) +contextual [*]; done) | simp_all (maxDischargeDepth := 99) +contextual

def execFlywheelMaxReached_sites : List Site := [.one R.ROWT_FAULTS, .one R.ROWT_STATUS]

theorem execFlywheelMaxReached_keeps {A : Scope} (s : State)
    (hA : A.covers execFlywheelMaxReached_sites) : KeepsOut A s (execFlywheelMaxReached s) := by
  simp [execFlywheelMaxReached_sites] at hA
  simp (maxDischargeDepth := 99) [execFlywheelMaxReached, hA]

def execLongRowTimeout_sites : List Site := State.enterFlywheel_sites ++ State.timedBoundary_sites ++ [.part .row]

theorem execLongRowTimeout_keeps {A : Scope} (s : State)
    (hA : A.covers execLongRowTimeout_sites) : KeepsOut A s (execLongRowTimeout s) := by
  simp [execLongRowTimeout_sites] at hA
  simp (maxDischargeDepth := 99) [execLongRowTimeout, hA]

def State.modLink_sites : List Site := [.part .cable]

@[simp ↓] theorem State.modLink_keeps {A : Scope} {s₀ : State} (s : State) (segment : Nat) (fromHub : Bool) (f : CableLink → CableLink) (hk : Keeps A s₀ s)
    (hA : A.covers State.modLink_sites) :
    Keeps A s₀ (State.modLink s segment fromHub f) := by
  simp [State.modLink_sites] at hA
  simp (maxDischargeDepth := 99) [State.modLink, hk, hA]

def State.trackRequest_sites : List Site := [.part .pairs]

@[simp ↓] theorem State.trackRequest_keeps {A : Scope} {s₀ : State} (s : State) (x : CableItem) (hk : Keeps A s₀ s)
    (hA : A.covers State.trackRequest_sites) :
    Keeps A s₀ (State.trackRequest s x) := by
  simp [State.trackRequest_sites] at hA
  simp only [State.trackRequest]
  repeat' split
  all_goals simp_all (maxDischargeDepth := 99) +contextual

def State.hubTakes_sites : List Site := State.event_sites ++ State.trackRequest_sites ++ [.part .cable]

@[simp ↓] theorem State.hubTakes_keeps {A : Scope} {s₀ : State} (s : State) (p : CablePacket) (hk : Keeps A s₀ s)
    (hA : A.covers State.hubTakes_sites) :
    Keeps A s₀ (State.hubTakes s p) := by
  simp [State.hubTakes_sites] at hA
  simp (maxDischargeDepth := 99) [State.hubTakes, hk, hA]

def State.unitTakes_sites : List Site := [.part .cable]

@[simp ↓] theorem State.unitTakes_keeps {A : Scope} {s₀ : State} (s : State) (p : CablePacket) (hk : Keeps A s₀ s)
    (hA : A.covers State.unitTakes_sites) :
    Keeps A s₀ (State.unitTakes s p) := by
  simp [State.unitTakes_sites] at hA
  simp only [State.unitTakes]
  repeat' split
  all_goals simp_all (maxDischargeDepth := 99) +contextual

def execCablePacketReceive_sites : List Site :=
  State.hubTakes_sites ++ State.modLink_sites ++ State.snagPass_sites ++ State.unitTakes_sites

theorem execCablePacketReceive_keeps {A : Scope} (segment : Nat) (fromHub : Bool) (p : CablePacket) (s : State)
    (hA : A.covers execCablePacketReceive_sites) :
    KeepsOut A s (execCablePacketReceive segment fromHub p s) := by
  simp [execCablePacketReceive_sites] at hA
  simp only [execCablePacketReceive]
  split
  · simp
  · have hp (k : Nat) (b : Bool) : Keeps A s (State.snagPass s 1 k b).2 := State.snagPass_keeps s 1 k b (Keeps.refl A s) (by first | assumption | simp [*])
    have hq := hp (segment + if fromHub then 128 else 0)
      ((s.link segment fromHub).discarding && p.seq % 256 == (s.link segment fromHub).expected)
    generalize State.snagPass s 1 _ _ = r at hq ⊢
    obtain ⟨hit, t⟩ := r
    replace hq : Keeps A s t := hq
    rcases hit with _ | ⟨_ | k, v⟩ <;> simp (maxDischargeDepth := 99) [hq, hA]

def execCableFail_sites : List Site :=
  State.eretractBoth_sites ++ State.event_sites ++ State.gates_sites ++ State.setCfs_sites ++ State.uncovered_sites ++ [.part
    .cable]

theorem execCableFail_keeps {A : Scope} (segment : Nat) (fromHub : Bool) (s : State)
    (hA : A.covers execCableFail_sites) : KeepsOut A s (execCableFail segment fromHub s) := by
  simp [execCableFail_sites] at hA
  simp (maxDischargeDepth := 99) [execCableFail, hA]

end Sys2Proof.Machine
end

