-- ==== Sys2Proof/Laws/KeepsGeometry.lean ====
section
/-!
SUPPORT. Sys2Proof/Laws/KeepsGeometry.lean: the operations and meanings of Machine/Geometry.lean keep (Laws/Keeps.lean).
-/

set_option linter.all false
set_option Elab.async false

namespace Sys2Proof.Machine

def State.setZdesc_sites : List Site := [.part .stitch]

@[simp ↓] theorem State.setZdesc_keeps {A : Scope} {s₀ : State} (s : State) (z : Nat) (d : ZoneDesc) (hk : Keeps A s₀ s)
    (hA : A.covers State.setZdesc_sites) :
    Keeps A s₀ (State.setZdesc s z d) := by
  simp [State.setZdesc_sites] at hA
  simp (maxDischargeDepth := 99) [State.setZdesc, hk, hA]

def State.writeMedia_sites : List Site := [.part .stitch]

@[simp ↓] theorem State.writeMedia_keeps {A : Scope} {s₀ : State} (s : State) (p : Nat) (x : MediaSector) (hk : Keeps A s₀ s)
    (hA : A.covers State.writeMedia_sites) :
    Keeps A s₀ (State.writeMedia s p x) := by
  simp [State.writeMedia_sites] at hA
  simp (maxDischargeDepth := 99) [State.writeMedia, hk, hA]

def State.tearMedia_sites : List Site := [.part .stitch]

@[simp ↓] theorem State.tearMedia_keeps {A : Scope} {s₀ : State} (s : State) (p : Nat) (x : MediaSector) (hk : Keeps A s₀ s)
    (hA : A.covers State.tearMedia_sites) :
    Keeps A s₀ (State.tearMedia s p x) := by
  simp [State.tearMedia_sites] at hA
  simp (maxDischargeDepth := 99) [State.tearMedia, hk, hA]

end Sys2Proof.Machine
end

