-- ==== Sys2Proof/Laws/KeepsStitch.lean ====
section
/-!
SUPPORT. Sys2Proof/Laws/KeepsStitch.lean: the operations and meanings of Machine/Stitch.lean keep (Laws/Keeps.lean).
-/

set_option linter.all false
set_option Elab.async false

namespace Sys2Proof.Machine

def State.mapUsage_sites : List Site := [.one R.STM_LEAVES, .one R.STM_USAGE]

@[simp ↓] theorem State.mapUsage_keeps {A : Scope} {s₀ : State} (s : State) (hk : Keeps A s₀ s)
    (hA : A.covers State.mapUsage_sites) :
    Keeps A s₀ (State.mapUsage s) := by
  simp [State.mapUsage_sites] at hA
  simp (maxDischargeDepth := 99) [State.mapUsage, hk, hA]

def State.replaceRange_sites : List Site := State.mapUsage_sites ++ [.part .stitch]

@[simp ↓] theorem State.replaceRange_keeps {A : Scope} {s₀ : State} (s : State) (e : MapEntry) (hk : Keeps A s₀ s)
    (hA : A.covers State.replaceRange_sites) :
    Keeps A s₀ (State.replaceRange s e) := by
  simp [State.replaceRange_sites] at hA
  simp (maxDischargeDepth := 99) [State.replaceRange, hk, hA]

def State.journalReg_sites : List Site := [.one R.STM_JOURNAL]

@[simp ↓] theorem State.journalReg_keeps {A : Scope} {s₀ : State} (s : State) (hk : Keeps A s₀ s)
    (hA : A.covers State.journalReg_sites) :
    Keeps A s₀ (State.journalReg s) := by
  simp [State.journalReg_sites] at hA
  simp (maxDischargeDepth := 99) [State.journalReg, hk, hA]

def State.journalOne_sites : List Site := State.journalReg_sites ++ [.part .stitch]

@[simp ↓] theorem State.journalOne_keeps {A : Scope} {s₀ : State} (s : State) (r : WalkerRequest) (e : Option MapEntry) (zone : Nat) (hk : Keeps A s₀ s)
    (hA : A.covers State.journalOne_sites) :
    Keeps A s₀ (State.journalOne s r e zone) := by
  simp [State.journalOne_sites] at hA
  simp (maxDischargeDepth := 99) [State.journalOne, hk, hA]

def State.throughClaim_sites : List Site := [.one R.ORD_OVL_COUNTS, .one R.ORD_OVL_EVENTS]

@[simp ↓] theorem State.throughClaim_keeps {A : Scope} {s₀ : State} (s : State) (claim : Option Nat) (d : Nat) (n : Nat) (hk : Keeps A s₀ s)
    (hA : A.covers State.throughClaim_sites) :
    Keeps A s₀ (State.throughClaim s claim d n).2 := by
  simp [State.throughClaim_sites] at hA
  unfold State.throughClaim
  repeat' (first
    | (intro x; clear_value x)
    | (split <;> try lift_lets))
  all_goals first | (simp (maxDischargeDepth := 99) +contextual [*]; done) | simp_all (maxDischargeDepth := 99) +contextual

def State.putEntry_sites : List Site := State.journalOne_sites ++ State.replaceRange_sites

@[simp ↓] theorem State.putEntry_keeps {A : Scope} {s₀ : State} (s : State) (r : WalkerRequest) (e : MapEntry) (hk : Keeps A s₀ s)
    (hA : A.covers State.putEntry_sites) :
    KeepsOpt A (fun t => t) s₀ (State.putEntry s r e) := by
  simp [State.putEntry_sites] at hA
  simp (maxDischargeDepth := 99) [State.putEntry, hk, hA]

def State.putEntries_sites : List Site := State.putEntry_sites

@[simp ↓] theorem State.putEntries_keeps {A : Scope} {s₀ : State} (r : WalkerRequest) (l : List MapEntry) (s : State) (hk : Keeps A s₀ s)
    (hA : A.covers State.putEntries_sites) :
    KeepsOpt A (fun t => t) s₀ (State.putEntries r l s) := by
  simp [State.putEntries_sites] at hA
  induction l generalizing s with
  | nil => simp [State.putEntries, hk, hA]
  | cons e rest ih =>
    intro t h
    simp only [State.putEntries, Option.bind_eq_some_iff] at h
    obtain ⟨u, hu, ht⟩ := h
    exact ih u (State.putEntry_keeps s r e hk (by first | assumption | simp [*]) u hu) t ht

def State.refuseStale_sites : List Site := [.one R.STM_EVENTS]

@[simp ↓] theorem State.refuseStale_keeps {A : Scope} {s₀ : State} (s : State) (hk : Keeps A s₀ s)
    (hA : A.covers State.refuseStale_sites) :
    Keeps A s₀ (State.refuseStale s).2 := by
  simp [State.refuseStale_sites] at hA
  simp (maxDischargeDepth := 99) [State.refuseStale, hk, hA]

def State.walkMap_sites : List Site := State.putEntries_sites ++ State.refuseStale_sites ++ State.throughClaim_sites

@[simp ↓] theorem State.walkMap_keeps {A : Scope} {s₀ : State} (s : State) (r : WalkerRequest) (e : MapEntry) (gen : Nat) (claim : Option Nat) (hk : Keeps A s₀ s)
    (hA : A.covers State.walkMap_sites) :
    KeepsOpt A (fun t => t.2) s₀ (State.walkMap s r e gen claim) := by
  simp [State.walkMap_sites] at hA
  simp (maxDischargeDepth := 99) [State.walkMap, hk, hA]

def State.walkExtend_sites : List Site := State.putEntry_sites ++ State.refuseStale_sites

@[simp ↓] theorem State.walkExtend_keeps {A : Scope} {s₀ : State} (s : State) (r : WalkerRequest) (d : Nat) (length : Nat) (gen : Nat) (hk : Keeps A s₀ s)
    (hA : A.covers State.walkExtend_sites) :
    KeepsOpt A (fun t => t.2) s₀ (State.walkExtend s r d length gen) := by
  simp [State.walkExtend_sites] at hA
  unfold State.walkExtend
  repeat' (first
    | (intro x; clear_value x)
    | (split <;> try lift_lets))
  all_goals first | (simp (maxDischargeDepth := 99) +contextual [*]; done) | simp_all (maxDischargeDepth := 99) +contextual

def State.walkFlags_sites : List Site := State.putEntries_sites ++ State.refuseStale_sites ++ State.throughClaim_sites

@[simp ↓] theorem State.walkFlags_keeps {A : Scope} {s₀ : State} (s : State) (r : WalkerRequest) (d : Nat) (n : Nat) (set : Nat) (clear : Nat) (gen : Nat) (claim : Option Nat) (hk : Keeps A s₀ s)
    (hA : A.covers State.walkFlags_sites) :
    KeepsOpt A (fun t => t.2) s₀ (State.walkFlags s r d n set clear gen claim) := by
  simp [State.walkFlags_sites] at hA
  simp (maxDischargeDepth := 99) [State.walkFlags, hk, hA]

def State.bumpGen_sites : List Site := State.setZdesc_sites

@[simp ↓] theorem State.bumpGen_keeps {A : Scope} {s₀ : State} (s : State) (z : Nat) (hk : Keeps A s₀ s)
    (hA : A.covers State.bumpGen_sites) :
    Keeps A s₀ (State.bumpGen s z).2 := by
  simp [State.bumpGen_sites] at hA
  unfold State.bumpGen
  try lift_lets
  repeat' (first
    | (intro x; clear_value x)
    | (split <;> try lift_lets))
  all_goals first | (simp (maxDischargeDepth := 99) +contextual [*]; done) | simp_all (maxDischargeDepth := 99) +contextual

def State.walkGenBump_sites : List Site := State.bumpGen_sites ++ State.journalOne_sites

@[simp ↓] theorem State.walkGenBump_keeps {A : Scope} {s₀ : State} (s : State) (z : Nat) (hk : Keeps A s₀ s)
    (hA : A.covers State.walkGenBump_sites) :
    Keeps A s₀ (State.walkGenBump s z).2 := by
  simp [State.walkGenBump_sites] at hA
  simp (maxDischargeDepth := 99) [State.walkGenBump, hk, hA]

def State.walkDesc_sites : List Site := State.journalOne_sites ++ State.setZdesc_sites

@[simp ↓] theorem State.walkDesc_keeps {A : Scope} {s₀ : State} (s : State) (z : Nat) (wp : Nat) (st : ZoneState) (used : Nat) (hk : Keeps A s₀ s)
    (hA : A.covers State.walkDesc_sites) :
    Keeps A s₀ (State.walkDesc s z wp st used).2 := by
  simp [State.walkDesc_sites] at hA
  simp (maxDischargeDepth := 99) [State.walkDesc, hk, hA]

def State.carryOut_sites : List Site :=
  State.walkDesc_sites ++ State.walkExtend_sites ++ State.walkFlags_sites ++ State.walkGenBump_sites ++ State.walkMap_sites

@[simp ↓] theorem State.carryOut_keeps {A : Scope} {s₀ : State} (s : State) (r : WalkerRequest) (hk : Keeps A s₀ s)
    (hA : A.covers State.carryOut_sites) :
    KeepsOpt A (fun t => t.2) s₀ (State.carryOut s r) := by
  simp [State.carryOut_sites] at hA
  unfold State.carryOut
  repeat' (first
    | (intro x; clear_value x)
    | (split <;> try lift_lets))
  all_goals first | (simp (maxDischargeDepth := 99) +contextual [*]; done) | simp_all (maxDischargeDepth := 99) +contextual

def State.answer_sites : List Site := [.part .stitch]

@[simp ↓] theorem State.answer_keeps {A : Scope} {s₀ : State} (s : State) (a : WalkerReply) (hk : Keeps A s₀ s)
    (hA : A.covers State.answer_sites) :
    Keeps A s₀ (State.answer s a) := hk.unit (by simpa [State.answer_sites] using hA)

def State.holdUpdate_sites : List Site := State.answer_sites ++ [.part .stitch]

@[simp ↓] theorem State.holdUpdate_keeps {A : Scope} {s₀ : State} (s : State) (r : WalkerRequest) (hk : Keeps A s₀ s)
    (hA : A.covers State.holdUpdate_sites) :
    Keeps A s₀ (State.holdUpdate s r) := hk.unit (p := .stitch) (by simp [State.holdUpdate_sites] at hA; exact hA.2)

def State.mapFull_sites : List Site := State.event_sites ++ [.one R.STM_EVENTS, .one R.STM_STATUS]

@[simp ↓] theorem State.mapFull_keeps {A : Scope} {s₀ : State} (s : State) (hk : Keeps A s₀ s)
    (hA : A.covers State.mapFull_sites) :
    Keeps A s₀ (State.mapFull s) := by
  simp [State.mapFull_sites] at hA
  simp (maxDischargeDepth := 99) [State.mapFull, hk, hA]

def State.walker_sites : List Site :=
  State.answer_sites ++ State.carryOut_sites ++ State.holdUpdate_sites ++ State.mapFull_sites ++ [.part .stitch]

@[simp ↓] theorem State.walker_keeps {A : Scope} {s₀ : State} (s : State) (r : WalkerRequest) (hk : Keeps A s₀ s)
    (hA : A.covers State.walker_sites) :
    Keeps A s₀ (State.walker s r) := by
  simp [State.walker_sites] at hA
  unfold State.walker
  repeat' (first
    | (intro x; clear_value x)
    | (generalize he : State.carryOut _ _ = p
       have hp : KeepsOpt A (fun t => t.2) s₀ p := by
         subst he; exact State.carryOut_keeps _ _ (by first | with_reducible assumption | simp (maxDischargeDepth := 99) +contextual [*]) (by first | assumption | simp [*])
       clear he
       rcases p with _ | p
       rotate_left 1
       replace hp : Keeps A s₀ p.2 := hp p rfl)
    | (split <;> try lift_lets))
  all_goals first | (simp (maxDischargeDepth := 99) +contextual [*]; done) | simp_all (maxDischargeDepth := 99) +contextual

def State.retryHeld_sites : List Site := State.answer_sites ++ State.carryOut_sites ++ [.one R.STM_STATUS, .part .stitch]

@[simp ↓] theorem State.retryHeld_keeps {A : Scope} {s₀ : State} (s : State) (l : List WalkerRequest) (hk : Keeps A s₀ s)
    (hA : A.covers State.retryHeld_sites) : Keeps A s₀ (s.retryHeld l) := by
  simp [State.retryHeld_sites] at hA
  induction l generalizing s with
  | nil => simp (maxDischargeDepth := 99) [State.retryHeld, hk, hA]
  | cons r rest ih =>
    have hc := State.carryOut_keeps s r hk (by first | assumption | simp [*])
    simp only [State.retryHeld]
    split
    · next a t ht =>
      split
      · simp (maxDischargeDepth := 99) [hk, hA]
      · exact ih _ (State.answer_keeps _ _ (hc _ ht) (by first | assumption | simp [*]))
    · simp (maxDischargeDepth := 99) [hk, hA]

def State.releaseHeld_sites : List Site := State.retryHeld_sites

@[simp ↓] theorem State.releaseHeld_keeps {A : Scope} {s₀ : State} (s : State) (hk : Keeps A s₀ s)
    (hA : A.covers State.releaseHeld_sites) :
    Keeps A s₀ (State.releaseHeld s) := by
  simp [State.releaseHeld_sites] at hA
  simp (maxDischargeDepth := 99) [State.releaseHeld, hk, hA]

def execWalkerLookup_sites : List Site := State.walker_sites ++ [.one R.STM_CACHE_HIT, .one R.STM_CACHE_MISS]

theorem execWalkerLookup_keeps {A : Scope} (d : Nat) (n : Nat) (hit : Bool) (s : State)
    (hA : A.covers execWalkerLookup_sites) : KeepsOut A s (execWalkerLookup d n hit s) := by
  simp [execWalkerLookup_sites] at hA
  simp (maxDischargeDepth := 99) [execWalkerLookup, hA]

def execWalkerMap_sites : List Site := State.walker_sites

theorem execWalkerMap_keeps {A : Scope} (lstart : Nat) (length : Nat) (place : MapPlace) (cache : Bool) (unwritten : Bool) (unreadable : Bool) (gen : Nat) (claim : Option Nat) (s : State)
    (hA : A.covers execWalkerMap_sites) : KeepsOut A s (execWalkerMap lstart length place cache unwritten unreadable gen claim s) := by
  simp [execWalkerMap_sites] at hA
  simp (maxDischargeDepth := 99) [execWalkerMap, hA]

def execWalkerExtend_sites : List Site := State.walker_sites

theorem execWalkerExtend_keeps {A : Scope} (d : Nat) (length : Nat) (gen : Nat) (s : State)
    (hA : A.covers execWalkerExtend_sites) : KeepsOut A s (execWalkerExtend d length gen s) := by
  simp [execWalkerExtend_sites] at hA
  simp (maxDischargeDepth := 99) [execWalkerExtend, hA]

def execWalkerFlags_sites : List Site := State.walker_sites

theorem execWalkerFlags_keeps {A : Scope} (d : Nat) (n : Nat) (set : Nat) (clear : Nat) (gen : Nat) (claim : Option Nat) (s : State)
    (hA : A.covers execWalkerFlags_sites) : KeepsOut A s (execWalkerFlags d n set clear gen claim s) := by
  simp [execWalkerFlags_sites] at hA
  simp (maxDischargeDepth := 99) [execWalkerFlags, hA]

def execWalkerGenBump_sites : List Site := State.walker_sites

theorem execWalkerGenBump_keeps {A : Scope} (z : Nat) (s : State)
    (hA : A.covers execWalkerGenBump_sites) : KeepsOut A s (execWalkerGenBump z s) := by
  simp [execWalkerGenBump_sites] at hA
  simp (maxDischargeDepth := 99) [execWalkerGenBump, hA]

def execWalkerDesc_sites : List Site := State.walker_sites

theorem execWalkerDesc_keeps {A : Scope} (z : Nat) (wp : Nat) (st : Nat) (used : Nat) (s : State)
    (hA : A.covers execWalkerDesc_sites) : KeepsOut A s (execWalkerDesc z wp st used s) := by
  simp [execWalkerDesc_sites] at hA
  have hk := Keeps.refl A s
  unfold execWalkerDesc
  repeat' (first
    | (intro x; clear_value x)
    | (split <;> try lift_lets))
  all_goals first | (simp (maxDischargeDepth := 99) +contextual [*]; done) | simp_all (maxDischargeDepth := 99) +contextual

def execLeafMerge_sites : List Site := State.mapUsage_sites ++ State.releaseHeld_sites ++ [.part .stitch]

theorem execLeafMerge_keeps {A : Scope} (s : State)
    (hA : A.covers execLeafMerge_sites) : KeepsOut A s (execLeafMerge s) := by
  simp [execLeafMerge_sites] at hA
  have hk := Keeps.refl A s
  unfold execLeafMerge
  repeat' (first
    | (intro x; clear_value x)
    | (split <;> try lift_lets))
  all_goals first | (simp (maxDischargeDepth := 99) +contextual [*]; done) | simp_all (maxDischargeDepth := 99) +contextual

def execStaleEntryDelete_sites : List Site := State.mapUsage_sites ++ State.releaseHeld_sites ++ [.part .stitch]

theorem execStaleEntryDelete_keeps {A : Scope} (s : State)
    (hA : A.covers execStaleEntryDelete_sites) : KeepsOut A s (execStaleEntryDelete s) := by
  simp [execStaleEntryDelete_sites] at hA
  simp (maxDischargeDepth := 99) [execStaleEntryDelete, hA]

def execJournalPageWrite_sites : List Site := [.part .stitch]

theorem execJournalPageWrite_keeps {A : Scope} (s : State)
    (hA : A.covers execJournalPageWrite_sites) : KeepsOut A s (execJournalPageWrite s) := by
  simp [execJournalPageWrite_sites] at hA
  simp (maxDischargeDepth := 99) [execJournalPageWrite, hA]

def execJournalOnMedia_sites : List Site :=
  State.journalReg_sites ++ State.releaseHeld_sites ++ [.one R.STM_JSEQ_HI, .one R.STM_JSEQ_LO, .part .stitch]

theorem execJournalOnMedia_keeps {A : Scope} (s : State)
    (hA : A.covers execJournalOnMedia_sites) : KeepsOut A s (execJournalOnMedia s) := by
  simp [execJournalOnMedia_sites] at hA
  have hk := Keeps.refl A s
  unfold execJournalOnMedia
  repeat' (first
    | (intro x; first
        | (have hx : Keeps A s x := by
             subst x
             repeat' split
             all_goals first | with_reducible assumption | (simp (maxDischargeDepth := 99) +contextual [*]; done) | simp_all (maxDischargeDepth := 99) +contextual
           clear_value x)
        | clear_value x)
    | (split <;> try lift_lets))
  all_goals first | (simp (maxDischargeDepth := 99) +contextual [*]; done) | simp_all (maxDischargeDepth := 99) +contextual

def State.startCheckpoint_sites : List Site := [.one R.STM_STATUS, .part .stitch]

@[simp ↓] theorem State.startCheckpoint_keeps {A : Scope} {s₀ : State} (s : State) (hk : Keeps A s₀ s)
    (hA : A.covers State.startCheckpoint_sites) :
    Keeps A s₀ (State.startCheckpoint s) := by
  simp [State.startCheckpoint_sites] at hA
  simp (maxDischargeDepth := 99) [State.startCheckpoint, hk, hA]

def execCheckpointStart_sites : List Site := State.startCheckpoint_sites

theorem execCheckpointStart_keeps {A : Scope} (s : State)
    (hA : A.covers execCheckpointStart_sites) : KeepsOut A s (execCheckpointStart s) := by
  simp [execCheckpointStart_sites] at hA
  simp (maxDischargeDepth := 99) [execCheckpointStart, hA]

def execCkptReq_sites : List Site := State.startCheckpoint_sites

theorem execCkptReq_keeps {A : Scope} (s : State)
    (hA : A.covers execCkptReq_sites) : KeepsOut A s (execCkptReq s) := by
  simp [execCkptReq_sites] at hA
  simp (maxDischargeDepth := 99) [execCkptReq, hA]

def execCheckpointDone_sites : List Site := [.one R.STM_STATUS, .part .stitch]

theorem execCheckpointDone_keeps {A : Scope} (s : State)
    (hA : A.covers execCheckpointDone_sites) : KeepsOut A s (execCheckpointDone s) := by
  simp [execCheckpointDone_sites] at hA
  have hk := Keeps.refl A s
  unfold execCheckpointDone
  repeat' (first
    | (intro x; clear_value x)
    | (split <;> try lift_lets))
  all_goals first | (simp (maxDischargeDepth := 99) +contextual [*]; done) | simp_all (maxDischargeDepth := 99) +contextual

def State.zoneNotice_sites : List Site := State.postAsync_sites ++ [.part .host]

@[simp ↓] theorem State.zoneNotice_keeps {A : Scope} {s₀ : State} (s : State) (z : Nat) (hk : Keeps A s₀ s)
    (hA : A.covers State.zoneNotice_sites) :
    Keeps A s₀ (State.zoneNotice s z) := by
  simp [State.zoneNotice_sites] at hA
  unfold State.zoneNotice
  try lift_lets
  repeat' (first
    | (intro x; first
        | (have hx : Keeps A s₀ x := by
             subst x
             repeat' split
             all_goals first | with_reducible assumption | (simp (maxDischargeDepth := 99) +contextual [*]; done) | simp_all (maxDischargeDepth := 99) +contextual
           clear_value x)
        | clear_value x)
    | (split <;> try lift_lets))
  all_goals first | (simp (maxDischargeDepth := 99) +contextual [*]; done) | simp_all (maxDischargeDepth := 99) +contextual

def State.replay_sites : List Site := State.replaceRange_sites ++ State.setZdesc_sites

@[simp ↓] theorem State.replay_keeps {A : Scope} {s₀ : State} (s : State) (r : JournalRecord) (hk : Keeps A s₀ s)
    (hA : A.covers State.replay_sites) :
    Keeps A s₀ (State.replay s r) := by
  simp [State.replay_sites] at hA
  unfold State.replay
  repeat' (first
    | (intro x; clear_value x)
    | (split <;> try lift_lets))
  all_goals first | (simp (maxDischargeDepth := 99) +contextual [*]; done) | simp_all (maxDischargeDepth := 99) +contextual

def State.loseZone_sites : List Site := State.replaceRange_sites ++ State.setZdesc_sites

@[simp ↓] theorem State.loseZone_keeps {A : Scope} {s₀ : State} (s : State) (r : JournalRecord) (hk : Keeps A s₀ s)
    (hA : A.covers State.loseZone_sites) :
    Keeps A s₀ (State.loseZone s r) := by
  simp [State.loseZone_sites] at hA
  simp (maxDischargeDepth := 99) [State.loseZone, hk, hA]

def State.rebuildMap_sites : List Site :=
  State.journalReg_sites ++ State.loseZone_sites ++ State.mapUsage_sites ++ State.replay_sites ++ State.zoneNotice_sites ++
    [.one R.STM_EVENTS, .one R.STM_JSEQ_HI, .one R.STM_JSEQ_LO, .one R.STM_STATUS, .part .stitch]

@[simp ↓] theorem State.rebuildMap_keeps {A : Scope} {s₀ : State} (s : State) (missing : Option Nat) (hk : Keeps A s₀ s)
    (hA : A.covers State.rebuildMap_sites) :
    Keeps A s₀ (State.rebuildMap s missing) := by
  simp [State.rebuildMap_sites] at hA
  unfold State.rebuildMap
  repeat' (first
    | (intro x; clear_value x))
  all_goals first | (simp (maxDischargeDepth := 99) +contextual [*]; done) | simp_all (maxDischargeDepth := 99) +contextual

def execMapRebuild_sites : List Site := State.rebuildMap_sites

theorem execMapRebuild_keeps {A : Scope} (missing : Option Nat) (s : State)
    (hA : A.covers execMapRebuild_sites) : KeepsOut A s (execMapRebuild missing s) := by
  simp [execMapRebuild_sites] at hA
  simp (maxDischargeDepth := 99) [execMapRebuild, hA]

def State.startRebuild_sites : List Site := [.one R.STM_EVENTS, .part .stitch]

@[simp ↓] theorem State.startRebuild_keeps {A : Scope} {s₀ : State} (s : State) (k : Nat) (hk : Keeps A s₀ s)
    (hA : A.covers State.startRebuild_sites) :
    Keeps A s₀ (State.startRebuild s k) := by
  simp [State.startRebuild_sites] at hA
  simp (maxDischargeDepth := 99) [State.startRebuild, hk, hA]

def State.endRebuild_sites : List Site := State.walker_sites ++ [.part .stitch]

@[simp ↓] theorem State.endRebuild_keeps {A : Scope} {s₀ : State} (s : State) (k : Nat) (hk : Keeps A s₀ s)
    (hA : A.covers State.endRebuild_sites) :
    Keeps A s₀ (State.endRebuild s k) := by
  simp [State.endRebuild_sites] at hA
  unfold State.endRebuild
  repeat' (first
    | (intro x; clear_value x))
  all_goals first | (simp (maxDischargeDepth := 99) +contextual [*]; done) | simp_all (maxDischargeDepth := 99) +contextual

def State.claimRegs_sites : List Site := [.one R.ORD_CLAIM_STATUS]

@[simp ↓] theorem State.claimRegs_keeps {A : Scope} {s₀ : State} (s : State) (hk : Keeps A s₀ s)
    (hA : A.covers State.claimRegs_sites) :
    Keeps A s₀ (State.claimRegs s) := by
  simp [State.claimRegs_sites] at hA
  simp (maxDischargeDepth := 99) [State.claimRegs, hk, hA]

def State.openClaim_sites : List Site := State.claimRegs_sites ++ [.part .flow]

@[simp ↓] theorem State.openClaim_keeps {A : Scope} {s₀ : State} (s : State) (owner : Nat) (d : Nat) (n : Nat) (hk : Keeps A s₀ s)
    (hA : A.covers State.openClaim_sites) :
    Keeps A s₀ (State.openClaim s owner d n).2 := by
  simp [State.openClaim_sites] at hA
  unfold State.openClaim
  repeat' (first
    | (intro x; clear_value x)
    | (split <;> try lift_lets))
  all_goals first | (simp (maxDischargeDepth := 99) +contextual [*]; done) | simp_all (maxDischargeDepth := 99) +contextual

def State.closeClaim_sites : List Site := State.claimRegs_sites ++ [.part .flow]

@[simp ↓] theorem State.closeClaim_keeps {A : Scope} {s₀ : State} (s : State) (i : Nat) (hk : Keeps A s₀ s)
    (hA : A.covers State.closeClaim_sites) :
    Keeps A s₀ (State.closeClaim s i) := by
  simp [State.closeClaim_sites] at hA
  simp (maxDischargeDepth := 99) [State.closeClaim, hk, hA]

def execClaimOpen_sites : List Site := State.openClaim_sites ++ [.one R.ORD_CLAIM_STATUS, .one R.ORD_OVL_EVENTS]

theorem execClaimOpen_keeps {A : Scope} (owner : Nat) (s : State)
    (hA : A.covers execClaimOpen_sites) : KeepsOut A s (execClaimOpen owner s) := by
  simp [execClaimOpen_sites] at hA
  have hk := Keeps.refl A s
  unfold execClaimOpen
  try lift_lets
  repeat' (first
    | (intro x; clear_value x)
    | (generalize he : State.openClaim _ _ _ _ = p
       have hp : Keeps A s p.2 := by subst he; first | with_reducible assumption | simp (maxDischargeDepth := 99) +contextual [*]
       clear he
       obtain ⟨_, _⟩ := p)
    | (split <;> try lift_lets))
  all_goals first | (simp (maxDischargeDepth := 99) +contextual [*]; done) | simp_all (maxDischargeDepth := 99) +contextual

def execClaimClose_sites : List Site :=
  State.closeClaim_sites ++ [.one R.ORD_CLAIM_CMD, .one R.ORD_CLAIM_STATUS, .one R.ORD_OVL_EVENTS]

theorem execClaimClose_keeps {A : Scope} (index : Nat) (s : State)
    (hA : A.covers execClaimClose_sites) : KeepsOut A s (execClaimClose index s) := by
  simp [execClaimClose_sites] at hA
  simp (maxDischargeDepth := 99) [execClaimClose, hA]

def State.appendCache_sites : List Site := State.setZdesc_sites ++ [.part .stitch]

@[simp ↓] theorem State.appendCache_keeps {A : Scope} {s₀ : State} (s : State) (a : Nat) (dla : Nat) (n : Nat) (hk : Keeps A s₀ s)
    (hA : A.covers State.appendCache_sites) :
    KeepsOpt A (fun t => t.2) s₀ (State.appendCache s a dla n) := by
  simp [State.appendCache_sites] at hA
  unfold State.appendCache
  repeat' (first
    | (intro x; first
        | (have hx : Keeps A s₀ x := by
             subst x
             repeat' split
             all_goals first | with_reducible assumption | (simp (maxDischargeDepth := 99) +contextual [*]; done) | simp_all (maxDischargeDepth := 99) +contextual
           clear_value x)
        | clear_value x)
    | (split <;> try lift_lets))
  all_goals first | (simp (maxDischargeDepth := 99) +contextual [*]; done) | simp_all (maxDischargeDepth := 99) +contextual

def State.moveSector_sites : List Site := State.appendCache_sites ++ State.walker_sites ++ State.writeMedia_sites

@[simp ↓] theorem State.moveSector_keeps {A : Scope} {s₀ : State} (s : State) (a p dla i : Nat) (hk : Keeps A s₀ s)
    (hA : A.covers State.moveSector_sites) : Keeps A s₀ (s.moveSector a p dla i) := by
  simp [State.moveSector_sites] at hA
  have put (t : State) (q : Nat) (r : WalkerRequest) (ht : Keeps A s₀ t) :
      Keeps A s₀ ((match t.onMedia (t.psaAdd p i) with | some x => t.writeMedia q x | none => t).walker r) := by
    refine State.walker_keeps _ _ ?_ hA.2.1
    split <;> simp [ht, hA]
  have hc := State.appendCache_keeps s a (dla + i) 1 hk (by first | assumption | simp [*])
  simp only [State.moveSector]
  split
  · exact put _ _ _ hk
  · split
    · next q t ht => exact put _ _ _ (hc _ ht)
    · exact hk

end Sys2Proof.Machine
end

