-- ==== Sys2Proof/Laws/KeepsTracker.lean ====
section
/-!
SUPPORT. Sys2Proof/Laws/KeepsTracker.lean: the operations and meanings of Machine/Tracker.lean keep (Laws/Keeps.lean).
-/

set_option linter.all false
set_option Elab.async false

namespace Sys2Proof.Machine

def State.reclaim_sites : List Site := State.transfer_sites ++ [.part .flow]

@[simp ↓] theorem State.reclaim_keeps {A : Scope} {s₀ : State} (s : State) (n : Nat) (hk : Keeps A s₀ s)
    (hA : A.covers State.reclaim_sites) :
    Keeps A s₀ (State.reclaim s n) := by
  simp [State.reclaim_sites] at hA
  simp (maxDischargeDepth := 99) [State.reclaim, hk, hA]

def State.dropClean_sites : List Site := State.transfer_sites ++ [.part .flow]

@[simp ↓] theorem State.dropClean_keeps {A : Scope} {s₀ : State} (s : State) (p : Nat → Bool) (hk : Keeps A s₀ s)
    (hA : A.covers State.dropClean_sites) :
    Keeps A s₀ (State.dropClean s p) := by
  simp [State.dropClean_sites] at hA
  simp (maxDischargeDepth := 99) [State.dropClean, hk, hA]

def State.cachePage_sites : List Site := State.dropClean_sites ++ [.part .flow]

@[simp ↓] theorem State.cachePage_keeps {A : Scope} {s₀ : State} (s : State) (d : Nat) (data : Sector) (pi : List Byte) (hk : Keeps A s₀ s)
    (hA : A.covers State.cachePage_sites) :
    Keeps A s₀ (State.cachePage s d data pi) := by
  simp [State.cachePage_sites] at hA
  simp (maxDischargeDepth := 99) [State.cachePage, hk, hA]

def State.unreadRegs_sites : List Site := [.one R.DRN_STATUS, .one R.DRN_UNREAD]

@[simp ↓] theorem State.unreadRegs_keeps {A : Scope} {s₀ : State} (s : State) (hk : Keeps A s₀ s)
    (hA : A.covers State.unreadRegs_sites) :
    Keeps A s₀ (State.unreadRegs s) := by
  simp [State.unreadRegs_sites] at hA
  simp (maxDischargeDepth := 99) [State.unreadRegs, hk, hA]

def State.listUnreadable_sites : List Site :=
  State.postVendor_sites ++ State.unreadRegs_sites ++ [.one R.DRN_EVENTS, .one R.DRN_UNREAD, .part .darn]

@[simp ↓] theorem State.listUnreadable_keeps {A : Scope} {s₀ : State} (s : State) (d : Nat) (n : Nat) (cause : Nat) (step : Nat) (hk : Keeps A s₀ s)
    (hA : A.covers State.listUnreadable_sites) :
    Keeps A s₀ (State.listUnreadable s d n cause step) := by
  simp [State.listUnreadable_sites] at hA
  unfold State.listUnreadable
  repeat' (first
    | (intro x; first
        | (have hx : Keeps A s₀ x := by
             subst x
             repeat' split
             all_goals first | with_reducible assumption | (simp (maxDischargeDepth := 99) +contextual [*]; done) | simp_all (maxDischargeDepth := 99) +contextual
           clear_value x)
        | clear_value x)
    | (split <;> try lift_lets))
  all_goals first | (simp (maxDischargeDepth := 99) +contextual [*]; done) | simp_all (maxDischargeDepth := 99) +contextual

def State.loseRange_sites : List Site := State.listUnreadable_sites ++ State.throughClaim_sites ++ State.walker_sites

@[simp ↓] theorem State.loseRange_keeps {A : Scope} {s₀ : State} (s : State) (d : Nat) (n : Nat) (cause : Nat) (step : Nat) (claim : Option Nat) (hk : Keeps A s₀ s)
    (hA : A.covers State.loseRange_sites) :
    Keeps A s₀ (State.loseRange s d n cause step claim) := by
  simp [State.loseRange_sites] at hA
  unfold State.loseRange
  repeat' (first
    | (intro x; clear_value x)
    | (split <;> try lift_lets))
  all_goals first | (simp (maxDischargeDepth := 99) +contextual [*]; done) | simp_all (maxDischargeDepth := 99) +contextual

def State.unlist_sites : List Site := State.unreadRegs_sites ++ [.part .darn]

@[simp ↓] theorem State.unlist_keeps {A : Scope} {s₀ : State} (s : State) (d : Nat) (n : Nat) (hk : Keeps A s₀ s)
    (hA : A.covers State.unlist_sites) :
    Keeps A s₀ (State.unlist s d n) := by
  simp [State.unlist_sites] at hA
  simp (maxDischargeDepth := 99) [State.unlist, hk, hA]

def State.madeReadable_sites : List Site := State.unlist_sites ++ State.walker_sites

@[simp ↓] theorem State.madeReadable_keeps {A : Scope} {s₀ : State} (s : State) (d : Nat) (n : Nat) (hk : Keeps A s₀ s)
    (hA : A.covers State.madeReadable_sites) :
    Keeps A s₀ (State.madeReadable s d n) := by
  simp [State.madeReadable_sites] at hA
  simp (maxDischargeDepth := 99) [State.madeReadable, hk, hA]

def State.setAccept_sites : List Site := [.part .flow]

@[simp ↓] theorem State.setAccept_keeps {A : Scope} {s₀ : State} (s : State) (z : Nat) (p : Nat) (r : Nat) (hk : Keeps A s₀ s)
    (hA : A.covers State.setAccept_sites) :
    Keeps A s₀ (State.setAccept s z p r) := by
  simp [State.setAccept_sites] at hA
  simp (maxDischargeDepth := 99) [State.setAccept, hk, hA]

def State.dropAccept_sites : List Site := [.part .flow]

@[simp ↓] theorem State.dropAccept_keeps {A : Scope} {s₀ : State} (s : State) (z : Nat) (hk : Keeps A s₀ s)
    (hA : A.covers State.dropAccept_sites) :
    Keeps A s₀ (State.dropAccept s z) := by
  simp [State.dropAccept_sites] at hA
  simp (maxDischargeDepth := 99) [State.dropAccept, hk, hA]

def State.returnPages_sites : List Site := State.transfer_sites

@[simp ↓] theorem State.returnPages_keeps {A : Scope} {s₀ : State} (s : State) (x : Slot) (hk : Keeps A s₀ s)
    (hA : A.covers State.returnPages_sites) :
    Keeps A s₀ (State.returnPages s x) := by
  simp [State.returnPages_sites] at hA
  simp (maxDischargeDepth := 99) [State.returnPages, hk, hA]

def State.endWrite_sites : List Site :=
  State.completeSlot_sites ++ State.freeSlot_sites ++ State.returnPages_sites ++ State.setAccept_sites

@[simp ↓] theorem State.endWrite_keeps {A : Scope} {s₀ : State} (s : State) (x : Slot) (status : Option Nat) (hk : Keeps A s₀ s)
    (hA : A.covers State.endWrite_sites) :
    Keeps A s₀ (State.endWrite s x status) := by
  simp [State.endWrite_sites] at hA
  unfold State.endWrite
  repeat' (first
    | (intro x; first
        | (have hx : Keeps A s₀ x := by
             subst x
             repeat' split
             all_goals first | with_reducible assumption | (simp (maxDischargeDepth := 99) +contextual [*]; done) | simp_all (maxDischargeDepth := 99) +contextual
           clear_value x)
        | clear_value x)
    | (split <;> try lift_lets))
  all_goals first | (simp (maxDischargeDepth := 99) +contextual [*]; done) | simp_all (maxDischargeDepth := 99) +contextual

def State.discardWrite_sites : List Site :=
  State.endWrite_sites ++ State.setAccept_sites ++ [.one R.ORD_OVL_COUNTS, .one R.ORD_OVL_EVENTS]

@[simp ↓] theorem State.discardWrite_keeps {A : Scope} {s₀ : State} (s : State) (n : Nat) (status : Option Nat) (hk : Keeps A s₀ s)
    (hA : A.covers State.discardWrite_sites) :
    Keeps A s₀ (State.discardWrite s n status) := by
  simp [State.discardWrite_sites] at hA
  unfold State.discardWrite
  repeat' (first
    | (intro x; first
        | (have hx : Keeps A s₀ x := by
             subst x
             repeat' split
             all_goals first | with_reducible assumption | (simp (maxDischargeDepth := 99) +contextual [*]; done) | simp_all (maxDischargeDepth := 99) +contextual
           clear_value x)
        | clear_value x)
    | (split <;> try lift_lets))
  all_goals first | (simp (maxDischargeDepth := 99) +contextual [*]; done) | simp_all (maxDischargeDepth := 99) +contextual

def State.dropOps_sites : List Site := [.part .flow]

@[simp ↓] theorem State.dropOps_keeps {A : Scope} {s₀ : State} (s : State) (n : Nat) (hk : Keeps A s₀ s)
    (hA : A.covers State.dropOps_sites) :
    Keeps A s₀ (State.dropOps s n) := by
  simp [State.dropOps_sites] at hA
  simp (maxDischargeDepth := 99) [State.dropOps, hk, hA]

def State.dropUnissued_sites : List Site := State.modSlot_sites ++ State.transfer_sites ++ [.part .flow]

@[simp ↓] theorem State.dropUnissued_keeps {A : Scope} {s₀ : State} (s : State) (x : Slot) (hk : Keeps A s₀ s)
    (hA : A.covers State.dropUnissued_sites) :
    Keeps A s₀ (State.dropUnissued s x) := by
  simp [State.dropUnissued_sites] at hA
  simp (maxDischargeDepth := 99) [State.dropUnissued, hk, hA]

def State.freeIfLanded_sites : List Site := State.freeSlot_sites

@[simp ↓] theorem State.freeIfLanded_keeps {A : Scope} {s₀ : State} (s : State) (n : Nat) (hk : Keeps A s₀ s)
    (hA : A.covers State.freeIfLanded_sites) :
    Keeps A s₀ (State.freeIfLanded s n) := by
  simp [State.freeIfLanded_sites] at hA
  unfold State.freeIfLanded
  repeat' (first
    | (intro x; clear_value x)
    | (split <;> try lift_lets))
  all_goals first | (simp (maxDischargeDepth := 99) +contextual [*]; done) | simp_all (maxDischargeDepth := 99) +contextual

def State.sendPoison_sites : List Site := State.send_sites

@[simp ↓] theorem State.sendPoison_keeps {A : Scope} {s₀ : State} (s : State) (x : Slot) (i : Nat) (n : Nat) (hk : Keeps A s₀ s)
    (hA : A.covers State.sendPoison_sites) :
    Keeps A s₀ (State.sendPoison s x i n) := by
  simp [State.sendPoison_sites] at hA
  simp (maxDischargeDepth := 99) [State.sendPoison, hk, hA]

def State.dropSlot_sites : List Site :=
  State.discardWrite_sites ++ State.dropOps_sites ++ State.dropUnissued_sites ++ State.freeIfLanded_sites ++
    State.freeSlot_sites ++ State.modSlot_sites ++ State.sendPoison_sites

@[simp ↓] theorem State.dropSlot_keeps {A : Scope} {s₀ : State} (s : State) (x : Slot) (hk : Keeps A s₀ s)
    (hA : A.covers State.dropSlot_sites) :
    Keeps A s₀ (State.dropSlot s x) := by
  simp [State.dropSlot_sites] at hA
  unfold State.dropSlot
  repeat' (first
    | (intro x; clear_value x))
  all_goals first | (simp (maxDischargeDepth := 99) +contextual [*]; done) | simp_all (maxDischargeDepth := 99) +contextual

def State.dropController_sites : List Site :=
  State.driveStatus_sites ++ State.dropSlot_sites ++ State.modController_sites ++ [.one R.HIF_CFS, .one R.HIF_CTRL_RDY, .one
    R.QUE_FETCH_HOLD, .part .host, .part .flow]

@[simp ↓] theorem State.dropController_keeps {A : Scope} {s₀ : State} (s : State) (c : Nat) (hk : Keeps A s₀ s)
    (hA : A.covers State.dropController_sites) :
    Keeps A s₀ (State.dropController s c) := by
  simp [State.dropController_sites] at hA
  unfold State.dropController
  repeat' (first
    | (intro x; clear_value x))
  all_goals first | (simp (maxDischargeDepth := 99) +contextual [*]; done) | simp_all (maxDischargeDepth := 99) +contextual

def State.clearFunctions_sites : List Site := [.part .host]

@[simp ↓] theorem State.clearFunctions_keeps {A : Scope} {s₀ : State} (s : State) (p : Nat → Bool) (hk : Keeps A s₀ s)
    (hA : A.covers State.clearFunctions_sites) :
    Keeps A s₀ (State.clearFunctions s p) := by
  simp [State.clearFunctions_sites] at hA
  simp (maxDischargeDepth := 99) [State.clearFunctions, hk, hA]

def State.dropControllers_sites : List Site := State.dropController_sites

@[simp ↓] theorem State.dropControllers_keeps {A : Scope} {s₀ : State} (s : State) (p : Nat → Bool) (hk : Keeps A s₀ s)
    (hA : A.covers State.dropControllers_sites) :
    Keeps A s₀ (State.dropControllers s p) := by
  simp [State.dropControllers_sites] at hA
  unfold State.dropControllers
  repeat' (first
    | (intro x; clear_value x))
  all_goals first | (simp (maxDischargeDepth := 99) +contextual [*]; done) | simp_all (maxDischargeDepth := 99) +contextual

end Sys2Proof.Machine
end

