-- ==== Sys2Proof/Laws/KeepsMediaOps.lean ====
section
/-!
SUPPORT. Sys2Proof/Laws/KeepsMediaOps.lean: the operations and meanings of Machine/MediaOps.lean keep (Laws/Keeps.lean).
-/

set_option linter.all false
set_option Elab.async false

namespace Sys2Proof.Machine

def State.modOp_sites : List Site := [.part .flow]

@[simp ↓] theorem State.modOp_keeps {A : Scope} {s₀ : State} (s : State) (id : Nat) (f : MediaOp → MediaOp) (hk : Keeps A s₀ s)
    (hA : A.covers State.modOp_sites) :
    Keeps A s₀ (State.modOp s id f) := by
  simp [State.modOp_sites] at hA
  simp (maxDischargeDepth := 99) [State.modOp, hk, hA]

def State.removeOp_sites : List Site := [.part .flow]

@[simp ↓] theorem State.removeOp_keeps {A : Scope} {s₀ : State} (s : State) (id : Nat) (hk : Keeps A s₀ s)
    (hA : A.covers State.removeOp_sites) :
    Keeps A s₀ (State.removeOp s id) := by
  simp [State.removeOp_sites] at hA
  simp (maxDischargeDepth := 99) [State.removeOp, hk, hA]

def State.addOp_sites : List Site := State.modSlot_sites ++ [.part .flow]

@[simp ↓] theorem State.addOp_keeps {A : Scope} {s₀ : State} (s : State) (o : MediaOp) (hk : Keeps A s₀ s)
    (hA : A.covers State.addOp_sites) :
    Keeps A s₀ (State.addOp s o) := by
  simp [State.addOp_sites] at hA
  unfold State.addOp
  repeat' (first
    | (intro x; first
        | (have hx : Keeps A s₀ x := by
             subst x
             repeat' split
             all_goals first | with_reducible assumption | (simp (maxDischargeDepth := 99) +contextual [*]; done) | simp_all (maxDischargeDepth := 99) +contextual
           clear_value x)
        | clear_value x)
    | (split <;> try lift_lets))
  all_goals first | (simp (maxDischargeDepth := 99) +contextual [*]; done) | simp_all (maxDischargeDepth := 99) +contextual

def State.addReads_sites : List Site := State.addOp_sites

@[simp ↓] theorem State.addReads_keeps {A : Scope} {s₀ : State} (s : State) (x : Slot) (l : List (Nat × Nat)) (hk : Keeps A s₀ s)
    (hA : A.covers State.addReads_sites) :
    Keeps A s₀ (State.addReads s x l) := by
  simp [State.addReads_sites] at hA
  unfold State.addReads
  repeat' (first
    | (intro x; clear_value x))
  all_goals first | (simp (maxDischargeDepth := 99) +contextual [*]; done) | simp_all (maxDischargeDepth := 99) +contextual

def State.addWrites_sites : List Site := State.addOp_sites

@[simp ↓] theorem State.addWrites_keeps {A : Scope} {s₀ : State} (s : State) (x : Slot) (from_ : Nat) (upto : Nat) (hk : Keeps A s₀ s)
    (hA : A.covers State.addWrites_sites) :
    Keeps A s₀ (State.addWrites s x from_ upto) := by
  simp [State.addWrites_sites] at hA
  unfold State.addWrites
  repeat' (first
    | (intro x; clear_value x))
  all_goals first | (simp (maxDischargeDepth := 99) +contextual [*]; done) | simp_all (maxDischargeDepth := 99) +contextual

def State.setWritePos_sites : List Site := [.part .flow]

@[simp ↓] theorem State.setWritePos_keeps {A : Scope} {s₀ : State} (s : State) (z : Nat) (next : Nat) (placed : Nat) (hk : Keeps A s₀ s)
    (hA : A.covers State.setWritePos_sites) :
    Keeps A s₀ (State.setWritePos s z next placed) := by
  simp [State.setWritePos_sites] at hA
  simp (maxDischargeDepth := 99) [State.setWritePos, hk, hA]

def State.placeWrite_sites : List Site := State.appendCache_sites ++ State.modSlot_sites ++ State.setWritePos_sites

@[simp ↓] theorem State.placeWrite_keeps {A : Scope} {s₀ : State} (s : State) (o : MediaOp) (hk : Keeps A s₀ s)
    (hA : A.covers State.placeWrite_sites) :
    KeepsOpt A (fun t => t.2) s₀ (State.placeWrite s o) := by
  simp [State.placeWrite_sites] at hA
  unfold State.placeWrite
  repeat' (first
    | (intro x; clear_value x)
    | (generalize he : State.appendCache _ _ _ _ = p
       have hp : KeepsOpt A (fun t => t.2) s₀ p := by
         subst he; exact State.appendCache_keeps _ _ _ _ (by first | with_reducible assumption | simp (maxDischargeDepth := 99) +contextual [*]) (by first | assumption | simp [*])
       clear he
       rcases p with _ | p
       rotate_left 1
       replace hp : Keeps A s₀ p.2 := hp p rfl)
    | (split <;> try lift_lets))
  all_goals first | (simp (maxDischargeDepth := 99) +contextual [*]; done) | simp_all (maxDischargeDepth := 99) +contextual

def State.addParity_sites : List Site := State.addOp_sites

@[simp ↓] theorem State.addParity_keeps {A : Scope} {s₀ : State} (s : State) (z : Nat) (group : Nat) (hk : Keeps A s₀ s)
    (hA : A.covers State.addParity_sites) :
    Keeps A s₀ (State.addParity s z group) := by
  simp [State.addParity_sites] at hA
  unfold State.addParity
  repeat' (first
    | (intro x; clear_value x)
    | (split <;> try lift_lets))
  all_goals first | (simp (maxDischargeDepth := 99) +contextual [*]; done) | simp_all (maxDischargeDepth := 99) +contextual

def execWindowEnter_sites : List Site := State.modOp_sites

theorem execWindowEnter_keeps {A : Scope} (a : Nat) (s : State)
    (hA : A.covers execWindowEnter_sites) : KeepsOut A s (execWindowEnter a s) := by
  simp [execWindowEnter_sites] at hA
  have hk := Keeps.refl A s
  unfold execWindowEnter
  repeat' (first
    | (intro x; clear_value x)
    | (split <;> try lift_lets))
  all_goals first | (simp (maxDischargeDepth := 99) +contextual [*]; done) | simp_all (maxDischargeDepth := 99) +contextual

def State.runEngine_sites : List Site := State.placeWrite_sites ++ [.part .flow]

@[simp ↓] theorem State.runEngine_keeps {A : Scope} {s₀ : State} (s : State) (a : Nat) (evals : Nat) (hk : Keeps A s₀ s)
    (hA : A.covers State.runEngine_sites) :
    Keeps A s₀ (State.runEngine s a evals) := by
  simp [State.runEngine_sites] at hA
  simp (maxDischargeDepth := 99) [State.runEngine, hk, hA]

def State.sliceModes_sites : List Site := [.each R.SLC_STATUS]

@[simp ↓] theorem State.sliceModes_keeps {A : Scope} {s₀ : State} (s : State) (a : Nat) (m : ReadMode) (hk : Keeps A s₀ s)
    (hA : A.covers State.sliceModes_sites) :
    Keeps A s₀ (State.sliceModes s a m) := by
  simp [State.sliceModes_sites] at hA
  unfold State.sliceModes
  repeat' (first
    | (intro x; clear_value x))
  all_goals first | (simp (maxDischargeDepth := 99) +contextual [*]; done) | simp_all (maxDischargeDepth := 99) +contextual

def State.queueEncrypt_sites : List Site := [.part .cip]

@[simp ↓] theorem State.queueEncrypt_keeps {A : Scope} {s₀ : State} (s : State) (o : MediaOp) (hk : Keeps A s₀ s)
    (hA : A.covers State.queueEncrypt_sites) :
    Keeps A s₀ (State.queueEncrypt s o) := by
  simp [State.queueEncrypt_sites] at hA
  simp (maxDischargeDepth := 99) [State.queueEncrypt, hk, hA]

def State.activityLow_sites : List Site := [.part .pins]

@[simp ↓] theorem State.activityLow_keeps {A : Scope} {s₀ : State} (s : State) (hk : Keeps A s₀ s)
    (hA : A.covers State.activityLow_sites) :
    Keeps A s₀ (State.activityLow s) := by
  simp [State.activityLow_sites] at hA
  simp (maxDischargeDepth := 99) [State.activityLow, hk, hA]

def State.issueOp_sites : List Site :=
  State.activityLow_sites ++ State.followHead_sites ++ State.modOp_sites ++ State.placeWrite_sites ++ State.preheat_sites ++
    State.queueEncrypt_sites ++ [.one R.CIP_EVENTS, .each R.SCH_PICKS]

@[simp ↓] theorem State.issueOp_keeps {A : Scope} {s₀ : State} (s : State) (o : MediaOp) (a : Nat) (hk : Keeps A s₀ s)
    (hA : A.covers State.issueOp_sites) :
    Keeps A s₀ (State.issueOp s o a) := by
  simp [State.issueOp_sites] at hA
  unfold State.issueOp
  repeat' (first
    | with_reducible assumption
    | (intro x; first
        | (refine (?_ : Keeps A s₀ x → _) ?_
           all_goals first | (intro hx; clear_value x) | subst x)
        | (have hx : KeepsOpt A (fun t => t.2) s₀ x := by subst x; first | with_reducible assumption | (simp (maxDischargeDepth := 99) [*]; done) | (simp (maxDischargeDepth := 99) +contextual [*]; done) | ((repeat' split) <;> simp (maxDischargeDepth := 99) [*])
           clear_value x
           rcases x with _ | x
           rotate_left 1
           replace hx := hx x rfl
           try obtain ⟨_, _⟩ := x))
    | with_reducible refine keeps_ite ?_ ?_
    | with_reducible refine State.modOp_keeps _ _ _ ?_ (by first | assumption | simp [*])
    | with_reducible refine State.count_keeps _ _ ?_ (by first | assumption | simp [*])
    | with_reducible refine State.preheat_keeps _ _ _ ?_ (by first | assumption | simp [*])
    | with_reducible refine State.followHead_keeps _ _ ?_ (by first | assumption | simp [*])
    | with_reducible refine State.activityLow_keeps _ ?_ (by first | assumption | simp [*])
    | with_reducible refine State.flag_keeps _ _ ?_ (by first | assumption | simp [*])
    | with_reducible refine State.queueEncrypt_keeps _ _ ?_ (by first | assumption | simp [*])
    | lift_lets -underBinder)

def State.bestReg_sites : List Site := [.each R.SCH_BEST]

@[simp ↓] theorem State.bestReg_keeps {A : Scope} {s₀ : State} (s : State) (a : Nat) (o : MediaOp) (cost : Nat) (hk : Keeps A s₀ s)
    (hA : A.covers State.bestReg_sites) :
    Keeps A s₀ (State.bestReg s a o cost) := by
  simp [State.bestReg_sites] at hA
  simp (maxDischargeDepth := 99) [State.bestReg, hk, hA]

def execMediaPick_sites : List Site :=
  State.bestReg_sites ++ State.issueOp_sites ++ State.runEngine_sites ++ [.one R.ORD_OVL_EVENTS, .each R.SCH_BEST]

theorem execMediaPick_keeps {A : Scope} (a : Nat) (evals : Nat) (s : State)
    (hA : A.covers execMediaPick_sites) : KeepsOut A s (execMediaPick a evals s) := by
  simp [execMediaPick_sites] at hA
  have hk := Keeps.refl A s
  unfold execMediaPick
  repeat' (first
    | (intro x; first
        | (have hx : Keeps A s x := by
             subst x
             repeat' split
             all_goals first | with_reducible assumption | (simp (maxDischargeDepth := 99) +contextual [*]; done) | simp_all (maxDischargeDepth := 99) +contextual
           clear_value x)
        | clear_value x)
    | (split <;> try lift_lets))
  all_goals first | (simp (maxDischargeDepth := 99) +contextual [*]; done) | simp_all (maxDischargeDepth := 99) +contextual

def State.withdraw.rest_sites : List Site := State.addOp_sites ++ State.modOp_sites ++ [.part .cip]

@[simp ↓] theorem State.withdraw.rest_keeps {A : Scope} {s₀ : State} (s : State) (o : MediaOp) (hk : Keeps A s₀ s)
    (hA : A.covers State.withdraw.rest_sites) :
    Keeps A s₀ (State.withdraw.rest s o) := by
  simp [State.withdraw.rest_sites] at hA
  simp (maxDischargeDepth := 99) [State.withdraw.rest, hk, hA]

def State.withdraw_sites : List Site :=
  State.endGate_sites ++ State.followOps_sites ++ State.withdraw.rest_sites ++ [.part .acts]

@[simp ↓] theorem State.withdraw_keeps {A : Scope} {s₀ : State} (s : State) (o : MediaOp) (hk : Keeps A s₀ s)
    (hA : A.covers State.withdraw_sites) :
    Keeps A s₀ (State.withdraw s o) := by
  simp [State.withdraw_sites] at hA
  simp (maxDischargeDepth := 99) [State.withdraw, hk, hA]

def execPreempt_sites : List Site := State.withdraw_sites ++ [.each R.SCH_EVALS]

theorem execPreempt_keeps {A : Scope} (a : Nat) (s : State)
    (hA : A.covers execPreempt_sites) : KeepsOut A s (execPreempt a s) := by
  simp [execPreempt_sites] at hA
  have hk := Keeps.refl A s
  unfold execPreempt
  repeat' (first
    | (intro x; clear_value x)
    | (split <;> try lift_lets))
  all_goals first | (simp (maxDischargeDepth := 99) +contextual [*]; done) | simp_all (maxDischargeDepth := 99) +contextual

end Sys2Proof.Machine
end

