-- ==== Sys2Proof/Laws/KeepsDarning.lean ====
section
/-!
SUPPORT. Sys2Proof/Laws/KeepsDarning.lean: the operations and meanings of Machine/Darning.lean keep (Laws/Keeps.lean).
-/

set_option linter.all false
set_option Elab.async false

namespace Sys2Proof.Machine

def State.dueRegs_sites : List Site := [.one R.DRN_DUE]

@[simp ↓] theorem State.dueRegs_keeps {A : Scope} {s₀ : State} (s : State) (hk : Keeps A s₀ s)
    (hA : A.covers State.dueRegs_sites) :
    Keeps A s₀ (State.dueRegs s) := by
  simp [State.dueRegs_sites] at hA
  simp (maxDischargeDepth := 99) [State.dueRegs, hk, hA]

def State.dueZone_sites : List Site := State.dueRegs_sites ++ [.one R.DRN_EVENTS, .part .darn]

@[simp ↓] theorem State.dueZone_keeps {A : Scope} {s₀ : State} (s : State) (z : Nat) (hk : Keeps A s₀ s)
    (hA : A.covers State.dueZone_sites) :
    Keeps A s₀ (State.dueZone s z) := by
  simp [State.dueZone_sites] at hA
  simp (maxDischargeDepth := 99) [State.dueZone, hk, hA]

def State.noParity_sites : List Site := State.dueZone_sites ++ State.walker_sites ++ [.one R.FMT_PARITY]

@[simp ↓] theorem State.noParity_keeps {A : Scope} {s₀ : State} (s : State) (psa : Nat) (hk : Keeps A s₀ s)
    (hA : A.covers State.noParity_sites) :
    Keeps A s₀ (State.noParity s psa) := by
  simp [State.noParity_sites] at hA
  unfold State.noParity
  repeat' (first
    | (intro x; first
        | (have hx : Keeps A s₀ x := by
             subst x
             repeat' split
             all_goals first | with_reducible assumption | (simp (maxDischargeDepth := 99) +contextual [*]; done) | simp_all (maxDischargeDepth := 99) +contextual
           clear_value x)
        | clear_value x)
    | (split <;> try lift_lets))
  all_goals first | (simp (maxDischargeDepth := 99) +contextual [*]; done) | simp_all (maxDischargeDepth := 99) +contextual

def State.doneWithClaim_sites : List Site := State.closeClaim_sites

@[simp ↓] theorem State.doneWithClaim_keeps {A : Scope} {s₀ : State} (s : State) (claim : Option Nat) (hk : Keeps A s₀ s)
    (hA : A.covers State.doneWithClaim_sites) :
    Keeps A s₀ (State.doneWithClaim s claim) := by
  simp [State.doneWithClaim_sites] at hA
  unfold State.doneWithClaim
  repeat' (first
    | (intro x; clear_value x)
    | (split <;> try lift_lets))
  all_goals first | (simp (maxDischargeDepth := 99) +contextual [*]; done) | simp_all (maxDischargeDepth := 99) +contextual

def State.darningClaim_sites : List Site := State.openClaim_sites

@[simp ↓] theorem State.darningClaim_keeps {A : Scope} {s₀ : State} (s : State) (d : Nat) (n : Nat) (hk : Keeps A s₀ s)
    (hA : A.covers State.darningClaim_sites) :
    Keeps A s₀ (State.darningClaim s d n).2 := by
  simp [State.darningClaim_sites] at hA
  unfold State.darningClaim
  repeat' (first
    | (intro x; clear_value x)
    | (split <;> try lift_lets))
  all_goals first | (simp (maxDischargeDepth := 99) +contextual [*]; done) | simp_all (maxDischargeDepth := 99) +contextual

def State.relocateSector_sites : List Site := State.addOp_sites

@[simp ↓] theorem State.relocateSector_keeps {A : Scope} {s₀ : State} (s : State) (a : Nat) (dla : Nat) (x : MediaSector) (claim : Option Nat) (slot : Option Nat) (urgent : Bool) (hk : Keeps A s₀ s)
    (hA : A.covers State.relocateSector_sites) :
    Keeps A s₀ (State.relocateSector s a dla x claim slot urgent) := by
  simp [State.relocateSector_sites] at hA
  simp (maxDischargeDepth := 99) [State.relocateSector, hk, hA]

def State.relocate_sites : List Site := State.relocateSector_sites

@[simp ↓] theorem State.relocate_keeps {A : Scope} {s₀ : State} (s : State) (a : Nat) (dla : Nat) (psa : Nat) (claim : Option Nat) (slot : Option Nat) (urgent : Bool) (hk : Keeps A s₀ s)
    (hA : A.covers State.relocate_sites) :
    Keeps A s₀ (State.relocate s a dla psa claim slot urgent) := by
  simp [State.relocate_sites] at hA
  unfold State.relocate
  repeat' (first
    | (intro x; clear_value x)
    | (split <;> try lift_lets))
  all_goals first | (simp (maxDischargeDepth := 99) +contextual [*]; done) | simp_all (maxDischargeDepth := 99) +contextual

def State.relocated_sites : List Site := State.dueZone_sites ++ State.walker_sites ++ [.one R.DRN_EVENTS, .one R.DRN_RELOC]

@[simp ↓] theorem State.relocated_keeps {A : Scope} {s₀ : State} (s : State) (o : MediaOp) (hk : Keeps A s₀ s)
    (hA : A.covers State.relocated_sites) :
    Keeps A s₀ (State.relocated s o) := by
  simp [State.relocated_sites] at hA
  simp (maxDischargeDepth := 99) [State.relocated, hk, hA]

def State.mapPlace_sites : List Site := State.walker_sites

@[simp ↓] theorem State.mapPlace_keeps {A : Scope} {s₀ : State} (s : State) (d : Nat) (p : Nat) (gen : Nat) (hk : Keeps A s₀ s)
    (hA : A.covers State.mapPlace_sites) :
    Keeps A s₀ (State.mapPlace s d p gen) := by
  simp [State.mapPlace_sites] at hA
  simp only [State.mapPlace]
  repeat' split
  all_goals simp_all (maxDischargeDepth := 99) +contextual

def State.sectorVerified_sites : List Site := State.modSlot_sites

@[simp ↓] theorem State.sectorVerified_keeps {A : Scope} {s₀ : State} (s : State) (n : Nat) (i : Nat) (psa : Nat) (hk : Keeps A s₀ s)
    (hA : A.covers State.sectorVerified_sites) :
    Keeps A s₀ (State.sectorVerified s n i psa) := by
  simp [State.sectorVerified_sites] at hA
  simp (maxDischargeDepth := 99) [State.sectorVerified, hk, hA]

def State.restitch_sites : List Site := State.addOp_sites

@[simp ↓] theorem State.restitch_keeps {A : Scope} {s₀ : State} (s : State) (o : MediaOp) (x : MediaSector) (hk : Keeps A s₀ s)
    (hA : A.covers State.restitch_sites) :
    Keeps A s₀ (State.restitch s o x) := by
  simp [State.restitch_sites] at hA
  simp (maxDischargeDepth := 99) [State.restitch, hk, hA]

def State.sectorFailed_sites : List Site :=
  State.dueZone_sites ++ State.event_sites ++ State.modSlot_sites ++ State.relocate_sites ++ State.restitch_sites ++ [.each
    R.SLC_EVENTS, .one R.STM_EVENTS]

@[simp ↓] theorem State.sectorFailed_keeps {A : Scope} {s₀ : State} (s : State) (i : Nat) (o : MediaOp) (psa : Nat) (x : MediaSector) (hk : Keeps A s₀ s)
    (hA : A.covers State.sectorFailed_sites) :
    Keeps A s₀ (State.sectorFailed s i o psa x) := by
  simp [State.sectorFailed_sites] at hA
  unfold State.sectorFailed
  extract_lets z fails s₁ s₂
  have h₁ : Keeps A s₀ s₁ := by
    show Keeps A s₀ (match o.slot with | some n => _ | none => _)
    split
    · exact State.modSlot_keeps _ _ _ hk (by first | assumption | simp [*])
    · exact hk
  split
  · exact State.restitch_keeps _ _ _ h₁ (by first | assumption | simp [*])
  · split
    · simp (maxDischargeDepth := 99) [s₂, h₁, hA]
    · split
      · simp (maxDischargeDepth := 99) [s₂, h₁, hA]
      · exact State.restitch_keeps _ _ _ h₁ (by first | assumption | simp [*])

def State.readDone_sites : List Site := State.completeSlot_sites ++ State.freeSlot_sites ++ State.modSlot_sites

@[simp ↓] theorem State.readDone_keeps {A : Scope} {s₀ : State} (s : State) (n : Nat) (hk : Keeps A s₀ s)
    (hA : A.covers State.readDone_sites) :
    Keeps A s₀ (State.readDone s n) := by
  simp [State.readDone_sites] at hA
  unfold State.readDone
  repeat' (first
    | (intro x; clear_value x)
    | (split <;> try lift_lets))
  all_goals first | (simp (maxDischargeDepth := 99) +contextual [*]; done) | simp_all (maxDischargeDepth := 99) +contextual

def State.landSector_sites : List Site :=
  State.cachePage_sites ++ State.modSlot_sites ++ State.readDone_sites ++ State.transfer_sites

@[simp ↓] theorem State.landSector_keeps {A : Scope} {s₀ : State} (s : State) (n : Nat) (i : Nat) (data : Sector) (pi : List Byte) (hk : Keeps A s₀ s)
    (hA : A.covers State.landSector_sites) :
    Keeps A s₀ (State.landSector s n i data pi) := by
  simp [State.landSector_sites] at hA
  unfold State.landSector
  repeat' (first
    | (intro x; first
        | (have hx : Keeps A s₀ x := by
             subst x
             repeat' split
             all_goals first | with_reducible assumption | (simp (maxDischargeDepth := 99) +contextual [*]; done) | simp_all (maxDischargeDepth := 99) +contextual
           clear_value x)
        | clear_value x)
    | (split <;> try lift_lets))
  all_goals first | (simp (maxDischargeDepth := 99) +contextual [*]; done) | simp_all (maxDischargeDepth := 99) +contextual

def State.failSector_sites : List Site :=
  State.logError_sites ++ State.modSlot_sites ++ State.readDone_sites ++ State.transfer_sites

@[simp ↓] theorem State.failSector_keeps {A : Scope} {s₀ : State} (s : State) (n : Nat) (i : Nat) (status : Nat) (hk : Keeps A s₀ s)
    (hA : A.covers State.failSector_sites) :
    Keeps A s₀ (State.failSector s n i status) := by
  simp [State.failSector_sites] at hA
  unfold State.failSector
  repeat' (first
    | (intro x; first
        | (have hx : Keeps A s₀ x := by
             subst x
             repeat' split
             all_goals first | with_reducible assumption | (simp (maxDischargeDepth := 99) +contextual [*]; done) | simp_all (maxDischargeDepth := 99) +contextual
           clear_value x)
        | clear_value x)
    | (split <;> try lift_lets))
  all_goals first | (simp (maxDischargeDepth := 99) +contextual [*]; done) | simp_all (maxDischargeDepth := 99) +contextual

def State.settle_sites : List Site :=
  State.doneWithClaim_sites ++ State.followOps_sites ++ State.modOp_sites ++ State.removeOp_sites ++ [.one R.DRN_STATUS]

@[simp ↓] theorem State.settle_keeps {A : Scope} {s₀ : State} (s : State) (o : MediaOp) (i : Nat) (hk : Keeps A s₀ s)
    (hA : A.covers State.settle_sites) :
    Keeps A s₀ (State.settle s o i) := by
  simp [State.settle_sites] at hA
  unfold State.settle
  repeat' (first
    | (intro x; first
        | (have hx : Keeps A s₀ x := by
             subst x
             repeat' split
             all_goals first | with_reducible assumption | (simp (maxDischargeDepth := 99) +contextual [*]; done) | simp_all (maxDischargeDepth := 99) +contextual
           clear_value x)
        | clear_value x)
    | (split <;> try lift_lets))
  all_goals first | (simp (maxDischargeDepth := 99) +contextual [*]; done) | simp_all (maxDischargeDepth := 99) +contextual

def State.queueDecrypt_sites : List Site := [.part .cip]

@[simp ↓] theorem State.queueDecrypt_keeps {A : Scope} {s₀ : State} (s : State) (o : MediaOp) (i : Nat) (x : MediaSector) (hk : Keeps A s₀ s)
    (hA : A.covers State.queueDecrypt_sites) :
    Keeps A s₀ (State.queueDecrypt s o i x) := by
  simp [State.queueDecrypt_sites] at hA
  simp (maxDischargeDepth := 99) [State.queueDecrypt, hk, hA]

def State.sectorRead_sites : List Site := State.landSector_sites ++ State.queueDecrypt_sites ++ State.settle_sites

@[simp ↓] theorem State.sectorRead_keeps {A : Scope} {s₀ : State} (s : State) (o : MediaOp) (i : Nat) (x : MediaSector) (hk : Keeps A s₀ s)
    (hA : A.covers State.sectorRead_sites) :
    Keeps A s₀ (State.sectorRead s o i x) := by
  simp [State.sectorRead_sites] at hA
  unfold State.sectorRead
  repeat' (first
    | (intro x; first
        | (have hx : Keeps A s₀ x := by
             subst x
             repeat' split
             all_goals first | with_reducible assumption | (simp (maxDischargeDepth := 99) +contextual [*]; done) | simp_all (maxDischargeDepth := 99) +contextual
           clear_value x)
        | clear_value x)
    | (split <;> try lift_lets))
  all_goals first | (simp (maxDischargeDepth := 99) +contextual [*]; done) | simp_all (maxDischargeDepth := 99) +contextual

end Sys2Proof.Machine
end

