-- ==== Sys2Proof/Laws/KeepsChannel.lean ====
section
/-!
SUPPORT. Sys2Proof/Laws/KeepsChannel.lean: the operations and meanings of Machine/Channel.lean keep (Laws/Keeps.lean).
-/

set_option linter.all false
set_option Elab.async false

namespace Sys2Proof.Machine

def State.pinRegs_sites : List Site := [.each R.SLC_PIN_HI, .each R.SLC_PIN_LO, .each R.SLC_STATUS]

@[simp ↓] theorem State.pinRegs_keeps {A : Scope} {s₀ : State} (s : State) (i : Nat) (hk : Keeps A s₀ s)
    (hA : A.covers State.pinRegs_sites) :
    Keeps A s₀ (State.pinRegs s i) := by
  simp [State.pinRegs_sites] at hA
  simp (maxDischargeDepth := 99) [State.pinRegs, hk, hA]

def State.postResult_sites : List Site := [.part .slices]

@[simp ↓] theorem State.postResult_keeps {A : Scope} {s₀ : State} (s : State) (i : Nat) (r : SectorResult) (hk : Keeps A s₀ s)
    (hA : A.covers State.postResult_sites) :
    Keeps A s₀ (State.postResult s i r) := by
  simp [State.postResult_sites] at hA
  simp (maxDischargeDepth := 99) [State.postResult, hk, hA]

def State.countDrops_sites : List Site := [.each R.SLC_DROP, .each R.SLC_DROP_TOTAL]

@[simp ↓] theorem State.countDrops_keeps {A : Scope} {s₀ : State} (s : State) (i : Nat) (bits : Nat) (hk : Keeps A s₀ s)
    (hA : A.covers State.countDrops_sites) :
    Keeps A s₀ (State.countDrops s i bits) := by
  simp [State.countDrops_sites] at hA
  simp (maxDischargeDepth := 99) [State.countDrops, hk, hA]

def State.setTaps_sites : List Site := [.grid R.SLC_FIR]

@[simp ↓] theorem State.setTaps_keeps {A : Scope} {s₀ : State} (s : State) (i : Nat) (taps : List Int) (hk : Keeps A s₀ s)
    (hA : A.covers State.setTaps_sites) :
    Keeps A s₀ (State.setTaps s i taps) := by
  simp [State.setTaps_sites] at hA
  simp (maxDischargeDepth := 99) +contextual [State.setTaps, hk, hA]

def State.runPath_sites : List Site := State.setTaps_sites ++ [.each R.SLC_EVENTS, .part .acts, .part .slices]

@[simp ↓] theorem State.runPath_keeps {A : Scope} {s₀ : State} (s : State) (i : Nat) (head : Nat) (band : Nat) (n : Nat) (o : MediaOp) (k : Nat) (obs : FrameObs) (p : PathState) (m : Option Int × Option Int) (hk : Keeps A s₀ s)
    (hA : A.covers State.runPath_sites) :
    Keeps A s₀ (State.runPath s i head band n o k obs p m) := by
  simp [State.runPath_sites] at hA
  simp (maxDischargeDepth := 99) [State.runPath, hk, hA]

def State.receiveSector_sites : List Site :=
  State.countDrops_sites ++ State.modOp_sites ++ State.runPath_sites ++ State.snagPass_sites ++ [.part .slices]

@[simp ↓] theorem State.receiveSector_keeps {A : Scope} {s₀ : State} (s : State) (i : Nat) (o : MediaOp) (k : Nat) (obs : FrameObs) (hk : Keeps A s₀ s)
    (hA : A.covers State.receiveSector_sites) :
    Keeps A s₀ (State.receiveSector s i o k obs) := by
  simp [State.receiveSector_sites] at hA
  simp (maxDischargeDepth := 99) [State.receiveSector, hk, hA]

def State.serialise_sites : List Site := State.modOp_sites ++ [.part .slices]

@[simp ↓] theorem State.serialise_keeps {A : Scope} {s₀ : State} (s : State) (i : Nat) (o : MediaOp) (k : Nat) (hk : Keeps A s₀ s)
    (hA : A.covers State.serialise_sites) :
    Keeps A s₀ (State.serialise s i o k) := by
  simp [State.serialise_sites] at hA
  simp only [State.serialise]
  repeat' split
  all_goals simp_all (maxDischargeDepth := 99) +contextual

def execSectorFrame_sites : List Site := State.receiveSector_sites ++ State.serialise_sites

theorem execSectorFrame_keeps {A : Scope} (i : Nat) (obs : FrameObs) (s : State)
    (hA : A.covers execSectorFrame_sites) : KeepsOut A s (execSectorFrame i obs s) := by
  simp [execSectorFrame_sites] at hA
  have hk := Keeps.refl A s
  unfold execSectorFrame
  try lift_lets
  repeat' (first
    | (intro x; clear_value x)
    | (split <;> try lift_lets))
  all_goals first | (simp (maxDischargeDepth := 99) +contextual [*]; done) | simp_all (maxDischargeDepth := 99) +contextual

def State.sectorWritten_sites : List Site :=
  State.endGate_sites ++ State.modOp_sites ++ State.tearMedia_sites ++ State.writeMedia_sites ++ [.part .acts]

@[simp ↓] theorem State.sectorWritten_keeps {A : Scope} {s₀ : State} (s : State) (a : Nat) (o : MediaOp) (hk : Keeps A s₀ s)
    (hA : A.covers State.sectorWritten_sites) :
    Keeps A s₀ (State.sectorWritten s a o) := by
  simp [State.sectorWritten_sites] at hA
  unfold State.sectorWritten
  repeat' (first
    | (intro x; first
        | (have hx : Keeps A s₀ x := by
             subst x
             repeat' split
             all_goals first | with_reducible assumption | (simp (maxDischargeDepth := 99) +contextual [*]; done) | simp_all (maxDischargeDepth := 99) +contextual
           clear_value x)
        | clear_value x)
    | (split <;> try lift_lets))
  all_goals first | (simp (maxDischargeDepth := 99) +contextual [*]; done) | simp_all (maxDischargeDepth := 99) +contextual

def State.applyDelayed_sites : List Site := [.grid fun i n => R.SLC_CTRL i + n % 0x10000, .part .slices]

@[simp ↓] theorem State.applyDelayed_keeps {A : Scope} {s₀ : State} (s : State) (i : Nat) (hk : Keeps A s₀ s)
    (hA : A.covers State.applyDelayed_sites) :
    Keeps A s₀ (State.applyDelayed s i) := by
  simp [State.applyDelayed_sites] at hA
  unfold State.applyDelayed
  repeat' (first
    | (intro x; clear_value x))
  all_goals first | (simp (maxDischargeDepth := 99) +contextual [*]; done) | simp_all (maxDischargeDepth := 99) +contextual

def State.idleSlice_sites : List Site := [.each R.SLC_STATUS]

@[simp ↓] theorem State.idleSlice_keeps {A : Scope} {s₀ : State} (s : State) (i : Nat) (role : Nat) (hk : Keeps A s₀ s)
    (hA : A.covers State.idleSlice_sites) :
    Keeps A s₀ (State.idleSlice s i role) := by
  simp [State.idleSlice_sites] at hA
  simp (maxDischargeDepth := 99) [State.idleSlice, hk, hA]

def State.seatSlice_sites : List Site := [.each R.SLC_STATUS]

@[simp ↓] theorem State.seatSlice_keeps {A : Scope} {s₀ : State} (s : State) (i : Nat) (role : Nat) (a : Nat) (pos : Nat) (forSlice : Nat) (hk : Keeps A s₀ s)
    (hA : A.covers State.seatSlice_sites) :
    Keeps A s₀ (State.seatSlice s i role a pos forSlice) := by
  simp [State.seatSlice_sites] at hA
  simp (maxDischargeDepth := 99) [State.seatSlice, hk, hA]

def State.moveWork_sites : List Site := State.pinRegs_sites ++ [.part .slices]

@[simp ↓] theorem State.moveWork_keeps {A : Scope} {s₀ : State} (s : State) (i : Nat) (k : Nat) (pinned : Bool) (hk : Keeps A s₀ s)
    (hA : A.covers State.moveWork_sites) :
    Keeps A s₀ (State.moveWork s i k pinned) := by
  simp [State.moveWork_sites] at hA
  simp (maxDischargeDepth := 99) [State.moveWork, hk, hA]

def State.returnSlice_sites : List Site := State.idleSlice_sites ++ State.moveWork_sites ++ State.seatSlice_sites

@[simp ↓] theorem State.returnSlice_keeps {A : Scope} {s₀ : State} (s : State) (i : Nat) (a : Nat) (pos : Nat) (hk : Keeps A s₀ s)
    (hA : A.covers State.returnSlice_sites) :
    Keeps A s₀ (State.returnSlice s i a pos) := by
  simp [State.returnSlice_sites] at hA
  unfold State.returnSlice
  repeat' (first
    | (intro x; first
        | (have hx : Keeps A s₀ x := by
             subst x
             repeat' split
             all_goals first | with_reducible assumption | (simp (maxDischargeDepth := 99) +contextual [*]; done) | simp_all (maxDischargeDepth := 99) +contextual
           clear_value x)
        | clear_value x)
    | (split <;> try lift_lets))
  all_goals first | (simp (maxDischargeDepth := 99) +contextual [*]; done) | simp_all (maxDischargeDepth := 99) +contextual

def State.sliceReturns_sites : List Site := State.returnSlice_sites ++ [.part .gauge]

@[simp ↓] theorem State.sliceReturns_keeps {A : Scope} {s₀ : State} (s : State) (a : Nat) (hk : Keeps A s₀ s)
    (hA : A.covers State.sliceReturns_sites) :
    Keeps A s₀ (State.sliceReturns s a) := by
  simp [State.sliceReturns_sites] at hA
  unfold State.sliceReturns
  try lift_lets
  repeat' (first
    | (intro x; first
        | (have hx : Keeps A s₀ x := by
             subst x
             repeat' split
             all_goals first | with_reducible assumption | (simp (maxDischargeDepth := 99) +contextual [*]; done) | simp_all (maxDischargeDepth := 99) +contextual
           clear_value x)
        | clear_value x)
    | (split <;> try lift_lets))
  all_goals first | (simp (maxDischargeDepth := 99) +contextual [*]; done) | simp_all (maxDischargeDepth := 99) +contextual

def State.calibSeat_sites : List Site :=
  State.moveWork_sites ++ State.seatSlice_sites ++ [.each R.SLC_STATUS, .part .gauge]

@[simp ↓] theorem State.calibSeat_keeps {A : Scope} {s₀ : State} (s : State) (a : Nat) (hk : Keeps A s₀ s)
    (hA : A.covers State.calibSeat_sites) :
    Keeps A s₀ (State.calibSeat s a) := by
  simp [State.calibSeat_sites] at hA
  unfold State.calibSeat
  repeat' (first
    | (intro x; first
        | (have hx : Keeps A s₀ x := by
             subst x
             repeat' split
             all_goals first | with_reducible assumption | (simp (maxDischargeDepth := 99) +contextual [*]; done) | simp_all (maxDischargeDepth := 99) +contextual
           clear_value x)
        | clear_value x)
    | (split <;> try lift_lets))
  all_goals first | (simp (maxDischargeDepth := 99) +contextual [*]; done) | simp_all (maxDischargeDepth := 99) +contextual

def execSectorBoundary_sites : List Site :=
  State.applyDelayed_sites ++ State.calibSeat_sites ++ State.sectorWritten_sites ++ State.sliceReturns_sites

theorem execSectorBoundary_keeps {A : Scope} (a : Nat) (s : State)
    (hA : A.covers execSectorBoundary_sites) : KeepsOut A s (execSectorBoundary a s) := by
  simp [execSectorBoundary_sites] at hA
  have hk := Keeps.refl A s
  unfold execSectorBoundary
  repeat' (first
    | (intro x; first
        | (have hx : Keeps A s x := by
             subst x
             repeat' split
             all_goals first | with_reducible assumption | (simp (maxDischargeDepth := 99) +contextual [*]; done) | simp_all (maxDischargeDepth := 99) +contextual
           clear_value x)
        | clear_value x)
    | (split <;> try lift_lets))
  all_goals first | (simp (maxDischargeDepth := 99) +contextual [*]; done) | simp_all (maxDischargeDepth := 99) +contextual

def State.healthTrend_sites : List Site :=
  State.event_sites ++ [.one R.GAU_DRIFT, .one R.GAU_EVENTS, .grid R.GAU_HEALTH, .part .gauge]

@[simp ↓] theorem State.healthTrend_keeps {A : Scope} {s₀ : State} (s : State) (a : Nat) (h : Nat) (m : Nat) (hk : Keeps A s₀ s)
    (hA : A.covers State.healthTrend_sites) :
    Keeps A s₀ (State.healthTrend s a h m) := by
  simp [State.healthTrend_sites] at hA
  simp (maxDischargeDepth := 99) [State.healthTrend, hk, hA]

def State.unpin_sites : List Site := State.pinRegs_sites ++ [.part .slices]

@[simp ↓] theorem State.unpin_keeps {A : Scope} {s₀ : State} (s : State) (i : Nat) (p : PinnedSlot → Bool) (hk : Keeps A s₀ s)
    (hA : A.covers State.unpin_sites) :
    Keeps A s₀ (State.unpin s i p) := by
  simp [State.unpin_sites] at hA
  simp (maxDischargeDepth := 99) [State.unpin, hk, hA]

def State.replaceHeld_sites : List Site := State.unpin_sites

@[simp ↓] theorem State.replaceHeld_keeps {A : Scope} {s₀ : State} (s : State) (j : SectorJob) (hk : Keeps A s₀ s)
    (hA : A.covers State.replaceHeld_sites) :
    Keeps A s₀ (State.replaceHeld s j) := by
  simp [State.replaceHeld_sites] at hA
  simp only [State.replaceHeld]
  repeat' split
  all_goals simp_all (maxDischargeDepth := 99) +contextual

def State.pinSector_sites : List Site :=
  State.pinRegs_sites ++ State.replaceHeld_sites ++ [.each R.SLC_EVENTS, .part .slices]

@[simp ↓] theorem State.pinSector_keeps {A : Scope} {s₀ : State} (s : State) (i : Nat) (j : SectorJob) (d : DecodeObs) (hk : Keeps A s₀ s)
    (hA : A.covers State.pinSector_sites) :
    Keeps A s₀ (State.pinSector s i j d).1 := by
  simp [State.pinSector_sites] at hA
  simp only [State.pinSector]
  repeat' split
  all_goals simp_all (maxDischargeDepth := 99) +contextual

def State.readFailed.waits_sites : List Site := [.part .darn]

@[simp ↓] theorem State.readFailed.waits_keeps {A : Scope} {s₀ : State} (i : Nat) (o : MediaOp) (k : Nat) (code : Nat) (s : State) (p : Nat) (hk : Keeps A s₀ s)
    (hA : A.covers State.readFailed.waits_sites) :
    Keeps A s₀ (State.readFailed.waits i o k code s p) := by
  simp [State.readFailed.waits_sites] at hA
  simp (maxDischargeDepth := 99) [State.readFailed.waits, hk, hA]

def State.readFailed_sites : List Site :=
  State.addOp_sites ++ State.noParity_sites ++ State.readFailed.waits_sites ++ State.settle_sites

@[simp ↓] theorem State.readFailed_keeps {A : Scope} {s₀ : State} (s : State) (i : Nat) (o : MediaOp) (k : Nat) (code : Nat) (hk : Keeps A s₀ s)
    (hA : A.covers State.readFailed_sites) :
    Keeps A s₀ (State.readFailed s i o k code) := by
  simp [State.readFailed_sites] at hA
  unfold State.readFailed
  repeat' (first
    | (intro x; clear_value x)
    | (split <;> try lift_lets))
  all_goals first | (simp (maxDischargeDepth := 99) +contextual [*]; done) | simp_all (maxDischargeDepth := 99) +contextual

def State.scrubGood_sites : List Site := State.relocate_sites ++ State.settle_sites ++ [.one R.DRN_RELOC]

@[simp ↓] theorem State.scrubGood_keeps {A : Scope} {s₀ : State} (s : State) (o : MediaOp) (k : Nat) (d : DecodeObs) (fallback : Bool) (hk : Keeps A s₀ s)
    (hA : A.covers State.scrubGood_sites) :
    Keeps A s₀ (State.scrubGood s o k d fallback) := by
  simp [State.scrubGood_sites] at hA
  simp (maxDischargeDepth := 99) [State.scrubGood, hk, hA]

def State.readGood_sites : List Site := State.scrubGood_sites ++ State.sectorRead_sites ++ State.settle_sites

@[simp ↓] theorem State.readGood_keeps {A : Scope} {s₀ : State} (s : State) (o : MediaOp) (k : Nat) (d : DecodeObs) (fallback : Bool) (hk : Keeps A s₀ s)
    (hA : A.covers State.readGood_sites) :
    Keeps A s₀ (State.readGood s o k d fallback) := by
  simp [State.readGood_sites] at hA
  unfold State.readGood
  repeat' (first
    | (intro x; clear_value x)
    | (split <;> try lift_lets))
  all_goals first | (simp (maxDischargeDepth := 99) +contextual [*]; done) | simp_all (maxDischargeDepth := 99) +contextual

def State.readDecoded_sites : List Site :=
  State.pinSector_sites ++ State.postResult_sites ++ State.readFailed_sites ++ State.readGood_sites ++ [.each R.SLC_EVENTS]

@[simp ↓] theorem State.readDecoded_keeps {A : Scope} {s₀ : State} (s : State) (i : Nat) (j : SectorJob) (d : DecodeObs) (offset : Int) (auto : Bool) (extra : Nat) (hk : Keeps A s₀ s)
    (hA : A.covers State.readDecoded_sites) :
    Keeps A s₀ (State.readDecoded s i j d offset auto extra) := by
  simp [State.readDecoded_sites] at hA
  unfold State.readDecoded
  repeat' (first
    | with_reducible assumption
    | (intro x; first
        | (refine (?_ : Keeps A s₀ x → _) ?_
           all_goals first | (intro hx; clear_value x) | subst x)
        | (have hx : Keeps A s₀ x.1 := by subst x; first | with_reducible assumption | (simp (maxDischargeDepth := 99) [*]; done) | ((repeat' split) <;> simp (maxDischargeDepth := 99) [*])
           clear_value x
           obtain ⟨_, _⟩ := x))
    | with_reducible refine State.readGood_keeps _ _ _ _ _ ?_ (by first | assumption | simp [*])
    | with_reducible refine State.postResult_keeps _ _ _ ?_ (by first | assumption | simp [*])
    | with_reducible refine State.flag_keeps _ _ ?_ (by first | assumption | simp [*])
    | with_reducible refine State.readFailed_keeps _ _ _ _ _ ?_ (by first | assumption | simp [*])
    | (split <;> try lift_lets -underBinder))

def State.writeGood_sites : List Site :=
  State.mapPlace_sites ++ State.relocated_sites ++ State.sectorVerified_sites ++ State.settle_sites ++ [.one R.DRN_EVENTS,
    .one R.DRN_RELOC]

@[simp ↓] theorem State.writeGood_keeps {A : Scope} {s₀ : State} (s : State) (o : MediaOp) (k : Nat) (hk : Keeps A s₀ s)
    (hA : A.covers State.writeGood_sites) :
    Keeps A s₀ (State.writeGood s o k) := by
  simp [State.writeGood_sites] at hA
  unfold State.writeGood
  repeat' (first
    | (intro x; first
        | (have hx : Keeps A s₀ x := by
             subst x
             repeat' split
             all_goals first | with_reducible assumption | (simp (maxDischargeDepth := 99) +contextual [*]; done) | simp_all (maxDischargeDepth := 99) +contextual
           clear_value x)
        | clear_value x)
    | (split <;> try lift_lets))
  all_goals first | (simp (maxDischargeDepth := 99) +contextual [*]; done) | simp_all (maxDischargeDepth := 99) +contextual

def State.writeBad_sites : List Site := State.noParity_sites ++ State.sectorFailed_sites ++ State.settle_sites

@[simp ↓] theorem State.writeBad_keeps {A : Scope} {s₀ : State} (s : State) (i : Nat) (o : MediaOp) (k : Nat) (hk : Keeps A s₀ s)
    (hA : A.covers State.writeBad_sites) :
    Keeps A s₀ (State.writeBad s i o k) := by
  simp [State.writeBad_sites] at hA
  unfold State.writeBad
  repeat' (first
    | (intro x; first
        | (have hx : Keeps A s₀ x := by
             subst x
             repeat' split
             all_goals first | with_reducible assumption | (simp (maxDischargeDepth := 99) +contextual [*]; done) | simp_all (maxDischargeDepth := 99) +contextual
           clear_value x)
        | clear_value x)
    | (split <;> try lift_lets))
  all_goals first | (simp (maxDischargeDepth := 99) +contextual [*]; done) | simp_all (maxDischargeDepth := 99) +contextual

def State.verifyDecoded_sites : List Site :=
  State.healthTrend_sites ++ State.postResult_sites ++ State.writeBad_sites ++ State.writeGood_sites ++ [.each R.SLC_EVENTS]

@[simp ↓] theorem State.verifyDecoded_keeps {A : Scope} {s₀ : State} (s : State) (i : Nat) (j : SectorJob) (d : DecodeObs) (hk : Keeps A s₀ s)
    (hA : A.covers State.verifyDecoded_sites) :
    Keeps A s₀ (State.verifyDecoded s i j d) := by
  simp [State.verifyDecoded_sites] at hA
  unfold State.verifyDecoded
  repeat' (first
    | (intro x; first
        | (have hx : Keeps A s₀ x := by
             subst x
             repeat' split
             all_goals first | with_reducible assumption | (simp (maxDischargeDepth := 99) +contextual [*]; done) | simp_all (maxDischargeDepth := 99) +contextual
           clear_value x)
        | clear_value x)
    | (split <;> try lift_lets))
  all_goals first | (simp (maxDischargeDepth := 99) +contextual [*]; done) | simp_all (maxDischargeDepth := 99) +contextual

def State.firstFailed_sites : List Site := State.readDecoded_sites ++ [.each R.SLC_DECODE, .part .slices]

@[simp ↓] theorem State.firstFailed_keeps {A : Scope} {s₀ : State} (s : State) (i : Nat) (j : SectorJob) (d : DecodeObs) (hk : Keeps A s₀ s)
    (hA : A.covers State.firstFailed_sites) :
    Keeps A s₀ (State.firstFailed s i j d) := by
  simp [State.firstFailed_sites] at hA
  simp (maxDischargeDepth := 99) [State.firstFailed, hk, hA]

def execInlineDecodeDone_sites : List Site :=
  State.firstFailed_sites ++ State.readDecoded_sites ++ State.verifyDecoded_sites ++ [.part .slices]

theorem execInlineDecodeDone_keeps {A : Scope} (i : Nat) (obs : DecodeObs) (s : State)
    (hA : A.covers execInlineDecodeDone_sites) : KeepsOut A s (execInlineDecodeDone i obs s) := by
  simp [execInlineDecodeDone_sites] at hA
  have hk := Keeps.refl A s
  unfold execInlineDecodeDone
  repeat' (first
    | (intro x; first
        | (have hx : Keeps A s x := by
             subst x
             repeat' split
             all_goals first | with_reducible assumption | (simp (maxDischargeDepth := 99) +contextual [*]; done) | simp_all (maxDischargeDepth := 99) +contextual
           clear_value x)
        | clear_value x)
    | (split <;> try lift_lets))
  all_goals first | (simp (maxDischargeDepth := 99) +contextual [*]; done) | simp_all (maxDischargeDepth := 99) +contextual

def execAutoActionDone_sites : List Site :=
  State.countDrops_sites ++ State.readDecoded_sites ++ [.each R.SLC_DECODE, .each R.SLC_EVENTS, .part .slices]

theorem execAutoActionDone_keeps {A : Scope} (i : Nat) (offset : Int) (obs : DecodeObs) (s : State)
    (hA : A.covers execAutoActionDone_sites) : KeepsOut A s (execAutoActionDone i offset obs s) := by
  simp [execAutoActionDone_sites] at hA
  have hk := Keeps.refl A s
  unfold execAutoActionDone
  repeat' (first
    | with_reducible assumption
    | (intro x; first
        | (refine (?_ : Keeps A s x → _) ?_
           all_goals first | (intro hx; clear_value x) | subst x)
        | (have hx : Keeps A s x.1 := by subst x; first | with_reducible assumption | (simp (maxDischargeDepth := 99) [*]; done) | ((repeat' split) <;> simp (maxDischargeDepth := 99) [*])
           clear_value x
           obtain ⟨_, _⟩ := x))
    | with_reducible refine keepsOut_next.2 ?_
    | with_reducible refine State.count_keeps _ _ ?_ (by first | assumption | simp [*])
    | with_reducible refine State.modSlice_keeps _ _ _ ?_ (by first | assumption | simp [*])
    | with_reducible refine State.readDecoded_keeps _ _ _ _ _ _ _ ?_ (by first | assumption | simp [*])
    | with_reducible refine State.flag_keeps _ _ ?_ (by first | assumption | simp [*])
    | with_reducible refine State.countDrops_keeps _ _ _ ?_ (by first | assumption | simp [*])
    | (split <;> try lift_lets -underBinder))

def State.recoveryGo_sites : List Site :=
  [.each R.SLC_RECOV_CMD, .each R.SLC_RECOV_STATUS, .each R.SLC_STATUS, .part .slices]

@[simp ↓] theorem State.recoveryGo_keeps {A : Scope} {s₀ : State} (s : State) (i : Nat) (op : Nat) (slot : Nat) (span : Nat) (iter : Nat) (hk : Keeps A s₀ s)
    (hA : A.covers State.recoveryGo_sites) :
    Keeps A s₀ (State.recoveryGo s i op slot span iter) := by
  simp [State.recoveryGo_sites] at hA
  simp (maxDischargeDepth := 99) [State.recoveryGo, hk, hA]

def execSlcReDecode_sites : List Site := State.recoveryGo_sites

theorem execSlcReDecode_keeps {A : Scope} (i : Nat) (slot : Nat) (iter : Nat) (s : State)
    (hA : A.covers execSlcReDecode_sites) : KeepsOut A s (execSlcReDecode i slot iter s) := by
  simp [execSlcReDecode_sites] at hA
  simp (maxDischargeDepth := 99) [execSlcReDecode, hA]

def execSlcReframe_sites : List Site := State.recoveryGo_sites

theorem execSlcReframe_keeps {A : Scope} (i : Nat) (slot : Nat) (span : Nat) (iter : Nat) (s : State)
    (hA : A.covers execSlcReframe_sites) : KeepsOut A s (execSlcReframe i slot span iter s) := by
  simp [execSlcReframe_sites] at hA
  simp (maxDischargeDepth := 99) [execSlcReframe, hA]

def execSlcCombine_sites : List Site := State.recoveryGo_sites

theorem execSlcCombine_keeps {A : Scope} (i : Nat) (slot : Nat) (iter : Nat) (s : State)
    (hA : A.covers execSlcCombine_sites) : KeepsOut A s (execSlcCombine i slot iter s) := by
  simp [execSlcCombine_sites] at hA
  simp (maxDischargeDepth := 99) [execSlcCombine, hA]

def execRecoveryRequestDone_sites : List Site :=
  State.countDrops_sites ++ State.postResult_sites ++ State.snagPass_sites ++ [.each R.SLC_EVENTS, .each R.SLC_RECOV_STATUS,
    .each R.SLC_STATUS, .part .slices]

theorem execRecoveryRequestDone_keeps {A : Scope} (i : Nat) (offset : Int) (obs : DecodeObs) (s : State)
    (hA : A.covers execRecoveryRequestDone_sites) : KeepsOut A s (execRecoveryRequestDone i offset obs s) := by
  simp [execRecoveryRequestDone_sites] at hA
  have hk := Keeps.refl A s
  unfold execRecoveryRequestDone
  try lift_lets -underBinder
  repeat' (first
    | (generalize he : State.snagPass _ _ _ _ = p
       fail_if_success clear he p
       have hp : Keeps A s p.2 := by subst he; first | with_reducible assumption | simp (maxDischargeDepth := 99) +contextual [*]
       clear he
       obtain ⟨_, _⟩ := p)
    | (intro x; first
        | (refine (?_ : Keeps A s x → _) ?_
           all_goals first | (intro hx; clear_value x) | subst x)
        | clear_value x)
    | (simp (maxDischargeDepth := 99) [*]; done)
    | (split <;> try lift_lets -underBinder))

def execSlcUnpin_sites : List Site := State.unpin_sites

theorem execSlcUnpin_keeps {A : Scope} (i : Nat) (lo : Nat) (hi : Nat) (s : State)
    (hA : A.covers execSlcUnpin_sites) : KeepsOut A s (execSlcUnpin i lo hi s) := by
  simp [execSlcUnpin_sites] at hA
  simp (maxDischargeDepth := 99) [execSlcUnpin, hA]

def State.readAgain_sites : List Site := State.addOp_sites ++ State.settle_sites

@[simp ↓] theorem State.readAgain_keeps {A : Scope} {s₀ : State} (s : State) (o : MediaOp) (k : Nat) (hk : Keeps A s₀ s)
    (hA : A.covers State.readAgain_sites) :
    Keeps A s₀ (State.readAgain s o k) := by
  simp [State.readAgain_sites] at hA
  simp (maxDischargeDepth := 99) [State.readAgain, hk, hA]

def State.notRead_sites : List Site := State.postResult_sites ++ State.readAgain_sites ++ State.writeBad_sites

@[simp ↓] theorem State.notRead_keeps {A : Scope} {s₀ : State} (s : State) (i : Nat) (j : SectorJob) (hk : Keeps A s₀ s)
    (hA : A.covers State.notRead_sites) :
    Keeps A s₀ (State.notRead s i j) := by
  simp [State.notRead_sites] at hA
  unfold State.notRead
  repeat' (first
    | (intro x; first
        | (have hx : Keeps A s₀ x := by
             subst x
             repeat' split
             all_goals first | with_reducible assumption | (simp (maxDischargeDepth := 99) +contextual [*]; done) | simp_all (maxDischargeDepth := 99) +contextual
           clear_value x)
        | clear_value x)
    | (split <;> try lift_lets))
  all_goals first | (simp (maxDischargeDepth := 99) +contextual [*]; done) | simp_all (maxDischargeDepth := 99) +contextual

def State.verifyLost_sites : List Site := State.postResult_sites ++ State.writeBad_sites

@[simp ↓] theorem State.verifyLost_keeps {A : Scope} {s₀ : State} (s : State) (i : Nat) (a : Nat) (fault : Bool) (hk : Keeps A s₀ s)
    (hA : A.covers State.verifyLost_sites) :
    Keeps A s₀ (State.verifyLost s i a fault) := by
  simp [State.verifyLost_sites] at hA
  unfold State.verifyLost
  repeat' (first
    | with_reducible assumption
    | (intro x; first
        | (refine (?_ : Keeps A s₀ x → _) ?_
           all_goals first | (intro hx; clear_value x) | subst x)
        | (have hx : ∀ b, Keeps A s₀ b → Keeps A s₀ (x b) := by
             intro _ hb; subst x; first | (simp (maxDischargeDepth := 99) [*]; done) | (simp only []; repeat' split) <;> simp (maxDischargeDepth := 99) [*]
           clear_value x))
    | with_reducible refine keeps_foldl (fun u v hu => ?_) _ ?_
    | with_reducible refine State.postResult_keeps _ _ _ ?_ (by first | assumption | simp [*])
    | with_reducible refine State.writeBad_keeps _ _ _ _ ?_ (by first | assumption | simp [*])
    | (split <;> try lift_lets -underBinder))

def State.dropWork_sites : List Site := State.notRead_sites ++ State.pinRegs_sites ++ [.part .slices]

@[simp ↓] theorem State.dropWork_keeps {A : Scope} {s₀ : State} (s : State) (i : Nat) (hk : Keeps A s₀ s)
    (hA : A.covers State.dropWork_sites) :
    Keeps A s₀ (State.dropWork s i) := by
  simp [State.dropWork_sites] at hA
  unfold State.dropWork
  repeat' (first
    | (intro x; clear_value x))
  all_goals first | (simp (maxDischargeDepth := 99) +contextual [*]; done) | simp_all (maxDischargeDepth := 99) +contextual

def State.noSpare_sites : List Site := State.event_sites ++ State.uncovered_sites

@[simp ↓] theorem State.noSpare_keeps {A : Scope} {s₀ : State} (s : State) (i : Nat) (a : Nat) (hk : Keeps A s₀ s)
    (hA : A.covers State.noSpare_sites) :
    Keeps A s₀ (State.noSpare s i a) := by
  simp [State.noSpare_sites] at hA
  simp (maxDischargeDepth := 99) [State.noSpare, hk, hA]

def State.loseSlice_sites : List Site :=
  State.abandonIf_sites ++ State.dropWork_sites ++ State.idleSlice_sites ++ State.noSpare_sites ++ State.verifyLost_sites ++
    [.part .slices]

@[simp ↓] theorem State.loseSlice_keeps {A : Scope} {s₀ : State} (s : State) (i : Nat) (role : Nat) (hk : Keeps A s₀ s)
    (hA : A.covers State.loseSlice_sites) :
    Keeps A s₀ (State.loseSlice s i role) := by
  simp [State.loseSlice_sites] at hA
  simp (maxDischargeDepth := 99) [State.loseSlice, hk, hA]

def State.faultSlice_sites : List Site :=
  State.abandonIf_sites ++ State.endGate_sites ++ State.event_sites ++ State.loseSlice_sites ++ State.wgDropped_sites ++
    [.each R.SLC_EVENTS, .each R.SLC_STATUS, .part .acts, .part .slices, .part .gauge]

@[simp ↓] theorem State.faultSlice_keeps {A : Scope} {s₀ : State} (s : State) (i : Nat) (cause : Nat) (hk : Keeps A s₀ s)
    (hA : A.covers State.faultSlice_sites) :
    Keeps A s₀ (State.faultSlice s i cause) := by
  simp [State.faultSlice_sites] at hA
  simp (maxDischargeDepth := 99) [State.faultSlice, hk, hA]

def execSliceFault_sites : List Site := State.faultSlice_sites

theorem execSliceFault_keeps {A : Scope} (i : Nat) (cause : Nat) (s : State)
    (hA : A.covers execSliceFault_sites) : KeepsOut A s (execSliceFault i cause s) := by
  simp [execSliceFault_sites] at hA
  simp (maxDischargeDepth := 99) [execSliceFault, hA]

def State.recallSpare_sites : List Site := State.abandonCalibration_sites ++ State.sliceReturns_sites

@[simp ↓] theorem State.recallSpare_keeps {A : Scope} {s₀ : State} (s : State) (a : Nat) (hk : Keeps A s₀ s)
    (hA : A.covers State.recallSpare_sites) :
    Keeps A s₀ (State.recallSpare s a) := by
  simp [State.recallSpare_sites] at hA
  simp only [State.recallSpare]
  repeat' split
  all_goals simp_all (maxDischargeDepth := 99) +contextual

def execSliceTakeover_sites : List Site :=
  State.dropWork_sites ++ State.event_sites ++ State.moveWork_sites ++ State.noSpare_sites ++ State.noteFault_sites ++
    State.recallSpare_sites ++ State.resourceHeld_sites ++ State.seatSlice_sites ++ State.verifyLost_sites ++ [.one
    R.DRN_FAILOVER, .part .slices]

theorem execSliceTakeover_keeps {A : Scope} (i : Nat) (s : State)
    (hA : A.covers execSliceTakeover_sites) : KeepsOut A s (execSliceTakeover i s) := by
  simp [execSliceTakeover_sites] at hA
  have hk := Keeps.refl A s
  unfold execSliceTakeover
  try lift_lets
  repeat' (first
    | (intro x; first
        | (have hx : Keeps A s x := by
             subst x
             repeat' split
             all_goals first | with_reducible assumption | (simp (maxDischargeDepth := 99) +contextual [*]; done) | simp_all (maxDischargeDepth := 99) +contextual
           clear_value x)
        | clear_value x)
    | (split <;> try lift_lets))
  all_goals first | (simp (maxDischargeDepth := 99) +contextual [*]; done) | simp_all (maxDischargeDepth := 99) +contextual

def execSlcDisable_sites : List Site :=
  State.abandonIf_sites ++ State.idleSlice_sites ++ [.each R.SLC_CTRL, .each R.SLC_EVENTS, .part .slices, .part .gauge]

theorem execSlcDisable_keeps {A : Scope} (i : Nat) (disable : Bool) (s : State)
    (hA : A.covers execSlcDisable_sites) : KeepsOut A s (execSlcDisable i disable s) := by
  simp [execSlcDisable_sites] at hA
  have hk := Keeps.refl A s
  unfold execSlcDisable
  repeat' (first
    | (intro x; first
        | (have hx : Keeps A s x := by
             subst x
             repeat' split
             all_goals first | with_reducible assumption | (simp (maxDischargeDepth := 99) +contextual [*]; done) | simp_all (maxDischargeDepth := 99) +contextual
           clear_value x)
        | clear_value x)
    | (split <;> try lift_lets))
  all_goals first | (simp (maxDischargeDepth := 99) +contextual [*]; done) | simp_all (maxDischargeDepth := 99) +contextual

def execSliceDisabled_sites : List Site := State.abandonIf_sites ++ State.loseSlice_sites ++ [.each R.SLC_EVENTS]

theorem execSliceDisabled_keeps {A : Scope} (i : Nat) (s : State)
    (hA : A.covers execSliceDisabled_sites) : KeepsOut A s (execSliceDisabled i s) := by
  simp [execSliceDisabled_sites] at hA
  simp (maxDischargeDepth := 99) [execSliceDisabled, hA]

end Sys2Proof.Machine
end

