-- ==== Sys2Proof/Laws/KeepsCrypto.lean ====
section
/-!
SUPPORT. Sys2Proof/Laws/KeepsCrypto.lean: the operations and meanings of Machine/Crypto.lean keep (Laws/Keeps.lean).
-/

set_option linter.all false
set_option Elab.async false

namespace Sys2Proof.Machine

end Sys2Proof.Machine
end

