-- ==== Sys2Proof/Laws/KeepsRecovery.lean ====
section
/-!
SUPPORT. Sys2Proof/Laws/KeepsRecovery.lean: the operations and meanings of Machine/Recovery.lean keep (Laws/Keeps.lean).
-/

set_option linter.all false
set_option Elab.async false

namespace Sys2Proof.Machine

def State.runRegs_sites : List Site := [.one R.DRN_STATUS]

@[simp ↓] theorem State.runRegs_keeps {A : Scope} {s₀ : State} (s : State) (hk : Keeps A s₀ s)
    (hA : A.covers State.runRegs_sites) :
    Keeps A s₀ (State.runRegs s) := by
  simp [State.runRegs_sites] at hA
  simp (maxDischargeDepth := 99) [State.runRegs, hk, hA]

def State.modRun_sites : List Site := [.part .darn]

@[simp ↓] theorem State.modRun_keeps {A : Scope} {s₀ : State} (s : State) (id : Nat) (f : LadderRun → LadderRun) (hk : Keeps A s₀ s)
    (hA : A.covers State.modRun_sites) :
    Keeps A s₀ (State.modRun s id f) := by
  simp [State.modRun_sites] at hA
  simp (maxDischargeDepth := 99) [State.modRun, hk, hA]

def State.ladderRead_sites : List Site := State.addOp_sites

@[simp ↓] theorem State.ladderRead_keeps {A : Scope} {s₀ : State} (s : State) (r : LadderRun) (places : List Nat) (mode : ReadMode) (variant : Nat) (hk : Keeps A s₀ s)
    (hA : A.covers State.ladderRead_sites) :
    Keeps A s₀ (State.ladderRead s r places mode variant) := by
  simp [State.ladderRead_sites] at hA
  simp (maxDischargeDepth := 99) [State.ladderRead, hk, hA]

def State.stepReads_sites : List Site := State.ladderRead_sites

@[simp ↓] theorem State.stepReads_keeps {A : Scope} {s₀ : State} (s : State) (r : LadderRun) (hk : Keeps A s₀ s)
    (hA : A.covers State.stepReads_sites) :
    Keeps A s₀ (State.stepReads s r) := by
  simp [State.stepReads_sites] at hA
  unfold State.stepReads
  repeat' (first
    | (intro x; first
        | (refine (?_ : Keeps A s₀ x → _) ?_
           all_goals first | (intro hx; clear_value x) | subst x)
        | (have hx : ∀ b, Keeps A s₀ b → Keeps A s₀ (x b) := by
             intro _ hb; subst x; first | (simp (maxDischargeDepth := 99) [*]; done) | (simp only []; repeat' split) <;> simp (maxDischargeDepth := 99) [*]
           clear_value x))
    | with_reducible refine keeps_foldl (fun s x hs => ?_) _ ?_
    | (simp (maxDischargeDepth := 99) [*]; done)
    | (split <;> try lift_lets -underBinder))

def State.dropLadderOps_sites : List Site := [.part .flow]

@[simp ↓] theorem State.dropLadderOps_keeps {A : Scope} {s₀ : State} (s : State) (r : LadderRun) (hk : Keeps A s₀ s)
    (hA : A.covers State.dropLadderOps_sites) :
    Keeps A s₀ (State.dropLadderOps s r) := by
  simp [State.dropLadderOps_sites] at hA
  simp (maxDischargeDepth := 99) [State.dropLadderOps, hk, hA]

def State.dropFailed_sites : List Site := [.part .darn]

@[simp ↓] theorem State.dropFailed_keeps {A : Scope} {s₀ : State} (s : State) (f : FailedSector) (hk : Keeps A s₀ s)
    (hA : A.covers State.dropFailed_sites) :
    Keeps A s₀ (State.dropFailed s f) := by
  simp [State.dropFailed_sites] at hA
  simp (maxDischargeDepth := 99) [State.dropFailed, hk, hA]

def execLadderRunStart_sites : List Site :=
  State.darningClaim_sites ++ State.doneWithClaim_sites ++ State.dropFailed_sites ++ State.modRun_sites ++ State.runRegs_sites
    ++ State.stepReads_sites ++ [.part .darn]

theorem execLadderRunStart_keeps {A : Scope} (a : Nat) (s : State)
    (hA : A.covers execLadderRunStart_sites) : KeepsOut A s (execLadderRunStart a s) := by
  simp [execLadderRunStart_sites] at hA
  have hk := Keeps.refl A s
  unfold execLadderRunStart
  repeat' (first
    | (intro x; first
        | (refine (?_ : Keeps A s x → _) ?_
           all_goals first | (intro hx; clear_value x) | subst x)
        | (have hx : Keeps A s x.2 := by subst x; first | with_reducible assumption | (simp (maxDischargeDepth := 99) [*]; done) | ((repeat' split) <;> simp (maxDischargeDepth := 99) [*])
           clear_value x
           obtain ⟨_, _⟩ := x)
        | clear_value x)
    | (split <;> try lift_lets -underBinder))
  all_goals first | (simp (maxDischargeDepth := 99) +contextual [*]; done) | simp_all (maxDischargeDepth := 99) +contextual

def State.endRun_sites : List Site :=
  State.doneWithClaim_sites ++ State.dropLadderOps_sites ++ State.runRegs_sites ++ State.unpin_sites ++ [.part .darn]

@[simp ↓] theorem State.endRun_keeps {A : Scope} {s₀ : State} (s : State) (r : LadderRun) (hk : Keeps A s₀ s)
    (hA : A.covers State.endRun_sites) :
    Keeps A s₀ (State.endRun s r) := by
  simp [State.endRun_sites] at hA
  unfold State.endRun
  repeat' (first
    | (intro x; clear_value x))
  all_goals first | (simp (maxDischargeDepth := 99) +contextual [*]; done) | simp_all (maxDischargeDepth := 99) +contextual

def State.deliver_sites : List Site := State.sectorRead_sites

@[simp ↓] theorem State.deliver_keeps {A : Scope} {s₀ : State} (x : MediaSector) (s : State) (j : Nat × Nat × Bool) (hk : Keeps A s₀ s)
    (hA : A.covers State.deliver_sites) :
    Keeps A s₀ (State.deliver x s j) := by
  simp [State.deliver_sites] at hA
  unfold State.deliver
  repeat' (first
    | (intro x; clear_value x)
    | (split <;> try lift_lets))
  all_goals first | (simp (maxDischargeDepth := 99) +contextual [*]; done) | simp_all (maxDischargeDepth := 99) +contextual

def State.deliverLoss_sites : List Site := State.failSector_sites ++ State.settle_sites

@[simp ↓] theorem State.deliverLoss_keeps {A : Scope} {s₀ : State} (s : State) (j : Nat × Nat × Bool) (hk : Keeps A s₀ s)
    (hA : A.covers State.deliverLoss_sites) :
    Keeps A s₀ (State.deliverLoss s j) := by
  simp [State.deliverLoss_sites] at hA
  unfold State.deliverLoss
  repeat' (first
    | (intro x; first
        | (have hx : Keeps A s₀ x := by
             subst x
             repeat' split
             all_goals first | with_reducible assumption | (simp (maxDischargeDepth := 99) +contextual [*]; done) | simp_all (maxDischargeDepth := 99) +contextual
           clear_value x)
        | clear_value x)
    | (split <;> try lift_lets))
  all_goals first | (simp (maxDischargeDepth := 99) +contextual [*]; done) | simp_all (maxDischargeDepth := 99) +contextual

def State.scrubNext_sites : List Site := [.part .darn]

@[simp ↓] theorem State.scrubNext_keeps {A : Scope} {s₀ : State} (s : State) (d : Nat) (hk : Keeps A s₀ s)
    (hA : A.covers State.scrubNext_sites) :
    Keeps A s₀ (State.scrubNext s d) := by
  simp [State.scrubNext_sites] at hA
  simp (maxDischargeDepth := 99) [State.scrubNext, hk, hA]

def State.runRecovered_sites : List Site :=
  State.deliver_sites ++ State.endRun_sites ++ State.relocateSector_sites ++ [.each R.DRN_STEP, .one R.FMT_PARITY]

@[simp ↓] theorem State.runRecovered_keeps {A : Scope} {s₀ : State} (s : State) (r : LadderRun) (x : MediaSector) (hk : Keeps A s₀ s)
    (hA : A.covers State.runRecovered_sites) :
    Keeps A s₀ (State.runRecovered s r x) := by
  simp [State.runRecovered_sites] at hA
  unfold State.runRecovered
  repeat' (first
    | (intro x; clear_value x))
  all_goals first | (simp (maxDischargeDepth := 99) +contextual [*]; done) | simp_all (maxDischargeDepth := 99) +contextual

def State.runLost_sites : List Site :=
  State.deliverLoss_sites ++ State.endRun_sites ++ State.loseRange_sites ++ [.one R.DRN_EVENTS, .one R.DRN_UNRECOVERED]

@[simp ↓] theorem State.runLost_keeps {A : Scope} {s₀ : State} (s : State) (r : LadderRun) (hk : Keeps A s₀ s)
    (hA : A.covers State.runLost_sites) :
    Keeps A s₀ (State.runLost s r) := by
  simp [State.runLost_sites] at hA
  unfold State.runLost
  repeat' (first
    | (intro x; clear_value x))
  all_goals first | (simp (maxDischargeDepth := 99) +contextual [*]; done) | simp_all (maxDischargeDepth := 99) +contextual

def State.endLimited_sites : List Site :=
  State.deliverLoss_sites ++ State.endRun_sites ++ State.modRun_sites ++ State.scrubNext_sites

@[simp ↓] theorem State.endLimited_keeps {A : Scope} {s₀ : State} (s : State) (r : LadderRun) (hk : Keeps A s₀ s)
    (hA : A.covers State.endLimited_sites) :
    Keeps A s₀ (State.endLimited s r).2.1 := by
  simp [State.endLimited_sites] at hA
  unfold State.endLimited
  repeat' (first
    | (intro x; clear_value x))
  all_goals first | (simp (maxDischargeDepth := 99) +contextual [*]; done) | simp_all (maxDischargeDepth := 99) +contextual

def execLadderStepDone_sites : List Site :=
  State.dropLadderOps_sites ++ State.endLimited_sites ++ State.modRun_sites ++ State.runLost_sites ++ State.runRecovered_sites
    ++ State.stepReads_sites

theorem execLadderStepDone_keeps {A : Scope} (run : Nat) (recovered : Bool) (s : State)
    (hA : A.covers execLadderStepDone_sites) : KeepsOut A s (execLadderStepDone run recovered s) := by
  simp [execLadderStepDone_sites] at hA
  have hk := Keeps.refl A s
  unfold execLadderStepDone
  repeat' (first
    | with_reducible assumption
    | (intro x; first
        | (refine (?_ : Keeps A s x → _) ?_
           all_goals first | (intro hx; clear_value x) | subst x)
        | (have hx : Keeps A s x.2.1 := by subst x; first | with_reducible assumption | (simp (maxDischargeDepth := 99) [*]; done) | ((repeat' split) <;> simp (maxDischargeDepth := 99) [*])
           clear_value x
           obtain ⟨_, _, _⟩ := x)
        | clear_value x)
    | with_reducible refine keepsOut_next.2 ?_
    | with_reducible refine State.dropLadderOps_keeps _ _ ?_ (by first | assumption | simp [*])
    | with_reducible refine State.modRun_keeps _ _ _ ?_ (by first | assumption | simp [*])
    | with_reducible refine State.runLost_keeps _ _ ?_ (by first | assumption | simp [*])
    | with_reducible refine State.runRecovered_keeps _ _ _ ?_ (by first | assumption | simp [*])
    | with_reducible refine State.stepReads_keeps _ _ ?_ (by first | assumption | simp [*])
    | (split <;> try lift_lets -underBinder))

def State.scrubRead_sites : List Site := State.addOp_sites ++ State.darningClaim_sites ++ [.one R.DRN_STATUS]

@[simp ↓] theorem State.scrubRead_keeps {A : Scope} {s₀ : State} (s : State) (a : Nat) (l : List (Nat × Nat)) (parity : List Nat) (hk : Keeps A s₀ s)
    (hA : A.covers State.scrubRead_sites) :
    Keeps A s₀ (State.scrubRead s a l parity) := by
  simp [State.scrubRead_sites] at hA
  unfold State.scrubRead
  try lift_lets
  repeat' (first
    | (intro x; clear_value x)
    | (generalize he : State.darningClaim _ _ _ = p
       have hp : Keeps A s₀ p.2 := by subst he; first | with_reducible assumption | simp (maxDischargeDepth := 99) +contextual [*]
       clear he
       obtain ⟨_, _⟩ := p)
    | (split <;> try lift_lets))
  all_goals first | (simp (maxDischargeDepth := 99) +contextual [*]; done) | simp_all (maxDischargeDepth := 99) +contextual

def State.nextScrubZone_sites : List Site := [.each R.DRN_PASS, .each R.DRN_SCRUB_POS, .one R.DRN_STATUS, .part .darn]

@[simp ↓] theorem State.nextScrubZone_keeps {A : Scope} {s₀ : State} (s : State) (a : Nat) (z : Nat) (hk : Keeps A s₀ s)
    (hA : A.covers State.nextScrubZone_sites) :
    Keeps A s₀ (State.nextScrubZone s a z) := by
  simp [State.nextScrubZone_sites] at hA
  simp (maxDischargeDepth := 99) [State.nextScrubZone, hk, hA]

def State.scrubBehind_sites : List Site := [.one R.DRN_EVENTS, .one R.DRN_STATUS]

@[simp ↓] theorem State.scrubBehind_keeps {A : Scope} {s₀ : State} (s : State) (a : Nat) (hk : Keeps A s₀ s)
    (hA : A.covers State.scrubBehind_sites) :
    Keeps A s₀ (State.scrubBehind s a) := by
  simp [State.scrubBehind_sites] at hA
  simp (maxDischargeDepth := 99) [State.scrubBehind, hk, hA]

def execScrubOperation_sites : List Site :=
  State.nextScrubZone_sites ++ State.scrubBehind_sites ++ State.scrubRead_sites ++ [.part .darn]

theorem execScrubOperation_keeps {A : Scope} (a : Nat) (s : State)
    (hA : A.covers execScrubOperation_sites) : KeepsOut A s (execScrubOperation a s) := by
  simp [execScrubOperation_sites] at hA
  have hk := Keeps.refl A s
  unfold execScrubOperation
  repeat' (first
    | with_reducible assumption
    | (intro x; first
        | (refine (?_ : Keeps A s x → _) ?_
           all_goals first | (intro hx; clear_value x) | subst x)
        | clear_value x)
    | with_reducible refine keepsOut_next.2 ?_
    | with_reducible refine State.nextScrubZone_keeps _ _ _ ?_ (by first | assumption | simp [*])
    | with_reducible refine State.scrubBehind_keeps _ _ ?_ (by first | assumption | simp [*])
    | with_reducible refine State.scrubRead_keeps _ _ _ _ ?_ (by first | assumption | simp [*])
    | with_reducible refine State.modDarn_keeps _ _ ?_ (by first | assumption | simp [*])
    | lift_lets -underBinder
    | (split <;> try lift_lets -underBinder))

def execDrnDuePop_sites : List Site := State.dueRegs_sites ++ [.part .darn]

theorem execDrnDuePop_keeps {A : Scope} (s : State)
    (hA : A.covers execDrnDuePop_sites) : KeepsOut A s (execDrnDuePop s) := by
  simp [execDrnDuePop_sites] at hA
  simp (maxDischargeDepth := 99) [execDrnDuePop, hA]

def State.startRewrite_sites : List Site :=
  State.walker_sites ++ State.zoneNotice_sites ++ [.one R.DRN_REWRITE_STATUS, .part .stitch, .part .darn]

@[simp ↓] theorem State.startRewrite_keeps {A : Scope} {s₀ : State} (s : State) (z : Nat) (hk : Keeps A s₀ s)
    (hA : A.covers State.startRewrite_sites) :
    Keeps A s₀ (State.startRewrite s z) := by
  simp [State.startRewrite_sites] at hA
  simp (maxDischargeDepth := 99) [State.startRewrite, hk, hA]

def execDrnRewriteGo_sites : List Site :=
  State.startRewrite_sites ++ [.one R.DRN_REWRITE, .one R.DRN_REWRITE_STATUS, .part .darn]

theorem execDrnRewriteGo_keeps {A : Scope} (z : Nat) (s : State)
    (hA : A.covers execDrnRewriteGo_sites) : KeepsOut A s (execDrnRewriteGo z s) := by
  simp [execDrnRewriteGo_sites] at hA
  simp (maxDischargeDepth := 99) [execDrnRewriteGo, hA]

def State.reacceptWrite_sites : List Site :=
  State.addWrites_sites ++ State.modSlot_sites ++ State.setZdesc_sites ++ [.part .flow, .part .cip]

@[simp ↓] theorem State.reacceptWrite_keeps {A : Scope} {s₀ : State} (s : State) (z : Nat) (n : Nat) (hk : Keeps A s₀ s)
    (hA : A.covers State.reacceptWrite_sites) :
    Keeps A s₀ (State.reacceptWrite s z n) := by
  simp [State.reacceptWrite_sites] at hA
  unfold State.reacceptWrite
  repeat' (first
    | (intro x; first
        | (have hx : Keeps A s₀ x := by
             subst x
             repeat' split
             all_goals first | with_reducible assumption | (simp (maxDischargeDepth := 99) +contextual [*]; done) | simp_all (maxDischargeDepth := 99) +contextual
           clear_value x)
        | clear_value x)
    | (split <;> try lift_lets))
  all_goals first | (simp (maxDischargeDepth := 99) +contextual [*]; done) | simp_all (maxDischargeDepth := 99) +contextual

def State.reaccept_sites : List Site := State.reacceptWrite_sites ++ [.part .flow]

@[simp ↓] theorem State.reaccept_keeps {A : Scope} {s₀ : State} (s : State) (z : Nat) (hk : Keeps A s₀ s)
    (hA : A.covers State.reaccept_sites) :
    Keeps A s₀ (State.reaccept s z) := by
  simp [State.reaccept_sites] at hA
  unfold State.reaccept
  repeat' (first
    | (intro x; clear_value x))
  all_goals first | (simp (maxDischargeDepth := 99) +contextual [*]; done) | simp_all (maxDischargeDepth := 99) +contextual

def State.endRewrite_sites : List Site :=
  State.reaccept_sites ++ State.startRewrite_sites ++ [.one R.DRN_REWRITE_STATUS, .part .stitch, .part .darn]

@[simp ↓] theorem State.endRewrite_keeps {A : Scope} {s₀ : State} (s : State) (z : Nat) (hk : Keeps A s₀ s)
    (hA : A.covers State.endRewrite_sites) :
    Keeps A s₀ (State.endRewrite s z) := by
  simp [State.endRewrite_sites] at hA
  unfold State.endRewrite
  try lift_lets
  repeat' (first
    | (intro x; first
        | (have hx : Keeps A s₀ x := by
             subst x
             repeat' split
             all_goals first | with_reducible assumption | (simp (maxDischargeDepth := 99) +contextual [*]; done) | simp_all (maxDischargeDepth := 99) +contextual
           clear_value x)
        | clear_value x)
    | (split <;> try lift_lets))
  all_goals first | (simp (maxDischargeDepth := 99) +contextual [*]; done) | simp_all (maxDischargeDepth := 99) +contextual

def State.abandonRewrite_sites : List Site := State.endRewrite_sites

@[simp ↓] theorem State.abandonRewrite_keeps {A : Scope} {s₀ : State} (s : State) (z : Nat) (hk : Keeps A s₀ s)
    (hA : A.covers State.abandonRewrite_sites) :
    Keeps A s₀ (State.abandonRewrite s z) := by
  simp [State.abandonRewrite_sites] at hA
  unfold State.abandonRewrite
  repeat' (first
    | (intro x; clear_value x)
    | (split <;> try lift_lets))
  all_goals first | (simp (maxDischargeDepth := 99) +contextual [*]; done) | simp_all (maxDischargeDepth := 99) +contextual

def State.requireRewrite_sites : List Site := State.startRewrite_sites ++ [.part .darn]

@[simp ↓] theorem State.requireRewrite_keeps {A : Scope} {s₀ : State} (s : State) (z : Nat) (hk : Keeps A s₀ s)
    (hA : A.covers State.requireRewrite_sites) :
    Keeps A s₀ (State.requireRewrite s z) := by
  simp [State.requireRewrite_sites] at hA
  simp (maxDischargeDepth := 99) [State.requireRewrite, hk, hA]

def State.retryRequired_sites : List Site := State.startRewrite_sites ++ [.part .darn]

@[simp ↓] theorem State.retryRequired_keeps {A : Scope} {s₀ : State} (s : State) (hk : Keeps A s₀ s)
    (hA : A.covers State.retryRequired_sites) :
    Keeps A s₀ (State.retryRequired s) := by
  simp [State.retryRequired_sites] at hA
  simp only [State.retryRequired]
  repeat' split
  all_goals simp_all (maxDischargeDepth := 99) +contextual

def execWriteHoldRelease_sites : List Site := State.leaveWriteHold_sites ++ State.retryRequired_sites

theorem execWriteHoldRelease_keeps {A : Scope} (s : State)
    (hA : A.covers execWriteHoldRelease_sites) : KeepsOut A s (execWriteHoldRelease s) := by
  simp [execWriteHoldRelease_sites] at hA
  simp (maxDischargeDepth := 99) [execWriteHoldRelease, hA]

def State.carryHome_sites : List Site := State.loseRange_sites ++ State.walker_sites ++ State.writeMedia_sites

@[simp ↓] theorem State.carryHome_keeps {A : Scope} {s₀ : State} (sh : ZoneShape) (z : Nat) (old : Nat) (gen : Nat) (before : List (Nat × MediaSector)) (s : State) (i : Nat) (hk : Keeps A s₀ s)
    (hA : A.covers State.carryHome_sites) :
    Keeps A s₀ (State.carryHome sh z old gen before s i) := by
  simp [State.carryHome_sites] at hA
  unfold State.carryHome
  repeat' (first
    | with_reducible assumption
    | (intro x; first
        | (refine (?_ : Keeps A s₀ x → _) ?_
           all_goals first | (intro hx; clear_value x) | subst x)
        | (have hx : ∀ b, Keeps A s₀ b → Keeps A s₀ (x b) := by
             intro _ hb; subst x; first | (simp (maxDischargeDepth := 99) [*]; done) | (simp only []; repeat' split) <;> simp (maxDischargeDepth := 99) [*]
           clear_value x))
    | with_reducible refine keeps_ite ?_ ?_
    | with_reducible refine State.writeMedia_keeps _ _ _ ?_ (by first | assumption | simp [*])
    | with_reducible refine State.loseRange_keeps _ _ _ _ _ _ ?_ (by first | assumption | simp [*])
    | with_reducible refine State.walker_keeps _ _ ?_ (by first | assumption | simp [*])
    | (split <;> try lift_lets -underBinder))

def State.rewriteParity_sites : List Site := State.writeMedia_sites

@[simp ↓] theorem State.rewriteParity_keeps {A : Scope} {s₀ : State} (sh : ZoneShape) (s : State) (g : Nat) (hk : Keeps A s₀ s)
    (hA : A.covers State.rewriteParity_sites) :
    Keeps A s₀ (State.rewriteParity sh s g) := by
  simp [State.rewriteParity_sites] at hA
  simp (maxDischargeDepth := 99) [State.rewriteParity, hk, hA]

def execRewriteDone_sites : List Site :=
  State.carryHome_sites ++ State.endRewrite_sites ++ State.rewriteParity_sites ++ State.walker_sites ++ State.zoneNotice_sites
    ++ [.one R.DRN_EVENTS, .one R.DRN_REWRITE_STATUS]

theorem execRewriteDone_keeps {A : Scope} (s : State)
    (hA : A.covers execRewriteDone_sites) : KeepsOut A s (execRewriteDone s) := by
  simp [execRewriteDone_sites] at hA
  have hk := Keeps.refl A s
  unfold execRewriteDone
  repeat' (first
    | (intro x; first
        | (have hx : Keeps A s x := by
             subst x
             repeat' split
             all_goals first | with_reducible assumption | (simp (maxDischargeDepth := 99) +contextual [*]; done) | simp_all (maxDischargeDepth := 99) +contextual
           clear_value x)
        | clear_value x)
    | (split <;> try lift_lets))
  all_goals first | (simp (maxDischargeDepth := 99) +contextual [*]; done) | simp_all (maxDischargeDepth := 99) +contextual

def execCacheZoneClean_sites : List Site :=
  State.moveSector_sites ++ State.retryRequired_sites ++ State.walker_sites ++ [.part .stitch]

theorem execCacheZoneClean_keeps {A : Scope} (a : Nat) (s : State)
    (hA : A.covers execCacheZoneClean_sites) : KeepsOut A s (execCacheZoneClean a s) := by
  simp [execCacheZoneClean_sites] at hA
  have hk := Keeps.refl A s
  unfold execCacheZoneClean
  repeat' (first
    | (intro x; first
        | (have hx : Keeps A s x := by
             subst x
             repeat' split
             all_goals first | with_reducible assumption | (simp (maxDischargeDepth := 99) +contextual [*]; done) | simp_all (maxDischargeDepth := 99) +contextual
           clear_value x)
        | clear_value x)
    | (split <;> try lift_lets))
  all_goals first | (simp (maxDischargeDepth := 99) +contextual [*]; done) | simp_all (maxDischargeDepth := 99) +contextual

def State.saveCapacity_sites : List Site :=
  State.postVendor_sites ++ State.smartSet_sites ++ [.one R.ORD_DUR_STATUS, .one R.ORD_OVL_EVENTS]

@[simp ↓] theorem State.saveCapacity_keeps {A : Scope} {s₀ : State} (s : State) (hk : Keeps A s₀ s)
    (hA : A.covers State.saveCapacity_sites) :
    Keeps A s₀ (State.saveCapacity s) := by
  simp [State.saveCapacity_sites] at hA
  simp (maxDischargeDepth := 99) [State.saveCapacity, hk, hA]

def State.loseFirmwareSlot_sites : List Site := State.putRecord_sites ++ [.part .upd]

@[simp ↓] theorem State.loseFirmwareSlot_keeps {A : Scope} {s₀ : State} (s : State) (component : Nat) (slot : Nat) (hk : Keeps A s₀ s)
    (hA : A.covers State.loseFirmwareSlot_sites) :
    Keeps A s₀ (State.loseFirmwareSlot s component slot) := by
  simp [State.loseFirmwareSlot_sites] at hA
  simp (maxDischargeDepth := 99) [State.loseFirmwareSlot, hk, hA]

def State.losePiece_sites : List Site := [.one R.UPD_PIECES, .one R.UPD_STATUS, .part .upd]

@[simp ↓] theorem State.losePiece_keeps {A : Scope} {s₀ : State} (s : State) (piece : Nat) (hk : Keeps A s₀ s)
    (hA : A.covers State.losePiece_sites) :
    Keeps A s₀ (State.losePiece s piece) := by
  simp [State.losePiece_sites] at hA
  simp (maxDischargeDepth := 99) [State.losePiece, hk, hA]

def execLifelineBlockFail_sites : List Site :=
  State.loseFirmwareSlot_sites ++ State.losePiece_sites ++ State.postAsync_sites ++ State.postVendor_sites ++
    State.saveCapacity_sites ++ [.part .host, .part .darn, .part .recorder]

theorem execLifelineBlockFail_keeps {A : Scope} (part : LifelinePart) (s : State)
    (hA : A.covers execLifelineBlockFail_sites) : KeepsOut A s (execLifelineBlockFail part s) := by
  simp [execLifelineBlockFail_sites] at hA
  have hk := Keeps.refl A s
  unfold execLifelineBlockFail
  repeat' (first
    | (intro x; first
        | (have hx : Keeps A s x := by
             subst x
             repeat' split
             all_goals first | with_reducible assumption | (simp (maxDischargeDepth := 99) +contextual [*]; done) | simp_all (maxDischargeDepth := 99) +contextual
           clear_value x)
        | clear_value x)
    | (split <;> try lift_lets))
  all_goals first | (simp (maxDischargeDepth := 99) +contextual [*]; done) | simp_all (maxDischargeDepth := 99) +contextual

end Sys2Proof.Machine
end

