-- ==== Sys2Proof/Laws/KeepsFetch.lean ====
section
/-!
SUPPORT. Sys2Proof/Laws/KeepsFetch.lean: the operations and meanings of Machine/Fetch.lean keep (Laws/Keeps.lean).
-/

set_option linter.all false
set_option Elab.async false

namespace Sys2Proof.Machine

def execDoorbellWrite_sites : List Site := State.modRing_sites ++ State.tlpPass_sites

theorem execDoorbellWrite_keeps {A : Scope} (c : Nat) (q : Nat) (head : Bool) (value : Nat) (entries : List Sqe) (s : State)
    (hA : A.covers execDoorbellWrite_sites) : KeepsOut A s (execDoorbellWrite c q head value entries s) := by
  simp [execDoorbellWrite_sites] at hA
  have hk := Keeps.refl A s
  unfold execDoorbellWrite
  repeat' (first
    | (intro x; first
        | (have hx : Keeps A s x := by
             subst x
             repeat' split
             all_goals first | with_reducible assumption | (simp (maxDischargeDepth := 99) +contextual [*]; done) | simp_all (maxDischargeDepth := 99) +contextual
           clear_value x)
        | clear_value x)
    | (split <;> try lift_lets))
  all_goals first | (simp (maxDischargeDepth := 99) +contextual [*]; done) | simp_all (maxDischargeDepth := 99) +contextual

def State.fetchFrom_sites : List Site :=
  State.modRing_sites ++ State.transfer_sites ++ [.one R.ORD_OVL_EPOCH_HI, .one R.ORD_OVL_EPOCH_LO, .part .flow]

@[simp ↓] theorem State.fetchFrom_keeps {A : Scope} {s₀ : State} (s : State) (c : Nat) (r : Nat) (hk : Keeps A s₀ s)
    (hA : A.covers State.fetchFrom_sites) :
    KeepsOpt A (fun t => t) s₀ (State.fetchFrom s c r) := by
  simp [State.fetchFrom_sites] at hA
  unfold State.fetchFrom
  repeat' (first
    | (intro x; first
        | (have hx : Keeps A s₀ x := by
             subst x
             repeat' split
             all_goals first | with_reducible assumption | (simp (maxDischargeDepth := 99) +contextual [*]; done) | simp_all (maxDischargeDepth := 99) +contextual
           clear_value x)
        | clear_value x)
    | (split <;> try lift_lets))
  all_goals first | (simp (maxDischargeDepth := 99) +contextual [*]; done) | simp_all (maxDischargeDepth := 99) +contextual

def State.pickRing_sites : List Site := State.modController_sites

@[simp ↓] theorem State.pickRing_keeps {A : Scope} {s₀ : State} (s : State) (c : Nat) (hk : Keeps A s₀ s)
    (hA : A.covers State.pickRing_sites) :
    KeepsOpt A (fun t => t.2) s₀ (State.pickRing s c) := by
  simp [State.pickRing_sites] at hA
  unfold State.pickRing
  split
  · simp
  · refine keepsOpt_ite (keepsOpt_some hk) ?_
    split
    · exact keepsOpt_some (State.modController_keeps _ _ _ hk (by first | assumption | simp [*]))
    · dsimp only
      split
      · simp
      · exact keepsOpt_map fun t ht => by
          exact State.modController_keeps _ _ _ hk (by first | assumption | simp [*])

def State.turn_sites : List Site := State.fetchFrom_sites ++ State.pickRing_sites

@[simp ↓] theorem State.turn_keeps {A : Scope} {s₀ : State} (c n : Nat) (s : State) (hk : Keeps A s₀ s)
    (hA : A.covers State.turn_sites) : Keeps A s₀ (State.turn c n s) := by
  simp [State.turn_sites] at hA
  induction n generalizing s with
  | zero => exact hk
  | succ n ih =>
    rw [State.turn]
    split
    · exact hk
    · next r s' h =>
      split
      · next s'' h' => exact ih _ (State.fetchFrom_keeps _ _ _ (State.pickRing_keeps s c hk hA.2 _ h) hA.1 _ h')
      · exact hk

def State.setRr_sites : List Site := [.part .host]

@[simp ↓] theorem State.setRr_keeps {A : Scope} {s₀ : State} (s : State) (k : Nat) (c : Nat) (hk : Keeps A s₀ s)
    (hA : A.covers State.setRr_sites) :
    Keeps A s₀ (State.setRr s k c) := by
  simp [State.setRr_sites] at hA
  simp (maxDischargeDepth := 99) [State.setRr, hk, hA]

def State.urgentOne_sites : List Site := State.fetchFrom_sites ++ State.modController_sites ++ State.setRr_sites

@[simp ↓] theorem State.urgentOne_keeps {A : Scope} {s₀ : State} (s : State) (p : Nat) (c : Nat) (hk : Keeps A s₀ s)
    (hA : A.covers State.urgentOne_sites) :
    Keeps A s₀ (State.urgentOne s p c) := by
  simp [State.urgentOne_sites] at hA
  unfold State.urgentOne
  try lift_lets
  repeat' (first
    | (intro x; clear_value x)
    | (generalize he : State.fetchFrom _ _ _ = p
       have hp : KeepsOpt A (fun t => t) s₀ p := by
         subst he; exact State.fetchFrom_keeps _ _ _ (by first | with_reducible assumption | simp (maxDischargeDepth := 99) +contextual [*]) (by first | assumption | simp [*])
       clear he
       rcases p with _ | p
       rotate_left 1
       replace hp : Keeps A s₀ p := hp p rfl)
    | (split <;> try lift_lets))
  all_goals first | (simp (maxDischargeDepth := 99) +contextual [*]; done) | simp_all (maxDischargeDepth := 99) +contextual

def execFetchRound_sites : List Site :=
  State.pickRing_sites ++ State.setRr_sites ++ State.turn_sites ++ State.urgentOne_sites

theorem execFetchRound_keeps {A : Scope} (p : Nat) (s : State)
    (hA : A.covers execFetchRound_sites) : KeepsOut A s (execFetchRound p s) := by
  simp [execFetchRound_sites] at hA
  have hk := Keeps.refl A s
  unfold execFetchRound
  repeat' (first
    | (intro x; first
        | (have hx : Keeps A s x := by
             subst x
             repeat' split
             all_goals first | with_reducible assumption | (simp (maxDischargeDepth := 99) +contextual [*]; done) | simp_all (maxDischargeDepth := 99) +contextual
           clear_value x)
        | clear_value x)
    | (split <;> try lift_lets))
  all_goals first | (simp (maxDischargeDepth := 99) +contextual [*]; done) | simp_all (maxDischargeDepth := 99) +contextual

end Sys2Proof.Machine
end

