-- ==== Sys2Proof/Laws/KeepsWrites.lean ====
section
/-!
SUPPORT. Sys2Proof/Laws/KeepsWrites.lean: the operations and meanings of Machine/Writes.lean keep (Laws/Keeps.lean).
-/

set_option linter.all false
set_option Elab.async false

namespace Sys2Proof.Machine

def State.holdCommand_sites : List Site := State.modSlot_sites

@[simp ↓] theorem State.holdCommand_keeps {A : Scope} {s₀ : State} (s : State) (n : Nat) (hk : Keeps A s₀ s)
    (hA : A.covers State.holdCommand_sites) :
    Keeps A s₀ (State.holdCommand s n) := by
  simp [State.holdCommand_sites] at hA
  simp (maxDischargeDepth := 99) [State.holdCommand, hk, hA]

def State.failCommand_sites : List Site := State.completeSlot_sites ++ State.logError_sites

@[simp ↓] theorem State.failCommand_keeps {A : Scope} {s₀ : State} (s : State) (x : Slot) (status : Nat) (hk : Keeps A s₀ s)
    (hA : A.covers State.failCommand_sites) :
    Keeps A s₀ (State.failCommand s x status) := by
  simp [State.failCommand_sites] at hA
  simp (maxDischargeDepth := 99) [State.failCommand, hk, hA]

def State.putZoneState_sites : List Site := State.walker_sites ++ [.part .flow]

@[simp ↓] theorem State.putZoneState_keeps {A : Scope} {s₀ : State} (s : State) (z : Nat) (st : ZoneState) (hk : Keeps A s₀ s)
    (hA : A.covers State.putZoneState_sites) :
    Keeps A s₀ (State.putZoneState s z st) := by
  simp [State.putZoneState_sites] at hA
  simp (maxDischargeDepth := 99) [State.putZoneState, hk, hA]

def State.closeZone_sites : List Site := State.putZoneState_sites

@[simp ↓] theorem State.closeZone_keeps {A : Scope} {s₀ : State} (s : State) (z : Nat) (hk : Keeps A s₀ s)
    (hA : A.covers State.closeZone_sites) :
    Keeps A s₀ (State.closeZone s z) := by
  simp [State.closeZone_sites] at hA
  simp (maxDischargeDepth := 99) [State.closeZone, hk, hA]

def State.makeOpenRoom_sites : List Site := State.closeZone_sites

@[simp ↓] theorem State.makeOpenRoom_keeps {A : Scope} {s₀ : State} (s : State) (n : NamespaceEntry) (z : Nat) (mayClose : Bool) (hk : Keeps A s₀ s)
    (hA : A.covers State.makeOpenRoom_sites) :
    Keeps A s₀ (State.makeOpenRoom s n z mayClose).2 := by
  simp [State.makeOpenRoom_sites] at hA
  unfold State.makeOpenRoom
  repeat' (first
    | (split <;> try lift_lets))
  all_goals first | (simp (maxDischargeDepth := 99) +contextual [*]; done) | simp_all (maxDischargeDepth := 99) +contextual

def State.openForWrite_sites : List Site := State.putZoneState_sites ++ [.part .flow]

@[simp ↓] theorem State.openForWrite_keeps {A : Scope} {s₀ : State} (s : State) (z : Nat) (hk : Keeps A s₀ s)
    (hA : A.covers State.openForWrite_sites) :
    Keeps A s₀ (State.openForWrite s z) := by
  simp [State.openForWrite_sites] at hA
  simp (maxDischargeDepth := 99) [State.openForWrite, hk, hA]

def State.countWrite_sites : List Site := State.setZdesc_sites

@[simp ↓] theorem State.countWrite_keeps {A : Scope} {s₀ : State} (s : State) (z : Nat) (hk : Keeps A s₀ s)
    (hA : A.covers State.countWrite_sites) :
    Keeps A s₀ (State.countWrite s z) := by
  simp [State.countWrite_sites] at hA
  simp (maxDischargeDepth := 99) [State.countWrite, hk, hA]

def State.acceptSlot_sites : List Site := State.countWrite_sites ++ State.modSlot_sites

@[simp ↓] theorem State.acceptSlot_keeps {A : Scope} {s₀ : State} (s : State) (x : Slot) (sectors : Bool) (hk : Keeps A s₀ s)
    (hA : A.covers State.acceptSlot_sites) :
    Keeps A s₀ (State.acceptSlot s x sectors) := by
  simp [State.acceptSlot_sites] at hA
  unfold State.acceptSlot
  repeat' (first
    | (intro x; clear_value x))
  all_goals first | (simp (maxDischargeDepth := 99) +contextual [*]; done) | simp_all (maxDischargeDepth := 99) +contextual

def State.supersede_sites : List Site := State.claimRegs_sites ++ [.part .flow]

@[simp ↓] theorem State.supersede_keeps {A : Scope} {s₀ : State} (s : State) (d : Nat) (n : Nat) (hk : Keeps A s₀ s)
    (hA : A.covers State.supersede_sites) :
    Keeps A s₀ (State.supersede s d n) := by
  simp [State.supersede_sites] at hA
  simp (maxDischargeDepth := 99) [State.supersede, hk, hA]

def State.showErase_sites : List Site := State.madeReadable_sites ++ State.modSlot_sites ++ State.supersede_sites

@[simp ↓] theorem State.showErase_keeps {A : Scope} {s₀ : State} (s : State) (n : Nat) (hk : Keeps A s₀ s)
    (hA : A.covers State.showErase_sites) :
    Keeps A s₀ (State.showErase s n) := by
  simp [State.showErase_sites] at hA
  unfold State.showErase
  repeat' (first
    | (intro x; first
        | (have hx : Keeps A s₀ x := by
             subst x
             repeat' split
             all_goals first | with_reducible assumption | (simp (maxDischargeDepth := 99) +contextual [*]; done) | simp_all (maxDischargeDepth := 99) +contextual
           clear_value x)
        | clear_value x)
    | (split <;> try lift_lets))
  all_goals first | (simp (maxDischargeDepth := 99) +contextual [*]; done) | simp_all (maxDischargeDepth := 99) +contextual

def State.acceptErase_sites : List Site := State.acceptSlot_sites ++ State.requireRewrite_sites ++ State.showErase_sites

@[simp ↓] theorem State.acceptErase_keeps {A : Scope} {s₀ : State} (s : State) (x : Slot) (hk : Keeps A s₀ s)
    (hA : A.covers State.acceptErase_sites) :
    Keeps A s₀ (State.acceptErase s x) := by
  simp [State.acceptErase_sites] at hA
  unfold State.acceptErase
  repeat' (first
    | (intro x; first
        | (have hx : Keeps A s₀ x := by
             subst x
             repeat' split
             all_goals first | with_reducible assumption | (simp (maxDischargeDepth := 99) +contextual [*]; done) | simp_all (maxDischargeDepth := 99) +contextual
           clear_value x)
        | clear_value x)
    | (split <;> try lift_lets))
  all_goals first | (simp (maxDischargeDepth := 99) +contextual [*]; done) | simp_all (maxDischargeDepth := 99) +contextual

def State.acceptWrite_sites : List Site :=
  State.acceptSlot_sites ++ State.failCommand_sites ++ State.makeOpenRoom_sites ++ State.openForWrite_sites ++
    State.requireRewrite_sites ++ State.setAccept_sites

@[simp ↓] theorem State.acceptWrite_keeps {A : Scope} {s₀ : State} (s : State) (x : Slot) (hk : Keeps A s₀ s)
    (hA : A.covers State.acceptWrite_sites) :
    Keeps A s₀ (State.acceptWrite s x) := by
  simp [State.acceptWrite_sites] at hA
  unfold State.acceptWrite
  repeat' (first
    | with_reducible assumption
    | (intro x; first
        | (have hx : Keeps A s₀ x.2 := by subst x; first | with_reducible assumption | (simp (maxDischargeDepth := 99) [*]; done) | ((repeat' split) <;> simp (maxDischargeDepth := 99) [*])
           clear_value x
           obtain ⟨_, _⟩ := x)
        | clear_value x)
    | with_reducible refine State.requireRewrite_keeps _ _ ?_ (by first | assumption | simp [*])
    | with_reducible refine State.acceptSlot_keeps _ _ _ ?_ (by first | assumption | simp [*])
    | with_reducible refine State.setAccept_keeps _ _ _ _ ?_ (by first | assumption | simp [*])
    | with_reducible refine State.openForWrite_keeps _ _ ?_ (by first | assumption | simp [*])
    | with_reducible refine State.failCommand_keeps _ _ _ ?_ (by first | assumption | simp [*])
    | (split <;> try lift_lets -underBinder))

def execWrite_sites : List Site := State.acceptWrite_sites ++ State.failCommand_sites

theorem execWrite_keeps {A : Scope} (n : Nat) (s : State)
    (hA : A.covers execWrite_sites) : KeepsOut A s (execWrite n s) := by
  simp [execWrite_sites] at hA
  have hk := Keeps.refl A s
  unfold execWrite
  repeat' (first
    | (split <;> try lift_lets))
  all_goals first | (simp (maxDischargeDepth := 99) +contextual [*]; done) | simp_all (maxDischargeDepth := 99) +contextual

def execWriteZeroes_sites : List Site := State.acceptErase_sites ++ State.acceptWrite_sites ++ State.failCommand_sites

theorem execWriteZeroes_keeps {A : Scope} (n : Nat) (s : State)
    (hA : A.covers execWriteZeroes_sites) : KeepsOut A s (execWriteZeroes n s) := by
  simp [execWriteZeroes_sites] at hA
  have hk := Keeps.refl A s
  unfold execWriteZeroes
  repeat' (first
    | (split <;> try lift_lets))
  all_goals first | (simp (maxDischargeDepth := 99) +contextual [*]; done) | simp_all (maxDischargeDepth := 99) +contextual

def execWriteUncorrectable_sites : List Site := State.acceptErase_sites ++ State.failCommand_sites

theorem execWriteUncorrectable_keeps {A : Scope} (n : Nat) (s : State)
    (hA : A.covers execWriteUncorrectable_sites) : KeepsOut A s (execWriteUncorrectable n s) := by
  simp [execWriteUncorrectable_sites] at hA
  have hk := Keeps.refl A s
  unfold execWriteUncorrectable
  repeat' (first
    | (split <;> try lift_lets))
  all_goals first | (simp (maxDischargeDepth := 99) +contextual [*]; done) | simp_all (maxDischargeDepth := 99) +contextual

def execDatasetManagement_sites : List Site :=
  State.acceptErase_sites ++ State.completeSlot_sites ++ State.failCommand_sites ++ State.modSlot_sites

theorem execDatasetManagement_keeps {A : Scope} (n : Nat) (ranges : List (Nat × Nat)) (s : State)
    (hA : A.covers execDatasetManagement_sites) : KeepsOut A s (execDatasetManagement n ranges s) := by
  simp [execDatasetManagement_sites] at hA
  have hk := Keeps.refl A s
  unfold execDatasetManagement
  repeat' (first
    | (split <;> try lift_lets))
  all_goals first | (simp (maxDischargeDepth := 99) +contextual [*]; done) | simp_all (maxDischargeDepth := 99) +contextual

def execZoneAppend_sites : List Site :=
  State.acceptSlot_sites ++ State.failCommand_sites ++ State.makeOpenRoom_sites ++ State.openForWrite_sites ++
    State.requireRewrite_sites ++ State.setAccept_sites

theorem execZoneAppend_keeps {A : Scope} (n : Nat) (s : State)
    (hA : A.covers execZoneAppend_sites) : KeepsOut A s (execZoneAppend n s) := by
  simp [execZoneAppend_sites] at hA
  have hk := Keeps.refl A s
  unfold execZoneAppend
  repeat' (first
    | with_reducible assumption
    | (intro x; first
        | (have hx : Keeps A s x.2 := by subst x; first | with_reducible assumption | (simp (maxDischargeDepth := 99) [*]; done) | ((repeat' split) <;> simp (maxDischargeDepth := 99) [*])
           clear_value x
           obtain ⟨_, _⟩ := x)
        | clear_value x)
    | with_reducible refine keepsOut_next.2 ?_
    | with_reducible refine State.requireRewrite_keeps _ _ ?_ (by first | assumption | simp [*])
    | with_reducible refine State.acceptSlot_keeps _ _ _ ?_ (by first | assumption | simp [*])
    | with_reducible refine State.setAccept_keeps _ _ _ _ ?_ (by first | assumption | simp [*])
    | with_reducible refine State.openForWrite_keeps _ _ ?_ (by first | assumption | simp [*])
    | with_reducible refine State.failCommand_keeps _ _ _ ?_ (by first | assumption | simp [*])
    | (split <;> try lift_lets -underBinder))

def execWriteAdmit_sites : List Site :=
  State.modSlot_sites ++ State.reclaim_sites ++ State.showErase_sites ++ State.transfer_sites

theorem execWriteAdmit_keeps {A : Scope} (s : State)
    (hA : A.covers execWriteAdmit_sites) : KeepsOut A s (execWriteAdmit s) := by
  simp [execWriteAdmit_sites] at hA
  have hk := Keeps.refl A s
  unfold execWriteAdmit
  repeat' (first
    | (split <;> try lift_lets))
  all_goals first | (simp (maxDischargeDepth := 99) +contextual [*]; done) | simp_all (maxDischargeDepth := 99) +contextual

def State.placeAppend_sites : List Site := State.modSlot_sites ++ State.setAccept_sites

@[simp ↓] theorem State.placeAppend_keeps {A : Scope} {s₀ : State} (s : State) (n : Nat) (hk : Keeps A s₀ s)
    (hA : A.covers State.placeAppend_sites) :
    Keeps A s₀ (State.placeAppend s n) := by
  simp [State.placeAppend_sites] at hA
  unfold State.placeAppend
  repeat' (first
    | (split <;> try lift_lets))
  all_goals first | (simp (maxDischargeDepth := 99) +contextual [*]; done) | simp_all (maxDischargeDepth := 99) +contextual

def State.show_sites : List Site :=
  State.addWrites_sites ++ State.madeReadable_sites ++ State.modSlot_sites ++ State.placeAppend_sites ++
    State.postCompletion_sites ++ State.reclaim_sites ++ State.supersede_sites ++ State.transferSet_sites ++ [.one
    R.SCH_SLOT_DIRTY]

@[simp ↓] theorem State.show_keeps {A : Scope} {s₀ : State} (s : State) (n : Nat) (hk : Keeps A s₀ s)
    (hA : A.covers State.show_sites) :
    Keeps A s₀ (State.show s n) := by
  simp [State.show_sites] at hA
  unfold State.show
  try lift_lets
  repeat' (first
    | (intro x; first
        | (have hx : Keeps A s₀ x := by
             subst x
             repeat' split
             all_goals first | with_reducible assumption | (simp (maxDischargeDepth := 99) +contextual [*]; done) | simp_all (maxDischargeDepth := 99) +contextual
           clear_value x)
        | clear_value x)
    | (split <;> try lift_lets))
  all_goals first | (simp (maxDischargeDepth := 99) +contextual [*]; done) | simp_all (maxDischargeDepth := 99) +contextual

def State.showArrived_sites : List Site := State.show_sites

@[simp ↓] theorem State.showArrived_keeps {A : Scope} {s₀ : State} (n : Nat) (s : State) (hk : Keeps A s₀ s)
    (hA : A.covers State.showArrived_sites) : Keeps A s₀ (State.showArrived n s) := by
  simp [State.showArrived_sites] at hA
  induction n generalizing s with
  | zero => exact hk
  | succ n ih =>
    rw [State.showArrived]
    split
    · exact ih _ (State.show_keeps _ _ hk (by first | assumption | simp [*]))
    · exact hk

def execWriteDataComplete_sites : List Site :=
  State.discardWrite_sites ++ State.modSlot_sites ++ State.showArrived_sites ++ [.one R.ORD_OVL_EVENTS]

theorem execWriteDataComplete_keeps {A : Scope} (n : Nat) (data : List (List Byte)) (pi : List (List Byte)) (s : State)
    (hA : A.covers execWriteDataComplete_sites) : KeepsOut A s (execWriteDataComplete n data pi s) := by
  simp [execWriteDataComplete_sites] at hA
  have hk := Keeps.refl A s
  unfold execWriteDataComplete
  repeat' (first
    | (split <;> try lift_lets))
  all_goals first | (simp (maxDischargeDepth := 99) +contextual [*]; done) | simp_all (maxDischargeDepth := 99) +contextual

def State.mapSector_sites : List Site := State.mapPlace_sites

@[simp ↓] theorem State.mapSector_keeps {A : Scope} {s₀ : State} (s : State) (x : Slot) (i : Nat) (hk : Keeps A s₀ s)
    (hA : A.covers State.mapSector_sites) :
    Keeps A s₀ (State.mapSector s x i) := by
  simp [State.mapSector_sites] at hA
  unfold State.mapSector
  try lift_lets
  repeat' (first
    | (intro x; clear_value x)
    | (split <;> try lift_lets))
  all_goals first | (simp (maxDischargeDepth := 99) +contextual [*]; done) | simp_all (maxDischargeDepth := 99) +contextual

def State.mapSectors_sites : List Site := State.mapSector_sites ++ State.walker_sites

@[simp ↓] theorem State.mapSectors_keeps {A : Scope} {s₀ : State} (s : State) (x : Slot) (first : Nat) (last : Nat) (hk : Keeps A s₀ s)
    (hA : A.covers State.mapSectors_sites) :
    Keeps A s₀ (State.mapSectors s x first last) := by
  simp [State.mapSectors_sites] at hA
  unfold State.mapSectors
  repeat' (first
    | (intro x; clear_value x))
  all_goals first | (simp (maxDischargeDepth := 99) +contextual [*]; done) | simp_all (maxDischargeDepth := 99) +contextual

def State.advanceZone_sites : List Site :=
  State.addParity_sites ++ State.dropAccept_sites ++ State.walker_sites ++ [.part .flow]

@[simp ↓] theorem State.advanceZone_keeps {A : Scope} {s₀ : State} (s : State) (z : Nat) (n : Nat) (hk : Keeps A s₀ s)
    (hA : A.covers State.advanceZone_sites) :
    Keeps A s₀ (State.advanceZone s z n) := by
  simp [State.advanceZone_sites] at hA
  simp (maxDischargeDepth := 99) [State.advanceZone, hk, hA]

def State.finishWrite_sites : List Site :=
  State.completeSlot_sites ++ State.freeSlot_sites ++ State.modSlot_sites ++ State.showArrived_sites

@[simp ↓] theorem State.finishWrite_keeps {A : Scope} {s₀ : State} (s : State) (x : Slot) (hk : Keeps A s₀ s)
    (hA : A.covers State.finishWrite_sites) :
    Keeps A s₀ (State.finishWrite s x) := by
  simp [State.finishWrite_sites] at hA
  simp (maxDischargeDepth := 99) [State.finishWrite, hk, hA]

def State.completeSectors_sites : List Site :=
  State.advanceZone_sites ++ State.cachePage_sites ++ State.dropClean_sites ++ State.finishWrite_sites ++
    State.mapSectors_sites ++ State.modSlot_sites ++ State.transferSet_sites

@[simp ↓] theorem State.completeSectors_keeps {A : Scope} {s₀ : State} (s : State) (x : Slot) (hk : Keeps A s₀ s)
    (hA : A.covers State.completeSectors_sites) :
    Keeps A s₀ (State.completeSectors s x) := by
  simp [State.completeSectors_sites] at hA
  unfold State.completeSectors
  repeat' (first
    | (intro x; clear_value x))
  all_goals first | (simp (maxDischargeDepth := 99) +contextual [*]; done) | simp_all (maxDischargeDepth := 99) +contextual

def State.eraseRange_sites : List Site := State.walker_sites

@[simp ↓] theorem State.eraseRange_keeps {A : Scope} {s₀ : State} (s : State) (x : Slot) (r : Nat × Nat) (hk : Keeps A s₀ s)
    (hA : A.covers State.eraseRange_sites) :
    Keeps A s₀ (State.eraseRange s x r) := by
  simp [State.eraseRange_sites] at hA
  simp (maxDischargeDepth := 99) [State.eraseRange, hk, hA]

def execMediaCompletion_sites : List Site :=
  State.completeSectors_sites ++ State.dropClean_sites ++ State.eraseRange_sites ++ State.finishWrite_sites

theorem execMediaCompletion_keeps {A : Scope} (n : Nat) (s : State)
    (hA : A.covers execMediaCompletion_sites) : KeepsOut A s (execMediaCompletion n s) := by
  simp [execMediaCompletion_sites] at hA
  have hk := Keeps.refl A s
  unfold execMediaCompletion
  repeat' (first
    | (intro x; first
        | (have hx : Keeps A s x := by
             subst x
             repeat' split
             all_goals first | with_reducible assumption | (simp (maxDischargeDepth := 99) +contextual [*]; done) | simp_all (maxDischargeDepth := 99) +contextual
           clear_value x)
        | clear_value x)
    | (split <;> try lift_lets))
  all_goals first | (simp (maxDischargeDepth := 99) +contextual [*]; done) | simp_all (maxDischargeDepth := 99) +contextual

end Sys2Proof.Machine
end

