-- ==== Sys2Proof/Laws/KeepsReads.lean ====
section
/-!
SUPPORT. Sys2Proof/Laws/KeepsReads.lean: the operations and meanings of Machine/Reads.lean keep (Laws/Keeps.lean).
-/

set_option linter.all false
set_option Elab.async false

namespace Sys2Proof.Machine

def State.startRead_sites : List Site := State.failCommand_sites ++ State.modSlot_sites

@[simp ↓] theorem State.startRead_keeps {A : Scope} {s₀ : State} (s : State) (x : Slot) (most : Nat) (data : List Sector) (hk : Keeps A s₀ s)
    (hA : A.covers State.startRead_sites) :
    Keeps A s₀ (State.startRead s x most data) := by
  simp [State.startRead_sites] at hA
  simp (maxDischargeDepth := 99) [State.startRead, hk, hA]

def State.takeReadPoint_sites : List Site :=
  State.addReads_sites ++ State.logError_sites ++ State.modSlot_sites ++ State.readDone_sites ++ State.reclaim_sites ++
    State.transfer_sites

@[simp ↓] theorem State.takeReadPoint_keeps {A : Scope} {s₀ : State} (s : State) (x : Slot) (hk : Keeps A s₀ s)
    (hA : A.covers State.takeReadPoint_sites) :
    Keeps A s₀ (State.takeReadPoint s x) := by
  simp [State.takeReadPoint_sites] at hA
  unfold State.takeReadPoint
  try lift_lets
  repeat' (first
    | (intro x; first
        | (have hx : Keeps A s₀ x := by
             subst x
             repeat' split
             all_goals first | with_reducible assumption | (simp (maxDischargeDepth := 99) +contextual [*]; done) | simp_all (maxDischargeDepth := 99) +contextual
           clear_value x)
        | clear_value x))
  all_goals first | (simp (maxDischargeDepth := 99) +contextual [*]; done) | simp_all (maxDischargeDepth := 99) +contextual

def State.tryReadPoint_sites : List Site := State.takeReadPoint_sites

@[simp ↓] theorem State.tryReadPoint_keeps {A : Scope} {s₀ : State} (s : State) (n : Nat) (hk : Keeps A s₀ s)
    (hA : A.covers State.tryReadPoint_sites) :
    Keeps A s₀ (State.tryReadPoint s n) := by
  simp [State.tryReadPoint_sites] at hA
  unfold State.tryReadPoint
  repeat' (first
    | (intro x; clear_value x)
    | (split <;> try lift_lets))
  all_goals first | (simp (maxDischargeDepth := 99) +contextual [*]; done) | simp_all (maxDischargeDepth := 99) +contextual

def execRead_sites : List Site := State.startRead_sites ++ State.tryReadPoint_sites

theorem execRead_keeps {A : Scope} (n : Nat) (s : State)
    (hA : A.covers execRead_sites) : KeepsOut A s (execRead n s) := by
  simp [execRead_sites] at hA
  have hk := Keeps.refl A s
  unfold execRead
  repeat' (first
    | (intro x; clear_value x)
    | (split <;> try lift_lets))
  all_goals first | (simp (maxDischargeDepth := 99) +contextual [*]; done) | simp_all (maxDischargeDepth := 99) +contextual

def execCompare_sites : List Site := State.startRead_sites ++ State.tryReadPoint_sites

theorem execCompare_keeps {A : Scope} (n : Nat) (data : List (List Byte)) (s : State)
    (hA : A.covers execCompare_sites) : KeepsOut A s (execCompare n data s) := by
  simp [execCompare_sites] at hA
  have hk := Keeps.refl A s
  unfold execCompare
  repeat' (first
    | (intro x; clear_value x)
    | (split <;> try lift_lets))
  all_goals first | (simp (maxDischargeDepth := 99) +contextual [*]; done) | simp_all (maxDischargeDepth := 99) +contextual

def execVerify_sites : List Site := State.startRead_sites ++ State.tryReadPoint_sites

theorem execVerify_keeps {A : Scope} (n : Nat) (s : State)
    (hA : A.covers execVerify_sites) : KeepsOut A s (execVerify n s) := by
  simp [execVerify_sites] at hA
  have hk := Keeps.refl A s
  unfold execVerify
  repeat' (first
    | (intro x; clear_value x)
    | (split <;> try lift_lets))
  all_goals first | (simp (maxDischargeDepth := 99) +contextual [*]; done) | simp_all (maxDischargeDepth := 99) +contextual

def execReadPoint_sites : List Site := State.tryReadPoint_sites

theorem execReadPoint_keeps {A : Scope} (n : Nat) (s : State)
    (hA : A.covers execReadPoint_sites) : KeepsOut A s (execReadPoint n s) := by
  simp [execReadPoint_sites] at hA
  simp (maxDischargeDepth := 99) [execReadPoint, hA]

def State.sendSector_sites : List Site := State.completeSlot_sites ++ State.modSlot_sites ++ State.send_sites

@[simp ↓] theorem State.sendSector_keeps {A : Scope} {s₀ : State} (s : State) (x : Slot) (i : Nat) (data : Sector) (pi : List Byte) (hk : Keeps A s₀ s)
    (hA : A.covers State.sendSector_sites) :
    Keeps A s₀ (State.sendSector s x i data pi) := by
  simp [State.sendSector_sites] at hA
  simp (maxDischargeDepth := 99) [State.sendSector, hk, hA]

def State.loseWrite_sites : List Site :=
  State.completeSlot_sites ++ State.freeSlot_sites ++ State.loseRange_sites ++ State.transferSet_sites ++ [.part .flow, .part
    .cip]

@[simp ↓] theorem State.loseWrite_keeps {A : Scope} {s₀ : State} (s : State) (w : Slot) (hk : Keeps A s₀ s)
    (hA : A.covers State.loseWrite_sites) :
    Keeps A s₀ (State.loseWrite s w) := by
  simp [State.loseWrite_sites] at hA
  simp (maxDischargeDepth := 99) [State.loseWrite, hk, hA]

def State.readFromMedia_sites : List Site :=
  State.addOp_sites ++ State.addReads_sites ++ State.completeSlot_sites ++ State.modSlot_sites ++ State.reclaim_sites ++
    State.transfer_sites ++ [.part .darn]

@[simp ↓] theorem State.readFromMedia_keeps {A : Scope} {s₀ : State} (s : State) (x : Slot) (i : Nat) (issued : Bool) (hk : Keeps A s₀ s)
    (hA : A.covers State.readFromMedia_sites) :
    Keeps A s₀ (State.readFromMedia s x i issued) := by
  simp [State.readFromMedia_sites] at hA
  unfold State.readFromMedia
  repeat' (first
    | (intro x; first
        | (have hx : Keeps A s₀ x := by
             subst x
             repeat' split
             all_goals first | with_reducible assumption | (simp (maxDischargeDepth := 99) +contextual [*]; done) | simp_all (maxDischargeDepth := 99) +contextual
           clear_value x)
        | clear_value x)
    | (split <;> try lift_lets))
  all_goals first | (simp (maxDischargeDepth := 99) +contextual [*]; done) | simp_all (maxDischargeDepth := 99) +contextual

def State.pullClean_sites : List Site := State.transfer_sites ++ [.part .flow]

@[simp ↓] theorem State.pullClean_keeps {A : Scope} {s₀ : State} (s : State) (d : Nat) (dst : Nat) (hk : Keeps A s₀ s)
    (hA : A.covers State.pullClean_sites) :
    Keeps A s₀ (State.pullClean s d dst) := by
  simp [State.pullClean_sites] at hA
  simp (maxDischargeDepth := 99) [State.pullClean, hk, hA]

def State.guardMismatch_sites : List Site :=
  State.completeSlot_sites ++ State.loseWrite_sites ++ State.modSlot_sites ++ State.pullClean_sites ++
    State.readFromMedia_sites ++ [.one R.ORD_OVL_EVENTS]

@[simp ↓] theorem State.guardMismatch_keeps {A : Scope} {s₀ : State} (s : State) (x : Slot) (i : Nat) (hk : Keeps A s₀ s)
    (hA : A.covers State.guardMismatch_sites) :
    Keeps A s₀ (State.guardMismatch s x i) := by
  simp [State.guardMismatch_sites] at hA
  unfold State.guardMismatch
  repeat' (first
    | (intro x; first
        | (have hx : Keeps A s₀ x := by
             subst x
             repeat' split
             all_goals first | with_reducible assumption | (simp (maxDischargeDepth := 99) +contextual [*]; done) | simp_all (maxDischargeDepth := 99) +contextual
           clear_value x)
        | clear_value x)
    | (split <;> try lift_lets))
  all_goals first | (simp (maxDischargeDepth := 99) +contextual [*]; done) | simp_all (maxDischargeDepth := 99) +contextual

def execReadTransfer_sites : List Site := State.guardMismatch_sites ++ State.sendSector_sites

theorem execReadTransfer_keeps {A : Scope} (n : Nat) (i : Nat) (guardOk : Bool) (s : State)
    (hA : A.covers execReadTransfer_sites) : KeepsOut A s (execReadTransfer n i guardOk s) := by
  simp [execReadTransfer_sites] at hA
  have hk := Keeps.refl A s
  unfold execReadTransfer
  repeat' (first
    | (intro x; clear_value x)
    | (split <;> try lift_lets))
  all_goals first | (simp (maxDischargeDepth := 99) +contextual [*]; done) | simp_all (maxDischargeDepth := 99) +contextual

def execFlush_sites : List Site := State.completeSlot_sites ++ State.failCommand_sites

theorem execFlush_keeps {A : Scope} (n : Nat) (s : State)
    (hA : A.covers execFlush_sites) : KeepsOut A s (execFlush n s) := by
  simp [execFlush_sites] at hA
  have hk := Keeps.refl A s
  unfold execFlush
  repeat' (first
    | (intro x; clear_value x)
    | (split <;> try lift_lets))
  all_goals first | (simp (maxDischargeDepth := 99) +contextual [*]; done) | simp_all (maxDischargeDepth := 99) +contextual

def State.zoneAction_sites : List Site := State.completeSlot_sites ++ State.failCommand_sites

theorem State.zoneAction_keeps {A : Scope} {s₀ : State} (s : State) (n action : Nat) (valid : State → Nat → Bool)
    (effect : State → NamespaceEntry → Nat → Nat × State) (he : ∀ t ns z, Keeps A s₀ t → Keeps A s₀ (effect t ns z).2) (hk : Keeps A s₀ s)
    (hA : A.covers State.zoneAction_sites) :
    Keeps A s₀ (s.zoneAction n action valid effect) := by
  simp [State.zoneAction_sites] at hA
  unfold State.zoneAction
  split
  · exact hk
  · next x _ =>
    dsimp only
    split
    · exact State.failCommand_keeps _ _ _ hk (by first | assumption | simp [*])
    · next ns _ =>
      split
      · exact State.failCommand_keeps _ _ _ hk (by first | assumption | simp [*])
      · split
        · exact State.failCommand_keeps _ _ _ hk (by first | assumption | simp [*])
        · have hr := foldl_preserves (fun b : Nat × State => Keeps A s₀ b.2) (b := (0, s))
            (f := fun (m : Nat × State) z => if m.1 ≠ 0 then m else effect m.2 ns z)
            (fun b a hb => by
              split
              · exact hb
              · exact he _ _ _ hb) (x.actionZones ns (valid s)) hk
          split
          · exact State.failCommand_keeps _ _ _ hr (by first | assumption | simp [*])
          · exact State.completeSlot_keeps _ _ _ _ hr (by first | assumption | simp [*])

def execZoneOpen_sites : List Site := State.makeOpenRoom_sites ++ State.putZoneState_sites ++ State.zoneAction_sites

theorem execZoneOpen_keeps {A : Scope} (n : Nat) (s : State)
    (hA : A.covers execZoneOpen_sites) : KeepsOut A s (execZoneOpen n s) := by
  simp [execZoneOpen_sites] at hA
  refine keepsOut_next.2 (State.zoneAction_keeps _ _ _ _ _ (fun t ns z ht => ?_) (Keeps.refl A s) (by first | assumption | simp [*]))
  have hm := State.makeOpenRoom_keeps t ns z false ht (by first | assumption | simp [*])
  dsimp only
  split
  · exact hm
  · exact State.putZoneState_keeps _ _ _ hm (by first | assumption | simp [*])

def execZoneClose_sites : List Site := State.closeZone_sites ++ State.zoneAction_sites

theorem execZoneClose_keeps {A : Scope} (n : Nat) (s : State)
    (hA : A.covers execZoneClose_sites) : KeepsOut A s (execZoneClose n s) := by
  simp [execZoneClose_sites] at hA
  refine keepsOut_next.2 (State.zoneAction_keeps _ _ _ _ _ (fun t ns z ht => ?_) (Keeps.refl A s) (by first | assumption | simp [*]))
  simp (maxDischargeDepth := 99) [ht, hA]

def execZoneOffline_sites : List Site := State.holdCommand_sites ++ State.putZoneState_sites ++ State.zoneAction_sites

theorem execZoneOffline_keeps {A : Scope} (n : Nat) (s : State)
    (hA : A.covers execZoneOffline_sites) : KeepsOut A s (execZoneOffline n s) := by
  simp [execZoneOffline_sites] at hA
  unfold execZoneOffline
  split
  · simp [hA]
  · refine keepsOut_next.2 (State.zoneAction_keeps _ _ _ _ _ (fun t ns z ht => ?_) (Keeps.refl A s) (by first | assumption | simp [*]))
    simp (maxDischargeDepth := 99) [ht, hA]

def execZoneSetDescExt_sites : List Site := State.failCommand_sites ++ State.holdCommand_sites

theorem execZoneSetDescExt_keeps {A : Scope} (n : Nat) (s : State)
    (hA : A.covers execZoneSetDescExt_sites) : KeepsOut A s (execZoneSetDescExt n s) := by
  simp [execZoneSetDescExt_sites] at hA
  have hk := Keeps.refl A s
  unfold execZoneSetDescExt
  repeat' (first
    | (intro x; clear_value x)
    | (split <;> try lift_lets))
  all_goals first | (simp (maxDischargeDepth := 99) +contextual [*]; done) | simp_all (maxDischargeDepth := 99) +contextual

def State.resetZone_sites : List Site :=
  State.abandonRewrite_sites ++ State.dropAccept_sites ++ State.dropClean_sites ++ State.unlist_sites ++ State.walker_sites ++
    [.part .flow]

@[simp ↓] theorem State.resetZone_keeps {A : Scope} {s₀ : State} (s : State) (z : Nat) (hk : Keeps A s₀ s)
    (hA : A.covers State.resetZone_sites) :
    Keeps A s₀ (State.resetZone s z) := by
  simp [State.resetZone_sites] at hA
  simp (maxDischargeDepth := 99) [State.resetZone, hk, hA]

def execZoneReset_sites : List Site := State.holdCommand_sites ++ State.resetZone_sites ++ State.zoneAction_sites

theorem execZoneReset_keeps {A : Scope} (n : Nat) (s : State)
    (hA : A.covers execZoneReset_sites) : KeepsOut A s (execZoneReset n s) := by
  simp [execZoneReset_sites] at hA
  unfold execZoneReset
  split
  · simp [hA]
  · extract_lets all held
    split
    · simp [hA]
    · split
      · simp [hA]
      · refine keepsOut_next.2 (State.zoneAction_keeps _ _ _ _ _ (fun t ns z ht => ?_) (Keeps.refl A s) (by first | assumption | simp [*]))
        simp (maxDischargeDepth := 99) [ht, hA]

def State.finishZone_sites : List Site := State.addParity_sites

@[simp ↓] theorem State.finishZone_keeps {A : Scope} {s₀ : State} (s : State) (z : Nat) (hk : Keeps A s₀ s)
    (hA : A.covers State.finishZone_sites) :
    Keeps A s₀ (State.finishZone s z) := by
  simp [State.finishZone_sites] at hA
  simp (maxDischargeDepth := 99) [State.finishZone, hk, hA]

def State.finishDone_sites : List Site := State.completeSlot_sites ++ State.dropAccept_sites ++ State.putZoneState_sites

@[simp ↓] theorem State.finishDone_keeps {A : Scope} {s₀ : State} (s : State) (x : Slot) (hk : Keeps A s₀ s)
    (hA : A.covers State.finishDone_sites) :
    Keeps A s₀ (State.finishDone s x) := by
  simp [State.finishDone_sites] at hA
  unfold State.finishDone
  repeat' (first
    | (intro x; clear_value x))
  all_goals first | (simp (maxDischargeDepth := 99) +contextual [*]; done) | simp_all (maxDischargeDepth := 99) +contextual

def execZoneFinish_sites : List Site :=
  State.failCommand_sites ++ State.finishDone_sites ++ State.finishZone_sites ++ State.holdCommand_sites ++
    State.modSlot_sites

theorem execZoneFinish_keeps {A : Scope} (n : Nat) (s : State)
    (hA : A.covers execZoneFinish_sites) : KeepsOut A s (execZoneFinish n s) := by
  simp [execZoneFinish_sites] at hA
  have hk := Keeps.refl A s
  unfold execZoneFinish
  repeat' (first
    | (intro x; first
        | (have hx : Keeps A s x := by
             subst x
             repeat' split
             all_goals first | with_reducible assumption | (simp (maxDischargeDepth := 99) +contextual [*]; done) | simp_all (maxDischargeDepth := 99) +contextual
           clear_value x)
        | clear_value x)
    | (split <;> try lift_lets))
  all_goals first | (simp (maxDischargeDepth := 99) +contextual [*]; done) | simp_all (maxDischargeDepth := 99) +contextual

def execZoneMgmtReceive_sites : List Site := State.completeSlot_sites ++ State.failCommand_sites ++ State.sendBytes_sites

theorem execZoneMgmtReceive_keeps {A : Scope} (n : Nat) (s : State)
    (hA : A.covers execZoneMgmtReceive_sites) : KeepsOut A s (execZoneMgmtReceive n s) := by
  simp [execZoneMgmtReceive_sites] at hA
  have hk := Keeps.refl A s
  unfold execZoneMgmtReceive
  repeat' (first
    | (intro x; clear_value x)
    | (split <;> try lift_lets))
  all_goals first | (simp (maxDischargeDepth := 99) +contextual [*]; done) | simp_all (maxDischargeDepth := 99) +contextual

def execInvalidIoOpcode_sites : List Site := State.failCommand_sites

theorem execInvalidIoOpcode_keeps {A : Scope} (n : Nat) (s : State)
    (hA : A.covers execInvalidIoOpcode_sites) : KeepsOut A s (execInvalidIoOpcode n s) := by
  simp [execInvalidIoOpcode_sites] at hA
  have hk := Keeps.refl A s
  unfold execInvalidIoOpcode
  repeat' (first
    | (intro x; clear_value x)
    | (split <;> try lift_lets))
  all_goals first | (simp (maxDischargeDepth := 99) +contextual [*]; done) | simp_all (maxDischargeDepth := 99) +contextual

end Sys2Proof.Machine
end

