-- ==== Sys2Proof/Laws/KeepsHostPort.lean ====
section
/-!
SUPPORT. Sys2Proof/Laws/KeepsHostPort.lean: the operations and meanings of Machine/HostPort.lean keep (Laws/Keeps.lean).
-/

set_option linter.all false
set_option Elab.async false

namespace Sys2Proof.Machine

def State.clearVfs_sites : List Site :=
  State.clearFunctions_sites ++ State.dropControllers_sites ++ [.one R.HIF_CTRL_EXIST, .each R.HIF_PORT_STATUS, .part .host]

@[simp ↓] theorem State.clearVfs_keeps {A : Scope} {s₀ : State} (s : State) (p : Nat) (hk : Keeps A s₀ s)
    (hA : A.covers State.clearVfs_sites) :
    Keeps A s₀ (State.clearVfs s p) := by
  simp [State.clearVfs_sites] at hA
  unfold State.clearVfs
  repeat' (first
    | (intro x; clear_value x))
  all_goals first | (simp (maxDischargeDepth := 99) +contextual [*]; done) | simp_all (maxDischargeDepth := 99) +contextual

def State.linkFalls_sites : List Site := [.each R.HIF_PORT_STATUS]

@[simp ↓] theorem State.linkFalls_keeps {A : Scope} {s₀ : State} (s : State) (p : Nat) (hk : Keeps A s₀ s)
    (hA : A.covers State.linkFalls_sites) :
    Keeps A s₀ (State.linkFalls s p) := by
  simp [State.linkFalls_sites] at hA
  simp (maxDischargeDepth := 99) [State.linkFalls, hk, hA]

def State.trainLink_sites : List Site := [.part .host]

@[simp ↓] theorem State.trainLink_keeps {A : Scope} {s₀ : State} (s : State) (p : Nat) (hk : Keeps A s₀ s)
    (hA : A.covers State.trainLink_sites) :
    Keeps A s₀ (State.trainLink s p) := by
  simp [State.trainLink_sites] at hA
  simp (maxDischargeDepth := 99) [State.trainLink, hk, hA]

def execLinkUp_sites : List Site := [.each R.HIF_PORT_STATUS, .part .host]

theorem execLinkUp_keeps {A : Scope} (p : Nat) (speed : Nat) (width : Nat) (s : State)
    (hA : A.covers execLinkUp_sites) : KeepsOut A s (execLinkUp p speed width s) := by
  simp [execLinkUp_sites] at hA
  simp (maxDischargeDepth := 99) [execLinkUp, hA]

def execLinkDown_sites : List Site := State.linkFalls_sites ++ State.trainLink_sites

theorem execLinkDown_keeps {A : Scope} (p : Nat) (s : State)
    (hA : A.covers execLinkDown_sites) : KeepsOut A s (execLinkDown p s) := by
  simp [execLinkDown_sites] at hA
  simp (maxDischargeDepth := 99) [execLinkDown, hA]

def execPerstAssert_sites : List Site :=
  State.clearFunctions_sites ++ State.clearVfs_sites ++ State.dropControllers_sites ++ State.linkFalls_sites ++ [.each
    R.HIF_PORT_ERR, .each R.HIF_PORT_STATUS, .part .host]

theorem execPerstAssert_keeps {A : Scope} (p : Nat) (s : State)
    (hA : A.covers execPerstAssert_sites) : KeepsOut A s (execPerstAssert p s) := by
  simp [execPerstAssert_sites] at hA
  simp (maxDischargeDepth := 99) [execPerstAssert, hA]

def execPerstDeassert_sites : List Site := State.trainLink_sites ++ [.each R.HIF_PORT_STATUS, .part .host]

theorem execPerstDeassert_keeps {A : Scope} (p : Nat) (s : State)
    (hA : A.covers execPerstDeassert_sites) : KeepsOut A s (execPerstDeassert p s) := by
  simp [execPerstDeassert_sites] at hA
  simp (maxDischargeDepth := 99) [execPerstDeassert, hA]

def execFlr_sites : List Site := State.clearFunctions_sites ++ State.clearVfs_sites ++ State.dropController_sites

theorem execFlr_keeps {A : Scope} (p : Nat) (f : Nat) (s : State)
    (hA : A.covers execFlr_sites) : KeepsOut A s (execFlr p f s) := by
  simp [execFlr_sites] at hA
  simp (maxDischargeDepth := 99) [execFlr, hA]

def execVfEnableClear_sites : List Site := State.clearVfs_sites

theorem execVfEnableClear_keeps {A : Scope} (p : Nat) (s : State)
    (hA : A.covers execVfEnableClear_sites) : KeepsOut A s (execVfEnableClear p s) := by
  simp [execVfEnableClear_sites] at hA
  simp (maxDischargeDepth := 99) [execVfEnableClear, hA]

def execVfEnableSet_sites : List Site := [.one R.HIF_CTRL_EXIST, .each R.HIF_PORT_STATUS, .part .host]

theorem execVfEnableSet_keeps {A : Scope} (p : Nat) (n : Nat) (s : State)
    (hA : A.covers execVfEnableSet_sites) : KeepsOut A s (execVfEnableSet p n s) := by
  simp [execVfEnableSet_sites] at hA
  have hk := Keeps.refl A s
  unfold execVfEnableSet
  repeat' (first
    | (intro x; clear_value x))
  all_goals first | (simp (maxDischargeDepth := 99) +contextual [*]; done) | simp_all (maxDischargeDepth := 99) +contextual

def State.subsystemReset_sites : List Site :=
  State.clearFunctions_sites ++ State.clearVfs_sites ++ State.dropControllers_sites ++ State.linkFalls_sites ++
    State.trainLink_sites

@[simp ↓] theorem State.subsystemReset_keeps {A : Scope} {s₀ : State} (s : State) (hk : Keeps A s₀ s)
    (hA : A.covers State.subsystemReset_sites) :
    Keeps A s₀ (State.subsystemReset s) := by
  simp [State.subsystemReset_sites] at hA
  simp (maxDischargeDepth := 99) [State.subsystemReset, hk, hA]

def execControllerReset_sites : List Site := State.dropController_sites

theorem execControllerReset_keeps {A : Scope} (c : Nat) (s : State)
    (hA : A.covers execControllerReset_sites) : KeepsOut A s (execControllerReset c s) := by
  simp [execControllerReset_sites] at hA
  have hk := Keeps.refl A s
  unfold execControllerReset
  repeat' (first
    | (intro x; clear_value x)
    | (split <;> try lift_lets))
  all_goals first | (simp (maxDischargeDepth := 99) +contextual [*]; done) | simp_all (maxDischargeDepth := 99) +contextual

def execControllerEnable_sites : List Site := State.modController_sites ++ [.part .host]

theorem execControllerEnable_keeps {A : Scope} (c : Nat) (css : Nat) (asqs : Nat) (acqs : Nat) (s : State)
    (hA : A.covers execControllerEnable_sites) : KeepsOut A s (execControllerEnable c css asqs acqs s) := by
  simp [execControllerEnable_sites] at hA
  have hk := Keeps.refl A s
  unfold execControllerEnable
  repeat' (first
    | (intro x; first
        | (have hx : Keeps A s x := by
             subst x
             repeat' split
             all_goals first | with_reducible assumption | (simp (maxDischargeDepth := 99) +contextual [*]; done) | simp_all (maxDischargeDepth := 99) +contextual
           clear_value x)
        | clear_value x)
    | (split <;> try lift_lets))
  all_goals first | (simp (maxDischargeDepth := 99) +contextual [*]; done) | simp_all (maxDischargeDepth := 99) +contextual

def State.lockPattern_sites : List Site := [.one R.PAT_STATUS]

@[simp ↓] theorem State.lockPattern_keeps {A : Scope} {s₀ : State} (s : State) (hk : Keeps A s₀ s)
    (hA : A.covers State.lockPattern_sites) :
    Keeps A s₀ (State.lockPattern s) := by
  simp [State.lockPattern_sites] at hA
  simp (maxDischargeDepth := 99) [State.lockPattern, hk, hA]

def State.transferFails_sites : List Site :=
  State.completeSlot_sites ++ State.discardWrite_sites ++ State.dropOps_sites ++ State.dropUnissued_sites ++
    State.modSlot_sites ++ State.readDone_sites

@[simp ↓] theorem State.transferFails_keeps {A : Scope} {s₀ : State} (s : State) (n : Nat) (hk : Keeps A s₀ s)
    (hA : A.covers State.transferFails_sites) :
    Keeps A s₀ (State.transferFails s n) := by
  simp [State.transferFails_sites] at hA
  unfold State.transferFails
  repeat' (first
    | (intro x; first
        | (have hx : Keeps A s₀ x := by
             subst x
             repeat' split
             all_goals first | with_reducible assumption | (simp (maxDischargeDepth := 99) +contextual [*]; done) | simp_all (maxDischargeDepth := 99) +contextual
           clear_value x)
        | clear_value x)
    | (split <;> try lift_lets))
  all_goals first | (simp (maxDischargeDepth := 99) +contextual [*]; done) | simp_all (maxDischargeDepth := 99) +contextual

def execTlpError_sites : List Site := State.setCfs_sites ++ State.transferFails_sites ++ [.each R.HIF_PORT_ERR]

theorem execTlpError_keeps {A : Scope} (e : TlpError) (p : Nat) (c : Nat) (n : Nat) (s : State)
    (hA : A.covers execTlpError_sites) : KeepsOut A s (execTlpError e p c n s) := by
  simp [execTlpError_sites] at hA
  have hk := Keeps.refl A s
  unfold execTlpError
  repeat' (first
    | (intro x; first
        | (have hx : Keeps A s x := by
             subst x
             repeat' split
             all_goals first | with_reducible assumption | (simp (maxDischargeDepth := 99) +contextual [*]; done) | simp_all (maxDischargeDepth := 99) +contextual
           clear_value x)
        | clear_value x)
    | (split <;> try lift_lets))
  all_goals first | (simp (maxDischargeDepth := 99) +contextual [*]; done) | simp_all (maxDischargeDepth := 99) +contextual

def State.aenPost_sites : List Site := State.postAsync_sites ++ [.one R.HIF_AEN_POST]

@[simp ↓] theorem State.aenPost_keeps {A : Scope} {s₀ : State} (s : State) (type : Nat) (info : Nat) (hk : Keeps A s₀ s)
    (hA : A.covers State.aenPost_sites) :
    Keeps A s₀ (State.aenPost s type info) := by
  simp [State.aenPost_sites] at hA
  simp (maxDischargeDepth := 99) [State.aenPost, hk, hA]

def execHifAenPost_sites : List Site := State.aenPost_sites

theorem execHifAenPost_keeps {A : Scope} (type : Nat) (info : Nat) (s : State)
    (hA : A.covers execHifAenPost_sites) : KeepsOut A s (execHifAenPost type info s) := by
  simp [execHifAenPost_sites] at hA
  simp (maxDischargeDepth := 99) [execHifAenPost, hA]

def execHifCfsSet_sites : List Site := State.setCfs_sites

theorem execHifCfsSet_keeps {A : Scope} (mask : Nat) (s : State)
    (hA : A.covers execHifCfsSet_sites) : KeepsOut A s (execHifCfsSet mask s) := by
  simp [execHifCfsSet_sites] at hA
  simp (maxDischargeDepth := 99) [execHifCfsSet, hA]

def execFetchHold_sites : List Site := [.one R.QUE_FETCH_HOLD]

theorem execFetchHold_keeps {A : Scope} (mask : Nat) (s : State)
    (hA : A.covers execFetchHold_sites) : KeepsOut A s (execFetchHold mask s) := by
  simp [execFetchHold_sites] at hA
  simp (maxDischargeDepth := 99) [execFetchHold, hA]

def execInterruptCoalesceTimer_sites : List Site := State.modController_sites ++ State.send_sites

theorem execInterruptCoalesceTimer_keeps {A : Scope} (c : Nat) (vector : Nat) (s : State)
    (hA : A.covers execInterruptCoalesceTimer_sites) : KeepsOut A s (execInterruptCoalesceTimer c vector s) := by
  simp [execInterruptCoalesceTimer_sites] at hA
  have hk := Keeps.refl A s
  unfold execInterruptCoalesceTimer
  repeat' (first
    | (intro x; clear_value x)
    | (split <;> try lift_lets))
  all_goals first | (simp (maxDischargeDepth := 99) +contextual [*]; done) | simp_all (maxDischargeDepth := 99) +contextual

end Sys2Proof.Machine
end

