-- ==== Sys2Proof/Laws/KeepsPairs.lean ====
section
/-!
SUPPORT. Sys2Proof/Laws/KeepsPairs.lean: the operations and meanings of Machine/Pairs.lean keep (Laws/Keeps.lean).
-/

set_option linter.all false
set_option Elab.async false

namespace Sys2Proof.Machine

def State.uncoveredPair_sites : List Site := State.dropControllers_sites ++ State.setCfs_sites ++ State.uncovered_sites

@[simp ↓] theorem State.uncoveredPair_keeps {A : Scope} {s₀ : State} (s : State) (p : Nat) (hk : Keeps A s₀ s)
    (hA : A.covers State.uncoveredPair_sites) :
    Keeps A s₀ (State.uncoveredPair s p) := by
  simp [State.uncoveredPair_sites] at hA
  simp (maxDischargeDepth := 99) [State.uncoveredPair, hk, hA]

def State.lockstepFault_sites : List Site :=
  State.abortActivation_sites ++ State.smartSet_sites ++ State.uncoveredPair_sites ++ [.one R.SYS_PAIR_STATUS, .part .pairs]

@[simp ↓] theorem State.lockstepFault_keeps {A : Scope} {s₀ : State} (s : State) (p : Nat) (hk : Keeps A s₀ s)
    (hA : A.covers State.lockstepFault_sites) :
    Keeps A s₀ (State.lockstepFault s p) := by
  simp [State.lockstepFault_sites] at hA
  simp (maxDischargeDepth := 99) [State.lockstepFault, hk, hA]

def execLockstepMismatch_sites : List Site := State.lockstepFault_sites

theorem execLockstepMismatch_keeps {A : Scope} (p : Nat) (s : State)
    (hA : A.covers execLockstepMismatch_sites) : KeepsOut A s (execLockstepMismatch p s) := by
  simp [execLockstepMismatch_sites] at hA
  simp (maxDischargeDepth := 99) [execLockstepMismatch, hA]

def State.applyUndo_sites : List Site := [.part .pairs, .part .prot, .part .sram, .part .dram]

@[simp ↓] theorem State.applyUndo_keeps {A : Scope} {s₀ : State} (s : State) (p : Nat) (hk : Keeps A s₀ s)
    (hA : A.covers State.applyUndo_sites) :
    Keeps A s₀ (State.applyUndo s p) := by
  simp [State.applyUndo_sites] at hA
  unfold State.applyUndo
  repeat' (first
    | (intro x; clear_value x))
  all_goals first | (simp (maxDischargeDepth := 99) +contextual [*]; done) | simp_all (maxDischargeDepth := 99) +contextual

def State.standInPair_sites : List Site :=
  State.applyUndo_sites ++ State.noteFault_sites ++ State.resourceHeld_sites ++ [.one R.DRN_FAILOVER, .one R.SYS_PAIR_STATUS,
    .one R.UPD_HANDOVER, .part .pairs, .part .flow]

@[simp ↓] theorem State.standInPair_keeps {A : Scope} {s₀ : State} (s : State) (p : Nat) (k : Nat) (work : Nat) (hk : Keeps A s₀ s)
    (hA : A.covers State.standInPair_sites) :
    Keeps A s₀ (State.standInPair s p k work) := by
  simp [State.standInPair_sites] at hA
  simp (maxDischargeDepth := 99) [State.standInPair, hk, hA]

def execPairTakeover_sites : List Site := State.standInPair_sites ++ State.uncoveredPair_sites ++ [.part .pairs]

theorem execPairTakeover_keeps {A : Scope} (s : State)
    (hA : A.covers execPairTakeover_sites) : KeepsOut A s (execPairTakeover s) := by
  simp [execPairTakeover_sites] at hA
  have hk := Keeps.refl A s
  unfold execPairTakeover
  repeat' (first
    | (intro x; clear_value x)
    | (split <;> try lift_lets))
  all_goals first | (simp (maxDischargeDepth := 99) +contextual [*]; done) | simp_all (maxDischargeDepth := 99) +contextual

end Sys2Proof.Machine
end

