-- ==== Sys2Proof/Laws/KeepsMemory.lean ====
section
/-!
SUPPORT. Sys2Proof/Laws/KeepsMemory.lean: the operations and meanings of Machine/Memory.lean keep (Laws/Keeps.lean).
-/

set_option linter.all false
set_option Elab.async false

namespace Sys2Proof.Machine

def State.lastMemError_sites : List Site := [.one R.MEM_LAST_ERR_HI, .one R.MEM_LAST_ERR_LO]

@[simp ↓] theorem State.lastMemError_keeps {A : Scope} {s₀ : State} (s : State) (die : Nat) (addr : Nat) (kind : Nat) (hk : Keeps A s₀ s)
    (hA : A.covers State.lastMemError_sites) :
    Keeps A s₀ (State.lastMemError s die addr kind) := by
  simp [State.lastMemError_sites] at hA
  simp (maxDischargeDepth := 99) [State.lastMemError, hk, hA]

def State.memEvent_sites : List Site := State.event_sites

@[simp ↓] theorem State.memEvent_keeps {A : Scope} {s₀ : State} (s : State) (die : Nat) (addr : Nat) (hk : Keeps A s₀ s)
    (hA : A.covers State.memEvent_sites) :
    Keeps A s₀ (State.memEvent s die addr) := by
  simp [State.memEvent_sites] at hA
  simp (maxDischargeDepth := 99) [State.memEvent, hk, hA]

def State.retireWatch_sites : List Site := State.event_sites ++ [.one R.MEM_EVENTS, .one R.MEM_STATUS]

@[simp ↓] theorem State.retireWatch_keeps {A : Scope} {s₀ : State} (s : State) (die : Nat) (hk : Keeps A s₀ s)
    (hA : A.covers State.retireWatch_sites) :
    Keeps A s₀ (State.retireWatch s die) := by
  simp [State.retireWatch_sites] at hA
  simp (maxDischargeDepth := 99) [State.retireWatch, hk, hA]

def State.bufferRetired_sites : List Site :=
  State.memEvent_sites ++ State.retireWatch_sites ++ [.one R.MEM_EVENTS, .each R.MEM_RETIRE, .part .prot]

@[simp ↓] theorem State.bufferRetired_keeps {A : Scope} {s₀ : State} (s : State) (die : Nat) (page : Nat) (hk : Keeps A s₀ s)
    (hA : A.covers State.bufferRetired_sites) :
    Keeps A s₀ (State.bufferRetired s die page) := by
  simp [State.bufferRetired_sites] at hA
  simp (maxDischargeDepth := 99) [State.bufferRetired, hk, hA]

def State.retireToSpare_sites : List Site :=
  State.memEvent_sites ++ State.retireWatch_sites ++ [.one R.MEM_EVENTS, .each R.MEM_RETIRE, .part .prot]

@[simp ↓] theorem State.retireToSpare_keeps {A : Scope} {s₀ : State} (s : State) (die : Nat) (page : Nat) (hk : Keeps A s₀ s)
    (hA : A.covers State.retireToSpare_sites) :
    Keeps A s₀ (State.retireToSpare s die page) := by
  simp [State.retireToSpare_sites] at hA
  simp (maxDischargeDepth := 99) [State.retireToSpare, hk, hA]

def State.restartRun_sites : List Site := State.dropLadderOps_sites ++ State.modRun_sites ++ State.stepReads_sites

@[simp ↓] theorem State.restartRun_keeps {A : Scope} {s₀ : State} (s : State) (id : Nat) (hk : Keeps A s₀ s)
    (hA : A.covers State.restartRun_sites) :
    Keeps A s₀ (State.restartRun s id) := by
  simp [State.restartRun_sites] at hA
  unfold State.restartRun
  repeat' (first
    | (intro x; clear_value x)
    | (split <;> try lift_lets))
  all_goals first | (simp (maxDischargeDepth := 99) +contextual [*]; done) | simp_all (maxDischargeDepth := 99) +contextual

def State.retirePage_sites : List Site :=
  State.lockstepFault_sites ++ State.restartRun_sites ++ State.retireToSpare_sites ++ State.startRebuild_sites ++
    State.uncovered_sites ++ [.part .prot]

@[simp ↓] theorem State.retirePage_keeps {A : Scope} {s₀ : State} (s : State) (die : Nat) (page : Nat) (holds : PageHolds) (good : Bool) (hk : Keeps A s₀ s)
    (hA : A.covers State.retirePage_sites) :
    Keeps A s₀ (State.retirePage s die page holds good) := by
  simp [State.retirePage_sites] at hA
  unfold State.retirePage
  repeat' (first
    | (intro x; first
        | (have hx : Keeps A s₀ x := by
             subst x
             repeat' split
             all_goals first | with_reducible assumption | (simp (maxDischargeDepth := 99) +contextual [*]; done) | simp_all (maxDischargeDepth := 99) +contextual
           clear_value x)
        | clear_value x)
    | (split <;> try lift_lets))
  all_goals first | (simp (maxDischargeDepth := 99) +contextual [*]; done) | simp_all (maxDischargeDepth := 99) +contextual

def State.remapGranule_sites : List Site :=
  State.memEvent_sites ++ State.retirePage_sites ++ [.one R.MEM_EVENTS, .one R.MEM_REMAP_STATUS, .one R.MEM_STATUS, .part
    .prot]

@[simp ↓] theorem State.remapGranule_keeps {A : Scope} {s₀ : State} (s : State) (die : Nat) (page : Nat) (granule : Nat) (holds : PageHolds) (hk : Keeps A s₀ s)
    (hA : A.covers State.remapGranule_sites) :
    Keeps A s₀ (State.remapGranule s die page granule holds) := by
  simp [State.remapGranule_sites] at hA
  simp (maxDischargeDepth := 99) [State.remapGranule, hk, hA]

def State.wordCorrected_sites : List Site :=
  State.lastMemError_sites ++ State.remapGranule_sites ++ [.each R.MEM_ERR, .one R.MEM_EVENTS, .part .prot]

@[simp ↓] theorem State.wordCorrected_keeps {A : Scope} {s₀ : State} (die : Nat) (page : Nat) (holds : PageHolds) (s : State) (granule : Nat) (hk : Keeps A s₀ s)
    (hA : A.covers State.wordCorrected_sites) :
    Keeps A s₀ (State.wordCorrected die page holds s granule) := by
  simp [State.wordCorrected_sites] at hA
  simp (maxDischargeDepth := 99) [State.wordCorrected, hk, hA]

def State.wordLost_sites : List Site :=
  State.lastMemError_sites ++ State.memEvent_sites ++ State.remapGranule_sites ++ [.each R.MEM_ERR, .one R.MEM_EVENTS]

@[simp ↓] theorem State.wordLost_keeps {A : Scope} {s₀ : State} (die : Nat) (page : Nat) (holds : PageHolds) (s : State) (granule : Nat) (hk : Keeps A s₀ s)
    (hA : A.covers State.wordLost_sites) :
    Keeps A s₀ (State.wordLost die page holds s granule) := by
  simp [State.wordLost_sites] at hA
  simp (maxDischargeDepth := 99) [State.wordLost, hk, hA]

def State.scrubAt_sites : List Site := [.one R.MEM_STATUS, .part .prot]

@[simp ↓] theorem State.scrubAt_keeps {A : Scope} {s₀ : State} (s : State) (die : Nat) (page : Nat) (hk : Keeps A s₀ s)
    (hA : A.covers State.scrubAt_sites) :
    Keeps A s₀ (State.scrubAt s die page) := by
  simp [State.scrubAt_sites] at hA
  simp (maxDischargeDepth := 99) [State.scrubAt, hk, hA]

def State.scrubBusy_sites : List Site := [.one R.MEM_STATUS]

@[simp ↓] theorem State.scrubBusy_keeps {A : Scope} {s₀ : State} (s : State) (hk : Keeps A s₀ s)
    (hA : A.covers State.scrubBusy_sites) :
    Keeps A s₀ (State.scrubBusy s) := by
  simp [State.scrubBusy_sites] at hA
  simp (maxDischargeDepth := 99) [State.scrubBusy, hk, hA]

def execMemoryScrubRead_sites : List Site :=
  State.scrubAt_sites ++ State.scrubBusy_sites ++ State.wordCorrected_sites ++ State.wordLost_sites ++ [.part .prot]

theorem execMemoryScrubRead_keeps {A : Scope} (die : Nat) (page : Nat) (corrected : List Nat) (uncorrectable : List Nat) (codeOk : Bool) (holds : PageHolds) (s : State)
    (hA : A.covers execMemoryScrubRead_sites) : KeepsOut A s (execMemoryScrubRead die page corrected uncorrectable codeOk holds s) := by
  simp [execMemoryScrubRead_sites] at hA
  have hk := Keeps.refl A s
  unfold execMemoryScrubRead
  repeat' (first
    | (intro x; clear_value x))
  all_goals first | (simp (maxDischargeDepth := 99) +contextual [*]; done) | simp_all (maxDischargeDepth := 99) +contextual

def execPageDecodeDone_sites : List Site :=
  State.lastMemError_sites ++ State.memEvent_sites ++ State.retirePage_sites ++ State.scrubBusy_sites ++ [.one R.MEM_EVENTS,
    .each R.MEM_PAGE, .part .prot]

theorem execPageDecodeDone_keeps {A : Scope} (die : Nat) (page : Nat) (symbolErrors : Nat) (holds : PageHolds) (s : State)
    (hA : A.covers execPageDecodeDone_sites) : KeepsOut A s (execPageDecodeDone die page symbolErrors holds s) := by
  simp [execPageDecodeDone_sites] at hA
  have hk := Keeps.refl A s
  unfold execPageDecodeDone
  repeat' (first
    | (intro x; first
        | (have hx : Keeps A s x := by
             subst x
             repeat' split
             all_goals first | with_reducible assumption | (simp (maxDischargeDepth := 99) +contextual [*]; done) | simp_all (maxDischargeDepth := 99) +contextual
           clear_value x)
        | clear_value x)
    | (split <;> try lift_lets))
  all_goals first | (simp (maxDischargeDepth := 99) +contextual [*]; done) | simp_all (maxDischargeDepth := 99) +contextual

def State.swapPage_sites : List Site := State.transferSet_sites

@[simp ↓] theorem State.swapPage_keeps {A : Scope} {s₀ : State} (s : State) (c : Nat) (hk : Keeps A s₀ s)
    (hA : A.covers State.swapPage_sites) :
    Keeps A s₀ (State.swapPage s c) := by
  simp [State.swapPage_sites] at hA
  simp (maxDischargeDepth := 99) [State.swapPage, hk, hA]

def State.repairAborts_sites : List Site := [.one R.MEM_EVENTS]

@[simp ↓] theorem State.repairAborts_keeps {A : Scope} {s₀ : State} (s : State) (hk : Keeps A s₀ s)
    (hA : A.covers State.repairAborts_sites) :
    Keeps A s₀ (State.repairAborts s) := by
  simp [State.repairAborts_sites] at hA
  simp (maxDischargeDepth := 99) [State.repairAborts, hk, hA]

def State.postRepair_sites : List Site :=
  State.addReads_sites ++ State.bufferRetired_sites ++ State.loseWrite_sites ++ State.modSlot_sites ++ State.pullClean_sites
    ++ State.reclaim_sites ++ State.repairAborts_sites ++ State.swapPage_sites ++ State.transfer_sites ++
    State.uncovered_sites

@[simp ↓] theorem State.postRepair_keeps {A : Scope} {s₀ : State} (s : State) (r : PageRepair) (hk : Keeps A s₀ s)
    (hA : A.covers State.postRepair_sites) :
    KeepsOpt A (fun t => t) s₀ (State.postRepair s r) := by
  simp [State.postRepair_sites] at hA
  unfold State.postRepair
  repeat' (first
    | (intro x; first
        | (have hx : Keeps A s₀ x := by
             subst x
             repeat' split
             all_goals first | with_reducible assumption | (simp (maxDischargeDepth := 99) +contextual [*]; done) | simp_all (maxDischargeDepth := 99) +contextual
           clear_value x)
        | clear_value x)
    | (split <;> try lift_lets))
  all_goals first | (simp (maxDischargeDepth := 99) +contextual [*]; done) | simp_all (maxDischargeDepth := 99) +contextual

def execRepairPost_sites : List Site := State.postRepair_sites ++ [.part .prot]

theorem execRepairPost_keeps {A : Scope} (s : State)
    (hA : A.covers execRepairPost_sites) : KeepsOut A s (execRepairPost s) := by
  simp [execRepairPost_sites] at hA
  have hk := Keeps.refl A s
  unfold execRepairPost
  repeat' (first
    | (intro x; clear_value x)
    | (generalize he : State.postRepair _ _ = p
       have hp : KeepsOpt A (fun t => t) s p := by
         subst he; exact State.postRepair_keeps _ _ (by first | with_reducible assumption | simp (maxDischargeDepth := 99) +contextual [*]) (by first | assumption | simp [*])
       clear he
       rcases p with _ | p
       rotate_left 1
       replace hp : Keeps A s p := hp p rfl)
    | (split <;> try lift_lets))
  all_goals first | (simp (maxDischargeDepth := 99) +contextual [*]; done) | simp_all (maxDischargeDepth := 99) +contextual

def State.sramLost_sites : List Site :=
  State.faultSlice_sites ++ State.internalFault_sites ++ State.setCfs_sites ++ State.startRebuild_sites ++
    State.uncovered_sites ++ [.one R.SRM_EVENTS, .part .pairs, .part .bus]

@[simp ↓] theorem State.sramLost_keeps {A : Scope} {s₀ : State} (s : State) (a : SramContents) (hk : Keeps A s₀ s)
    (hA : A.covers State.sramLost_sites) :
    Keeps A s₀ (State.sramLost s a) := by
  simp [State.sramLost_sites] at hA
  unfold State.sramLost
  repeat' (first
    | (intro x; first
        | (have hx : Keeps A s₀ x := by
             subst x
             repeat' split
             all_goals first | with_reducible assumption | (simp (maxDischargeDepth := 99) +contextual [*]; done) | simp_all (maxDischargeDepth := 99) +contextual
           clear_value x)
        | clear_value x)
    | (split <;> try lift_lets))
  all_goals first | (simp (maxDischargeDepth := 99) +contextual [*]; done) | simp_all (maxDischargeDepth := 99) +contextual

def execSramPatrol_sites : List Site := State.sramLost_sites ++ [.one R.SRM_ERR, .one R.SRM_EVENTS, .one R.SRM_LAST_ERR]

theorem execSramPatrol_keeps {A : Scope} (offset : Nat) (corrected : Bool) (uncorrectable : Option SramContents) (s : State)
    (hA : A.covers execSramPatrol_sites) : KeepsOut A s (execSramPatrol offset corrected uncorrectable s) := by
  simp [execSramPatrol_sites] at hA
  have hk := Keeps.refl A s
  unfold execSramPatrol
  repeat' (first
    | (intro x; clear_value x)
    | (split <;> try lift_lets))
  all_goals first | (simp (maxDischargeDepth := 99) +contextual [*]; done) | simp_all (maxDischargeDepth := 99) +contextual

def State.journalPending_sites : List Site := State.journalOne_sites

@[simp ↓] theorem State.journalPending_keeps {A : Scope} {s₀ : State} (s : State) (k : Nat) (hk : Keeps A s₀ s)
    (hA : A.covers State.journalPending_sites) :
    Keeps A s₀ (State.journalPending s k) := by
  simp [State.journalPending_sites] at hA
  unfold State.journalPending
  repeat' (first
    | (intro x; clear_value x))
  all_goals first | (simp (maxDischargeDepth := 99) +contextual [*]; done) | simp_all (maxDischargeDepth := 99) +contextual

def execLeafRebuildDone_sites : List Site := State.endRebuild_sites ++ State.journalPending_sites

theorem execLeafRebuildDone_keeps {A : Scope} (leaf : Nat) (s : State)
    (hA : A.covers execLeafRebuildDone_sites) : KeepsOut A s (execLeafRebuildDone leaf s) := by
  simp [execLeafRebuildDone_sites] at hA
  simp (maxDischargeDepth := 99) [execLeafRebuildDone, hA]

end Sys2Proof.Machine
end

