-- ==== Sys2Proof/Laws/KeepsCipher.lean ====
section
/-!
SUPPORT. Sys2Proof/Laws/KeepsCipher.lean: the operations and meanings of Machine/Cipher.lean keep (Laws/Keeps.lean).
-/

set_option linter.all false
set_option Elab.async false

namespace Sys2Proof.Machine

def State.modKeySlot_sites : List Site := [.part .cip]

@[simp ↓] theorem State.modKeySlot_keeps {A : Scope} {s₀ : State} (s : State) (k : Nat) (f : KeySlot → KeySlot) (hk : Keeps A s₀ s)
    (hA : A.covers State.modKeySlot_sites) :
    Keeps A s₀ (State.modKeySlot s k f) := by
  simp [State.modKeySlot_sites] at hA
  simp (maxDischargeDepth := 99) [State.modKeySlot, hk, hA]

def State.modThread_sites : List Site := [.part .cip]

@[simp ↓] theorem State.modThread_keeps {A : Scope} {s₀ : State} (s : State) (th : Nat) (f : HookThread → HookThread) (hk : Keeps A s₀ s)
    (hA : A.covers State.modThread_sites) :
    Keeps A s₀ (State.modThread s th f) := by
  simp [State.modThread_sites] at hA
  simp (maxDischargeDepth := 99) [State.modThread, hk, hA]

def State.loadBank_sites : List Site := State.modKeySlot_sites

@[simp ↓] theorem State.loadBank_keeps {A : Scope} {s₀ : State} (s : State) (k : Nat) (b : Bank) (hk : Keeps A s₀ s)
    (hA : A.covers State.loadBank_sites) :
    KeepsOpt A (fun t => t) s₀ (State.loadBank s k b) := by
  simp [State.loadBank_sites] at hA
  simp (maxDischargeDepth := 99) [State.loadBank, hk, hA]

def execBankDrainEnd_sites : List Site := State.modKeySlot_sites

theorem execBankDrainEnd_keeps {A : Scope} (k : Nat) (s : State)
    (hA : A.covers execBankDrainEnd_sites) : KeepsOut A s (execBankDrainEnd k s) := by
  simp [execBankDrainEnd_sites] at hA
  simp (maxDischargeDepth := 99) [execBankDrainEnd, hA]

def State.dropThread_sites : List Site := [.part .cip]

@[simp ↓] theorem State.dropThread_keeps {A : Scope} {s₀ : State} (s : State) (th : Nat) (hk : Keeps A s₀ s)
    (hA : A.covers State.dropThread_sites) :
    Keeps A s₀ (State.dropThread s th) := by
  simp [State.dropThread_sites] at hA
  simp (maxDischargeDepth := 99) [State.dropThread, hk, hA]

def State.dropWorkOf_sites : List Site := State.dropThread_sites ++ [.part .cip]

@[simp ↓] theorem State.dropWorkOf_keeps {A : Scope} {s₀ : State} (s : State) (op : Nat) (begun : Bool) (hk : Keeps A s₀ s)
    (hA : A.covers State.dropWorkOf_sites) :
    Keeps A s₀ (State.dropWorkOf s op begun) := by
  simp [State.dropWorkOf_sites] at hA
  unfold State.dropWorkOf
  repeat' (first
    | with_reducible assumption
    | (intro x; first
        | (refine (?_ : Keeps A s₀ x → _) ?_
           all_goals first | (intro hx; clear_value x) | subst x)
        | (have hx : ∀ b, Keeps A s₀ b → Keeps A s₀ (x b) := by
             intro _ hb; subst x; first | (simp (maxDischargeDepth := 99) [*]; done) | (simp only []; repeat' split) <;> simp (maxDischargeDepth := 99) [*]
           clear_value x))
    | with_reducible refine keeps_foldl (fun s x hs => ?_) _ ?_
    | with_reducible refine State.dropThread_keeps _ _ ?_ (by first | assumption | simp [*])
    | with_reducible refine State.modCip_keeps _ _ ?_ (by first | assumption | simp [*])
    | (split <;> try lift_lets -underBinder))

def State.endJob_sites : List Site := [.part .cip]

@[simp ↓] theorem State.endJob_keeps {A : Scope} {s₀ : State} (s : State) (result : Nat) (hk : Keeps A s₀ s)
    (hA : A.covers State.endJob_sites) :
    Keeps A s₀ (State.endJob s result) := by
  simp [State.endJob_sites] at hA
  simp (maxDischargeDepth := 99) [State.endJob, hk, hA]

def State.rereadOp_sites : List Site := State.readAgain_sites

@[simp ↓] theorem State.rereadOp_keeps {A : Scope} {s₀ : State} (s : State) (o : MediaOp) (hk : Keeps A s₀ s)
    (hA : A.covers State.rereadOp_sites) :
    Keeps A s₀ (State.rereadOp s o) := by
  simp [State.rereadOp_sites] at hA
  unfold State.rereadOp
  repeat' (first
    | with_reducible assumption
    | (intro x; first
        | (refine (?_ : Keeps A s₀ x → _) ?_
           all_goals first | (intro hx; clear_value x) | subst x)
        | (have hx : ∀ b, Keeps A s₀ b → Keeps A s₀ (x b) := by
             intro _ hb; subst x; first | (simp (maxDischargeDepth := 99) [*]; done) | (simp only []; repeat' split) <;> simp (maxDischargeDepth := 99) [*]
           clear_value x))
    | with_reducible refine keeps_foldl (fun s x hs => ?_) _ ?_
    | with_reducible refine State.readAgain_keeps _ _ _ ?_ (by first | assumption | simp [*])
    | (split <;> try lift_lets -underBinder))

def State.refuseWork_sites : List Site :=
  State.dropWorkOf_sites ++ State.endJob_sites ++ State.modOp_sites ++ State.rereadOp_sites ++ State.withdraw_sites

@[simp ↓] theorem State.refuseWork_keeps {A : Scope} {s₀ : State} (s : State) (op : Nat) (hk : Keeps A s₀ s)
    (hA : A.covers State.refuseWork_sites) :
    Keeps A s₀ (State.refuseWork s op) := by
  simp [State.refuseWork_sites] at hA
  unfold State.refuseWork
  repeat' (first
    | (intro x; first
        | (have hx : Keeps A s₀ x := by
             subst x
             repeat' split
             all_goals first | with_reducible assumption | (simp (maxDischargeDepth := 99) +contextual [*]; done) | simp_all (maxDischargeDepth := 99) +contextual
           clear_value x)
        | clear_value x)
    | (split <;> try lift_lets))
  all_goals first | (simp (maxDischargeDepth := 99) +contextual [*]; done) | simp_all (maxDischargeDepth := 99) +contextual

def State.keyErased_sites : List Site :=
  State.dropWorkOf_sites ++ State.endJob_sites ++ State.failSector_sites ++ State.modOp_sites ++ State.modSlot_sites ++
    State.rereadOp_sites ++ State.sendPoison_sites ++ State.withdraw_sites ++ [.part .flow]

@[simp ↓] theorem State.keyErased_keeps {A : Scope} {s₀ : State} (s : State) (op : Nat) (hk : Keeps A s₀ s)
    (hA : A.covers State.keyErased_sites) :
    Keeps A s₀ (State.keyErased s op) := by
  simp [State.keyErased_sites] at hA
  unfold State.keyErased
  repeat' (first
    | (intro x; first
        | (have hx : Keeps A s₀ x := by
             subst x
             repeat' split
             all_goals first | with_reducible assumption | (simp (maxDischargeDepth := 99) +contextual [*]; done) | simp_all (maxDischargeDepth := 99) +contextual
           clear_value x)
        | clear_value x)
    | (split <;> try lift_lets))
  all_goals first | (simp (maxDischargeDepth := 99) +contextual [*]; done) | simp_all (maxDischargeDepth := 99) +contextual

def State.eraseKeySlot_sites : List Site := State.keyErased_sites ++ State.modKeySlot_sites ++ [.one R.CIP_EVENTS]

@[simp ↓] theorem State.eraseKeySlot_keeps {A : Scope} {s₀ : State} (s : State) (k : Nat) (hk : Keeps A s₀ s)
    (hA : A.covers State.eraseKeySlot_sites) :
    Keeps A s₀ (State.eraseKeySlot s k) := by
  simp [State.eraseKeySlot_sites] at hA
  unfold State.eraseKeySlot
  repeat' (first
    | (intro x; clear_value x))
  all_goals first | (simp (maxDischargeDepth := 99) +contextual [*]; done) | simp_all (maxDischargeDepth := 99) +contextual

def State.eraseKeySlots_sites : List Site := State.eraseKeySlot_sites

@[simp ↓] theorem State.eraseKeySlots_keeps {A : Scope} {s₀ : State} (s : State) (p : Nat → Bool) (hk : Keeps A s₀ s)
    (hA : A.covers State.eraseKeySlots_sites) :
    Keeps A s₀ (State.eraseKeySlots s p) := by
  simp [State.eraseKeySlots_sites] at hA
  unfold State.eraseKeySlots
  repeat' (first
    | (intro x; clear_value x))
  all_goals first | (simp (maxDischargeDepth := 99) +contextual [*]; done) | simp_all (maxDischargeDepth := 99) +contextual

def execKeySlotErase_sites : List Site := State.eraseKeySlot_sites

theorem execKeySlotErase_keeps {A : Scope} (s : State)
    (hA : A.covers execKeySlotErase_sites) : KeepsOut A s (execKeySlotErase s) := by
  simp [execKeySlotErase_sites] at hA
  simp (maxDischargeDepth := 99) [execKeySlotErase, hA]

def execTestkeyLoad_sites : List Site := State.loadBank_sites ++ [.one R.CIP_EVENTS, .part .cip]

theorem execTestkeyLoad_keeps {A : Scope} (alg : Nat) (mode : Nat) (k : Nat) (s : State)
    (hA : A.covers execTestkeyLoad_sites) : KeepsOut A s (execTestkeyLoad alg mode k s) := by
  simp [execTestkeyLoad_sites] at hA
  have hk := Keeps.refl A s
  unfold execTestkeyLoad
  repeat' (first
    | (intro x; clear_value x)
    | (generalize he : State.loadBank _ _ _ = p
       have hp : KeepsOpt A (fun t => t) s p := by
         subst he; exact State.loadBank_keeps _ _ _ (by first | with_reducible assumption | simp (maxDischargeDepth := 99) +contextual [*]) (by first | assumption | simp [*])
       clear he
       rcases p with _ | p
       rotate_left 1
       replace hp : Keeps A s p := hp p rfl)
    | (split <;> try lift_lets))
  all_goals first | (simp (maxDischargeDepth := 99) +contextual [*]; done) | simp_all (maxDischargeDepth := 99) +contextual

def State.postTokens_sites : List Site := State.transfer_sites ++ [.part .cip]

@[simp ↓] theorem State.postTokens_keeps {A : Scope} {s₀ : State} (s : State) (c : Nat) (hk : Keeps A s₀ s)
    (hA : A.covers State.postTokens_sites) :
    Keeps A s₀ (State.postTokens s c) := by
  simp [State.postTokens_sites] at hA
  simp (maxDischargeDepth := 99) [State.postTokens, hk, hA]

def execTokenPost_sites : List Site := State.postTokens_sites

theorem execTokenPost_keeps {A : Scope} (s : State)
    (hA : A.covers execTokenPost_sites) : KeepsOut A s (execTokenPost s) := by
  simp [execTokenPost_sites] at hA
  have hk := Keeps.refl A s
  unfold execTokenPost
  repeat' (first
    | (intro x; clear_value x))
  all_goals first | (simp (maxDischargeDepth := 99) +contextual [*]; done) | simp_all (maxDischargeDepth := 99) +contextual

def State.requeueThread_sites : List Site := State.dropThread_sites ++ [.part .cip]

@[simp ↓] theorem State.requeueThread_keeps {A : Scope} {s₀ : State} (s : State) (th : Nat) (hk : Keeps A s₀ s)
    (hA : A.covers State.requeueThread_sites) :
    Keeps A s₀ (State.requeueThread s th) := by
  simp [State.requeueThread_sites] at hA
  unfold State.requeueThread
  repeat' (first
    | (intro x; clear_value x)
    | (split <;> try lift_lets))
  all_goals first | (simp (maxDischargeDepth := 99) +contextual [*]; done) | simp_all (maxDischargeDepth := 99) +contextual

def State.faultCore_sites : List Site :=
  State.event_sites ++ State.postTokens_sites ++ State.requeueThread_sites ++ State.transfer_sites ++ [.one R.CIP_EVENTS, .one
    R.CIP_STATUS, .part .cip]

@[simp ↓] theorem State.faultCore_keeps {A : Scope} {s₀ : State} (s : State) (c : Nat) (hk : Keeps A s₀ s)
    (hA : A.covers State.faultCore_sites) :
    Keeps A s₀ (State.faultCore s c) := by
  simp [State.faultCore_sites] at hA
  simp (maxDischargeDepth := 99) [State.faultCore, hk, hA]

def execCipherCoreFault_sites : List Site := State.faultCore_sites

theorem execCipherCoreFault_keeps {A : Scope} (c : Nat) (s : State)
    (hA : A.covers execCipherCoreFault_sites) : KeepsOut A s (execCipherCoreFault c s) := by
  simp [execCipherCoreFault_sites] at hA
  simp (maxDischargeDepth := 99) [execCipherCoreFault, hA]

def execBlockReturn_sites : List Site := State.modThread_sites ++ [.part .cip]

theorem execBlockReturn_keeps {A : Scope} (c : Nat) (s : State)
    (hA : A.covers execBlockReturn_sites) : KeepsOut A s (execBlockReturn c s) := by
  simp [execBlockReturn_sites] at hA
  have hk := Keeps.refl A s
  unfold execBlockReturn
  repeat' (first
    | (intro x; first
        | (have hx : Keeps A s x := by
             subst x
             repeat' split
             all_goals first | with_reducible assumption | (simp (maxDischargeDepth := 99) +contextual [*]; done) | simp_all (maxDischargeDepth := 99) +contextual
           clear_value x)
        | clear_value x)
    | (split <;> try lift_lets))
  all_goals first | (simp (maxDischargeDepth := 99) +contextual [*]; done) | simp_all (maxDischargeDepth := 99) +contextual

def execCipherEnable_sites : List Site := [.one R.CIP_CTRL, .one R.CIP_STATUS]

theorem execCipherEnable_keeps {A : Scope} (s : State)
    (hA : A.covers execCipherEnable_sites) : KeepsOut A s (execCipherEnable s) := by
  simp [execCipherEnable_sites] at hA
  simp (maxDischargeDepth := 99) [execCipherEnable, hA]

def execKatDone_sites : List Site := State.faultCore_sites ++ [.one R.CIP_CTRL, .one R.CIP_EVENTS, .one R.CIP_STATUS]

theorem execKatDone_keeps {A : Scope} (passed : Nat) (s : State)
    (hA : A.covers execKatDone_sites) : KeepsOut A s (execKatDone passed s) := by
  simp [execKatDone_sites] at hA
  have hk := Keeps.refl A s
  unfold execKatDone
  repeat' (first
    | (intro x; clear_value x))
  all_goals first | (simp (maxDischargeDepth := 99) +contextual [*]; done) | simp_all (maxDischargeDepth := 99) +contextual

def execCipherDisable_sites : List Site := State.refuseWork_sites ++ [.one R.CIP_CTRL, .one R.CIP_STATUS, .part .cip]

theorem execCipherDisable_keeps {A : Scope} (s : State)
    (hA : A.covers execCipherDisable_sites) : KeepsOut A s (execCipherDisable s) := by
  simp [execCipherDisable_sites] at hA
  have hk := Keeps.refl A s
  unfold execCipherDisable
  repeat' (first
    | (intro x; clear_value x))
  all_goals first | (simp (maxDischargeDepth := 99) +contextual [*]; done) | simp_all (maxDischargeDepth := 99) +contextual

def execCipherDrained_sites : List Site := [.one R.CIP_EVENTS, .one R.CIP_STATUS]

theorem execCipherDrained_keeps {A : Scope} (s : State)
    (hA : A.covers execCipherDrained_sites) : KeepsOut A s (execCipherDrained s) := by
  simp [execCipherDrained_sites] at hA
  simp (maxDischargeDepth := 99) [execCipherDrained, hA]

def execHookDataWrite_sites : List Site := [.one R.CIP_EVENTS, .one R.CIP_HOOK_ADDR, .one R.CIP_HOOK_CRC, .part .cip]

theorem execHookDataWrite_keeps {A : Scope} (v : Word) (s : State)
    (hA : A.covers execHookDataWrite_sites) : KeepsOut A s (execHookDataWrite v s) := by
  simp [execHookDataWrite_sites] at hA
  simp (maxDischargeDepth := 99) [execHookDataWrite, hA]

def execHookBindWrite_sites : List Site := [.one R.CIP_EVENTS, .one R.CIP_HOOK_BIND]

theorem execHookBindWrite_keeps {A : Scope} (v : Word) (s : State)
    (hA : A.covers execHookBindWrite_sites) : KeepsOut A s (execHookBindWrite v s) := by
  simp [execHookBindWrite_sites] at hA
  simp (maxDischargeDepth := 99) [execHookBindWrite, hA]

def State.hookBegin_sites : List Site :=
  State.modKeySlot_sites ++ State.modThread_sites ++ State.refuseWork_sites ++ State.requireRewrite_sites ++ [.one
    R.CIP_EVENTS, .part .cip]

@[simp ↓] theorem State.hookBegin_keeps {A : Scope} {s₀ : State} (s : State) (th : Nat) (hk : Keeps A s₀ s)
    (hA : A.covers State.hookBegin_sites) :
    Keeps A s₀ (State.hookBegin s th) := by
  simp [State.hookBegin_sites] at hA
  unfold State.hookBegin
  try lift_lets -underBinder
  repeat' (first
    | with_reducible assumption
    | (intro x; first
        | (refine (?_ : Keeps A s₀ x → _) ?_
           all_goals first | (intro hx; clear_value x) | subst x)
        | (have hx : ∀ b, Keeps A s₀ b → Keeps A s₀ (x b) := by
             intro _ hb; subst x; first | (simp (maxDischargeDepth := 99) [*]; done) | (simp only []; repeat' split) <;> simp (maxDischargeDepth := 99) [*]
           clear_value x))
    | with_reducible refine keeps_ite ?_ ?_
    | with_reducible refine State.requireRewrite_keeps _ _ ?_ (by first | assumption | simp [*])
    | with_reducible refine State.refuseWork_keeps _ _ ?_ (by first | assumption | simp [*])
    | with_reducible refine State.modKeySlot_keeps _ _ _ ?_ (by first | assumption | simp [*])
    | with_reducible refine State.modCip_keeps _ _ ?_ (by first | assumption | simp [*])
    | with_reducible refine State.modThread_keeps _ _ _ ?_ (by first | assumption | simp [*])
    | with_reducible refine State.flag_keeps _ _ ?_ (by first | assumption | simp [*])
    | (split <;> try lift_lets -underBinder))

def State.hookInstr_sites : List Site := State.hookBegin_sites

theorem State.hookInstr_keeps {A : Scope} {s₀ : State} (s : State) (th : Nat) (mine : Nat → Bool)
    (act : State → CipherWork → HookThread → Word → Option State)
    (ha : ∀ t w x i, Keeps A s₀ t → KeepsOpt A (fun t => t) s₀ (act t w x i)) (hk : Keeps A s₀ s)
    (hA : A.covers State.hookInstr_sites) : Keeps A s₀ (s.hookInstr th mine act) := by
  simp [State.hookInstr_sites] at hA
  have ht : Keeps A s₀ (if (s.thread th).work.isNone then s.hookBegin th else s) := keeps_ite (State.hookBegin_keeps _ _ hk (by first | assumption | simp [*])) hk
  unfold State.hookInstr
  generalize (if (s.thread th).work.isNone then s.hookBegin th else s) = t at ht
  dsimp only
  split
  · exact ht
  · next w _ =>
    refine keeps_ite ?_ hk
    have h := ha t w (t.thread th) (t.cip.program.getD (t.thread th).pc 0) ht
    cases hx : act t w (t.thread th) (t.cip.program.getD (t.thread th).pc 0) with
    | none => exact hk
    | some u => exact h u hx

def State.hookCompute_sites : List Site := State.hookInstr_sites ++ State.modThread_sites

@[simp ↓] theorem State.hookCompute_keeps {A : Scope} {s₀ : State} (s : State) (th : Nat) (op : Nat) (f : HookThread → Word → Option (BitVec 128)) (hk : Keeps A s₀ s)
    (hA : A.covers State.hookCompute_sites) :
    Keeps A s₀ (State.hookCompute s th op f) := by
  simp [State.hookCompute_sites] at hA
  unfold State.hookCompute
  repeat' (first
    | with_reducible assumption
    | (intro x; first
        | (refine (?_ : Keeps A s₀ x → _) ?_
           all_goals first | (intro hx; clear_value x) | subst x)
        | (have hx : ∀ b, Keeps A s₀ b → Keeps A s₀ (x b) := by
             intro _ hb; subst x; first | (simp (maxDischargeDepth := 99) [*]; done) | (simp only []; repeat' split) <;> simp (maxDischargeDepth := 99) [*]
           clear_value x))
    | with_reducible exact keepsOpt_none
    | with_reducible refine keepsOpt_some ?_
    | with_reducible refine State.modThread_keeps _ _ _ ?_ (by first | assumption | simp [*])
    | with_reducible refine State.hookInstr_keeps _ _ _ _ (fun s w t i hs => ?_) ?_ (by first | assumption | simp [*])
    | (split <;> try lift_lets -underBinder))

def execHookLdi_sites : List Site := State.draw_sites ++ State.hookInstr_sites ++ State.modThread_sites

theorem execHookLdi_keeps {A : Scope} (th : Nat) (s : State)
    (hA : A.covers execHookLdi_sites) : KeepsOut A s (execHookLdi th s) := by
  simp [execHookLdi_sites] at hA
  have hk := Keeps.refl A s
  unfold execHookLdi
  repeat' (first
    | with_reducible assumption
    | (generalize he : State.draw _ = p
       fail_if_success clear he p
       have hp : Keeps A s p.2 := by subst he; first | with_reducible assumption | simp (maxDischargeDepth := 99) +contextual [*]
       clear he
       obtain ⟨_, _⟩ := p)
    | (intro x; first
        | (refine (?_ : Keeps A s x → _) ?_
           all_goals first | (intro hx; clear_value x) | subst x)
        | (have hx : ∀ b, Keeps A s b → Keeps A s (x b) := by
             intro _ hb; subst x; first | (simp (maxDischargeDepth := 99) [*]; done) | (simp only []; repeat' split) <;> simp (maxDischargeDepth := 99) [*]
           clear_value x))
    | with_reducible refine keepsOut_next.2 ?_
    | with_reducible exact keepsOpt_none
    | with_reducible refine keepsOpt_some ?_
    | with_reducible refine State.modThread_keeps _ _ _ ?_ (by first | assumption | simp [*])
    | with_reducible refine State.hookInstr_keeps _ _ _ _ (fun u _ v _ hu => ?_) ?_ (by first | assumption | simp [*])
    | (split <;> try lift_lets -underBinder))

def State.countUse_sites : List Site := State.modKeySlot_sites

@[simp ↓] theorem State.countUse_keeps {A : Scope} {s₀ : State} (s : State) (w : CipherWork) (first : Bool) (hk : Keeps A s₀ s)
    (hA : A.covers State.countUse_sites) :
    Keeps A s₀ (State.countUse s w first) := by
  simp [State.countUse_sites] at hA
  simp (maxDischargeDepth := 99) [State.countUse, hk, hA]

def State.reserveUse_sites : List Site := State.modKeySlot_sites ++ [.part .cip]

@[simp ↓] theorem State.reserveUse_keeps {A : Scope} {s₀ : State} (s : State) (w : CipherWork) (hk : Keeps A s₀ s)
    (hA : A.covers State.reserveUse_sites) :
    Keeps A s₀ (State.reserveUse s w) := by
  simp [State.reserveUse_sites] at hA
  unfold State.reserveUse
  try lift_lets
  repeat' (first
    | (intro x; first
        | (have hx : Keeps A s₀ x := by
             subst x
             repeat' split
             all_goals first | with_reducible assumption | (simp (maxDischargeDepth := 99) +contextual [*]; done) | simp_all (maxDischargeDepth := 99) +contextual
           clear_value x)
        | clear_value x)
    | (split <;> try lift_lets))
  all_goals first | (simp (maxDischargeDepth := 99) +contextual [*]; done) | simp_all (maxDischargeDepth := 99) +contextual

def State.hookBlock_sites : List Site :=
  State.countUse_sites ++ State.hookInstr_sites ++ State.modThread_sites ++ State.reserveUse_sites ++ [.part .cip]

@[simp ↓] theorem State.hookBlock_keeps {A : Scope} {s₀ : State} (s : State) (th : Nat) (op : Nat) (f : Nat → BitVec 256 → BitVec 128 → BitVec 128) (hk : Keeps A s₀ s)
    (hA : A.covers State.hookBlock_sites) :
    Keeps A s₀ (State.hookBlock s th op f) := by
  simp [State.hookBlock_sites] at hA
  unfold State.hookBlock
  repeat' (first
    | with_reducible assumption
    | (intro x; first
        | (refine (?_ : Keeps A s₀ x → _) ?_
           all_goals first | (intro hx; clear_value x) | subst x)
        | clear_value x)
    | with_reducible exact keepsOpt_none
    | with_reducible refine keepsOpt_some ?_
    | with_reducible refine State.countUse_keeps _ _ _ ?_ (by first | assumption | simp [*])
    | with_reducible refine State.modCip_keeps _ _ ?_ (by first | assumption | simp [*])
    | with_reducible refine State.modThread_keeps _ _ _ ?_ (by first | assumption | simp [*])
    | with_reducible refine State.reserveUse_keeps _ _ ?_ (by first | assumption | simp [*])
    | with_reducible refine State.hookInstr_keeps _ _ _ _ (fun s w t i hs => ?_) ?_ (by first | assumption | simp [*])
    | (split <;> try lift_lets -underBinder))

def execHookEnc_sites : List Site := State.hookBlock_sites

theorem execHookEnc_keeps {A : Scope} (th : Nat) (s : State)
    (hA : A.covers execHookEnc_sites) : KeepsOut A s (execHookEnc th s) := by
  simp [execHookEnc_sites] at hA
  simp (maxDischargeDepth := 99) [execHookEnc, hA]

def execHookDec_sites : List Site := State.hookBlock_sites

theorem execHookDec_keeps {A : Scope} (th : Nat) (s : State)
    (hA : A.covers execHookDec_sites) : KeepsOut A s (execHookDec th s) := by
  simp [execHookDec_sites] at hA
  simp (maxDischargeDepth := 99) [execHookDec, hA]

def execHookXor_sites : List Site := State.hookCompute_sites

theorem execHookXor_keeps {A : Scope} (th : Nat) (s : State)
    (hA : A.covers execHookXor_sites) : KeepsOut A s (execHookXor th s) := by
  simp [execHookXor_sites] at hA
  simp (maxDischargeDepth := 99) [execHookXor, hA]

def execHookGmul_sites : List Site := State.hookCompute_sites

theorem execHookGmul_keeps {A : Scope} (th : Nat) (s : State)
    (hA : A.covers execHookGmul_sites) : KeepsOut A s (execHookGmul th s) := by
  simp [execHookGmul_sites] at hA
  simp (maxDischargeDepth := 99) [execHookGmul, hA]

def execHookInc32_sites : List Site := State.hookCompute_sites

theorem execHookInc32_keeps {A : Scope} (th : Nat) (s : State)
    (hA : A.covers execHookInc32_sites) : KeepsOut A s (execHookInc32 th s) := by
  simp [execHookInc32_sites] at hA
  simp (maxDischargeDepth := 99) [execHookInc32, hA]

def execHookLen_sites : List Site := State.hookCompute_sites

theorem execHookLen_keeps {A : Scope} (th : Nat) (s : State)
    (hA : A.covers execHookLen_sites) : KeepsOut A s (execHookLen th s) := by
  simp [execHookLen_sites] at hA
  simp (maxDischargeDepth := 99) [execHookLen, hA]

def execHookOut_sites : List Site := State.hookInstr_sites ++ State.modSlot_sites ++ State.modThread_sites

theorem execHookOut_keeps {A : Scope} (th : Nat) (s : State)
    (hA : A.covers execHookOut_sites) : KeepsOut A s (execHookOut th s) := by
  simp [execHookOut_sites] at hA
  have hk := Keeps.refl A s
  unfold execHookOut
  repeat' (first
    | with_reducible assumption
    | (intro x; first
        | (refine (?_ : Keeps A s x → _) ?_
           all_goals first | (intro hx; clear_value x) | subst x)
        | (have hx : ∀ b, Keeps A s b → Keeps A s (x b) := by
             intro _ hb; subst x; first | (simp (maxDischargeDepth := 99) [*]; done) | (simp only []; repeat' split) <;> simp (maxDischargeDepth := 99) [*]
           clear_value x))
    | with_reducible refine keepsOut_next.2 ?_
    | with_reducible refine keepsOpt_map_of (fun v => ?_)
    | with_reducible refine State.modSlot_keeps _ _ _ ?_ (by first | assumption | simp [*])
    | with_reducible refine State.modThread_keeps _ _ _ ?_ (by first | assumption | simp [*])
    | with_reducible refine State.hookInstr_keeps _ _ _ _ (fun u _ v _ hu => ?_) ?_ (by first | assumption | simp [*])
    | lift_lets -underBinder
    | (split <;> try lift_lets -underBinder))

def State.poisonSector_sites : List Site :=
  State.failSector_sites ++ State.modSlot_sites ++ State.scrubNext_sites ++ State.sendPoison_sites ++ [.one R.CIP_COUNTS, .one
    R.CIP_EVENTS]

@[simp ↓] theorem State.poisonSector_keeps {A : Scope} {s₀ : State} (s : State) (x : Slot) (i : Nat) (blocks : Nat) (hk : Keeps A s₀ s)
    (hA : A.covers State.poisonSector_sites) :
    Keeps A s₀ (State.poisonSector s x i blocks) := by
  simp [State.poisonSector_sites] at hA
  simp (maxDischargeDepth := 99) [State.poisonSector, hk, hA]

def execHookTag_sites : List Site :=
  State.hookInstr_sites ++ State.modThread_sites ++ [.one R.CIP_COUNTS, .one R.CIP_EVENTS]

theorem execHookTag_keeps {A : Scope} (th : Nat) (s : State)
    (hA : A.covers execHookTag_sites) : KeepsOut A s (execHookTag th s) := by
  simp [execHookTag_sites] at hA
  have hk := Keeps.refl A s
  unfold execHookTag
  repeat' (first
    | with_reducible assumption
    | (intro x; first
        | (refine (?_ : Keeps A s x → _) ?_
           all_goals first | (intro hx; clear_value x) | subst x)
        | (have hx : ∀ b, Keeps A s b → Keeps A s (x b) := by
             intro _ hb; subst x; first | (simp (maxDischargeDepth := 99) [*]; done) | (simp only []; repeat' split) <;> simp (maxDischargeDepth := 99) [*]
           clear_value x))
    | with_reducible refine keepsOut_next.2 ?_
    | with_reducible refine keeps_ite ?_ ?_
    | with_reducible refine keepsOpt_map_of (fun v => ?_)
    | with_reducible refine State.count_keeps _ _ ?_ (by first | assumption | simp [*])
    | with_reducible refine State.modThread_keeps _ _ _ ?_ (by first | assumption | simp [*])
    | with_reducible refine State.flag_keeps _ _ ?_ (by first | assumption | simp [*])
    | with_reducible refine State.hookInstr_keeps _ _ _ _ (fun u _ v _ hu => ?_) ?_ (by first | assumption | simp [*]))

def execHookLoop_sites : List Site := State.hookInstr_sites ++ State.modThread_sites

theorem execHookLoop_keeps {A : Scope} (th : Nat) (s : State)
    (hA : A.covers execHookLoop_sites) : KeepsOut A s (execHookLoop th s) := by
  simp [execHookLoop_sites] at hA
  have hk := Keeps.refl A s
  unfold execHookLoop
  repeat' (first
    | with_reducible assumption
    | (intro x; first
        | (refine (?_ : Keeps A s x → _) ?_
           all_goals first | (intro hx; clear_value x) | subst x)
        | (have hx : ∀ b, Keeps A s b → Keeps A s (x b) := by
             intro _ hb; subst x; first | (simp (maxDischargeDepth := 99) [*]; done) | (simp only []; repeat' split) <;> simp (maxDischargeDepth := 99) [*]
           clear_value x))
    | with_reducible refine keepsOut_next.2 ?_
    | with_reducible refine keepsOpt_some ?_
    | with_reducible refine State.modThread_keeps _ _ _ ?_ (by first | assumption | simp [*])
    | with_reducible refine State.hookInstr_keeps _ _ _ _ (fun s w t i hs => ?_) ?_ (by first | assumption | simp [*]))

def State.unpin'_sites : List Site := State.modKeySlot_sites

@[simp ↓] theorem State.unpin'_keeps {A : Scope} {s₀ : State} (s : State) (w : CipherWork) (hk : Keeps A s₀ s)
    (hA : A.covers State.unpin'_sites) :
    Keeps A s₀ (State.unpin' s w) := by
  simp [State.unpin'_sites] at hA
  simp (maxDischargeDepth := 99) [State.unpin', hk, hA]

def State.plainSector_sites : List Site :=
  State.completeSlot_sites ++ State.landSector_sites ++ State.modSlot_sites ++ State.poisonSector_sites ++
    State.readFailed_sites ++ State.send_sites ++ State.settle_sites

@[simp ↓] theorem State.plainSector_keeps {A : Scope} {s₀ : State} (s : State) (w : CipherWork) (t : HookThread) (o : MediaOp) (hk : Keeps A s₀ s)
    (hA : A.covers State.plainSector_sites) :
    Keeps A s₀ (State.plainSector s w t o) := by
  simp [State.plainSector_sites] at hA
  unfold State.plainSector
  repeat' (first
    | (intro x; first
        | (have hx : Keeps A s₀ x := by
             subst x
             repeat' split
             all_goals first | with_reducible assumption | (simp (maxDischargeDepth := 99) +contextual [*]; done) | simp_all (maxDischargeDepth := 99) +contextual
           clear_value x)
        | clear_value x)
    | (split <;> try lift_lets))
  all_goals first | (simp (maxDischargeDepth := 99) +contextual [*]; done) | simp_all (maxDischargeDepth := 99) +contextual

def execHookEnd_sites : List Site :=
  State.dropThread_sites ++ State.endJob_sites ++ State.hookInstr_sites ++ State.modOp_sites ++ State.plainSector_sites ++
    State.unpin'_sites ++ [.part .prot, .part .sram, .part .dram]

theorem execHookEnd_keeps {A : Scope} (th : Nat) (s : State)
    (hA : A.covers execHookEnd_sites) : KeepsOut A s (execHookEnd th s) := by
  simp [execHookEnd_sites] at hA
  have hk := Keeps.refl A s
  unfold execHookEnd
  repeat' (first
    | with_reducible assumption
    | (intro x; first
        | (refine (?_ : Keeps A s x → _) ?_
           all_goals first | (intro hx; clear_value x) | subst x)
        | (have hx : ∀ b, Keeps A s b → Keeps A s (x b) := by
             intro _ hb; subst x; first | (simp (maxDischargeDepth := 99) [*]; done) | (simp only []; repeat' split) <;> simp (maxDischargeDepth := 99) [*]
           clear_value x))
    | with_reducible refine keepsOut_next.2 ?_
    | with_reducible refine keepsOpt_some ?_
    | with_reducible refine State.dropThread_keeps _ _ ?_ (by first | assumption | simp [*])
    | with_reducible refine State.modOp_keeps _ _ _ ?_ (by first | assumption | simp [*])
    | with_reducible refine State.unpin'_keeps _ _ ?_ (by first | assumption | simp [*])
    | with_reducible refine State.plainSector_keeps _ _ _ _ ?_ (by first | assumption | simp [*])
    | with_reducible refine State.store_keeps _ _ _ _ ?_ (by first | assumption | simp [*])
    | with_reducible refine State.endJob_keeps _ _ ?_ (by first | assumption | simp [*])
    | with_reducible refine State.hookInstr_keeps _ _ _ _ (fun s w t i hs => ?_) ?_ (by first | assumption | simp [*])
    | (split <;> try lift_lets -underBinder))

def execHookIllegalOp_sites : List Site := State.hookInstr_sites ++ State.requeueThread_sites ++ [.one R.CIP_EVENTS]

theorem execHookIllegalOp_keeps {A : Scope} (th : Nat) (s : State)
    (hA : A.covers execHookIllegalOp_sites) : KeepsOut A s (execHookIllegalOp th s) := by
  simp [execHookIllegalOp_sites] at hA
  have hk := Keeps.refl A s
  unfold execHookIllegalOp
  repeat' (first
    | with_reducible assumption
    | (intro x; first
        | (refine (?_ : Keeps A s x → _) ?_
           all_goals first | (intro hx; clear_value x) | subst x)
        | (have hx : ∀ b, Keeps A s b → Keeps A s (x b) := by
             intro _ hb; subst x; first | (simp (maxDischargeDepth := 99) [*]; done) | (simp only []; repeat' split) <;> simp (maxDischargeDepth := 99) [*]
           clear_value x))
    | with_reducible refine keepsOut_next.2 ?_
    | with_reducible refine keepsOpt_some ?_
    | with_reducible refine State.requeueThread_keeps _ _ ?_ (by first | assumption | simp [*])
    | with_reducible refine State.flag_keeps _ _ ?_ (by first | assumption | simp [*])
    | with_reducible refine State.hookInstr_keeps _ _ _ _ (fun s w t i hs => ?_) ?_ (by first | assumption | simp [*]))

def execCipherJob_sites : List Site := [.one R.CIP_EVENTS, .one R.CIP_JOB_CTRL, .one R.CIP_JOB_STATUS, .part .cip]

theorem execCipherJob_keeps {A : Scope} (k : Nat) (op : Nat) (s : State)
    (hA : A.covers execCipherJob_sites) : KeepsOut A s (execCipherJob k op s) := by
  simp [execCipherJob_sites] at hA
  simp (maxDischargeDepth := 99) [execCipherJob, hA]

def execCipherJobDone_sites : List Site := [.one R.CIP_JOB_STATUS, .part .cip]

theorem execCipherJobDone_keeps {A : Scope} (s : State)
    (hA : A.covers execCipherJobDone_sites) : KeepsOut A s (execCipherJobDone s) := by
  simp [execCipherJobDone_sites] at hA
  have hk := Keeps.refl A s
  unfold execCipherJobDone
  repeat' (first
    | (intro x; first
        | (have hx : Keeps A s x := by
             subst x
             repeat' split
             all_goals first | with_reducible assumption | (simp (maxDischargeDepth := 99) +contextual [*]; done) | simp_all (maxDischargeDepth := 99) +contextual
           clear_value x)
        | clear_value x)
    | (split <;> try lift_lets))
  all_goals first | (simp (maxDischargeDepth := 99) +contextual [*]; done) | simp_all (maxDischargeDepth := 99) +contextual

end Sys2Proof.Machine
end

