-- ==== Sys2Proof/Laws/KeepsTirium.lean ====
section
/-!
SUPPORT. Sys2Proof/Laws/KeepsTirium.lean: the operations and meanings of Machine/Tirium.lean keep (Laws/Keeps.lean).
-/

set_option linter.all false
set_option Elab.async false

namespace Sys2Proof.Machine

def State.snagDisarm_sites : List Site :=
  State.event_sites ++ State.snagStatus_sites ++ [.one R.SNG_STATUS, .one R.TIR_STATUS, .part .snag]

@[simp ↓] theorem State.snagDisarm_keeps {A : Scope} {s₀ : State} (s : State) (hk : Keeps A s₀ s)
    (hA : A.covers State.snagDisarm_sites) :
    Keeps A s₀ (State.snagDisarm s) := by
  simp [State.snagDisarm_sites] at hA
  simp (maxDischargeDepth := 99) [State.snagDisarm, hk, hA]

def State.haltedReg_sites : List Site := [.one R.DBG_STATUS]

@[simp ↓] theorem State.haltedReg_keeps {A : Scope} {s₀ : State} (s : State) (hk : Keeps A s₀ s)
    (hA : A.covers State.haltedReg_sites) :
    Keeps A s₀ (State.haltedReg s) := by
  simp [State.haltedReg_sites] at hA
  simp (maxDischargeDepth := 99) [State.haltedReg, hk, hA]

def State.haltPair_sites : List Site := State.haltedReg_sites ++ [.part .pairs, .part .cast]

@[simp ↓] theorem State.haltPair_keeps {A : Scope} {s₀ : State} (s : State) (p : Nat) (halt : Bool) (hk : Keeps A s₀ s)
    (hA : A.covers State.haltPair_sites) :
    Keeps A s₀ (State.haltPair s p halt) := by
  simp [State.haltPair_sites] at hA
  simp (maxDischargeDepth := 99) [State.haltPair, hk, hA]

def State.traceReg_sites : List Site := [.one R.DBG_STATUS]

@[simp ↓] theorem State.traceReg_keeps {A : Scope} {s₀ : State} (s : State) (hk : Keeps A s₀ s)
    (hA : A.covers State.traceReg_sites) :
    Keeps A s₀ (State.traceReg s) := by
  simp [State.traceReg_sites] at hA
  simp (maxDischargeDepth := 99) [State.traceReg, hk, hA]

def State.setGrants_sites : List Site :=
  State.event_sites ++ State.haltPair_sites ++ State.snagDisarm_sites ++ State.traceReg_sites ++ [.one R.DBG_EVENTS, .one
    R.DBG_HALT, .one R.DBG_STATUS, .one R.TIR_STATUS, .part .needles]

@[simp ↓] theorem State.setGrants_keeps {A : Scope} {s₀ : State} (s : State) (g : Nat) (hk : Keeps A s₀ s)
    (hA : A.covers State.setGrants_sites) :
    Keeps A s₀ (State.setGrants s g) := by
  simp [State.setGrants_sites] at hA
  unfold State.setGrants
  repeat' (first
    | (intro x; clear_value x))
  all_goals first | (simp (maxDischargeDepth := 99) +contextual [*]; done) | simp_all (maxDischargeDepth := 99) +contextual

def State.noteVerified_sites : List Site := [.part .tir]

@[simp ↓] theorem State.noteVerified_keeps {A : Scope} {s₀ : State} (s : State) (component : Nat) (d : Digest) (hk : Keeps A s₀ s)
    (hA : A.covers State.noteVerified_sites) :
    Keeps A s₀ (State.noteVerified s component d) := by
  simp [State.noteVerified_sites] at hA
  simp (maxDischargeDepth := 99) [State.noteVerified, hk, hA]

def State.recertify_sites : List Site := [.part .tir]

@[simp ↓] theorem State.recertify_keeps {A : Scope} {s₀ : State} (s : State) (hk : Keeps A s₀ s)
    (hA : A.covers State.recertify_sites) :
    Keeps A s₀ (State.recertify s) := by
  simp [State.recertify_sites] at hA
  simp (maxDischargeDepth := 99) [State.recertify, hk, hA]

def State.deriveAliases_sites : List Site := State.recertify_sites ++ [.part .tir]

@[simp ↓] theorem State.deriveAliases_keeps {A : Scope} {s₀ : State} (s : State) (hk : Keeps A s₀ s)
    (hA : A.covers State.deriveAliases_sites) :
    Keeps A s₀ (State.deriveAliases s) := by
  simp [State.deriveAliases_sites] at hA
  simp (maxDischargeDepth := 99) [State.deriveAliases, hk, hA]

def State.setBlock_sites : List Site := State.recertify_sites ++ [.part .tir]

@[simp ↓] theorem State.setBlock_keeps {A : Scope} {s₀ : State} (s : State) (n : Nat) (d : Digest) (hk : Keeps A s₀ s)
    (hA : A.covers State.setBlock_sites) :
    Keeps A s₀ (State.setBlock s n d) := by
  simp [State.setBlock_sites] at hA
  simp (maxDischargeDepth := 99) [State.setBlock, hk, hA]

def State.modSpdm_sites : List Site := [.part .tir]

@[simp ↓] theorem State.modSpdm_keeps {A : Scope} {s₀ : State} (s : State) (t : Nat) (f : SpdmLink → SpdmLink) (hk : Keeps A s₀ s)
    (hA : A.covers State.modSpdm_sites) :
    Keeps A s₀ (State.modSpdm s t f) := by
  simp [State.modSpdm_sites] at hA
  simp (maxDischargeDepth := 99) [State.modSpdm, hk, hA]

def State.signD_sites : List Site := State.drawBytes_sites

@[simp ↓] theorem State.signD_keeps {A : Scope} {s₀ : State} (s : State) (l : List Byte) (hk : Keeps A s₀ s)
    (hA : A.covers State.signD_sites) :
    Keeps A s₀ (State.signD s l).2 := by
  simp [State.signD_sites] at hA
  simp (maxDischargeDepth := 99) [State.signD, hk, hA]

def State.spdmSettled_sites : List Site := State.drawBytes_sites ++ State.signD_sites

@[simp ↓] theorem State.spdmSettled_keeps {A : Scope} {s₀ : State} (s : State) (a : SpdmRequest) (hk : Keeps A s₀ s)
    (hA : A.covers State.spdmSettled_sites) :
    Keeps A s₀ (State.spdmSettled s a).2 := by
  simp [State.spdmSettled_sites] at hA
  simp only [State.spdmSettled]
  repeat' split
  all_goals simp_all (maxDischargeDepth := 99) +contextual

def State.spdmAnswer_sites : List Site := State.spdmSettled_sites

@[simp ↓] theorem State.spdmAnswer_keeps {A : Scope} {s₀ : State} (s : State) (l : SpdmLink) (r : SpdmRequest) (hk : Keeps A s₀ s)
    (hA : A.covers State.spdmAnswer_sites) :
    Keeps A s₀ (State.spdmAnswer s l r).2.2 := by
  simp [State.spdmAnswer_sites] at hA
  simp only [State.spdmAnswer]
  repeat' split
  all_goals simp_all (maxDischargeDepth := 99) +contextual

def State.spdmServe_sites : List Site := State.modSpdm_sites ++ State.spdmAnswer_sites

@[simp ↓] theorem State.spdmServe_keeps {A : Scope} {s₀ : State} (t : Nat) (s : State) (r : SpdmRequest) (hk : Keeps A s₀ s)
    (hA : A.covers State.spdmServe_sites) :
    Keeps A s₀ (State.spdmServe t s r) := by
  simp [State.spdmServe_sites] at hA
  simp (maxDischargeDepth := 99) [State.spdmServe, hk, hA]

def State.spdm_sites : List Site := State.modSpdm_sites ++ State.spdmServe_sites

@[simp ↓] theorem State.spdm_keeps {A : Scope} {s₀ : State} (s : State) (t : Nat) (r : SpdmRequest) (hk : Keeps A s₀ s)
    (hA : A.covers State.spdm_sites) :
    Keeps A s₀ (State.spdm s t r) := by
  simp [State.spdm_sites] at hA
  simp (maxDischargeDepth := 99) [State.spdm, hk, hA]

def State.spdmResume_sites : List Site := State.modSpdm_sites ++ State.spdmServe_sites

@[simp ↓] theorem State.spdmResume_keeps {A : Scope} {s₀ : State} (s : State) (hk : Keeps A s₀ s)
    (hA : A.covers State.spdmResume_sites) :
    Keeps A s₀ (State.spdmResume s) := by
  simp [State.spdmResume_sites] at hA
  simp (maxDischargeDepth := 99) +contextual [State.spdmResume, hk, hA]

def State.tiriumBoot_sites : List Site :=
  State.deriveAliases_sites ++ State.spdmResume_sites ++ [.one R.TIR_STATUS, .part .tir]

@[simp ↓] theorem State.tiriumBoot_keeps {A : Scope} {s₀ : State} (s : State) (rom : Digest) (firmware : Digest) (hk : Keeps A s₀ s)
    (hA : A.covers State.tiriumBoot_sites) :
    Keeps A s₀ (State.tiriumBoot s rom firmware) := by
  simp [State.tiriumBoot_sites] at hA
  simp (maxDischargeDepth := 99) [State.tiriumBoot, hk, hA]

def State.newNmek_sites : List Site := State.drawBytes_sites ++ [.part .tir]

@[simp ↓] theorem State.newNmek_keeps {A : Scope} {s₀ : State} (s : State) (nsid : Nat) (hk : Keeps A s₀ s)
    (hA : A.covers State.newNmek_sites) :
    Keeps A s₀ (State.newNmek s nsid) := by
  simp [State.newNmek_sites] at hA
  simp (maxDischargeDepth := 99) [State.newNmek, hk, hA]

def State.keyChange_sites : List Site := State.eraseKeySlots_sites ++ State.newNmek_sites ++ [.part .tir, .part .cip]

@[simp ↓] theorem State.keyChange_keeps {A : Scope} {s₀ : State} (s : State) (hk : Keeps A s₀ s)
    (hA : A.covers State.keyChange_sites) :
    Keeps A s₀ (State.keyChange s) := by
  simp [State.keyChange_sites] at hA
  unfold State.keyChange
  repeat' (first
    | (intro x; clear_value x))
  all_goals first | (simp (maxDischargeDepth := 99) +contextual [*]; done) | simp_all (maxDischargeDepth := 99) +contextual

def State.respRegs_sites : List Site := [.grid R.TIR_MBX_RESP]

@[simp ↓] theorem State.respRegs_keeps {A : Scope} {s₀ : State} (s : State) (n : Nat) (l : List Word) (hk : Keeps A s₀ s)
    (hA : A.covers State.respRegs_sites) :
    Keeps A s₀ (State.respRegs s n l) := by
  simp [State.respRegs_sites] at hA
  unfold State.respRegs
  repeat' (first
    | (intro x; clear_value x))
  all_goals first | (simp (maxDischargeDepth := 99) +contextual [*]; done) | simp_all (maxDischargeDepth := 99) +contextual

def State.mailboxDone_sites : List Site := State.respRegs_sites ++ [.each R.TIR_MBX_STATUS, .part .tir]

@[simp ↓] theorem State.mailboxDone_keeps {A : Scope} {s₀ : State} (s : State) (n : Nat) (tag : Nat) (result : Nat) (resp : List Word) (hk : Keeps A s₀ s)
    (hA : A.covers State.mailboxDone_sites) :
    Keeps A s₀ (State.mailboxDone s n tag result resp) := by
  simp [State.mailboxDone_sites] at hA
  simp (maxDischargeDepth := 99) [State.mailboxDone, hk, hA]

def State.mailbox_sites : List Site := State.mailboxDone_sites ++ [.each R.TIR_MBX_CMD, .each R.TIR_MBX_STATUS]

theorem State.mailbox_keeps {A : Scope} {s₀ : State} (s : State) (n tag opcode : Nat) (f : State → Option (Nat × List Word × State))
    (hf : ∀ t, Keeps A s₀ t → KeepsOpt A (fun r => r.2.2) s₀ (f t)) (hk : Keeps A s₀ s)
    (hA : A.covers State.mailbox_sites) : Keeps A s₀ (s.mailbox n tag opcode f) := by
  simp [State.mailbox_sites] at hA
  unfold State.mailbox
  refine keeps_ite hk ?_
  dsimp only
  refine keeps_ite hk ?_
  have ht : Keeps A s₀ (if 3 < n then s else (s.setFld (F.TIR_MBX_CMD_OPCODE n) opcode).setFld (F.TIR_MBX_CMD_TAG n) tag) := by
    simp (maxDischargeDepth := 99) [hk, hA]
  generalize (if 3 < n then s else (s.setFld (F.TIR_MBX_CMD_OPCODE n) opcode).setFld (F.TIR_MBX_CMD_TAG n) tag) = t at ht ⊢
  have hh : Keeps A s₀ (if 3 < n then t else t.flag (F.TIR_MBX_STATUS_BUSY n)) := by simp (maxDischargeDepth := 99) [ht, hA]
  refine keeps_ite hh ?_
  split
  · exact State.mailboxDone_keeps _ _ _ _ _ ht (by first | assumption | simp [*])
  · split
    · exact hh
    · next h => exact State.mailboxDone_keeps _ _ _ _ _ (hf t ht _ h) (by first | assumption | simp [*])

def execVerifyImage_sites : List Site := State.mailbox_sites ++ State.noteVerified_sites

theorem execVerifyImage_keeps {A : Scope} (n : Nat) (tag : Nat) (addr : Nat) (component : Nat) (s : State)
    (hA : A.covers execVerifyImage_sites) : KeepsOut A s (execVerifyImage n tag addr component s) := by
  simp [execVerifyImage_sites] at hA
  have hk := Keeps.refl A s
  unfold execVerifyImage
  repeat' (first
    | with_reducible assumption
    | (intro x; first
        | (refine (?_ : Keeps A s x → _) ?_
           all_goals first | (intro hx; clear_value x) | subst x)
        | (have hx : ∀ b, Keeps A s b → Keeps A s (x b) := by
             intro _ hb; subst x; first | (simp (maxDischargeDepth := 99) [*]; done) | (simp only []; repeat' split) <;> simp (maxDischargeDepth := 99) [*]
           clear_value x))
    | with_reducible refine keepsOut_next.2 ?_
    | with_reducible refine keeps_ite ?_ ?_
    | with_reducible refine keepsOpt_some ?_
    | with_reducible refine State.noteVerified_keeps _ _ _ ?_ (by first | assumption | simp [*])
    | with_reducible refine State.mailbox_keeps _ _ _ _ _ (fun u hu => ?_) ?_ (by first | assumption | simp [*]))

def execCommitMeasurement_sites : List Site := State.mailbox_sites ++ State.setBlock_sites

theorem execCommitMeasurement_keeps {A : Scope} (n : Nat) (tag : Nat) (component : Nat) (d : Digest) (s : State)
    (hA : A.covers execCommitMeasurement_sites) : KeepsOut A s (execCommitMeasurement n tag component d s) := by
  simp [execCommitMeasurement_sites] at hA
  have hk := Keeps.refl A s
  unfold execCommitMeasurement
  repeat' (first
    | with_reducible assumption
    | (intro x; first
        | (refine (?_ : Keeps A s x → _) ?_
           all_goals first | (intro hx; clear_value x) | subst x)
        | (have hx : ∀ b, Keeps A s b → Keeps A s (x b) := by
             intro _ hb; subst x; first | (simp (maxDischargeDepth := 99) [*]; done) | (simp only []; repeat' split) <;> simp (maxDischargeDepth := 99) [*]
           clear_value x))
    | with_reducible refine keepsOut_next.2 ?_
    | with_reducible refine keepsOpt_some ?_
    | with_reducible refine keepsOpt_ite ?_ ?_
    | with_reducible refine State.setBlock_keeps _ _ _ ?_ (by first | assumption | simp [*])
    | with_reducible refine State.mailbox_keeps _ _ _ _ _ (fun u hu => ?_) ?_ (by first | assumption | simp [*]))

def execLoadKey_sites : List Site := State.loadBank_sites ++ State.mailbox_sites ++ [.part .tir]

theorem execLoadKey_keeps {A : Scope} (n tag k nsid zone gen : Nat) (keyTag : Option Nat) (s : State)
    (hA : A.covers execLoadKey_sites) :
    KeepsOut A s (execLoadKey n tag k nsid zone gen keyTag s) := by
  simp [execLoadKey_sites] at hA
  refine keepsOut_next.2 (State.mailbox_keeps _ _ _ _ _ (fun t ht => ?_) (Keeps.refl A s) (by first | assumption | simp [*]))
  refine keepsOpt_ite (keepsOpt_some ht) (keepsOpt_ite (keepsOpt_some ht) (keepsOpt_ite (keepsOpt_some ht) ?_))
  split
  · exact keepsOpt_some ht
  · next b _ => exact keepsOpt_map fun u hu => State.modTir_keeps _ _ (State.loadBank_keeps t k b ht (by first | assumption | simp [*]) u hu) (by first | assumption | simp [*])

def execNsKeyNew_sites : List Site := State.mailbox_sites ++ State.newNmek_sites

theorem execNsKeyNew_keeps {A : Scope} (n : Nat) (tag : Nat) (nsid : Nat) (s : State)
    (hA : A.covers execNsKeyNew_sites) : KeepsOut A s (execNsKeyNew n tag nsid s) := by
  simp [execNsKeyNew_sites] at hA
  have hk := Keeps.refl A s
  unfold execNsKeyNew
  repeat' (first
    | with_reducible assumption
    | (intro x; first
        | (refine (?_ : Keeps A s x → _) ?_
           all_goals first | (intro hx; clear_value x) | subst x)
        | (have hx : ∀ b, Keeps A s b → Keeps A s (x b) := by
             intro _ hb; subst x; first | (simp (maxDischargeDepth := 99) [*]; done) | (simp only []; repeat' split) <;> simp (maxDischargeDepth := 99) [*]
           clear_value x))
    | with_reducible refine keepsOut_next.2 ?_
    | with_reducible refine keepsOpt_some ?_
    | with_reducible refine keepsOpt_ite ?_ ?_
    | with_reducible refine State.newNmek_keeps _ _ ?_ (by first | assumption | simp [*])
    | with_reducible refine State.mailbox_keeps _ _ _ _ _ (fun u hu => ?_) ?_ (by first | assumption | simp [*]))

def State.injectKey_sites : List Site := [.part .tir]

@[simp ↓] theorem State.injectKey_keeps {A : Scope} {s₀ : State} (s : State) (e : Nat × Nat × Option Digest) (hk : Keeps A s₀ s)
    (hA : A.covers State.injectKey_sites) :
    Keeps A s₀ (State.injectKey s e) := by
  simp [State.injectKey_sites] at hA
  simp (maxDischargeDepth := 99) [State.injectKey, hk, hA]

def execKpio_sites : List Site := State.injectKey_sites ++ State.mailbox_sites

theorem execKpio_keeps {A : Scope} (n : Nat) (tag : Nat) (keys : List (Nat × Nat × Option Digest)) (s : State)
    (hA : A.covers execKpio_sites) : KeepsOut A s (execKpio n tag keys s) := by
  simp [execKpio_sites] at hA
  have hk := Keeps.refl A s
  unfold execKpio
  repeat' (first
    | with_reducible assumption
    | (intro x; first
        | (refine (?_ : Keeps A s x → _) ?_
           all_goals first | (intro hx; clear_value x) | subst x)
        | (have hx : ∀ b, Keeps A s b → Keeps A s (x b) := by
             intro _ hb; subst x; first | (simp (maxDischargeDepth := 99) [*]; done) | (simp only []; repeat' split) <;> simp (maxDischargeDepth := 99) [*]
           clear_value x))
    | with_reducible refine keepsOut_next.2 ?_
    | with_reducible refine keepsOpt_some ?_
    | with_reducible refine keepsOpt_ite ?_ ?_
    | with_reducible refine keeps_foldl (fun u v hu => ?_) _ ?_
    | with_reducible refine State.injectKey_keeps _ _ ?_ (by first | assumption | simp [*])
    | with_reducible refine State.mailbox_keeps _ _ _ _ _ (fun u hu => ?_) ?_ (by first | assumption | simp [*]))

def execRandom_sites : List Site := State.drawBytes_sites ++ State.mailbox_sites

theorem execRandom_keeps {A : Scope} (n : Nat) (tag : Nat) (count : Nat) (s : State)
    (hA : A.covers execRandom_sites) : KeepsOut A s (execRandom n tag count s) := by
  simp [execRandom_sites] at hA
  have hk := Keeps.refl A s
  unfold execRandom
  repeat' (first
    | with_reducible assumption
    | (generalize he : State.drawBytes _ _ = p
       fail_if_success clear he p
       have hp : Keeps A s p.2 := by subst he; first | with_reducible assumption | simp (maxDischargeDepth := 99) +contextual [*]
       clear he
       obtain ⟨_, _⟩ := p)
    | (intro x; first
        | (refine (?_ : Keeps A s x → _) ?_
           all_goals first | (intro hx; clear_value x) | subst x)
        | (have hx : ∀ b, Keeps A s b → Keeps A s (x b) := by
             intro _ hb; subst x; first | (simp (maxDischargeDepth := 99) [*]; done) | (simp only []; repeat' split) <;> simp (maxDischargeDepth := 99) [*]
           clear_value x))
    | with_reducible refine keepsOut_next.2 ?_
    | with_reducible refine keepsOpt_some ?_
    | with_reducible refine keepsOpt_ite ?_ ?_
    | with_reducible refine State.mailbox_keeps _ _ _ _ _ (fun u hu => ?_) ?_ (by first | assumption | simp [*]))

def State.giveChallenge_sites : List Site := State.drawBytes_sites ++ [.part .tir]

@[simp ↓] theorem State.giveChallenge_keeps {A : Scope} {s₀ : State} (n : Nat) (scopes : Nat) (s : State) (hk : Keeps A s₀ s)
    (hA : A.covers State.giveChallenge_sites) :
    KeepsOpt A (fun t => t.2.2) s₀ (State.giveChallenge n scopes s) := by
  simp [State.giveChallenge_sites] at hA
  simp (maxDischargeDepth := 99) [State.giveChallenge, hk, hA]

def execTirChallenge_sites : List Site := State.giveChallenge_sites ++ State.mailbox_sites

theorem execTirChallenge_keeps {A : Scope} (n : Nat) (tag : Nat) (scopes : Nat) (s : State)
    (hA : A.covers execTirChallenge_sites) : KeepsOut A s (execTirChallenge n tag scopes s) := by
  simp [execTirChallenge_sites] at hA
  have hk := Keeps.refl A s
  unfold execTirChallenge
  repeat' (first
    | with_reducible assumption
    | (generalize he : State.giveChallenge _ _ _ = p
       fail_if_success clear he p
       have hp : KeepsOpt A (fun t => t.2.2) s p := by
         subst he; exact State.giveChallenge_keeps _ _ _ (by first | with_reducible assumption | simp (maxDischargeDepth := 99) +contextual [*]) (by first | assumption | simp [*])
       clear he
       rcases p with _ | p
       rotate_left 1
       replace hp : Keeps A s p.2.2 := hp p rfl)
    | (intro x; first
        | (refine (?_ : Keeps A s x → _) ?_
           all_goals first | (intro hx; clear_value x) | subst x)
        | (have hx : ∀ b, Keeps A s b → Keeps A s (x b) := by
             intro _ hb; subst x; first | (simp (maxDischargeDepth := 99) [*]; done) | (simp only []; repeat' split) <;> simp (maxDischargeDepth := 99) [*]
           clear_value x))
    | with_reducible refine keepsOut_next.2 ?_
    | with_reducible refine keepsOpt_some ?_
    | with_reducible refine State.mailbox_keeps _ _ _ _ _ (fun u hu => ?_) ?_ (by first | assumption | simp [*]))

def State.authFails_sites : List Site := [.one R.TIR_ALARM, .one R.TIR_STATUS]

@[simp ↓] theorem State.authFails_keeps {A : Scope} {s₀ : State} (s : State) (hk : Keeps A s₀ s)
    (hA : A.covers State.authFails_sites) :
    Keeps A s₀ (State.authFails s) := by
  simp [State.authFails_sites] at hA
  simp (maxDischargeDepth := 99) [State.authFails, hk, hA]

def State.takeResponse_sites : List Site :=
  State.authFails_sites ++ State.event_sites ++ State.keyChange_sites ++ State.setGrants_sites ++ [.one R.TIR_ALARM, .part
    .tir]

@[simp ↓] theorem State.takeResponse_keeps {A : Scope} {s₀ : State} (n : Nat) (key : List Byte) (signature : List Byte) (s : State) (hk : Keeps A s₀ s)
    (hA : A.covers State.takeResponse_sites) :
    KeepsOpt A (fun t => t.2.2) s₀ (State.takeResponse n key signature s) := by
  simp [State.takeResponse_sites] at hA
  unfold State.takeResponse
  repeat' (first
    | (intro x; first
        | (have hx : Keeps A s₀ x := by
             subst x
             repeat' split
             all_goals first | with_reducible assumption | (simp (maxDischargeDepth := 99) +contextual [*]; done) | simp_all (maxDischargeDepth := 99) +contextual
           clear_value x)
        | clear_value x)
    | (split <;> try lift_lets))
  all_goals first | (simp (maxDischargeDepth := 99) +contextual [*]; done) | simp_all (maxDischargeDepth := 99) +contextual

def execTirResponse_sites : List Site := State.mailbox_sites ++ State.takeResponse_sites

theorem execTirResponse_keeps {A : Scope} (n : Nat) (tag : Nat) (key : List Byte) (signature : List Byte) (s : State)
    (hA : A.covers execTirResponse_sites) : KeepsOut A s (execTirResponse n tag key signature s) := by
  simp [execTirResponse_sites] at hA
  have hk := Keeps.refl A s
  unfold execTirResponse
  repeat' (first
    | with_reducible assumption
    | (generalize he : State.takeResponse _ _ _ _ = p
       fail_if_success clear he p
       have hp : KeepsOpt A (fun t => t.2.2) s p := by
         subst he; exact State.takeResponse_keeps _ _ _ _ (by first | with_reducible assumption | simp (maxDischargeDepth := 99) +contextual [*]) (by first | assumption | simp [*])
       clear he
       rcases p with _ | p
       rotate_left 1
       replace hp : Keeps A s p.2.2 := hp p rfl)
    | (intro x; first
        | (refine (?_ : Keeps A s x → _) ?_
           all_goals first | (intro hx; clear_value x) | subst x)
        | (have hx : ∀ b, Keeps A s b → Keeps A s (x b) := by
             intro _ hb; subst x; first | (simp (maxDischargeDepth := 99) [*]; done) | (simp only []; repeat' split) <;> simp (maxDischargeDepth := 99) [*]
           clear_value x))
    | with_reducible refine keepsOut_next.2 ?_
    | with_reducible refine keepsOpt_some ?_
    | with_reducible refine State.mailbox_keeps _ _ _ _ _ (fun u hu => ?_) ?_ (by first | assumption | simp [*]))

def State.withdrawGrants_sites : List Site := State.setGrants_sites

@[simp ↓] theorem State.withdrawGrants_keeps {A : Scope} {s₀ : State} (scopes : Nat) (s : State) (hk : Keeps A s₀ s)
    (hA : A.covers State.withdrawGrants_sites) :
    KeepsOpt A (fun t => t.2.2) s₀ (State.withdrawGrants scopes s) := by
  simp [State.withdrawGrants_sites] at hA
  simp (maxDischargeDepth := 99) [State.withdrawGrants, hk, hA]

def execRevoke_sites : List Site := State.mailbox_sites ++ State.withdrawGrants_sites

theorem execRevoke_keeps {A : Scope} (n : Nat) (tag : Nat) (scopes : Nat) (s : State)
    (hA : A.covers execRevoke_sites) : KeepsOut A s (execRevoke n tag scopes s) := by
  simp [execRevoke_sites] at hA
  have hk := Keeps.refl A s
  unfold execRevoke
  repeat' (first
    | with_reducible assumption
    | (generalize he : State.withdrawGrants _ _ = p
       fail_if_success clear he p
       have hp : KeepsOpt A (fun t => t.2.2) s p := by
         subst he; exact State.withdrawGrants_keeps _ _ (by first | with_reducible assumption | simp (maxDischargeDepth := 99) +contextual [*]) (by first | assumption | simp [*])
       clear he
       rcases p with _ | p
       rotate_left 1
       replace hp : Keeps A s p.2.2 := hp p rfl)
    | (intro x; first
        | (refine (?_ : Keeps A s x → _) ?_
           all_goals first | (intro hx; clear_value x) | subst x)
        | (have hx : ∀ b, Keeps A s b → Keeps A s (x b) := by
             intro _ hb; subst x; first | (simp (maxDischargeDepth := 99) [*]; done) | (simp only []; repeat' split) <;> simp (maxDischargeDepth := 99) [*]
           clear_value x))
    | with_reducible refine keepsOut_next.2 ?_
    | with_reducible refine keepsOpt_some ?_
    | with_reducible refine State.mailbox_keeps _ _ _ _ _ (fun u hu => ?_) ?_ (by first | assumption | simp [*]))

def execChallengeExpiry_sites : List Site := [.part .tir]

theorem execChallengeExpiry_keeps {A : Scope} (n : Nat) (s : State)
    (hA : A.covers execChallengeExpiry_sites) : KeepsOut A s (execChallengeExpiry n s) := by
  simp [execChallengeExpiry_sites] at hA
  simp (maxDischargeDepth := 99) [execChallengeExpiry, hA]

/-- A newer entry in one list of versions. -/
theorem getLast_putAt (c : Nat) (v : Nat) (l : List (List Nat)) (h : ((l.getD c []).getLast?).getD 0 ≤ v) (d : Nat) :
    ((l.getD d []).getLast?).getD 0 ≤ (((putAt c (l.getD c [] ++ [v]) l).getD d []).getLast?).getD 0 := by
  rw [putAt_getD]
  split
  · next e => obtain ⟨rfl, _⟩ := e; simpa using h
  · exact Nat.le_refl _

def State.svnAdvance_sites : List Site := [.part .fuse]

@[simp ↓] theorem State.svnAdvance_keeps {A : Scope} {s₀ : State} (s : State) (component version : Nat) (hk : Keeps A s₀ s)
    (hA : A.covers State.svnAdvance_sites) :
    Keeps A s₀ (s.svnAdvance component version).2.2 := by
  simp [State.svnAdvance_sites] at hA
  simp only [State.svnAdvance]
  split
  · exact hk
  · next h =>
    split
    · exact hk
    · refine hk.fuses hA ⟨⟨rfl, rfl, rfl⟩, ⟨rfl, rfl, rfl⟩, ⟨rfl, rfl⟩, id, id, fun _ => ⟨rfl, rfl, rfl⟩, fun _ => rfl,
      fun d => getLast_putAt _ _ _ ?_ d⟩
      simp only [Bool.or_eq_true, decide_eq_true_eq, not_or, Nat.not_le] at h
      exact Nat.le_of_lt h.1.2

def execSvnAdvance_sites : List Site := State.mailbox_sites ++ State.svnAdvance_sites

theorem execSvnAdvance_keeps {A : Scope} (n : Nat) (tag : Nat) (component : Nat) (version : Nat) (s : State)
    (hA : A.covers execSvnAdvance_sites) : KeepsOut A s (execSvnAdvance n tag component version s) := by
  simp [execSvnAdvance_sites] at hA
  have hk := Keeps.refl A s
  unfold execSvnAdvance
  repeat' (first
    | with_reducible assumption
    | (generalize he : State.svnAdvance _ _ _ = p
       fail_if_success clear he p
       have hp : Keeps A s p.2.2 := by subst he; first | with_reducible assumption | simp (maxDischargeDepth := 99) +contextual [*]
       clear he
       obtain ⟨_, _⟩ := p)
    | (intro x; first
        | (refine (?_ : Keeps A s x → _) ?_
           all_goals first | (intro hx; clear_value x) | subst x)
        | (have hx : ∀ b, Keeps A s b → Keeps A s (x b) := by
             intro _ hb; subst x; first | (simp (maxDischargeDepth := 99) [*]; done) | (simp only []; repeat' split) <;> simp (maxDischargeDepth := 99) [*]
           clear_value x))
    | with_reducible refine keepsOut_next.2 ?_
    | with_reducible refine keepsOpt_some ?_
    | with_reducible refine State.mailbox_keeps _ _ _ _ _ (fun u hu => ?_) ?_ (by first | assumption | simp [*]))

def execProvision_sites : List Site := State.mailbox_sites ++ [.one R.TIR_STATUS, .part .fuse]

theorem execProvision_keeps {A : Scope} (n : Nat) (tag : Nat) (maker pattern debug : Digest) (readBackOk : Bool) (s : State)
    (hA : A.covers execProvision_sites) :
    KeepsOut A s (execProvision n tag maker pattern debug readBackOk s) := by
  simp [execProvision_sites] at hA
  refine keepsOut_next.2 (State.mailbox_keeps _ _ _ _ _ (fun t ht => ?_) (Keeps.refl A s) (by first | assumption | simp [*]))
  dsimp only
  split
  · exact keepsOpt_some ht
  · next h =>
    have h' : ¬ (t.fuse.isSealed = true ∨ t.fuse.partlyFused = true) := by simpa using h
    split
    · exact keepsOpt_some (State.flag_keeps _ _ (ht.fuses hA.2.2 ⟨⟨rfl, rfl, rfl⟩, ⟨rfl, rfl, rfl⟩, ⟨rfl, rfl⟩, fun _ => rfl, id,
        fun c => absurd c h', fun _ => rfl, fun _ => Nat.le_refl _⟩) (by first | assumption | simp [*]))
    · exact keepsOpt_some (ht.fuses hA.2.2 ⟨⟨rfl, rfl, rfl⟩, ⟨rfl, rfl, rfl⟩, ⟨rfl, rfl⟩, id, fun _ => rfl,
        fun c => absurd c h', fun _ => rfl, fun _ => Nat.le_refl _⟩)

def execGenIdentity_sites : List Site :=
  State.draw_sites ++ State.drawBytes_sites ++ State.mailbox_sites ++ [.part .fuse, .part .tir]

theorem execGenIdentity_keeps {A : Scope} (n tag : Nat) (s : State)
    (hA : A.covers execGenIdentity_sites) : KeepsOut A s (execGenIdentity n tag s) := by
  simp [execGenIdentity_sites] at hA
  refine keepsOut_next.2 (State.mailbox_keeps _ _ _ _ _ (fun t ht => ?_) (Keeps.refl A s) (by first | assumption | simp [*]))
  dsimp only
  split
  · exact keepsOpt_some ht
  · next h =>
    refine keepsOpt_some (State.modTir_keeps _ _ (State.draw_keeps _ ?_ hA.1) (by first | assumption | simp [*]))
    exact (State.drawBytes_keeps t 32 ht (by first | assumption | simp [*])).fuses hA.2.2.2.1 ⟨⟨rfl, rfl, rfl⟩, ⟨rfl, rfl, rfl⟩, ⟨rfl, rfl⟩, id, id, fun _ => ⟨rfl, rfl, rfl⟩,
      fun c => absurd c h, fun _ => Nat.le_refl _⟩

def execTirUnknownOpcode_sites : List Site := State.mailbox_sites

theorem execTirUnknownOpcode_keeps {A : Scope} (n : Nat) (tag : Nat) (opcode : Nat) (s : State)
    (hA : A.covers execTirUnknownOpcode_sites) : KeepsOut A s (execTirUnknownOpcode n tag opcode s) := by
  simp [execTirUnknownOpcode_sites] at hA
  have hk := Keeps.refl A s
  unfold execTirUnknownOpcode
  repeat' (first
    | with_reducible assumption
    | (intro x; first
        | (refine (?_ : Keeps A s x → _) ?_
           all_goals first | (intro hx; clear_value x) | subst x)
        | (have hx : ∀ b, Keeps A s b → Keeps A s (x b) := by
             intro _ hb; subst x; first | (simp (maxDischargeDepth := 99) [*]; done) | (simp only []; repeat' split) <;> simp (maxDischargeDepth := 99) [*]
           clear_value x))
    | with_reducible refine keepsOut_next.2 ?_
    | with_reducible refine keepsOut_ite ?_ ?_
    | with_reducible refine keepsOpt_some ?_
    | with_reducible refine State.mailbox_keeps _ _ _ _ _ (fun u hu => ?_) ?_ (by first | assumption | simp [*]))

def State.raiseAlarm_sites : List Site :=
  State.eraseKeySlots_sites ++ State.setGrants_sites ++ State.snagDisarm_sites ++ [.one R.CIP_STATUS, .one R.TIR_ALARM, .one
    R.TIR_STATUS, .part .tir, .part .cip]

@[simp ↓] theorem State.raiseAlarm_keeps {A : Scope} {s₀ : State} (s : State) (causes : Nat) (hk : Keeps A s₀ s)
    (hA : A.covers State.raiseAlarm_sites) :
    Keeps A s₀ (State.raiseAlarm s causes) := by
  simp [State.raiseAlarm_sites] at hA
  simp (maxDischargeDepth := 99) [State.raiseAlarm, hk, hA]

def State.simulateAlarm_sites : List Site := State.eraseKeySlots_sites ++ [.one R.TIR_ALARM]

@[simp ↓] theorem State.simulateAlarm_keeps {A : Scope} {s₀ : State} (s : State) (hk : Keeps A s₀ s)
    (hA : A.covers State.simulateAlarm_sites) :
    Keeps A s₀ (State.simulateAlarm s) := by
  simp [State.simulateAlarm_sites] at hA
  simp (maxDischargeDepth := 99) [State.simulateAlarm, hk, hA]

def execTamperAlarm_sites : List Site := State.raiseAlarm_sites

theorem execTamperAlarm_keeps {A : Scope} (causes : Nat) (s : State)
    (hA : A.covers execTamperAlarm_sites) : KeepsOut A s (execTamperAlarm causes s) := by
  simp [execTamperAlarm_sites] at hA
  simp (maxDischargeDepth := 99) [execTamperAlarm, hA]

def execAlarmClear_sites : List Site :=
  State.deriveAliases_sites ++ State.spdmResume_sites ++ [.one R.CIP_STATUS, .one R.TIR_STATUS, .part .tir, .part .cip]

theorem execAlarmClear_keeps {A : Scope} (s : State)
    (hA : A.covers execAlarmClear_sites) : KeepsOut A s (execAlarmClear s) := by
  simp [execAlarmClear_sites] at hA
  simp (maxDischargeDepth := 99) [execAlarmClear, hA]

def execSpdmGetVersion_sites : List Site := State.spdm_sites

theorem execSpdmGetVersion_keeps {A : Scope} (t : Nat) (s : State)
    (hA : A.covers execSpdmGetVersion_sites) : KeepsOut A s (execSpdmGetVersion t s) := by
  simp [execSpdmGetVersion_sites] at hA
  simp (maxDischargeDepth := 99) [execSpdmGetVersion, hA]

def execSpdmGetCapabilities_sites : List Site := State.spdm_sites

theorem execSpdmGetCapabilities_keeps {A : Scope} (t : Nat) (s : State)
    (hA : A.covers execSpdmGetCapabilities_sites) : KeepsOut A s (execSpdmGetCapabilities t s) := by
  simp [execSpdmGetCapabilities_sites] at hA
  simp (maxDischargeDepth := 99) [execSpdmGetCapabilities, hA]

def execSpdmNegotiateAlgorithms_sites : List Site := State.spdm_sites

theorem execSpdmNegotiateAlgorithms_keeps {A : Scope} (t : Nat) (sm2 : Bool) (sm3 : Bool) (s : State)
    (hA : A.covers execSpdmNegotiateAlgorithms_sites) : KeepsOut A s (execSpdmNegotiateAlgorithms t sm2 sm3 s) := by
  simp [execSpdmNegotiateAlgorithms_sites] at hA
  simp (maxDischargeDepth := 99) [execSpdmNegotiateAlgorithms, hA]

def execSpdmGetDigests_sites : List Site := State.spdm_sites

theorem execSpdmGetDigests_keeps {A : Scope} (t : Nat) (s : State)
    (hA : A.covers execSpdmGetDigests_sites) : KeepsOut A s (execSpdmGetDigests t s) := by
  simp [execSpdmGetDigests_sites] at hA
  simp (maxDischargeDepth := 99) [execSpdmGetDigests, hA]

def execSpdmGetCertificate_sites : List Site := State.spdm_sites

theorem execSpdmGetCertificate_keeps {A : Scope} (t : Nat) (slot : Nat) (offset : Nat) (length : Nat) (s : State)
    (hA : A.covers execSpdmGetCertificate_sites) : KeepsOut A s (execSpdmGetCertificate t slot offset length s) := by
  simp [execSpdmGetCertificate_sites] at hA
  simp (maxDischargeDepth := 99) [execSpdmGetCertificate, hA]

def execSpdmChallenge_sites : List Site := State.spdm_sites

theorem execSpdmChallenge_keeps {A : Scope} (t : Nat) (slot : Nat) (nonce : List Byte) (s : State)
    (hA : A.covers execSpdmChallenge_sites) : KeepsOut A s (execSpdmChallenge t slot nonce s) := by
  simp [execSpdmChallenge_sites] at hA
  have hk := Keeps.refl A s
  unfold execSpdmChallenge
  repeat' (first
    | (intro x; first
        | (refine (?_ : Keeps A s x → _) ?_
           all_goals first | (intro hx; clear_value x) | subst x)
        | (have hx : ∀ b, Keeps A s b → Keeps A s (x b) := by
             intro _ hb; subst x; first | (simp (maxDischargeDepth := 99) [*]; done) | (simp only []; repeat' split) <;> simp (maxDischargeDepth := 99) [*]
           clear_value x))
    | with_reducible refine keepsOut_next.2 ?_
    | with_reducible refine State.spdmReady_keeps _ _ _ (fun u hu => ?_) ?_ (by first | assumption | simp [*])
    | (simp (maxDischargeDepth := 99) [*]; done)
    | (split <;> try lift_lets -underBinder))

def execSpdmGetMeasurements_sites : List Site := State.spdm_sites

theorem execSpdmGetMeasurements_keeps {A : Scope} (t index : Nat) (signed : Bool) (nonce : List Byte) (s : State)
    (hA : A.covers execSpdmGetMeasurements_sites) :
    KeepsOut A s (execSpdmGetMeasurements t index signed nonce s) := by
  simp [execSpdmGetMeasurements_sites] at hA
  simp (maxDischargeDepth := 99) [execSpdmGetMeasurements, hA]

def execSpdmRespondIfReady_sites : List Site := State.spdm_sites

theorem execSpdmRespondIfReady_keeps {A : Scope} (t : Nat) (token : Nat) (s : State)
    (hA : A.covers execSpdmRespondIfReady_sites) : KeepsOut A s (execSpdmRespondIfReady t token s) := by
  simp [execSpdmRespondIfReady_sites] at hA
  simp (maxDischargeDepth := 99) [execSpdmRespondIfReady, hA]

def execSpdmUnsupported_sites : List Site := State.spdm_sites

theorem execSpdmUnsupported_keeps {A : Scope} (t : Nat) (code : Nat) (s : State)
    (hA : A.covers execSpdmUnsupported_sites) : KeepsOut A s (execSpdmUnsupported t code s) := by
  simp [execSpdmUnsupported_sites] at hA
  simp (maxDischargeDepth := 99) [execSpdmUnsupported, hA]

end Sys2Proof.Machine
end

