-- ==== Sys2Proof/Laws/KeepsGauge.lean ====
section
/-!
SUPPORT. Sys2Proof/Laws/KeepsGauge.lean: the operations and meanings of Machine/Gauge.lean keep (Laws/Keeps.lean).
-/

set_option linter.all false
set_option Elab.async false

namespace Sys2Proof.Machine

def State.refuseCalibration_sites : List Site := [.one R.GAU_STATUS]

@[simp ↓] theorem State.refuseCalibration_keeps {A : Scope} {s₀ : State} (s : State) (hk : Keeps A s₀ s)
    (hA : A.covers State.refuseCalibration_sites) :
    Keeps A s₀ (State.refuseCalibration s) := by
  simp [State.refuseCalibration_sites] at hA
  simp (maxDischargeDepth := 99) [State.refuseCalibration, hk, hA]

def State.writeSwatch_sites : List Site := State.writeMedia_sites

@[simp ↓] theorem State.writeSwatch_keeps {A : Scope} {s₀ : State} (s : State) (a : Nat) (h : Nat) (hk : Keeps A s₀ s)
    (hA : A.covers State.writeSwatch_sites) :
    Keeps A s₀ (State.writeSwatch s a h) := by
  simp [State.writeSwatch_sites] at hA
  unfold State.writeSwatch
  repeat' (first
    | (intro x; clear_value x))
  all_goals first | (simp (maxDischargeDepth := 99) +contextual [*]; done) | simp_all (maxDischargeDepth := 99) +contextual

def State.beginRun_sites : List Site := State.writeSwatch_sites

@[simp ↓] theorem State.beginRun_keeps {A : Scope} {s₀ : State} (s : State) (c : Calibration) (hk : Keeps A s₀ s)
    (hA : A.covers State.beginRun_sites) :
    Keeps A s₀ (State.beginRun s c) := by
  simp [State.beginRun_sites] at hA
  simp (maxDischargeDepth := 99) [State.beginRun, hk, hA]

def State.startCalibration_sites : List Site :=
  State.refuseCalibration_sites ++ [.one R.GAU_CMD, .one R.GAU_STATUS, .part .gauge]

@[simp ↓] theorem State.startCalibration_keeps {A : Scope} {s₀ : State} (s : State) (kind : Nat) (slice : Nat) (act : Nat) (head : Nat) (hk : Keeps A s₀ s)
    (hA : A.covers State.startCalibration_sites) :
    Keeps A s₀ (State.startCalibration s kind slice act head) := by
  simp [State.startCalibration_sites] at hA
  simp (maxDischargeDepth := 99) [State.startCalibration, hk, hA]

def execGauAdcOffset_sites : List Site := State.startCalibration_sites

theorem execGauAdcOffset_keeps {A : Scope} (i : Nat) (s : State)
    (hA : A.covers execGauAdcOffset_sites) : KeepsOut A s (execGauAdcOffset i s) := by
  simp [execGauAdcOffset_sites] at hA
  simp (maxDischargeDepth := 99) [execGauAdcOffset, hA]

def execGauAdcGain_sites : List Site := State.startCalibration_sites

theorem execGauAdcGain_keeps {A : Scope} (i : Nat) (s : State)
    (hA : A.covers execGauAdcGain_sites) : KeepsOut A s (execGauAdcGain i s) := by
  simp [execGauAdcGain_sites] at hA
  simp (maxDischargeDepth := 99) [execGauAdcGain, hA]

def execGauAdcSkew_sites : List Site := State.startCalibration_sites

theorem execGauAdcSkew_keeps {A : Scope} (i : Nat) (s : State)
    (hA : A.covers execGauAdcSkew_sites) : KeepsOut A s (execGauAdcSkew i s) := by
  simp [execGauAdcSkew_sites] at hA
  simp (maxDischargeDepth := 99) [execGauAdcSkew, hA]

def execGauReaderBias_sites : List Site := State.startCalibration_sites

theorem execGauReaderBias_keeps {A : Scope} (a : Nat) (h : Nat) (s : State)
    (hA : A.covers execGauReaderBias_sites) : KeepsOut A s (execGauReaderBias a h s) := by
  simp [execGauReaderBias_sites] at hA
  simp (maxDischargeDepth := 99) [execGauReaderBias, hA]

def execGauTouchdown_sites : List Site := State.startCalibration_sites

theorem execGauTouchdown_keeps {A : Scope} (a : Nat) (h : Nat) (s : State)
    (hA : A.covers execGauTouchdown_sites) : KeepsOut A s (execGauTouchdown a h s) := by
  simp [execGauTouchdown_sites] at hA
  simp (maxDischargeDepth := 99) [execGauTouchdown, hA]

def execGauAssist_sites : List Site := State.startCalibration_sites

theorem execGauAssist_keeps {A : Scope} (a : Nat) (h : Nat) (s : State)
    (hA : A.covers execGauAssist_sites) : KeepsOut A s (execGauAssist a h s) := by
  simp [execGauAssist_sites] at hA
  simp (maxDischargeDepth := 99) [execGauAssist, hA]

def execGauIsenseSpn_sites : List Site := State.startCalibration_sites

theorem execGauIsenseSpn_keeps {A : Scope} (s : State)
    (hA : A.covers execGauIsenseSpn_sites) : KeepsOut A s (execGauIsenseSpn s) := by
  simp [execGauIsenseSpn_sites] at hA
  simp (maxDischargeDepth := 99) [execGauIsenseSpn, hA]

def execGauIsenseVcm_sites : List Site := State.startCalibration_sites

theorem execGauIsenseVcm_keeps {A : Scope} (a : Nat) (s : State)
    (hA : A.covers execGauIsenseVcm_sites) : KeepsOut A s (execGauIsenseVcm a s) := by
  simp [execGauIsenseVcm_sites] at hA
  simp (maxDischargeDepth := 99) [execGauIsenseVcm, hA]

def execGauTemp_sites : List Site := State.startCalibration_sites

theorem execGauTemp_keeps {A : Scope} (s : State)
    (hA : A.covers execGauTemp_sites) : KeepsOut A s (execGauTemp s) := by
  simp [execGauTemp_sites] at hA
  simp (maxDischargeDepth := 99) [execGauTemp, hA]

def execGaugeTargetIdle_sites : List Site := State.beginRun_sites ++ [.one R.GAU_STATUS, .part .gauge]

theorem execGaugeTargetIdle_keeps {A : Scope} (s : State)
    (hA : A.covers execGaugeTargetIdle_sites) : KeepsOut A s (execGaugeTargetIdle s) := by
  simp [execGaugeTargetIdle_sites] at hA
  have hk := Keeps.refl A s
  unfold execGaugeTargetIdle
  repeat' (first
    | (intro x; clear_value x)
    | (split <;> try lift_lets))
  all_goals first | (simp (maxDischargeDepth := 99) +contextual [*]; done) | simp_all (maxDischargeDepth := 99) +contextual

@[simp ↓] theorem State.trim_keeps {A : Scope} {s₀ : State} (s : State) (f : Fld) (width : Nat) (v : Int) (hk : Keeps A s₀ s)
    (hf : A.reg f.addr) :
    Keeps A s₀ (State.trim s f width v).1 := by simp (maxDischargeDepth := 99) [State.trim, hk, hf]

@[simp ↓] theorem trimAll_keeps {A : Scope} {s₀ : State} (width : Nat) (l : List (Fld × Int)) (s : State) (hk : Keeps A s₀ s)
    (hl : ∀ x ∈ l, A.reg x.1.addr) : Keeps A s₀ (trimAll width l s).1 := by
  induction l generalizing s with
  | nil => exact hk
  | cons x rest ih =>
    obtain ⟨f, v⟩ := x
    exact ih _ (State.trim_keeps s f width v hk (hl (f, v) (by simp))) fun y hy => hl y (List.mem_cons_of_mem _ hy)

/-- The fields of a correction lie in the registers of a list. -/
theorem fields_covered {A : Scope} {l : List Fld} (v : Nat → Int) (h : ∀ f ∈ l, A.reg f.addr) :
    ∀ x ∈ l.zipIdx.map (fun f => (f.1, v f.2)), A.reg x.1.addr := by
  intro x hx
  obtain ⟨y, hy, rfl⟩ := List.mem_map.1 hx
  exact h _ (List.fst_mem_of_mem_zipIdx hy)

def State.touchdown_sites : List Site := [.grid R.ACT_HEAD_HEAT]

@[simp ↓] theorem State.touchdown_keeps {A : Scope} {s₀ : State} (s : State) (a : Nat) (h : Nat) (l : List Int) (hk : Keeps A s₀ s)
    (hA : A.covers State.touchdown_sites) :
    Keeps A s₀ (State.touchdown s a h l).1 := by
  simp [State.touchdown_sites] at hA
  simp (maxDischargeDepth := 99) [State.touchdown, hk, hA]

def State.assistRun_sites : List Site := [.grid R.ACT_HEAD_ASSIST]

@[simp ↓] theorem State.assistRun_keeps {A : Scope} {s₀ : State} (s : State) (a : Nat) (h : Nat) (l : List Int) (hk : Keeps A s₀ s)
    (hA : A.covers State.assistRun_sites) :
    Keeps A s₀ (State.assistRun s a h l).1 := by
  simp [State.assistRun_sites] at hA
  unfold State.assistRun
  repeat' (first
    | (intro x; clear_value x)
    | (split <;> try lift_lets))
  all_goals first | (simp (maxDischargeDepth := 99) +contextual [*]; done) | simp_all (maxDischargeDepth := 99) +contextual

def State.calibResults_sites : List Site :=
  State.assistRun_sites ++ State.touchdown_sites ++ [.each R.GAU_ADC, .one R.GAU_ISENSE, .one R.GAU_ISENSE_VCM, .grid
    R.GAU_RDR, .each R.GAU_SKEW, .one R.GAU_TEMP]

@[simp ↓] theorem State.calibResults_keeps {A : Scope} {s₀ : State} (s : State) (c : Calibration) (m : List Int) (hk : Keeps A s₀ s)
    (hA : A.covers State.calibResults_sites) :
    Keeps A s₀ (s.calibResults c m).1 := by
  simp [State.calibResults_sites] at hA
  unfold State.calibResults
  dsimp only
  split
  case h_5 => exact State.touchdown_keeps _ _ _ _ hk (by first | assumption | simp [*])
  case h_6 => exact State.assistRun_keeps _ _ _ _ hk (by first | assumption | simp [*])
  all_goals
    refine trimAll_keeps _ _ _ hk (fields_covered (A := A) (fun k => m.getD k 0) ?_)
    simp [hA]

def execCalibrationEnd_sites : List Site :=
  State.calibResults_sites ++ [.one R.GAU_EVENTS, .one R.GAU_RAW, .one R.GAU_STATUS, .part .gauge]

theorem execCalibrationEnd_keeps {A : Scope} (m : List Int) (s : State)
    (hA : A.covers execCalibrationEnd_sites) : KeepsOut A s (execCalibrationEnd m s) := by
  simp [execCalibrationEnd_sites] at hA
  have hk := Keeps.refl A s
  unfold execCalibrationEnd
  repeat' (first
    | (intro x; clear_value x)
    | (split <;> try lift_lets))
  all_goals first | (simp (maxDischargeDepth := 99) +contextual [*]; done) | simp_all (maxDischargeDepth := 99) +contextual

end Sys2Proof.Machine
end

