-- ==== Sys2Proof/Laws/KeepsRepattern.lean ====
section
/-!
SUPPORT. Sys2Proof/Laws/KeepsRepattern.lean: the operations and meanings of Machine/Repattern.lean keep (Laws/Keeps.lean).
-/

set_option linter.all false
set_option Elab.async false

namespace Sys2Proof.Machine

@[simp ↓] theorem State.putDigest_keeps {A : Scope} {s₀ : State} (s : State) (reg : Nat → Nat) (d : Digest) (hk : Keeps A s₀ s)
    (hr : ∀ k, A.reg (reg k)) :
    Keeps A s₀ (State.putDigest s reg d) := by
  unfold State.putDigest
  repeat' (first
    | (intro x; clear_value x))
  all_goals first | (simp (maxDischargeDepth := 99) +contextual [*]; done) | simp_all (maxDischargeDepth := 99) +contextual

def State.putLoc_sites : List Site := [.one R.PAT_ERR_LOC]

@[simp ↓] theorem State.putLoc_keeps {A : Scope} {s₀ : State} (s : State) (panel : Nat) (entry : Nat) (hk : Keeps A s₀ s)
    (hA : A.covers State.putLoc_sites) :
    Keeps A s₀ (State.putLoc s panel entry) := by
  simp [State.putLoc_sites] at hA
  simp (maxDischargeDepth := 99) [State.putLoc, hk, hA]

def State.recordSkipped_sites : List Site := State.event_sites

@[simp ↓] theorem State.recordSkipped_keeps {A : Scope} {s₀ : State} (s : State) (l : List (Nat × Nat)) (hk : Keeps A s₀ s)
    (hA : A.covers State.recordSkipped_sites) :
    Keeps A s₀ (State.recordSkipped s l) := by
  simp [State.recordSkipped_sites] at hA
  unfold State.recordSkipped
  repeat' (first
    | (intro x; clear_value x))
  all_goals first | (simp (maxDischargeDepth := 99) +contextual [*]; done) | simp_all (maxDischargeDepth := 99) +contextual

def State.effectiveCeiling_sites : List Site := [.one R.KEEP_CEILING]

@[simp ↓] theorem State.effectiveCeiling_keeps {A : Scope} {s₀ : State} (s : State) (hk : Keeps A s₀ s)
    (hA : A.covers State.effectiveCeiling_sites) :
    Keeps A s₀ (State.effectiveCeiling s) := by
  simp [State.effectiveCeiling_sites] at hA
  simp (maxDischargeDepth := 99) [State.effectiveCeiling, hk, hA]

def State.loadEnergy_sites : List Site := State.effectiveCeiling_sites ++ [.one R.KEEP_MODEL, .one R.PWR_CTRL]

@[simp ↓] theorem State.loadEnergy_keeps {A : Scope} {s₀ : State} (s : State) (hk : Keeps A s₀ s)
    (hA : A.covers State.loadEnergy_sites) :
    Keeps A s₀ (State.loadEnergy s) := by
  simp [State.loadEnergy_sites] at hA
  simp (maxDischargeDepth := 99) [State.loadEnergy, hk, hA]

def State.loadRecorder_sites : List Site := [.one R.REC_FILTER, .one R.REC_SOURCES_HI, .one R.REC_SOURCES_LO]

@[simp ↓] theorem State.loadRecorder_keeps {A : Scope} {s₀ : State} (s : State) (hk : Keeps A s₀ s)
    (hA : A.covers State.loadRecorder_sites) :
    Keeps A s₀ (State.loadRecorder s) := by
  simp [State.loadRecorder_sites] at hA
  simp (maxDischargeDepth := 99) [State.loadRecorder, hk, hA]

def State.loadPins_sites : List Site := State.traceReg_sites ++ [.one R.SYS_BALL_FUNC]

@[simp ↓] theorem State.loadPins_keeps {A : Scope} {s₀ : State} (s : State) (hk : Keeps A s₀ s)
    (hA : A.covers State.loadPins_sites) :
    Keeps A s₀ (State.loadPins s) := by
  simp [State.loadPins_sites] at hA
  simp (maxDischargeDepth := 99) [State.loadPins, hk, hA]

def State.loadPatternRegs_sites : List Site :=
  State.loadEnergy_sites ++ State.loadPins_sites ++ State.loadRecorder_sites ++ [.grid R.ACT_HEAD_LLIM, .each R.PAT_DIGEST,
    .one R.PAT_GEOM_CRC, .one R.PAT_ID, .one R.PAT_STATUS, .one R.PAT_SVN_HI, .one R.PAT_SVN_LO, .one R.ROWT_CTRL, .one
    R.ROWT_IDLE_PERIOD, .one R.ROWT_PERIOD]

@[simp ↓] theorem State.loadPatternRegs_keeps {A : Scope} {s₀ : State} (s : State) (hk : Keeps A s₀ s)
    (hA : A.covers State.loadPatternRegs_sites) :
    Keeps A s₀ (State.loadPatternRegs s) := by
  simp [State.loadPatternRegs_sites] at hA
  unfold State.loadPatternRegs
  repeat' (first
    | (intro x; clear_value x))
  all_goals first | (simp (maxDischargeDepth := 99) +contextual [*]; done) | simp_all (maxDischargeDepth := 99) +contextual

def State.applyPanels_sites : List Site :=
  State.loadEnergy_sites ++ State.loadRecorder_sites ++ State.setBlock_sites ++ [.each R.PAT_RT_DIGEST, .part .pattern, .part
    .acts, .part .host]

@[simp ↓] theorem State.applyPanels_keeps {A : Scope} {s₀ : State} (s : State) (l : List PatternEntry) (panels : List Nat) (d : Digest) (svn : Nat) (hk : Keeps A s₀ s)
    (hA : A.covers State.applyPanels_sites) :
    Keeps A s₀ (State.applyPanels s l panels d svn) := by
  simp [State.applyPanels_sites] at hA
  simp (maxDischargeDepth := 99) [State.applyPanels, hk, hA]

def execPatLockCmd_sites : List Site := State.lockPattern_sites

theorem execPatLockCmd_keeps {A : Scope} (s : State)
    (hA : A.covers execPatLockCmd_sites) : KeepsOut A s (execPatLockCmd s) := by
  simp [execPatLockCmd_sites] at hA
  simp (maxDischargeDepth := 99) [execPatLockCmd, hA]

def execPatReload_sites : List Site := State.event_sites ++ [.one R.PAT_STATUS, .part .pattern]

theorem execPatReload_keeps {A : Scope} (s : State)
    (hA : A.covers execPatReload_sites) : KeepsOut A s (execPatReload s) := by
  simp [execPatReload_sites] at hA
  simp (maxDischargeDepth := 99) [execPatReload, hA]

def State.rejectRuntime_sites : List Site := State.event_sites ++ State.putLoc_sites ++ [.one R.PAT_STATUS, .part .pattern]

@[simp ↓] theorem State.rejectRuntime_keeps {A : Scope} {s₀ : State} (s : State) (e : PatFail) (located : Bool) (hk : Keeps A s₀ s)
    (hA : A.covers State.rejectRuntime_sites) :
    Keeps A s₀ (State.rejectRuntime s e located) := by
  simp [State.rejectRuntime_sites] at hA
  simp (maxDischargeDepth := 99) [State.rejectRuntime, hk, hA]

def execPatCancel_sites : List Site := State.rejectRuntime_sites

theorem execPatCancel_keeps {A : Scope} (s : State)
    (hA : A.covers execPatCancel_sites) : KeepsOut A s (execPatCancel s) := by
  simp [execPatCancel_sites] at hA
  simp (maxDischargeDepth := 99) [execPatCancel, hA]

def execRepatternValidated_sites : List Site :=
  State.recordSkipped_sites ++ State.rejectRuntime_sites ++ [.one R.PAT_STATUS, .part .pattern]

theorem execRepatternValidated_keeps {A : Scope} (s : State)
    (hA : A.covers execRepatternValidated_sites) : KeepsOut A s (execRepatternValidated s) := by
  simp [execRepatternValidated_sites] at hA
  have hk := Keeps.refl A s
  unfold execRepatternValidated
  repeat' (first
    | (intro x; first
        | (have hx : Keeps A s x := by
             subst x
             repeat' split
             all_goals first | with_reducible assumption | (simp (maxDischargeDepth := 99) +contextual [*]; done) | simp_all (maxDischargeDepth := 99) +contextual
           clear_value x)
        | clear_value x)
    | (split <;> try lift_lets))
  all_goals first | (simp (maxDischargeDepth := 99) +contextual [*]; done) | simp_all (maxDischargeDepth := 99) +contextual

def State.takeBoundary_sites : List Site := [.part .row]

@[simp ↓] theorem State.takeBoundary_keeps {A : Scope} {s₀ : State} (s : State) (hk : Keeps A s₀ s)
    (hA : A.covers State.takeBoundary_sites) :
    Keeps A s₀ (State.takeBoundary s) := by
  simp [State.takeBoundary_sites] at hA
  simp (maxDischargeDepth := 99) [State.takeBoundary, hk, hA]

end Sys2Proof.Machine
end

