-- ==== Sys2Proof/Laws/KeepsSave.lean ====
section
/-!
SUPPORT. Sys2Proof/Laws/KeepsSave.lean: the operations and meanings of Machine/Save.lean keep (Laws/Keeps.lean).
-/

set_option linter.all false
set_option Elab.async false

namespace Sys2Proof.Machine

def State.savePresent_sites : List Site := [.one R.KEEP_STATUS]

@[simp ↓] theorem State.savePresent_keeps {A : Scope} {s₀ : State} (s : State) (hk : Keeps A s₀ s)
    (hA : A.covers State.savePresent_sites) :
    Keeps A s₀ (State.savePresent s) := by
  simp [State.savePresent_sites] at hA
  simp (maxDischargeDepth := 99) [State.savePresent, hk, hA]

def State.loadSaveKeys_sites : List Site := State.modKeySlot_sites

@[simp ↓] theorem State.loadSaveKeys_keeps {A : Scope} {s₀ : State} (s : State) (seq : Nat) (nsids : List Nat) (hk : Keeps A s₀ s)
    (hA : A.covers State.loadSaveKeys_sites) :
    Keeps A s₀ (State.loadSaveKeys s seq nsids) := by
  simp [State.loadSaveKeys_sites] at hA
  simp (maxDischargeDepth := 99) +contextual [State.loadSaveKeys, hk, hA]

def State.writeSave_sites : List Site :=
  State.loadSaveKeys_sites ++ State.savePresent_sites ++ [.part .keeper, .part .stitch]

@[simp ↓] theorem State.writeSave_keeps {A : Scope} {s₀ : State} (s : State) (step : Nat) (n : Nat) (hk : Keeps A s₀ s)
    (hA : A.covers State.writeSave_sites) :
    Keeps A s₀ (State.writeSave s step n) := by
  simp [State.writeSave_sites] at hA
  simp (maxDischargeDepth := 99) [State.writeSave, hk, hA]

def State.reportSave_sites : List Site := [.one R.KEEP_BO_LAST]

@[simp ↓] theorem State.reportSave_keeps {A : Scope} {s₀ : State} (s : State) (result : Nat) (pages : Nat) (speed : Nat) (hk : Keeps A s₀ s)
    (hA : A.covers State.reportSave_sites) :
    Keeps A s₀ (State.reportSave s result pages speed) := by
  simp [State.reportSave_sites] at hA
  simp (maxDischargeDepth := 99) [State.reportSave, hk, hA]

def State.lowerGates_sites : List Site := State.gates_sites ++ [.part .keeper]

@[simp ↓] theorem State.lowerGates_keeps {A : Scope} {s₀ : State} (s : State) (hk : Keeps A s₀ s)
    (hA : A.covers State.lowerGates_sites) :
    Keeps A s₀ (State.lowerGates s) := by
  simp [State.lowerGates_sites] at hA
  simp (maxDischargeDepth := 99) [State.lowerGates, hk, hA]

def State.stopService_sites : List Site :=
  State.discardWrite_sites ++ State.linkFalls_sites ++ [.part .pairs, .part .host, .part .flow]

@[simp ↓] theorem State.stopService_keeps {A : Scope} {s₀ : State} (s : State) (hk : Keeps A s₀ s)
    (hA : A.covers State.stopService_sites) :
    Keeps A s₀ (State.stopService s) := by
  simp [State.stopService_sites] at hA
  unfold State.stopService
  repeat' (first
    | (intro x; clear_value x))
  all_goals first | (simp (maxDischargeDepth := 99) +contextual [*]; done) | simp_all (maxDischargeDepth := 99) +contextual

def State.retractAndStop_sites : List Site :=
  State.abandonCalibration_sites ++ State.eretractBoth_sites ++ State.finishRetracts_sites ++ State.stopService_sites

@[simp ↓] theorem State.retractAndStop_keeps {A : Scope} {s₀ : State} (s : State) (cause : Nat) (hk : Keeps A s₀ s)
    (hA : A.covers State.retractAndStop_sites) :
    Keeps A s₀ (State.retractAndStop s cause) := by
  simp [State.retractAndStop_sites] at hA
  simp (maxDischargeDepth := 99) [State.retractAndStop, hk, hA]

def State.earlySaveEnds_sites : List Site := [.one R.KEEP_STATUS, .part .keeper]

@[simp ↓] theorem State.earlySaveEnds_keeps {A : Scope} {s₀ : State} (s : State) (hk : Keeps A s₀ s)
    (hA : A.covers State.earlySaveEnds_sites) :
    Keeps A s₀ (State.earlySaveEnds s) := by
  simp [State.earlySaveEnds_sites] at hA
  simp (maxDischargeDepth := 99) [State.earlySaveEnds, hk, hA]

def State.saveFromInput_sites : List Site :=
  State.earlySaveEnds_sites ++ State.lowerGates_sites ++ State.reportSave_sites ++ State.retractAndStop_sites ++
    State.writeSave_sites ++ [.part .keeper]

@[simp ↓] theorem State.saveFromInput_keeps {A : Scope} {s₀ : State} (s : State) (cause : Nat) (hk : Keeps A s₀ s)
    (hA : A.covers State.saveFromInput_sites) :
    Keeps A s₀ (State.saveFromInput s cause) := by
  simp [State.saveFromInput_sites] at hA
  simp (maxDischargeDepth := 99) [State.saveFromInput, hk, hA]

def State.passWp_sites : List Site := State.walker_sites

@[simp ↓] theorem State.passWp_keeps {A : Scope} {s₀ : State} (s : State) (d : Nat) (hk : Keeps A s₀ s)
    (hA : A.covers State.passWp_sites) :
    Keeps A s₀ (State.passWp s d) := by
  simp [State.passWp_sites] at hA
  simp (maxDischargeDepth := 99) [State.passWp, hk, hA]

def State.restorePage_sites : List Site :=
  State.appendCache_sites ++ State.madeReadable_sites ++ State.passWp_sites ++ State.walker_sites ++ State.writeMedia_sites

@[simp ↓] theorem State.restorePage_keeps {A : Scope} {s₀ : State} (s : State) (p : SavedPage) (hk : Keeps A s₀ s)
    (hA : A.covers State.restorePage_sites) :
    KeepsOpt A (fun t => t) s₀ (State.restorePage s p) := by
  simp [State.restorePage_sites] at hA
  unfold State.restorePage
  try lift_lets
  repeat' (first
    | (intro x; first
        | (have hx : Keeps A s₀ x := by
             subst x
             repeat' split
             all_goals first | with_reducible assumption | (simp (maxDischargeDepth := 99) +contextual [*]; done) | simp_all (maxDischargeDepth := 99) +contextual
           clear_value x)
        | clear_value x)
    | (generalize he : State.appendCache _ _ _ _ = p
       have hp : KeepsOpt A (fun t => t.2) s₀ p := by
         subst he; exact State.appendCache_keeps _ _ _ _ (by first | with_reducible assumption | simp (maxDischargeDepth := 99) +contextual [*]) (by first | assumption | simp [*])
       clear he
       rcases p with _ | p
       rotate_left 1
       replace hp : Keeps A s₀ p.2 := hp p rfl)
    | (split <;> try lift_lets))
  all_goals first | (simp (maxDischargeDepth := 99) +contextual [*]; done) | simp_all (maxDischargeDepth := 99) +contextual

def State.restorePages_sites : List Site := State.restorePage_sites

@[simp ↓] theorem State.restorePages_keeps {A : Scope} {s₀ : State} (l : List SavedPage) (s : State) (hk : Keeps A s₀ s)
    (hA : A.covers State.restorePages_sites) :
    KeepsOpt A (fun t => t) s₀ (State.restorePages l s) := by
  simp [State.restorePages_sites] at hA
  induction l generalizing s with
  | nil => exact keepsOpt_some hk
  | cons p rest ih =>
    intro t ht
    rw [State.restorePages] at ht
    obtain ⟨u, hu, h⟩ := Option.bind_eq_some_iff.mp ht
    exact ih u (State.restorePage_keeps s p hk (by first | assumption | simp [*]) u hu) t h

def State.losePage_sites : List Site := State.loseRange_sites ++ State.passWp_sites

@[simp ↓] theorem State.losePage_keeps {A : Scope} {s₀ : State} (s : State) (p : SavedPage) (hk : Keeps A s₀ s)
    (hA : A.covers State.losePage_sites) :
    Keeps A s₀ (State.losePage s p) := by
  simp [State.losePage_sites] at hA
  simp (maxDischargeDepth := 99) [State.losePage, hk, hA]

def State.restoreLoss_sites : List Site := State.postVendor_sites ++ State.smartSet_sites ++ [.one R.KEEP_STATUS]

@[simp ↓] theorem State.restoreLoss_keeps {A : Scope} {s₀ : State} (s : State) (before : List UnreadableEntry) (hk : Keeps A s₀ s)
    (hA : A.covers State.restoreLoss_sites) :
    Keeps A s₀ (State.restoreLoss s before) := by
  simp [State.restoreLoss_sites] at hA
  simp (maxDischargeDepth := 99) [State.restoreLoss, hk, hA]

def State.endRestore_sites : List Site := State.savePresent_sites ++ [.part .keeper]

@[simp ↓] theorem State.endRestore_keeps {A : Scope} {s₀ : State} (s : State) (hk : Keeps A s₀ s)
    (hA : A.covers State.endRestore_sites) :
    Keeps A s₀ (State.endRestore s) := by
  simp [State.endRestore_sites] at hA
  simp (maxDischargeDepth := 99) [State.endRestore, hk, hA]

def State.restoreSave_sites : List Site :=
  State.endRestore_sites ++ State.losePage_sites ++ State.loseRange_sites ++ State.restoreLoss_sites ++
    State.restorePages_sites

@[simp ↓] theorem State.restoreSave_keeps {A : Scope} {s₀ : State} (s : State) (x : Save) (hk : Keeps A s₀ s)
    (hA : A.covers State.restoreSave_sites) :
    KeepsOpt A (fun t => t) s₀ (State.restoreSave s x) := by
  simp [State.restoreSave_sites] at hA
  unfold State.restoreSave
  repeat' (first
    | (intro x; first
        | (have hx : Keeps A s₀ x := by
             subst x
             repeat' split
             all_goals first | with_reducible assumption | (simp (maxDischargeDepth := 99) +contextual [*]; done) | simp_all (maxDischargeDepth := 99) +contextual
           clear_value x)
        | clear_value x)
    | (generalize he : State.restorePages _ _ = p
       have hp : KeepsOpt A (fun t => t) s₀ p := by
         subst he; exact State.restorePages_keeps _ _ (by first | with_reducible assumption | simp (maxDischargeDepth := 99) +contextual [*]) (by first | assumption | simp [*])
       clear he
       rcases p with _ | p
       rotate_left 1
       replace hp : Keeps A s₀ p := hp p rfl)
    | (split <;> try lift_lets))
  all_goals first | (simp (maxDischargeDepth := 99) +contextual [*]; done) | simp_all (maxDischargeDepth := 99) +contextual

def execSaveRestore_sites : List Site := State.endRestore_sites ++ State.restoreSave_sites

theorem execSaveRestore_keeps {A : Scope} (s : State)
    (hA : A.covers execSaveRestore_sites) : KeepsOut A s (execSaveRestore s) := by
  simp [execSaveRestore_sites] at hA
  have hk := Keeps.refl A s
  unfold execSaveRestore
  repeat' (first
    | (intro x; clear_value x)
    | (generalize he : State.restoreSave _ _ = p
       have hp : KeepsOpt A (fun t => t) s p := by
         subst he; exact State.restoreSave_keeps _ _ (by first | with_reducible assumption | simp (maxDischargeDepth := 99) +contextual [*]) (by first | assumption | simp [*])
       clear he
       rcases p with _ | p
       rotate_left 1
       replace hp : Keeps A s p := hp p rfl)
    | (split <;> try lift_lets))
  all_goals first | (simp (maxDischargeDepth := 99) +contextual [*]; done) | simp_all (maxDischargeDepth := 99) +contextual

def State.startEarlySave_sites : List Site := State.writeSave_sites ++ [.one R.KEEP_STATUS]

@[simp ↓] theorem State.startEarlySave_keeps {A : Scope} {s₀ : State} (s : State) (hk : Keeps A s₀ s)
    (hA : A.covers State.startEarlySave_sites) :
    Keeps A s₀ (State.startEarlySave s) := by
  simp [State.startEarlySave_sites] at hA
  simp (maxDischargeDepth := 99) [State.startEarlySave, hk, hA]

def execEnergyUpdate_sites : List Site := State.startEarlySave_sites ++ [.one R.KEEP_ENERGY, .part .keeper]

theorem execEnergyUpdate_keeps {A : Scope} (s : State)
    (hA : A.covers execEnergyUpdate_sites) : KeepsOut A s (execEnergyUpdate s) := by
  simp [execEnergyUpdate_sites] at hA
  simp (maxDischargeDepth := 99) [execEnergyUpdate, hA]

def execEarlySaveDone_sites : List Site := State.earlySaveEnds_sites ++ State.reportSave_sites ++ State.writeSave_sites

theorem execEarlySaveDone_keeps {A : Scope} (s : State)
    (hA : A.covers execEarlySaveDone_sites) : KeepsOut A s (execEarlySaveDone s) := by
  simp [execEarlySaveDone_sites] at hA
  simp (maxDischargeDepth := 99) [execEarlySaveDone, hA]

def execEnergyHoldClear_sites : List Site := State.savePresent_sites ++ [.one R.KEEP_STATUS, .part .keeper]

theorem execEnergyHoldClear_keeps {A : Scope} (s : State)
    (hA : A.covers execEnergyHoldClear_sites) : KeepsOut A s (execEnergyHoldClear s) := by
  simp [execEnergyHoldClear_sites] at hA
  have hk := Keeps.refl A s
  unfold execEnergyHoldClear
  repeat' (first
    | (intro x; clear_value x)
    | (split <;> try lift_lets))
  all_goals first | (simp (maxDischargeDepth := 99) +contextual [*]; done) | simp_all (maxDischargeDepth := 99) +contextual

end Sys2Proof.Machine
end

