-- ==== Sys2Proof/Laws/KeepsDeviceReset.lean ====
section
/-!
SUPPORT. Sys2Proof/Laws/KeepsDeviceReset.lean: the operations and meanings of Machine/DeviceReset.lean keep (Laws/Keeps.lean).
-/

set_option linter.all false
set_option Elab.async false

namespace Sys2Proof.Machine

def State.tearRecord_sites : List Site := [.part .recorder]

@[simp ↓] theorem State.tearRecord_keeps {A : Scope} {s₀ : State} (s : State) (hk : Keeps A s₀ s)
    (hA : A.covers State.tearRecord_sites) :
    Keeps A s₀ (State.tearRecord s) := by
  simp [State.tearRecord_sites] at hA
  unfold State.tearRecord
  repeat' (first
    | (intro x; clear_value x)
    | (split <;> try lift_lets))
  all_goals first | (simp (maxDischargeDepth := 99) +contextual [*]; done) | simp_all (maxDischargeDepth := 99) +contextual

def State.clearDevice_sites : List Site :=
  State.tearRecord_sites ++ [.each id, .part .row, .part .pairs, .part .cable, .part .pins, .part .keeper, .part .cast, .part
    .pattern, .part .spn, .part .needles, .part .acts, .part .slices, .part .stitch, .part .host, .part .flow, .part .darn,
    .part .prot, .part .tir, .part .cip, .part .gauge, .part .upd, .part .recorder, .part .snag, .part .dbg, .part .sram,
    .part .dram]

@[simp ↓] theorem State.clearDevice_keeps {A : Scope} {s₀ : State} (s : State) (cold : Bool) (keep : Nat → Bool) (hk : Keeps A s₀ s)
    (hA : A.covers State.clearDevice_sites) :
    Keeps A s₀ (State.clearDevice s cold keep) := by
  simp [State.clearDevice_sites] at hA
  refine (State.tearRecord_keeps s hk hA.1).trans ⟨rfl, Fuses.kept_refl _, fun c => ?_, fun a h => absurd (hA.2.1 a) h, fun p h => ?_⟩
  · simp only [State.canonical, Bool.and_eq_true] at c ⊢
    exact ⟨⟨regsWf_filter _ c.1.1, rfl⟩, rfl⟩
  · cases p <;> first | rfl | exact absurd (by simp only [hA]) h

def State.keeperWrites_sites : List Site := State.programUnit_sites ++ [.part .keeper, .part .recorder]

@[simp ↓] theorem State.keeperWrites_keeps {A : Scope} {s₀ : State} (s : State) (hk : Keeps A s₀ s)
    (hA : A.covers State.keeperWrites_sites) :
    Keeps A s₀ (State.keeperWrites s) := by
  simp [State.keeperWrites_sites] at hA
  simp (maxDischargeDepth := 99) [State.keeperWrites, hk, hA]

def State.railRegs_sites : List Site := [.one R.PWR_STATUS]

@[simp ↓] theorem State.railRegs_keeps {A : Scope} {s₀ : State} (s : State) (hk : Keeps A s₀ s)
    (hA : A.covers State.railRegs_sites) :
    Keeps A s₀ (State.railRegs s) := by
  simp [State.railRegs_sites] at hA
  simp (maxDischargeDepth := 99) [State.railRegs, hk, hA]

def State.switches_sites : List Site := [.one R.PWR_STATUS]

@[simp ↓] theorem State.switches_keeps {A : Scope} {s₀ : State} (s : State) (closed : Bool) (hk : Keeps A s₀ s)
    (hA : A.covers State.switches_sites) :
    Keeps A s₀ (State.switches s closed) := by
  simp [State.switches_sites] at hA
  simp (maxDischargeDepth := 99) [State.switches, hk, hA]

def State.inputs_sites : List Site := [.one R.PWR_STATUS]

@[simp ↓] theorem State.inputs_keeps {A : Scope} {s₀ : State} (s : State) (vin12 : Bool) (vin5 : Bool) (hk : Keeps A s₀ s)
    (hA : A.covers State.inputs_sites) :
    Keeps A s₀ (State.inputs s vin12 vin5) := by
  simp [State.inputs_sites] at hA
  simp (maxDischargeDepth := 99) [State.inputs, hk, hA]

def State.frog_sites : List Site :=
  State.event_sites ++ State.postVendor_sites ++ State.putRecord_sites ++ [.one R.UPD_EVENTS]

@[simp ↓] theorem State.frog_keeps {A : Scope} {s₀ : State} (s : State) (hk : Keeps A s₀ s)
    (hA : A.covers State.frog_sites) :
    Keeps A s₀ (State.frog s) := by
  simp [State.frog_sites] at hA
  simp (maxDischargeDepth := 99) [State.frog, hk, hA]

def State.bootRecord_sites : List Site :=
  State.frog_sites ++ State.loadRecordRegs_sites ++ State.putRecord_sites ++ [.part .cast]

@[simp ↓] theorem State.bootRecord_keeps {A : Scope} {s₀ : State} (s : State) (hk : Keeps A s₀ s)
    (hA : A.covers State.bootRecord_sites) :
    Keeps A s₀ (State.bootRecord s) := by
  simp [State.bootRecord_sites] at hA
  unfold State.bootRecord
  try lift_lets
  repeat' (first
    | (intro x; first
        | (have hx : Keeps A s₀ x := by
             subst x
             repeat' split
             all_goals first | with_reducible assumption | (simp (maxDischargeDepth := 99) +contextual [*]; done) | simp_all (maxDischargeDepth := 99) +contextual
           clear_value x)
        | clear_value x))
  all_goals first | (simp (maxDischargeDepth := 99) +contextual [*]; done) | simp_all (maxDischargeDepth := 99) +contextual

def State.sessionRegs_sites : List Site :=
  [.each R.UPD_DIGEST, .one R.UPD_IDLE, .one R.UPD_PIECES, .one R.UPD_STATUS, .one R.UPD_TOTAL]

@[simp ↓] theorem State.sessionRegs_keeps {A : Scope} {s₀ : State} (s : State) (hk : Keeps A s₀ s)
    (hA : A.covers State.sessionRegs_sites) :
    Keeps A s₀ (State.sessionRegs s) := by
  simp [State.sessionRegs_sites] at hA
  unfold State.sessionRegs
  repeat' (first
    | (intro x; first
        | (have hx : Keeps A s₀ x := by
             subst x
             repeat' split
             all_goals first | with_reducible assumption | (simp (maxDischargeDepth := 99) +contextual [*]; done) | simp_all (maxDischargeDepth := 99) +contextual
           clear_value x)
        | clear_value x)
    | (split <;> try lift_lets))
  all_goals first | (simp (maxDischargeDepth := 99) +contextual [*]; done) | simp_all (maxDischargeDepth := 99) +contextual

def State.ioRelease_sites : List Site := State.driveStatus_sites ++ [.part .pins, .part .keeper]

@[simp ↓] theorem State.ioRelease_keeps {A : Scope} {s₀ : State} (s : State) (hk : Keeps A s₀ s)
    (hA : A.covers State.ioRelease_sites) :
    Keeps A s₀ (State.ioRelease s) := by
  simp [State.ioRelease_sites] at hA
  simp (maxDischargeDepth := 99) [State.ioRelease, hk, hA]

def State.keeperReload_sites : List Site :=
  [.one R.KEEP_OPTIME_HI, .one R.KEEP_OPTIME_LO, .one R.KEEP_PCC, .one R.REC_SEQ, .part .keeper, .part .recorder]

@[simp ↓] theorem State.keeperReload_keeps {A : Scope} {s₀ : State} (s : State) (hk : Keeps A s₀ s)
    (hA : A.covers State.keeperReload_sites) :
    Keeps A s₀ (State.keeperReload s) := by
  simp [State.keeperReload_sites] at hA
  simp (maxDischargeDepth := 99) [State.keeperReload, hk, hA]

def State.phase4_sites : List Site :=
  State.bootRecord_sites ++ State.ioRelease_sites ++ State.keeperReload_sites ++ State.savePresent_sites ++
    State.sessionRegs_sites ++ [.one R.ACT_LASER_FUSE, .one R.KEEP_PCC, .one R.SRM_STATUS, .one R.SYS_CASTON, .one
    R.SYS_PAIR_STATUS, .one R.TIR_STATUS]

@[simp ↓] theorem State.phase4_keeps {A : Scope} {s₀ : State} (s : State) (warm : Bool) (hk : Keeps A s₀ s)
    (hA : A.covers State.phase4_sites) :
    Keeps A s₀ (State.phase4 s warm) := by
  simp [State.phase4_sites] at hA
  simp (maxDischargeDepth := 99) [State.phase4, hk, hA]

def State.endPhase3_sites : List Site := State.phase4_sites ++ [.part .keeper]

@[simp ↓] theorem State.endPhase3_keeps {A : Scope} {s₀ : State} (s : State) (hk : Keeps A s₀ s)
    (hA : A.covers State.endPhase3_sites) :
    Keeps A s₀ (State.endPhase3 s) := by
  simp [State.endPhase3_sites] at hA
  simp (maxDischargeDepth := 99) [State.endPhase3, hk, hA]

def State.coldStart_sites : List Site :=
  State.clearDevice_sites ++ State.savePresent_sites ++ [.one R.SYS_RST_CAUSE, .part .keeper]

@[simp ↓] theorem State.coldStart_keeps {A : Scope} {s₀ : State} (s : State) (cause : Nat) (hk : Keeps A s₀ s)
    (hA : A.covers State.coldStart_sites) :
    Keeps A s₀ (State.coldStart s cause) := by
  simp [State.coldStart_sites] at hA
  simp (maxDischargeDepth := 99) [State.coldStart, hk, hA]

def State.confirmRails_sites : List Site := State.endPhase3_sites

@[simp ↓] theorem State.confirmRails_keeps {A : Scope} {s₀ : State} (s : State) (hk : Keeps A s₀ s)
    (hA : A.covers State.confirmRails_sites) :
    Keeps A s₀ (State.confirmRails s) := by
  simp [State.confirmRails_sites] at hA
  simp (maxDischargeDepth := 99) [State.confirmRails, hk, hA]

def State.coldFromHold_sites : List Site :=
  State.clearDevice_sites ++ State.confirmRails_sites ++ State.railRegs_sites ++ [.one R.PWR_STATUS, .one R.SYS_RST_CAUSE,
    .part .keeper]

@[simp ↓] theorem State.coldFromHold_keeps {A : Scope} {s₀ : State} (s : State) (cause : Nat) (hk : Keeps A s₀ s)
    (hA : A.covers State.coldFromHold_sites) :
    Keeps A s₀ (State.coldFromHold s cause) := by
  simp [State.coldFromHold_sites] at hA
  simp (maxDischargeDepth := 99) [State.coldFromHold, hk, hA]

def State.coldAfterRecovery_sites : List Site := State.coldFromHold_sites ++ State.draw_sites

@[simp ↓] theorem State.coldAfterRecovery_keeps {A : Scope} {s₀ : State} (s : State) (hk : Keeps A s₀ s)
    (hA : A.covers State.coldAfterRecovery_sites) :
    Keeps A s₀ (State.coldAfterRecovery s) := by
  simp [State.coldAfterRecovery_sites] at hA
  simp (maxDischargeDepth := 99) [State.coldAfterRecovery, hk, hA]

def State.enterHold_sites : List Site :=
  State.clearDevice_sites ++ State.keeperWrites_sites ++ State.saveFromInput_sites ++ State.spnCoast_sites ++ [.part .keeper]

@[simp ↓] theorem State.enterHold_keeps {A : Scope} {s₀ : State} (s : State) (h : Hold) (hk : Keeps A s₀ s)
    (hA : A.covers State.enterHold_sites) :
    Keeps A s₀ (State.enterHold s h) := by
  simp [State.enterHold_sites] at hA
  simp (maxDischargeDepth := 99) [State.enterHold, hk, hA]

def State.abandonActivation_sites : List Site := State.abortActivation_sites ++ [.part .upd]

@[simp ↓] theorem State.abandonActivation_keeps {A : Scope} {s₀ : State} (s : State) (hk : Keeps A s₀ s)
    (hA : A.covers State.abandonActivation_sites) :
    Keeps A s₀ (State.abandonActivation s) := by
  simp [State.abandonActivation_sites] at hA
  simp (maxDischargeDepth := 99) [State.abandonActivation, hk, hA]

def State.warmStart_sites : List Site :=
  State.abandonActivation_sites ++ State.clearDevice_sites ++ State.saveFromInput_sites ++ State.spnCoast_sites ++ [.one
    R.SYS_RST_CAUSE]

@[simp ↓] theorem State.warmStart_keeps {A : Scope} {s₀ : State} (s : State) (cause : Nat) (pair : Nat) (hk : Keeps A s₀ s)
    (hA : A.covers State.warmStart_sites) :
    Keeps A s₀ (State.warmStart s cause pair) := by
  simp [State.warmStart_sites] at hA
  simp (maxDischargeDepth := 99) [State.warmStart, hk, hA]

end Sys2Proof.Machine
end

