-- ==== Sys2Proof/Laws/KeepsPower.lean ====
section
/-!
SUPPORT. Sys2Proof/Laws/KeepsPower.lean: the operations and meanings of Machine/Power.lean keep (Laws/Keeps.lean).
-/

set_option linter.all false
set_option Elab.async false

namespace Sys2Proof.Machine

@[simp] theorem switchFld_addr (n : Nat) : (switchFld n).addr = R.PWR_STATUS := by
  unfold switchFld
  split <;> simp

def execVin5AonRise_sites : List Site := State.coldStart_sites

theorem execVin5AonRise_keeps {A : Scope} (s : State)
    (hA : A.covers execVin5AonRise_sites) : KeepsOut A s (execVin5AonRise s) := by
  simp [execVin5AonRise_sites] at hA
  simp (maxDischargeDepth := 99) [execVin5AonRise, hA]

def execKeeperQualifyDone_sites : List Site := State.inputs_sites ++ State.switches_sites ++ [.part .keeper]

theorem execKeeperQualifyDone_keeps {A : Scope} (s : State)
    (hA : A.covers execKeeperQualifyDone_sites) : KeepsOut A s (execKeeperQualifyDone s) := by
  simp [execKeeperQualifyDone_sites] at hA
  simp (maxDischargeDepth := 99) [execKeeperQualifyDone, hA]

def execSwitchRampDone_sites : List Site := [.part .keeper]

theorem execSwitchRampDone_keeps {A : Scope} (node : Nat) (s : State)
    (hA : A.covers execSwitchRampDone_sites) : KeepsOut A s (execSwitchRampDone node s) := by
  simp [execSwitchRampDone_sites] at hA
  simp (maxDischargeDepth := 99) [execSwitchRampDone, hA]

def State.openAndRetry_sites : List Site := State.railRegs_sites ++ State.switches_sites ++ [.part .keeper]

@[simp ↓] theorem State.openAndRetry_keeps {A : Scope} {s₀ : State} (s : State) (event : Fld) (hk : Keeps A s₀ s)
    (hevent : A.reg event.addr) (hA : A.covers State.openAndRetry_sites) :
    Keeps A s₀ (State.openAndRetry s event) := by
  simp [State.openAndRetry_sites] at hA
  simp (maxDischargeDepth := 99) [State.openAndRetry, hk, hevent, hA]

def execInrushTimeout_sites : List Site := State.openAndRetry_sites ++ [.one R.PWR_EVENTS]

theorem execInrushTimeout_keeps {A : Scope} (s : State)
    (hA : A.covers execInrushTimeout_sites) : KeepsOut A s (execInrushTimeout s) := by
  simp [execInrushTimeout_sites] at hA
  simp (maxDischargeDepth := 99) [execInrushTimeout, hA]

def execPowerRetry_sites : List Site := [.part .keeper]

theorem execPowerRetry_keeps {A : Scope} (s : State)
    (hA : A.covers execPowerRetry_sites) : KeepsOut A s (execPowerRetry s) := by
  simp [execPowerRetry_sites] at hA
  simp (maxDischargeDepth := 99) [execPowerRetry, hA]

def State.inputLost_sites : List Site := State.draw_sites ++ State.inputs_sites

@[simp ↓] theorem State.inputLost_keeps {A : Scope} {s₀ : State} (s : State) (hk : Keeps A s₀ s)
    (hA : A.covers State.inputLost_sites) :
    Keeps A s₀ (State.inputLost s) := by
  simp [State.inputLost_sites] at hA
  simp (maxDischargeDepth := 99) [State.inputLost, hk, hA]

def execEarlyLoss_sites : List Site := State.inputLost_sites ++ State.openAndRetry_sites ++ [.one R.PWR_EVENTS]

theorem execEarlyLoss_keeps {A : Scope} (s : State)
    (hA : A.covers execEarlyLoss_sites) : KeepsOut A s (execEarlyLoss s) := by
  simp [execEarlyLoss_sites] at hA
  simp (maxDischargeDepth := 99) [execEarlyLoss, hA]

def execRailPowerGood_sites : List Site := State.endPhase3_sites ++ State.railRegs_sites ++ [.part .keeper]

theorem execRailPowerGood_keeps {A : Scope} (s : State)
    (hA : A.covers execRailPowerGood_sites) : KeepsOut A s (execRailPowerGood s) := by
  simp [execRailPowerGood_sites] at hA
  simp (maxDischargeDepth := 99) [execRailPowerGood, hA]

def execReverseTrip_sites : List Site := [.one R.PWR_EVENTS, .one R.PWR_STATUS]

theorem execReverseTrip_keeps {A : Scope} (node : Nat) (s : State)
    (hA : A.covers execReverseTrip_sites) : KeepsOut A s (execReverseTrip node s) := by
  simp [execReverseTrip_sites] at hA
  simp (maxDischargeDepth := 99) [execReverseTrip, hA]

def execSwitchReclose_sites : List Site := State.confirmRails_sites ++ [.one R.PWR_STATUS]

theorem execSwitchReclose_keeps {A : Scope} (node : Nat) (s : State)
    (hA : A.covers execSwitchReclose_sites) : KeepsOut A s (execSwitchReclose node s) := by
  simp [execSwitchReclose_sites] at hA
  simp (maxDischargeDepth := 99) [execSwitchReclose, hA]

def execSpinupCurrentSample_sites : List Site := [.one R.PWR_IIN, .one R.PWR_STATUS, .part .spn]

theorem execSpinupCurrentSample_keeps {A : Scope} (iin12 : Nat) (iin5 : Nat) (s : State)
    (hA : A.covers execSpinupCurrentSample_sites) : KeepsOut A s (execSpinupCurrentSample iin12 iin5 s) := by
  simp [execSpinupCurrentSample_sites] at hA
  simp (maxDischargeDepth := 99) [execSpinupCurrentSample, hA]

def State.generate_sites : List Site := State.spnCoast_sites ++ [.part .spn]

@[simp ↓] theorem State.generate_keeps {A : Scope} {s₀ : State} (s : State) (hk : Keeps A s₀ s)
    (hA : A.covers State.generate_sites) :
    Keeps A s₀ (State.generate s) := by
  simp [State.generate_sites] at hA
  simp (maxDischargeDepth := 99) [State.generate, hk, hA]

def State.bindOffSteps_sites : List Site :=
  State.generate_sites ++ State.keeperWrites_sites ++ State.lowerGates_sites ++ State.reportSave_sites ++
    State.retractAndStop_sites ++ State.switches_sites ++ State.writeSave_sites ++ [.part .keeper]

@[simp ↓] theorem State.bindOffSteps_keeps {A : Scope} {s₀ : State} (s : State) (obs : BindOffObs) (hk : Keeps A s₀ s)
    (hA : A.covers State.bindOffSteps_sites) :
    Keeps A s₀ (State.bindOffSteps s obs) := by
  simp [State.bindOffSteps_sites] at hA
  simp (maxDischargeDepth := 99) [State.bindOffSteps, hk, hA]

def execBindOffStart_sites : List Site := State.bindOffSteps_sites ++ State.inputs_sites

theorem execBindOffStart_keeps {A : Scope} (obs : BindOffObs) (s : State)
    (hA : A.covers execBindOffStart_sites) : KeepsOut A s (execBindOffStart obs s) := by
  simp [execBindOffStart_sites] at hA
  simp (maxDischargeDepth := 99) [execBindOffStart, hA]

def execInputGlitch_sites : List Site := [.one R.PWR_EVENTS]

theorem execInputGlitch_keeps {A : Scope} (s : State)
    (hA : A.covers execInputGlitch_sites) : KeepsOut A s (execInputGlitch s) := by
  simp [execInputGlitch_sites] at hA
  simp (maxDischargeDepth := 99) [execInputGlitch, hA]

def execOutputRelease_sites : List Site := [.part .pins, .part .keeper, .part .spn, .part .acts]

theorem execOutputRelease_keeps {A : Scope} (s : State)
    (hA : A.covers execOutputRelease_sites) : KeepsOut A s (execOutputRelease s) := by
  simp [execOutputRelease_sites] at hA
  simp (maxDischargeDepth := 99) [execOutputRelease, hA]

def execInputReturn_sites : List Site := State.coldStart_sites

theorem execInputReturn_keeps {A : Scope} (s : State)
    (hA : A.covers execInputReturn_sites) : KeepsOut A s (execInputReturn s) := by
  simp [execInputReturn_sites] at hA
  simp (maxDischargeDepth := 99) [execInputReturn, hA]

def execInputLossInHold_sites : List Site := State.inputLost_sites ++ State.switches_sites ++ [.part .keeper]

theorem execInputLossInHold_keeps {A : Scope} (s : State)
    (hA : A.covers execInputLossInHold_sites) : KeepsOut A s (execInputLossInHold s) := by
  simp [execInputLossInHold_sites] at hA
  simp (maxDischargeDepth := 99) [execInputLossInHold, hA]

def State.temperature_sites : List Site := State.postAsync_sites ++ [.part .host]

@[simp ↓] theorem State.temperature_keeps {A : Scope} {s₀ : State} (s : State) (above : Bool) (hk : Keeps A s₀ s)
    (hA : A.covers State.temperature_sites) :
    Keeps A s₀ (State.temperature s above) := by
  simp [State.temperature_sites] at hA
  simp (maxDischargeDepth := 99) [State.temperature, hk, hA]

def execTempWarning_sites : List Site := State.smartClear_sites ++ State.temperature_sites

theorem execTempWarning_keeps {A : Scope} (above : Bool) (s : State)
    (hA : A.covers execTempWarning_sites) : KeepsOut A s (execTempWarning above s) := by
  simp [execTempWarning_sites] at hA
  simp (maxDischargeDepth := 99) [execTempWarning, hA]

def execTempCritical_sites : List Site := State.temperature_sites

theorem execTempCritical_keeps {A : Scope} (above : Bool) (s : State)
    (hA : A.covers execTempCritical_sites) : KeepsOut A s (execTempCritical above s) := by
  simp [execTempCritical_sites] at hA
  simp (maxDischargeDepth := 99) [execTempCritical, hA]

def execThermalBindOff_sites : List Site := State.enterHold_sites

theorem execThermalBindOff_keeps {A : Scope} (s : State)
    (hA : A.covers execThermalBindOff_sites) : KeepsOut A s (execThermalBindOff s) := by
  simp [execThermalBindOff_sites] at hA
  simp (maxDischargeDepth := 99) [execThermalBindOff, hA]

def execThermalRelease_sites : List Site := State.coldFromHold_sites

theorem execThermalRelease_keeps {A : Scope} (s : State)
    (hA : A.covers execThermalRelease_sites) : KeepsOut A s (execThermalRelease s) := by
  simp [execThermalRelease_sites] at hA
  simp (maxDischargeDepth := 99) [execThermalRelease, hA]

def execTestModeRise_sites : List Site := State.enterHold_sites ++ State.keeperWrites_sites ++ [.part .pins, .part .keeper]

theorem execTestModeRise_keeps {A : Scope} (s : State)
    (hA : A.covers execTestModeRise_sites) : KeepsOut A s (execTestModeRise s) := by
  simp [execTestModeRise_sites] at hA
  have hk := Keeps.refl A s
  unfold execTestModeRise
  repeat' (first
    | (intro x; clear_value x))
  all_goals first | (simp (maxDischargeDepth := 99) +contextual [*]; done) | simp_all (maxDischargeDepth := 99) +contextual

def execTestModeRelease_sites : List Site := State.coldFromHold_sites ++ [.part .pins]

theorem execTestModeRelease_keeps {A : Scope} (s : State)
    (hA : A.covers execTestModeRelease_sites) : KeepsOut A s (execTestModeRelease s) := by
  simp [execTestModeRelease_sites] at hA
  simp (maxDischargeDepth := 99) [execTestModeRelease, hA]

end Sys2Proof.Machine
end

