-- ==== Sys2Proof/Laws/KeepsCastOn.lean ====
section
/-!
SUPPORT. Sys2Proof/Laws/KeepsCastOn.lean: the operations and meanings of Machine/CastOn.lean keep (Laws/Keeps.lean).
-/

set_option linter.all false
set_option Elab.async false

namespace Sys2Proof.Machine

def State.loadComponent_sites : List Site := State.event_sites ++ State.noteFault_sites ++ [.part .cast]

@[simp ↓] theorem State.loadComponent_keeps {A : Scope} {s₀ : State} (s : State) (component : Nat) (hk : Keeps A s₀ s)
    (hA : A.covers State.loadComponent_sites) :
    Keeps A s₀ (State.loadComponent s component).2 := by
  simp [State.loadComponent_sites] at hA
  unfold State.loadComponent
  try lift_lets
  repeat' (first
    | (intro x; first
        | (have hx : Keeps A s₀ x := by
             subst x
             repeat' split
             all_goals first | with_reducible assumption | (simp (maxDischargeDepth := 99) +contextual [*]; done) | simp_all (maxDischargeDepth := 99) +contextual
           clear_value x)
        | clear_value x)
    | (split <;> try lift_lets))
  all_goals first | (simp (maxDischargeDepth := 99) +contextual [*]; done) | simp_all (maxDischargeDepth := 99) +contextual

def State.completeSvn_sites : List Site := State.putRecord_sites ++ State.svnAdvance_sites

@[simp ↓] theorem State.completeSvn_keeps {A : Scope} {s₀ : State} (s : State) (hk : Keeps A s₀ s)
    (hA : A.covers State.completeSvn_sites) :
    Keeps A s₀ (State.completeSvn s) := by
  simp [State.completeSvn_sites] at hA
  unfold State.completeSvn
  repeat' (first
    | (intro x; first
        | (have hx : Keeps A s₀ x := by
             subst x
             repeat' split
             all_goals first | with_reducible assumption | (simp (maxDischargeDepth := 99) +contextual [*]; done) | simp_all (maxDischargeDepth := 99) +contextual
           clear_value x)
        | clear_value x)
    | (split <;> try lift_lets))
  all_goals first | (simp (maxDischargeDepth := 99) +contextual [*]; done) | simp_all (maxDischargeDepth := 99) +contextual

def State.settingsReset_sites : List Site := State.eventWith_sites ++ [.one R.UPD_EVENTS, .part .upd]

@[simp ↓] theorem State.settingsReset_keeps {A : Scope} {s₀ : State} (s : State) (slot : Nat) (hk : Keeps A s₀ s)
    (hA : A.covers State.settingsReset_sites) :
    Keeps A s₀ (State.settingsReset s slot) := by
  simp [State.settingsReset_sites] at hA
  unfold State.settingsReset
  repeat' (first
    | (intro x; clear_value x))
  all_goals first | (simp (maxDischargeDepth := 99) +contextual [*]; done) | simp_all (maxDischargeDepth := 99) +contextual

def execLogicDieResetEnd_sites : List Site := State.phase4_sites ++ [.part .keeper]

theorem execLogicDieResetEnd_keeps {A : Scope} (s : State)
    (hA : A.covers execLogicDieResetEnd_sites) : KeepsOut A s (execLogicDieResetEnd s) := by
  simp [execLogicDieResetEnd_sites] at hA
  simp (maxDischargeDepth := 99) [execLogicDieResetEnd, hA]

def State.castFails_sites : List Site := State.shadowAlone_sites ++ [.one R.SYS_CASTON]

@[simp ↓] theorem State.castFails_keeps {A : Scope} {s₀ : State} (s : State) (code : Nat) (hk : Keeps A s₀ s)
    (hA : A.covers State.castFails_sites) :
    Keeps A s₀ (State.castFails s code) := by
  simp [State.castFails_sites] at hA
  simp (maxDischargeDepth := 99) [State.castFails, hk, hA]

def State.startTirium_sites : List Site :=
  State.loadComponent_sites ++ State.noteVerified_sites ++ State.tiriumBoot_sites ++ [.one R.SYS_CASTON, .one R.TIR_STATUS]

@[simp ↓] theorem State.startTirium_keeps {A : Scope} {s₀ : State} (s : State) (hk : Keeps A s₀ s)
    (hA : A.covers State.startTirium_sites) :
    Keeps A s₀ (State.startTirium s) := by
  simp [State.startTirium_sites] at hA
  unfold State.startTirium
  repeat' (first
    | (intro x; clear_value x)
    | (generalize he : State.loadComponent _ _ = p
       have hp : Keeps A s₀ p.2 := by subst he; first | with_reducible assumption | simp (maxDischargeDepth := 99) +contextual [*]
       clear he
       obtain ⟨_, _⟩ := p)
    | (split <;> try lift_lets))
  all_goals first | (simp (maxDischargeDepth := 99) +contextual [*]; done) | simp_all (maxDischargeDepth := 99) +contextual

def State.takePattern_sites : List Site :=
  State.driveStatus_sites ++ State.loadPatternRegs_sites ++ State.setBlock_sites ++ [.one R.PAT_STATUS, .part .pattern]

@[simp ↓] theorem State.takePattern_keeps {A : Scope} {s₀ : State} (s : State) (p : Pattern) (entries : List PatternEntry) (st : Nat) (hk : Keeps A s₀ s)
    (hA : A.covers State.takePattern_sites) :
    Keeps A s₀ (State.takePattern s p entries st) := by
  simp [State.takePattern_sites] at hA
  simp (maxDischargeDepth := 99) [State.takePattern, hk, hA]

def State.choosePattern_sites : List Site :=
  State.event_sites ++ State.putLoc_sites ++ State.recordSkipped_sites ++ State.takePattern_sites ++ [.one R.PAT_STATUS, .part
    .cast]

@[simp ↓] theorem State.choosePattern_keeps {A : Scope} {s₀ : State} (s : State) (hk : Keeps A s₀ s)
    (hA : A.covers State.choosePattern_sites) :
    Keeps A s₀ (State.choosePattern s) := by
  simp [State.choosePattern_sites] at hA
  unfold State.choosePattern
  try lift_lets
  repeat' (first
    | (intro x; first
        | (have hx : Keeps A s₀ x := by
             subst x
             repeat' split
             all_goals first | with_reducible assumption | (simp (maxDischargeDepth := 99) +contextual [*]; done) | simp_all (maxDischargeDepth := 99) +contextual
           clear_value x)
        | clear_value x)
    | (split <;> try lift_lets))
  all_goals first | (simp (maxDischargeDepth := 99) +contextual [*]; done) | simp_all (maxDischargeDepth := 99) +contextual

def execSelftestDone_sites : List Site :=
  State.castFails_sites ++ State.choosePattern_sites ++ State.startTirium_sites ++ [.one R.SRM_EVENTS, .one R.SRM_STATUS, .one
    R.SYS_CASTON]

theorem execSelftestDone_keeps {A : Scope} (repaired : Nat) (sramOk : Bool) (wordOk : Bool) (pageOk : Bool) (s : State)
    (hA : A.covers execSelftestDone_sites) : KeepsOut A s (execSelftestDone repaired sramOk wordOk pageOk s) := by
  simp [execSelftestDone_sites] at hA
  simp (maxDischargeDepth := 99) [execSelftestDone, hA]

def State.buildControllers_sites : List Site := [.one R.HIF_CTRL_EXIST, .part .host]

@[simp ↓] theorem State.buildControllers_keeps {A : Scope} {s₀ : State} (s : State) (hk : Keeps A s₀ s)
    (hA : A.covers State.buildControllers_sites) :
    Keeps A s₀ (State.buildControllers s) := by
  simp [State.buildControllers_sites] at hA
  simp (maxDischargeDepth := 99) [State.buildControllers, hk, hA]

def State.loadLedger_sites : List Site := State.accountRegs_sites ++ State.loadClass_sites ++ [.part .flow]

@[simp ↓] theorem State.loadLedger_keeps {A : Scope} {s₀ : State} (s : State) (hk : Keeps A s₀ s)
    (hA : A.covers State.loadLedger_sites) :
    Keeps A s₀ (State.loadLedger s) := by
  simp [State.loadLedger_sites] at hA
  unfold State.loadLedger
  repeat' (first
    | (intro x; clear_value x))
  all_goals first | (simp (maxDischargeDepth := 99) +contextual [*]; done) | simp_all (maxDischargeDepth := 99) +contextual

def execPatternPhaseDone_sites : List Site :=
  State.buildControllers_sites ++ State.loadLedger_sites ++ State.saveCapacity_sites ++ State.trainLink_sites ++
    State.unreadRegs_sites ++ [.one R.SYS_CASTON, .part .keeper, .part .cast]

theorem execPatternPhaseDone_keeps {A : Scope} (s : State)
    (hA : A.covers execPatternPhaseDone_sites) : KeepsOut A s (execPatternPhaseDone s) := by
  simp [execPatternPhaseDone_sites] at hA
  simp (maxDischargeDepth := 99) [execPatternPhaseDone, hA]

def execDramTrainDone_sites : List Site :=
  State.castFails_sites ++ [.one R.MEM_REMAP_STATUS, .each R.MEM_RETIRE, .each R.MEM_TEST, .one R.SYS_CASTON]

theorem execDramTrainDone_keeps {A : Scope} (failing : List (Nat × Nat)) (s : State)
    (hA : A.covers execDramTrainDone_sites) : KeepsOut A s (execDramTrainDone failing s) := by
  simp [execDramTrainDone_sites] at hA
  simp (maxDischargeDepth := 99) [execDramTrainDone, hA]

def State.startNeedle_sites : List Site :=
  State.loadCredits_sites ++ State.seatSlice_sites ++ [.each R.NDL_GRAPH, .each R.NDL_STATUS]

@[simp ↓] theorem State.startNeedle_keeps {A : Scope} {s₀ : State} (s : State) (e : ActuatorEntry) (hk : Keeps A s₀ s)
    (hA : A.covers State.startNeedle_sites) :
    Keeps A s₀ (State.startNeedle s e) := by
  simp [State.startNeedle_sites] at hA
  simp (maxDischargeDepth := 99) [State.startNeedle, hk, hA]

def State.startUnits_sites : List Site :=
  State.idleSlice_sites ++ State.startNeedle_sites ++ [.each R.NDL_STATUS, .one R.SYS_PAIR_STATUS]

@[simp ↓] theorem State.startUnits_keeps {A : Scope} {s₀ : State} (s : State) (hk : Keeps A s₀ s)
    (hA : A.covers State.startUnits_sites) :
    Keeps A s₀ (State.startUnits s) := by
  simp [State.startUnits_sites] at hA
  unfold State.startUnits
  repeat' (first
    | (intro x; clear_value x))
  all_goals first | (simp (maxDischargeDepth := 99) +contextual [*]; done) | simp_all (maxDischargeDepth := 99) +contextual

def State.startFront_sites : List Site := [.one R.SYS_PAIR_STATUS]

@[simp ↓] theorem State.startFront_keeps {A : Scope} {s₀ : State} (s : State) (hk : Keeps A s₀ s)
    (hA : A.covers State.startFront_sites) : Keeps A s₀ (State.startFront s) := by
  simp [State.startFront_sites] at hA
  simp (maxDischargeDepth := 99) [State.startFront, hk, hA]

def State.startRecovery_sites : List Site :=
  State.buildControllers_sites ++ State.linkFalls_sites ++ [.one R.SYS_CASTON, .one R.SYS_PAIR_STATUS, .part .cast, .part
    .pattern, .part .host]

@[simp ↓] theorem State.startRecovery_keeps {A : Scope} {s₀ : State} (s : State) (component : Nat) (hk : Keeps A s₀ s)
    (hA : A.covers State.startRecovery_sites) :
    Keeps A s₀ (State.startRecovery s component) := by
  simp [State.startRecovery_sites] at hA
  simp (maxDischargeDepth := 99) [State.startRecovery, hk, hA]

def State.loadAll_sites : List Site := State.loadComponent_sites

@[simp ↓] theorem State.loadAll_keeps {A : Scope} {s₀ : State} (l : List Nat) (s : State) (hk : Keeps A s₀ s)
    (hA : A.covers State.loadAll_sites) : Keeps A s₀ (State.loadAll l s).2.2 := by
  simp [State.loadAll_sites] at hA
  induction l generalizing s with
  | nil => exact hk
  | cons c rest ih =>
    have h := State.loadComponent_keeps s c hk (by first | assumption | simp [*])
    simp only [State.loadAll]
    generalize s.loadComponent c = r at h ⊢
    obtain ⟨img, t⟩ := r
    cases img with
    | none => exact h
    | some img => exact ih t h

def State.loaded_sites : List Site := State.noteVerified_sites ++ State.setBlock_sites ++ [.each R.NDL_UCODE]

@[simp ↓] theorem State.loaded_keeps {A : Scope} {s₀ : State} (s : State) (e : Nat × List Byte) (hk : Keeps A s₀ s)
    (hA : A.covers State.loaded_sites) :
    Keeps A s₀ (State.loaded s e) := by
  simp [State.loaded_sites] at hA
  unfold State.loaded
  repeat' (first
    | (intro x; clear_value x))
  all_goals first | (simp (maxDischargeDepth := 99) +contextual [*]; done) | simp_all (maxDischargeDepth := 99) +contextual

def State.copyCode_sites : List Site := [.part .prot, .part .dram]

@[simp ↓] theorem State.copyCode_keeps {A : Scope} {s₀ : State} (l : List (Nat × List Byte)) (at_ : Nat) (s : State) (hk : Keeps A s₀ s)
    (hA : A.covers State.copyCode_sites) :
    Keeps A s₀ (State.copyCode l at_ s) := by
  simp [State.copyCode_sites] at hA
  induction l generalizing s at_ with
  | nil => exact hk
  | cons e rest ih => exact ih _ _ (by simp (maxDischargeDepth := 99) [hk, hA])

def execLoadDone_sites : List Site :=
  State.completeSvn_sites ++ State.copyCode_sites ++ State.loadAll_sites ++ State.loaded_sites ++ State.settingsReset_sites ++
    State.startFront_sites ++ State.startRecovery_sites ++ State.startUnits_sites ++ [.one R.DRN_REWRITE_STATUS, .one
    R.SYS_CASTON, .part .cast]

theorem execLoadDone_keeps {A : Scope} (s : State)
    (hA : A.covers execLoadDone_sites) : KeepsOut A s (execLoadDone s) := by
  simp [execLoadDone_sites] at hA
  have hk := Keeps.refl A s
  unfold execLoadDone
  repeat' (first
    | (intro x; first
        | (have hx : Keeps A s x := by
             subst x
             repeat' split
             all_goals first | with_reducible assumption | (simp (maxDischargeDepth := 99) +contextual [*]; done) | simp_all (maxDischargeDepth := 99) +contextual
           clear_value x)
        | clear_value x)
    | (generalize he : State.loadAll _ _ = p
       have hp : Keeps A s p.2.2 := by subst he; first | with_reducible assumption | simp (maxDischargeDepth := 99) +contextual [*]
       clear he
       obtain ⟨_, _⟩ := p)
    | (split <;> try lift_lets))
  all_goals first | (simp (maxDischargeDepth := 99) +contextual [*]; done) | simp_all (maxDischargeDepth := 99) +contextual

def State.legacyRelease_sites : List Site := State.startUnits_sites ++ [.part .cast]

@[simp ↓] theorem State.legacyRelease_keeps {A : Scope} {s₀ : State} (s : State) (hk : Keeps A s₀ s)
    (hA : A.covers State.legacyRelease_sites) :
    Keeps A s₀ (State.legacyRelease s) := by
  simp [State.legacyRelease_sites] at hA
  simp (maxDischargeDepth := 99) [State.legacyRelease, hk, hA]

def execLegacyRelease_sites : List Site := State.legacyRelease_sites

theorem execLegacyRelease_keeps {A : Scope} (s : State)
    (hA : A.covers execLegacyRelease_sites) : KeepsOut A s (execLegacyRelease s) := by
  simp [execLegacyRelease_sites] at hA
  simp (maxDischargeDepth := 99) [execLegacyRelease, hA]

def State.hostReady_sites : List Site := State.draw_sites ++ [.one R.SYS_CASTON, .one R.SYS_CASTON_TIME]

@[simp ↓] theorem State.hostReady_keeps {A : Scope} {s₀ : State} (s : State) (hk : Keeps A s₀ s)
    (hA : A.covers State.hostReady_sites) :
    Keeps A s₀ (State.hostReady s) := by
  simp [State.hostReady_sites] at hA
  simp (maxDischargeDepth := 99) [State.hostReady, hk, hA]

def execHostReady_sites : List Site := State.hostReady_sites

theorem execHostReady_keeps {A : Scope} (s : State)
    (hA : A.covers execHostReady_sites) : KeepsOut A s (execHostReady s) := by
  simp [execHostReady_sites] at hA
  simp (maxDischargeDepth := 99) [execHostReady, hA]

def State.warmByFirmware_sites : List Site := State.warmStart_sites

@[simp ↓] theorem State.warmByFirmware_keeps {A : Scope} {s₀ : State} (s : State) (key : Nat) (hk : Keeps A s₀ s)
    (hA : A.covers State.warmByFirmware_sites) :
    Keeps A s₀ (State.warmByFirmware s key) := by
  simp [State.warmByFirmware_sites] at hA
  simp (maxDischargeDepth := 99) [State.warmByFirmware, hk, hA]

def execWarmReset_sites : List Site := State.warmByFirmware_sites

theorem execWarmReset_keeps {A : Scope} (key : Nat) (s : State)
    (hA : A.covers execWarmReset_sites) : KeepsOut A s (execWarmReset key s) := by
  simp [execWarmReset_sites] at hA
  simp (maxDischargeDepth := 99) [execWarmReset, hA]

def execWatchdogExpiry_sites : List Site := State.noteFault_sites ++ State.warmStart_sites

theorem execWatchdogExpiry_keeps {A : Scope} (p : Nat) (s : State)
    (hA : A.covers execWatchdogExpiry_sites) : KeepsOut A s (execWatchdogExpiry p s) := by
  simp [execWatchdogExpiry_sites] at hA
  simp (maxDischargeDepth := 99) [execWatchdogExpiry, hA]

def State.watchdogKick_sites : List Site := [.part .cast]

@[simp ↓] theorem State.watchdogKick_keeps {A : Scope} {s₀ : State} (s : State) (pairs : Nat) (hk : Keeps A s₀ s)
    (hA : A.covers State.watchdogKick_sites) :
    Keeps A s₀ (State.watchdogKick s pairs) := by
  simp [State.watchdogKick_sites] at hA
  simp (maxDischargeDepth := 99) [State.watchdogKick, hk, hA]

def execWatchdogKick_sites : List Site := State.watchdogKick_sites

theorem execWatchdogKick_keeps {A : Scope} (pairs : Nat) (s : State)
    (hA : A.covers execWatchdogKick_sites) : KeepsOut A s (execWatchdogKick pairs s) := by
  simp [execWatchdogKick_sites] at hA
  simp (maxDischargeDepth := 99) [execWatchdogKick, hA]

def State.watchdogConfig_sites : List Site := State.watchdogKick_sites ++ [.one R.SYS_WDOG]

@[simp ↓] theorem State.watchdogConfig_keeps {A : Scope} {s₀ : State} (s : State) (period : Nat) (pairs : Nat) (hk : Keeps A s₀ s)
    (hA : A.covers State.watchdogConfig_sites) :
    Keeps A s₀ (State.watchdogConfig s period pairs) := by
  simp [State.watchdogConfig_sites] at hA
  simp (maxDischargeDepth := 99) [State.watchdogConfig, hk, hA]

def execWatchdogConfig_sites : List Site := State.watchdogConfig_sites

theorem execWatchdogConfig_keeps {A : Scope} (period : Nat) (pairs : Nat) (s : State)
    (hA : A.covers execWatchdogConfig_sites) : KeepsOut A s (execWatchdogConfig period pairs s) := by
  simp [execWatchdogConfig_sites] at hA
  simp (maxDischargeDepth := 99) [execWatchdogConfig, hA]

end Sys2Proof.Machine
end

