-- ==== Sys2Proof/Laws/KeepsBundle.lean ====
section
/-!
SUPPORT. Sys2Proof/Laws/KeepsBundle.lean: the operations and meanings of Machine/Bundle.lean keep (Laws/Keeps.lean).
-/

set_option linter.all false
set_option Elab.async false

namespace Sys2Proof.Machine

def State.endSession_sites : List Site :=
  State.postVendor_sites ++ State.sessionRegs_sites ++ [.one R.UPD_STATUS, .part .upd]

@[simp ↓] theorem State.endSession_keeps {A : Scope} {s₀ : State} (s : State) (event : Fld) (hk : Keeps A s₀ s)
    (hevent : A.reg event.addr) (hA : A.covers State.endSession_sites) :
    Keeps A s₀ (State.endSession s event) := by
  simp [State.endSession_sites] at hA
  simp (maxDischargeDepth := 99) [State.endSession, hk, hevent, hA]

def State.dropSession_sites : List Site :=
  State.completeSlot_sites ++ State.endSession_sites ++ [.one R.UPD_STATUS, .part .upd]

@[simp ↓] theorem State.dropSession_keeps {A : Scope} {s₀ : State} (s : State) (event : Fld) (hk : Keeps A s₀ s)
    (hevent : A.reg event.addr) (hA : A.covers State.dropSession_sites) :
    Keeps A s₀ (State.dropSession s event) := by
  simp [State.dropSession_sites] at hA
  unfold State.dropSession
  repeat' (first
    | (intro x; first
        | (have hx : Keeps A s₀ x := by
             subst x
             repeat' split
             all_goals first | with_reducible assumption | (simp (maxDischargeDepth := 99) +contextual [*]; done) | simp_all (maxDischargeDepth := 99) +contextual
           clear_value x)
        | clear_value x)
    | (split <;> try lift_lets))
  all_goals first | (simp (maxDischargeDepth := 99) +contextual [*]; done) | simp_all (maxDischargeDepth := 99) +contextual

def State.keepUnits_sites : List Site := State.sessionRegs_sites ++ [.part .upd]

@[simp ↓] theorem State.keepUnits_keeps {A : Scope} {s₀ : State} (s : State) (source : Nat) (units : List (Nat × List Byte)) (hk : Keeps A s₀ s)
    (hA : A.covers State.keepUnits_sites) :
    Keeps A s₀ (State.keepUnits s source units) := by
  simp [State.keepUnits_sites] at hA
  simp (maxDischargeDepth := 99) [State.keepUnits, hk, hA]

def State.openSession_sites : List Site := State.event_sites ++ State.postVendor_sites ++ [.one R.UPD_EVENTS, .part .upd]

@[simp ↓] theorem State.openSession_keeps {A : Scope} {s₀ : State} (s : State) (piece : List Byte) (hk : Keeps A s₀ s)
    (hA : A.covers State.openSession_sites) :
    Keeps A s₀ (State.openSession s piece) := by
  simp [State.openSession_sites] at hA
  simp (maxDischargeDepth := 99) [State.openSession, hk, hA]

def State.takePiece_sites : List Site :=
  State.dropSession_sites ++ State.keepUnits_sites ++ State.openSession_sites ++ [.one R.UPD_EVENTS]

@[simp ↓] theorem State.takePiece_keeps {A : Scope} {s₀ : State} (s : State) (x : Slot) (piece : List Byte) (hk : Keeps A s₀ s)
    (hA : A.covers State.takePiece_sites) :
    Keeps A s₀ (State.takePiece s x piece).2 := by
  simp [State.takePiece_sites] at hA
  unfold State.takePiece
  repeat' (first
    | (intro x; first
        | (have hx : ∀ a b, Keeps A s₀ b → Keeps A s₀ (x a b).2 := by
             intro _ _ hb; subst x; first | (simp (maxDischargeDepth := 99) [*]; done) | (simp only []; repeat' split) <;> simp (maxDischargeDepth := 99) [*]
           clear_value x)
        | clear_value x)
    | (simp (maxDischargeDepth := 99) [*]; done)
    | (split <;> try lift_lets -underBinder))

def execFirmwareImageDownload_sites : List Site :=
  State.completeSlot_sites ++ State.failCommand_sites ++ State.takePiece_sites

theorem execFirmwareImageDownload_keeps {A : Scope} (n : Nat) (piece : List Byte) (s : State)
    (hA : A.covers execFirmwareImageDownload_sites) : KeepsOut A s (execFirmwareImageDownload n piece s) := by
  simp [execFirmwareImageDownload_sites] at hA
  have hk := Keeps.refl A s
  unfold execFirmwareImageDownload
  repeat' (first
    | (intro x; clear_value x)
    | (generalize he : State.takePiece _ _ _ = p
       have hp : Keeps A s p.2 := by subst he; first | with_reducible assumption | simp (maxDischargeDepth := 99) +contextual [*]
       clear he
       obtain ⟨_, _⟩ := p)
    | (split <;> try lift_lets))
  all_goals first | (simp (maxDischargeDepth := 99) +contextual [*]; done) | simp_all (maxDischargeDepth := 99) +contextual

def execSessionExpiry_sites : List Site := State.dropSession_sites ++ [.one R.UPD_EVENTS]

theorem execSessionExpiry_keeps {A : Scope} (s : State)
    (hA : A.covers execSessionExpiry_sites) : KeepsOut A s (execSessionExpiry s) := by
  simp [execSessionExpiry_sites] at hA
  have hk := Keeps.refl A s
  unfold execSessionExpiry
  repeat' (first
    | (intro x; clear_value x)
    | (split <;> try lift_lets))
  all_goals first | (simp (maxDischargeDepth := 99) +contextual [*]; done) | simp_all (maxDischargeDepth := 99) +contextual

def State.updAbort_sites : List Site := State.dropSession_sites ++ [.one R.UPD_EVENTS]

@[simp ↓] theorem State.updAbort_keeps {A : Scope} {s₀ : State} (s : State) (hk : Keeps A s₀ s)
    (hA : A.covers State.updAbort_sites) :
    Keeps A s₀ (State.updAbort s) := by
  simp [State.updAbort_sites] at hA
  simp (maxDischargeDepth := 99) [State.updAbort, hk, hA]

def execUpdAbort_sites : List Site := State.updAbort_sites

theorem execUpdAbort_keeps {A : Scope} (s : State)
    (hA : A.covers execUpdAbort_sites) : KeepsOut A s (execUpdAbort s) := by
  simp [execUpdAbort_sites] at hA
  simp (maxDischargeDepth := 99) [execUpdAbort, hA]

def State.commitFails_sites : List Site :=
  State.sessionRegs_sites ++ [.one R.UPD_ERR, .one R.UPD_EVENTS, .one R.UPD_STATUS, .part .upd]

@[simp ↓] theorem State.commitFails_keeps {A : Scope} {s₀ : State} (s : State) (f : CommitFail) (hk : Keeps A s₀ s)
    (hA : A.covers State.commitFails_sites) :
    Keeps A s₀ (State.commitFails s f) := by
  simp [State.commitFails_sites] at hA
  simp (maxDischargeDepth := 99) [State.commitFails, hk, hA]

end Sys2Proof.Machine
end

