-- ==== Sys2Proof/Laws/KeepsUpdate.lean ====
section
/-!
SUPPORT. Sys2Proof/Laws/KeepsUpdate.lean: the operations and meanings of Machine/Update.lean keep (Laws/Keeps.lean).
-/

set_option linter.all false
set_option Elab.async false

namespace Sys2Proof.Machine

def State.modAct'_sites : List Site := [.part .upd]

@[simp ↓] theorem State.modAct'_keeps {A : Scope} {s₀ : State} (s : State) (f : Activation → Activation) (hk : Keeps A s₀ s)
    (hA : A.covers State.modAct'_sites) :
    Keeps A s₀ (State.modAct' s f) := by
  simp [State.modAct'_sites] at hA
  simp (maxDischargeDepth := 99) [State.modAct', hk, hA]

def State.actState_sites : List Site := [.one R.UPD_STATUS]

@[simp ↓] theorem State.actState_keeps {A : Scope} {s₀ : State} (s : State) (v : Nat) (hk : Keeps A s₀ s)
    (hA : A.covers State.actState_sites) :
    Keeps A s₀ (State.actState s v) := by
  simp [State.actState_sites] at hA
  simp (maxDischargeDepth := 99) [State.actState, hk, hA]

def State.finishActivation_sites : List Site :=
  State.actState_sites ++ State.completeSlot_sites ++ [.one R.UPD_EVENTS, .one R.UPD_HANDOVER, .one R.UPD_STATUS, .part
    .needles, .part .upd]

@[simp ↓] theorem State.finishActivation_keeps {A : Scope} {s₀ : State} (s : State) (hk : Keeps A s₀ s)
    (hA : A.covers State.finishActivation_sites) :
    Keeps A s₀ (State.finishActivation s) := by
  simp [State.finishActivation_sites] at hA
  unfold State.finishActivation
  try lift_lets
  repeat' (first
    | (intro x; first
        | (have hx : Keeps A s₀ x := by
             subst x
             repeat' split
             all_goals first | with_reducible assumption | (simp (maxDischargeDepth := 99) +contextual [*]; done) | simp_all (maxDischargeDepth := 99) +contextual
           clear_value x)
        | clear_value x)
    | (split <;> try lift_lets))
  all_goals first | (simp (maxDischargeDepth := 99) +contextual [*]; done) | simp_all (maxDischargeDepth := 99) +contextual

def State.newBank_sites : List Site := [.each R.NDL_STATUS, .each R.NDL_UCODE, .part .needles]

@[simp ↓] theorem State.newBank_keeps {A : Scope} {s₀ : State} (s : State) (n : Nat) (hk : Keeps A s₀ s)
    (hA : A.covers State.newBank_sites) :
    Keeps A s₀ (State.newBank s n) := by
  simp [State.newBank_sites] at hA
  simp (maxDischargeDepth := 99) [State.newBank, hk, hA]

def State.startShadow_sites : List Site := State.newBank_sites ++ [.each R.NDL_STATUS, .part .needles]

@[simp ↓] theorem State.startShadow_keeps {A : Scope} {s₀ : State} (s : State) (k : Nat) (a : Nat) (hk : Keeps A s₀ s)
    (hA : A.covers State.startShadow_sites) :
    Keeps A s₀ (State.startShadow s k a) := by
  simp [State.startShadow_sites] at hA
  simp (maxDischargeDepth := 99) [State.startShadow, hk, hA]

def State.startActuator_sites : List Site := State.modAct'_sites ++ State.startShadow_sites

@[simp ↓] theorem State.startActuator_keeps {A : Scope} {s₀ : State} (s : State) (a : Nat) (hk : Keeps A s₀ s)
    (hA : A.covers State.startActuator_sites) :
    Keeps A s₀ (State.startActuator s a) := by
  simp [State.startActuator_sites] at hA
  unfold State.startActuator
  try lift_lets
  repeat' (first
    | (intro x; first
        | (have hx : Keeps A s₀ x := by
             subst x
             repeat' split
             all_goals first | with_reducible assumption | (simp (maxDischargeDepth := 99) +contextual [*]; done) | simp_all (maxDischargeDepth := 99) +contextual
           clear_value x)
        | clear_value x)
    | (split <;> try lift_lets))
  all_goals first | (simp (maxDischargeDepth := 99) +contextual [*]; done) | simp_all (maxDischargeDepth := 99) +contextual

def State.microcodeDone_sites : List Site := State.newBank_sites ++ State.setBlock_sites

@[simp ↓] theorem State.microcodeDone_keeps {A : Scope} {s₀ : State} (s : State) (hk : Keeps A s₀ s)
    (hA : A.covers State.microcodeDone_sites) :
    Keeps A s₀ (State.microcodeDone s) := by
  simp [State.microcodeDone_sites] at hA
  unfold State.microcodeDone
  repeat' (first
    | (intro x; first
        | (have hx : Keeps A s₀ x := by
             subst x
             repeat' split
             all_goals first | with_reducible assumption | (simp (maxDischargeDepth := 99) +contextual [*]; done) | simp_all (maxDischargeDepth := 99) +contextual
           clear_value x)
        | clear_value x)
    | (split <;> try lift_lets))
  all_goals first | (simp (maxDischargeDepth := 99) +contextual [*]; done) | simp_all (maxDischargeDepth := 99) +contextual

def State.startPair_sites : List Site := State.modAct'_sites ++ [.one R.SYS_PAIR_STATUS, .one R.UPD_HANDOVER]

@[simp ↓] theorem State.startPair_keeps {A : Scope} {s₀ : State} (s : State) (x : Nat) (hk : Keeps A s₀ s)
    (hA : A.covers State.startPair_sites) :
    Keeps A s₀ (State.startPair s x) := by
  simp [State.startPair_sites] at hA
  simp (maxDischargeDepth := 99) [State.startPair, hk, hA]

def State.startComponents_sites : List Site :=
  State.actState_sites ++ State.finishActivation_sites ++ State.microcodeDone_sites ++ State.modAct'_sites ++
    State.startActuator_sites ++ State.startPair_sites ++ [.one R.UPD_HANDOVER, .one R.UPD_STATUS]

@[simp ↓] theorem State.startComponents_keeps {A : Scope} {s₀ : State} (l : List Nat) (s : State) (hk : Keeps A s₀ s)
    (hA : A.covers State.startComponents_sites) :
    Keeps A s₀ (State.startComponents l s) := by
  simp [State.startComponents_sites] at hA
  induction l generalizing s with
  | nil => exact State.finishActivation_keeps s hk (by first | assumption | simp [*])
  | cons c rest ih =>
    have ht : Keeps A s₀ ((((s.modAct' fun v =>
        { v with components := c :: rest, step := 0, ready := c = 1 || c = 5, quiesced := false, pairs := [] }).setFld
        F.UPD_STATUS_COMPONENT c).actState 2).setFld F.UPD_HANDOVER_PAIR 0xF) := by simp (maxDischargeDepth := 99) [hk, hA]
    simp only [State.startComponents]
    generalize (State.setFld _ F.UPD_HANDOVER_PAIR 0xF) = t at ht ⊢
    split
    · split
      · exact State.startActuator_keeps _ _ ht (by first | assumption | simp [*])
      · exact ih _ (State.microcodeDone_keeps _ ht (by first | assumption | simp [*]))
    · split
      · split
        · exact ih _ ht
        · exact State.startPair_keeps _ _ (State.modAct'_keeps _ _ ht (by first | assumption | simp [*])) (by first | assumption | simp [*])
      · exact ht

def State.nextComponent_sites : List Site := State.startComponents_sites

@[simp ↓] theorem State.nextComponent_keeps {A : Scope} {s₀ : State} (s : State) (hk : Keeps A s₀ s)
    (hA : A.covers State.nextComponent_sites) :
    Keeps A s₀ (State.nextComponent s) := by
  simp [State.nextComponent_sites] at hA
  unfold State.nextComponent
  repeat' (first
    | (intro x; clear_value x)
    | (split <;> try lift_lets))
  all_goals first | (simp (maxDischargeDepth := 99) +contextual [*]; done) | simp_all (maxDischargeDepth := 99) +contextual

def State.beginActivation_sites : List Site := State.startComponents_sites ++ [.part .upd]

@[simp ↓] theorem State.beginActivation_keeps {A : Scope} {s₀ : State} (s : State) (commit : Option Nat) (atNssr : Bool) (l : List SlotEntry) (hk : Keeps A s₀ s)
    (hA : A.covers State.beginActivation_sites) :
    Keeps A s₀ (State.beginActivation s commit atNssr l) := by
  simp [State.beginActivation_sites] at hA
  simp (maxDischargeDepth := 99) [State.beginActivation, hk, hA]

def State.recordCommit_sites : List Site :=
  State.beginActivation_sites ++ State.coldAfterRecovery_sites ++ State.completeSlot_sites ++ State.putRecord_sites

@[simp ↓] theorem State.recordCommit_keeps {A : Scope} {s₀ : State} (s : State) (n : Option Nat) (action : Nat) (set : List SlotEntry) (hk : Keeps A s₀ s)
    (hA : A.covers State.recordCommit_sites) :
    Keeps A s₀ (State.recordCommit s n action set) := by
  simp [State.recordCommit_sites] at hA
  simp only [State.recordCommit]
  repeat' split
  all_goals simp_all (maxDischargeDepth := 99) +contextual

def State.commit_sites : List Site :=
  State.actState_sites ++ State.commitFails_sites ++ State.failCommand_sites ++ State.modSlot_sites ++
    State.noteVerified_sites ++ State.recordCommit_sites ++ [.one R.UPD_STATUS, .part .upd]

@[simp ↓] theorem State.commit_keeps {A : Scope} {s₀ : State} (s : State) (n : Nat) (ca : Nat) (hk : Keeps A s₀ s)
    (hA : A.covers State.commit_sites) :
    Keeps A s₀ (State.commit s n ca) := by
  simp [State.commit_sites] at hA
  unfold State.commit
  repeat' (first
    | (intro x; first
        | (have hx : Keeps A s₀ x := by
             subst x
             repeat' split
             all_goals first | with_reducible assumption | (simp (maxDischargeDepth := 99) +contextual [*]; done) | simp_all (maxDischargeDepth := 99) +contextual
           clear_value x)
        | clear_value x)
    | (split <;> try lift_lets))
  all_goals first | (simp (maxDischargeDepth := 99) +contextual [*]; done) | simp_all (maxDischargeDepth := 99) +contextual

def execCommitVerifyWrite_sites : List Site := State.commit_sites

theorem execCommitVerifyWrite_keeps {A : Scope} (n : Nat) (s : State)
    (hA : A.covers execCommitVerifyWrite_sites) : KeepsOut A s (execCommitVerifyWrite n s) := by
  simp [execCommitVerifyWrite_sites] at hA
  simp (maxDischargeDepth := 99) [execCommitVerifyWrite, hA]

def execCommitActivateAtReset_sites : List Site := State.commit_sites

theorem execCommitActivateAtReset_keeps {A : Scope} (n : Nat) (s : State)
    (hA : A.covers execCommitActivateAtReset_sites) : KeepsOut A s (execCommitActivateAtReset n s) := by
  simp [execCommitActivateAtReset_sites] at hA
  simp (maxDischargeDepth := 99) [execCommitActivateAtReset, hA]

def execCommitActivateStaged_sites : List Site := State.commit_sites

theorem execCommitActivateStaged_keeps {A : Scope} (n : Nat) (s : State)
    (hA : A.covers execCommitActivateStaged_sites) : KeepsOut A s (execCommitActivateStaged n s) := by
  simp [execCommitActivateStaged_sites] at hA
  simp (maxDischargeDepth := 99) [execCommitActivateStaged, hA]

def execCommitActivateNow_sites : List Site := State.commit_sites

theorem execCommitActivateNow_keeps {A : Scope} (n : Nat) (s : State)
    (hA : A.covers execCommitActivateNow_sites) : KeepsOut A s (execCommitActivateNow n s) := by
  simp [execCommitActivateNow_sites] at hA
  simp (maxDischargeDepth := 99) [execCommitActivateNow, hA]

def State.programImage_sites : List Site := [.part .upd]

@[simp ↓] theorem State.programImage_keeps {A : Scope} {s₀ : State} (s : State) (component : Nat) (slot : Nat) (img : List Byte) (hk : Keeps A s₀ s)
    (hA : A.covers State.programImage_sites) :
    Keeps A s₀ (State.programImage s component slot img) := by
  simp [State.programImage_sites] at hA
  simp (maxDischargeDepth := 99) [State.programImage, hk, hA]

def execBundleWritten_sites : List Site :=
  State.actState_sites ++ State.endSession_sites ++ State.programImage_sites ++ State.recordCommit_sites ++ [.one
    R.UPD_EVENTS, .part .upd]

theorem execBundleWritten_keeps {A : Scope} (s : State)
    (hA : A.covers execBundleWritten_sites) : KeepsOut A s (execBundleWritten s) := by
  simp [execBundleWritten_sites] at hA
  have hk := Keeps.refl A s
  unfold execBundleWritten
  repeat' (first
    | (intro x; first
        | (have hx : Keeps A s x := by
             subst x
             repeat' split
             all_goals first | with_reducible assumption | (simp (maxDischargeDepth := 99) +contextual [*]; done) | simp_all (maxDischargeDepth := 99) +contextual
           clear_value x)
        | clear_value x)
    | (split <;> try lift_lets))
  all_goals first | (simp (maxDischargeDepth := 99) +contextual [*]; done) | simp_all (maxDischargeDepth := 99) +contextual

def execTiriumHandover_sites : List Site :=
  State.handoverPend_sites ++ State.modAct'_sites ++ State.takeBoundary_sites ++ [.one R.TIR_STATUS]

theorem execTiriumHandover_keeps {A : Scope} (s : State)
    (hA : A.covers execTiriumHandover_sites) : KeepsOut A s (execTiriumHandover s) := by
  simp [execTiriumHandover_sites] at hA
  have hk := Keeps.refl A s
  unfold execTiriumHandover
  repeat' (first
    | (intro x; clear_value x)
    | (split <;> try lift_lets))
  all_goals first | (simp (maxDischargeDepth := 99) +contextual [*]; done) | simp_all (maxDischargeDepth := 99) +contextual

def execTiriumReady_sites : List Site :=
  State.deriveAliases_sites ++ State.nextComponent_sites ++ State.spdmResume_sites ++ [.one R.TIR_STATUS, .part .tir]

theorem execTiriumReady_keeps {A : Scope} (s : State)
    (hA : A.covers execTiriumReady_sites) : KeepsOut A s (execTiriumReady s) := by
  simp [execTiriumReady_sites] at hA
  simp (maxDischargeDepth := 99) [execTiriumReady, hA]

def execTiriumReadyTimeout_sites : List Site :=
  State.abortActivation_sites ++ State.spdmResume_sites ++ [.one R.TIR_STATUS]

theorem execTiriumReadyTimeout_keeps {A : Scope} (s : State)
    (hA : A.covers execTiriumReadyTimeout_sites) : KeepsOut A s (execTiriumReadyTimeout s) := by
  simp [execTiriumReadyTimeout_sites] at hA
  simp (maxDischargeDepth := 99) [execTiriumReadyTimeout, hA]

def State.actuatorDone_sites : List Site :=
  State.actState_sites ++ State.microcodeDone_sites ++ State.nextComponent_sites ++ State.startActuator_sites

@[simp ↓] theorem State.actuatorDone_keeps {A : Scope} {s₀ : State} (s : State) (a : Nat) (hk : Keeps A s₀ s)
    (hA : A.covers State.actuatorDone_sites) :
    Keeps A s₀ (State.actuatorDone s a) := by
  simp [State.actuatorDone_sites] at hA
  unfold State.actuatorDone
  repeat' (first
    | (intro x; clear_value x)
    | (split <;> try lift_lets))
  all_goals first | (simp (maxDischargeDepth := 99) +contextual [*]; done) | simp_all (maxDischargeDepth := 99) +contextual

def State.swapInPlace_sites : List Site :=
  State.enterMode_sites ++ State.newBank_sites ++ State.trialPass_sites ++ [.part .needles]

@[simp ↓] theorem State.swapInPlace_keeps {A : Scope} {s₀ : State} (s : State) (n : Nat) (a : Nat) (hk : Keeps A s₀ s)
    (hA : A.covers State.swapInPlace_sites) :
    Keeps A s₀ (State.swapInPlace s n a) := by
  simp [State.swapInPlace_sites] at hA
  simp (maxDischargeDepth := 99) [State.swapInPlace, hk, hA]

def execNeedleSwap_sites : List Site :=
  State.actuatorDone_sites ++ State.gate_sites ++ State.handoverPend_sites ++ State.modAct'_sites ++ State.newBank_sites ++
    State.standIn_sites ++ State.startShadow_sites ++ State.swapInPlace_sites ++ State.takeBoundary_sites ++ [.each
    R.NDL_STATUS, .part .needles]

theorem execNeedleSwap_keeps {A : Scope} (a : Nat) (s : State)
    (hA : A.covers execNeedleSwap_sites) : KeepsOut A s (execNeedleSwap a s) := by
  simp [execNeedleSwap_sites] at hA
  have hk := Keeps.refl A s
  unfold execNeedleSwap
  repeat' (first
    | (intro x; first
        | (have hx : Keeps A s x := by
             subst x
             repeat' split
             all_goals first | with_reducible assumption | (simp (maxDischargeDepth := 99) +contextual [*]; done) | simp_all (maxDischargeDepth := 99) +contextual
           clear_value x)
        | clear_value x)
    | (split <;> try lift_lets))
  all_goals first | (simp (maxDischargeDepth := 99) +contextual [*]; done) | simp_all (maxDischargeDepth := 99) +contextual

def State.restartPair_sites : List Site := [.part .pairs]

@[simp ↓] theorem State.restartPair_keeps {A : Scope} {s₀ : State} (s : State) (p : Nat) (runs : Bool) (hk : Keeps A s₀ s)
    (hA : A.covers State.restartPair_sites) :
    Keeps A s₀ (State.restartPair s p runs) := by
  simp [State.restartPair_sites] at hA
  simp (maxDischargeDepth := 99) [State.restartPair, hk, hA]

def State.moveClaims_sites : List Site := [.part .flow]

@[simp ↓] theorem State.moveClaims_keeps {A : Scope} {s₀ : State} (s : State) (p : Nat) (q : Nat) (hk : Keeps A s₀ s)
    (hA : A.covers State.moveClaims_sites) :
    Keeps A s₀ (State.moveClaims s p q) := by
  simp [State.moveClaims_sites] at hA
  simp (maxDischargeDepth := 99) [State.moveClaims, hk, hA]

def State.spareIn_sites : List Site := State.moveClaims_sites ++ State.restartPair_sites ++ [.one R.SYS_PAIR_STATUS]

@[simp ↓] theorem State.spareIn_keeps {A : Scope} {s₀ : State} (s : State) (x : Nat) (hk : Keeps A s₀ s)
    (hA : A.covers State.spareIn_sites) :
    Keeps A s₀ (State.spareIn s x) := by
  simp [State.spareIn_sites] at hA
  simp (maxDischargeDepth := 99) [State.spareIn, hk, hA]

def State.spareOut_sites : List Site := State.moveClaims_sites ++ State.restartPair_sites ++ [.one R.SYS_PAIR_STATUS]

@[simp ↓] theorem State.spareOut_keeps {A : Scope} {s₀ : State} (s : State) (x : Nat) (hk : Keeps A s₀ s)
    (hA : A.covers State.spareOut_sites) :
    Keeps A s₀ (State.spareOut s x) := by
  simp [State.spareOut_sites] at hA
  simp (maxDischargeDepth := 99) [State.spareOut, hk, hA]

def State.releaseHold_sites : List Site := [.one R.UPD_HANDOVER]

@[simp ↓] theorem State.releaseHold_keeps {A : Scope} {s₀ : State} (s : State) (hk : Keeps A s₀ s)
    (hA : A.covers State.releaseHold_sites) :
    Keeps A s₀ (State.releaseHold s) := by
  simp [State.releaseHold_sites] at hA
  simp (maxDischargeDepth := 99) [State.releaseHold, hk, hA]

def State.spareReady_sites : List Site := State.modAct'_sites ++ [.one R.UPD_HANDOVER]

@[simp ↓] theorem State.spareReady_keeps {A : Scope} {s₀ : State} (s : State) (hk : Keeps A s₀ s)
    (hA : A.covers State.spareReady_sites) :
    Keeps A s₀ (State.spareReady s) := by
  simp [State.spareReady_sites] at hA
  unfold State.spareReady
  try lift_lets
  repeat' (first
    | (intro x; first
        | (have hx : Keeps A s₀ x := by
             subst x
             repeat' split
             all_goals first | with_reducible assumption | (simp (maxDischargeDepth := 99) +contextual [*]; done) | simp_all (maxDischargeDepth := 99) +contextual
           clear_value x)
        | clear_value x)
    | (split <;> try lift_lets))
  all_goals first | (simp (maxDischargeDepth := 99) +contextual [*]; done) | simp_all (maxDischargeDepth := 99) +contextual

def execHandoverSpareReady_sites : List Site := State.spareReady_sites

theorem execHandoverSpareReady_keeps {A : Scope} (s : State)
    (hA : A.covers execHandoverSpareReady_sites) : KeepsOut A s (execHandoverSpareReady s) := by
  simp [execHandoverSpareReady_sites] at hA
  simp (maxDischargeDepth := 99) [execHandoverSpareReady, hA]

def execHandoverRequest_sites : List Site := State.actState_sites ++ State.modAct'_sites ++ [.one R.UPD_HANDOVER]

theorem execHandoverRequest_keeps {A : Scope} (s : State)
    (hA : A.covers execHandoverRequest_sites) : KeepsOut A s (execHandoverRequest s) := by
  simp [execHandoverRequest_sites] at hA
  have hk := Keeps.refl A s
  unfold execHandoverRequest
  repeat' (first
    | (intro x; first
        | (have hx : Keeps A s x := by
             subst x
             repeat' split
             all_goals first | with_reducible assumption | (simp (maxDischargeDepth := 99) +contextual [*]; done) | simp_all (maxDischargeDepth := 99) +contextual
           clear_value x)
        | clear_value x)
    | (split <;> try lift_lets))
  all_goals first | (simp (maxDischargeDepth := 99) +contextual [*]; done) | simp_all (maxDischargeDepth := 99) +contextual

def State.handoverQuiesced_sites : List Site := State.modAct'_sites ++ State.restartPair_sites ++ [.one R.UPD_HANDOVER]

@[simp ↓] theorem State.handoverQuiesced_keeps {A : Scope} {s₀ : State} (s : State) (hk : Keeps A s₀ s)
    (hA : A.covers State.handoverQuiesced_sites) :
    Keeps A s₀ (State.handoverQuiesced s) := by
  simp [State.handoverQuiesced_sites] at hA
  unfold State.handoverQuiesced
  try lift_lets
  repeat' (first
    | (intro x; first
        | (have hx : Keeps A s₀ x := by
             subst x
             repeat' split
             all_goals first | with_reducible assumption | (simp (maxDischargeDepth := 99) +contextual [*]; done) | simp_all (maxDischargeDepth := 99) +contextual
           clear_value x)
        | clear_value x)
    | (split <;> try lift_lets))
  all_goals first | (simp (maxDischargeDepth := 99) +contextual [*]; done) | simp_all (maxDischargeDepth := 99) +contextual

def execHandoverQuiesced_sites : List Site := State.handoverQuiesced_sites

theorem execHandoverQuiesced_keeps {A : Scope} (s : State)
    (hA : A.covers execHandoverQuiesced_sites) : KeepsOut A s (execHandoverQuiesced s) := by
  simp [execHandoverQuiesced_sites] at hA
  simp (maxDischargeDepth := 99) [execHandoverQuiesced, hA]

def execHandoverSwitch_sites : List Site :=
  State.handoverPend_sites ++ State.modAct'_sites ++ State.spareIn_sites ++ State.spareOut_sites ++ State.takeBoundary_sites
    ++ [.one R.UPD_HANDOVER]

theorem execHandoverSwitch_keeps {A : Scope} (s : State)
    (hA : A.covers execHandoverSwitch_sites) : KeepsOut A s (execHandoverSwitch s) := by
  simp [execHandoverSwitch_sites] at hA
  have hk := Keeps.refl A s
  unfold execHandoverSwitch
  repeat' (first
    | (intro x; first
        | (have hx : Keeps A s x := by
             subst x
             repeat' split
             all_goals first | with_reducible assumption | (simp (maxDischargeDepth := 99) +contextual [*]; done) | simp_all (maxDischargeDepth := 99) +contextual
           clear_value x)
        | clear_value x)
    | (split <;> try lift_lets))
  all_goals first | (simp (maxDischargeDepth := 99) +contextual [*]; done) | simp_all (maxDischargeDepth := 99) +contextual

def State.nextPair_sites : List Site :=
  State.actState_sites ++ State.modAct'_sites ++ State.nextComponent_sites ++ State.startPair_sites

@[simp ↓] theorem State.nextPair_keeps {A : Scope} {s₀ : State} (s : State) (hk : Keeps A s₀ s)
    (hA : A.covers State.nextPair_sites) :
    Keeps A s₀ (State.nextPair s) := by
  simp [State.nextPair_sites] at hA
  unfold State.nextPair
  repeat' (first
    | (intro x; clear_value x)
    | (split <;> try lift_lets))
  all_goals first | (simp (maxDischargeDepth := 99) +contextual [*]; done) | simp_all (maxDischargeDepth := 99) +contextual

def State.handoverTaken_sites : List Site :=
  State.modAct'_sites ++ State.nextPair_sites ++ State.releaseHold_sites ++ State.settingsReset_sites ++ [.one
    R.SYS_PAIR_STATUS, .one R.UPD_HANDOVER, .part .host]

@[simp ↓] theorem State.handoverTaken_keeps {A : Scope} {s₀ : State} (s : State) (hk : Keeps A s₀ s)
    (hA : A.covers State.handoverTaken_sites) :
    Keeps A s₀ (State.handoverTaken s) := by
  simp [State.handoverTaken_sites] at hA
  unfold State.handoverTaken
  try lift_lets
  repeat' (first
    | (intro x; first
        | (have hx : Keeps A s₀ x := by
             subst x
             repeat' split
             all_goals first | with_reducible assumption | (simp (maxDischargeDepth := 99) +contextual [*]; done) | simp_all (maxDischargeDepth := 99) +contextual
           clear_value x)
        | clear_value x)
    | (split <;> try lift_lets))
  all_goals first | (simp (maxDischargeDepth := 99) +contextual [*]; done) | simp_all (maxDischargeDepth := 99) +contextual

def execHandoverTaken_sites : List Site := State.handoverTaken_sites

theorem execHandoverTaken_keeps {A : Scope} (s : State)
    (hA : A.covers execHandoverTaken_sites) : KeepsOut A s (execHandoverTaken s) := by
  simp [execHandoverTaken_sites] at hA
  simp (maxDischargeDepth := 99) [execHandoverTaken, hA]

def execHandoverDeadlineMiss_sites : List Site :=
  State.abortActivation_sites ++ State.modAct'_sites ++ State.releaseHold_sites ++ State.spareIn_sites ++ State.spareOut_sites

theorem execHandoverDeadlineMiss_keeps {A : Scope} (s : State)
    (hA : A.covers execHandoverDeadlineMiss_sites) : KeepsOut A s (execHandoverDeadlineMiss s) := by
  simp [execHandoverDeadlineMiss_sites] at hA
  have hk := Keeps.refl A s
  unfold execHandoverDeadlineMiss
  repeat' (first
    | (intro x; first
        | (have hx : Keeps A s x := by
             subst x
             repeat' split
             all_goals first | with_reducible assumption | (simp (maxDischargeDepth := 99) +contextual [*]; done) | simp_all (maxDischargeDepth := 99) +contextual
           clear_value x)
        | clear_value x)
    | (split <;> try lift_lets))
  all_goals first | (simp (maxDischargeDepth := 99) +contextual [*]; done) | simp_all (maxDischargeDepth := 99) +contextual

def execQuiescedActivation_sites : List Site :=
  State.actState_sites ++ State.modAct'_sites ++ State.postAsync_sites ++ State.requestMode_sites ++ [.each R.NDL_STATUS, .one
    R.UPD_HANDOVER, .part .host]

theorem execQuiescedActivation_keeps {A : Scope} (s : State)
    (hA : A.covers execQuiescedActivation_sites) : KeepsOut A s (execQuiescedActivation s) := by
  simp [execQuiescedActivation_sites] at hA
  have hk := Keeps.refl A s
  unfold execQuiescedActivation
  repeat' (first
    | (intro x; first
        | (have hx : Keeps A s x := by
             subst x
             repeat' split
             all_goals first | with_reducible assumption | (simp (maxDischargeDepth := 99) +contextual [*]; done) | simp_all (maxDischargeDepth := 99) +contextual
           clear_value x)
        | clear_value x)
    | (split <;> try lift_lets))
  all_goals first | (simp (maxDischargeDepth := 99) +contextual [*]; done) | simp_all (maxDischargeDepth := 99) +contextual

def execQuiescedTimeout_sites : List Site :=
  State.abortActivation_sites ++ State.releaseHold_sites ++ State.restartPair_sites

theorem execQuiescedTimeout_keeps {A : Scope} (s : State)
    (hA : A.covers execQuiescedTimeout_sites) : KeepsOut A s (execQuiescedTimeout s) := by
  simp [execQuiescedTimeout_sites] at hA
  have hk := Keeps.refl A s
  unfold execQuiescedTimeout
  repeat' (first
    | (intro x; clear_value x)
    | (split <;> try lift_lets))
  all_goals first | (simp (maxDischargeDepth := 99) +contextual [*]; done) | simp_all (maxDischargeDepth := 99) +contextual

def State.confirm_sites : List Site := State.completeSvn_sites ++ State.putRecord_sites ++ [.one R.UPD_EVENTS]

@[simp ↓] theorem State.confirm_keeps {A : Scope} {s₀ : State} (s : State) (hk : Keeps A s₀ s)
    (hA : A.covers State.confirm_sites) :
    Keeps A s₀ (State.confirm s) := by
  simp [State.confirm_sites] at hA
  simp (maxDischargeDepth := 99) [State.confirm, hk, hA]

def execAutoConfirm_sites : List Site := State.confirm_sites

theorem execAutoConfirm_keeps {A : Scope} (s : State)
    (hA : A.covers execAutoConfirm_sites) : KeepsOut A s (execAutoConfirm s) := by
  simp [execAutoConfirm_sites] at hA
  simp (maxDischargeDepth := 99) [execAutoConfirm, hA]

def execSetConfirmActivation_sites : List Site :=
  State.completeSlot_sites ++ State.confirm_sites ++ State.failCommand_sites

theorem execSetConfirmActivation_keeps {A : Scope} (n : Nat) (s : State)
    (hA : A.covers execSetConfirmActivation_sites) : KeepsOut A s (execSetConfirmActivation n s) := by
  simp [execSetConfirmActivation_sites] at hA
  have hk := Keeps.refl A s
  unfold execSetConfirmActivation
  repeat' (first
    | (intro x; clear_value x)
    | (split <;> try lift_lets))
  all_goals first | (simp (maxDischargeDepth := 99) +contextual [*]; done) | simp_all (maxDischargeDepth := 99) +contextual

def State.updFrog_sites : List Site := State.putRecord_sites

@[simp ↓] theorem State.updFrog_keeps {A : Scope} {s₀ : State} (s : State) (hk : Keeps A s₀ s)
    (hA : A.covers State.updFrog_sites) :
    Keeps A s₀ (State.updFrog s) := by
  simp [State.updFrog_sites] at hA
  simp (maxDischargeDepth := 99) [State.updFrog, hk, hA]

def execUpdFrog_sites : List Site := State.updFrog_sites

theorem execUpdFrog_keeps {A : Scope} (s : State)
    (hA : A.covers execUpdFrog_sites) : KeepsOut A s (execUpdFrog s) := by
  simp [execUpdFrog_sites] at hA
  simp (maxDischargeDepth := 99) [execUpdFrog, hA]

def execRepatternApply_sites : List Site :=
  State.abortActivation_sites ++ State.applyPanels_sites ++ State.handoverPend_sites ++ State.nextComponent_sites ++
    State.takeBoundary_sites ++ [.one R.PAT_STATUS, .part .pattern]

theorem execRepatternApply_keeps {A : Scope} (s : State)
    (hA : A.covers execRepatternApply_sites) : KeepsOut A s (execRepatternApply s) := by
  simp [execRepatternApply_sites] at hA
  have hk := Keeps.refl A s
  unfold execRepatternApply
  repeat' (first
    | (intro x; first
        | (have hx : Keeps A s x := by
             subst x
             repeat' split
             all_goals first | with_reducible assumption | (simp (maxDischargeDepth := 99) +contextual [*]; done) | simp_all (maxDischargeDepth := 99) +contextual
           clear_value x)
        | clear_value x)
    | (split <;> try lift_lets))
  all_goals first | (simp (maxDischargeDepth := 99) +contextual [*]; done) | simp_all (maxDischargeDepth := 99) +contextual

def State.activateAtNssr_sites : List Site := State.beginActivation_sites ++ State.putRecord_sites

@[simp ↓] theorem State.activateAtNssr_keeps {A : Scope} {s₀ : State} (s : State) (hk : Keeps A s₀ s)
    (hA : A.covers State.activateAtNssr_sites) :
    Keeps A s₀ (State.activateAtNssr s) := by
  simp [State.activateAtNssr_sites] at hA
  simp (maxDischargeDepth := 99) [State.activateAtNssr, hk, hA]

def execNssr_sites : List Site := State.activateAtNssr_sites ++ State.subsystemReset_sites

theorem execNssr_keeps {A : Scope} (value : Nat) (s : State)
    (hA : A.covers execNssr_sites) : KeepsOut A s (execNssr value s) := by
  simp [execNssr_sites] at hA
  simp (maxDischargeDepth := 99) [execNssr, hA]

def execMiReset_sites : List Site := State.activateAtNssr_sites ++ State.subsystemReset_sites

theorem execMiReset_keeps {A : Scope} (s : State)
    (hA : A.covers execMiReset_sites) : KeepsOut A s (execMiReset s) := by
  simp [execMiReset_sites] at hA
  simp (maxDischargeDepth := 99) [execMiReset, hA]

def execControllerReady_sites : List Site :=
  State.driveStatus_sites ++ State.lockPattern_sites ++ [.one R.HIF_CTRL_RDY, .part .cast]

theorem execControllerReady_keeps {A : Scope} (c : Nat) (s : State)
    (hA : A.covers execControllerReady_sites) : KeepsOut A s (execControllerReady c s) := by
  simp [execControllerReady_sites] at hA
  have hk := Keeps.refl A s
  unfold execControllerReady
  repeat' (first
    | (intro x; first
        | (have hx : Keeps A s x := by
             subst x
             repeat' split
             all_goals first | with_reducible assumption | (simp (maxDischargeDepth := 99) +contextual [*]; done) | simp_all (maxDischargeDepth := 99) +contextual
           clear_value x)
        | clear_value x)
    | (split <;> try lift_lets))
  all_goals first | (simp (maxDischargeDepth := 99) +contextual [*]; done) | simp_all (maxDischargeDepth := 99) +contextual

end Sys2Proof.Machine
end

