-- ==== Sys2Proof/Laws/KeepsAdmin.lean ====
section
/-!
SUPPORT. Sys2Proof/Laws/KeepsAdmin.lean: the operations and meanings of Machine/Admin.lean keep (Laws/Keeps.lean).
-/

set_option linter.all false
set_option Elab.async false

namespace Sys2Proof.Machine

def State.abortSlot_sites : List Site := State.completeSlot_sites ++ State.discardWrite_sites ++ State.dropUnissued_sites

@[simp ↓] theorem State.abortSlot_keeps {A : Scope} {s₀ : State} (s : State) (x : Slot) (status : Nat) (hk : Keeps A s₀ s)
    (hA : A.covers State.abortSlot_sites) :
    Keeps A s₀ (State.abortSlot s x status) := by
  simp [State.abortSlot_sites] at hA
  simp (maxDischargeDepth := 99) [State.abortSlot, hk, hA]

def execAbort_sites : List Site := State.abortSlot_sites ++ State.completeSlot_sites

theorem execAbort_keeps {A : Scope} (n : Nat) (s : State)
    (hA : A.covers execAbort_sites) : KeepsOut A s (execAbort n s) := by
  simp [execAbort_sites] at hA
  have hk := Keeps.refl A s
  unfold execAbort
  repeat' (first
    | (intro x; clear_value x)
    | (split <;> try lift_lets))
  all_goals first | (simp (maxDischargeDepth := 99) +contextual [*]; done) | simp_all (maxDischargeDepth := 99) +contextual

def State.addRing_sites : List Site := [.part .host]

@[simp ↓] theorem State.addRing_keeps {A : Scope} {s₀ : State} (s : State) (r : Ring) (hk : Keeps A s₀ s)
    (hA : A.covers State.addRing_sites) :
    Keeps A s₀ (State.addRing s r) := by
  simp [State.addRing_sites] at hA
  simp (maxDischargeDepth := 99) [State.addRing, hk, hA]

def execCreateIoCq_sites : List Site := State.addRing_sites ++ State.completeSlot_sites ++ State.failCommand_sites

theorem execCreateIoCq_keeps {A : Scope} (n : Nat) (s : State)
    (hA : A.covers execCreateIoCq_sites) : KeepsOut A s (execCreateIoCq n s) := by
  simp [execCreateIoCq_sites] at hA
  have hk := Keeps.refl A s
  unfold execCreateIoCq
  repeat' (first
    | (intro x; first
        | (have hx : Keeps A s x := by
             subst x
             repeat' split
             all_goals first | with_reducible assumption | (simp (maxDischargeDepth := 99) +contextual [*]; done) | simp_all (maxDischargeDepth := 99) +contextual
           clear_value x)
        | clear_value x)
    | (split <;> try lift_lets))
  all_goals first | (simp (maxDischargeDepth := 99) +contextual [*]; done) | simp_all (maxDischargeDepth := 99) +contextual

def execCreateIoSq_sites : List Site := State.addRing_sites ++ State.completeSlot_sites ++ State.failCommand_sites

theorem execCreateIoSq_keeps {A : Scope} (n : Nat) (s : State)
    (hA : A.covers execCreateIoSq_sites) : KeepsOut A s (execCreateIoSq n s) := by
  simp [execCreateIoSq_sites] at hA
  have hk := Keeps.refl A s
  unfold execCreateIoSq
  repeat' (first
    | (intro x; first
        | (have hx : Keeps A s x := by
             subst x
             repeat' split
             all_goals first | with_reducible assumption | (simp (maxDischargeDepth := 99) +contextual [*]; done) | simp_all (maxDischargeDepth := 99) +contextual
           clear_value x)
        | clear_value x)
    | (split <;> try lift_lets))
  all_goals first | (simp (maxDischargeDepth := 99) +contextual [*]; done) | simp_all (maxDischargeDepth := 99) +contextual

def State.dropRing_sites : List Site := [.part .host]

@[simp ↓] theorem State.dropRing_keeps {A : Scope} {s₀ : State} (s : State) (r : Nat) (hk : Keeps A s₀ s)
    (hA : A.covers State.dropRing_sites) :
    Keeps A s₀ (State.dropRing s r) := by
  simp [State.dropRing_sites] at hA
  simp (maxDischargeDepth := 99) [State.dropRing, hk, hA]

def execDeleteIoSq_sites : List Site :=
  State.abortSlot_sites ++ State.completeSlot_sites ++ State.dropRing_sites ++ State.failCommand_sites ++ State.modRing_sites

theorem execDeleteIoSq_keeps {A : Scope} (n : Nat) (s : State)
    (hA : A.covers execDeleteIoSq_sites) : KeepsOut A s (execDeleteIoSq n s) := by
  simp [execDeleteIoSq_sites] at hA
  have hk := Keeps.refl A s
  unfold execDeleteIoSq
  repeat' (first
    | (intro x; first
        | (have hx : Keeps A s x := by
             subst x
             repeat' split
             all_goals first | with_reducible assumption | (simp (maxDischargeDepth := 99) +contextual [*]; done) | simp_all (maxDischargeDepth := 99) +contextual
           clear_value x)
        | clear_value x)
    | (split <;> try lift_lets))
  all_goals first | (simp (maxDischargeDepth := 99) +contextual [*]; done) | simp_all (maxDischargeDepth := 99) +contextual

def execDeleteIoCq_sites : List Site := State.completeSlot_sites ++ State.dropRing_sites ++ State.failCommand_sites

theorem execDeleteIoCq_keeps {A : Scope} (n : Nat) (s : State)
    (hA : A.covers execDeleteIoCq_sites) : KeepsOut A s (execDeleteIoCq n s) := by
  simp [execDeleteIoCq_sites] at hA
  have hk := Keeps.refl A s
  unfold execDeleteIoCq
  repeat' (first
    | (intro x; clear_value x)
    | (split <;> try lift_lets))
  all_goals first | (simp (maxDischargeDepth := 99) +contextual [*]; done) | simp_all (maxDischargeDepth := 99) +contextual

def State.setSubsystem_sites : List Site := [.part .host]

@[simp ↓] theorem State.setSubsystem_keeps {A : Scope} {s₀ : State} (s : State) (key : Nat) (v : Nat) (save : Bool) (hk : Keeps A s₀ s)
    (hA : A.covers State.setSubsystem_sites) :
    Keeps A s₀ (State.setSubsystem s key v save) := by
  simp [State.setSubsystem_sites] at hA
  simp (maxDischargeDepth := 99) [State.setSubsystem, hk, hA]

def State.setController_sites : List Site := State.modController_sites

@[simp ↓] theorem State.setController_keeps {A : Scope} {s₀ : State} (s : State) (c : Nat) (key : Nat) (v : Nat) (hk : Keeps A s₀ s)
    (hA : A.covers State.setController_sites) :
    Keeps A s₀ (State.setController s c key v) := by
  simp [State.setController_sites] at hA
  simp (maxDischargeDepth := 99) [State.setController, hk, hA]

def State.applyFeature_sites : List Site :=
  State.modController_sites ++ State.setController_sites ++ State.setSubsystem_sites

@[simp ↓] theorem State.applyFeature_keeps {A : Scope} {s₀ : State} (s : State) (x : Slot) (data : List Byte) (hk : Keeps A s₀ s)
    (hA : A.covers State.applyFeature_sites) :
    Keeps A s₀ (State.applyFeature s x data).2.2 := by
  simp [State.applyFeature_sites] at hA
  unfold State.applyFeature
  repeat' (first
    | with_reducible assumption
    | (intro x; first
        | (have hx : Keeps A s₀ x.2.2 := by subst x; first | with_reducible assumption | (simp (maxDischargeDepth := 99) [*]; done) | ((repeat' split) <;> simp (maxDischargeDepth := 99) [*])
           clear_value x
           obtain ⟨_, _⟩ := x)
        | clear_value x)
    | with_reducible refine State.setSubsystem_keeps _ _ _ _ ?_ (by first | assumption | simp [*])
    | with_reducible refine State.modController_keeps _ _ _ ?_ (by first | assumption | simp [*])
    | with_reducible refine State.setController_keeps _ _ _ _ ?_ (by first | assumption | simp [*])
    | (split <;> try lift_lets -underBinder))

def execSetFeatures_sites : List Site := State.applyFeature_sites ++ State.completeSlot_sites ++ State.failCommand_sites

theorem execSetFeatures_keeps {A : Scope} (n : Nat) (data : List Byte) (s : State)
    (hA : A.covers execSetFeatures_sites) : KeepsOut A s (execSetFeatures n data s) := by
  simp [execSetFeatures_sites] at hA
  have hk := Keeps.refl A s
  unfold execSetFeatures
  repeat' (first
    | with_reducible assumption
    | (intro x; first
        | (have hx : Keeps A s x.2.2 := by subst x; first | with_reducible assumption | (simp (maxDischargeDepth := 99) [*]; done) | ((repeat' split) <;> simp (maxDischargeDepth := 99) [*])
           clear_value x
           obtain ⟨_, _⟩ := x)
        | clear_value x)
    | with_reducible refine keepsOut_next.2 ?_
    | with_reducible refine State.completeSlot_keeps _ _ _ _ ?_ (by first | assumption | simp [*])
    | with_reducible refine State.failCommand_keeps _ _ _ ?_ (by first | assumption | simp [*])
    | (split <;> try lift_lets -underBinder))

def execSetDirtyCeiling_sites : List Site :=
  State.completeSlot_sites ++ State.failCommand_sites ++ State.setSubsystem_sites

theorem execSetDirtyCeiling_keeps {A : Scope} (n : Nat) (s : State)
    (hA : A.covers execSetDirtyCeiling_sites) : KeepsOut A s (execSetDirtyCeiling n s) := by
  simp [execSetDirtyCeiling_sites] at hA
  have hk := Keeps.refl A s
  unfold execSetDirtyCeiling
  repeat' (first
    | (intro x; clear_value x)
    | (split <;> try lift_lets))
  all_goals first | (simp (maxDischargeDepth := 99) +contextual [*]; done) | simp_all (maxDischargeDepth := 99) +contextual

def execSetReadPath_sites : List Site := State.completeSlot_sites ++ State.failCommand_sites ++ [.part .host]

theorem execSetReadPath_keeps {A : Scope} (n : Nat) (s : State)
    (hA : A.covers execSetReadPath_sites) : KeepsOut A s (execSetReadPath n s) := by
  simp [execSetReadPath_sites] at hA
  have hk := Keeps.refl A s
  unfold execSetReadPath
  repeat' (first
    | (intro x; clear_value x)
    | (split <;> try lift_lets))
  all_goals first | (simp (maxDischargeDepth := 99) +contextual [*]; done) | simp_all (maxDischargeDepth := 99) +contextual

def State.featureValue_sites : List Site := State.draw_sites

@[simp ↓] theorem State.featureValue_keeps {A : Scope} {s₀ : State} (s : State) (x : Slot) (f : Nat) (dflt : Bool) (hk : Keeps A s₀ s)
    (hA : A.covers State.featureValue_sites) :
    Keeps A s₀ (State.featureValue s x f dflt).2 := by
  simp [State.featureValue_sites] at hA
  unfold State.featureValue
  repeat' (first
    | (intro x; first
        | (refine (?_ : Keeps A s₀ x → _) ?_
           all_goals first | (intro hx; clear_value x) | subst x)
        | (have hx : ∀ b, Keeps A s₀ b → Keeps A s₀ (x b) := by
             intro _ hb; subst x; first | (simp (maxDischargeDepth := 99) [*]; done) | (simp only []; repeat' split) <;> simp (maxDischargeDepth := 99) [*]
           clear_value x))
    | (simp (maxDischargeDepth := 99) [*]; done)
    | (split <;> try lift_lets -underBinder))

def execGetFeatures_sites : List Site :=
  State.completeSlot_sites ++ State.failCommand_sites ++ State.featureValue_sites ++ State.sendBytes_sites

theorem execGetFeatures_keeps {A : Scope} (n : Nat) (s : State)
    (hA : A.covers execGetFeatures_sites) : KeepsOut A s (execGetFeatures n s) := by
  simp [execGetFeatures_sites] at hA
  have hk := Keeps.refl A s
  unfold execGetFeatures
  repeat' (first
    | with_reducible assumption
    | (intro x; first
        | (refine (?_ : Keeps A s x → _) ?_
           all_goals first | (intro hx; clear_value x) | subst x)
        | (have hx : Keeps A s x.2 := by subst x; first | with_reducible assumption | (simp (maxDischargeDepth := 99) [*]; done) | ((repeat' split) <;> simp (maxDischargeDepth := 99) [*])
           clear_value x
           obtain ⟨_, _⟩ := x)
        | clear_value x)
    | with_reducible refine keepsOut_next.2 ?_
    | with_reducible refine State.completeSlot_keeps _ _ _ _ ?_ (by first | assumption | simp [*])
    | with_reducible refine State.sendBytes_keeps _ _ _ ?_ (by first | assumption | simp [*])
    | with_reducible refine State.failCommand_keeps _ _ _ ?_ (by first | assumption | simp [*])
    | (split <;> try lift_lets -underBinder))

def execAsyncEventRequest_sites : List Site :=
  State.completeSlot_sites ++ State.failCommand_sites ++ State.freeSlot_sites ++ State.modController_sites

theorem execAsyncEventRequest_keeps {A : Scope} (n : Nat) (s : State)
    (hA : A.covers execAsyncEventRequest_sites) : KeepsOut A s (execAsyncEventRequest n s) := by
  simp [execAsyncEventRequest_sites] at hA
  have hk := Keeps.refl A s
  unfold execAsyncEventRequest
  repeat' (first
    | (intro x; first
        | (have hx : Keeps A s x := by
             subst x
             repeat' split
             all_goals first | with_reducible assumption | (simp (maxDischargeDepth := 99) +contextual [*]; done) | simp_all (maxDischargeDepth := 99) +contextual
           clear_value x)
        | clear_value x)
    | (split <;> try lift_lets))
  all_goals first | (simp (maxDischargeDepth := 99) +contextual [*]; done) | simp_all (maxDischargeDepth := 99) +contextual

def execDeviceSelfTest_sites : List Site :=
  State.completeSlot_sites ++ State.draw_sites ++ State.failCommand_sites ++ [.part .host]

theorem execDeviceSelfTest_keeps {A : Scope} (n : Nat) (s : State)
    (hA : A.covers execDeviceSelfTest_sites) : KeepsOut A s (execDeviceSelfTest n s) := by
  simp [execDeviceSelfTest_sites] at hA
  have hk := Keeps.refl A s
  unfold execDeviceSelfTest
  repeat' (first
    | (intro x; clear_value x)
    | (generalize he : State.draw _ = p
       have hp : Keeps A s p.2 := by subst he; first | with_reducible assumption | simp (maxDischargeDepth := 99) +contextual [*]
       clear he
       obtain ⟨_, _⟩ := p)
    | (split <;> try lift_lets))
  all_goals first | (simp (maxDischargeDepth := 99) +contextual [*]; done) | simp_all (maxDischargeDepth := 99) +contextual

def execVirtualizationManagement_sites : List Site :=
  State.completeSlot_sites ++ State.dropController_sites ++ State.failCommand_sites ++ State.modController_sites

theorem execVirtualizationManagement_keeps {A : Scope} (n : Nat) (s : State)
    (hA : A.covers execVirtualizationManagement_sites) : KeepsOut A s (execVirtualizationManagement n s) := by
  simp [execVirtualizationManagement_sites] at hA
  have hk := Keeps.refl A s
  unfold execVirtualizationManagement
  repeat' (first
    | (intro x; clear_value x)
    | (split <;> try lift_lets))
  all_goals first | (simp (maxDischargeDepth := 99) +contextual [*]; done) | simp_all (maxDischargeDepth := 99) +contextual

def execInvalidAdminOpcode_sites : List Site := State.failCommand_sites

theorem execInvalidAdminOpcode_keeps {A : Scope} (n : Nat) (s : State)
    (hA : A.covers execInvalidAdminOpcode_sites) : KeepsOut A s (execInvalidAdminOpcode n s) := by
  simp [execInvalidAdminOpcode_sites] at hA
  have hk := Keeps.refl A s
  unfold execInvalidAdminOpcode
  repeat' (first
    | (intro x; clear_value x)
    | (split <;> try lift_lets))
  all_goals first | (simp (maxDischargeDepth := 99) +contextual [*]; done) | simp_all (maxDischargeDepth := 99) +contextual

end Sys2Proof.Machine
end

