-- ==== Sys2Proof/Laws/KeepsPages.lean ====
section
/-!
SUPPORT. Sys2Proof/Laws/KeepsPages.lean: the operations and meanings of Machine/Pages.lean keep (Laws/Keeps.lean).
-/

set_option linter.all false
set_option Elab.async false

namespace Sys2Proof.Machine

def State.freeFields_sites : List Site := State.draw_sites

@[simp ↓] theorem State.freeFields_keeps {A : Scope} {s₀ : State} (s : State) (n : Nat) (fields : List (Nat × List Byte)) (hk : Keeps A s₀ s)
    (hA : A.covers State.freeFields_sites) :
    Keeps A s₀ (State.freeFields s n fields).2 := by
  simp [State.freeFields_sites] at hA
  simp (maxDischargeDepth := 99) [State.freeFields, hk, hA]

def State.errorPage_sites : List Site := State.freeFields_sites

@[simp ↓] theorem State.errorPage_keeps {A : Scope} {s₀ : State} (s : State) (c : Nat) (hk : Keeps A s₀ s)
    (hA : A.covers State.errorPage_sites) :
    Keeps A s₀ (State.errorPage s c).2 := by
  simp [State.errorPage_sites] at hA
  simp (maxDischargeDepth := 99) +contextual [State.errorPage, hk, hA]

def State.smartPage_sites : List Site := State.freeFields_sites

@[simp ↓] theorem State.smartPage_keeps {A : Scope} {s₀ : State} (s : State) (hk : Keeps A s₀ s)
    (hA : A.covers State.smartPage_sites) :
    Keeps A s₀ (State.smartPage s).2 := by
  simp [State.smartPage_sites] at hA
  simp (maxDischargeDepth := 99) [State.smartPage, hk, hA]

def State.effects_sites : List Site := State.draw_sites

@[simp ↓] theorem State.effects_keeps {A : Scope} {s₀ : State} (s : State) (ops : List Nat) (hk : Keeps A s₀ s)
    (hA : A.covers State.effects_sites) :
    Keeps A s₀ (State.effects s ops).2 := by
  simp [State.effects_sites] at hA
  unfold State.effects
  repeat' (first
    | with_reducible assumption
    | (generalize he : State.draw _ = p
       fail_if_success clear he p
       have hp : Keeps A s₀ p.2 := by subst he; first | with_reducible assumption | simp (maxDischargeDepth := 99) +contextual [*]
       clear he
       obtain ⟨_, _⟩ := p)
    | (intro x; first
        | (refine (?_ : Keeps A s₀ x → _) ?_
           all_goals first | (intro hx; clear_value x) | subst x)
        | (have hx : ∀ b, Keeps A s₀ b → Keeps A s₀ (x b) := by
             intro _ hb; subst x; first | (simp (maxDischargeDepth := 99) [*]; done) | (simp only []; repeat' split) <;> simp (maxDischargeDepth := 99) [*]
           clear_value x))
    | with_reducible refine keeps_foldl_snd (fun u v hu => ?_) _ ?_
    | (split <;> try lift_lets -underBinder))

def State.effectsPage_sites : List Site := State.effects_sites

@[simp ↓] theorem State.effectsPage_keeps {A : Scope} {s₀ : State} (s : State) (csi : Nat) (hk : Keeps A s₀ s)
    (hA : A.covers State.effectsPage_sites) :
    Keeps A s₀ (State.effectsPage s csi).2 := by
  simp [State.effectsPage_sites] at hA
  simp (maxDischargeDepth := 99) [State.effectsPage, hk, hA]

def State.selfTestPage_sites : List Site := State.freeFields_sites

@[simp ↓] theorem State.selfTestPage_keeps {A : Scope} {s₀ : State} (s : State) (hk : Keeps A s₀ s)
    (hA : A.covers State.selfTestPage_sites) :
    Keeps A s₀ (State.selfTestPage s).2 := by
  simp [State.selfTestPage_sites] at hA
  unfold State.selfTestPage
  repeat' (first
    | (intro x; clear_value x)
    | (split <;> try lift_lets))
  all_goals first | (simp (maxDischargeDepth := 99) +contextual [*]; done) | simp_all (maxDischargeDepth := 99) +contextual

def State.sanitizePage_sites : List Site := State.freeFields_sites

@[simp ↓] theorem State.sanitizePage_keeps {A : Scope} {s₀ : State} (s : State) (hk : Keeps A s₀ s)
    (hA : A.covers State.sanitizePage_sites) :
    Keeps A s₀ (State.sanitizePage s).2 := by
  simp [State.sanitizePage_sites] at hA
  simp (maxDischargeDepth := 99) [State.sanitizePage, hk, hA]

def State.storedBytes_sites : List Site := State.draw_sites

@[simp ↓] theorem State.storedBytes_keeps {A : Scope} {s₀ : State} (s : State) (e : Stored) (hk : Keeps A s₀ s)
    (hA : A.covers State.storedBytes_sites) :
    Keeps A s₀ (State.storedBytes s e).2 := by
  simp [State.storedBytes_sites] at hA
  unfold State.storedBytes
  repeat' (first
    | with_reducible assumption
    | (generalize he : State.draw _ = p
       fail_if_success clear he p
       have hp : Keeps A s₀ p.2 := by subst he; first | with_reducible assumption | simp (maxDischargeDepth := 99) +contextual [*]
       clear he
       obtain ⟨_, _⟩ := p)
    | (intro x; first
        | (refine (?_ : Keeps A s₀ x → _) ?_
           all_goals first | (intro hx; clear_value x) | subst x)
        | (have hx : ∀ b, Keeps A s₀ b → Keeps A s₀ (x b) := by
             intro _ hb; subst x; first | (simp (maxDischargeDepth := 99) [*]; done) | (simp only []; repeat' split) <;> simp (maxDischargeDepth := 99) [*]
           clear_value x))
    | (split <;> try lift_lets -underBinder))

def State.storeBody_sites : List Site := State.storedBytes_sites

@[simp ↓] theorem State.storeBody_keeps {A : Scope} {s₀ : State} (s : State) (l : List Stored) (hk : Keeps A s₀ s)
    (hA : A.covers State.storeBody_sites) :
    Keeps A s₀ (State.storeBody s l).2 := by
  simp [State.storeBody_sites] at hA
  unfold State.storeBody
  repeat' (first
    | with_reducible assumption
    | (generalize he : State.storedBytes _ _ = p
       fail_if_success clear he p
       have hp : Keeps A s₀ p.2 := by subst he; first | with_reducible assumption | simp (maxDischargeDepth := 99) +contextual [*]
       clear he
       obtain ⟨_, _⟩ := p)
    | (intro x; first
        | (refine (?_ : Keeps A s₀ x → _) ?_
           all_goals first | (intro hx; clear_value x) | subst x)
        | (have hx : ∀ b, Keeps A s₀ b → Keeps A s₀ (x b) := by
             intro _ hb; subst x; first | (simp (maxDischargeDepth := 99) [*]; done) | (simp only []; repeat' split) <;> simp (maxDischargeDepth := 99) [*]
           clear_value x))
    | with_reducible refine keeps_foldl_snd (fun u v hu => ?_) _ ?_
    | (split <;> try lift_lets -underBinder))

def State.recorderBody_sites : List Site := State.storeBody_sites

@[simp ↓] theorem State.recorderBody_keeps {A : Scope} {s₀ : State} (s : State) (store : Nat) (hk : Keeps A s₀ s)
    (hA : A.covers State.recorderBody_sites) :
    KeepsOpt A (fun t => t.2) s₀ (State.recorderBody s store) := by
  simp [State.recorderBody_sites] at hA
  unfold State.recorderBody
  repeat' (first
    | (intro x; clear_value x)
    | (split <;> try lift_lets))
  all_goals first | (simp (maxDischargeDepth := 99) +contextual [*]; done) | simp_all (maxDischargeDepth := 99) +contextual

def State.pageRead_sites : List Site := State.modController_sites ++ [.part .host]

@[simp ↓] theorem State.pageRead_keeps {A : Scope} {s₀ : State} (s : State) (x : Slot) (hk : Keeps A s₀ s)
    (hA : A.covers State.pageRead_sites) :
    Keeps A s₀ (State.pageRead s x) := by
  simp [State.pageRead_sites] at hA
  unfold State.pageRead
  repeat' (first
    | (intro x; first
        | (have hx : Keeps A s₀ x := by
             subst x
             repeat' split
             all_goals first | with_reducible assumption | (simp (maxDischargeDepth := 99) +contextual [*]; done) | simp_all (maxDischargeDepth := 99) +contextual
           clear_value x)
        | clear_value x)
    | (split <;> try lift_lets))
  all_goals first | (simp (maxDischargeDepth := 99) +contextual [*]; done) | simp_all (maxDischargeDepth := 99) +contextual

def returnPage_sites : List Site := State.pageRead_sites ++ State.sendPage_sites

@[simp ↓] theorem returnPage_keeps {A : Scope} {s₀ : State} (x : Slot) (r : List Byte × State) (h : Keeps A s₀ r.2)
    (hA : A.covers returnPage_sites) : Keeps A s₀ (returnPage x r) := by
  simp [returnPage_sites] at hA
  simp (maxDischargeDepth := 99) [returnPage, h, hA]

def State.readSnapshot_sites : List Site :=
  State.failCommand_sites ++ State.keepSnapshot_sites ++ State.pageRead_sites ++ State.vendorPage_sites ++ returnPage_sites ++
    [.part .host]

@[simp ↓] theorem State.readSnapshot_keeps {A : Scope} {s₀ : State} (s : State) (x : Slot) (hk : Keeps A s₀ s)
    (hA : A.covers State.readSnapshot_sites) :
    Keeps A s₀ (State.readSnapshot s x) := by
  simp [State.readSnapshot_sites] at hA
  unfold State.readSnapshot
  repeat' (first
    | (intro x; first
        | (have hx : Keeps A s₀ x.2 := by subst x; first | with_reducible assumption | (simp (maxDischargeDepth := 99) [*]; done) | (simp (maxDischargeDepth := 99) +contextual [*]; done) | ((repeat' split) <;> simp (maxDischargeDepth := 99) [*])
           clear_value x
           obtain ⟨_, _⟩ := x)
        | clear_value x)
    | (simp (maxDischargeDepth := 99) [*]; done)
    | (split <;> try lift_lets -underBinder))

def State.readRecorder_sites : List Site :=
  State.failCommand_sites ++ State.recorderBody_sites ++ State.vendorPage_sites ++ returnPage_sites

@[simp ↓] theorem State.readRecorder_keeps {A : Scope} {s₀ : State} (s : State) (x : Slot) (hk : Keeps A s₀ s)
    (hA : A.covers State.readRecorder_sites) : Keeps A s₀ (State.readRecorder s x) := by
  simp [State.readRecorder_sites] at hA
  unfold State.readRecorder
  split
  · exact State.failCommand_keeps _ _ _ hk (by first | assumption | simp [*])
  · next b h =>
    have hb : Keeps A s₀ b.2 := State.recorderBody_keeps s _ hk (by first | assumption | simp [*]) b h
    exact returnPage_keeps _ _ (State.vendorPage_keeps _ _ _ _ hb hA.2.2.1) hA.2.2.2

def State.readStandard_sites : List Site :=
  State.effectsPage_sites ++ State.errorPage_sites ++ State.failCommand_sites ++ State.sanitizePage_sites ++
    State.selfTestPage_sites ++ State.smartPage_sites ++ returnPage_sites

@[simp ↓] theorem State.readStandard_keeps {A : Scope} {s₀ : State} (s : State) (x : Slot) (hk : Keeps A s₀ s)
    (hA : A.covers State.readStandard_sites) :
    Keeps A s₀ (State.readStandard s x) := by
  simp [State.readStandard_sites] at hA
  unfold State.readStandard
  repeat' (first
    | (intro x; clear_value x)
    | (split <;> try lift_lets))
  all_goals first | (simp (maxDischargeDepth := 99) +contextual [*]; done) | simp_all (maxDischargeDepth := 99) +contextual

def execGetLogPage_sites : List Site :=
  State.failCommand_sites ++ State.readRecorder_sites ++ State.readSnapshot_sites ++ State.readStandard_sites

theorem execGetLogPage_keeps {A : Scope} (n : Nat) (s : State)
    (hA : A.covers execGetLogPage_sites) : KeepsOut A s (execGetLogPage n s) := by
  simp [execGetLogPage_sites] at hA
  have hk := Keeps.refl A s
  unfold execGetLogPage
  repeat' (first
    | (intro x; clear_value x)
    | (split <;> try lift_lets))
  all_goals first | (simp (maxDischargeDepth := 99) +contextual [*]; done) | simp_all (maxDischargeDepth := 99) +contextual

def State.identifyController_sites : List Site := State.freeFields_sites

@[simp ↓] theorem State.identifyController_keeps {A : Scope} {s₀ : State} (s : State) (c : Nat) (hk : Keeps A s₀ s)
    (hA : A.covers State.identifyController_sites) :
    Keeps A s₀ (State.identifyController s c).2 := by
  simp [State.identifyController_sites] at hA
  simp (maxDischargeDepth := 99) [State.identifyController, hk, hA]

def State.identifyNamespace_sites : List Site := State.freeFields_sites

@[simp ↓] theorem State.identifyNamespace_keeps {A : Scope} {s₀ : State} (s : State) (n : NamespaceEntry) (hk : Keeps A s₀ s)
    (hA : A.covers State.identifyNamespace_sites) :
    Keeps A s₀ (State.identifyNamespace s n).2 := by
  simp [State.identifyNamespace_sites] at hA
  simp (maxDischargeDepth := 99) [State.identifyNamespace, hk, hA]

def State.identifySpace_sites : List Site := State.freeFields_sites

@[simp ↓] theorem State.identifySpace_keeps {A : Scope} {s₀ : State} (s : State) (n : NamespaceEntry) (hk : Keeps A s₀ s)
    (hA : A.covers State.identifySpace_sites) :
    Keeps A s₀ (State.identifySpace s n).2 := by
  simp [State.identifySpace_sites] at hA
  unfold State.identifySpace
  repeat' (first
    | (intro x; clear_value x)
    | (split <;> try lift_lets))
  all_goals first | (simp (maxDischargeDepth := 99) +contextual [*]; done) | simp_all (maxDischargeDepth := 99) +contextual

def State.secondaryList_sites : List Site := State.freeFields_sites

@[simp ↓] theorem State.secondaryList_keeps {A : Scope} {s₀ : State} (s : State) (c : Nat) (above : Nat) (hk : Keeps A s₀ s)
    (hA : A.covers State.secondaryList_sites) :
    Keeps A s₀ (State.secondaryList s c above).2 := by
  simp [State.secondaryList_sites] at hA
  simp (maxDischargeDepth := 99) +contextual [State.secondaryList, hk, hA]

/-- An answer that may be an error: its state, if there is one, keeps. -/
def KeepsExcept {α : Type} (A : Scope) (s₀ : State) (o : Except Nat (α × State)) : Prop := ∀ t, o = .ok t → Keeps A s₀ t.2

theorem keepsExcept_ok {α : Type} {A : Scope} {s₀ : State} {t : α × State} (h : Keeps A s₀ t.2) : KeepsExcept A s₀ (.ok t) := by
  intro u hu; cases hu; exact h

theorem keepsExcept_error {α : Type} {A : Scope} {s₀ : State} {e : Nat} : KeepsExcept (α := α) A s₀ (.error e) := by intro u hu; cases hu

theorem keepsExcept_ite {α : Type} {A : Scope} {s₀ : State} {a b : Except Nat (α × State)} {c : Prop} [Decidable c] (ha : KeepsExcept A s₀ a)
    (hb : KeepsExcept A s₀ b) : KeepsExcept A s₀ (if c then a else b) := by split <;> assumption

def State.identify_sites : List Site :=
  State.freeFields_sites ++ State.identifyController_sites ++ State.identifyNamespace_sites ++ State.identifySpace_sites ++
    State.secondaryList_sites

theorem State.identify_keeps {A : Scope} {s₀ : State} (s : State) (x : Slot) (hk : Keeps A s₀ s)
    (hA : A.covers State.identify_sites) : KeepsExcept A s₀ (s.identify x) := by
  simp [State.identify_sites] at hA
  have hn (l : List NamespaceEntry) (f : NamespaceEntry → Except Nat (List Byte × State)) (hf : ∀ n, KeepsExcept A s₀ (f n)) :
      KeepsExcept A s₀ (if x.sqe.nsid = 0 ∨ 16 < x.sqe.nsid then .error Nvme.invalidNamespace
        else match l.find? fun n => n.nsid == x.sqe.nsid with
          | some n => f n
          | none => .ok (List.replicate 4096 0, s)) := by
    refine keepsExcept_ite keepsExcept_error ?_
    split
    · exact hf _
    · exact keepsExcept_ok hk
  unfold State.identify
  dsimp only
  split
  all_goals first
    | exact keepsExcept_error
    | exact keepsExcept_ok hk
    | (refine keepsExcept_ok ?_; simp (maxDischargeDepth := 99) [hk, hA]; done)
    | (refine hn _ _ fun n => ?_
       first
       | (refine keepsExcept_ok ?_; simp (maxDischargeDepth := 99) [hk, hA]; done)
       | (refine keepsExcept_ite (keepsExcept_ok ?_) keepsExcept_error; simp (maxDischargeDepth := 99) [hk, hA]; done))
    | (refine keepsExcept_ite (keepsExcept_ok ?_) (keepsExcept_ite (keepsExcept_ok ?_) keepsExcept_error) <;>
        simp (maxDischargeDepth := 99) [hk, hA]; done)

def execIdentify_sites : List Site :=
  State.completeSlot_sites ++ State.failCommand_sites ++ State.identify_sites ++ State.sendBytes_sites

theorem execIdentify_keeps {A : Scope} (n : Nat) (s : State)
    (hA : A.covers execIdentify_sites) : KeepsOut A s (execIdentify n s) := by
  simp [execIdentify_sites] at hA
  unfold execIdentify
  split
  · simp [hA]
  · split
    · simp [hA]
    · next bytes t h =>
      have ht : Keeps A s t := State.identify_keeps s _ (Keeps.refl A s) (by first | assumption | simp [*]) _ h
      simp (maxDischargeDepth := 99) [ht, hA]

end Sys2Proof.Machine
end

