-- ==== Sys2Proof/Laws/KeepsFormat.lean ====
section
/-!
SUPPORT. Sys2Proof/Laws/KeepsFormat.lean: the operations and meanings of Machine/Format.lean keep (Laws/Keeps.lean).
-/

set_option linter.all false
set_option Elab.async false

namespace Sys2Proof.Machine

def execFormatNvm_sites : List Site :=
  State.completeSlot_sites ++ State.failCommand_sites ++ State.holdCommand_sites ++ State.modSlot_sites ++ [.part .host]

theorem execFormatNvm_keeps {A : Scope} (n : Nat) (s : State)
    (hA : A.covers execFormatNvm_sites) : KeepsOut A s (execFormatNvm n s) := by
  simp [execFormatNvm_sites] at hA
  have hk := Keeps.refl A s
  unfold execFormatNvm
  repeat' (first
    | (intro x; first
        | (have hx : Keeps A s x := by
             subst x
             repeat' split
             all_goals first | with_reducible assumption | (simp (maxDischargeDepth := 99) +contextual [*]; done) | simp_all (maxDischargeDepth := 99) +contextual
           clear_value x)
        | clear_value x)
    | (split <;> try lift_lets))
  all_goals first | (simp (maxDischargeDepth := 99) +contextual [*]; done) | simp_all (maxDischargeDepth := 99) +contextual

def State.emptyZone_sites : List Site := State.dropAccept_sites ++ State.walker_sites

@[simp ↓] theorem State.emptyZone_keeps {A : Scope} {s₀ : State} (s : State) (z : Nat) (hk : Keeps A s₀ s)
    (hA : A.covers State.emptyZone_sites) :
    Keeps A s₀ (State.emptyZone s z) := by
  simp [State.emptyZone_sites] at hA
  simp (maxDischargeDepth := 99) [State.emptyZone, hk, hA]

def State.renewZone_sites : List Site := State.emptyZone_sites ++ State.walker_sites

@[simp ↓] theorem State.renewZone_keeps {A : Scope} {s₀ : State} (s : State) (z : Nat) (hk : Keeps A s₀ s)
    (hA : A.covers State.renewZone_sites) :
    Keeps A s₀ (State.renewZone s z) := by
  simp [State.renewZone_sites] at hA
  simp (maxDischargeDepth := 99) [State.renewZone, hk, hA]

def State.clearZone_sites : List Site :=
  State.abandonRewrite_sites ++ State.dropClean_sites ++ State.renewZone_sites ++ State.unlist_sites ++ State.walker_sites ++
    [.part .flow]

@[simp ↓] theorem State.clearZone_keeps {A : Scope} {s₀ : State} (zns : Bool) (s : State) (z : Nat) (hk : Keeps A s₀ s)
    (hA : A.covers State.clearZone_sites) :
    Keeps A s₀ (State.clearZone zns s z) := by
  simp [State.clearZone_sites] at hA
  simp (maxDischargeDepth := 99) [State.clearZone, hk, hA]

def State.namespaceNotice_sites : List Site := State.postAsync_sites ++ [.part .host]

@[simp ↓] theorem State.namespaceNotice_keeps {A : Scope} {s₀ : State} (s : State) (nsid : Nat) (hk : Keeps A s₀ s)
    (hA : A.covers State.namespaceNotice_sites) :
    Keeps A s₀ (State.namespaceNotice s nsid) := by
  simp [State.namespaceNotice_sites] at hA
  simp (maxDischargeDepth := 99) [State.namespaceNotice, hk, hA]

def State.formatted_sites : List Site :=
  State.clearZone_sites ++ State.namespaceNotice_sites ++ State.newNmek_sites ++ [.part .host]

@[simp ↓] theorem State.formatted_keeps {A : Scope} {s₀ : State} (s : State) (n : NamespaceEntry) (cdw10 : Nat) (hk : Keeps A s₀ s)
    (hA : A.covers State.formatted_sites) :
    Keeps A s₀ (State.formatted s n cdw10) := by
  simp [State.formatted_sites] at hA
  unfold State.formatted
  repeat' (first
    | (intro x; clear_value x))
  all_goals first | (simp (maxDischargeDepth := 99) +contextual [*]; done) | simp_all (maxDischargeDepth := 99) +contextual

def execFormatNvmDone_sites : List Site := State.completeSlot_sites ++ State.formatted_sites ++ [.part .host]

theorem execFormatNvmDone_keeps {A : Scope} (nsid : Nat) (s : State)
    (hA : A.covers execFormatNvmDone_sites) : KeepsOut A s (execFormatNvmDone nsid s) := by
  simp [execFormatNvmDone_sites] at hA
  have hk := Keeps.refl A s
  unfold execFormatNvmDone
  repeat' (first
    | (intro x; first
        | (have hx : Keeps A s x := by
             subst x
             repeat' split
             all_goals first | with_reducible assumption | (simp (maxDischargeDepth := 99) +contextual [*]; done) | simp_all (maxDischargeDepth := 99) +contextual
           clear_value x)
        | clear_value x)
    | (split <;> try lift_lets))
  all_goals first | (simp (maxDischargeDepth := 99) +contextual [*]; done) | simp_all (maxDischargeDepth := 99) +contextual

def execSecuritySend_sites : List Site := State.completeSlot_sites ++ State.failCommand_sites

theorem execSecuritySend_keeps {A : Scope} (n : Nat) (payload : List Byte) (s : State)
    (hA : A.covers execSecuritySend_sites) : KeepsOut A s (execSecuritySend n payload s) := by
  simp [execSecuritySend_sites] at hA
  have hk := Keeps.refl A s
  unfold execSecuritySend
  repeat' (first
    | (intro x; clear_value x)
    | (split <;> try lift_lets))
  all_goals first | (simp (maxDischargeDepth := 99) +contextual [*]; done) | simp_all (maxDischargeDepth := 99) +contextual

def execSecurityReceive_sites : List Site :=
  State.completeSlot_sites ++ State.failCommand_sites ++ State.freeFields_sites ++ State.sendBytes_sites

theorem execSecurityReceive_keeps {A : Scope} (n : Nat) (s : State)
    (hA : A.covers execSecurityReceive_sites) : KeepsOut A s (execSecurityReceive n s) := by
  simp [execSecurityReceive_sites] at hA
  have hk := Keeps.refl A s
  unfold execSecurityReceive
  repeat' (first
    | with_reducible assumption
    | (intro x; first
        | (have hx : Keeps A s x.2 := by subst x; first | with_reducible assumption | (simp (maxDischargeDepth := 99) [*]; done) | ((repeat' split) <;> simp (maxDischargeDepth := 99) [*])
           clear_value x
           obtain ⟨_, _⟩ := x)
        | clear_value x)
    | with_reducible refine keepsOut_next.2 ?_
    | with_reducible refine State.completeSlot_keeps _ _ _ _ ?_ (by first | assumption | simp [*])
    | with_reducible refine State.sendBytes_keeps _ _ _ ?_ (by first | assumption | simp [*])
    | with_reducible refine State.failCommand_keeps _ _ _ ?_ (by first | assumption | simp [*])
    | (split <;> try lift_lets -underBinder))

def State.sanStep_sites : List Site := [.part .tir]

@[simp ↓] theorem State.sanStep_keeps {A : Scope} {s₀ : State} (s : State) (k : Nat) (hk : Keeps A s₀ s)
    (hA : A.covers State.sanStep_sites) :
    Keeps A s₀ (State.sanStep s k) := by
  simp [State.sanStep_sites] at hA
  simp (maxDischargeDepth := 99) [State.sanStep, hk, hA]

def execSanitize_sites : List Site :=
  State.completeSlot_sites ++ State.failCommand_sites ++ State.holdCommand_sites ++ State.sanStep_sites ++ [.part .host]

theorem execSanitize_keeps {A : Scope} (n : Nat) (s : State)
    (hA : A.covers execSanitize_sites) : KeepsOut A s (execSanitize n s) := by
  simp [execSanitize_sites] at hA
  have hk := Keeps.refl A s
  unfold execSanitize
  repeat' (first
    | (intro x; first
        | (have hx : Keeps A s x := by
             subst x
             repeat' split
             all_goals first | with_reducible assumption | (simp (maxDischargeDepth := 99) +contextual [*]; done) | simp_all (maxDischargeDepth := 99) +contextual
           clear_value x)
        | clear_value x)
    | (split <;> try lift_lets))
  all_goals first | (simp (maxDischargeDepth := 99) +contextual [*]; done) | simp_all (maxDischargeDepth := 99) +contextual

def State.forgetWrite_sites : List Site :=
  State.completeSlot_sites ++ State.discardWrite_sites ++ State.freeSlot_sites ++ State.transferSet_sites ++ [.part .flow,
    .part .cip]

@[simp ↓] theorem State.forgetWrite_keeps {A : Scope} {s₀ : State} (s : State) (w : Slot) (hk : Keeps A s₀ s)
    (hA : A.covers State.forgetWrite_sites) :
    Keeps A s₀ (State.forgetWrite s w) := by
  simp [State.forgetWrite_sites] at hA
  simp (maxDischargeDepth := 99) [State.forgetWrite, hk, hA]

def State.sanCommon_sites : List Site :=
  State.abandonRewrite_sites ++ State.dropClean_sites ++ State.forgetWrite_sites ++ State.mapUsage_sites ++
    State.savePresent_sites ++ State.unreadRegs_sites ++ State.walker_sites ++ [.part .keeper, .part .stitch, .part .flow,
    .part .darn, .part .tir]

@[simp ↓] theorem State.sanCommon_keeps {A : Scope} {s₀ : State} (s : State) (hk : Keeps A s₀ s)
    (hA : A.covers State.sanCommon_sites) :
    Keeps A s₀ (State.sanCommon s) := by
  simp [State.sanCommon_sites] at hA
  unfold State.sanCommon
  repeat' (first
    | (intro x; clear_value x)
    | (split <;> try lift_lets))
  all_goals first | (simp (maxDischargeDepth := 99) +contextual [*]; done) | simp_all (maxDischargeDepth := 99) +contextual

def State.eraseZone_sites : List Site := [.part .stitch]

@[simp ↓] theorem State.eraseZone_keeps {A : Scope} {s₀ : State} (s : State) (z : Nat) (hk : Keeps A s₀ s)
    (hA : A.covers State.eraseZone_sites) :
    Keeps A s₀ (State.eraseZone s z) := by
  simp [State.eraseZone_sites] at hA
  simp (maxDischargeDepth := 99) [State.eraseZone, hk, hA]

def State.overwriteZone_sites : List Site := State.addOp_sites

@[simp ↓] theorem State.overwriteZone_keeps {A : Scope} {s₀ : State} (s : State) (nsid : Nat) (z : Nat) (n : Nat) (word : Nat) (hk : Keeps A s₀ s)
    (hA : A.covers State.overwriteZone_sites) :
    Keeps A s₀ (State.overwriteZone s nsid z n word) := by
  simp [State.overwriteZone_sites] at hA
  unfold State.overwriteZone
  repeat' (first
    | (intro x; first
        | (have hx : Keeps A s₀ x := by
             subst x
             repeat' split
             all_goals first | with_reducible assumption | (simp (maxDischargeDepth := 99) +contextual [*]; done) | simp_all (maxDischargeDepth := 99) +contextual
           clear_value x)
        | clear_value x)
    | (split <;> try lift_lets))
  all_goals first | (simp (maxDischargeDepth := 99) +contextual [*]; done) | simp_all (maxDischargeDepth := 99) +contextual

def State.overwritten_sites : List Site := State.dropAccept_sites ++ State.walker_sites

@[simp ↓] theorem State.overwritten_keeps {A : Scope} {s₀ : State} (s : State) (z : Nat) (hk : Keeps A s₀ s)
    (hA : A.covers State.overwritten_sites) :
    Keeps A s₀ (State.overwritten s z) := by
  simp [State.overwritten_sites] at hA
  simp (maxDischargeDepth := 99) [State.overwritten, hk, hA]

def State.sanOverwrite_sites : List Site :=
  State.overwriteZone_sites ++ State.overwritten_sites ++ State.renewZone_sites ++ State.sanStep_sites ++ [.part .tir]

@[simp ↓] theorem State.sanOverwrite_keeps {A : Scope} {s₀ : State} (s : State) (cdw10 : Nat) (pattern : Nat) (hk : Keeps A s₀ s)
    (hA : A.covers State.sanOverwrite_sites) :
    Keeps A s₀ (State.sanOverwrite s cdw10 pattern) := by
  simp [State.sanOverwrite_sites] at hA
  simp only [State.sanOverwrite]
  repeat' split
  all_goals simp_all (maxDischargeDepth := 99) +contextual

def State.sanErase_sites : List Site := State.eraseZone_sites ++ State.sanStep_sites ++ [.part .tir]

@[simp ↓] theorem State.sanErase_keeps {A : Scope} {s₀ : State} (s : State) (hk : Keeps A s₀ s)
    (hA : A.covers State.sanErase_sites) :
    Keeps A s₀ (State.sanErase s) := by
  simp [State.sanErase_sites] at hA
  simp only [State.sanErase]
  repeat' split
  all_goals simp_all (maxDischargeDepth := 99) +contextual

def State.sanEnd_sites : List Site := State.emptyZone_sites ++ State.walker_sites

@[simp ↓] theorem State.sanEnd_keeps {A : Scope} {s₀ : State} (s : State) (cdw10 : Nat) (hk : Keeps A s₀ s)
    (hA : A.covers State.sanEnd_sites) :
    Keeps A s₀ (State.sanEnd s cdw10) := by
  simp [State.sanEnd_sites] at hA
  unfold State.sanEnd
  repeat' (first
    | (intro x; clear_value x))
  all_goals first | (simp (maxDischargeDepth := 99) +contextual [*]; done) | simp_all (maxDischargeDepth := 99) +contextual

def execSanitizeStepDone_sites : List Site :=
  State.keyChange_sites ++ State.namespaceNotice_sites ++ State.sanCommon_sites ++ State.sanEnd_sites ++ State.sanErase_sites
    ++ State.sanOverwrite_sites ++ State.sanStep_sites ++ [.part .host]

theorem execSanitizeStepDone_keeps {A : Scope} (s : State)
    (hA : A.covers execSanitizeStepDone_sites) : KeepsOut A s (execSanitizeStepDone s) := by
  simp [execSanitizeStepDone_sites] at hA
  have hk := Keeps.refl A s
  unfold execSanitizeStepDone
  simp only []
  repeat' split
  all_goals try rw [keepsOut_next]
  all_goals simp (maxDischargeDepth := 99) +contextual [hk, hA]

end Sys2Proof.Machine
end

