-- ==== Sys2Proof/Laws/KeepsSideband.lean ====
section
/-!
SUPPORT. Sys2Proof/Laws/KeepsSideband.lean: the operations and meanings of Machine/Sideband.lean keep (Laws/Keeps.lean).
-/

set_option linter.all false
set_option Elab.async false

namespace Sys2Proof.Machine

def State.answerSideband_sites : List Site := State.send_sites ++ [.part .host]

@[simp ↓] theorem State.answerSideband_keeps {A : Scope} {s₀ : State} (s : State) (bytes : List Byte) (hk : Keeps A s₀ s)
    (hA : A.covers State.answerSideband_sites) :
    Keeps A s₀ (State.answerSideband s bytes) := by
  simp [State.answerSideband_sites] at hA
  simp (maxDischargeDepth := 99) [State.answerSideband, hk, hA]

def execMctpMessage_sites : List Site := [.one R.HIF_SB_STATUS]

theorem execMctpMessage_keeps {A : Scope} (transport : Nat) (type : Nat) (s : State)
    (hA : A.covers execMctpMessage_sites) : KeepsOut A s (execMctpMessage transport type s) := by
  simp [execMctpMessage_sites] at hA
  simp (maxDischargeDepth := 99) [execMctpMessage, hA]

def execSetEndpointId_sites : List Site := [.one R.HIF_SB_STATUS]

theorem execSetEndpointId_keeps {A : Scope} (eid : Nat) (s : State)
    (hA : A.covers execSetEndpointId_sites) : KeepsOut A s (execSetEndpointId eid s) := by
  simp [execSetEndpointId_sites] at hA
  simp (maxDischargeDepth := 99) [execSetEndpointId, hA]

def execNvmeMiBasic_sites : List Site := State.answerSideband_sites ++ State.freeFields_sites

theorem execNvmeMiBasic_keeps {A : Scope} (s : State)
    (hA : A.covers execNvmeMiBasic_sites) : KeepsOut A s (execNvmeMiBasic s) := by
  simp [execNvmeMiBasic_sites] at hA
  simp (maxDischargeDepth := 99) [execNvmeMiBasic, hA]

def State.miAnswer_sites : List Site := State.freeFields_sites ++ [.part .host]

@[simp ↓] theorem State.miAnswer_keeps {A : Scope} {s₀ : State} (s : State) (c : MiCommand) (hk : Keeps A s₀ s)
    (hA : A.covers State.miAnswer_sites) :
    Keeps A s₀ (State.miAnswer s c).2 := by
  simp [State.miAnswer_sites] at hA
  unfold State.miAnswer
  repeat' (first
    | with_reducible assumption
    | (intro x; first
        | (have hx : Keeps A s₀ x.2 := by subst x; first | with_reducible assumption | (simp (maxDischargeDepth := 99) [*]; done) | ((repeat' split) <;> simp (maxDischargeDepth := 99) [*])
           clear_value x
           obtain ⟨_, _⟩ := x)
        | clear_value x)
    | with_reducible refine State.modHost_keeps _ _ ?_ (by first | assumption | simp [*])
    | (split <;> try lift_lets -underBinder))

def State.sidebandSlot_sites : List Site := State.transfer_sites ++ [.part .host, .part .flow]

@[simp ↓] theorem State.sidebandSlot_keeps {A : Scope} {s₀ : State} (s : State) (q : Sqe) (c : Nat) (payload : List Byte) (hk : Keeps A s₀ s)
    (hA : A.covers State.sidebandSlot_sites) :
    Keeps A s₀ (State.sidebandSlot s q c payload) := by
  simp [State.sidebandSlot_sites] at hA
  unfold State.sidebandSlot
  repeat' (first
    | (intro x; first
        | (have hx : Keeps A s₀ x := by
             subst x
             repeat' split
             all_goals first | with_reducible assumption | (simp (maxDischargeDepth := 99) +contextual [*]; done) | simp_all (maxDischargeDepth := 99) +contextual
           clear_value x)
        | clear_value x)
    | (split <;> try lift_lets))
  all_goals first | (simp (maxDischargeDepth := 99) +contextual [*]; done) | simp_all (maxDischargeDepth := 99) +contextual

def execNvmeMiCommand_sites : List Site := State.answerSideband_sites ++ State.miAnswer_sites ++ State.sidebandSlot_sites

theorem execNvmeMiCommand_keeps {A : Scope} (c : MiCommand) (s : State)
    (hA : A.covers execNvmeMiCommand_sites) : KeepsOut A s (execNvmeMiCommand c s) := by
  simp [execNvmeMiCommand_sites] at hA
  have hk := Keeps.refl A s
  unfold execNvmeMiCommand
  repeat' (first
    | with_reducible assumption
    | (generalize he : State.miAnswer _ _ = p
       fail_if_success clear he p
       have hp : Keeps A s p.2 := by subst he; first | with_reducible assumption | simp (maxDischargeDepth := 99) +contextual [*]
       clear he
       obtain ⟨_, _⟩ := p)
    | (intro x; first
        | (refine (?_ : Keeps A s x → _) ?_
           all_goals first | (intro hx; clear_value x) | subst x)
        | (have hx : ∀ b, Keeps A s b → Keeps A s (x b) := by
             intro _ hb; subst x; first | (simp (maxDischargeDepth := 99) [*]; done) | (simp only []; repeat' split) <;> simp (maxDischargeDepth := 99) [*]
           clear_value x))
    | with_reducible refine keepsOut_next.2 ?_
    | with_reducible refine State.answerSideband_keeps _ _ ?_ (by first | assumption | simp [*])
    | with_reducible refine State.sidebandSlot_keeps _ _ _ _ ?_ (by first | assumption | simp [*])
    | (split <;> try lift_lets -underBinder))

def execNvmeMiSend_sites : List Site := State.completeSlot_sites ++ State.miAnswer_sites ++ [.part .host]

theorem execNvmeMiSend_keeps {A : Scope} (n : Nat) (c : MiCommand) (s : State)
    (hA : A.covers execNvmeMiSend_sites) : KeepsOut A s (execNvmeMiSend n c s) := by
  simp [execNvmeMiSend_sites] at hA
  have hk := Keeps.refl A s
  unfold execNvmeMiSend
  repeat' (first
    | with_reducible assumption
    | (generalize he : State.miAnswer _ _ = p
       fail_if_success clear he p
       have hp : Keeps A s p.2 := by subst he; first | with_reducible assumption | simp (maxDischargeDepth := 99) +contextual [*]
       clear he
       obtain ⟨_, _⟩ := p)
    | (intro x; first
        | (refine (?_ : Keeps A s x → _) ?_
           all_goals first | (intro hx; clear_value x) | subst x)
        | (have hx : ∀ b, Keeps A s b → Keeps A s (x b) := by
             intro _ hb; subst x; first | (simp (maxDischargeDepth := 99) [*]; done) | (simp only []; repeat' split) <;> simp (maxDischargeDepth := 99) [*]
           clear_value x))
    | with_reducible refine keepsOut_next.2 ?_
    | with_reducible refine State.completeSlot_keeps _ _ _ _ ?_ (by first | assumption | simp [*])
    | with_reducible refine State.modHost_keeps _ _ ?_ (by first | assumption | simp [*])
    | (split <;> try lift_lets -underBinder))

def execNvmeMiReceive_sites : List Site := State.completeSlot_sites ++ State.sendBytes_sites

theorem execNvmeMiReceive_keeps {A : Scope} (n : Nat) (s : State)
    (hA : A.covers execNvmeMiReceive_sites) : KeepsOut A s (execNvmeMiReceive n s) := by
  simp [execNvmeMiReceive_sites] at hA
  have hk := Keeps.refl A s
  unfold execNvmeMiReceive
  repeat' (first
    | (intro x; clear_value x)
    | (split <;> try lift_lets))
  all_goals first | (simp (maxDischargeDepth := 99) +contextual [*]; done) | simp_all (maxDischargeDepth := 99) +contextual

end Sys2Proof.Machine
end

