-- ==== Sys2Proof/Laws/KeepsSnag.lean ====
section
/-!
SUPPORT. Sys2Proof/Laws/KeepsSnag.lean: the operations and meanings of Machine/Snag.lean keep (Laws/Keeps.lean).
-/

set_option linter.all false
set_option Elab.async false

namespace Sys2Proof.Machine

def State.snagArm_sites : List Site :=
  State.event_sites ++ [.one R.SNG_EVENTS, .one R.SNG_STATUS, .one R.TIR_STATUS, .part .snag]

@[simp ↓] theorem State.snagArm_keeps {A : Scope} {s₀ : State} (s : State) (hk : Keeps A s₀ s)
    (hA : A.covers State.snagArm_sites) :
    Keeps A s₀ (State.snagArm s) := by
  simp [State.snagArm_sites] at hA
  simp (maxDischargeDepth := 99) [State.snagArm, hk, hA]

def execSngArm_sites : List Site := State.snagArm_sites

theorem execSngArm_keeps {A : Scope} (s : State)
    (hA : A.covers execSngArm_sites) : KeepsOut A s (execSngArm s) := by
  simp [execSngArm_sites] at hA
  simp (maxDischargeDepth := 99) [execSngArm, hA]

def execSngDisarm_sites : List Site := State.snagDisarm_sites

theorem execSngDisarm_keeps {A : Scope} (s : State)
    (hA : A.covers execSngDisarm_sites) : KeepsOut A s (execSngDisarm s) := by
  simp [execSngDisarm_sites] at hA
  simp (maxDischargeDepth := 99) [execSngDisarm, hA]

def State.modInjector_sites : List Site := State.snagStatus_sites ++ [.part .snag]

@[simp ↓] theorem State.modInjector_keeps {A : Scope} {s₀ : State} (s : State) (n : Nat) (f : Injector → Injector) (hk : Keeps A s₀ s)
    (hA : A.covers State.modInjector_sites) :
    Keeps A s₀ (State.modInjector s n f) := by
  simp [State.modInjector_sites] at hA
  simp (maxDischargeDepth := 99) [State.modInjector, hk, hA]

def State.flipBits_sites : List Site := [.part .prot]

@[simp ↓] theorem State.flipBits_keeps {A : Scope} {s₀ : State} (s : State) (die : Nat) (bit : Nat) (n : Nat) (hk : Keeps A s₀ s)
    (hA : A.covers State.flipBits_sites) :
    Keeps A s₀ (State.flipBits s die bit n) := by
  simp [State.flipBits_sites] at hA
  simp (maxDischargeDepth := 99) [State.flipBits, hk, hA]

def State.injectOnce_sites : List Site :=
  State.flipBits_sites ++ State.inject_sites ++ State.lockstepFault_sites ++ State.modInjector_sites ++
    State.simulateAlarm_sites ++ [.one R.SNG_EVENTS]

@[simp ↓] theorem State.injectOnce_keeps {A : Scope} {s₀ : State} (s : State) (n : Nat) (hk : Keeps A s₀ s)
    (hA : A.covers State.injectOnce_sites) :
    Keeps A s₀ (State.injectOnce s n) := by
  simp [State.injectOnce_sites] at hA
  unfold State.injectOnce
  try lift_lets
  repeat' (first
    | (intro x; first
        | (have hx : Keeps A s₀ x := by
             subst x
             repeat' split
             all_goals first | with_reducible assumption | (simp (maxDischargeDepth := 99) +contextual [*]; done) | simp_all (maxDischargeDepth := 99) +contextual
           clear_value x)
        | clear_value x)
    | (split <;> try lift_lets))
  all_goals first | (simp (maxDischargeDepth := 99) +contextual [*]; done) | simp_all (maxDischargeDepth := 99) +contextual

def State.injectorGo_sites : List Site :=
  State.injectOnce_sites ++ State.modInjector_sites ++ [.one R.SNG_EVENTS, .each R.SNG_INJ_CFG, .each R.SNG_INJ_COUNT]

@[simp ↓] theorem State.injectorGo_keeps {A : Scope} {s₀ : State} (s : State) (n : Nat) (cfg : Word) (hk : Keeps A s₀ s)
    (hA : A.covers State.injectorGo_sites) :
    Keeps A s₀ (State.injectorGo s n cfg) := by
  simp [State.injectorGo_sites] at hA
  simp (maxDischargeDepth := 99) [State.injectorGo, hk, hA]

def execSnagInjectorGo_sites : List Site := State.injectorGo_sites

theorem execSnagInjectorGo_keeps {A : Scope} (n : Nat) (cfg : Word) (s : State)
    (hA : A.covers execSnagInjectorGo_sites) : KeepsOut A s (execSnagInjectorGo n cfg s) := by
  simp [execSnagInjectorGo_sites] at hA
  simp (maxDischargeDepth := 99) [execSnagInjectorGo, hA]

def execSnagHeldRelease_sites : List Site := State.injectOnce_sites ++ State.modInjector_sites

theorem execSnagHeldRelease_keeps {A : Scope} (n : Nat) (s : State)
    (hA : A.covers execSnagHeldRelease_sites) : KeepsOut A s (execSnagHeldRelease n s) := by
  simp [execSnagHeldRelease_sites] at hA
  simp (maxDischargeDepth := 99) [execSnagHeldRelease, hA]

def State.debugRefused_sites : List Site := [.one R.DBG_EVENTS]

@[simp ↓] theorem State.debugRefused_keeps {A : Scope} {s₀ : State} (s : State) (hk : Keeps A s₀ s)
    (hA : A.covers State.debugRefused_sites) :
    Keeps A s₀ (State.debugRefused s) := by
  simp [State.debugRefused_sites] at hA
  simp (maxDischargeDepth := 99) [State.debugRefused, hk, hA]

def State.debugWarm_sites : List Site := State.debugRefused_sites ++ State.event_sites ++ State.warmStart_sites

@[simp ↓] theorem State.debugWarm_keeps {A : Scope} {s₀ : State} (s : State) (key : Nat) (hk : Keeps A s₀ s)
    (hA : A.covers State.debugWarm_sites) :
    Keeps A s₀ (State.debugWarm s key) := by
  simp [State.debugWarm_sites] at hA
  simp (maxDischargeDepth := 99) [State.debugWarm, hk, hA]

def execDbgWarmReset_sites : List Site := State.debugWarm_sites

theorem execDbgWarmReset_keeps {A : Scope} (key : Nat) (s : State)
    (hA : A.covers execDbgWarmReset_sites) : KeepsOut A s (execDbgWarmReset key s) := by
  simp [execDbgWarmReset_sites] at hA
  simp (maxDischargeDepth := 99) [execDbgWarmReset, hA]

def State.debugHalt_sites : List Site :=
  State.debugRefused_sites ++ State.event_sites ++ State.haltPair_sites ++ [.one R.DBG_HALT, .part .needles]

@[simp ↓] theorem State.debugHalt_keeps {A : Scope} {s₀ : State} (s : State) (pairs : Nat) (needles : Nat) (hk : Keeps A s₀ s)
    (hA : A.covers State.debugHalt_sites) :
    Keeps A s₀ (State.debugHalt s pairs needles) := by
  simp [State.debugHalt_sites] at hA
  unfold State.debugHalt
  repeat' (first
    | (intro x; clear_value x))
  all_goals first | (simp (maxDischargeDepth := 99) +contextual [*]; done) | simp_all (maxDischargeDepth := 99) +contextual

def execDbgHalt_sites : List Site := State.debugHalt_sites

theorem execDbgHalt_keeps {A : Scope} (pairs : Nat) (needles : Nat) (s : State)
    (hA : A.covers execDbgHalt_sites) : KeepsOut A s (execDbgHalt pairs needles s) := by
  simp [execDbgHalt_sites] at hA
  simp (maxDischargeDepth := 99) [execDbgHalt, hA]

def State.tap_sites : List Site := [.part .dbg]

@[simp ↓] theorem State.tap_keeps {A : Scope} {s₀ : State} (s : State) (code : Nat) (tdo : List Word) (hk : Keeps A s₀ s)
    (hA : A.covers State.tap_sites) :
    Keeps A s₀ (State.tap s code tdo) := by
  simp [State.tap_sites] at hA
  simp (maxDischargeDepth := 99) [State.tap, hk, hA]

def execJtagBypass_sites : List Site := State.tap_sites

theorem execJtagBypass_keeps {A : Scope} (tdi : Bool) (s : State)
    (hA : A.covers execJtagBypass_sites) : KeepsOut A s (execJtagBypass tdi s) := by
  simp [execJtagBypass_sites] at hA
  simp (maxDischargeDepth := 99) [execJtagBypass, hA]

def execJtagIdcode_sites : List Site := State.tap_sites

theorem execJtagIdcode_keeps {A : Scope} (s : State)
    (hA : A.covers execJtagIdcode_sites) : KeepsOut A s (execJtagIdcode s) := by
  simp [execJtagIdcode_sites] at hA
  simp (maxDischargeDepth := 99) [execJtagIdcode, hA]

def execJtagSamplePreload_sites : List Site := State.tap_sites ++ [.part .dbg]

theorem execJtagSamplePreload_keeps {A : Scope} (captured : List Bool) (preload : List Bool) (s : State)
    (hA : A.covers execJtagSamplePreload_sites) : KeepsOut A s (execJtagSamplePreload captured preload s) := by
  simp [execJtagSamplePreload_sites] at hA
  simp (maxDischargeDepth := 99) [execJtagSamplePreload, hA]

def execJtagExtest_sites : List Site := State.tap_sites ++ [.part .dbg]

theorem execJtagExtest_keeps {A : Scope} (captured : List Bool) (s : State)
    (hA : A.covers execJtagExtest_sites) : KeepsOut A s (execJtagExtest captured s) := by
  simp [execJtagExtest_sites] at hA
  simp (maxDischargeDepth := 99) [execJtagExtest, hA]

def execJtagTmbx_sites : List Site :=
  State.giveChallenge_sites ++ State.mailbox_sites ++ State.takeResponse_sites ++ State.tap_sites ++
    State.withdrawGrants_sites

theorem execJtagTmbx_keeps {A : Scope} (opcode : Nat) (tag : Nat) (args : List Byte) (s : State)
    (hA : A.covers execJtagTmbx_sites) : KeepsOut A s (execJtagTmbx opcode tag args s) := by
  simp [execJtagTmbx_sites] at hA
  have hk := Keeps.refl A s
  unfold execJtagTmbx
  repeat' (first
    | with_reducible assumption
    | (generalize he : State.giveChallenge _ _ _ = p
       fail_if_success clear he p
       have hp : KeepsOpt A (fun t => t.2.2) s p := by
         subst he; exact State.giveChallenge_keeps _ _ _ (by first | with_reducible assumption | simp (maxDischargeDepth := 99) +contextual [*]) (by first | assumption | simp [*])
       clear he
       rcases p with _ | p
       rotate_left 1
       replace hp : Keeps A s p.2.2 := hp p rfl)
    | (generalize he : State.takeResponse _ _ _ _ = p
       fail_if_success clear he p
       have hp : KeepsOpt A (fun t => t.2.2) s p := by
         subst he; exact State.takeResponse_keeps _ _ _ _ (by first | with_reducible assumption | simp (maxDischargeDepth := 99) +contextual [*]) (by first | assumption | simp [*])
       clear he
       rcases p with _ | p
       rotate_left 1
       replace hp : Keeps A s p.2.2 := hp p rfl)
    | (generalize he : State.withdrawGrants _ _ = p
       fail_if_success clear he p
       have hp : KeepsOpt A (fun t => t.2.2) s p := by
         subst he; exact State.withdrawGrants_keeps _ _ (by first | with_reducible assumption | simp (maxDischargeDepth := 99) +contextual [*]) (by first | assumption | simp [*])
       clear he
       rcases p with _ | p
       rotate_left 1
       replace hp : Keeps A s p.2.2 := hp p rfl)
    | (intro x; first
        | (refine (?_ : Keeps A s x → _) ?_
           all_goals first | (intro hx; clear_value x) | subst x)
        | (have hx : ∀ b, Keeps A s b → Keeps A s (x b) := by
             intro _ hb; subst x; first | (simp (maxDischargeDepth := 99) [*]; done) | (simp only []; repeat' split) <;> simp (maxDischargeDepth := 99) [*]
           clear_value x))
    | with_reducible refine keepsOut_next.2 ?_
    | with_reducible refine keepsOpt_some ?_
    | with_reducible refine State.tap_keeps _ _ _ ?_ (by first | assumption | simp [*])
    | with_reducible refine State.mailbox_keeps _ _ _ _ _ (fun u hu => ?_) ?_ (by first | assumption | simp [*])
    | (split <;> try lift_lets -underBinder))

def execJtagDbgap_sites : List Site := State.debugRefused_sites ++ State.draw_sites ++ State.tap_sites

theorem execJtagDbgap_keeps {A : Scope} (unit : Nat) (write : Bool) (s : State)
    (hA : A.covers execJtagDbgap_sites) : KeepsOut A s (execJtagDbgap unit write s) := by
  simp [execJtagDbgap_sites] at hA
  simp (maxDischargeDepth := 99) [execJtagDbgap, hA]

def State.uartRegs_sites : List Site := [.one R.DBG_UART_RXD, .one R.DBG_UART_STATUS]

@[simp ↓] theorem State.uartRegs_keeps {A : Scope} {s₀ : State} (s : State) (hk : Keeps A s₀ s)
    (hA : A.covers State.uartRegs_sites) :
    Keeps A s₀ (State.uartRegs s) := by
  simp [State.uartRegs_sites] at hA
  unfold State.uartRegs
  try lift_lets
  repeat' (first
    | (intro x; first
        | (have hx : Keeps A s₀ x := by
             subst x
             repeat' split
             all_goals first | with_reducible assumption | (simp (maxDischargeDepth := 99) +contextual [*]; done) | simp_all (maxDischargeDepth := 99) +contextual
           clear_value x)
        | clear_value x)
    | (split <;> try lift_lets))
  all_goals first | (simp (maxDischargeDepth := 99) +contextual [*]; done) | simp_all (maxDischargeDepth := 99) +contextual

def State.uartWrite_sites : List Site := State.uartRegs_sites ++ [.one R.DBG_UART_STATUS, .one R.DBG_UART_TXD, .part .dbg]

@[simp ↓] theorem State.uartWrite_keeps {A : Scope} {s₀ : State} (s : State) (b : Byte) (hk : Keeps A s₀ s)
    (hA : A.covers State.uartWrite_sites) :
    Keeps A s₀ (State.uartWrite s b) := by
  simp [State.uartWrite_sites] at hA
  simp (maxDischargeDepth := 99) [State.uartWrite, hk, hA]

def execUartTxWrite_sites : List Site := State.uartWrite_sites

theorem execUartTxWrite_keeps {A : Scope} (b : Byte) (s : State)
    (hA : A.covers execUartTxWrite_sites) : KeepsOut A s (execUartTxWrite b s) := by
  simp [execUartTxWrite_sites] at hA
  simp (maxDischargeDepth := 99) [execUartTxWrite, hA]

def execUartTxByteSent_sites : List Site := State.uartRegs_sites ++ [.part .dbg]

theorem execUartTxByteSent_keeps {A : Scope} (s : State)
    (hA : A.covers execUartTxByteSent_sites) : KeepsOut A s (execUartTxByteSent s) := by
  simp [execUartTxByteSent_sites] at hA
  simp (maxDischargeDepth := 99) [execUartTxByteSent, hA]

def execUartRxByte_sites : List Site := State.uartRegs_sites ++ [.one R.DBG_UART_STATUS, .part .dbg]

theorem execUartRxByte_keeps {A : Scope} (b : Byte) (stop : Bool) (s : State)
    (hA : A.covers execUartRxByte_sites) : KeepsOut A s (execUartRxByte b stop s) := by
  simp [execUartRxByte_sites] at hA
  simp (maxDischargeDepth := 99) [execUartRxByte, hA]

def State.uartPop_sites : List Site := State.uartRegs_sites ++ [.part .dbg]

@[simp ↓] theorem State.uartPop_keeps {A : Scope} {s₀ : State} (s : State) (hk : Keeps A s₀ s)
    (hA : A.covers State.uartPop_sites) :
    Keeps A s₀ (State.uartPop s) := by
  simp [State.uartPop_sites] at hA
  simp (maxDischargeDepth := 99) [State.uartPop, hk, hA]

def execUartRxPop_sites : List Site := State.uartPop_sites

theorem execUartRxPop_keeps {A : Scope} (s : State)
    (hA : A.covers execUartRxPop_sites) : KeepsOut A s (execUartRxPop s) := by
  simp [execUartRxPop_sites] at hA
  simp (maxDischargeDepth := 99) [execUartRxPop, hA]

end Sys2Proof.Machine
end

