-- ==== Sys2Proof/Laws/KeepsRegAccess.lean ====
section
/-!
SUPPORT. Sys2Proof/Laws/KeepsRegAccess.lean: the operations and meanings of Machine/RegAccess.lean keep (Laws/Keeps.lean).
-/

set_option linter.all false
set_option Elab.async false

namespace Sys2Proof.Machine

def State.busAnswer_sites : List Site := [.part .bus]

@[simp ↓] theorem State.busAnswer_keeps {A : Scope} {s₀ : State} (s : State) (proc : Nat) (value : Nat) (error : Bool) (hk : Keeps A s₀ s)
    (hA : A.covers State.busAnswer_sites) :
    Keeps A s₀ (State.busAnswer s proc value error) := by
  simp [State.busAnswer_sites] at hA
  simp (maxDischargeDepth := 99) [State.busAnswer, hk, hA]

theorem after_keeps {A : Scope} {s₀ u s : State} {o : Host.Outcome State Fault Refusal} (ho : KeepsOut A u o) (hu : Keeps A s₀ u) (hs : Keeps A s₀ s) :
    Keeps A s₀ (after o s) := by
  unfold after
  split
  · exact hu.trans (ho _ rfl)
  · exact hs

theorem State.strobe_keeps {A : Scope} {s₀ : State} (s : State) (v : Word) (n : Nat) (f : State → State) (hf : ∀ u, Keeps A s₀ u → Keeps A s₀ (f u))
    (hk : Keeps A s₀ s) : Keeps A s₀ (s.strobe v n f) := keeps_ite (hf _ hk) hk

def State.writePatCtrl_sites : List Site := execPatCancel_sites ++ execPatLockCmd_sites ++ execPatReload_sites

@[simp ↓] theorem State.writePatCtrl_keeps {A : Scope} {s₀ : State} (s : State) (v : Word) (hk : Keeps A s₀ s)
    (hA : A.covers State.writePatCtrl_sites) :
    Keeps A s₀ (State.writePatCtrl s v) := by
  simp [State.writePatCtrl_sites] at hA
  unfold State.writePatCtrl
  repeat' (first
    | with_reducible assumption
    | (intro x; first
        | (refine (?_ : Keeps A s₀ x → _) ?_
           all_goals first | (intro hx; clear_value x) | subst x)
        | (have hx : ∀ b, Keeps A s₀ b → Keeps A s₀ (x b) := by
             intro _ hb; subst x; first | (simp (maxDischargeDepth := 99) [*]; done) | (simp only []; repeat' split) <;> simp (maxDischargeDepth := 99) [*]
           clear_value x))
    | with_reducible refine keeps_ite ?_ ?_
    | with_reducible refine after_keeps (execPatCancel_keeps _ (by first | assumption | simp [*])) ?_ ?_
    | with_reducible refine after_keeps (execPatReload_keeps _ (by first | assumption | simp [*])) ?_ ?_
    | with_reducible refine after_keeps (execPatLockCmd_keeps _ (by first | assumption | simp [*])) ?_ ?_)

def State.writeActCtrl_sites : List Site :=
  State.enableLink_sites ++ State.gate_sites ++ execActDisable_sites ++ execHeadRequest_sites ++ [.each R.ACT_CTRL, .part
    .acts]

@[simp ↓] theorem State.writeActCtrl_keeps {A : Scope} {s₀ : State} (s : State) (a : Nat) (v : Word) (hk : Keeps A s₀ s)
    (hA : A.covers State.writeActCtrl_sites) :
    Keeps A s₀ (State.writeActCtrl s a v) := by
  simp [State.writeActCtrl_sites] at hA
  unfold State.writeActCtrl
  repeat' (first
    | with_reducible assumption
    | (intro x; first
        | (refine (?_ : Keeps A s₀ x → _) ?_
           all_goals first | (intro hx; clear_value x) | subst x)
        | (have hx : ∀ b, Keeps A s₀ b → Keeps A s₀ (x b) := by
             intro _ hb; subst x; first | (simp (maxDischargeDepth := 99) [*]; done) | (simp only []; repeat' split) <;> simp (maxDischargeDepth := 99) [*]
           clear_value x))
    | with_reducible refine keeps_ite ?_ ?_
    | with_reducible refine State.gate_keeps _ _ ?_ (by first | assumption | simp [*])
    | with_reducible refine State.modAct_keeps _ _ _ ?_ (by first | assumption | simp [*])
    | with_reducible refine State.setBit_keeps _ _ _ ?_ (by first | assumption | simp [*])
    | with_reducible refine State.clr_keeps _ _ ?_ (by first | assumption | simp [*])
    | with_reducible refine State.enableLink_keeps _ _ ?_ (by first | assumption | simp [*])
    | with_reducible refine after_keeps (execActDisable_keeps _ _ _ (by first | assumption | simp [*])) ?_ ?_
    | with_reducible refine after_keeps (execHeadRequest_keeps _ _ _ (by first | assumption | simp [*])) ?_ ?_)

def State.writeActCmd_sites : List Site :=
  State.refuseAct_sites ++ execActEretract_sites ++ execActLinkClear_sites ++ execActLoad_sites ++ execActUnload_sites

@[simp ↓] theorem State.writeActCmd_keeps {A : Scope} {s₀ : State} (s : State) (a : Nat) (v : Word) (hk : Keeps A s₀ s)
    (hA : A.covers State.writeActCmd_sites) :
    Keeps A s₀ (State.writeActCmd s a v) := by
  simp [State.writeActCmd_sites] at hA
  unfold State.writeActCmd
  repeat' (first
    | with_reducible assumption
    | (intro x; first
        | (refine (?_ : Keeps A s₀ x → _) ?_
           all_goals first | (intro hx; clear_value x) | subst x)
        | (have hx : ∀ b, Keeps A s₀ b → Keeps A s₀ (x b) := by
             intro _ hb; subst x; first | (simp (maxDischargeDepth := 99) [*]; done) | (simp only []; repeat' split) <;> simp (maxDischargeDepth := 99) [*]
           clear_value x)
        | clear_value x)
    | with_reducible refine keeps_ite ?_ ?_
    | with_reducible refine State.refuseAct_keeps _ _ _ ?_ (by first | assumption | simp [*])
    | with_reducible refine after_keeps (execActEretract_keeps _ _ (by first | assumption | simp [*])) ?_ ?_
    | with_reducible refine after_keeps (execActLoad_keeps _ _ (by first | assumption | simp [*])) ?_ ?_
    | with_reducible refine after_keeps (execActLinkClear_keeps _ _ (by first | assumption | simp [*])) ?_ ?_
    | with_reducible refine after_keeps (execActUnload_keeps _ _ (by first | assumption | simp [*])) ?_ ?_
    | with_reducible refine State.strobe_keeps _ _ _ _ (fun u hu => ?_) ?_)

def State.writeCipCtrl_sites : List Site := execCipherDisable_sites ++ execCipherEnable_sites ++ [.one R.CIP_CTRL]

@[simp ↓] theorem State.writeCipCtrl_keeps {A : Scope} {s₀ : State} (s : State) (v : Word) (hk : Keeps A s₀ s)
    (hA : A.covers State.writeCipCtrl_sites) :
    Keeps A s₀ (State.writeCipCtrl s v) := by
  simp [State.writeCipCtrl_sites] at hA
  unfold State.writeCipCtrl
  repeat' (first
    | with_reducible assumption
    | (intro x; first
        | (refine (?_ : Keeps A s₀ x → _) ?_
           all_goals first | (intro hx; clear_value x) | subst x)
        | (have hx : ∀ b, Keeps A s₀ b → Keeps A s₀ (x b) := by
             intro _ hb; subst x; first | (simp (maxDischargeDepth := 99) [*]; done) | (simp only []; repeat' split) <;> simp (maxDischargeDepth := 99) [*]
           clear_value x))
    | with_reducible refine keeps_ite ?_ ?_
    | with_reducible refine State.setBit_keeps _ _ _ ?_ (by first | assumption | simp [*])
    | with_reducible refine after_keeps (execCipherEnable_keeps _ (by first | assumption | simp [*])) ?_ ?_
    | with_reducible refine after_keeps (execCipherDisable_keeps _ (by first | assumption | simp [*])) ?_ ?_)

def State.writeSlotCfg_sites : List Site := State.modKeySlot_sites

@[simp ↓] theorem State.writeSlotCfg_keeps {A : Scope} {s₀ : State} (s : State) (v : Word) (hk : Keeps A s₀ s)
    (hA : A.covers State.writeSlotCfg_sites) :
    Keeps A s₀ (State.writeSlotCfg s v) := by
  simp [State.writeSlotCfg_sites] at hA
  simp (maxDischargeDepth := 99) [State.writeSlotCfg, hk, hA]

def State.writeTestKey_sites : List Site := [.part .cip]

@[simp ↓] theorem State.writeTestKey_keeps {A : Scope} {s₀ : State} (s : State) (k : Nat) (v : Word) (hk : Keeps A s₀ s)
    (hA : A.covers State.writeTestKey_sites) :
    Keeps A s₀ (State.writeTestKey s k v) := by
  simp [State.writeTestKey_sites] at hA
  simp (maxDischargeDepth := 99) [State.writeTestKey, hk, hA]

def State.mailboxGo_sites : List Site :=
  execCommitMeasurement_sites ++ execGenIdentity_sites ++ execKpio_sites ++ execLoadKey_sites ++ execNsKeyNew_sites ++
    execProvision_sites ++ execRandom_sites ++ execRevoke_sites ++ execSvnAdvance_sites ++ execTirChallenge_sites ++
    execTirResponse_sites ++ execTirUnknownOpcode_sites ++ execVerifyImage_sites

@[simp ↓] theorem State.mailboxGo_keeps {A : Scope} {s₀ : State} (s : State) (n : Nat) (v : Word) (hk : Keeps A s₀ s)
    (hA : A.covers State.mailboxGo_sites) : Keeps A s₀ (State.mailboxGo s n v) := by
  simp [State.mailboxGo_sites] at hA
  unfold State.mailboxGo
  refine after_keeps (u := s) ?_ hk hk
  dsimp only
  split
  · exact execVerifyImage_keeps _ _ _ _ _ (by first | assumption | simp [*])
  · exact execCommitMeasurement_keeps _ _ _ _ _ (by first | assumption | simp [*])
  · exact execLoadKey_keeps _ _ _ _ _ _ _ _ (by first | assumption | simp [*])
  · exact execNsKeyNew_keeps _ _ _ _ (by first | assumption | simp [*])
  · exact execKpio_keeps _ _ _ _ (by first | assumption | simp [*])
  · exact execRandom_keeps _ _ _ _ (by first | assumption | simp [*])
  · exact execTirChallenge_keeps _ _ _ _ (by first | assumption | simp [*])
  · exact execTirResponse_keeps _ _ _ _ _ (by first | assumption | simp [*])
  · exact execRevoke_keeps _ _ _ _ (by first | assumption | simp [*])
  · exact execSvnAdvance_keeps _ _ _ _ _ (by first | assumption | simp [*])
  · exact execProvision_keeps _ _ _ _ _ _ _ (by first | assumption | simp [*])
  · exact execGenIdentity_keeps _ _ _ (by first | assumption | simp [*])
  · exact execTirUnknownOpcode_keeps _ _ _ _ (by first | assumption | simp [*])

def State.effectOf_sites : List Site :=
  State.debugHalt_sites ++ State.debugWarm_sites ++ State.handoverQuiesced_sites ++ State.handoverTaken_sites ++
    State.hostReady_sites ++ State.legacyRelease_sites ++ State.mailboxGo_sites ++ State.setCfs_sites ++ State.snagArm_sites
    ++ State.snagDisarm_sites ++ State.spareReady_sites ++ State.spnCommand_sites ++ State.uartWrite_sites ++
    State.updAbort_sites ++ State.updFrog_sites ++ State.warmByFirmware_sites ++ State.watchdogConfig_sites ++
    State.watchdogKick_sites ++ State.writeActCmd_sites ++ State.writeActCtrl_sites ++ State.writeCipCtrl_sites ++
    State.writePatCtrl_sites ++ State.writeSlotCfg_sites ++ State.writeTestKey_sites ++ execHookBindWrite_sites ++
    execHookDataWrite_sites ++ execKeySlotErase_sites ++ execLedgerRecount_sites ++ execLedgerRelease_sites ++
    execNdlMbxPush_sites ++ execSlcUnpin_sites ++ [.part .slices]

@[simp ↓] theorem State.effectOf_keeps {A : Scope} {s₀ : State} (s : State) (proc seq addr : Nat) (v : Word) (hk : Keeps A s₀ s)
    (hA : A.covers State.effectOf_sites) (ha : A.reg addr) :
    KeepsOpt A (fun t => t) s₀ (State.effectOf s proc seq addr v) := by
  unfold State.effectOf_sites at hA
  simp only [Scope.covers_append, Scope.covers_cons, Scope.covers_nil, Scope.has_part, and_true, and_assoc] at hA
  repeat (obtain ⟨_, hA⟩ := hA)
  unfold State.effectOf
  extract_lets w i a
  clear_value w i a
  repeat' (first
    | with_reducible exact keepsOpt_none
    | with_reducible refine keepsOpt_ite ?_ ?_
    | with_reducible refine keepsOpt_some ?_)
  all_goals repeat' (first
    | with_reducible exact hk
    | with_reducible refine State.strobe_keeps _ _ _ _ (fun u hu => ?_) ?_
    | with_reducible assumption
    | (intro x; first
        | (refine (?_ : Keeps A s₀ x → _) ?_
           all_goals first | (intro hx; clear_value x) | subst x)
        | (have hx : ∀ b, Keeps A s₀ b → Keeps A s₀ (x b) := by
             intro _ hb; subst x; first | (simp (maxDischargeDepth := 99) [*]; done) | (simp only []; repeat' split) <;> simp (maxDischargeDepth := 99) [*]
           clear_value x))
    | with_reducible refine keeps_ite ?_ ?_
    | with_reducible exact keepsOpt_none
    | with_reducible refine keepsOpt_some ?_
    | with_reducible refine keepsOpt_ite ?_ ?_
    | with_reducible refine State.updAbort_keeps _ ?_ ?_
    | with_reducible refine State.writeSlotCfg_keeps _ _ ?_ ?_
    | with_reducible refine State.modSlice_keeps _ _ _ ?_ ?_
    | with_reducible refine State.spnCommand_keeps _ _ ?_ ?_
    | with_reducible refine State.mailboxGo_keeps _ _ _ ?_ ?_
    | with_reducible refine State.hostReady_keeps _ ?_ ?_
    | with_reducible refine State.writeTestKey_keeps _ _ _ ?_ ?_
    | with_reducible refine State.debugWarm_keeps _ _ ?_ ?_
    | with_reducible refine State.setReg_keeps _ _ _ ?_ ?_
    | with_reducible refine State.debugHalt_keeps _ _ _ ?_ ?_
    | with_reducible refine State.writeActCtrl_keeps _ _ _ ?_ ?_
    | with_reducible refine State.warmByFirmware_keeps _ _ ?_ ?_
    | with_reducible refine State.watchdogKick_keeps _ _ ?_ ?_
    | with_reducible refine State.handoverQuiesced_keeps _ ?_ ?_
    | with_reducible refine State.writeCipCtrl_keeps _ _ ?_ ?_
    | with_reducible refine State.updFrog_keeps _ ?_ ?_
    | with_reducible refine State.writePatCtrl_keeps _ _ ?_ ?_
    | with_reducible refine State.uartWrite_keeps _ _ ?_ ?_
    | with_reducible refine State.legacyRelease_keeps _ ?_ ?_
    | with_reducible refine State.writeActCmd_keeps _ _ _ ?_ ?_
    | with_reducible refine State.setCfs_keeps _ _ _ ?_ ?_
    | with_reducible refine State.snagArm_keeps _ ?_ ?_
    | with_reducible refine State.snagDisarm_keeps _ ?_ ?_
    | with_reducible refine State.spareReady_keeps _ ?_ ?_
    | with_reducible refine State.watchdogConfig_keeps _ _ _ ?_ ?_
    | with_reducible refine State.handoverTaken_keeps _ ?_ ?_
    | with_reducible refine after_keeps (execLedgerRecount_keeps _ ?_) ?_ ?_
    | with_reducible refine after_keeps (execLedgerRelease_keeps _ ?_) ?_ ?_
    | with_reducible refine after_keeps (execKeySlotErase_keeps _ ?_) ?_ ?_
    | with_reducible refine after_keeps (execSlcUnpin_keeps _ _ _ _ ?_) ?_ ?_
    | with_reducible refine after_keeps (execHookBindWrite_keeps _ _ ?_) ?_ ?_
    | with_reducible refine after_keeps (execNdlMbxPush_keeps _ _ ?_) ?_ ?_
    | with_reducible refine after_keeps (execHookDataWrite_keeps _ _ ?_) ?_ ?_
    | with_reducible refine State.strobe_keeps _ _ _ _ (fun u hu => ?_) ?_)

def State.strobesOf_sites : List Site :=
  State.aenPost_sites ++ State.driveMa_sites ++ State.injectorGo_sites ++ State.recoveryGo_sites ++
    State.startCalibration_sites ++ State.startCheckpoint_sites ++ State.uartPop_sites ++ execActLinkGo_sites ++
    execCipherJob_sites ++ execClaimClose_sites ++ execClaimOpen_sites ++ execDrnDuePop_sites ++ execDrnRewriteGo_sites ++
    execNdlDisable_sites ++ execRecClear_sites ++ execRecFwPost_sites ++ execSlcDisable_sites ++ execTestkeyLoad_sites ++
    execTimeAnchor_sites

@[simp ↓] theorem State.strobesOf_keeps {A : Scope} {s₀ : State} (s : State) (proc : Nat) (addr : Nat) (v : Word) (hk : Keeps A s₀ s)
    (hA : A.covers State.strobesOf_sites) :
    Keeps A s₀ (State.strobesOf s proc addr v) := by
  unfold State.strobesOf_sites at hA
  simp only [Scope.covers_append, Scope.covers_cons, Scope.covers_nil, Scope.has_part, and_true, and_assoc] at hA
  repeat (obtain ⟨_, hA⟩ := hA)
  unfold State.strobesOf
  repeat' (first
    | with_reducible assumption
    | (intro x; first
        | (refine (?_ : Keeps A s₀ x → _) ?_
           all_goals first | (intro hx; clear_value x) | subst x)
        | (have hx : ∀ b, Keeps A s₀ b → Keeps A s₀ (x b) := by
             intro _ hb; subst x; first | (simp (maxDischargeDepth := 99) [*]; done) | (simp only []; repeat' split) <;> simp (maxDischargeDepth := 99) [*]
           clear_value x))
    | with_reducible refine keeps_ite ?_ ?_
    | with_reducible refine State.startCalibration_keeps _ _ _ _ _ ?_ ?_
    | with_reducible refine State.injectorGo_keeps _ _ _ ?_ ?_
    | with_reducible refine State.driveMa_keeps _ _ ?_ ?_
    | with_reducible refine State.uartPop_keeps _ ?_ ?_
    | with_reducible refine State.startCheckpoint_keeps _ ?_ ?_
    | with_reducible refine State.recoveryGo_keeps _ _ _ _ _ _ ?_ ?_
    | with_reducible refine State.aenPost_keeps _ _ _ ?_ ?_
    | with_reducible refine after_keeps (execRecFwPost_keeps _ _ _ _ ?_) ?_ ?_
    | with_reducible refine after_keeps (execClaimClose_keeps _ _ ?_) ?_ ?_
    | with_reducible refine after_keeps (execSlcDisable_keeps _ _ _ ?_) ?_ ?_
    | with_reducible refine after_keeps (execDrnRewriteGo_keeps _ _ ?_) ?_ ?_
    | with_reducible refine after_keeps (execActLinkGo_keeps _ _ _ _ _ ?_) ?_ ?_
    | with_reducible refine after_keeps (execCipherJob_keeps _ _ _ ?_) ?_ ?_
    | with_reducible refine after_keeps (execTestkeyLoad_keeps _ _ _ _ ?_) ?_ ?_
    | with_reducible refine after_keeps (execClaimOpen_keeps _ _ ?_) ?_ ?_
    | with_reducible refine after_keeps (execNdlDisable_keeps _ _ _ ?_) ?_ ?_
    | with_reducible refine after_keeps (execDrnDuePop_keeps _ ?_) ?_ ?_
    | with_reducible refine after_keeps (execRecClear_keeps _ _ ?_) ?_ ?_
    | with_reducible refine after_keeps (execTimeAnchor_keeps _ _ _ ?_) ?_ ?_
    | with_reducible refine State.strobe_keeps _ _ _ _ (fun u hu => ?_) ?_)

def State.writeReg_sites : List Site := State.effectOf_sites ++ State.event_sites ++ State.strobesOf_sites

@[simp ↓] theorem State.writeReg_keeps {A : Scope} {s₀ : State} (s : State) (proc seq addr : Nat) (v raised : Word) (hk : Keeps A s₀ s)
    (hA : A.covers State.writeReg_sites) (ha : A.reg addr) :
    Keeps A s₀ (State.writeReg s proc seq addr v raised) := by
  simp [State.writeReg_sites] at hA
  unfold State.writeReg
  repeat' (first
    | (intro x; first
        | (have hx : Keeps A s₀ x := by
             subst x
             repeat' split
             all_goals first | with_reducible assumption | (simp (maxDischargeDepth := 99) +contextual [*]; done) | simp_all (maxDischargeDepth := 99) +contextual
           clear_value x)
        | clear_value x)
    | (generalize he : State.effectOf _ _ _ _ _ = p
       have hp : KeepsOpt A (fun t => t) s₀ p := by
         subst he; exact State.effectOf_keeps _ _ _ _ _ (by first | with_reducible assumption | simp (maxDischargeDepth := 99) +contextual [*]) (by first | assumption | simp [*]) ha
       clear he
       rcases p with _ | p
       rotate_left 1
       replace hp : Keeps A s₀ p := hp p rfl)
    | (split <;> try lift_lets))
  all_goals first | (simp (maxDischargeDepth := 99) +contextual [*]; done) | simp_all (maxDischargeDepth := 99) +contextual

def execRegisterWrite_sites : List Site :=
  State.busAnswer_sites ++ State.debugRefused_sites ++ State.writeReg_sites ++ execPairStore_sites ++ [.part .prot, .part
    .sram, .part .dram]

theorem execRegisterWrite_keeps {A : Scope} (proc : Nat) (debug : Bool) (addr size : Nat) (w : BusWrite) (s : State)
    (hA : A.covers execRegisterWrite_sites) (ha : A.reg addr) : KeepsOut A s (execRegisterWrite proc debug addr size w s) := by
  simp [execRegisterWrite_sites] at hA
  have hk := Keeps.refl A s
  unfold execRegisterWrite
  repeat' (first
    | with_reducible assumption
    | (intro x; first
        | (refine (?_ : Keeps A s x → _) ?_
           all_goals first | (intro hx; clear_value x) | subst x)
        | (have hx : ∀ b, Keeps A s b → Keeps A s (x b) := by
             intro _ hb; subst x; first | (simp (maxDischargeDepth := 99) [*]; done) | (simp only []; repeat' split) <;> simp (maxDischargeDepth := 99) [*]
           clear_value x))
    | with_reducible refine keepsOut_next.2 ?_
    | with_reducible refine State.writeReg_keeps _ _ _ _ _ _ ?_ (by first | assumption | simp [*]) ha
    | with_reducible refine State.store_keeps _ _ _ _ ?_ (by simp [*])
    | with_reducible refine State.debugRefused_keeps _ ?_ (by first | assumption | simp [*])
    | with_reducible refine State.busAnswer_keeps _ _ _ _ ?_ (by first | assumption | simp [*])
    | with_reducible refine after_keeps (execPairStore_keeps _ _ _ _ _ (by first | assumption | simp [*])) ?_ ?_
    | (split <;> try lift_lets -underBinder))

def State.latch_sites : List Site := [.part .row]

@[simp ↓] theorem State.latch_keeps {A : Scope} {s₀ : State} (s : State) (proc : Nat) (addr : Nat) (value : Nat) (hk : Keeps A s₀ s)
    (hA : A.covers State.latch_sites) :
    Keeps A s₀ (State.latch s proc addr value) := by
  simp [State.latch_sites] at hA
  simp (maxDischargeDepth := 99) [State.latch, hk, hA]

def State.readReg_sites : List Site := State.draw_sites ++ State.latch_sites

@[simp ↓] theorem State.readReg_keeps {A : Scope} {s₀ : State} (s : State) (proc : Nat) (addr : Nat) (hk : Keeps A s₀ s)
    (hA : A.covers State.readReg_sites) :
    Keeps A s₀ (State.readReg s proc addr).2 := by
  simp [State.readReg_sites] at hA
  unfold State.readReg
  repeat' (first
    | (intro x; clear_value x)
    | (generalize he : State.draw _ = p
       have hp : Keeps A s₀ p.2 := by subst he; first | with_reducible assumption | simp (maxDischargeDepth := 99) +contextual [*]
       clear he
       obtain ⟨_, _⟩ := p)
    | (split <;> try lift_lets))
  all_goals first | (simp (maxDischargeDepth := 99) +contextual [*]; done) | simp_all (maxDischargeDepth := 99) +contextual

def execRegisterRead_sites : List Site := State.busAnswer_sites ++ State.draw_sites ++ State.readReg_sites

theorem execRegisterRead_keeps {A : Scope} (proc : Nat) (addr : Nat) (size : Nat) (s : State)
    (hA : A.covers execRegisterRead_sites) : KeepsOut A s (execRegisterRead proc addr size s) := by
  simp [execRegisterRead_sites] at hA
  simp (maxDischargeDepth := 99) [execRegisterRead, hA]

def execStatActRelease_sites : List Site := [.part .pins]

theorem execStatActRelease_keeps {A : Scope} (s : State)
    (hA : A.covers execStatActRelease_sites) : KeepsOut A s (execStatActRelease s) := by
  simp [execStatActRelease_sites] at hA
  simp (maxDischargeDepth := 99) [execStatActRelease, hA]

end Sys2Proof.Machine
end

