-- ==== Sys2Proof/WellFormed.lean ====
section
/-!
DEFINITION. Sys2Proof/WellFormed.lean: which operands a command can carry: numbers of units, slots and zones, and values that
fit the words of the registers and of the submission entries.
-/

namespace Sys2Proof

/-- Actuator A or B. -/
def isAct (n : Nat) : Bool := n < 2
/-- Needle A, B or C. -/
def isNeedle (n : Nat) : Bool := n < 3
/-- A slice, 0 to 4. -/
def isSlice (n : Nat) : Bool := n < 5
/-- A core pair, 0 to 5. -/
def isPair (n : Nat) : Bool := n < 6
/-- A PCIe port. -/
def isPort (n : Nat) : Bool := n < 2
/-- A Tirium mailbox (R405). -/
def isMailbox (n : Nat) : Bool := n < 4
/-- A cipher core or a Hook thread (R410). -/
def isCore (n : Nat) : Bool := n < 4
/-- A DRAM die. -/
def isDie (n : Nat) : Bool := n < 2
/-- A Snag injector (R491). -/
def isInjector (n : Nat) : Bool := n < 8
/-- The sideband or a PCIe port as a transport (R292). -/
def isTransport (n : Nat) : Bool := n < 3
/-- A controller: 16 functions of 2 ports (R266). -/
def isCntlid (n : Nat) : Bool := n < 32
/-- A head, 0 to 9. -/
def isHead (n : Nat) : Bool := n < 10
/-- A 32-bit value. -/
def isWord (n : Nat) : Bool := n < 4294967296
/-- A global zone: 19 bits (R260). -/
def isZone (n : Nat) : Bool := n < 524288
/-- A Stitch slot (R297). -/
def isSlot (n : Nat) : Bool := n < 32768
/-- A pinned slot of a slice (R233). -/
def isPin (n : Nat) : Bool := n < 42
/-- A key slot (R416). -/
def isKeySlot (n : Nat) : Bool := n < 128
/-- A certificate slot. -/
def isCertSlot (n : Nat) : Bool := n < 8

/-- The dwords of a submission entry fit their fields. -/
def Sqe.wellFormed (x : Sqe) : Bool :=
  x.opcode < 256 && x.cid < 65536 && isWord x.nsid && isWord x.cdw10 && isWord x.cdw11 && isWord x.cdw12 && isWord x.cdw13 &&
    isWord x.cdw14 && isWord x.cdw15

/-- The operands of a command are in range. -/
def Instr.wellFormed (i : Instr) : Bool :=
  match i with
  | .registerWrite _ _ addr _ w => isWord addr && isWord w.value && isWord w.raised
  | .lockstepMismatch pair => isPair pair
  | .pairStore pair _ addr _ => isPair pair && isWord addr
  | .cablePacketReceive _ _ _ => true
  | .cableFail _ _ => true
  | .wedgeSample act _ _ => isAct act
  | .idlePeriodExpiry => true
  | .flywheelBoundary => true
  | .flywheelMaxReached => true
  | .longRowTimeout => true
  | .guardStart => true
  | .ledgerCheck => true
  | .writeHoldEnter => true
  | .pairTakeover => true
  | .logicDieResetEnd => true
  | .vin5AonRise => true
  | .keeperQualifyDone => true
  | .switchRampDone _ => true
  | .inrushTimeout => true
  | .powerRetry => true
  | .earlyLoss => true
  | .railPowerGood => true
  | .selftestDone _ _ _ _ => true
  | .patternPhaseDone => true
  | .dramTrainDone _ => true
  | .loadDone => true
  | .legacyRelease => true
  | .hostReady => true
  | .controllerReady cntlid => isCntlid cntlid
  | .patLockCmd => true
  | .patReload => true
  | .patCancel => true
  | .repatternValidated => true
  | .repatternApply => true
  | .testModeRise => true
  | .testModeRelease => true
  | .outputRelease => true
  | .tempWarning _ => true
  | .tempCritical _ => true
  | .thermalBindOff => true
  | .thermalRelease => true
  | .reverseTrip _ => true
  | .switchReclose _ => true
  | .spinupCurrentSample _ _ => true
  | .energyUpdate => true
  | .earlySaveDone => true
  | .energyHoldClear => true
  | .bindOffStart _ => true
  | .inputGlitch => true
  | .inputReturn => true
  | .inputLossInHold => true
  | .saveRestore => true
  | .warmReset _ => true
  | .watchdogExpiry pair => isPair pair
  | .watchdogKick _ => true
  | .watchdogConfig _ _ => true
  | .nssr value => isWord value
  | .perstAssert port => isPort port
  | .perstDeassert port => isPort port
  | .flr port _ => isPort port
  | .vfEnableClear port => isPort port
  | .controllerReset cntlid => isCntlid cntlid
  | .controllerEnable cntlid _ _ _ => isCntlid cntlid
  | .spnStart => true
  | .spnStop => true
  | .spnCoast => true
  | .spnClear => true
  | .currentLoopRun _ => true
  | .servoOffsetLearn => true
  | .catchMeasureDone _ _ _ _ => true
  | .catchTimeout => true
  | .alignDone _ => true
  | .commutationTimeout => true
  | .speedBandReached => true
  | .holdFloatWindow _ _ _ => true
  | .holdTimeout => true
  | .lockedRotor => true
  | .coastStopped => true
  | .coastRetractTimeout => true
  | .brakeDone => true
  | .needleLatch needle _ _ _ => isNeedle needle
  | .needleDeadline needle => isNeedle needle
  | .needleInternalFault needle => isNeedle needle
  | .needleTakeover needle => isNeedle needle
  | .settleReached needle => isNeedle needle
  | .settleTimeout needle => isNeedle needle
  | .missMaxReached needle => isNeedle needle
  | .holdRowsExpired needle => isNeedle needle
  | .ndlMbxPush push => isNeedle push.needle
  | .ndlSeek needle => isNeedle needle
  | .ndlOffset needle => isNeedle needle
  | .ndlEngage needle => isNeedle needle
  | .ndlHold needle => isNeedle needle
  | .ndlRelease needle => isNeedle needle
  | .ndlManual needle => isNeedle needle
  | .ndlRetract needle => isNeedle needle
  | .ndlUnknownOpcode needle => isNeedle needle
  | .needleSwap act => isAct act
  | .swapFaultAbort needle => isNeedle needle
  | .ndlDisable needle _ => isNeedle needle
  | .actLoad act => isAct act
  | .actUnload act => isAct act
  | .actEretract act => isAct act
  | .retractConstantPhase act => isAct act
  | .retractEnd act => isAct act
  | .actLinkClear act => isAct act
  | .actDisable act _ => isAct act
  | .actLinkEnable act => isAct act
  | .headRequest act head => isAct act && isHead head
  | .headSelect act _ => isAct act
  | .actLinkGo act addr _ _ => isAct act && isWord addr
  | .preampFrame act _ crc answer => isAct act && crc < 256 && answer.status < 256 && answer.data < 65536
  | .loadComplete act _ => isAct act
  | .loadTimeout act => isAct act
  | .unloadRampStop act => isAct act
  | .unloadHoldEnd act => isAct act
  | .unloadTimeout act => isAct act
  | .vcmCurrentLoop act _ _ _ => isAct act
  | .aenLeadStart act slice _ => isAct act && isSlice slice
  | .writeGateRaise act _ => isAct act
  | .laserCut act _ => isAct act
  | .sectorFrame slice _ => isSlice slice
  | .sectorBoundary act => isAct act
  | .inlineDecodeDone slice _ => isSlice slice
  | .autoActionDone slice _ _ => isSlice slice
  | .slcReDecode slice slot _ => isSlice slice && isPin slot
  | .slcReframe slice slot _ _ => isSlice slice && isPin slot
  | .slcCombine slice slot _ => isSlice slice && isPin slot
  | .recoveryRequestDone slice _ _ => isSlice slice
  | .slcUnpin slice _ _ => isSlice slice
  | .sliceFault slice _ => isSlice slice
  | .sliceTakeover slice => isSlice slice
  | .slcDisable slice _ => isSlice slice
  | .sliceDisabled slice => isSlice slice
  | .walkerLookup _ _ _ => true
  | .walkerMap _ _ _ _ _ _ _ _ => true
  | .walkerExtend _ _ _ => true
  | .walkerFlags _ _ _ _ _ _ => true
  | .walkerGenBump zone => isZone zone
  | .walkerDesc zone _ _ _ => isZone zone
  | .leafMerge => true
  | .staleEntryDelete => true
  | .journalPageWrite => true
  | .journalOnMedia => true
  | .checkpointStart => true
  | .ckptReq => true
  | .checkpointDone => true
  | .mapRebuild _ => true
  | .cacheZoneClean act => isAct act
  | .doorbellWrite cntlid _ _ value entries => isCntlid cntlid && isWord value && entries.all Sqe.wellFormed
  | .fetchRound pair => isPair pair
  | .tlpError _ port cntlid slot => isPort port && isCntlid cntlid && isSlot slot
  | .deleteIoSq slot => isSlot slot
  | .deleteIoCq slot => isSlot slot
  | .createIoSq slot => isSlot slot
  | .createIoCq slot => isSlot slot
  | .getLogPage slot => isSlot slot
  | .identify slot => isSlot slot
  | .abort slot => isSlot slot
  | .setFeatures slot _ => isSlot slot
  | .setDirtyCeiling slot => isSlot slot
  | .setReadPath slot => isSlot slot
  | .setConfirmActivation slot => isSlot slot
  | .getFeatures slot => isSlot slot
  | .asyncEventRequest slot => isSlot slot
  | .firmwareImageDownload slot _ => isSlot slot
  | .commitVerifyWrite slot => isSlot slot
  | .commitActivateAtReset slot => isSlot slot
  | .commitActivateStaged slot => isSlot slot
  | .commitActivateNow slot => isSlot slot
  | .deviceSelfTest slot => isSlot slot
  | .virtualizationManagement slot => isSlot slot
  | .nvmeMiSend slot _ => isSlot slot
  | .nvmeMiReceive slot => isSlot slot
  | .formatNvm slot => isSlot slot
  | .securitySend slot _ => isSlot slot
  | .securityReceive slot => isSlot slot
  | .sanitize slot => isSlot slot
  | .sanitizeStepDone => true
  | .invalidAdminOpcode slot => isSlot slot
  | .flush slot => isSlot slot
  | .read slot => isSlot slot
  | .write slot => isSlot slot
  | .compare slot _ => isSlot slot
  | .verify slot => isSlot slot
  | .writeZeroes slot => isSlot slot
  | .datasetManagement slot _ => isSlot slot
  | .writeUncorrectable slot => isSlot slot
  | .zoneOpen slot => isSlot slot
  | .zoneClose slot => isSlot slot
  | .zoneFinish slot => isSlot slot
  | .zoneReset slot => isSlot slot
  | .zoneOffline slot => isSlot slot
  | .zoneSetDescExt slot => isSlot slot
  | .zoneMgmtReceive slot => isSlot slot
  | .zoneAppend slot => isSlot slot
  | .invalidIoOpcode slot => isSlot slot
  | .hifAenPost _ _ => true
  | .hifCfsSet _ => true
  | .fetchHold _ => true
  | .interruptCoalesceTimer cntlid _ => isCntlid cntlid
  | .mctpMessage transport _ => transport < 4
  | .setEndpointId _ => true
  | .nvmeMiBasic => true
  | .nvmeMiCommand _ => true
  | .miReset => true
  | .spdmGetVersion transport => isTransport transport
  | .spdmGetCapabilities transport => isTransport transport
  | .spdmNegotiateAlgorithms transport _ _ => isTransport transport
  | .spdmGetDigests transport => isTransport transport
  | .spdmGetCertificate transport slot _ _ => isTransport transport && isCertSlot slot
  | .spdmChallenge transport slot _ => isTransport transport && isCertSlot slot
  | .spdmGetMeasurements transport _ _ _ => isTransport transport
  | .spdmRespondIfReady transport _ => isTransport transport
  | .spdmUnsupported transport _ => isTransport transport
  | .writeAdmit => true
  | .writeDataComplete slot _ _ => isSlot slot
  | .windowEnter act => isAct act
  | .mediaPick act _ => isAct act
  | .preempt act => isAct act
  | .ledgerRecount => true
  | .ledgerRelease => true
  | .writeHoldRelease => true
  | .mediaCompletion slot => isSlot slot
  | .readPoint slot => isSlot slot
  | .readTransfer slot _ _ => isSlot slot
  | .claimOpen _ => true
  | .claimClose _ => true
  | .ladderRunStart act => isAct act
  | .ladderStepDone _ _ => true
  | .scrubOperation act => isAct act
  | .drnRewriteGo zone => isZone zone
  | .drnDuePop => true
  | .rewriteDone => true
  | .lifelineBlockFail _ => true
  | .memoryScrubRead die _ _ _ _ _ => isDie die
  | .pageDecodeDone die _ _ _ => isDie die
  | .repairPost => true
  | .sramPatrol _ _ _ => true
  | .verifyImage mailbox _ addr _ => isMailbox mailbox && isWord addr
  | .commitMeasurement mailbox _ _ _ => isMailbox mailbox
  | .loadKey mailbox _ slot _ zone _ _ => isMailbox mailbox && isKeySlot slot && isZone zone
  | .nsKeyNew mailbox _ _ => isMailbox mailbox
  | .kpio mailbox _ _ => isMailbox mailbox
  | .random mailbox _ _ => isMailbox mailbox
  | .tirChallenge _ _ _ => true
  | .tirResponse _ _ _ _ => true
  | .revoke _ _ _ => true
  | .svnAdvance mailbox _ _ _ => isMailbox mailbox
  | .provision mailbox _ _ _ _ _ => isMailbox mailbox
  | .genIdentity mailbox _ => isMailbox mailbox
  | .tirUnknownOpcode mailbox _ _ => isMailbox mailbox
  | .challengeExpiry _ => true
  | .tamperAlarm _ => true
  | .alarmClear => true
  | .cipherEnable => true
  | .katDone _ => true
  | .cipherDisable => true
  | .cipherDrained => true
  | .cipherCoreFault core => isCore core
  | .hookLdi thread => isCore thread
  | .hookEnc thread => isCore thread
  | .hookDec thread => isCore thread
  | .hookXor thread => isCore thread
  | .hookGmul thread => isCore thread
  | .hookInc32 thread => isCore thread
  | .hookLen thread => isCore thread
  | .hookOut thread => isCore thread
  | .hookTag thread => isCore thread
  | .hookLoop thread => isCore thread
  | .hookEnd thread => isCore thread
  | .hookIllegalOp thread => isCore thread
  | .blockReturn core => isCore core
  | .tokenPost => true
  | .hookDataWrite _ => true
  | .hookBindWrite _ => true
  | .keySlotErase => true
  | .bankDrainEnd slot => isKeySlot slot
  | .testkeyLoad _ _ slot => isKeySlot slot
  | .cipherJob slot _ => isKeySlot slot
  | .cipherJobDone => true
  | .gauAdcOffset slice => isSlice slice
  | .gauAdcGain slice => isSlice slice
  | .gauAdcSkew slice => isSlice slice
  | .gauReaderBias act head => isAct act && isHead head
  | .gauTouchdown act head => isAct act && isHead head
  | .gauAssist act head => isAct act && isHead head
  | .gauIsenseSpn => true
  | .gauIsenseVcm act => isAct act
  | .gauTemp => true
  | .gaugeTargetIdle => true
  | .calibrationEnd _ => true
  | .sessionExpiry => true
  | .bundleWritten => true
  | .tiriumHandover => true
  | .tiriumReady => true
  | .tiriumReadyTimeout => true
  | .handoverSpareReady => true
  | .handoverRequest => true
  | .handoverQuiesced => true
  | .handoverSwitch => true
  | .handoverTaken => true
  | .handoverDeadlineMiss => true
  | .quiescedActivation => true
  | .quiescedTimeout => true
  | .autoConfirm => true
  | .updAbort => true
  | .updFrog => true
  | .recFwPost _ _ _ => true
  | .recordProgrammed => true
  | .recStoreFail _ => true
  | .recordMirrorCopy => true
  | .fallbackUnitProgram => true
  | .recClear _ => true
  | .clearSectorErased => true
  | .timeAnchor _ _ => true
  | .recorderCastonScan _ => true
  | .sngArm => true
  | .sngDisarm => true
  | .snagInjectorGo injector _ => isInjector injector
  | .snagHeldRelease injector => isInjector injector
  | .dbgWarmReset _ => true
  | .dbgHalt _ _ => true
  | .jtagBypass _ => true
  | .jtagIdcode => true
  | .jtagSamplePreload _ _ => true
  | .jtagExtest _ => true
  | .jtagTmbx _ _ _ => true
  | .jtagDbgap _ _ => true
  | .uartTxWrite _ => true
  | .uartTxByteSent => true
  | .uartRxByte _ _ => true
  | .uartRxPop => true
  | .registerRead _ addr _ => isWord addr
  | .linkUp port _ _ => isPort port
  | .linkDown port => isPort port
  | .vfEnableSet port _ => isPort port
  | .statActRelease => true
  | .leafRebuildDone _ => true
  | .formatNvmDone _ => true

end Sys2Proof
end

