-- ==== Sys2Proof/Tests/Slice0.lean ====
section
/-!
SUPPORT. Sys2Proof/Tests/Slice0.lean: tests whose expected values stand in the spec, one ill-formed command for each check of
WellFormed, and for every statement with hypotheses a state that meets them.
-/

set_option Elab.async false

namespace Sys2Proof.Tests

open Sys2Proof.Machine

/-! ### Each check refuses an operand one beyond its range, and takes the last one within it -/

theorem smoke_isAct : (Instr.actLoad 2).wellFormed = false ∧ (Instr.actLoad 1).wellFormed = true := by decide
theorem smoke_isNeedle : (Instr.needleDeadline 3).wellFormed = false ∧ (Instr.needleDeadline 2).wellFormed = true := by decide
theorem smoke_isSlice : (Instr.sliceDisabled 5).wellFormed = false ∧ (Instr.sliceDisabled 4).wellFormed = true := by decide
theorem smoke_isPair : (Instr.lockstepMismatch 6).wellFormed = false ∧ (Instr.lockstepMismatch 5).wellFormed = true := by decide
theorem smoke_isPort : (Instr.perstAssert 2).wellFormed = false ∧ (Instr.perstAssert 1).wellFormed = true := by decide
theorem smoke_isMailbox : (Instr.genIdentity 4 0).wellFormed = false ∧ (Instr.genIdentity 3 0).wellFormed = true := by decide
theorem smoke_isCore : (Instr.cipherCoreFault 4).wellFormed = false ∧ (Instr.cipherCoreFault 3).wellFormed = true := by decide
theorem smoke_isDie : (Instr.pageDecodeDone 2 0 0 .free).wellFormed = false ∧ (Instr.pageDecodeDone 1 0 0 .free).wellFormed = true := by decide
theorem smoke_isInjector : (Instr.snagHeldRelease 8).wellFormed = false ∧ (Instr.snagHeldRelease 7).wellFormed = true := by decide
theorem smoke_isTransport : (Instr.spdmGetDigests 3).wellFormed = false ∧ (Instr.spdmGetDigests 2).wellFormed = true := by decide
theorem smoke_isCntlid : (Instr.controllerReady 32).wellFormed = false ∧ (Instr.controllerReady 31).wellFormed = true := by decide
theorem smoke_isHead : (Instr.headRequest 0 10).wellFormed = false ∧ (Instr.headRequest 0 9).wellFormed = true := by decide
theorem smoke_isWord : (Instr.nssr 4294967296).wellFormed = false ∧ (Instr.nssr 4294967295).wellFormed = true := by decide
theorem smoke_isZone : (Instr.walkerGenBump 524288).wellFormed = false ∧ (Instr.walkerGenBump 524287).wellFormed = true := by decide
theorem smoke_isSlot : (Instr.flush 32768).wellFormed = false ∧ (Instr.flush 32767).wellFormed = true := by decide
theorem smoke_isPin : (Instr.slcReDecode 0 42 0).wellFormed = false := by decide
theorem smoke_isKeySlot : (Instr.bankDrainEnd 128).wellFormed = false ∧ (Instr.bankDrainEnd 127).wellFormed = true := by decide
theorem smoke_isCertSlot :
    (Instr.spdmGetCertificate 0 8 0 0).wellFormed = false ∧ (Instr.spdmGetCertificate 0 7 0 0).wellFormed = true := by decide

/-- A submission entry whose unnamed dwords are 0. -/
def entry (opcode cid nsid cdw10 cdw15 : Nat) : Sqe :=
  { opcode := opcode, cid := cid, nsid := nsid, cdw10 := cdw10, cdw11 := 0, cdw12 := 0, cdw13 := 0, cdw14 := 0, cdw15 := cdw15 }

theorem smoke_sqe_opcode : (entry 256 0 0 0 0).wellFormed = false ∧ (entry 255 0 0 0 0).wellFormed = true := by decide
theorem smoke_sqe_cid : (entry 0 65536 0 0 0).wellFormed = false ∧ (entry 0 65535 0 0 0).wellFormed = true := by decide
theorem smoke_sqe_nsid : (entry 0 0 4294967296 0 0).wellFormed = false := by decide
theorem smoke_sqe_cdw10 : (entry 0 0 0 4294967296 0).wellFormed = false := by decide
theorem smoke_sqe_cdw15 : (entry 0 0 0 0 4294967296).wellFormed = false ∧ (entry 0 0 0 0 4294967295).wellFormed = true := by decide
theorem smoke_entries : (Instr.doorbellWrite 0 0 true 0 [entry 256 0 0 0 0]).wellFormed = false := by decide
theorem smoke_frame_crc : (Instr.preampFrame 0 0 256 ⟨0, 0⟩).wellFormed = false ∧ (Instr.preampFrame 0 0 255 ⟨0, 0⟩).wellFormed = true := by decide
theorem smoke_frame_status : (Instr.preampFrame 0 0 0 ⟨256, 0⟩).wellFormed = false ∧ (Instr.preampFrame 0 0 0 ⟨255, 0⟩).wellFormed = true := by decide
theorem smoke_frame_data :
    (Instr.preampFrame 0 0 0 ⟨0, 65536⟩).wellFormed = false ∧ (Instr.preampFrame 0 0 0 ⟨0, 65535⟩).wellFormed = true := by decide

/-- The 16 bytes of a map entry (R249): LSTART, LENGTH and PHYS little-endian, then GEN and the flags CACHE and PENDING. -/
theorem test_map_entry_bytes :
    ({ lstart := 0x0102030405, length := 7, phys := 9, gen := 0x1234, cache := true, unwritten := false, unreadable := false,
       noParity := false, pending := true } : MapEntry).bytes =
      [5, 4, 3, 2, 1, 7, 0, 0, 9, 0, 0, 0, 0, 0x34, 0x12, 0x11] := by decide
/-- Bytes 8 to 11 of a zone descriptor (R258): WP 5, STATE FULL, RESTITCH_USED 1. -/
theorem test_zone_desc_bytes :
    ({ gen := 2, wcount := 3, wp := 5, state := .full, restitchUsed := 1 } : ZoneDesc).bytes =
      [2, 0, 0, 0, 3, 0, 0, 0, 5, 0, 0x28, 0, 0, 0, 0, 0] := by decide

/-! ### Witnesses: for every statement with hypotheses, states and operands that meet them -/

/-- A part that runs: powered, out of reset, the lockstep pairs active. -/
def running : State :=
  (State.reset.modKeeper fun k => { k with powered := true, inReset := false, released := true })

/-- The five working pairs ACTIVE and SPARE in STANDBY. -/
def pairsUp : State := running.setReg R.SYS_PAIR_STATUS 0x0F311111

/-- Pair MEDIA_0 fenced, its takeover due. -/
def takingOver : State :=
  (((pairsUp.setFld (pairFld 3) 2).store .dram 16 [2, 9]).modPair 3 fun x =>
    { x with takeover := true, takeoverFor := 3, checkpoint := some ⟨7, 0, []⟩, undo := [⟨.dram, 16, [3, 0]⟩, ⟨.dram, 16, [4, 0]⟩] })

/-- A wedge at its predicted place, and one whose mark was not found. -/
def goodWedge : WedgeObs := ⟨true, true, 0, 1, 0⟩
def missedWedge : WedgeObs := ⟨false, false, 0, 1, 0⟩

/-- A cold cast-on in phase 1. -/
def starting : State := State.reset.modKeeper fun k => { k with powered := true }

/-- A controller that is enabled, and a device whose port 0 serves it over a link. -/
def hostedCtl : Controller := { Controller.fresh 0 with enabled := true }
def hosted : State :=
  ((running.setReg R.HIF_CTRL_EXIST 1).setFld (F.HIF_PORT_STATUS_LINK_UP 0) 1).modHost fun h => { h with controllers := [hostedCtl] }

/-- A committed save of no page. -/
def emptySave : Save :=
  { seq := 1, zones := [], descriptors := [], descCommit := true, chunks := [], commit := true }

/-- The parameters of the motor are set. -/
def motorSet : State := (running.setReg R.SPN_MOTOR_0 0x00640064).setReg R.SPN_MOTOR_1 0x00001000

/-- A sample of the spindle's current loop. -/
def loopSample : LoopObs := ⟨100, -50, -50, 12000, false⟩

/-- Needle B drives actuator B in FOLLOW, with its Row open. -/
def ndlRuns : State :=
  (((running.setFld (F.NDL_STATUS_ROLE 1) 1).setFld (F.NDL_STATUS_ACT 1) 1).setFld (F.NDL_STATUS_MODE 1) 3).modNeedle 1
    fun x => { x with closed := false }

/-- The Needle of actuator B has mailbox credits. -/
def ndlCredits : State := ndlRuns.modFlow fun f => { f with census := List.replicate 23 5 }

/-- The first word of a mailbox entry with an opcode and tag 0x0033, and a Needle in a mode that takes it. -/
def mailW (k : Nat) : Word := BitVec.ofNat 32 (k + 0x00330000)
def ndlMail (k : Nat) : State :=
  ((((ndlRuns.setFld (F.NDL_STATUS_MODE 1) (if k = 3 then 0 else if k = 5 then 4 else 2)).flag (F.NDL_STATUS_LOCK 1)).setReg
    (R.NDL_LIM_VMAX 1 0) 1).setReg (R.NDL_LIM_AMAX 1 0) 1).setReg (R.NDL_LIM_JMAX 1 0) 1 |>.modNeedle 1
    (fun x => { x with mailbox := [(mailW k, 0x00010000)], phase := true, due := 1 }) |>.modPattern fun u =>
    { u with active := { u.active with geometry := { u.active.geometry with bands := [⟨1, 0, 0, 0, 1000, 0, 0, false⟩] } } }

/-- An activation whose Needle microcode goes to actuator B. -/
def microcodeSwap : Activation := ⟨[2], none, 1, 0, [], 0, 0, 0, false, false, false⟩

/-- Actuator B may load: the spindle is in RUN, its Needle in MANUAL and the coil measured. -/
def loadable : State :=
  (((ndlRuns.setFld (F.NDL_STATUS_MODE 1) 0).setFld F.SPN_STATUS_STATE 3).setFld (F.ACT_COIL_R_MOHM 1) 5)

/-- A Pattern with ten heads to each actuator. -/
def headed : State :=
  running.modPattern fun u => { u with active := { u.active with geometry := { u.active.geometry with headsA := 10, headsB := 10 } } }

/-- A sector operation of actuator B, in a zone of no namespace, with its sector on the media. -/
def readOp : MediaOp :=
  ⟨1, 1, .read, .ladder, none, false, 7, 9, 1, [9], [7], .single, 0, .issued, none, 0, true, 0, [], [0], [], 0, none, none, 0, [], [], [], none⟩
/-- A sector without data. -/
def plainSector : MediaSector := ⟨9, 1, 0, 0, [], [], [], false⟩
def sectorJob : SectorJob := ⟨1, 0, 9, false, none, none, 0, 0, 4, 3⟩

/-- Slice 4 serves actuator B with that operation under its heads. -/
def reading : State :=
  ((((running.setFld (F.SLC_STATUS_ROLE 4) 1).setFld (F.SLC_STATUS_ACT 4) 1).modFlow fun f => { f with ops := [readOp] }).modStitch
    fun x => { x with media := [(9, ⟨7, 0, 0, 0, [], [], [], false⟩)] }).modSlice 4 fun x => { x with received := [sectorJob] }

/-- Slice 4 with a pinned slot. -/
def pinSlot : PinnedSlot := ⟨41, 9, 1, 0, none, none, 0, 0, 0⟩
def pinRequest : RecoveryRequest := ⟨1, 41, 0, 20, none⟩
def pinned : State := running.modSlice 4 fun x => { x with pinned := [pinSlot] }

/-- Actuator B may write with slice 2. -/
def writable : State :=
  (((((((((ndlRuns.setFld (F.NDL_STATUS_POS_OK 1) 1).setFld (F.ACT_STATUS_LOAD_STATE 1) 2).setFld (F.SLC_STATUS_ROLE 2) 1).setFld
    (F.SLC_STATUS_ACT 2) 1).setFld (F.ACT_CTRL_WG_INHIBIT 1) 0).setFld (F.ACT_HEAD_LLIM_LIMIT 1 0) 9).modSpn fun x => { x with writeStop := false }).modAct 1
    fun x => { x with pollOk := true, preheat := some 0 }).modFlow (fun f => { f with ops := [{ readOp with kind := .write }] })).modPins
    fun p => { p with aen := [.low, .low], wg := [.low, .low] }

/-- Actuator A has one conventional, one cache and two sequential zones on one surface. -/
def zoned : State :=
  running.modPattern fun u => { u with active := { u.active with geometry := { u.active.geometry with
    headsA := 1, bands := [⟨0, 0, 0, 0, 100000, 0, 400, false⟩], zones := [⟨0, 4, 0, 1, 1, 2⟩] } } }

/-- An entry of zone 2, ten sectors from its start, and the map that holds it alone. -/
def mapEntry : MapEntry := ⟨2 * 65536, 10, 12345, 0, true, false, false, false, true⟩
def mapped : State := zoned.modStitch fun x => { x with leaves := [[mapEntry]] }

/-- A submission entry with command identifier 33 in namespace 1, and one with given dwords 12 and on. -/
def sqe (op c10 c11 : Nat) : Sqe := { opcode := op, cid := 33, nsid := 1, cdw10 := c10, cdw11 := c11, cdw12 := 0, cdw13 := 0, cdw14 := 0, cdw15 := 0 }
def sqeX (op nsid c10 c12 c13 : Nat) : Sqe := { opcode := op, cid := 33, nsid := nsid, cdw10 := c10, cdw11 := 0, cdw12 := c12, cdw13 := c13, cdw14 := 0, cdw15 := 0 }

/-- A device with a PF and a VF on port 0, a conventional namespace 1 of zone 2 and a ZNS namespace 2 of zone 3. -/
def attached : State :=
  (hosted.modPattern fun u => { u with active := { u.active with
    geometry := { u.active.geometry with headsA := 1, bands := [⟨0, 0, 0, 0, 100000, 0, 400, false⟩], zones := [⟨0, 4, 0, 1, 1, 2⟩] },
    host := ⟨[⟨0, 0, 0, 8, 8, 4⟩, ⟨0, 1, 0, 8, 8, 4⟩], [⟨1, 0, 0, 0, 1, 3⟩, ⟨2, 1, 0, 3, 1, 3⟩], [], []⟩ } }).modHost fun h =>
    { h with controllers := [{ hostedCtl with css := 6 }, { Controller.fresh 1 with enabled := true }],
             rings := [⟨0, 16, 0, 0, 0, 0, []⟩, ⟨4096, 16, 0, 0, 0, 0, []⟩, ⟨1, 16, 0, 0, 2, 1, []⟩, ⟨4097, 16, 0, 0, 0, 1, []⟩] }

/-- A fetched admin command of the PF in slot 7, and the state that holds it. -/
def admSlot (op c10 c11 : Nat) : Slot := attached.newSlot 0 0 7 (sqe op c10 c11) .shared false false
def adm (op c10 c11 : Nat) : State := attached.modFlow fun f => { f with slots := [admSlot op c10 c11] }

/-- A fetched I/O command in slot 7. -/
def ioSlot (op c10 c12 : Nat) : Slot := attached.newSlot 0 1 7 (sqeX op 1 c10 c12 0) .shared false true
def zoneSlot (op c10 c12 c13 : Nat) : Slot := attached.newSlot 0 1 7 (sqeX op 2 c10 c12 c13) .shared false true
def inSlot (x : Slot) : State := attached.modFlow fun f => { f with slots := [x] }

/-- The same with a ready map, free pages and no restore. -/
def ready (s : State) : State :=
  (((s.flag F.STM_STATUS_READY).setFld F.KEEP_CEILING_EFFECTIVE_MIB 4).modKeeper fun k => { k with restoring := false }).modFlow fun f =>
    { f with census := List.replicate 23 1000 }
def io (x : Slot) : State := ready (inSlot x)

/-- A zone of the ZNS namespace in a state. -/
def zoneIn (s : State) (st : ZoneState) (wp : Nat) : State := s.setZdesc 3 ⟨1, 0, wp, st, 0⟩

/-- Tirium in READY. -/
def tirUp : State := running.setFld F.TIR_STATUS_STATE 1

/-- A sector whose decode failed in a scrub read, and a run in its step 2 that only the Darning unit waits for. -/
def failedOne : FailedSector := ⟨1, 9, 70, 1, 4, false, false, true, some 3, 5, 0⟩
def ladderRun (step : Nat) : LadderRun := ⟨6, 1, 70, 9, step, false, false, [], true, 4, some 3⟩
def laddering (step : Nat) : State :=
  (running.modDarn fun x => { x with runs := [ladderRun step], failed := [failedOne] }).modStitch fun x =>
    { x with media := [(70, ⟨9, 0, 0, 0, [], [], [], false⟩)] }

/-- The scrub may read on actuator A, and sector 5 stands in its priority list. -/
def scrubbing : State :=
  ((zoned.flag F.DRN_CTRL_SCRUB_EN).setFld (F.ACT_STATUS_LOAD_STATE 0) 2).modDarn fun x => { x with priority := [5] }

/-- Zone 3 is under rewrite. -/
def rewriting : State :=
  (zoneIn zoned .rewrite 0).modDarn fun x => { x with rewrite := some ⟨3, 0, 2, .closed⟩ }

/-- A region of a kind over the lowest pages of die 1, with the memory scrubber on and a page whose decode runs. -/
def paged (kind : Nat) : State :=
  ((running.flag F.MEM_CTRL_SCRUB_EN).modPattern fun u => { u with active := { u.active with memory := [⟨kind, 2, 0, 16⟩] } }).modProt
    fun p => { p with decoding := [(9, 1, [3])] }

/-- The cipher engine runs with its four cores, key slot 115 is a TEST slot with a CTR key, and Hook thread 2 works on a job of
two blocks, at the word 40 of the program that holds an instruction with a given opcode and IMM, from V1 and V2 into V3. -/
def testBank : Bank := ⟨1, 2, 5, 0, 0, 0, none, 0⟩
def testSlot : KeySlot := { KeySlot.reset with test := true, bank0 := some testBank }
def jobWork : CipherWork := ⟨0, 0, 115, true, 2, 11, [7, 8], 12, 13, 14, 4⟩
def hookAt : HookThread :=
  { HookThread.reset with work := some jobWork, pc := 40, regs := [.ready 0, .ready 5, .ready 6, .ready 9, .ready 0, .ready 0, .ready 0, .ready 0],
                          input := [7, 8] }
def hookWord (op imm : Nat) : Word := BitVec.ofNat 32 (op * 2 ^ 26 + 3 * 2 ^ 23 + 1 * 2 ^ 20 + 2 * 2 ^ 17 + imm)
def cipherUp : State :=
  (((running.setFld F.CIP_STATUS_STATE 2).setFld F.CIP_STATUS_CORE_OK 15).setFld F.CIP_JOB_STATUS_BUSY 1).modCip fun c =>
    { c with slots := putAt 115 testSlot c.slots }
def hooked (op imm : Nat) : State :=
  cipherUp.modCip fun c => { c with threads := putAt 2 hookAt c.threads, program := putAt 40 (hookWord op imm) c.program }

/-- A staging session of three units to which port 0 belongs, two of them kept. -/
def staging : Session := ⟨77, 12288, [⟨3, 2, 4096, 4096, 5, []⟩], [], [(0, []), (2, [])], 0, 1⟩
def unit4k : List Byte := List.replicate 4096 7

/-- The record of an activation that waits for its confirmation, and one with a staged Tirium image. -/
def tentativeRecord : ActRecord := { ActRecord.blank with seq := 5, state := .tentative, current := [⟨4, 1, 1, true, 4096, 5, []⟩] }
def stagedRecord : ActRecord := { ActRecord.blank with seq := 5, staged := true, stagedSet := [⟨1, 1, 1, true, 4096, 5, []⟩] }

/-- A Firmware Commit with a Commit Action, with a session or a staged set. -/
def commitOf (ca : Nat) (r : ActRecord) (y : Option Session) : State :=
  (adm 0x10 (8 * ca) 0).modUpd fun u => { u with records := [r], session := y }
def inXfer (s : State) : State := s.modFlow fun f => { f with slots := [{ admSlot 0x10 0 0 with stage := .xferOut }] }

/-- An activation of components at a step, and the state that holds it at Row 20, with the pairs up and a boundary allowed. -/
def act (cs : List Nat) (leg step : Nat) (quiesced : Bool) : Activation :=
  ⟨cs, none, 1, leg, if cs = [1] || cs = [2] then [] else [3], step, 2, 0, quiesced, cs == [1], false⟩
def acting (v : Activation) : State :=
  ((pairsUp.setReg R.ROWT_COUNT_LO 20).modUpd fun u => { u with activation := some v }).modFlow fun f => { f with lastPassed := true }

/-- The recorder runs under no filter, with a record being programmed; firmware may clear its areas. -/
def anyRecord : Record := ⟨0x3001, 48, 3, false, false, 0, 0, 0, [], 7⟩
def storedAt (i : Nat) : Stored := ⟨i, anyRecord, false⟩
def recording : State :=
  (((running.setReg R.REC_SOURCES_LO 0xFFFFFFFF).setReg R.REC_SOURCES_HI 0xFFFFFFFF).setFld F.REC_NEXT_INDEX 5).modRec fun u =>
    { u with writing := some anyRecord, scanned := true, store := [storedAt 4, storedAt 1023] }
def onFallback : State := recording.setFld F.REC_STATUS_STORE 1
def clearable : State := recording.setGrants 4

/-- The Snag unit is armed under the grant SNAG_ARM, and injector 5 holds an injection of point 6. -/
def armed : State := ((running.setGrants 1).flag F.SNG_STATUS_ARMED).modSnag fun u => { u with armedBy := 1 }
def heldSnag (point : Nat) : State :=
  ((armed.setFld (F.SNG_INJ_CFG_POINT 5) point).setFld (F.NDL_STATUS_ROLE 2) 2).modSnag fun u =>
    { u with injectors := putAt 5 ⟨true, true, 0, 1⟩ u.injectors }
def coreGrant : State := running.setGrants 4
def uartOn : State := (running.setFld F.SYS_BALL_FUNC_GPIO_FN 1).flag F.DBG_UART_CTRL_EN

/-- A write whose one sector is dirty, and a save of it. -/
def dirtySlot : Slot := { ioSlot 1 0 0 with stage := .media, shown := 1, verified := [false], data := [[]], pi := [[]] }
def dirtySave : Save := { emptySave with descriptors := dirtySlot.dirtySectors }

/-- Accounts that balance: every slot and every token of the four cores free, no pages and no Needle that drives. -/
def balance : List Nat := [32768, 0, 0, 0, 0, 0, 0, 0, 0, 64, 0, 64, 0, 64, 0, 64, 0, 0, 0, 0, 0, 0, 0]
def balanced : State := running.modFlow fun f => { f with checksOff := false, ledger := balance.map Int.ofNat, census := balance }

theorem witness_StepIdlesOnAnEmptyQueue :
    ∃ s : State, s.pending = [] :=
  ⟨State.reset, rfl⟩

theorem witness_EveryStepConsumesOneCommand :
    ∃ s t : State, step s = .next t :=
  ⟨State.reset, _, rfl⟩

theorem witness_EveryStepKeepsCanonicalForm :
    ∃ s t : State, s.canonical = true ∧ step s = .next t :=
  ⟨State.reset, _, by decide +kernel, rfl⟩

theorem witness_EveryStepKeepsTheFuses :
    ∃ s t : State, step s = .next t :=
  ⟨State.reset, _, rfl⟩

theorem witness_CapabilityValues :
    ∃ (s : State) (proc : Nat), s.fuse.stepping = 0 ∧ s.silent proc = false :=
  ⟨State.reset, 0, by decide +kernel⟩

theorem witness_IdentificationRegisters :
    ∃ (s : State) (proc addr : Nat), s.silent proc = false ∧ inWindow addr = true ∧ addr < 2 ^ 32 ∧ addr % 0x10000 = 0xFFFC :=
  ⟨State.reset, 0, 0x0143FFFC, by decide +kernel⟩

theorem witness_AccessesThatAreNoAlignedWord :
    ∃ (s : State) (proc addr size : Nat), s.silent proc = false ∧ inWindow addr = true ∧ 0x01000000 ≤ addr ∧ addr < 0x10000000 ∧ (addr % 4 ≠ 0 ∨ size ≠ 4) :=
  ⟨State.reset, 0, 0x02000002, 4, by decide +kernel⟩

theorem witness_LatchedRowCount :
    ∃ (s : State) (proc : Nat), s.silent proc = false :=
  ⟨State.reset, 0, by decide +kernel⟩

theorem witness_AbsentWindows :
    ∃ (s : State) (proc addr : Nat), s.silent proc = false ∧ s.absent addr = true ∧ inWindow addr = true ∧ addr < 0x10000000 ∧ addr % 4 = 0 :=
  ⟨State.resetOf .s1h, 0, 0x01420004, by decide +kernel⟩

theorem witness_RowBoundaries :
    (∃ (s : State), s.keeper.inReset = false ∧ s.fld F.ROWT_STATUS_SOURCE = 0 ∧ s.row.leaving = false) ∧
    (∃ (s : State), s.keeper.inReset = false ∧ s.fld F.ROWT_STATUS_SOURCE = 3) ∧
    (∃ (s : State) (a : Nat) (time : Nat) (obs : WedgeObs), s.keeper.inReset = false ∧ s.fld F.ROWT_STATUS_SOURCE = 1 ∧
      s.hasAct a = true ∧ a = s.fld F.ROWT_CTRL_MASTER ∧ obs.mark = true ∧ s.row.now ≤ time ∧ s.inWedgeWindow a time = true ∧
      s.endsRow time = true) ∧
    (∃ (s : State), s.fld F.ROWT_STATUS_SOURCE = 0 ∧ s.row.leaving = true) :=
  ⟨⟨running, by decide +kernel⟩,
   ⟨running.setFld F.ROWT_STATUS_SOURCE 3, by decide +kernel⟩,
   ⟨running.setFld F.ROWT_STATUS_SOURCE 1, 0, running.fld F.ROWT_PERIOD_PERIOD_PS, goodWedge, by decide +kernel⟩,
   ⟨running.modRow fun r => { r with leaving := true }, by decide +kernel⟩⟩

theorem witness_RowStateChanges :
    (∃ (s : State) (a : Nat) (time : Nat) (obs : WedgeObs), s.keeper.inReset = false ∧ s.fld F.ROWT_STATUS_SOURCE = 2 ∧
      s.hasAct a = true ∧ a = 1 - s.fld F.ROWT_CTRL_MASTER ∧ obs.mark = false ∧ s.row.now ≤ time) ∧
    (∃ (s : State), s.fld F.ROWT_STATUS_SOURCE = 3 ∧ s.fld F.ROWT_CTRL_FLYWHEEL_MAX ≤ s.row.flywheelRun) ∧
    (∃ (s : State), s.keeper.inReset = false) ∧
    (∃ (s : State), s.flow.checked = false ∧ s.flow.checksOff = false) :=
  ⟨⟨running.setFld F.ROWT_STATUS_SOURCE 2, 1, 5, missedWedge, by decide +kernel⟩,
   ⟨(running.setFld F.ROWT_STATUS_SOURCE 3).modRow fun r => { r with flywheelRun := 600 }, by decide +kernel⟩,
   ⟨running, by decide +kernel⟩,
   ⟨running.modFlow fun f => { f with checksOff := false }, by decide +kernel⟩⟩

theorem witness_CorePairs :
    (∃ (s : State) (p : Nat), p < 6 ∧ s.pairState p ≠ 0) ∧
    (∃ (s : State) (p : Nat), s.pairs.length = 6 ∧ p < 5 ∧ s.pairState p = 1 ∧ s.pairState 5 = 3 ∧ (s.pair
      p).checkpoint.isSome = true ∧ s.upd.activation = none) ∧
    (∃ (s : State) (p : Nat), s.pairState p = 2) ∧
    (∃ (s : State) (g : Nat) (p : Nat) (x : CablePacket), x.source = .pair p ∧ s.pairState p = 2 ∧ (s.link g false).awaited =
      0) ∧
    (∃ (s : State) (p : Nat) (a : Nat) (bytes : List Byte), s.pairs.length = 6 ∧ p < 6 ∧ s.pairRuns p = true ∧ (s.pair
      p).halted = false ∧ (s.pair p).stalled = [] ∧ (s.pair p).undo.length + (storeWords a bytes.length).length ≤ 4096) ∧
    (∃ (s : State) (p : Nat) (a : Nat) (bytes : List Byte), s.pairs.length = 6 ∧ p < 6 ∧ s.pairRuns p = true ∧ (s.pair
      p).halted = false ∧ (s.pair p).stalled = [] ∧ (s.pair p).undo.length + (storeWords a bytes.length).length ≤ 4096) ∧
    (∃ (s : State) (p : Nat) (a : Nat) (bytes : List Byte), s.pairs.length = 6 ∧ p < 6 ∧ s.pairRuns p = true ∧ (s.pair
      p).halted = false ∧ (s.pair p).stalled = [] ∧ (s.pair p).undo ≠ [] ∧ 4096 < (s.pair p).undo.length + (storeWords a
      bytes.length).length) ∧
    (∃ (s : State) (p : Nat) (k : Nat), s.pairs.length = 6 ∧ (List.range 6).find? (fun p => (s.pair p).takeover) = some p ∧
      s.takeoverPair p = some k ∧ k ≠ (s.pair p).takeoverFor ∧ (s.pair p).takeoverFor < 16) :=
  ⟨⟨pairsUp, 3, by decide +kernel⟩,
   ⟨pairsUp.modPair 3 fun x => { x with checkpoint := some ⟨7, 0, []⟩ }, 3, by decide +kernel⟩,
   ⟨pairsUp.setFld (pairFld 3) 2, 3, by decide +kernel⟩,
   ⟨pairsUp.setFld (pairFld 3) 2, 11, 3, ⟨true, 0, false, .pair 3, .unit 0x01000000, 5⟩, by decide +kernel⟩,
   ⟨pairsUp, 3, 0x1FFFFFFF, [1, 2, 3], by decide +kernel⟩,
   ⟨pairsUp, 3, 0x1FFFFFFF, [1, 2, 3], by decide +kernel⟩,
   ⟨pairsUp.modPair 3 fun x => { x with undo := List.replicate 4096 ⟨.dram, 0, []⟩ }, 3, 8, [1, 2], by decide +kernel⟩,
   ⟨takingOver, 3, 5, by decide +kernel⟩⟩

theorem witness_CableLinks :
    (∃ (s : State) (g : Nat) (x : CablePacket), g < 12 ∧ s.cable.links.length = 24 ∧ s.noInjection = true ∧ s.neverSent
      (s.link g false) false x = false ∧ x.crcOk = true ∧ x.seq % 256 = (s.link g false).expected ∧ s.unitAbsent x.target =
      false) ∧
    (∃ (s : State) (g : Nat) (x : CablePacket), g < 12 ∧ s.cable.links.length = 24 ∧ s.noInjection = true ∧ s.neverSent
      (s.link g false) false x = false ∧ x.crcOk = true ∧ x.seq % 256 = (s.link g false).expected ∧ s.unitAbsent x.target =
      true) ∧
    (∃ (s : State) (g : Nat) (x : CablePacket) (y : CableItem), g < 12 ∧ s.cable.links.length = 24 ∧ s.noInjection = true ∧
      x.crcOk = true ∧ x.seq % 256 = (s.link g true).expected ∧ s.cable.hub.find? (fun y => decide (y.source = x.source) &&
      decide (y.target = x.target)) = some y) ∧
    (∃ (s : State) (g : Nat) (h : Bool) (x : CablePacket), g < 12 ∧ s.cable.links.length = 24 ∧ s.noInjection = true ∧
      s.neverSent (s.link g h) h x = false ∧ (x.crcOk = false ∨ x.seq % 256 ≠ (s.link g h).expected) ∧ (s.link g
      h).discarding = false) ∧
    (∃ (s : State) (g : Nat) (h : Bool) (x : CablePacket), g < 12 ∧ s.cable.links.length = 24 ∧ s.noInjection = true ∧
      s.neverSent (s.link g h) h x = false ∧ x.crcOk = false ∧ x.seq % 256 = (s.link g h).expected ∧ (s.link g h).discarding
      = true) ∧
    (∃ (s : State) (g : Nat) (h : Bool) (x : CablePacket), g < 12 ∧ s.cable.links.length = 24 ∧ s.noInjection = true ∧
      s.neverSent (s.link g h) h x = false ∧ x.seq % 256 ≠ (s.link g h).expected ∧ (s.link g h).discarding = true) ∧
    (∃ (s : State) (g : Nat) (h : Bool), 8 ≤ (s.link g h).replays ∧ s.cable.failed.contains g = false) :=
  ⟨⟨running, 11, ⟨true, 0, false, .pair 3, .unit 0x01000000, 5⟩, by decide +kernel⟩,
   ⟨State.resetOf .s1h, 11, ⟨true, 0, false, .unit 0x01420000, .unit 0x01420000, 5⟩, by decide +kernel⟩,
   ⟨running.modCable fun c => { c with hub := [⟨.pair 3, .pair 0, 5⟩] }, 0, ⟨true, 0, false, .pair 3, .pair 0, 5⟩, ⟨.pair 3,
     .pair 0, 5⟩, by decide +kernel⟩,
   ⟨running, 0, false, ⟨false, 0, false, .pair 3, .unit 0x01000000, 5⟩, by decide +kernel⟩,
   ⟨running.modLink 0 false fun l => { l with discarding := true, awaited := 1, replays := 7 }, 0, false, ⟨false, 0, false,
     .pair 3, .unit 0x01000000, 5⟩, by decide +kernel⟩,
   ⟨running.modLink 0 false fun l => { l with discarding := true, awaited := 1, replays := 7 }, 0, false, ⟨true, 1, false,
     .pair 3, .unit 0x01000000, 5⟩, by decide +kernel⟩,
   ⟨(loadable.setFld (F.ACT_STATUS_LOAD_STATE 1) 2).modLink 2 false fun l => { l with replays := 8 }, 2, false, by
     decide +kernel⟩⟩

theorem witness_PowerOnPhases :
    (∃ (s : State), s.keeperRuns = false) ∧
    (∃ (s : State), s.early = true ∧ s.keeper.retry = false ∧ s.keeper.closing = false ∧ s.keeper.ramp12 = false) ∧
    (∃ (s : State) (n : Nat), n < 2 ∧ s.keeper.closing = true) ∧
    (∃ (s : State), s.keeper.closing = true) ∧
    (∃ (s : State), s.keeperRuns = true ∧ s.keeper.retry = true) ∧
    (∃ (s : State), s.early = true ∧ (s.keeper.closing = true ∨ s.keeper.ramp12 = true ∧ s.keeper.ramp5 = true)) ∧
    (∃ (s : State), s.early = true ∧ s.keeper.closing = false ∧ s.keeper.ramp12 = true ∧ s.keeper.ramp5 = true ∧
      s.keeper.railsGood < 5) ∧
    (∃ (s : State), s.early = true ∧ s.keeper.closing = false ∧ s.keeper.ramp12 = true ∧ s.keeper.ramp5 = true ∧
      s.keeper.railsGood = 5 ∧ s.pins.testMode = false) :=
  ⟨⟨State.reset, by decide +kernel⟩,
   ⟨starting, by decide +kernel⟩,
   ⟨starting.modKeeper fun k => { k with closing := true }, 1, by decide +kernel⟩,
   ⟨starting.modKeeper fun k => { k with closing := true }, by decide +kernel⟩,
   ⟨starting.modKeeper fun k => { k with retry := true }, by decide +kernel⟩,
   ⟨starting.modKeeper fun k => { k with closing := true }, by decide +kernel⟩,
   ⟨starting.modKeeper fun k => { k with ramp12 := true, ramp5 := true }, by decide +kernel⟩,
   ⟨starting.modKeeper fun k => { k with ramp12 := true, ramp5 := true, railsGood := 5 }, by decide +kernel⟩⟩

theorem witness_CastOnPhases :
    (∃ (s : State), s.keeper.inReset = true ∧ s.cast.cold = false ∧ s.keeper.hold = .none ∧ s.keeper.powered = true ∧
      s.keeper.halted = false ∧ s.keeper.bindOff = false ∧ s.pins.testMode = false) ∧
    (∃ (s : State) (n : Nat), s.fld F.SYS_CASTON_PHASE = 2 ∧ s.keeper.inReset = false ∧ n ≤ 192 - s.fuse.sramSpares) ∧
    (∃ (s : State), s.fld F.SYS_CASTON_PHASE = 2 ∧ s.keeper.inReset = false) ∧
    (∃ (s : State), s.fld F.SYS_CASTON_PHASE = 4 ∧ s.keeper.inReset = false) ∧
    (∃ (s : State) (l : List (Nat × Nat)), s.fld F.SYS_CASTON_PHASE = 5 ∧ s.keeper.inReset = false ∧ (l.filter fun f => f.1
      == 0).eraseDups.length ≤ s.fld F.MEM_THRESH_TEST_MAX ∧ (l.filter fun f => f.1 == 1).eraseDups.length ≤ s.fld
      F.MEM_THRESH_TEST_MAX) ∧
    (∃ (s : State), s.fld F.SYS_CASTON_PHASE = 6 ∧ s.keeper.inReset = false ∧ s.romOnly = false) ∧
    (∃ (s : State), s.fld F.SYS_CASTON_PHASE = 6 ∧ s.keeper.inReset = false ∧ s.romOnly = true) ∧
    (∃ (s : State), s.cast.legacyHeld = true) ∧
    (∃ (s : State), s.fld F.SYS_CASTON_PHASE = 7 ∧ s.keeper.inReset = false) ∧
    (∃ (s : State) (c : Nat) (x : Controller), c < 32 ∧ s.controller c = some x ∧ x.enabled = true ∧ s.rdy c = false ∧ s.fld
      F.SYS_CASTON_HOST_READY = 1 ∧ s.keeper.restoring = false ∧ s.activatesAtNssr = false ∧ s.hostResets = true) :=
  ⟨⟨(running.modKeeper fun k => { k with inReset := true }).modCast fun c => { c with cold := false }, by decide +kernel⟩,
   ⟨running.setFld F.SYS_CASTON_PHASE 2, 5, by decide +kernel⟩,
   ⟨running.setFld F.SYS_CASTON_PHASE 2, by decide +kernel⟩,
   ⟨running.setFld F.SYS_CASTON_PHASE 4, by decide +kernel⟩,
   ⟨running.setFld F.SYS_CASTON_PHASE 5, [(0, 3), (1, 4), (0, 3)], by decide +kernel⟩,
   ⟨running.setFld F.SYS_CASTON_PHASE 6, by decide +kernel⟩,
   ⟨(running.setFld F.SYS_CASTON_PHASE 6).setFld F.TIR_STATUS_STATE 4, by decide +kernel⟩,
   ⟨running.modCast fun c => { c with legacyHeld := true }, by decide +kernel⟩,
   ⟨running.setFld F.SYS_CASTON_PHASE 7, by decide +kernel⟩,
   ⟨(hosted.setFld F.SYS_CASTON_HOST_READY 1), 0, hostedCtl, by decide +kernel⟩⟩

theorem witness_PatternCommands :
    (∃ (s : State), s.fld F.PAT_STATUS_RELOAD_BUSY = 0) ∧
    (∃ (s : State), s.fld F.PAT_STATUS_RELOAD_BUSY = 1) ∧
    (∃ (s : State), s.fld F.PAT_STATUS_RELOAD_BUSY = 1) ∧
    (∃ (s : State), s.fld F.PAT_STATUS_RELOAD_BUSY = 1 ∧ s.fld F.PAT_STATUS_RELOAD_PEND = 0 ∧ 0x10000000 ≤ s.pattern.source ∧
      s.pattern.source < 0x13000000) ∧
    (∃ (s : State) (l : List PatternEntry) (d : Digest) (v : Nat), s.flow.lastPassed = true ∧ s.row.swapped = false ∧
      s.upd.activation = none ∧ s.pattern.waiting = some (l, d, v)) :=
  ⟨⟨running, by decide +kernel⟩,
   ⟨running.setFld F.PAT_STATUS_RELOAD_BUSY 1, by decide +kernel⟩,
   ⟨running.setFld F.PAT_STATUS_RELOAD_BUSY 1, by decide +kernel⟩,
   ⟨(running.setFld F.PAT_STATUS_RELOAD_BUSY 1).modPattern fun u => { u with source := 0x10000000 }, by decide +kernel⟩,
   ⟨running.modPattern fun u => { u with waiting := some ([], 0, 1) }, [], 0, 1, by decide +kernel⟩⟩

theorem witness_ResetsAndWatchdog :
    (∃ (s : State), s.keeper.inReset = false ∧ s.keeper.bindOff = false ∧ s.fld F.SYS_CASTON_PHASE ≠ 0xF) ∧
    (∃ (s : State), s.fld F.SYS_CASTON_PHASE = 0xF) ∧
    (∃ (_ : State) (k : Nat), k ≠ 0xA55A) ∧
    (∃ (s : State) (p : Nat), p < 5 ∧ s.standsInFor p = none ∧ s.pairRuns p = true ∧ (s.pair p).halted = false ∧ s.on
      (F.SYS_WDOG_PAIRS.at p) = true ∧ 0 < s.fld F.SYS_WDOG_PERIOD ∧ s.fld F.SYS_WDOG_PERIOD ≤ s.rowCount -
      s.cast.kicked.getD p 0 ∧ s.keeper.inReset = false ∧ s.keeper.bindOff = false ∧ s.fld F.SYS_CASTON_PHASE ≠ 0xF) ∧
    (∃ (s : State), s.cast.kicked.length = 5) ∧
    (∃ (_ : State) (period : Nat) (m : Nat), 0 < period ∧ period < 2 ^ 16 ∧ m < 2 ^ 5) ∧
    (∃ (s : State) (m : Nat), 0 < s.fld F.SYS_WDOG_PERIOD ∧ m < 2 ^ 5) :=
  ⟨⟨running, by decide +kernel⟩,
   ⟨running.setFld F.SYS_CASTON_PHASE 0xF, by decide +kernel⟩,
   ⟨running, 7, by decide +kernel⟩,
   ⟨((pairsUp.setFld F.SYS_WDOG_PAIRS 31).setFld F.SYS_WDOG_PERIOD 9).setFld F.ROWT_COUNT_LO_COUNT_LO 9, 4, by
     decide +kernel⟩,
   ⟨running, by decide +kernel⟩,
   ⟨running, 65535, 31, by decide +kernel⟩,
   ⟨running.setFld F.SYS_WDOG_PERIOD 4, 31, by decide +kernel⟩⟩

theorem witness_HostResets :
    (∃ (s : State), s.hostResets = true ∧ s.record.atReset = false) ∧
    (∃ (_ : State) (v : Nat), v ≠ 0x4E564D65) ∧
    (∃ (s : State) (p : Nat), p < 2 ∧ s.portExists p = true ∧ s.hostResets = true ∧ s.host.perst.length = 2) ∧
    (∃ (s : State) (p : Nat), p < 2 ∧ s.portExists p = true ∧ s.host.perst.length = 2 ∧ s.host.linkTraining.length = 2) ∧
    (∃ (s : State) (p : Nat) (f : Nat), p < 2 ∧ s.functionExists p f = true ∧ s.hostResets = true) ∧
    (∃ (s : State) (p : Nat), p < 2 ∧ s.portExists p = true ∧ s.hostResets = true ∧ s.host.vfEnable.length = 2) ∧
    (∃ (s : State) (c : Nat) (x : Controller), c < 32 ∧ s.controller c = some x ∧ x.enabled = true ∧ s.hostResets = true) ∧
    (∃ (s : State) (c : Nat) (x : Controller), s.controller c = some x ∧ x.enabled = false ∧ x.offline = false ∧
      s.functionExists (c / 16) (c % 16) = true ∧ s.hostResets = true ∧ s.on (F.HIF_PORT_STATUS_LINK_UP (c / 16)) = true) :=
  ⟨⟨hosted, by decide +kernel⟩,
   ⟨hosted, 0, by decide +kernel⟩,
   ⟨hosted, 0, by decide +kernel⟩,
   ⟨hosted, 0, by decide +kernel⟩,
   ⟨hosted, 0, 0, by decide +kernel⟩,
   ⟨hosted, 0, by decide +kernel⟩,
   ⟨hosted, 0, hostedCtl, by decide +kernel⟩,
   ⟨hosted.modController 0 fun y => { y with enabled := false }, 0, { hostedCtl with enabled := false }, by decide +kernel⟩⟩

theorem witness_HoldsAndBindOff :
    (∃ (s : State), s.keeperRuns = true ∧ s.keeper.bindOff = false ∧ s.keeper.hold = .none ∧ s.keeper.inReset = false) ∧
    (∃ (s : State), s.keeperRuns = true ∧ s.keeper.hold = .testMode ∧ s.on F.PWR_STATUS_SW12_ON = true ∧ s.on
      F.PWR_STATUS_SW5_ON = true ∧ s.keeper.railsGood = 6) ∧
    (∃ (s : State), s.keeperRuns = true ∧ s.keeper.hold = .testMode ∧ (s.on F.PWR_STATUS_SW12_ON = false ∨ s.on
      F.PWR_STATUS_SW5_ON = false)) ∧
    (∃ (s : State), s.keeper.bindOff = true) ∧
    (∃ (s : State), s.keeper.inReset = false) ∧
    (∃ (s : State), s.keeper.inReset = false) ∧
    (∃ (s : State), s.keeper.inReset = false) ∧
    (∃ (s : State), s.keeper.inReset = false ∧ s.keeper.bindOff = false) ∧
    (∃ (s : State), s.keeperRuns = true ∧ s.keeper.hold = .thermal ∧ s.pins.testMode = false ∧ s.on F.PWR_STATUS_SW12_ON =
      true ∧ s.on F.PWR_STATUS_SW5_ON = true ∧ s.keeper.railsGood = 6) ∧
    (∃ (s : State), s.keeperRuns = true ∧ s.keeper.hold = .thermal ∧ (s.on F.PWR_STATUS_SW12_ON = false ∨ s.on
      F.PWR_STATUS_SW5_ON = false)) ∧
    (∃ (s : State) (n : Nat), n < 2 ∧ s.keeperRuns = true ∧ s.on (switchFld n) = true) ∧
    (∃ (s : State) (n : Nat), n < 2 ∧ s.keeperRuns = true ∧ s.keeper.bindOff = false ∧ s.keeper.retry = false ∧
      (s.keeper.closing || (if n = 0 then s.keeper.ramp12 else s.keeper.ramp5)) = true ∧ (s.early && !s.keeper.closing) =
      false) ∧
    (∃ (s : State) (n : Nat), n < 2 ∧ s.keeper.retry = false ∧ s.keeper.bindOff = false ∧ s.keeper.closing = false ∧ (if n =
      0 then s.keeper.ramp12 else s.keeper.ramp5) = true ∧ s.early = true ∧ s.on (switchFld (1 - n)) = true ∧
      s.keeper.railsGood = 6 ∧ s.pins.testMode = false) ∧
    (∃ (s : State) (obs : BindOffObs), (obs.vin12 && obs.vin5) = false ∧ s.keeperRuns = true ∧ s.keeper.bindOff = false ∧
      s.early = false ∧ s.keeper.hold = .none) ∧
    (∃ (s : State), s.keeperRuns = true) ∧
    (∃ (s : State), s.keeper.bindOff = true ∧ s.keeper.boStep = 11) ∧
    (∃ (s : State), s.keeperRuns = true ∧ s.keeper.hold ≠ .none) :=
  ⟨⟨running, by decide +kernel⟩,
   ⟨(running.switches true).modKeeper fun k => { k with hold := .testMode, inReset := true, railsGood := 6 }, by
     decide +kernel⟩,
   ⟨running.modKeeper fun k => { k with hold := .testMode, inReset := true, railsGood := 6 }, by decide +kernel⟩,
   ⟨running.modKeeper fun k => { k with bindOff := true }, by decide +kernel⟩,
   ⟨running, by decide +kernel⟩,
   ⟨running, by decide +kernel⟩,
   ⟨running, by decide +kernel⟩,
   ⟨running, by decide +kernel⟩,
   ⟨(running.switches true).modKeeper fun k => { k with hold := .thermal, inReset := true, railsGood := 6 }, by
     decide +kernel⟩,
   ⟨running.modKeeper fun k => { k with hold := .thermal, inReset := true, railsGood := 6 }, by decide +kernel⟩,
   ⟨running.switches true, 0, by decide +kernel⟩,
   ⟨running.modKeeper fun k => { k with ramp12 := true, ramp5 := true }, 1, by decide +kernel⟩,
   ⟨(starting.flag F.PWR_STATUS_SW12_ON).modKeeper fun k => { k with ramp12 := true, ramp5 := true, railsGood := 6 }, 1, by
     decide +kernel⟩,
   ⟨running, ⟨false, true, 11, 0, 80⟩, by decide +kernel⟩,
   ⟨running, by decide +kernel⟩,
   ⟨running.modKeeper fun k => { k with bindOff := true, boStep := 11 }, by decide +kernel⟩,
   ⟨running.modKeeper fun k => { k with hold := .thermal, inReset := true }, by decide +kernel⟩⟩

theorem witness_EnergyAndSaves :
    (∃ (s : State) (a : Nat) (b : Nat), s.keeper.inReset = false ∧ a < 2 ^ 16 ∧ b < 2 ^ 16 ∧ (s.spnState = Spn.align ∨
      s.spnState = Spn.accel ∨ s.spnState = Spn.catchState)) ∧
    (∃ (s : State) (a : Nat) (b : Nat), s.keeper.inReset = false ∧ a < 2 ^ 16 ∧ b < 2 ^ 16 ∧ s.spnState ≠ Spn.align ∧
      s.spnState ≠ Spn.accel ∧ s.spnState ≠ Spn.catchState) ∧
    (∃ (s : State), s.keeper.inReset = false) ∧
    (∃ (s : State) (d : Nat), s.keeper.inReset = false ∧ s.fld F.ROWT_STATUS_SOURCE = 0 ∧ s.row.leaving = false ∧
      s.keeper.pendingEnergy = some d) ∧
    (∃ (s : State), s.on F.KEEP_STATUS_EARLY_SAVE = true) ∧
    (∃ (s : State), s.on F.KEEP_STATUS_ENERGY_HOLD = true ∧ s.spnState = Spn.run ∧ s.keeper.restoring = false ∧ (∀ x,
      s.newestSave = some x → x.descriptors.any s.stillDirty = false)) ∧
    (∃ (s : State) (x : Save), s.newestSave = some x ∧ x.descriptors.any s.stillDirty = true) ∧
    (∃ (s : State), s.keeper.inReset = false ∧ s.keeper.restoring = true ∧ (s.fld F.SYS_CASTON_PHASE = 7 ∨ s.fld
      F.SYS_CASTON_PHASE = 8) ∧ s.on F.STM_STATUS_READY = true ∧ s.newestSave = none) ∧
    (∃ (s : State) (x : Save), s.keeper.inReset = false ∧ s.keeper.restoring = true ∧ (s.fld F.SYS_CASTON_PHASE = 7 ∨ s.fld
      F.SYS_CASTON_PHASE = 8) ∧ s.on F.STM_STATUS_READY = true ∧ s.newestSave = some x ∧ x.zones.all (fun z => s.fld
      (F.ACT_STATUS_LOAD_STATE (s.zoneHome z).1) == 2) = true ∧ x.descCommit = false) ∧
    (∃ (s : State) (x : Save), s.keeper.inReset = false ∧ s.keeper.restoring = true ∧ (s.fld F.SYS_CASTON_PHASE = 7 ∨ s.fld
      F.SYS_CASTON_PHASE = 8) ∧ s.on F.STM_STATUS_READY = true ∧ s.newestSave = some x ∧ x.zones.all (fun z => s.fld
      (F.ACT_STATUS_LOAD_STATE (s.zoneHome z).1) == 2) = true ∧ x.chunks.flatten = []) ∧
    (∃ (s : State) (x : Save), s.keeper.inReset = false ∧ s.keeper.restoring = true ∧ (s.fld F.SYS_CASTON_PHASE = 7 ∨ s.fld
      F.SYS_CASTON_PHASE = 8) ∧ s.on F.STM_STATUS_READY = true ∧ s.newestSave = some x ∧ x.zones.all (fun z => s.fld
      (F.ACT_STATUS_LOAD_STATE (s.zoneHome z).1) == 2) = true ∧ (State.restorePages ((x.pages.1.map (s.sealPage false
      x.seq)).foldl (fun l q => insertPage q l) []) s).isSome = true) :=
  ⟨⟨running.setFld F.SPN_STATUS_STATE 2, 3000, 200, by decide +kernel⟩,
   ⟨running.setFld F.SPN_STATUS_STATE 3, 3000, 200, by decide +kernel⟩,
   ⟨running, by decide +kernel⟩,
   ⟨(running.setFld F.KEEP_MODEL_DIRTY_CEILING_MIB 512).modKeeper fun k => { k with pendingEnergy := some 320 }, 320, by
     decide +kernel⟩,
   ⟨(running.setFld F.KEEP_STATUS_EARLY_SAVE 1).modCast fun c => { c with built := true }, by decide +kernel⟩,
   ⟨((running.setFld F.KEEP_STATUS_ENERGY_HOLD 1).setFld F.SPN_STATUS_STATE 3), by decide +kernel⟩,
   ⟨(((running.setFld F.KEEP_STATUS_ENERGY_HOLD 1).setFld F.SPN_STATUS_STATE 3).modKeeper fun k =>
     { k with saves := [dirtySave] }).modFlow fun f => { f with slots := [dirtySlot] }, dirtySave, by decide +kernel⟩,
   ⟨((running.setFld F.SYS_CASTON_PHASE 7).setFld F.STM_STATUS_READY 1).modKeeper fun k =>
     { k with saves := [], restoring := true }, by decide +kernel⟩,
   ⟨((running.setFld F.SYS_CASTON_PHASE 7).setFld F.STM_STATUS_READY 1).modKeeper fun k =>
     { k with saves := [{ emptySave with descCommit := false, commit := false }], restoring := true },
     { emptySave with descCommit := false, commit := false }, by decide +kernel⟩,
   ⟨((running.setFld F.SYS_CASTON_PHASE 7).setFld F.STM_STATUS_READY 1).modKeeper fun k =>
     { k with saves := [emptySave], restoring := true }, emptySave, by decide +kernel⟩,
   ⟨((running.setFld F.SYS_CASTON_PHASE 7).setFld F.STM_STATUS_READY 1).modKeeper fun k =>
     { k with saves := [emptySave], restoring := true }, emptySave, by decide +kernel⟩⟩

theorem witness_WriteHold :
    (∃ (s : State), s.flow.checked = false ∧ s.flow.checksOff = false ∧ s.on F.ORD_LEDGER_STATUS_RECOUNT_PEND = false ∧
      s.failingAccounts ≠ 0 ∧ s.fld F.ORD_LEDGER_STATUS_FAULT_ROWS = 1 ∧ s.on F.ORD_LEDGER_STATUS_WRITE_HOLD = false ∧
      s.host.ledgerReads = []) ∧
    (∃ (s : State), s.flow.enterHold = true ∧ s.flow.checked = false) ∧
    (∃ (s : State), s.on F.ORD_LEDGER_STATUS_WRITE_HOLD = true) ∧
    (∃ (s : State), s.on F.ORD_LEDGER_STATUS_WRITE_HOLD = false) ∧
    (∃ (s : State), s.on F.ORD_LEDGER_STATUS_WRITE_HOLD = true) ∧
    (∃ (s : State), s.on F.ORD_LEDGER_STATUS_WRITE_HOLD = false) ∧
    (∃ (s : State), s.flow.checked = false ∧ s.flow.checksOff = false ∧ s.on F.ORD_LEDGER_STATUS_RECOUNT_PEND = false ∧
      s.failingAccounts = 0 ∧ s.on F.ORD_LEDGER_STATUS_RELEASE_PEND = true ∧ s.host.ledgerReads = []) ∧
    (∃ (s : State), s.flow.leaveHold = true ∧ s.flow.checked = false) ∧
    (∃ (s : State), s.flow.leaveHold = true ∧ s.flow.checked = false ∧ s.darn.required = []) :=
  ⟨⟨(running.setFld F.ORD_LEDGER_STATUS_FAULT_ROWS 1).modFlow fun f =>
     { f with checksOff := false, ledger := putAt 0 5 f.ledger }, by decide +kernel⟩,
   ⟨running.modFlow fun f => { f with enterHold := true }, by decide +kernel⟩,
   ⟨running.setFld F.ORD_LEDGER_STATUS_WRITE_HOLD 1, by decide +kernel⟩,
   ⟨running, by decide +kernel⟩,
   ⟨running.setFld F.ORD_LEDGER_STATUS_WRITE_HOLD 1, by decide +kernel⟩,
   ⟨running, by decide +kernel⟩,
   ⟨(balanced.setFld F.ORD_LEDGER_STATUS_WRITE_HOLD 1).setFld F.ORD_LEDGER_STATUS_RELEASE_PEND 1, by decide +kernel⟩,
   ⟨(running.setFld F.ORD_LEDGER_STATUS_WRITE_HOLD 1).modFlow fun f => { f with leaveHold := true }, by decide +kernel⟩,
   ⟨(running.setFld F.ORD_LEDGER_STATUS_WRITE_HOLD 1).modFlow fun f => { f with leaveHold := true }, by decide +kernel⟩⟩

theorem witness_SpindleCommands :
    (∃ (s : State), s.spnRefusal 1 = 0 ∧ s.spnState = Spn.stopped ∧ s.fld F.PAT_STATUS_STATE ≠ 3) ∧
    (∃ (s : State), s.spnRefusal 1 = 0 ∧ s.fld F.PAT_STATUS_STATE = 3) ∧
    (∃ (s : State), s.spnRefusal 1 ≠ 0) ∧
    (∃ (s : State), s.spnRefusal 2 = 0 ∧ s.spnState = Spn.run) ∧
    (∃ (s : State), s.spnRefusal 4 = 0 ∧ s.spnState = Spn.run) ∧
    (∃ (s : State), s.spnRefusal 8 = 0 ∧ s.spnState = Spn.locked) :=
  ⟨⟨motorSet, by decide +kernel⟩,
   ⟨motorSet.setFld F.PAT_STATUS_STATE 3, by decide +kernel⟩,
   ⟨running, by decide +kernel⟩,
   ⟨(running.setFld F.SPN_STATUS_STATE 3), by decide +kernel⟩,
   ⟨(running.setFld F.SPN_STATUS_STATE 3), by decide +kernel⟩,
   ⟨(running.setFld F.SPN_STATUS_STATE 8), by decide +kernel⟩⟩

theorem witness_SpindleStart :
    (∃ (s : State) (rate : Nat) (amp : Nat), s.spnState = Spn.catchState ∧ s.spn.catching = false ∧ rate * 1000 < 3 *
      s.ratedSpeed ∧ s.speedOfEmf amp * 1000 < 3 * s.ratedSpeed) ∧
    (∃ (s : State) (rate : Nat) (amp : Nat) (ang : Nat), s.spnState = Spn.catchState ∧ s.spn.catching = false ∧ (max rate
      (s.speedOfEmf amp) - min rate (s.speedOfEmf amp)) * 5 ≤ max rate (s.speedOfEmf amp) ∧ s.ratedSpeed * 5 ≤ rate * 100 ∧ 0
      < rate ∧ ang < 65536) ∧
    (∃ (s : State), s.spnState = Spn.catchState ∧ s.spn.catching = true ∧ 64 * 65536 ≤ s.spn.catchAngle) ∧
    (∃ (s : State), s.spnState = Spn.align) ∧
    (∃ (s : State), s.spnState = Spn.accel ∧ s.spn.eventInWindow = true) ∧
    (∃ (s : State), s.spnState = Spn.accel ∧ s.spn.eventInWindow = false ∧ s.fld F.SPN_STATUS_RETRY < 3) ∧
    (∃ (s : State), s.spnState = Spn.accel ∧ s.spn.eventInWindow = false ∧ s.fld F.SPN_STATUS_RETRY = 3) ∧
    (∃ (s : State), s.spnState = Spn.accel ∧ 256 ≤ s.spn.bandRows) ∧
    (∃ (s : State), 4096 ≤ s.spn.ofsRows) ∧
    (∃ (s : State), s.keeper.inReset = false) :=
  ⟨⟨(running.setFld F.SPN_STATUS_STATE 7), 0, 0, by decide +kernel⟩,
   ⟨motorSet.setFld F.SPN_STATUS_STATE 7, 700000, 20800, 65535, by decide +kernel⟩,
   ⟨(running.setFld F.SPN_STATUS_STATE 7).modSpn fun x => { x with catching := true, catchAngle := 4194304 }, by
     decide +kernel⟩,
   ⟨(running.setFld F.SPN_STATUS_STATE 1), by decide +kernel⟩,
   ⟨(running.setFld F.SPN_STATUS_STATE 2).modSpn fun x => { x with eventInWindow := true }, by decide +kernel⟩,
   ⟨(running.setFld F.SPN_STATUS_STATE 2), by decide +kernel⟩,
   ⟨((running.setFld F.SPN_STATUS_STATE 2).setFld F.SPN_STATUS_RETRY 3), by decide +kernel⟩,
   ⟨(running.setFld F.SPN_STATUS_STATE 2).modSpn fun x => { x with bandRows := 256 }, by decide +kernel⟩,
   ⟨running.modSpn fun x => { x with ofsRows := 4096, ofsSum := -4096 }, by decide +kernel⟩,
   ⟨(running.setFld F.SPN_STATUS_STATE 3), by decide +kernel⟩⟩

theorem witness_SpindleLosses :
    (∃ (s : State) (o : Int), s.spnState = Spn.hold ∧ s.fld F.SPN_STATUS_HOLD_MODE = 1 ∧ o.natAbs ≤ 728 ∧ s.spn.crossOk < 5) ∧
    (∃ (s : State), s.spnState = Spn.hold ∧ 64 * 65536 ≤ s.spn.holdAngle ∧ s.fld F.SPN_CTRL_AUTO_CATCH = 0) ∧
    (∃ (s : State), s.spnState = Spn.hold ∧ s.fld F.SPN_STATUS_HOLD_MODE = 1 ∧ 8 ≤ s.spn.crossLow) ∧
    (∃ (s : State), s.spnState = Spn.coast ∧ s.fld F.SPN_STATUS_COAST_CAUSE = 0) ∧
    (∃ (s : State) (a : Nat), s.spnState = Spn.coast ∧ s.fld F.SPN_STATUS_COAST_CAUSE = 1 ∧ s.fld (F.ACT_STATUS_LOAD_STATE a)
      = 2 ∧ a < 2) ∧
    (∃ (s : State), s.spnState = Spn.brake ∧ 50 * 10 ^ 9 ≤ s.spn.belowPs ∧ s.fld F.SPN_STATUS_START_PEND = 0) ∧
    (∃ (s : State), s.spnState = Spn.brake ∧ 50 * 10 ^ 9 ≤ s.spn.belowPs ∧ s.fld F.SPN_STATUS_START_PEND = 1) :=
  ⟨⟨(running.setFld F.SPN_STATUS_STATE 4).setFld F.SPN_STATUS_HOLD_MODE 1, -728, by decide +kernel⟩,
   ⟨(running.setFld F.SPN_STATUS_STATE 4).setFld F.SPN_CTRL_AUTO_CATCH 0 |>.modSpn fun x => { x with holdAngle := 4194304 },
     by decide +kernel⟩,
   ⟨(running.setFld F.SPN_STATUS_STATE 4).setFld F.SPN_STATUS_HOLD_MODE 1 |>.modSpn fun x => { x with crossLow := 8 }, by
     decide +kernel⟩,
   ⟨(running.setFld F.SPN_STATUS_STATE 5), by decide +kernel⟩,
   ⟨(running.setFld F.SPN_STATUS_STATE 5).setFld F.SPN_STATUS_COAST_CAUSE 1 |>.setFld (F.ACT_STATUS_LOAD_STATE 1) 2, 1, by
     decide +kernel⟩,
   ⟨(running.setFld F.SPN_STATUS_STATE 6).modSpn fun x => { x with belowPs := 50000000000 }, by decide +kernel⟩,
   ⟨(running.setFld F.SPN_STATUS_STATE 6).setFld F.SPN_STATUS_START_PEND 1 |>.modSpn fun x =>
     { x with belowPs := 50000000000 }, by decide +kernel⟩⟩

theorem witness_NeedleMailbox :
    (∃ (s : State) (n : Nat) (p : Nat) (q : Nat), n < 3 ∧ n < s.needles.length ∧ s.hasNeedle n = true ∧ s.drives n = true ∧
      (s.needle n).pushed.contains (s.pushTag n p q) = false ∧ 0 < s.avail (Class.creditFree n)) ∧
    (∃ (s : State) (n : Nat) (p : Nat) (q : Nat), n < 3 ∧ s.hasNeedle n = true ∧ (s.needle n).pushed.contains (s.pushTag n p
      q) = false ∧ (s.drives n = false ∨ s.avail (Class.creditFree n) = 0)) ∧
    (∃ (s : State) (n : Nat) (p : Nat) (q : Nat), n < 3 ∧ s.hasNeedle n = true ∧ (s.needle n).pushed.contains (s.pushTag n p
      q) = true) ∧
    (∃ (s : State) (n : Nat) (w0 : Word) (w1 : Word) (rest : List (Word × Word)), n < 3 ∧ n < s.needles.length ∧ (s.needle
      n).mailbox = (w0, w1) :: rest ∧ s.drives n = true ∧ (s.needle n).phase = true ∧ 0 < (s.needle n).due ∧ getBits w0 0 8 =
      1 ∧ s.commandCode n w0 w1 = 0 ∧ s.noInjection = true) ∧
    (∃ (s : State) (n : Nat) (w0 : Word) (w1 : Word) (rest : List (Word × Word)), n < 3 ∧ n < s.needles.length ∧ (s.needle
      n).mailbox = (w0, w1) :: rest ∧ s.drives n = true ∧ (s.needle n).phase = true ∧ 0 < (s.needle n).due ∧ getBits w0 0 8 =
      2 ∧ s.commandCode n w0 w1 = 0 ∧ s.noInjection = true) ∧
    (∃ (s : State) (n : Nat) (w0 : Word) (w1 : Word) (rest : List (Word × Word)), n < 3 ∧ n < s.needles.length ∧ (s.needle
      n).mailbox = (w0, w1) :: rest ∧ s.drives n = true ∧ (s.needle n).phase = true ∧ 0 < (s.needle n).due ∧ getBits w0 0 8 =
      3 ∧ s.commandCode n w0 w1 = 0 ∧ s.noInjection = true) ∧
    (∃ (s : State) (n : Nat) (w0 : Word) (w1 : Word) (rest : List (Word × Word)), n < 3 ∧ n < s.needles.length ∧ (s.needle
      n).mailbox = (w0, w1) :: rest ∧ s.drives n = true ∧ (s.needle n).phase = true ∧ 0 < (s.needle n).due ∧ getBits w0 0 8 =
      4 ∧ s.commandCode n w0 w1 = 0 ∧ s.noInjection = true) ∧
    (∃ (s : State) (n : Nat) (w0 : Word) (w1 : Word) (rest : List (Word × Word)), n < 3 ∧ n < s.needles.length ∧ (s.needle
      n).mailbox = (w0, w1) :: rest ∧ s.drives n = true ∧ (s.needle n).phase = true ∧ 0 < (s.needle n).due ∧ getBits w0 0 8 =
      5 ∧ s.commandCode n w0 w1 = 0 ∧ s.noInjection = true) ∧
    (∃ (s : State) (n : Nat) (w0 : Word) (w1 : Word) (rest : List (Word × Word)), n < 3 ∧ n < s.needles.length ∧ (s.needle
      n).mailbox = (w0, w1) :: rest ∧ s.drives n = true ∧ (s.needle n).phase = true ∧ 0 < (s.needle n).due ∧ getBits w0 0 8 =
      6 ∧ s.commandCode n w0 w1 = 0 ∧ s.noInjection = true) ∧
    (∃ (s : State) (n : Nat) (w0 : Word) (w1 : Word) (rest : List (Word × Word)), n < 3 ∧ n < s.needles.length ∧ (s.needle
      n).mailbox = (w0, w1) :: rest ∧ s.drives n = true ∧ (s.needle n).phase = true ∧ 0 < (s.needle n).due ∧ getBits w0 0 8 =
      7 ∧ s.commandCode n w0 w1 = 0 ∧ s.noInjection = true) ∧
    (∃ (s : State) (n : Nat) (w0 : Word) (w1 : Word) (rest : List (Word × Word)), n < 3 ∧ n < s.needles.length ∧ (s.needle
      n).mailbox = (w0, w1) :: rest ∧ s.drives n = true ∧ (s.needle n).phase = true ∧ 0 < (s.needle n).due ∧ (getBits w0 0 8
      = 0 ∨ 7 < getBits w0 0 8) ∧ s.noInjection = true) :=
  ⟨⟨ndlCredits, 1, 3, 7, by decide +kernel⟩,
   ⟨running, 2, 4, 9, by decide +kernel⟩,
   ⟨ndlCredits.modNeedle 1 fun x => { x with pushed := [ndlCredits.pushTag 1 3 7] }, 1, 3, 7, by decide +kernel⟩,
   ⟨ndlMail 1, 1, mailW 1, 0x00010000, [], by decide +kernel⟩,
   ⟨ndlMail 2, 1, mailW 2, 0x00010000, [], by decide +kernel⟩,
   ⟨ndlMail 3, 1, mailW 3, 0x00010000, [], by decide +kernel⟩,
   ⟨ndlMail 4, 1, mailW 4, 0x00010000, [], by decide +kernel⟩,
   ⟨ndlMail 5, 1, mailW 5, 0x00010000, [], by decide +kernel⟩,
   ⟨ndlMail 6, 1, mailW 6, 0x00010000, [], by decide +kernel⟩,
   ⟨ndlMail 7, 1, mailW 7, 0x00010000, [], by decide +kernel⟩,
   ⟨ndlMail 8, 1, mailW 8, 0x00010000, [], by decide +kernel⟩⟩

theorem witness_NeedleRow :
    (∃ (s : State) (n : Nat) (ns : Nat), n < 3 ∧ n < s.needles.length ∧ s.drives n = true ∧ (s.needle n).closed = false ∧
      (s.needle n).latched = false ∧ (s.needle n).halted = false ∧ ns ≤ 4500 ∧ s.runsGraph n = true ∧ s.noInjection = true) ∧
    (∃ (s : State) (n : Nat), n < 3 ∧ n < s.needles.length ∧ s.drives n = true ∧ (s.needle n).closed = false ∧ s.runsGraph n
      = true ∧ (s.needle n).phase = false ∧ (s.needle n).latched = true) ∧
    (∃ (s : State) (n : Nat), n < 3 ∧ n < s.needles.length ∧ s.drives n = true ∧ (s.needle n).closed = false ∧ s.runsGraph n
      = true ∧ (s.needle n).phase = false ∧ (s.needle n).latched = false ∧ s.fld (F.NDL_STATUS_OVR_RUN n) = 0) ∧
    (∃ (s : State) (n : Nat), n < 3 ∧ n < s.needles.length ∧ s.drives n = true ∧ (s.needle n).closed = false ∧ s.runsGraph n
      = true ∧ (s.needle n).phase = false ∧ (s.needle n).latched = false ∧ s.fld (F.NDL_STATUS_OVR_RUN n) = 1) ∧
    (∃ (s : State) (n : Nat), n < 3 ∧ n < s.needles.length ∧ s.drives n = true ∧ s.fld (F.NDL_STATUS_MODE n) = 2 ∧ (s.needle
      n).pendingMode = none ∧ max 1 (s.fld (F.NDL_SETTLE_ROWS n)) ≤ (s.needle n).settleRun) ∧
    (∃ (s : State) (n : Nat), n < 3 ∧ n < s.needles.length ∧ s.drives n = true ∧ s.fld (F.NDL_STATUS_MODE n) = 2 ∧ 512 ≤
      (s.needle n).settleRows ∧ (s.needle n).settleRun < max 1 (s.fld (F.NDL_SETTLE_ROWS n)) ∧ (s.needle n).pendingMode ≠
      some 3 ∧ (s.needle n).timeoutSeen = false) ∧
    (∃ (s : State) (n : Nat), n < 3 ∧ n < s.needles.length ∧ s.drives n = true ∧ 1 ≤ s.fld (F.NDL_STATUS_MODE n) ∧ s.fld
      (F.NDL_STATUS_MODE n) ≤ 3 ∧ s.modeSoFar n ≠ 4 ∧ s.modeSoFar n ≠ 5 ∧ s.fld (F.NDL_CTRL_MISS_MAX n) ≤ (s.needle
      n).missRun) ∧
    (∃ (s : State) (n : Nat), n < 3 ∧ n < s.needles.length ∧ s.drives n = true ∧ s.fld (F.NDL_STATUS_MODE n) = 4 ∧
      s.modeSoFar n ≠ 5 ∧ max 1 (s.fld (F.NDL_CTRL_HOLD_ROWS n)) ≤ (s.needle n).holdRows ∧ s.fld (F.NDL_STATUS_ACT n) < 2 ∧
      s.fld (F.ACT_STATUS_LOAD_STATE (s.fld (F.NDL_STATUS_ACT n))) = 2) :=
  ⟨⟨ndlRuns, 1, 4500, by decide +kernel⟩,
   ⟨ndlRuns.modNeedle 1 fun x => { x with latched := true }, 1, by decide +kernel⟩,
   ⟨ndlRuns, 1, by decide +kernel⟩,
   ⟨(ndlRuns.setFld (F.NDL_STATUS_OVR_RUN 1) 1), 1, by decide +kernel⟩,
   ⟨(ndlRuns.setFld (F.NDL_STATUS_MODE 1) 2).modNeedle 1 fun x => { x with settleRun := 65535 }, 1, by decide +kernel⟩,
   ⟨(ndlRuns.setFld (F.NDL_STATUS_MODE 1) 2).modNeedle 1 fun x => { x with settleRows := 512 }, 1, by decide +kernel⟩,
   ⟨(ndlRuns.setFld (F.NDL_STATUS_MODE 1) 3).modNeedle 1 fun x => { x with missRun := 65535 }, 1, by decide +kernel⟩,
   ⟨((ndlRuns.setFld (F.NDL_STATUS_MODE 1) 4).setFld (F.ACT_STATUS_LOAD_STATE 1) 2).modNeedle 1 fun x =>
     { x with holdRows := 65535 }, 1, by decide +kernel⟩⟩

theorem witness_NeedleFaults :
    (∃ (s : State) (n : Nat), n < 3 ∧ s.hasNeedle n = true ∧ s.fld (F.NDL_STATUS_ROLE n) ≠ 0 ∧ s.fld (F.NDL_STATUS_ROLE n) ≠
      5) ∧
    (∃ (s : State) (n : Nat), n < 3 ∧ n < s.needles.length ∧ s.hasNeedle n = true ∧ s.drives n = true ∧ s.runsGraph n = true) ∧
    (∃ (s : State) (n : Nat) (k : Nat), n < 3 ∧ n < s.needles.length ∧ (s.needle n).takeover = true ∧ s.swappedIn = none ∧
      (s.needle n).formerRole = 1 ∧ s.standby = some k ∧ s.fld (F.NDL_STATUS_ROLE k) = 2 ∧ k ≠ n ∧ k < s.needles.length ∧
      (s.needle n).formerAct < 2) ∧
    (∃ (s : State) (n : Nat) (k : Nat), n < 3 ∧ s.hasNeedle n = true ∧ s.swappedIn = none ∧ s.fld (F.NDL_STATUS_ROLE k) = 3 ∧
      k < 3 ∧ s.fld (F.NDL_STATUS_ROLE n) ≠ 0 ∧ s.fld (F.NDL_STATUS_ROLE n) ≠ 5) ∧
    (∃ (s : State) (n : Nat), n < 3 ∧ s.hasNeedle n = true ∧ s.drives n = true ∧ s.headsLoaded (s.fld (F.NDL_STATUS_ACT n)) =
      true) ∧
    (∃ (s : State) (n : Nat), n < 3 ∧ n < s.needles.length ∧ s.hasNeedle n = true ∧ s.fld (F.NDL_STATUS_ROLE n) = 2) ∧
    (∃ (s : State) (n : Nat), n < 3 ∧ n < s.needles.length ∧ s.hasNeedle n = true ∧ s.fld (F.NDL_STATUS_ROLE n) = 6 ∧
      (s.needle n).formerRole = 1) ∧
    (∃ (s : State) (a : Nat) (n : Nat) (v : Activation), s.upd.activation = some v ∧ v.components.headD 0 = 2 ∧ v.act = a ∧
      s.driver a = some n ∧ s.flow.lastPassed = true ∧ s.row.swapped = false ∧ s.headsLoaded a = false ∧ n < s.needles.length
      ∧ (s.needle n).fresh = false) :=
  ⟨⟨ndlRuns, 1, by decide +kernel⟩,
   ⟨ndlRuns, 1, by decide +kernel⟩,
   ⟨((ndlRuns.setFld (F.NDL_STATUS_ROLE 1) 5).setFld (F.NDL_STATUS_ROLE 2) 2).modNeedle 1 fun x =>
     { x with takeover := true, formerRole := 1, formerAct := 1, mailbox := [] }, 1, 2, by decide +kernel⟩,
   ⟨(ndlRuns.setFld (F.NDL_STATUS_ROLE 2) 3), 1, 2, by decide +kernel⟩,
   ⟨(ndlRuns.setFld (F.ACT_STATUS_LOAD_STATE 1) 2), 1, by decide +kernel⟩,
   ⟨(ndlRuns.setFld (F.NDL_STATUS_ROLE 2) 2), 2, by decide +kernel⟩,
   ⟨(ndlRuns.setFld (F.NDL_STATUS_ROLE 2) 6).modNeedle 2 fun x => { x with formerRole := 1 }, 2, by decide +kernel⟩,
   ⟨ndlRuns.modUpd fun u => { u with activation := some microcodeSwap }, 1, 1, microcodeSwap, by decide +kernel⟩⟩

theorem witness_LoadAndUnload :
    (∃ (s : State) (a : Nat), a < 2 ∧ a < s.acts.length ∧ s.hasAct a = true ∧ s.loadRefusal a = 0) ∧
    (∃ (s : State) (a : Nat), a < 2 ∧ a < s.acts.length ∧ s.hasAct a = true ∧ s.loadRefusal a ≠ 0) ∧
    (∃ (s : State) (a : Nat), a < 2 ∧ a < s.acts.length ∧ s.hasAct a = true ∧ s.fld (F.ACT_STATUS_LOAD_STATE a) = 2) ∧
    (∃ (s : State) (a : Nat), a < 2 ∧ a < s.acts.length ∧ s.hasAct a = true ∧ s.fld (F.ACT_STATUS_LOAD_STATE a) = 2) ∧
    (∃ (s : State) (a : Nat), a < 2 ∧ a < s.acts.length ∧ s.fld (F.ACT_STATUS_LOAD_STATE a) = 4) ∧
    (∃ (s : State) (a : Nat), a < 2 ∧ a < s.acts.length ∧ s.fld (F.ACT_STATUS_LOAD_STATE a) = 4) ∧
    (∃ (s : State) (a : Nat) (n : Nat), a < 2 ∧ a < s.acts.length ∧ n < 3 ∧ s.driver a = some n ∧ s.fld
      (F.ACT_STATUS_LOAD_STATE a) = 1 ∧ s.on (F.NDL_STATUS_LOCK n) = true) ∧
    (∃ (s : State) (a : Nat), a < 2 ∧ a < s.acts.length ∧ s.fld (F.ACT_STATUS_LOAD_STATE a) = 1) ∧
    (∃ (s : State) (a : Nat), a < 2 ∧ a < s.acts.length ∧ s.fld (F.ACT_STATUS_LOAD_STATE a) = 3 ∧ (s.act a).coil = .unloadEmf
      ∧ rampStopRuns ≤ (s.act a).still) ∧
    (∃ (s : State) (a : Nat), a < 2 ∧ a < s.acts.length ∧ s.fld (F.ACT_STATUS_LOAD_STATE a) = 3 ∧ (s.act a).coil = .rampHold) ∧
    (∃ (s : State) (a : Nat), a < 2 ∧ a < s.acts.length ∧ s.fld (F.ACT_STATUS_LOAD_STATE a) = 3 ∧ (s.act a).coil =
      .unloadEmf) :=
  ⟨⟨loadable, 1, by decide +kernel⟩,
   ⟨running, 1, by decide +kernel⟩,
   ⟨(running.setFld (F.ACT_STATUS_LOAD_STATE 1) 2), 1, by decide +kernel⟩,
   ⟨(running.setFld (F.ACT_STATUS_LOAD_STATE 1) 2), 1, by decide +kernel⟩,
   ⟨(running.setFld (F.ACT_STATUS_LOAD_STATE 1) 4), 1, by decide +kernel⟩,
   ⟨(running.setFld (F.ACT_STATUS_LOAD_STATE 1) 4), 1, by decide +kernel⟩,
   ⟨((ndlRuns.setFld (F.ACT_STATUS_LOAD_STATE 1) 1).setFld (F.NDL_STATUS_LOCK 1) 1), 1, 1, by decide +kernel⟩,
   ⟨(running.setFld (F.ACT_STATUS_LOAD_STATE 1) 1), 1, by decide +kernel⟩,
   ⟨(running.setFld (F.ACT_STATUS_LOAD_STATE 1) 3).modAct 1 fun x => { x with coil := .unloadEmf, still := 576 }, 1, by
     decide +kernel⟩,
   ⟨(running.setFld (F.ACT_STATUS_LOAD_STATE 1) 3).modAct 1 fun x => { x with coil := .rampHold }, 1, by decide +kernel⟩,
   ⟨(running.setFld (F.ACT_STATUS_LOAD_STATE 1) 3).modAct 1 fun x => { x with coil := .unloadEmf }, 1, by decide +kernel⟩⟩

theorem witness_PreampLink :
    (∃ (s : State) (a : Nat), a < 2 ∧ a < s.acts.length ∧ s.hasAct a = true ∧ s.fld (F.ACT_STATUS_LINK_FAULT a) = 1 ∧ s.fld
      (F.ACT_CTRL_LINK_EN a) = 1 ∧ s.fld (F.ACT_CTRL_DISABLE a) = 0) ∧
    (∃ (s : State) (a : Nat), a < 2 ∧ a < s.acts.length ∧ s.hasAct a = true ∧ s.fld (F.ACT_STATUS_LOAD_STATE a) = 0) ∧
    (∃ (s : State) (a : Nat), a < 2 ∧ s.hasAct a = true ∧ s.fld (F.ACT_STATUS_LOAD_STATE a) ≠ 0) ∧
    (∃ (s : State) (a : Nat), a < 2 ∧ s.hasAct a = true) ∧
    (∃ (s : State) (a : Nat), a < 2 ∧ a < s.acts.length ∧ s.hasAct a = true ∧ s.fld (F.ACT_CTRL_LINK_EN a) = 0 ∧ s.fld
      (F.ACT_CTRL_DISABLE a) = 0) ∧
    (∃ (s : State) (a : Nat) (h : Nat), a < 2 ∧ a < s.acts.length ∧ s.hasAct a = true ∧ h < s.headCount a ∧ h < 16 ∧
      s.flow.ops = []) ∧
    (∃ (s : State) (a : Nat) (h : Nat), a < 2 ∧ s.hasAct a = true ∧ s.headCount a ≤ h) ∧
    (∃ (s : State) (a : Nat) (h : Nat), a < 2 ∧ a < s.acts.length ∧ (s.act a).selecting = some h ∧ s.fld (F.ACT_STATUS_WG a)
      = 0 ∧ s.driver a = none ∧ (s.act a).linkOn = true ∧ s.fld (F.ACT_STATUS_LINK_FAULT a) = 0) ∧
    (∃ (s : State) (a : Nat) (ad : Nat) (d : Nat), a < 2 ∧ a < s.acts.length ∧ s.hasAct a = true ∧ ad < 256 ∧ d < 65536 ∧ ad
      ≠ s.fld (F.ACT_PAMAP_HEAD_ADDR a) ∧ ad ≠ s.fld (F.ACT_PAMAP_HEATER_ADDR a) ∧ ad ≠ s.fld (F.ACT_PAMAP_ASSIST_ADDR a)) ∧
    (∃ (s : State) (a : Nat), a < 2 ∧ s.hasAct a = true) ∧
    (∃ (s : State) (a : Nat) (c : Nat) (status : Nat) (d : Nat) (f : Frame), a < 2 ∧ a < s.acts.length ∧ s.noInjection = true
      ∧ s.nextFrame a = some f ∧ f.kind = .firmware ∧ c = crc8 24 (status * 65536 + d) ∧ status / 16 = 10 ∧ (f.read = true ∨
      d = f.data) ∧ d < 65536 ∧ status < 256) ∧
    (∃ (s : State) (a : Nat) (c : Nat) (status : Nat) (d : Nat) (h : Nat) (f : Frame), a < 2 ∧ a < s.acts.length ∧
      s.noInjection = true ∧ s.nextFrame a = some f ∧ f.kind = .headSelect h ∧ h < 16 ∧ c = crc8 24 (status * 65536 + d) ∧
      status / 16 = 10 ∧ (f.read = true ∨ d = f.data) ∧ d < 65536 ∧ status < 256) ∧
    (∃ (s : State) (a : Nat) (c : Nat) (status : Nat) (d : Nat) (f : Frame), a < 2 ∧ a < s.acts.length ∧ s.noInjection = true
      ∧ s.nextFrame a = some f ∧ (s.act a).inFlight = some f ∧ (s.act a).attempts < 3 ∧ c ≠ crc8 24 (status * 65536 + d)) :=
  ⟨⟨((running.setFld (F.ACT_STATUS_LINK_FAULT 1) 1).setFld (F.ACT_CTRL_LINK_EN 1) 1), 1, by decide +kernel⟩,
   ⟨running, 1, by decide +kernel⟩,
   ⟨(running.setFld (F.ACT_STATUS_LOAD_STATE 1) 2), 1, by decide +kernel⟩,
   ⟨(running.setFld (F.ACT_CTRL_DISABLE 1) 1), 1, by decide +kernel⟩,
   ⟨running, 1, by decide +kernel⟩,
   ⟨headed, 1, 9, by decide +kernel⟩,
   ⟨headed, 1, 10, by decide +kernel⟩,
   ⟨running.modAct 1 fun x => { x with selecting := some 4, linkOn := true }, 1, 4, by decide +kernel⟩,
   ⟨running, 1, 255, 65535, by decide +kernel⟩,
   ⟨running, 1, by decide +kernel⟩,
   ⟨running.modAct 1 fun x => { x with linkOn := true, fwFrame := some ⟨.firmware, true, 7, 0⟩ }, 1, crc8 24 (160 * 65536 +
     65535), 160, 65535, ⟨.firmware, true, 7, 0⟩, by decide +kernel⟩,
   ⟨running.modAct 1 fun x => { x with linkOn := true, queue := [running.selectFrame 1 4] }, 1, crc8 24 (160 * 65536 + 4),
     160, 4, 4, running.selectFrame 1 4, by decide +kernel⟩,
   ⟨running.modAct 1 fun x => { x with linkOn := true, inFlight := some ⟨.firmware, true, 7, 0⟩ }, 1, crc8 24 (160 * 65536 +
     65535) + 1, 160, 65535, ⟨.firmware, true, 7, 0⟩, by decide +kernel⟩⟩

theorem witness_CoilAndGate :
    (∃ (s : State) (a : Nat) (n : Nat), a < 2 ∧ a < s.acts.length ∧ s.hasAct a = true ∧ (s.act a).coil = .follow ∧ n < 3 ∧
      s.driver a = some n) ∧
    (∃ (s : State) (a : Nat), a < 2 ∧ a < s.acts.length ∧ s.hasAct a = true) ∧
    (∃ (s : State) (a : Nat) (i : Nat), a < 2 ∧ a < s.acts.length ∧ s.hasAct a = true ∧ s.pins.aen.length = 2 ∧ s.serves i a
      = true ∧ s.writesHere a = true ∧ (s.act a).settleUntil = none ∧ s.mayWrite a = true ∧ s.fld (F.ACT_STATUS_AEN a) = 0) ∧
    (∃ (s : State) (a : Nat) (i : Nat) (u : Nat) (time : Nat), a < 2 ∧ a < s.acts.length ∧ s.pins.wg.length = 2 ∧ (s.act
      a).lead = true ∧ (s.act a).wgRequest = some i ∧ s.mayWrite a = true ∧ (s.act a).aenSince = some u ∧ u + s.fld
      (F.ACT_TIMING_AEN_LEAD a) * 10000 ≤ time) ∧
    (∃ (s : State) (a : Nat) (time : Nat), a < 2 ∧ a < s.acts.length ∧ s.hasAct a = true ∧ s.hasLaser = true ∧ s.fld
      (F.ACT_STATUS_AEN a) = 1 ∧ s.laserLimit a (s.fld (F.ACT_STATUS_HEAD a)) ≤ s.accAt a time) :=
  ⟨⟨ndlRuns.modAct 1 fun x => { x with coil := .follow }, 1, 1, by decide +kernel⟩,
   ⟨running.modAct 1 fun x => { x with coil := .loadEmf }, 1, by decide +kernel⟩,
   ⟨writable, 1, 2, by decide +kernel⟩,
   ⟨writable.modAct 1 fun x => { x with lead := true, wgRequest := some 2, aenSince := some 5 }, 1, 2, 5, 9000000, by
     decide +kernel⟩,
   ⟨(running.setFld (F.ACT_STATUS_AEN 1) 1).modAct 1 fun x => { x with acc := [2500000000] }, 1, 77, by decide +kernel⟩⟩

theorem witness_SliceRecovery :
    (∃ (s : State) (i : Nat) (slot : Nat) (n : Nat), i < 5 ∧ i < s.slices.length ∧ s.hasSlice i = true ∧ s.fld
      (F.SLC_RECOV_STATUS_BUSY i) = 0 ∧ slot < 42 ∧ n < 256 ∧ (s.slice i).pinned.any (fun p => p.slot == slot) = true) ∧
    (∃ (s : State) (i : Nat) (slot : Nat) (span : Nat) (n : Nat), i < 5 ∧ i < s.slices.length ∧ s.hasSlice i = true ∧ s.fld
      (F.SLC_RECOV_STATUS_BUSY i) = 0 ∧ slot < 42 ∧ n < 256 ∧ (s.slice i).pinned.any (fun p => p.slot == slot) = true ∧ 0 <
      span ∧ span < 16) ∧
    (∃ (s : State) (i : Nat) (slot : Nat) (n : Nat), i < 5 ∧ i < s.slices.length ∧ s.hasSlice i = true ∧ s.fld
      (F.SLC_RECOV_STATUS_BUSY i) = 0 ∧ slot < 42 ∧ n < 256 ∧ (s.slice i).pinned.any (fun p => p.slot == slot) = true) ∧
    (∃ (s : State) (i : Nat) (slot : Nat), i < 5 ∧ i < s.slices.length ∧ s.hasSlice i = true ∧ s.fld (F.SLC_RECOV_STATUS_BUSY
      i) = 0 ∧ slot < 42 ∧ (s.slice i).pinned.any (fun p => p.slot == slot) = false) ∧
    (∃ (s : State) (i : Nat) (obs : DecodeObs) (q : RecoveryRequest) (p : PinnedSlot), i < 5 ∧ i < s.slices.length ∧
      s.noInjection = true ∧ (s.slice i).request = some q ∧ (s.slice i).automatic = [] ∧ (s.slice i).pinned.find? (fun p =>
      p.slot == q.slot) = some p ∧ obs.converged = false) ∧
    (∃ (s : State) (i : Nat) (lo : Nat) (hi : Nat), i < 5 ∧ i < s.slices.length ∧ s.hasSlice i = true ∧ lo < 2 ^ 32 ∧ hi < 2
      ^ 10) ∧
    (∃ (s : State) (i : Nat) (obs : DecodeObs) (j : SectorJob) (rest : List SectorJob), i < 5 ∧ i < s.slices.length ∧
      (s.slice i).received = j :: rest ∧ j.isVerify = false ∧ obs.converged = false ∧ j.drops ≠ 0 ∧ (s.slice
      i).automatic.length < 4) ∧
    (∃ (s : State) (i : Nat) (obs : DecodeObs) (j : SectorJob) (rest : List SectorJob) (o : MediaOp), i < 5 ∧ i <
      s.slices.length ∧ (s.slice i).received = j :: rest ∧ j.isVerify = false ∧ obs.converged = true ∧ obs.iterations ≤
      s.inlineLimit i (psaAct j.psa) (psaTrack j.psa) ∧ s.op j.op = some o ∧ s.tagOk o j.index = true ∧ o.purpose = .ladder) ∧
    (∃ (s : State) (i : Nat) (obs : DecodeObs) (j : SectorJob) (rest : List SectorJob), i < 5 ∧ i < s.slices.length ∧
      (s.slice i).automatic = j :: rest ∧ j.drops.testBit 2 = true ∧ obs.converged = true ∧ obs.iterations ≤ s.inlineLimit i
      (psaAct j.psa) (psaTrack j.psa)) :=
  ⟨⟨pinned, 4, 41, 0, by decide +kernel⟩,
   ⟨pinned, 4, 41, 15, 255, by decide +kernel⟩,
   ⟨pinned, 4, 41, 9, by decide +kernel⟩,
   ⟨running, 4, 41, by decide +kernel⟩,
   ⟨pinned.modSlice 4 fun x => { x with request := some pinRequest }, 4, ⟨false, 9, 9⟩, pinRequest, pinSlot, by
     decide +kernel⟩,
   ⟨pinned, 4, 0, 512, by decide +kernel⟩,
   ⟨running.modSlice 4 fun x => { x with received := [sectorJob] }, 4, ⟨false, 9, 9⟩, sectorJob, [], by decide +kernel⟩,
   ⟨reading, 4, ⟨true, 0, 9⟩, sectorJob, [], readOp, by decide +kernel⟩,
   ⟨reading.modSlice 4 fun x => { x with automatic := [sectorJob] }, 4, ⟨true, 0, 9⟩, sectorJob, [], by decide +kernel⟩⟩

theorem witness_SliceSeats :
    (∃ (s : State) (i : Nat) (k : Nat) (o : MediaOp), i < 5 ∧ i < s.slices.length ∧ s.noInjection = true ∧ s.serves i (s.fld
      (F.SLC_STATUS_ACT i)) = true ∧ (s.slice i).inFrame = false ∧ s.fld (F.SLC_STATUS_POSITION i) = 0 ∧ s.transferOp (s.fld
      (F.SLC_STATUS_ACT i)) false = some o ∧ o.kind ≠ .write ∧ s.nextSector i o = some k ∧ s.onHead o k = true) ∧
    (∃ (s : State) (i : Nat) (k : Nat) (o : MediaOp) (x : MediaSector), i < 5 ∧ i < s.slices.length ∧ s.serves i (s.fld
      (F.SLC_STATUS_ACT i)) = true ∧ (s.slice i).inFrame = false ∧ s.fld (F.SLC_STATUS_POSITION i) = 0 ∧ s.transferOp (s.fld
      (F.SLC_STATUS_ACT i)) false = some o ∧ o.kind = .write ∧ o.keySlot = none ∧ s.nextSector i o = some k ∧ s.onHead o k =
      true ∧ s.serialised o k = some x ∧ s.fld (F.ACT_STATUS_WG (s.fld (F.SLC_STATUS_ACT i))) = 1) ∧
    (∃ (s : State) (a : Nat), a < 2 ∧ s.hasAct a = true ∧ s.slices.length = 5) ∧
    (∃ (s : State) (i : Nat) (c : Nat), i < 5 ∧ i < s.slices.length ∧ s.hasSlice i = true ∧ s.fld (F.SLC_STATUS_ROLE i) = 1 ∧
      0 < c ∧ c < 6) ∧
    (∃ (s : State) (i : Nat) (k : Nat), i < 5 ∧ i < s.slices.length ∧ (s.slice i).takeover = true ∧ s.fld (F.SLC_STATUS_ROLE
      i) = 5 ∧ s.spareSlice = some k ∧ k ≠ i ∧ (s.slice i).formerAct < 2 ∧ (s.slice i).formerPos < 2) ∧
    (∃ (s : State) (i : Nat), i < 5 ∧ i < s.slices.length ∧ s.hasSlice i = true ∧ s.fld (F.SLC_STATUS_ROLE i) = 1) ∧
    (∃ (s : State) (i : Nat), i < 5 ∧ i < s.slices.length ∧ s.hasSlice i = true ∧ s.fld (F.SLC_STATUS_ROLE i) = 2) ∧
    (∃ (s : State) (i : Nat), i < 5 ∧ i < s.slices.length ∧ s.hasSlice i = true ∧ s.fld (F.SLC_STATUS_ROLE i) = 6 ∧ (s.slice
      i).formerRole = 2) ∧
    (∃ (s : State) (i : Nat), i < 5 ∧ i < s.slices.length ∧ (s.slice i).disabling = true ∧ (s.slice i).inFrame = false ∧
      s.fld (F.SLC_STATUS_ROLE i) = 1 ∧ s.gauge.running = none) :=
  ⟨⟨reading.modFlow fun f => { f with ops := [{ readOp with framed := [] }] }, 4, 0, { readOp with framed := [] }, by
     decide +kernel⟩,
   ⟨(reading.setFld (F.ACT_STATUS_WG 1) 1).modFlow fun f =>
     { f with ops := [{ readOp with framed := [], kind := .write, payload := [plainSector] }] }, 4, 0,
     { readOp with framed := [], kind := .write, payload := [plainSector] }, plainSector, by decide +kernel⟩,
   ⟨reading, 1, by decide +kernel⟩,
   ⟨reading, 4, 5, by decide +kernel⟩,
   ⟨((running.setFld (F.SLC_STATUS_ROLE 1) 5).setFld (F.SLC_STATUS_ROLE 4) 2).modSlice 1 fun x =>
     { x with takeover := true, formerAct := 1, formerPos := 0 }, 1, 4, by decide +kernel⟩,
   ⟨reading, 4, by decide +kernel⟩,
   ⟨(running.setFld (F.SLC_STATUS_ROLE 4) 2), 4, by decide +kernel⟩,
   ⟨(running.setFld (F.SLC_STATUS_ROLE 4) 6).modSlice 4 fun x => { x with formerRole := 2 }, 4, by decide +kernel⟩,
   ⟨reading.modSlice 4 fun x => { x with disabling := true }, 4, by decide +kernel⟩⟩

theorem witness_WalkerRequests :
    (∃ (s : State) (d : Nat), s.stitch.rebuilding = [] ∧ s.snapshotOf (d / zoneSectors) = none) ∧
    (∃ (s : State) (d : Nat) (n : Nat) (phys : Nat) (gen : Nat) (cache : Bool) (uw : Bool) (ur : Bool) (np : Bool),
      s.stitch.rebuilding = [] ∧ s.stitch.held = [] ∧ s.journalFull = false ∧ d / zoneSectors < s.zoneTotal ∧ (s.zdesc (d /
      zoneSectors)).gen = gen ∧ 1 ≤ n ∧ d + n ≤ (d / zoneSectors + 1) * zoneSectors ∧ (s.leavesWith (⟨d, n, if uw || ur then
      0 else phys, gen % 65536, cache, uw, ur, np, true⟩ : MapEntry)).length ≤ leafTotal ∧ (uw = true ∨ ur = true ∨ cache =
      true ∨ s.layoutPsa d ≠ phys)) ∧
    (∃ (s : State) (d : Nat) (gen : Nat), s.stitch.rebuilding = [] ∧ s.stitch.held = [] ∧ s.journalFull = false ∧ d /
      zoneSectors < s.zoneTotal ∧ (s.zdesc (d / zoneSectors)).gen ≠ gen) ∧
    (∃ (s : State) (d : Nat) (n : Nat) (phys : Nat) (gen : Nat) (cache : Bool) (uw : Bool) (ur : Bool) (np : Bool),
      s.stitch.rebuilding = [] ∧ s.stitch.held = [] ∧ s.journalFull = false ∧ d / zoneSectors < s.zoneTotal ∧ (s.zdesc (d /
      zoneSectors)).gen = gen ∧ 1 ≤ n ∧ d + n ≤ (d / zoneSectors + 1) * zoneSectors ∧ leafTotal < (s.leavesWith (⟨d, n, if uw
      || ur then 0 else phys, gen % 65536, cache, uw, ur, np, true⟩ : MapEntry)).length ∧ s.noInjection = true) ∧
    (∃ (s : State) (d : Nat) (n : Nat) (gen : Nat) (e : MapEntry), s.stitch.rebuilding = [] ∧ s.stitch.held = [] ∧
      s.journalFull = false ∧ s.entryAt d = some e ∧ (s.zdesc (d / zoneSectors)).gen = gen ∧ e.length ≤ n ∧ e.lstart + n ≤
      (e.lstart / zoneSectors + 1) * zoneSectors ∧ s.isLayout e = false ∧ (s.leavesWith
      { e with length := n, pending := true }).length ≤ leafTotal) ∧
    (∃ (s : State) (d : Nat) (gen : Nat), s.stitch.rebuilding = [] ∧ s.stitch.held = [] ∧ s.journalFull = false ∧ s.entryAt d
      = none ∧ (s.zdesc (d / zoneSectors)).gen = gen) ∧
    (∃ (s : State) (gen : Nat) (e : MapEntry), s.stitch.rebuilding = [] ∧ s.stitch.held = [] ∧ s.journalFull = false ∧
      e.lstart / zoneSectors < s.zoneTotal ∧ s.entryAt e.lstart = some e ∧ (s.zdesc (e.lstart / zoneSectors)).gen = gen ∧ 1 ≤
      e.length ∧ e.lstart + e.length ≤ (e.lstart / zoneSectors + 1) * zoneSectors ∧ (s.leavesWith
      { e with unreadable := true, phys := 0, pending := true }).length ≤ leafTotal) ∧
    (∃ (s : State) (z : Nat), s.stitch.rebuilding = [] ∧ s.stitch.held = [] ∧ s.journalFull = false ∧ z < s.zoneTotal ∧
      (s.zdesc z).gen < 0xFFFFFFFF) ∧
    (∃ (s : State) (z : Nat), s.stitch.rebuilding = [] ∧ s.stitch.held = [] ∧ s.journalFull = false ∧ z < s.zoneTotal ∧
      (s.zdesc z).gen = 0xFFFFFFFF) ∧
    (∃ (s : State) (z : Nat) (wp : Nat) (code : Nat) (used : Nat) (st : ZoneState), s.stitch.rebuilding = [] ∧ s.stitch.held
      = [] ∧ s.journalFull = false ∧ z < s.zoneTotal ∧ wp < 2 ^ 17 ∧ used < 2 ^ 11 ∧ ZoneState.ofCode code = some st) :=
  ⟨⟨mapped, 131075, by decide +kernel⟩,
   ⟨mapped, 131076, 65532, 777, 0, false, false, false, false, by decide +kernel⟩,
   ⟨mapped, 131076, 1, by decide +kernel⟩,
   ⟨zoned.modStitch fun x =>
     { x with leaves := List.replicate 16383 [⟨0, 1, 0, 0, true, false, false, false, false⟩] ++ [List.replicate 256 ⟨131072, 1, 0, 0, true, false, false, false, false⟩] },
     163835, 5, 777, 0, false, false, false, false, by decide +kernel⟩,
   ⟨mapped, 131077, 65536, 0, mapEntry, by decide +kernel⟩,
   ⟨mapped, 131082, 0, by decide +kernel⟩,
   ⟨mapped, 0, mapEntry, by decide +kernel⟩,
   ⟨mapped, 2, by decide +kernel⟩,
   ⟨zoned.setZdesc 3 ⟨0xFFFFFFFF, 0, 7, .full, 0⟩, 3, by decide +kernel⟩,
   ⟨mapped, 3, 65536, 4, 2047, .full, by decide +kernel⟩⟩

theorem witness_MapUpkeep :
    (∃ (s : State) (l : List MapEntry) (m : List MapEntry) (rest : List (List MapEntry)), s.stitch.rebuilding = [] ∧
      s.stitch.held = [] ∧ s.fld F.STM_LEAVES_FREE < s.fld F.STM_CTRL_LOW_LEAVES ∧ s.stitch.leaves = l :: m :: rest ∧
      l.length < 128 ∧ m.length < 128 ∧ rest.length + 1 ≤ leafTotal) ∧
    (∃ (s : State) (e : MapEntry) (l : List MapEntry) (rest : List (List MapEntry)), s.stitch.rebuilding = [] ∧ s.stitch.held
      = [] ∧ s.stitch.leaves = (e :: l) :: rest ∧ s.stale e = true) ∧
    (∃ (s : State), 128 ≤ s.stitch.page.length) ∧
    (∃ (s : State), s.stitch.page ≠ [] ∧ s.stitch.page.length < 128 ∧ 4 ≤ s.stitch.pageAge) ∧
    (∃ (s : State) (r : JournalRecord) (rest : List (List JournalRecord)), s.stitch.held = [] ∧ s.stitch.written = [r] ::
      rest ∧ r.seq < 2 ^ 64) ∧
    (∃ (s : State), s.fld F.STM_CTRL_CKPT_PAGES ≤ s.stitch.pagesSince ∧ s.stitch.writing = none) ∧
    (∃ (s : State) (k : Nat), s.stitch.writing = none ∧ s.stitch.checkpoints ≠ [] ∧ s.fld F.STM_STATUS_CKPT_SLOT = k) ∧
    (∃ (s : State) (k : Nat) (c : Checkpoint), s.stitch.writing = some (k, c) ∧ k < 2) ∧
    (∃ (s : State), s.keeper.inReset = false ∧ s.cast.built = true ∧ s.fld F.STM_STATUS_READY = 0) ∧
    (∃ (s : State) (c : Checkpoint) (rest : List Checkpoint), s.keeper.inReset = false ∧ s.cast.built = true ∧ s.fld
      F.STM_STATUS_READY = 0 ∧ s.stitch.checkpoints = c :: rest ∧ c.complete = true ∧ s.stitch.journal = [] ∧
      s.stitch.savedTail = []) ∧
    (∃ (s : State) (a : Nat) (z : Nat) (records : List (Nat × Nat × Nat)), s.stitch.rebuilding = [] ∧ s.stitch.held = [] ∧
      s.offMedia + 2 ≤ 65536 ∧ s.oldestCache a = some (z, records) ∧ s.fld F.STM_STATUS_READY = 1 ∧ s.liveIn records = [] ∧
      s.logZone a 1 ≠ some z ∧ (s.zdesc z).gen < 0xFFFFFFFF ∧ s.darn.required = []) ∧
    (∃ (s : State) (k : Nat), s.stitch.rebuilding = [k] ∧ s.stitch.heldRebuild = []) ∧
    (∃ (s : State) (k : Nat) (d : Nat), s.stitch.rebuilding = [k] ∧ s.stitch.heldRebuild = [.lookup d 1] ∧
      ((s.stitch.leaves.find? fun l => leafKey l == k).getD []).all (fun e => !e.pending) = true) :=
  ⟨⟨(zoned.setFld F.STM_CTRL_LOW_LEAVES 100).setFld F.STM_LEAVES_FREE 99 |>.modStitch fun x =>
     { x with leaves := [[mapEntry], [mapEntry], [mapEntry]] }, [mapEntry], [mapEntry], [[mapEntry]], by decide +kernel⟩,
   ⟨mapped.modStitch fun x => { x with zones := [(2, ⟨5, 0, 0, .full, 0⟩)] }, mapEntry, [], [], by decide +kernel⟩,
   ⟨zoned.modStitch fun x => { x with page := List.replicate 128 ⟨1, .genBump 2, none, 2, ⟨1, 0, 0, .empty, 0⟩⟩ }, by
     decide +kernel⟩,
   ⟨zoned.modStitch fun x => { x with pageAge := 4, page := [⟨1, .genBump 2, none, 2, ⟨1, 0, 0, .empty, 0⟩⟩] }, by
     decide +kernel⟩,
   ⟨zoned.modStitch fun x => { x with written := [[⟨0x100000001, .genBump 2, none, 2, ⟨1, 0, 0, .empty, 0⟩⟩]] },
     ⟨0x100000001, .genBump 2, none, 2, ⟨1, 0, 0, .empty, 0⟩⟩, [], by decide +kernel⟩,
   ⟨mapped.modStitch fun x => { x with pagesSince := 65535 }, by decide +kernel⟩,
   ⟨mapped.modStitch fun x => { x with checkpoints := [⟨0, [], [], true⟩] }, 0, by decide +kernel⟩,
   ⟨mapped.modStitch fun x => { x with writing := some (1, ⟨5, [], [], false⟩) }, 1, ⟨5, [], [], false⟩, by decide +kernel⟩,
   ⟨(mapped.modCast fun c => { c with built := true }).modStitch fun x =>
     { x with journal := [⟨1, .genBump 2, none, 2, ⟨1, 0, 0, .empty, 0⟩⟩] }, by decide +kernel⟩,
   ⟨(mapped.modCast fun c => { c with built := true }).modStitch fun x =>
     { x with checkpoints := [⟨0, [[mapEntry]], [], true⟩] }, ⟨0, [[mapEntry]], [], true⟩, [], by decide +kernel⟩,
   ⟨((zoned.setZdesc 1 ⟨0, 0, 65536, .cache, 0⟩).flag F.STM_STATUS_READY).modStitch fun x =>
     { x with cacheLog := [(1, [])] }, 0, 1, [], by decide +kernel⟩,
   ⟨mapped.modStitch fun x => { x with rebuilding := [131072] }, 131072, by decide +kernel⟩,
   ⟨zoned.modStitch fun x => { x with rebuilding := [131072], heldRebuild := [.lookup 131072 1] }, 131072, 131072, by
     decide +kernel⟩⟩

theorem witness_QueuesAndFetch :
    (∃ (s : State) (c : Nat) (q : Nat) (v : Nat) (k : Controller) (r : Ring), s.noInjection = true ∧ s.controller c = some k
      ∧ k.enabled = true ∧ s.ownsQueue c q false = true ∧ s.ring (s.sqRing c q) = some r ∧ v < r.size) ∧
    (∃ (s : State) (c : Nat) (q : Nat) (v : Nat) (k : Controller) (r : Ring), s.noInjection = true ∧ s.controller c = some k
      ∧ k.enabled = true ∧ s.ownsQueue c q true = true ∧ s.ring (s.cqRing c q) = some r ∧ v < r.size) ∧
    (∃ (s : State) (p : Nat) (c : Nat) (r : Ring) (q : Sqe) (rest : List Sqe) (pool : Pool), p < 3 ∧ s.pairServed p = true ∧
      s.handoverHolds p = false ∧ s.keeper.bindOff = false ∧ s.keeper.inReset = false ∧ s.noInjection = true ∧ s.fetchSkeins
      p = [c] ∧ s.readyRings c 0 = [] ∧ (s.weightsOf c).2.2.2 = 1 ∧ s.ring (s.sqRing c 0) = some r ∧ r.entries = q :: rest ∧
      s.poolFor c false = some pool) ∧
    (∃ (s : State) (p : Nat), p < 3 ∧ s.fetchSkeins p = []) ∧
    (∃ (s : State) (n : Nat) (x : Slot) (e : ControllerEntry), s.freshAdmin n 5 = some x ∧ s.heard x = true ∧ s.noInjection =
      true ∧ s.createStatus x true = 0 ∧ s.entryOf x.skein = some e ∧ x.sqe.cdw11 / 2 ^ 16 % 2 ^ 16 < e.msix) ∧
    (∃ (s : State) (n : Nat) (x : Slot), s.freshAdmin n 5 = some x ∧ s.heard x = true ∧ s.noInjection = true ∧ s.validQid x
      true = false) ∧
    (∃ (s : State) (n : Nat) (x : Slot) (r : Ring), s.freshAdmin n 1 = some x ∧ s.heard x = true ∧ s.noInjection = true ∧
      s.createStatus x false = 0 ∧ x.sqe.cdw11 / 2 ^ 16 % 2 ^ 16 ≠ 0 ∧ s.ownsQueue x.skein (x.sqe.cdw11 / 2 ^ 16 % 2 ^ 16)
      true = true ∧ s.ring (s.cqRing x.skein (x.sqe.cdw11 / 2 ^ 16 % 2 ^ 16)) = some r) ∧
    (∃ (s : State) (n : Nat) (x : Slot), s.freshAdmin n 0 = some x ∧ s.heard x = true ∧ s.noInjection = true ∧ s.deletable x
      false = true ∧ s.flow.slots.any (fun y => y.ring == s.qidRing x false && !y.orphan) = false) ∧
    (∃ (s : State) (n : Nat) (x : Slot) (e : ControllerEntry), s.freshAdmin n 4 = some x ∧ s.heard x = true ∧ s.noInjection =
      true ∧ s.deletable x true = true ∧ s.entryOf x.skein = some e ∧ s.host.rings.any (fun q => s.sqRing x.skein 0 < q.num
      && q.num < s.sqRing x.skein 0 + e.sqMax && q.link == Sqe.qid x.sqe) = false) ∧
    (∃ (s : State) (n : Nat) (x : Slot) (e : ControllerEntry), s.freshAdmin n 4 = some x ∧ s.heard x = true ∧ s.noInjection =
      true ∧ s.deletable x true = true ∧ s.entryOf x.skein = some e ∧ s.host.rings.any (fun q => s.sqRing x.skein 0 < q.num
      && q.num < s.sqRing x.skein 0 + e.sqMax && q.link == Sqe.qid x.sqe) = true) ∧
    (∃ (s : State) (n : Nat) (x : Slot), s.freshAdmin n 8 = some x ∧ s.heard x = true ∧ s.noInjection = true ∧
      s.flow.slots.find? (fun y => y.skein == x.skein && y.ring == s.sqRing x.skein (x.sqe.cdw10 % 2 ^ 16) && y.sqe.cid ==
      x.sqe.cdw10 / 2 ^ 16 % 2 ^ 16 && s.abortable y) = none) ∧
    (∃ (s : State) (n : Nat) (x : Slot) (y : Slot), s.freshAdmin n 8 = some x ∧ s.heard x = true ∧ s.noInjection = true ∧
      s.flow.slots.find? (fun y => y.skein == x.skein && y.ring == s.sqRing x.skein (x.sqe.cdw10 % 2 ^ 16) && y.sqe.cid ==
      x.sqe.cdw10 / 2 ^ 16 % 2 ^ 16 && s.abortable y) = some y ∧ s.slot y.num = some y ∧ y.isWrite = false ∧ y.num ≠ n ∧
      s.heard y = true) :=
  ⟨⟨attached, 0, 1, 15, { hostedCtl with css := 6 }, ⟨1, 16, 0, 0, 2, 1, []⟩, by decide +kernel⟩,
   ⟨attached, 0, 1, 15, { hostedCtl with css := 6 }, ⟨4097, 16, 0, 0, 0, 1, []⟩, by decide +kernel⟩,
   ⟨(((attached.setReg R.SYS_PAIR_STATUS 0x0F311111).setFld (F.HIF_CTRL_RDY_RDY.at 0) 1).setFld F.QUE_FETCH_HOLD_HOLD
     0).modHost (fun h =>
     { h with controllers := [{ hostedCtl with css := 6, weights := some (1, 1, 1, 1) }], rings := [⟨0, 16, 15, 1, 0, 0, [sqe 6 0 0, sqe 2 0 0]⟩] })
     |>.modFlow fun f => { f with census := [1000, 0] }, 0, 0, ⟨0, 16, 15, 1, 0, 0, [sqe 6 0 0, sqe 2 0 0]⟩, sqe 6 0 0, [sqe
     2 0 0], .shared, by decide +kernel⟩,
   ⟨attached, 2, by decide +kernel⟩,
   ⟨adm 5 983042 196609, 7, admSlot 5 983042 196609, ⟨0, 0, 0, 8, 8, 4⟩, by decide +kernel⟩,
   ⟨adm 5 983048 196609, 7, admSlot 5 983048 196609, by decide +kernel⟩,
   ⟨adm 1 1073676295 65541, 7, admSlot 1 1073676295 65541, ⟨4097, 16, 0, 0, 0, 1, []⟩, by decide +kernel⟩,
   ⟨adm 0 1 0, 7, admSlot 0 1 0, by decide +kernel⟩,
   ⟨(adm 4 1 0).modHost fun h => { h with rings := [⟨0, 16, 0, 0, 0, 0, []⟩, ⟨4097, 16, 0, 0, 0, 1, []⟩] }, 7, admSlot 4 1 0,
     ⟨0, 0, 0, 8, 8, 4⟩, by decide +kernel⟩,
   ⟨adm 4 1 0, 7, admSlot 4 1 0, ⟨0, 0, 0, 8, 8, 4⟩, by decide +kernel⟩,
   ⟨adm 8 2162689 0, 7, admSlot 8 2162689 0, by decide +kernel⟩,
   ⟨(adm 8 0x00210001 0).modFlow fun f => { f with slots := f.slots ++ [{ ioSlot 2 0 0 with num := 8 }] }, 7, admSlot 8
     2162689 0, { ioSlot 2 0 0 with num := 8 }, by decide +kernel⟩⟩

theorem witness_PortsAndDriveFirmware :
    (∃ (s : State) (p : Nat) (speed : Nat) (width : Nat), p < 2 ∧ s.host.linkTraining.getD p false = true ∧ 1 ≤ speed ∧ speed
      ≤ 5 ∧ (width = 1 ∨ width = 2)) ∧
    (∃ (s : State) (p : Nat), p < 2 ∧ s.fld (F.HIF_PORT_STATUS_LINK_UP p) = 1) ∧
    (∃ (s : State) (p : Nat) (m : Nat), p < 2 ∧ m < 16 ∧ s.functionExists p 0 = true ∧ s.host.vfEnable.length = 2 ∧
      s.host.vfEnable.getD p false = false ∧ m ≤ s.totalVfs p ∧ s.hostResets = true) ∧
    (∃ (s : State) (p : Nat), p < 2 ∧ s.portExists p = true) ∧
    (∃ (s : State) (p : Nat) (c : Nat), p < 2 ∧ s.portExists p = true ∧ c < 32) ∧
    (∃ (s : State) (ty : Nat) (info : Nat) (k : Controller), ty < 8 ∧ info < 256 ∧ s.host.controllers = [k] ∧ s.fld
      (F.HIF_AEN_MASK_MASK.at k.cntlid) = 1 ∧ k.cntlid < 32 ∧ k.enabled = true ∧ k.aers = [] ∧ k.aerMasked = [] ∧
      asyncConfigMasks k.aecMask ty info = false) ∧
    (∃ (_ : State) (mask : Nat), 0 < mask ∧ mask < 2 ^ 32) ∧
    (∃ (_ : State) (mask : Nat), mask < 2 ^ 32) ∧
    (∃ (s : State) (c : Nat) (v : Nat) (k : Nat) (x : Controller), s.controller c = some x ∧ kget v x.coalescing = some k ∧
      s.fld (F.HIF_PORT_STATUS_LINK_UP (c / 16)) = 1) :=
  ⟨⟨running.modHost fun h => { h with linkTraining := [true, true] }, 1, 5, 2, by decide +kernel⟩,
   ⟨running.setReg (R.HIF_PORT_STATUS 1) 0xFFFFFFFF, 1, by decide +kernel⟩,
   ⟨attached, 0, 1, by decide +kernel⟩,
   ⟨attached, 0, by decide +kernel⟩,
   ⟨attached, 0, 31, by decide +kernel⟩,
   ⟨hosted.setReg R.HIF_AEN_MASK 1, 7, 255, hostedCtl, by decide +kernel⟩,
   ⟨attached, 0x80000000, by decide +kernel⟩,
   ⟨attached, 0xFFFFFFFF, by decide +kernel⟩,
   ⟨attached.modController 0 fun y => { y with coalescing := [(3, 2)] }, 0, 3, 2,
     { hostedCtl with css := 6, coalescing := [(3, 2)] }, by decide +kernel⟩⟩

theorem witness_AdminCommands :
    (∃ (s : State) (n : Nat) (x : Slot) (c : Controller), s.freshAdmin n 9 = some x ∧ s.heard x = true ∧ s.noInjection = true
      ∧ x.sqe.cdw10 % 256 = 0x0B ∧ x.sqe.cdw10.testBit 31 = false ∧ s.controller x.skein = some c) ∧
    (∃ (s : State) (n : Nat) (x : Slot), s.freshAdmin n 9 = some x ∧ s.heard x = true ∧ s.noInjection = true ∧ x.sqe.cdw10 %
      256 = 0x0B ∧ x.sqe.cdw10.testBit 31 = true) ∧
    (∃ (s : State) (n : Nat) (x : Slot), s.freshAdmin n 9 = some x ∧ s.heard x = true ∧ s.noInjection = true ∧ x.sqe.cdw10 %
      256 = 0x06 ∧ x.sqe.cdw10.testBit 31 = true ∧ x.fromPf = true) ∧
    (∃ (s : State) (n : Nat) (x : Slot), s.freshAdmin n 9 = some x ∧ s.heard x = true ∧ s.noInjection = true ∧ x.sqe.cdw10 %
      256 = 0xC0 ∧ x.fromPf = true ∧ x.sqe.cdw11 % 2 ^ 10 ≤ 512) ∧
    (∃ (s : State) (n : Nat) (x : Slot), s.freshAdmin n 9 = some x ∧ s.heard x = true ∧ s.noInjection = true ∧ x.sqe.cdw10 %
      256 = 0xC0 ∧ x.fromPf = true ∧ 512 < x.sqe.cdw11 % 2 ^ 10) ∧
    (∃ (s : State) (n : Nat) (x : Slot) (e : NamespaceEntry), s.freshAdmin n 9 = some x ∧ s.heard x = true ∧ s.noInjection =
      true ∧ x.sqe.cdw10 % 256 = 0xC1 ∧ x.sqe.cdw10.testBit 31 = false ∧ x.sqe.nsid ≠ 0xFFFFFFFF ∧ s.namespaceOf x.sqe.nsid =
      some e ∧ 3 ≤ s.cipherMode x.sqe.nsid ∧ s.pattern.active.security.readPath ≠ 0) ∧
    (∃ (s : State) (n : Nat) (x : Slot), s.freshAdmin n 9 = some x ∧ s.heard x = true ∧ s.noInjection = true ∧ x.sqe.cdw10 %
      256 = 0xC1 ∧ x.sqe.cdw10.testBit 31 = false ∧ x.sqe.nsid ≠ 0xFFFFFFFF ∧ s.namespaceOf x.sqe.nsid = none) ∧
    (∃ (s : State) (n : Nat) (x : Slot), s.freshAdmin n 9 = some x ∧ s.heard x = true ∧ s.noInjection = true ∧ x.sqe.cdw10 %
      256 = 0xC2 ∧ s.confirmStatus x = 0) ∧
    (∃ (s : State) (n : Nat) (x : Slot) (c : Controller), s.freshAdmin n 0xa = some x ∧ s.heard x = true ∧ s.noInjection =
      true ∧ x.sqe.cdw10 % 256 = 0x0B ∧ x.sqe.cdw10 / 256 % 8 = 0 ∧ s.controller x.skein = some c) ∧
    (∃ (s : State) (n : Nat) (x : Slot), s.freshAdmin n 0xa = some x ∧ s.heard x = true ∧ s.noInjection = true ∧ x.sqe.cdw10
      % 256 = 0xC0 ∧ x.sqe.cdw10 / 256 % 8 = 3) ∧
    (∃ (s : State) (n : Nat) (x : Slot) (c : Controller) (ty : Nat) (info : Nat) (rest : List (Nat × Nat)), s.freshAdmin n
      0xc = some x ∧ s.heard x = true ∧ s.noInjection = true ∧ s.controller x.skein = some c ∧ c.aerQueue = (ty, info) ::
      rest) ∧
    (∃ (s : State) (n : Nat) (x : Slot) (c : Controller), s.freshAdmin n 0xc = some x ∧ s.heard x = true ∧ s.noInjection =
      true ∧ s.controller x.skein = some c ∧ c.aerQueue = [] ∧ c.aers.length < 8) ∧
    (∃ (s : State) (n : Nat) (x : Slot) (c : Controller), s.freshAdmin n 0xc = some x ∧ s.heard x = true ∧ s.noInjection =
      true ∧ s.controller x.skein = some c ∧ c.aerQueue = [] ∧ 8 ≤ c.aers.length) ∧
    (∃ (s : State) (n : Nat) (x : Slot), s.freshAdmin n 2 = some x ∧ s.heard x = true ∧ s.noInjection = true ∧ x.sqe.cdw10 %
      256 = 0x04 ∧ x.sqe.cdw10.testBit 15 = false) ∧
    (∃ (s : State) (n : Nat) (x : Slot), s.freshAdmin n 2 = some x ∧ s.heard x = true ∧ s.noInjection = true ∧ x.sqe.cdw10 %
      256 = 0xC5) ∧
    (∃ (s : State) (n : Nat) (x : Slot), s.freshAdmin n 6 = some x ∧ s.heard x = true ∧ s.noInjection = true ∧ x.sqe.cdw10 %
      256 = 0x1C) ∧
    (∃ (s : State) (n : Nat) (x : Slot), s.freshAdmin n 6 = some x ∧ s.heard x = true ∧ s.noInjection = true ∧ x.sqe.cdw10 %
      256 = 0x16) ∧
    (∃ (s : State) (n : Nat) (x : Slot), s.freshAdmin n 0x14 = some x ∧ s.heard x = true ∧ s.noInjection = true ∧ x.fromPf =
      true ∧ (x.sqe.cdw10 % 16 = 1 ∨ x.sqe.cdw10 % 16 = 2)) ∧
    (∃ (s : State) (n : Nat) (x : Slot), s.freshAdmin n 0x14 = some x ∧ s.heard x = true ∧ s.noInjection = true ∧ x.fromPf =
      false) ∧
    (∃ (s : State) (n : Nat) (x : Slot) (c : Nat) (e : ControllerEntry) (k : Controller), s.freshAdmin n 0x1c = some x ∧
      s.heard x = true ∧ s.noInjection = true ∧ isPf x.skein = true ∧ x.sqe.cdw10 % 16 = 9 ∧ x.sqe.cdw10 / 2 ^ 16 % 2 ^ 16 =
      c ∧ isPf c = false ∧ c / 16 = x.skein / 16 ∧ s.entryOf c = some e ∧ s.controller c = some k) ∧
    (∃ (s : State) (n : Nat) (x : Slot), s.freshAdmin n 0x1d = some x ∧ s.heard x = true ∧ s.noInjection = true) ∧
    (∃ (s : State) (n : Nat) (x : Slot), s.freshAdmin n 0x1e = some x ∧ s.heard x = true ∧ s.noInjection = true) ∧
    (∃ (s : State) (n : Nat) (x : Slot), s.slot n = some x ∧ x.fresh = true ∧ s.isIo x = false ∧ s.adminOpcodes.contains
      x.sqe.opcode = false ∧ s.heard x = true ∧ s.noInjection = true) :=
  ⟨⟨adm 9 11 4294967295, 7, admSlot 9 11 4294967295, { hostedCtl with css := 6 }, by decide +kernel⟩,
   ⟨adm 9 2147483659 0, 7, admSlot 9 2147483659 0, by decide +kernel⟩,
   ⟨adm 9 2147483654 0, 7, admSlot 9 2147483654 0, by decide +kernel⟩,
   ⟨adm 9 192 512, 7, admSlot 9 192 512, by decide +kernel⟩,
   ⟨adm 9 192 513, 7, admSlot 9 192 513, by decide +kernel⟩,
   ⟨(adm 9 0xC1 1).modPattern fun u =>
     { u with active := { u.active with security := { u.active.security with nsCipher := [(1, 3, 0)], readPath := 1 } } }, 7,
     admSlot 9 193 1, ⟨1, 0, 0, 0, 1, 3⟩, by decide +kernel⟩,
   ⟨(adm 9 0xC1 1).modPattern fun u =>
     { u with active := { u.active with host := { u.active.host with namespaces := [] } } }, 7, admSlot 9 193 1, by
     decide +kernel⟩,
   ⟨(adm 9 0xC2 0x80000005).modUpd fun u => { u with records := [{ ActRecord.blank with seq := 5, state := .tentative }] },
     7, admSlot 9 194 2147483653, by decide +kernel⟩,
   ⟨(adm 10 0x0B 0).modController 0 fun y => { y with aecMask := 77 }, 7, admSlot 10 11 0,
     { hostedCtl with css := 6, aecMask := 77 }, by decide +kernel⟩,
   ⟨adm 10 960 0, 7, admSlot 10 960 0, by decide +kernel⟩,
   ⟨(adm 12 0 0).modController 0 fun y => { y with aerQueue := [(7, 2)] }, 7, admSlot 12 0 0,
     { hostedCtl with css := 6, aerQueue := [(7, 2)] }, 7, 2, [], by decide +kernel⟩,
   ⟨(adm 12 0 0).modController 0 fun y => { y with aers := [1, 2, 3, 4, 5, 6, 7] }, 7, admSlot 12 0 0,
     { hostedCtl with css := 6, aers := [1, 2, 3, 4, 5, 6, 7] }, by decide +kernel⟩,
   ⟨(adm 12 0 0).modController 0 fun y => { y with aers := [1, 2, 3, 4, 5, 6, 7, 8] }, 7, admSlot 12 0 0,
     { hostedCtl with css := 6, aers := [1, 2, 3, 4, 5, 6, 7, 8] }, by decide +kernel⟩,
   ⟨(adm 2 0x00030004 0).modHost fun h => { h with changedNamespaces := [2, 1] }, 7, admSlot 2 196612 0, by decide +kernel⟩,
   ⟨adm 2 197 0, 7, admSlot 2 197 0, by decide +kernel⟩,
   ⟨adm 6 28 0, 7, admSlot 6 28 0, by decide +kernel⟩,
   ⟨adm 6 22 0, 7, admSlot 6 22 0, by decide +kernel⟩,
   ⟨adm 20 2 0, 7, admSlot 20 2 0, by decide +kernel⟩,
   ⟨attached.modFlow fun f =>
     { f with slots := [attached.newSlot 1 (attached.sqRing 1 0) 7 (sqe 0x14 1 0) .shared false false] }, 7, attached.newSlot
     1 (attached.sqRing 1 0) 7 (sqe 0x14 1 0) .shared false false, by decide +kernel⟩,
   ⟨adm 28 65545 0, 7, admSlot 28 65545 0, 1, ⟨0, 1, 0, 8, 8, 4⟩, { Controller.fresh 1 with enabled := true }, by
     decide +kernel⟩,
   ⟨adm 29 0 0, 7, admSlot 29 0 0, by decide +kernel⟩,
   ⟨(adm 0x1E 0 0).modHost fun h => { h with miReply := [1, 2] }, 7, admSlot 30 0 0, by decide +kernel⟩,
   ⟨adm 0xFF 0 0, 7, admSlot 0xFF 0 0, by decide +kernel⟩⟩

theorem witness_FormatSecuritySanitize :
    (∃ (s : State) (n : Nat) (x : Slot) (e : NamespaceEntry), s.freshAdmin n 0x80 = some x ∧ s.heard x = true ∧ s.noInjection
      = true ∧ s.fld F.ORD_LEDGER_STATUS_WRITE_HOLD = 0 ∧ s.formatStatus x = 0 ∧ s.formatTargets x = [e]) ∧
    (∃ (s : State) (n : Nat) (x : Slot), s.freshAdmin n 0x80 = some x ∧ s.heard x = true ∧ s.noInjection = true ∧ s.fld
      F.ORD_LEDGER_STATUS_WRITE_HOLD = 1) ∧
    (∃ (s : State) (n : Nat) (x : Slot) (e : NamespaceEntry), s.freshAdmin n 0x80 = some x ∧ s.heard x = true ∧ s.noInjection
      = true ∧ s.fld F.ORD_LEDGER_STATUS_WRITE_HOLD = 0 ∧ s.formatTargets x = [e] ∧ x.sqe.nsid = e.nsid ∧ s.namespaceOf
      e.nsid = some e ∧ s.host.sanitize = none ∧ s.host.formatting = [] ∧ 2 ≤ x.sqe.cdw10 % 16) ∧
    (∃ (s : State) (nsid : Nat) (d : Nat) (n : Nat) (e : NamespaceEntry), s.host.formatting = [(nsid, d, n + 1)] ∧
      s.namespaceOf nsid = some e ∧ d / 2 ^ 9 % 8 = 0 ∧ s.noInjection = true) ∧
    (∃ (s : State) (n : Nat) (x : Slot) (l : List Byte), s.freshAdmin n 0x81 = some x ∧ s.heard x = true ∧ s.noInjection =
      true ∧ s.fuse.nSuffix = false ∧ x.sqe.cdw10 / 2 ^ 24 % 256 = 1 ∧ l.length ≤ 2 ^ 21) ∧
    (∃ (s : State) (n : Nat) (x : Slot), s.freshAdmin n 0x81 = some x ∧ s.heard x = true ∧ s.noInjection = true ∧
      s.fuse.nSuffix = true) ∧
    (∃ (s : State) (n : Nat) (x : Slot), s.freshAdmin n 0x82 = some x ∧ s.heard x = true ∧ s.noInjection = true ∧
      s.fuse.nSuffix = false ∧ x.sqe.cdw10 / 2 ^ 24 % 256 = 2 ∧ x.sqe.cdw11 % 2 ^ 32 ≤ 2 ^ 21) ∧
    (∃ (s : State) (n : Nat) (x : Slot), s.freshAdmin n 0x84 = some x ∧ s.heard x = true ∧ s.noInjection = true ∧ s.fld
      F.ORD_LEDGER_STATUS_WRITE_HOLD = 0 ∧ x.fromPf = true ∧ (sanAct (x.sqe.cdw10 % 2 ^ 32) = 2 ∨ sanAct (x.sqe.cdw10 % 2 ^
      32) = 3) ∧ s.host.sanitize = none) ∧
    (∃ (s : State) (n : Nat) (x : Slot) (y : Nat × Nat), s.freshAdmin n 0x84 = some x ∧ s.heard x = true ∧ s.noInjection =
      true ∧ s.fld F.ORD_LEDGER_STATUS_WRITE_HOLD = 0 ∧ x.fromPf = true ∧ sanAct (x.sqe.cdw10 % 2 ^ 32) = 2 ∧ s.host.sanitize
      = some y) ∧
    (∃ (s : State) (n : Nat) (x : Slot), s.freshAdmin n 0x84 = some x ∧ s.heard x = true ∧ s.noInjection = true ∧ s.fld
      F.ORD_LEDGER_STATUS_WRITE_HOLD = 1) ∧
    (∃ (s : State) (y : Nat × Nat), s.host.sanitize = some y ∧ s.walkerHolds = false ∧ s.tir.sanitizeStep = 1) ∧
    (∃ (s : State) (d : Nat) (w : Nat), s.host.sanitize = some (d, w) ∧ s.walkerHolds = false ∧ s.tir.sanitizeStep = 2) ∧
    (∃ (s : State) (y : Nat × Nat) (z : Nat), s.host.sanitize = some y ∧ s.walkerHolds = false ∧ s.tir.sanitizeStep = 3 ∧
      s.eraseZones[s.tir.sanitizeZone]? = some z) ∧
    (∃ (s : State) (y : Nat × Nat), s.host.sanitize = some y ∧ s.walkerHolds = false ∧ s.tir.sanitizeStep = 3 ∧
      s.eraseZones[s.tir.sanitizeZone]? = none) ∧
    (∃ (s : State) (y : Nat × Nat), s.host.sanitize = some y ∧ s.walkerHolds = false ∧ s.tir.sanitizeStep = 4 ∧ s.overwrites
      = false ∧ s.overwriteZones.length ≤ s.tir.sanitizeZone) ∧
    (∃ (s : State) (d : Nat) (w : Nat), s.host.sanitize = some (d, w) ∧ sanAct d = 3 ∧ s.walkerHolds = false ∧
      s.tir.sanitizeStep = 5) :=
  ⟨⟨adm 128 33 0, 7, admSlot 128 33 0, ⟨1, 0, 0, 0, 1, 3⟩, by decide +kernel⟩,
   ⟨(adm 0x80 0 0).flag F.ORD_LEDGER_STATUS_WRITE_HOLD, 7, admSlot 128 0 0, by decide +kernel⟩,
   ⟨adm 128 2 0, 7, admSlot 128 2 0, ⟨1, 0, 0, 0, 1, 3⟩, by decide +kernel⟩,
   ⟨(adm 0x80 0x21 0).modHost fun h => { h with formatting := [(1, 0x21, 8)] }, 1, 0x21, 7, ⟨1, 0, 0, 0, 1, 3⟩, by
     decide +kernel⟩,
   ⟨adm 129 16777216 0, 7, admSlot 129 16777216 0, [1, 2], by decide +kernel⟩,
   ⟨{ adm 0x81 0 0 with fuse := { attached.fuse with nSuffix := true } }, 7, admSlot 129 0 0, by decide +kernel⟩,
   ⟨adm 130 33554432 16, 7, admSlot 130 33554432 16, by decide +kernel⟩,
   ⟨adm 132 2 0, 7, admSlot 132 2 0, by decide +kernel⟩,
   ⟨(adm 0x84 2 0).modHost fun h => { h with sanitize := some (2, 0) }, 7, admSlot 132 2 0, (2, 0), by decide +kernel⟩,
   ⟨(adm 0x84 2 0).flag F.ORD_LEDGER_STATUS_WRITE_HOLD, 7, admSlot 132 2 0, by decide +kernel⟩,
   ⟨(attached.modHost fun h => { h with sanitize := some (4, 0) }).modTir fun x => { x with sanitizeStep := 1 }, (4, 0), by
     decide +kernel⟩,
   ⟨(attached.modHost fun h => { h with sanitize := some (3, 0) }).modTir fun x => { x with sanitizeStep := 2 }, 3, 0, by
     decide +kernel⟩,
   ⟨(zoned.modHost fun h => { h with sanitize := some (2, 0) }).modTir fun x =>
     { x with sanitizeStep := 3, sanitizeZone := 1 }, (2, 0), 1, by decide +kernel⟩,
   ⟨(attached.modHost fun h => { h with sanitize := some (2, 0) }).modTir fun x =>
     { x with sanitizeStep := 3, sanitizeZone := 9999 }, (2, 0), by decide +kernel⟩,
   ⟨(running.modHost fun h => { h with sanitize := some (19, 0) }).modTir fun x => { x with sanitizeStep := 4 }, (19, 0), by
     decide +kernel⟩,
   ⟨(attached.modHost fun h => { h with sanitize := some (3, 0) }).modTir fun x => { x with sanitizeStep := 5 }, 3, 0, by
     decide +kernel⟩⟩

theorem witness_InputOutputCommands :
    (∃ (s : State) (n : Nat) (x : Slot), s.freshIo n 0 = some x ∧ s.heard x = true ∧ s.noInjection = true ∧ x.sqe.nsid ≠
      0xFFFFFFFF ∧ s.ioStatus x [0, 1, 2] false 0 = 0 ∧ s.flow.slots.any (fun w => w.liveWrite && w.epoch < x.epoch &&
      w.sqe.nsid == x.sqe.nsid) = false) ∧
    (∃ (s : State) (n : Nat) (x : Slot), s.freshIo n 0 = some x ∧ s.heard x = true ∧ s.noInjection = true ∧ x.sqe.nsid ≠
      0xFFFFFFFF ∧ s.ioStatus x [0, 1, 2] false 0 = 0 ∧ s.flow.slots.any (fun w => w.liveWrite && w.epoch < x.epoch &&
      w.sqe.nsid == x.sqe.nsid) = true) ∧
    (∃ (s : State) (n : Nat) (x : Slot) (d : Sector) (p : List Byte), s.freshIo n 2 = some x ∧ s.heard x = true ∧
      s.noInjection = true ∧ x.isRead = true ∧ x.isWrite = false ∧ x.stage = .fetched ∧ x.got = [] ∧ x.readPoint = false ∧
      x.lbas = 1 ∧ s.readHeld x = false ∧ s.underRebuild x.dla 1 = false ∧ s.ioStatus x [0, 1, 2] true 512 = 0 ∧ s.sourceOf
      x.epoch x.dla = .clean d p) ∧
    (∃ (s : State) (n : Nat) (x : Slot) (st : Nat), s.freshIo n 2 = some x ∧ s.heard x = true ∧ s.noInjection = true ∧ x.got
      = [] ∧ s.ioStatus x [0, 1, 2] true 512 = st ∧ st ≠ 0 ∧ x.readPoint = false) ∧
    (∃ (s : State) (n : Nat) (x : Slot) (d : Sector) (p : List Byte), s.freshIo n 5 = some x ∧ s.heard x = true ∧
      s.noInjection = true ∧ x.isRead = true ∧ x.isWrite = false ∧ x.stage = .fetched ∧ x.got = [] ∧ x.readPoint = false ∧
      x.lbas = 1 ∧ s.readHeld x = false ∧ s.underRebuild x.dla 1 = false ∧ s.ioStatus x [0, 1, 2] true 512 = 0 ∧ s.sourceOf
      x.epoch x.dla = .clean d p) ∧
    (∃ (s : State) (n : Nat) (x : Slot) (d : Sector) (p : List Byte), s.freshIo n 12 = some x ∧ s.heard x = true ∧
      s.noInjection = true ∧ x.isRead = true ∧ x.isWrite = false ∧ x.stage = .fetched ∧ x.got = [] ∧ x.readPoint = false ∧
      x.lbas = 1 ∧ s.readHeld x = false ∧ s.underRebuild x.dla 1 = false ∧ s.ioStatus x [0, 1, 2] true 65536 = 0 ∧ s.sourceOf
      x.epoch x.dla = .clean d p) ∧
    (∃ (s : State) (n : Nat) (x : Slot), s.freshIo n 12 = some x ∧ s.heard x = true ∧ s.noInjection = true ∧ x.isRead = true
      ∧ x.isWrite = false ∧ x.stage = .fetched ∧ x.got = [] ∧ x.readPoint = false ∧ x.lbas = 1 ∧ s.readHeld x = false ∧
      s.underRebuild x.dla 1 = false ∧ s.ioStatus x [0, 1, 2] true 65536 = 0 ∧ s.sourceOf x.epoch x.dla = .lost) ∧
    (∃ (s : State) (n : Nat) (x : Slot), s.freshIo n 1 = some x ∧ s.heard x = true ∧ s.noInjection = true ∧ s.countersSpent x
      = none ∧ s.ioStatus x [0, 1, 2] true 512 = 0 ∧ s.inZns x = false ∧ x.writeZones = [x.zone] ∧ s.fld
      F.ORD_LEDGER_STATUS_WRITE_HOLD = 0) ∧
    (∃ (s : State) (n : Nat) (x : Slot) (ns : NamespaceEntry), s.freshIo n 1 = some x ∧ s.heard x = true ∧ s.noInjection =
      true ∧ s.countersSpent x = none ∧ s.stitch.rebuilding = [] ∧ s.stitch.held = [] ∧ s.offMedia + 4 ≤ 65536 ∧ s.ioStatus x
      [0, 1, 2] true 512 = 0 ∧ s.inZns x = true ∧ s.namespaceOf x.sqe.nsid = some ns ∧ s.olderInZone x x.zone = false ∧
      s.acceptStatus x = 0 ∧ (s.zdesc x.zone).state = .empty ∧ s.makeOpenRoom ns x.zone true = (0, s) ∧ x.writeZones =
      [x.zone]) ∧
    (∃ (s : State) (n : Nat) (x : Slot), s.freshIo n 1 = some x ∧ s.heard x = true ∧ s.noInjection = true ∧ s.countersSpent x
      = none ∧ s.ioStatus x [0, 1, 2] true 512 = 0 ∧ s.inZns x = true ∧ s.olderInZone x x.zone = false ∧ (s.zdesc
      x.zone).state = .empty ∧ x.dla % zoneSectors ≠ (s.acceptOf x.zone).1) ∧
    (∃ (s : State) (n : Nat) (x : Slot) (st : Nat), s.freshIo n 1 = some x ∧ s.heard x = true ∧ s.noInjection = true ∧
      s.ioStatus x [0, 1, 2] true 512 = st ∧ st ≠ 0) ∧
    (∃ (s : State) (n : Nat) (x : Slot), s.freshIo n 8 = some x ∧ s.heard x = true ∧ s.noInjection = true ∧ s.countersSpent x
      = none ∧ s.ioStatus x [0, 1, 2] true 65536 = 0 ∧ s.inZns x = false ∧ s.writesHeld = false) ∧
    (∃ (s : State) (n : Nat) (x : Slot) (ns : NamespaceEntry) (a : Nat) (k : Nat), s.freshIo n 9 = some x ∧ s.heard x = true
      ∧ s.noInjection = true ∧ s.ioStatus x [0, 2] false 0 = 0 ∧ x.isWrite = true ∧ s.namespaceOf x.sqe.nsid = some ns ∧ 0 <
      k ∧ a + k ≤ ns.capacity ∧ s.countersSpent { x with ranges := [(ns.dla a, k)] } = none ∧ s.writesHeld = false) ∧
    (∃ (s : State) (n : Nat) (x : Slot) (ns : NamespaceEntry), s.freshIo n 9 = some x ∧ s.heard x = true ∧ s.noInjection =
      true ∧ s.ioStatus x [0, 2] false 0 = 0 ∧ x.isWrite = false ∧ s.namespaceOf x.sqe.nsid = some ns) ∧
    (∃ (s : State) (n : Nat) (x : Slot), s.freshIo n 4 = some x ∧ s.heard x = true ∧ s.noInjection = true ∧ s.countersSpent x
      = none ∧ s.ioStatus x [0, 2] true 65536 = 0 ∧ s.writesHeld = false) ∧
    (∃ (s : State) (n : Nat) (x : Slot) (ns : NamespaceEntry), s.freshIo n 0x7D = some x ∧ s.heard x = true ∧ s.noInjection =
      true ∧ s.countersSpent x = none ∧ s.stitch.rebuilding = [] ∧ s.stitch.held = [] ∧ s.offMedia + 4 ≤ 65536 ∧ s.ioStatus x
      [1] true 512 = 0 ∧ s.namespaceOf x.sqe.nsid = some ns ∧ (s.zdesc x.zone).state = .empty ∧ s.olderInZone x x.zone =
      false ∧ s.appendStatus x = 0 ∧ s.makeOpenRoom ns x.zone true = (0, s)) ∧
    (∃ (s : State) (n : Nat) (x : Slot) (ns : NamespaceEntry), s.freshIo n 0x7D = some x ∧ s.heard x = true ∧ s.noInjection =
      true ∧ s.ioStatus x [1] true 512 = 0 ∧ s.namespaceOf x.sqe.nsid = some ns ∧ (s.zdesc x.zone).state = .empty ∧
      s.olderInZone x x.zone = false ∧ x.dla % zoneSectors ≠ 0) ∧
    (∃ (s : State) (n : Nat) (x : Slot), s.slot n = some x ∧ x.stage = .fetched ∧ s.isIo x = true ∧ x.got = [] ∧
      ioOpcodes.contains x.sqe.opcode = false ∧ s.heard x = true ∧ s.noInjection = true) :=
  ⟨⟨io (ioSlot 0 0 0), 7, ioSlot 0 0 0, by decide +kernel⟩,
   ⟨(io { ioSlot 0 0 0 with epoch := 9 }).modFlow fun f => { f with slots := f.slots ++ [{ ioSlot 1 0 0 with num := 8 }] },
     7, { ioSlot 0 0 0 with epoch := 9 }, by decide +kernel⟩,
   ⟨(io (ioSlot 2 5 0)).modFlow fun f => { f with clean := [⟨5, [1], [2]⟩] }, 7, ioSlot 2 5 0, [1], [2], by decide +kernel⟩,
   ⟨io (ioSlot 2 70000 0), 7, ioSlot 2 70000 0, 0x80, by decide +kernel⟩,
   ⟨(io (ioSlot 5 5 0)).modFlow fun f => { f with clean := [⟨5, [1], [2]⟩] }, 7, ioSlot 5 5 0, [1], [2], by decide +kernel⟩,
   ⟨(io (ioSlot 12 5 0)).modFlow fun f => { f with clean := [⟨5, [1], [2]⟩] }, 7, ioSlot 12 5 0, [1], [2], by decide +kernel⟩,
   ⟨(io (ioSlot 12 5 0)).modStitch fun m => { m with leaves := [[⟨0, 10, 0, 0, false, false, true, false, false⟩]] }, 7,
     ioSlot 12 5 0, by decide +kernel⟩,
   ⟨io (ioSlot 1 5 2), 7, ioSlot 1 5 2, by decide +kernel⟩,
   ⟨io (zoneSlot 1 0 2 0), 7, zoneSlot 1 0 2 0, ⟨2, 1, 0, 3, 1, 3⟩, by decide +kernel⟩,
   ⟨io (zoneSlot 1 5 2 0), 7, zoneSlot 1 5 2 0, by decide +kernel⟩,
   ⟨io (ioSlot 1 5 600), 7, ioSlot 1 5 600, 2, by decide +kernel⟩,
   ⟨io (ioSlot 8 5 2), 7, ioSlot 8 5 2, by decide +kernel⟩,
   ⟨io (attached.newSlot 0 1 7 (sqe 9 0 4) .shared false true), 7, attached.newSlot 0 1 7 (sqe 9 0 4) .shared false true, ⟨1,
     0, 0, 0, 1, 3⟩, 65530, 6, by decide +kernel⟩,
   ⟨io (attached.newSlot 0 1 7 (sqe 9 0 0) .shared false true), 7, attached.newSlot 0 1 7 (sqe 9 0 0) .shared false true, ⟨1,
     0, 0, 0, 1, 3⟩, by decide +kernel⟩,
   ⟨io (ioSlot 4 5 2), 7, ioSlot 4 5 2, by decide +kernel⟩,
   ⟨io (zoneSlot 0x7D 0 2 0), 7, zoneSlot 0x7D 0 2 0, ⟨2, 1, 0, 3, 1, 3⟩, by decide +kernel⟩,
   ⟨io (zoneSlot 0x7D 5 2 0), 7, zoneSlot 0x7D 5 2 0, ⟨2, 1, 0, 3, 1, 3⟩, by decide +kernel⟩,
   ⟨io (ioSlot 0x11 0 0), 7, ioSlot 0x11 0 0, by decide +kernel⟩⟩

theorem witness_ZoneCommands :
    (∃ (s : State) (n : Nat) (x : Slot) (ns : NamespaceEntry), s.freshAction n 3 = some x ∧ s.heard x = true ∧ s.noInjection
      = true ∧ s.actionStatus x = 0 ∧ x.sqe.cdw13.testBit 8 = false ∧ s.namespaceOf x.sqe.nsid = some ns ∧
      s.stitch.rebuilding = [] ∧ s.stitch.held = [] ∧ s.offMedia + 4 ≤ 65536 ∧ (s.zdesc x.zone).state = .empty ∧
      s.makeOpenRoom ns x.zone false = (0, s)) ∧
    (∃ (s : State) (n : Nat) (x : Slot) (ns : NamespaceEntry), s.freshAction n 3 = some x ∧ s.heard x = true ∧ s.noInjection
      = true ∧ s.actionStatus x = 0 ∧ x.sqe.cdw13.testBit 8 = false ∧ s.namespaceOf x.sqe.nsid = some ns ∧ (s.zdesc
      x.zone).state = .full) ∧
    (∃ (s : State) (n : Nat) (x : Slot) (ns : NamespaceEntry), s.freshAction n 1 = some x ∧ s.heard x = true ∧ s.noInjection
      = true ∧ s.actionStatus x = 0 ∧ x.sqe.cdw13.testBit 8 = false ∧ s.namespaceOf x.sqe.nsid = some ns ∧
      s.stitch.rebuilding = [] ∧ s.stitch.held = [] ∧ s.offMedia + 4 ≤ 65536 ∧ (s.zdesc x.zone).state = .explicitOpen) ∧
    (∃ (s : State) (n : Nat) (x : Slot) (ns : NamespaceEntry), s.freshAction n 2 = some x ∧ s.heard x = true ∧ s.noInjection
      = true ∧ s.actionStatus x = 0 ∧ x.sqe.cdw13.testBit 8 = false ∧ s.namespaceOf x.sqe.nsid = some ns ∧
      s.stitch.rebuilding = [] ∧ s.stitch.held = [] ∧ s.offMedia + 4 ≤ 65536 ∧ s.fld F.ORD_LEDGER_STATUS_WRITE_HOLD = 0 ∧
      (s.zdesc x.zone).state = .closed ∧ s.actionHeld x [x.zone] = false ∧ (s.writePos x.zone).1 % 64 = 0 ∧ s.flow.ops = []) ∧
    (∃ (s : State) (n : Nat) (x : Slot) (ns : NamespaceEntry), s.freshAction n 2 = some x ∧ s.heard x = true ∧ s.noInjection
      = true ∧ s.actionStatus x = 0 ∧ x.sqe.cdw13.testBit 8 = false ∧ s.namespaceOf x.sqe.nsid = some ns ∧ s.fld
      F.ORD_LEDGER_STATUS_WRITE_HOLD = 1 ∧ x.stage = .fetched) ∧
    (∃ (s : State) (n : Nat) (x : Slot) (ns : NamespaceEntry), s.freshAction n 4 = some x ∧ s.heard x = true ∧ s.noInjection
      = true ∧ s.actionStatus x = 0 ∧ x.sqe.cdw13.testBit 8 = false ∧ s.namespaceOf x.sqe.nsid = some ns ∧
      s.stitch.rebuilding = [] ∧ s.stitch.held = [] ∧ s.offMedia + 4 ≤ 65536 ∧ s.fld F.ORD_LEDGER_STATUS_WRITE_HOLD = 0 ∧
      (s.zdesc x.zone).state = .full ∧ s.actionHeld x [x.zone] = false ∧ s.darn.rewrite = none ∧ s.stitch.snapshots = [] ∧
      (s.zdesc x.zone).gen < 0xFFFFFFFF) ∧
    (∃ (s : State) (n : Nat) (x : Slot) (ns : NamespaceEntry), s.freshAction n 4 = some x ∧ s.heard x = true ∧ s.noInjection
      = true ∧ s.actionStatus x = 0 ∧ x.sqe.cdw13.testBit 8 = false ∧ s.namespaceOf x.sqe.nsid = some ns ∧ s.fld
      F.ORD_LEDGER_STATUS_WRITE_HOLD = 1) ∧
    (∃ (s : State) (n : Nat) (x : Slot) (ns : NamespaceEntry), s.freshAction n 4 = some x ∧ s.heard x = true ∧ s.noInjection
      = true ∧ s.actionStatus x = 0 ∧ x.sqe.cdw13.testBit 8 = false ∧ s.namespaceOf x.sqe.nsid = some ns ∧ s.fld
      F.ORD_LEDGER_STATUS_WRITE_HOLD = 0 ∧ (s.zdesc x.zone).state = .readOnly ∧ s.actionHeld x [x.zone] = false) ∧
    (∃ (s : State) (n : Nat) (x : Slot) (ns : NamespaceEntry), s.freshAction n 5 = some x ∧ s.heard x = true ∧ s.noInjection
      = true ∧ s.actionStatus x = 0 ∧ x.sqe.cdw13.testBit 8 = false ∧ s.namespaceOf x.sqe.nsid = some ns ∧
      s.stitch.rebuilding = [] ∧ s.stitch.held = [] ∧ s.offMedia + 4 ≤ 65536 ∧ s.fld F.ORD_LEDGER_STATUS_WRITE_HOLD = 0 ∧
      (s.zdesc x.zone).state = .readOnly) ∧
    (∃ (s : State) (n : Nat) (x : Slot) (ns : NamespaceEntry), s.freshAction n 5 = some x ∧ s.heard x = true ∧ s.noInjection
      = true ∧ s.actionStatus x = 0 ∧ x.sqe.cdw13.testBit 8 = false ∧ s.namespaceOf x.sqe.nsid = some ns ∧ s.fld
      F.ORD_LEDGER_STATUS_WRITE_HOLD = 0 ∧ (s.zdesc x.zone).state = .full) ∧
    (∃ (s : State) (n : Nat) (x : Slot), s.freshAction n 0x10 = some x ∧ s.heard x = true ∧ s.noInjection = true ∧ s.fld
      F.ORD_LEDGER_STATUS_WRITE_HOLD = 0 ∧ s.ioStatus x [1] false 0 = 0) ∧
    (∃ (s : State) (n : Nat) (x : Slot) (ns : NamespaceEntry), s.freshIo n 0x7A = some x ∧ s.heard x = true ∧ s.noInjection =
      true ∧ s.ioStatus x [1] false 0 = 0 ∧ s.namespaceOf x.sqe.nsid = some ns ∧ x.sqe.cdw13 = 0 ∧ Sqe.slba x.sqe <
      ns.capacity ∧ ns.zones = [x.zone] ∧ 31 ≤ x.sqe.cdw12 ∧ x.sqe.cdw12 < 2 ^ 30) ∧
    (∃ (s : State) (n : Nat) (x : Slot), s.freshIo n 0x7A = some x ∧ s.heard x = true ∧ s.noInjection = true ∧ s.ioStatus x
      [1] false 0 = 0 ∧ x.sqe.cdw13 % 256 ≠ 0) :=
  ⟨⟨zoneIn (io (zoneSlot 0x79 0 0 3)) .empty 0, 7, zoneSlot 0x79 0 0 3, ⟨2, 1, 0, 3, 1, 3⟩, by decide +kernel⟩,
   ⟨zoneIn (io (zoneSlot 0x79 0 0 3)) .full 65536, 7, zoneSlot 0x79 0 0 3, ⟨2, 1, 0, 3, 1, 3⟩, by decide +kernel⟩,
   ⟨zoneIn (io (zoneSlot 0x79 0 0 1)) .explicitOpen 7, 7, zoneSlot 0x79 0 0 1, ⟨2, 1, 0, 3, 1, 3⟩, by decide +kernel⟩,
   ⟨zoneIn (io (zoneSlot 0x79 0 0 2)) .closed 128, 7, zoneSlot 0x79 0 0 2, ⟨2, 1, 0, 3, 1, 3⟩, by decide +kernel⟩,
   ⟨(zoneIn (io (zoneSlot 0x79 0 0 2)) .closed 128).flag F.ORD_LEDGER_STATUS_WRITE_HOLD, 7, zoneSlot 0x79 0 0 2, ⟨2, 1, 0, 3,
     1, 3⟩, by decide +kernel⟩,
   ⟨zoneIn (io (zoneSlot 0x79 0 0 4)) .full 65536, 7, zoneSlot 0x79 0 0 4, ⟨2, 1, 0, 3, 1, 3⟩, by decide +kernel⟩,
   ⟨(zoneIn (io (zoneSlot 0x79 0 0 4)) .full 65536).flag F.ORD_LEDGER_STATUS_WRITE_HOLD, 7, zoneSlot 0x79 0 0 4, ⟨2, 1, 0, 3,
     1, 3⟩, by decide +kernel⟩,
   ⟨zoneIn (io (zoneSlot 0x79 0 0 4)) .readOnly 65536, 7, zoneSlot 0x79 0 0 4, ⟨2, 1, 0, 3, 1, 3⟩, by decide +kernel⟩,
   ⟨zoneIn (io (zoneSlot 0x79 0 0 5)) .readOnly 65536, 7, zoneSlot 0x79 0 0 5, ⟨2, 1, 0, 3, 1, 3⟩, by decide +kernel⟩,
   ⟨zoneIn (io (zoneSlot 0x79 0 0 5)) .full 65536, 7, zoneSlot 0x79 0 0 5, ⟨2, 1, 0, 3, 1, 3⟩, by decide +kernel⟩,
   ⟨io (zoneSlot 0x79 0 0 0x10), 7, zoneSlot 0x79 0 0 0x10, by decide +kernel⟩,
   ⟨zoneIn (io (zoneSlot 0x7A 0 31 0)) .closed 7, 7, zoneSlot 0x7A 0 31 0, ⟨2, 1, 0, 3, 1, 3⟩, by decide +kernel⟩,
   ⟨io (zoneSlot 0x7A 0 31 1), 7, zoneSlot 0x7A 0 31 1, by decide +kernel⟩⟩

theorem witness_MediaFlow :
    (∃ (s : State) (x : Slot), s.nextAdmission = some x ∧ s.slot x.num = some x ∧ s.writesHeld = false ∧ x.verified ≠ [] ∧
      x.piece = 0 ∧ s.dirtyAhead + x.lbas ≤ s.ceilingPages ∧ 2 * x.lbas ≤ s.avail Class.free ∧ s.flow.census.length = 23 ∧
      s.fld F.ROWT_STATUS_GUARD = 0 ∧ s.noInjection = true) ∧
    (∃ (s : State) (x : Slot), s.nextAdmission = some x ∧ s.writesHeld = false ∧ x.verified ≠ [] ∧ x.piece = 0 ∧ x.lbas ≤
      s.ceilingPages ∧ s.ceilingPages < s.dirtyAhead + x.lbas) ∧
    (∃ (s : State) (n : Nat) (x : Slot), s.flow.slots = [x] ∧ x.num = n ∧ x.stage = .xferIn ∧ x.isWrite = true ∧ x.sqe.opcode
      = 1 ∧ x.data = [] ∧ x.shown = 0 ∧ x.pages = 1 ∧ x.lbas = 1 ∧ x.early = false ∧ s.inZns x = false ∧ s.lbaf x.sqe.nsid =
      0 ∧ 1 ≤ s.avail Class.free ∧ s.flow.held = [] ∧ s.noInjection = true) ∧
    (∃ (s : State) (n : Nat) (st : Nat) (d : Sector) (p : List Byte) (x : Slot), s.slot n = some x ∧ x.stage = .xferIn ∧
      x.isWrite = true ∧ x.sqe.opcode = 1 ∧ x.data = [] ∧ x.shown = 0 ∧ x.pages = 1 ∧ s.inZns x = false ∧ s.lbaf x.sqe.nsid ≠
      0 ∧ kgetD x.sqe.nsid s.host.piType 0 = 1 ∧ Sqe.pract x.sqe = false ∧ Sqe.checkPi x.sqe 1 0 d (padTo 16 p) = st ∧ st ≠ 0
      ∧ s.heard x = true ∧ s.noInjection = true) ∧
    (∃ (s : State) (a : Nat) (o : MediaOp) (rest : List MediaOp), (s.opsAt a .window).length < 8192 ∧ s.opsAt a .listed = o
      :: rest ∧ (o :: rest).any (·.urgent) = false ∧ s.op o.id = some o) ∧
    (∃ (s : State) (a : Nat) (k : Nat) (o : MediaOp), a < 2 ∧ s.hasAct a = true ∧ s.fld F.ROWT_STATUS_GUARD = 0 ∧ 1 ≤ k ∧
      s.opsAt a .window = [o] ∧ s.op o.id = some o ∧ o.kind = .read ∧ s.eligible o = true ∧ s.needsKey o = false ∧ s.mayIssue
      a = true) ∧
    (∃ (s : State) (a : Nat), a < 2 ∧ s.hasAct a = true ∧ s.fld F.ROWT_STATUS_GUARD = 0 ∧ s.opsAt a .window = []) ∧
    (∃ (s : State), s.fld F.ROWT_STATUS_GUARD = 1) ∧
    (∃ (s : State) (a : Nat) (o : MediaOp), a < 2 ∧ (s.opsAt a .window).any (fun o => o.urgent && s.eligible o) = true ∧
      s.fld (F.SCH_CTRL_PREEMPT a) = 1 ∧ (s.opsAt a .issued).find? (fun o => o.underWay && !o.urgent) = some o ∧ s.op o.id =
      some o ∧ o.framed = [] ∧ o.transferring = false) ∧
    (∃ (s : State) (n : Nat) (p : Nat) (x : Slot), s.flow.slots = [x] ∧ x.num = n ∧ x.isWrite = true ∧ x.stage = .media ∧
      x.lbas = 1 ∧ x.shown = 1 ∧ x.done = 0 ∧ x.verified = [true] ∧ x.placed = [p] ∧ x.ranges = [(x.dla, 1)] ∧ s.walkerBusy
      x.dla 1 = false ∧ s.resolve x.dla = .at p ∧ s.inZns x = false ∧ x.atomicStaged = false ∧ s.heard x = true ∧
      s.noInjection = true) ∧
    (∃ (s : State) (n : Nat) (x : Slot) (d : Sector) (p : List Byte), s.slot n = some x ∧ s.atReadPoint x = true ∧ x.lbas = 1
      ∧ x.isWrite = false ∧ x.sqe.opcode = 2 ∧ x.orphan = false ∧ s.sourceOf x.epoch x.dla = .clean d p) ∧
    (∃ (s : State) (n : Nat) (x : Slot), s.slot n = some x ∧ s.readHeld x = true) ∧
    (∃ (s : State) (n : Nat) (x : Slot) (d : Sector) (p : List Byte), s.slot n = some x ∧ x.stage = .xferOut ∧ x.got = [some
      (d, p)] ∧ x.sent = [false] ∧ s.heard x = true ∧ s.noInjection = true) ∧
    (∃ (s : State) (n : Nat) (q : Nat) (x : Slot) (d : Sector) (p : List Byte), s.slot n = some x ∧ x.stage = .xferOut ∧
      x.got = [some (d, p)] ∧ x.sent = [false] ∧ x.src = [1] ∧ x.orphan = false ∧ s.resolve x.dla = .at q ∧ s.noInjection =
      true) ∧
    (∃ (s : State) (i : Nat) (d : Nat) (k : Nat), s.freeClaim = some i ∧ s.fld F.ORD_CLAIM_DLA_LO_DLA_LO + 2 ^ 32 * s.fld
      F.ORD_CLAIM_DLA_HI_DLA_HI = d ∧ s.fld F.ORD_CLAIM_DLA_HI_LEN_M1 + 1 = k ∧ d / zoneSectors = (d + k - 1) / zoneSectors) ∧
    (∃ (s : State), s.freeClaim = none) ∧
    (∃ (s : State) (i : Nat) (c : Claim), i < 64 ∧ s.claim i = some c) ∧
    (∃ (s : State) (i : Nat), i < 64 ∧ s.claim i = none) :=
  ⟨⟨(io { ioSlot 1 5 0 with stage := .admitWait, verified := [false], placed := [0], verifyFails := [0] }).modFlow fun f =>
     { f with census := List.replicate 23 100 },
     { ioSlot 1 5 0 with stage := .admitWait, verified := [false], placed := [0], verifyFails := [0] }, by decide +kernel⟩,
   ⟨io { ioSlot 1 5 0 with stage := .admitWait, verified := [false], placed := [0], verifyFails := [0] },
     { ioSlot 1 5 0 with stage := .admitWait, verified := [false], placed := [0], verifyFails := [0] }, by decide +kernel⟩,
   ⟨io { ioSlot 1 5 0 with stage := .xferIn, verified := [false], placed := [0], verifyFails := [0], pages := 1 }, 7,
     { ioSlot 1 5 0 with stage := .xferIn, verified := [false], placed := [0], verifyFails := [0], pages := 1 }, by
     decide +kernel⟩,
   ⟨(io
     { ioSlot 1 5 0 with stage := .xferIn, verified := [false], placed := [0], verifyFails := [0], pages := 1, sqe := { (ioSlot 1 5 0).sqe with cdw12 := 2 ^ 27, cdw15 := 0xFFFF0007 } }).modHost
     fun h => { h with lbaFormat := [(1, 1)], piType := [(1, 1)] }, 7, 0x283, [5], [],
     { ioSlot 1 5 0 with stage := .xferIn, verified := [false], placed := [0], verifyFails := [0], pages := 1, sqe := { (ioSlot 1 5 0).sqe with cdw12 := 2 ^ 27, cdw15 := 0xFFFF0007 } },
     by decide +kernel⟩,
   ⟨running.modFlow fun f => { f with ops := [{ readOp with place := .listed }] }, 1, { readOp with place := .listed }, [],
     by decide +kernel⟩,
   ⟨(((running.setReg R.SYS_PAIR_STATUS 0x0F311111).setFld (F.ACT_STATUS_LOAD_STATE 1) 2).setFld (F.NDL_STATUS_ROLE 1) 1
     |>.setFld (F.NDL_STATUS_ACT 1) 1).modFlow fun f => { f with ops := [{ readOp with place := .window }] }, 1, 3,
     { readOp with place := .window }, by decide +kernel⟩,
   ⟨running.setReg (R.SCH_BEST 1) 0xFFFFFFFF, 1, by decide +kernel⟩,
   ⟨running.flag F.ROWT_STATUS_GUARD, by decide +kernel⟩,
   ⟨((((running.setReg R.SYS_PAIR_STATUS 0x0F311111).setFld (F.ACT_STATUS_LOAD_STATE 1) 2).setFld (F.NDL_STATUS_ROLE 1) 1
     |>.setFld (F.NDL_STATUS_ACT 1) 1).setFld (F.SCH_CTRL_PREEMPT 1) 1).modFlow fun f =>
     { f with ops := [{ readOp with framed := [], transferring := false }, { readOp with id := 2, urgent := true, place := .window }] },
     1, { readOp with framed := [], transferring := false }, by decide +kernel⟩,
   ⟨io
     { ioSlot 1 5 0 with stage := .media, verified := [true], placed := [attached.layoutPsa 5], verifyFails := [0], shown := 1, visible := true, data := [[1]], pi := [[2]] },
     7, attached.layoutPsa 5,
     { ioSlot 1 5 0 with stage := .media, verified := [true], placed := [attached.layoutPsa 5], verifyFails := [0], shown := 1, visible := true, data := [[1]], pi := [[2]] },
     by decide +kernel⟩,
   ⟨(io { ioSlot 2 5 0 with got := [none], sent := [false], src := [0] }).modFlow fun f =>
     { f with clean := [⟨5, [1], [2]⟩] }, 7, { ioSlot 2 5 0 with got := [none], sent := [false], src := [0] }, [1], [2], by
     decide +kernel⟩,
   ⟨(io { ioSlot 1 5 0 with num := 8 }).modFlow fun f =>
     { f with slots := f.slots ++ [{ ioSlot 2 5 0 with epoch := 9, got := [none], sent := [false], src := [0] }] }, 7,
     { ioSlot 2 5 0 with epoch := 9, got := [none], sent := [false], src := [0] }, by decide +kernel⟩,
   ⟨io { ioSlot 2 5 0 with stage := .xferOut, readPoint := true, got := [some ([1], [2])], sent := [false], src := [1] }, 7,
     { ioSlot 2 5 0 with stage := .xferOut, readPoint := true, got := [some ([1], [2])], sent := [false], src := [1] }, [1],
     [2], by decide +kernel⟩,
   ⟨(io
     { ioSlot 2 5 0 with stage := .xferOut, readPoint := true, got := [some ([1], [2])], sent := [false], src := [1] }).modFlow
     fun f => { f with clean := [⟨5, [1], [2]⟩] }, 7, attached.layoutPsa 5,
     { ioSlot 2 5 0 with stage := .xferOut, readPoint := true, got := [some ([1], [2])], sent := [false], src := [1] }, [1],
     [2], by decide +kernel⟩,
   ⟨attached.setReg R.ORD_CLAIM_DLA_LO 65530, 0, 65530, 1, by decide +kernel⟩,
   ⟨attached.modFlow fun f => { f with claims := (List.range 64).map fun i => ⟨i, 0, 1, [], 6⟩ }, by decide +kernel⟩,
   ⟨attached.modFlow fun f => { f with claims := [⟨63, 0, 1, [], 6⟩] }, 63, ⟨63, 0, 1, [], 6⟩, by decide +kernel⟩,
   ⟨attached, 63, by decide +kernel⟩⟩

theorem witness_SpdmExchanges :
    (∃ (s : State) (k : Nat), k < 3 ∧ k < s.tir.spdm.length ∧ s.fld F.TIR_STATUS_STATE = 1) ∧
    (∃ (s : State) (k : Nat), k < 3 ∧ k < s.tir.spdm.length ∧ s.fld F.TIR_STATUS_STATE = 1 ∧ (s.spdmLink k).version = true) ∧
    (∃ (s : State) (k : Nat), k < 3 ∧ k < s.tir.spdm.length ∧ s.fld F.TIR_STATUS_STATE = 1 ∧ (s.spdmLink k).version = false) ∧
    (∃ (s : State) (k : Nat), k < 3 ∧ k < s.tir.spdm.length ∧ s.fld F.TIR_STATUS_STATE = 1 ∧ (s.spdmLink k).capabilities =
      true) ∧
    (∃ (s : State) (k : Nat), k < 3 ∧ k < s.tir.spdm.length ∧ s.fld F.TIR_STATUS_STATE = 1 ∧ (s.spdmLink k).algorithms =
      true) ∧
    (∃ (s : State) (k : Nat), k < 3 ∧ k < s.tir.spdm.length ∧ s.fld F.TIR_STATUS_STATE = 2 ∧ (s.spdmLink k).waiting.length <
      4) ∧
    (∃ (s : State) (k : Nat), k < 3 ∧ k < s.tir.spdm.length ∧ s.fld F.TIR_STATUS_STATE = 2 ∧ 4 ≤ (s.spdmLink
      k).waiting.length) ∧
    (∃ (s : State) (k : Nat), k < 3 ∧ k < s.tir.spdm.length ∧ s.fld F.TIR_STATUS_STATE = 1 ∧ (s.spdmLink k).algorithms =
      true) ∧
    (∃ (s : State) (k : Nat) (i : Nat), k < 3 ∧ k < s.tir.spdm.length ∧ s.fld F.TIR_STATUS_STATE = 1 ∧ (s.spdmLink
      k).algorithms = true ∧ i ≠ 0) ∧
    (∃ (s : State) (k : Nat), k < 3 ∧ k < s.tir.spdm.length ∧ s.fld F.TIR_STATUS_STATE = 1 ∧ (s.spdmLink k).algorithms =
      true) ∧
    (∃ (s : State) (k : Nat) (i : Nat), k < 3 ∧ k < s.tir.spdm.length ∧ s.fld F.TIR_STATUS_STATE = 1 ∧ (s.spdmLink
      k).algorithms = true ∧ 1 ≤ i ∧ i ≤ 10) ∧
    (∃ (s : State) (k : Nat) (i : Nat), k < 3 ∧ k < s.tir.spdm.length ∧ s.fld F.TIR_STATUS_STATE = 1 ∧ (s.spdmLink
      k).algorithms = true ∧ (i = 0 ∨ 10 < i) ∧ i ≠ 0xFF) ∧
    (∃ (s : State) (k : Nat), k < 3 ∧ k < s.tir.spdm.length ∧ s.fld F.TIR_STATUS_STATE = 1 ∧ (s.spdmLink k).algorithms =
      true) ∧
    (∃ (s : State) (k : Nat) (c : Nat), k < 3 ∧ k < s.tir.spdm.length ∧ s.fld F.TIR_STATUS_STATE = 1 ∧ [0x81, 0x82, 0x83,
      0x84, 0xE0, 0xE1, 0xE3, 0xFF].contains c = false) :=
  ⟨⟨tirUp.modSpdm 2 fun l => { l with version := true, capabilities := true, algorithms := true }, 2, by decide +kernel⟩,
   ⟨tirUp.modSpdm 2 fun l => { l with version := true, capabilities := true, algorithms := true }, 2, by decide +kernel⟩,
   ⟨tirUp, 2, by decide +kernel⟩,
   ⟨tirUp.modSpdm 2 fun l => { l with version := true, capabilities := true }, 2, by decide +kernel⟩,
   ⟨tirUp.modSpdm 2 fun l => { l with version := true, capabilities := true, algorithms := true }, 2, by decide +kernel⟩,
   ⟨(tirUp.setFld F.TIR_STATUS_STATE 2).modSpdm 2 fun l => { l with waiting := List.replicate 3 .getVersion }, 2, by
     decide +kernel⟩,
   ⟨(tirUp.setFld F.TIR_STATUS_STATE 2).modSpdm 2 fun l => { l with waiting := List.replicate 4 .getVersion }, 2, by
     decide +kernel⟩,
   ⟨tirUp.modSpdm 2 fun l => { l with version := true, capabilities := true, algorithms := true }, 2, by decide +kernel⟩,
   ⟨tirUp.modSpdm 2 fun l => { l with version := true, capabilities := true, algorithms := true }, 2, 7, by decide +kernel⟩,
   ⟨tirUp.modSpdm 2 fun l => { l with version := true, capabilities := true, algorithms := true }, 2, by decide +kernel⟩,
   ⟨tirUp.modSpdm 2 fun l => { l with version := true, capabilities := true, algorithms := true }, 2, 10, by decide +kernel⟩,
   ⟨tirUp.modSpdm 2 fun l => { l with version := true, capabilities := true, algorithms := true }, 2, 11, by decide +kernel⟩,
   ⟨tirUp.modSpdm 2 fun l => { l with version := true, capabilities := true, algorithms := true }, 2, by decide +kernel⟩,
   ⟨tirUp, 2, 0x85, by decide +kernel⟩⟩

theorem witness_TiriumKeysAndImages :
    (∃ (s : State) (n : Nat) (tag : Nat) (addr : Nat) (b : Nat), n < 4 ∧ tag < 2 ^ 23 ∧ s.tir.last.length = 5 ∧ s.fld
      F.TIR_STATUS_STATE = 1 ∧ s.fld (F.TIR_MBX_STATUS_BUSY n) = 0 ∧ (s.tir.last.getD n none).all (fun d => d.tag != tag) =
      true ∧ leField (memBytes addr 512 s.dram) 8 4 = b ∧ 512 + b ≤ 256 * 2 ^ 20) ∧
    (∃ (s : State) (n : Nat) (tag : Nat) (c : Nat) (d : Digest), n < 4 ∧ tag < 2 ^ 23 ∧ s.tir.last.length = 5 ∧ s.fld
      F.TIR_STATUS_STATE = 1 ∧ s.fld (F.TIR_MBX_STATUS_BUSY n) = 0 ∧ (s.tir.last.getD n none).all (fun d => d.tag != tag) =
      true ∧ 2 ≤ c ∧ c ≤ 4 ∧ s.tir.verified.contains (c, d) = true ∧ s.tir.blocks.length = 8) ∧
    (∃ (s : State) (n : Nat) (tag : Nat) (c : Nat) (d : Digest), n < 4 ∧ tag < 2 ^ 23 ∧ s.tir.last.length = 5 ∧ s.fld
      F.TIR_STATUS_STATE = 1 ∧ s.fld (F.TIR_MBX_STATUS_BUSY n) = 0 ∧ (s.tir.last.getD n none).all (fun d => d.tag != tag) =
      true ∧ s.tir.verified.contains (c, d) = false) ∧
    (∃ (s : State) (n : Nat) (tag : Nat) (k : Nat) (ns : Nat) (y : Digest), n < 4 ∧ tag < 2 ^ 23 ∧ s.tir.last.length = 5 ∧
      s.fld F.TIR_STATUS_STATE = 1 ∧ s.fld (F.TIR_MBX_STATUS_BUSY n) = 0 ∧ (s.tir.last.getD n none).all (fun d => d.tag !=
      tag) = true ∧ s.hasCipher = true ∧ k < 112 ∧ s.cip.slots.length = 128 ∧ (s.keySlot k).test = false ∧ (s.keySlot
      k).draining = false ∧ s.cipherMode ns ≠ 0 ∧ s.isKpio ns = false ∧ kget ns s.tir.unwrapped = some y) ∧
    (∃ (s : State) (n : Nat) (tag : Nat) (k : Nat), n < 4 ∧ tag < 2 ^ 23 ∧ s.tir.last.length = 5 ∧ s.fld F.TIR_STATUS_STATE =
      1 ∧ s.fld (F.TIR_MBX_STATUS_BUSY n) = 0 ∧ (s.tir.last.getD n none).all (fun d => d.tag != tag) = true ∧ s.hasCipher =
      true ∧ 112 ≤ k) ∧
    (∃ (s : State) (n : Nat) (tag : Nat) (k : Nat) (ns : Nat) (kt : Nat), n < 4 ∧ tag < 2 ^ 23 ∧ s.tir.last.length = 5 ∧
      s.fld F.TIR_STATUS_STATE = 1 ∧ s.fld (F.TIR_MBX_STATUS_BUSY n) = 0 ∧ (s.tir.last.getD n none).all (fun d => d.tag !=
      tag) = true ∧ s.hasCipher = true ∧ k < 112 ∧ (s.keySlot k).test = false ∧ s.cipherMode ns ≠ 0 ∧ s.isKpio ns = true ∧
      s.injectedKey ns kt = none) ∧
    (∃ (s : State) (n : Nat) (tag : Nat) (ns : Nat), n < 4 ∧ tag < 2 ^ 23 ∧ s.tir.last.length = 5 ∧ s.fld F.TIR_STATUS_STATE
      = 1 ∧ s.fld (F.TIR_MBX_STATUS_BUSY n) = 0 ∧ (s.tir.last.getD n none).all (fun d => d.tag != tag) = true ∧ s.hasCipher =
      true ∧ s.cipherMode ns ≠ 0) ∧
    (∃ (s : State) (n : Nat) (tag : Nat), n < 4 ∧ tag < 2 ^ 23 ∧ s.tir.last.length = 5 ∧ s.fld F.TIR_STATUS_STATE = 1 ∧ s.fld
      (F.TIR_MBX_STATUS_BUSY n) = 0 ∧ (s.tir.last.getD n none).all (fun d => d.tag != tag) = true ∧ s.hasCipher = false) ∧
    (∃ (s : State) (n : Nat) (tag : Nat) (ns : Nat) (kt : Nat) (d : Digest), n < 4 ∧ tag < 2 ^ 23 ∧ s.tir.last.length = 5 ∧
      s.fld F.TIR_STATUS_STATE = 1 ∧ s.fld (F.TIR_MBX_STATUS_BUSY n) = 0 ∧ (s.tir.last.getD n none).all (fun d => d.tag !=
      tag) = true ∧ s.hasCipher = true ∧ s.cipherMode ns ≠ 0 ∧ s.isKpio ns = true ∧ kt < 1024) ∧
    (∃ (s : State) (n : Nat) (tag : Nat) (ns : Nat) (kt : Nat), n < 4 ∧ tag < 2 ^ 23 ∧ s.tir.last.length = 5 ∧ s.fld
      F.TIR_STATUS_STATE = 1 ∧ s.fld (F.TIR_MBX_STATUS_BUSY n) = 0 ∧ (s.tir.last.getD n none).all (fun d => d.tag != tag) =
      true ∧ s.hasCipher = true ∧ (s.isKpio ns = false ∨ 1024 ≤ kt)) ∧
    (∃ (s : State) (n : Nat) (tag : Nat) (c : Nat), n < 4 ∧ tag < 2 ^ 23 ∧ s.tir.last.length = 5 ∧ s.fld F.TIR_STATUS_STATE =
      1 ∧ s.fld (F.TIR_MBX_STATUS_BUSY n) = 0 ∧ (s.tir.last.getD n none).all (fun d => d.tag != tag) = true ∧ 1 ≤ c ∧ c ≤ 32) ∧
    (∃ (s : State) (n : Nat) (tag : Nat) (c : Nat), n < 4 ∧ tag < 2 ^ 23 ∧ s.tir.last.length = 5 ∧ s.fld F.TIR_STATUS_STATE =
      1 ∧ s.fld (F.TIR_MBX_STATUS_BUSY n) = 0 ∧ (s.tir.last.getD n none).all (fun d => d.tag != tag) = true ∧ (c = 0 ∨ 32 <
      c)) ∧
    (∃ (s : State) (n : Nat) (tag : Nat) (r : Nat) (l : List Word), n < 4 ∧ tag < 2 ^ 23 ∧ s.tir.last.length = 5 ∧ s.fld
      F.TIR_STATUS_STATE = 1 ∧ s.fld (F.TIR_MBX_STATUS_BUSY n) = 0 ∧ s.tir.last.getD n none = some ⟨tag, r, l⟩ ∧ r < 256) ∧
    (∃ (s : State) (n : Nat) (tag : Nat), n < 4 ∧ tag < 2 ^ 23 ∧ s.fld F.TIR_STATUS_STATE = 2 ∧ s.fld (F.TIR_MBX_STATUS_BUSY
      n) = 0) ∧
    (∃ (s : State) (n : Nat) (tag : Nat) (op : Nat), n < 4 ∧ tag < 2 ^ 23 ∧ s.tir.last.length = 5 ∧ s.fld F.TIR_STATUS_STATE
      = 1 ∧ s.fld (F.TIR_MBX_STATUS_BUSY n) = 0 ∧ (s.tir.last.getD n none).all (fun d => d.tag != tag) = true ∧ (op = 0 ∨ 12
      < op) ∧ op < 256) :=
  ⟨⟨tirUp, 3, 8388607, 0, 0, by decide +kernel⟩,
   ⟨tirUp.modTir fun x => { x with verified := [(4, 77)] }, 3, 8388607, 4, 77, by decide +kernel⟩,
   ⟨tirUp, 3, 8388607, 4, 77, by decide +kernel⟩,
   ⟨(tirUp.modPattern fun u =>
     { u with active := { u.active with security := { u.active.security with nsCipher := [(1, 3, 0), (2, 1, 1)] } } }).modTir
     fun x => { x with unwrapped := [(1, 9)] }, 3, 8388607, 111, 1, 9, by decide +kernel⟩,
   ⟨tirUp, 3, 8388607, 112, by decide +kernel⟩,
   ⟨tirUp.modPattern fun u =>
     { u with active := { u.active with security := { u.active.security with nsCipher := [(1, 3, 0), (2, 1, 1)] } } }, 3,
     8388607, 111, 2, 5, by decide +kernel⟩,
   ⟨tirUp.modPattern fun u =>
     { u with active := { u.active with security := { u.active.security with nsCipher := [(1, 3, 0), (2, 1, 1)] } } }, 3,
     8388607, 1, by decide +kernel⟩,
   ⟨{ tirUp with fuse := { tirUp.fuse with nSuffix := true } }, 3, 8388607, by decide +kernel⟩,
   ⟨tirUp.modPattern fun u =>
     { u with active := { u.active with security := { u.active.security with nsCipher := [(1, 3, 0), (2, 1, 1)] } } }, 3,
     8388607, 2, 1023, 5, by decide +kernel⟩,
   ⟨tirUp.modPattern fun u =>
     { u with active := { u.active with security := { u.active.security with nsCipher := [(1, 3, 0), (2, 1, 1)] } } }, 3,
     8388607, 2, 1024, by decide +kernel⟩,
   ⟨tirUp, 3, 8388607, 32, by decide +kernel⟩,
   ⟨tirUp, 3, 8388607, 33, by decide +kernel⟩,
   ⟨tirUp.modTir fun x => { x with last := putAt 3 (some ⟨8388607, 7, []⟩) x.last }, 3, 8388607, 7, [], by decide +kernel⟩,
   ⟨tirUp.setFld F.TIR_STATUS_STATE 2, 3, 8388607, by decide +kernel⟩,
   ⟨tirUp, 3, 8388607, 255, by decide +kernel⟩⟩

theorem witness_TiriumAuthorityAndFuses :
    (∃ (s : State) (n : Nat) (tag : Nat) (sc : Nat), n < 4 ∧ tag < 2 ^ 23 ∧ s.tir.last.length = 5 ∧ s.fld F.TIR_STATUS_STATE
      = 1 ∧ s.fld (F.TIR_MBX_STATUS_BUSY n) = 0 ∧ (s.tir.last.getD n none).all (fun d => d.tag != tag) = true ∧
      s.tir.challenges.length = 5 ∧ s.fld F.TIR_STATUS_LOCKOUT = 0 ∧ 1 ≤ sc ∧ sc ≤ 15) ∧
    (∃ (s : State) (n : Nat) (tag : Nat), n < 4 ∧ tag < 2 ^ 23 ∧ s.tir.last.length = 5 ∧ s.fld F.TIR_STATUS_STATE = 1 ∧ s.fld
      (F.TIR_MBX_STATUS_BUSY n) = 0 ∧ (s.tir.last.getD n none).all (fun d => d.tag != tag) = true ∧ s.fld
      F.TIR_STATUS_LOCKOUT = 1) ∧
    (∃ (s : State) (n : Nat) (tag : Nat) (c : Challenge), n < 4 ∧ tag < 2 ^ 23 ∧ s.tir.last.length = 5 ∧ s.fld
      F.TIR_STATUS_STATE = 1 ∧ s.fld (F.TIR_MBX_STATUS_BUSY n) = 0 ∧ (s.tir.last.getD n none).all (fun d => d.tag != tag) =
      true ∧ s.tir.challenges.length = 5 ∧ s.tir.challenges.getD n none = some c ∧ c.scopes < 8) ∧
    (∃ (s : State) (n : Nat) (tag : Nat), n < 4 ∧ tag < 2 ^ 23 ∧ s.tir.last.length = 5 ∧ s.fld F.TIR_STATUS_STATE = 1 ∧ s.fld
      (F.TIR_MBX_STATUS_BUSY n) = 0 ∧ (s.tir.last.getD n none).all (fun d => d.tag != tag) = true ∧ s.tir.challenges.getD n
      none = none) ∧
    (∃ (s : State) (n : Nat) (tag : Nat) (sc : Nat), n < 4 ∧ tag < 2 ^ 23 ∧ s.tir.last.length = 5 ∧ s.fld F.TIR_STATUS_STATE
      = 1 ∧ s.fld (F.TIR_MBX_STATUS_BUSY n) = 0 ∧ (s.tir.last.getD n none).all (fun d => d.tag != tag) = true ∧ sc < 16) ∧
    (∃ (s : State) (n : Nat) (tag : Nat) (c : Nat) (v : Nat), n < 4 ∧ tag < 2 ^ 23 ∧ s.tir.last.length = 5 ∧ s.fld
      F.TIR_STATUS_STATE = 1 ∧ s.fld (F.TIR_MBX_STATUS_BUSY n) = 0 ∧ (s.tir.last.getD n none).all (fun d => d.tag != tag) =
      true ∧ 1 ≤ c ∧ c ≤ 5 ∧ s.fuse.svnBanks.length = 5 ∧ s.fuse.svn (c - 1) < v ∧ v < 2 ^ 64 ∧ (s.fuse.svnBanks.getD (c - 1)
      []).length < 32) ∧
    (∃ (s : State) (n : Nat) (tag : Nat) (c : Nat) (v : Nat), n < 4 ∧ tag < 2 ^ 23 ∧ s.tir.last.length = 5 ∧ s.fld
      F.TIR_STATUS_STATE = 1 ∧ s.fld (F.TIR_MBX_STATUS_BUSY n) = 0 ∧ (s.tir.last.getD n none).all (fun d => d.tag != tag) =
      true ∧ 1 ≤ c ∧ c ≤ 5 ∧ s.fuse.svn (c - 1) < v ∧ v < 2 ^ 64 ∧ 32 ≤ (s.fuse.svnBanks.getD (c - 1) []).length) ∧
    (∃ (s : State) (n : Nat) (tag : Nat) (c : Nat) (v : Nat), n < 4 ∧ tag < 2 ^ 23 ∧ s.tir.last.length = 5 ∧ s.fld
      F.TIR_STATUS_STATE = 1 ∧ s.fld (F.TIR_MBX_STATUS_BUSY n) = 0 ∧ (s.tir.last.getD n none).all (fun d => d.tag != tag) =
      true ∧ v ≤ s.fuse.svn (c - 1)) ∧
    (∃ (s : State) (n : Nat) (tag : Nat), n < 4 ∧ tag < 2 ^ 23 ∧ s.tir.last.length = 5 ∧ s.fld F.TIR_STATUS_STATE = 1 ∧ s.fld
      (F.TIR_MBX_STATUS_BUSY n) = 0 ∧ (s.tir.last.getD n none).all (fun d => d.tag != tag) = true ∧ s.fuse.isSealed = false ∧
      s.fuse.partlyFused = false) ∧
    (∃ (s : State) (n : Nat) (tag : Nat), n < 4 ∧ tag < 2 ^ 23 ∧ s.tir.last.length = 5 ∧ s.fld F.TIR_STATUS_STATE = 1 ∧ s.fld
      (F.TIR_MBX_STATUS_BUSY n) = 0 ∧ (s.tir.last.getD n none).all (fun d => d.tag != tag) = true ∧ s.fuse.isSealed = false ∧
      s.fuse.partlyFused = false) ∧
    (∃ (s : State) (n : Nat) (tag : Nat), n < 4 ∧ tag < 2 ^ 23 ∧ s.tir.last.length = 5 ∧ s.fld F.TIR_STATUS_STATE = 1 ∧ s.fld
      (F.TIR_MBX_STATUS_BUSY n) = 0 ∧ (s.tir.last.getD n none).all (fun d => d.tag != tag) = true ∧ s.fuse.isSealed = true) ∧
    (∃ (s : State) (n : Nat) (tag : Nat), n < 4 ∧ tag < 2 ^ 23 ∧ s.tir.last.length = 5 ∧ s.fld F.TIR_STATUS_STATE = 1 ∧ s.fld
      (F.TIR_MBX_STATUS_BUSY n) = 0 ∧ (s.tir.last.getD n none).all (fun d => d.tag != tag) = true ∧ s.fuse.identityWrap =
      none) ∧
    (∃ (s : State) (n : Nat) (tag : Nat) (w : Digest × Digest), n < 4 ∧ tag < 2 ^ 23 ∧ s.tir.last.length = 5 ∧ s.fld
      F.TIR_STATUS_STATE = 1 ∧ s.fld (F.TIR_MBX_STATUS_BUSY n) = 0 ∧ (s.tir.last.getD n none).all (fun d => d.tag != tag) =
      true ∧ s.fuse.identityWrap = some w) ∧
    (∃ (_ : State) (n : Nat), n < 5) ∧
    (∃ (s : State) (c : Nat), 0 < c ∧ c < 32 ∧ s.keeper.halted = false ∧ s.keeper.powered = true ∧ s.hasCipher = true ∧ s.fld
      F.TIR_ALARM_COUNT < 15 ∧ s.fld F.TIR_STATUS_STATE = 1 ∧ s.fld F.CIP_STATUS_STATE ≠ 4) ∧
    (∃ (s : State) (c : Nat), 0 < c ∧ c < 32 ∧ s.keeper.halted = false ∧ s.keeper.powered = true ∧ 15 ≤ s.fld
      F.TIR_ALARM_COUNT) ∧
    (∃ (s : State), s.fld F.TIR_STATUS_STATE = 2 ∧ s.fld F.CIP_STATUS_STATE = 4 ∧ s.cip.heldState < 8) ∧
    (∃ (s : State), s.fld F.TIR_STATUS_STATE = 3) :=
  ⟨⟨tirUp, 3, 8388607, 15, by decide +kernel⟩,
   ⟨tirUp.flag F.TIR_STATUS_LOCKOUT, 3, 8388607, by decide +kernel⟩,
   ⟨tirUp.modTir fun x => { x with challenges := putAt 3 (some ⟨7, []⟩) x.challenges }, 3, 8388607, ⟨7, []⟩, by
     decide +kernel⟩,
   ⟨tirUp, 3, 8388607, by decide +kernel⟩,
   ⟨tirUp.setGrants 15, 3, 8388607, 5, by decide +kernel⟩,
   ⟨tirUp, 3, 8388607, 5, 18446744073709551615, by decide +kernel⟩,
   ⟨{ tirUp with fuse := { tirUp.fuse with svnBanks := List.replicate 5 (List.replicate 32 7) } }, 3, 8388607, 5, 9, by
     decide +kernel⟩,
   ⟨{ tirUp with fuse := { tirUp.fuse with svnBanks := List.replicate 5 (List.replicate 32 7) } }, 3, 8388607, 5, 7, by
     decide +kernel⟩,
   ⟨tirUp, 3, 8388607, by decide +kernel⟩,
   ⟨tirUp, 3, 8388607, by decide +kernel⟩,
   ⟨{ tirUp with fuse := { tirUp.fuse with isSealed := true } }, 3, 8388607, by decide +kernel⟩,
   ⟨tirUp, 3, 8388607, by decide +kernel⟩,
   ⟨{ tirUp with fuse := { tirUp.fuse with identityWrap := some (1, 2) } }, 3, 8388607, (1, 2), by decide +kernel⟩,
   ⟨tirUp, 4, by decide +kernel⟩,
   ⟨(tirUp.setFld F.TIR_ALARM_COUNT 14).setFld F.CIP_STATUS_STATE 2, 31, by decide +kernel⟩,
   ⟨tirUp.setFld F.TIR_ALARM_COUNT 15, 1, by decide +kernel⟩,
   ⟨(((tirUp.setFld F.TIR_STATUS_STATE 2).setFld F.CIP_STATUS_STATE 4).modSpdm 2 (fun l =>
     { l with waiting := [.getVersion, .getCapabilities] })).modCip fun x => { x with heldState := 2 }, by decide +kernel⟩,
   ⟨tirUp.setFld F.TIR_STATUS_STATE 3, by decide +kernel⟩⟩

theorem witness_Sideband :
    (∃ (s : State) (y : Nat), s.sidebandRuns = true ∧ y ≠ 0 ∧ y ≠ 4 ∧ y ≠ 5) ∧
    (∃ (s : State) (y : Nat), s.sidebandRuns = true ∧ s.fld F.SYS_BALL_FUNC_SIDEBAND_FN = 0 ∧ (y = 0 ∨ y = 4 ∨ y = 5)) ∧
    (∃ (s : State) (k : Nat) (y : Nat), (k = 1 ∨ k = 2) ∧ s.mctpRuns = true ∧ y ≠ 5) ∧
    (∃ (s : State) (k : Nat), (2 < k ∧ k ≠ 3 ∨ s.mctpRuns = false ∧ s.sidebandRuns = false)) ∧
    (∃ (s : State) (e : Nat), s.sidebandRuns = true ∧ e < 256) ∧
    (∃ (s : State), s.sidebandRuns = true) ∧
    (∃ (s : State), s.sidebandRuns = true) ∧
    (∃ (s : State) (v : Nat), s.sidebandRuns = true ∧ v < 2 ^ 32) ∧
    (∃ (s : State) (k : Nat), s.sidebandRuns = true ∧ s.controller k = none) ∧
    (∃ (s : State) (k : Nat), s.sidebandRuns = true ∧ (isPf k = false ∨ s.controller k = none)) ∧
    (∃ (s : State) (q : Sqe) (k : Nat), s.sidebandRuns = true ∧ isPf k = true ∧ (s.controller k).isSome = true ∧ [0x02, 0x06,
      0x09, 0x0A, 0x10, 0x11].contains q.opcode = false) ∧
    (∃ (s : State) (q : Sqe) (k : Nat), s.sidebandRuns = true ∧ isPf k = true ∧ (s.controller k).isSome = true ∧ [0x02, 0x06,
      0x09, 0x0A, 0x10, 0x11].contains q.opcode = true ∧ (s.poolFor k false).isSome = true) ∧
    (∃ (s : State), s.sidebandRuns = true ∧ s.hostResets = true ∧ s.record.atReset = false) ∧
    (∃ (s : State), s.sidebandRuns = false) :=
  ⟨⟨{ running with cast := { running.cast with built := true } }, 6, by decide +kernel⟩,
   ⟨{ running with cast := { running.cast with built := true } }, 4, by decide +kernel⟩,
   ⟨{ running with cast := { running.cast with built := true } }, 2, 4, by decide +kernel⟩,
   ⟨{ running with cast := { running.cast with built := true } }, 4, by decide +kernel⟩,
   ⟨{ running with cast := { running.cast with built := true } }, 255, by decide +kernel⟩,
   ⟨{ running with cast := { running.cast with built := true } }, by decide +kernel⟩,
   ⟨{ running with cast := { running.cast with built := true } }, by decide +kernel⟩,
   ⟨{ running with cast := { running.cast with built := true } }, 4294967295, by decide +kernel⟩,
   ⟨{ running with cast := { running.cast with built := true } }, 7, by decide +kernel⟩,
   ⟨{ attached with cast := { attached.cast with built := true }, flow := { attached.flow with ledger := List.replicate 23 9, census := List.replicate 23 9 } },
     1, by decide +kernel⟩,
   ⟨{ attached with cast := { attached.cast with built := true }, flow := { attached.flow with ledger := List.replicate 23 9, census := List.replicate 23 9 } },
     sqe 0x80 0 0, 0, by decide +kernel⟩,
   ⟨{ attached with cast := { attached.cast with built := true }, flow := { attached.flow with ledger := List.replicate 23 9, census := List.replicate 23 9 } },
     sqe 0x11 0 0, 0, by decide +kernel⟩,
   ⟨{ attached with cast := { attached.cast with built := true }, flow := { attached.flow with ledger := List.replicate 23 9, census := List.replicate 23 9 } },
     by decide +kernel⟩,
   ⟨running, by decide +kernel⟩⟩

theorem witness_LadderScrubRewrite :
    (∃ (s : State) (a : Nat) (i : Nat) (f : FailedSector), s.startable a = some f ∧ s.darn.runs.find? (fun r => r.psa ==
      f.psa) = none ∧ f.claim = some i ∧ a < 2) ∧
    (∃ (s : State) (a : Nat) (f : FailedSector) (r : LadderRun), s.startable a = some f ∧ s.darn.runs.find? (fun r => r.psa
      == f.psa) = some r) ∧
    (∃ (s : State) (a : Nat), s.startable a = none) ∧
    (∃ (s : State) (n : Nat) (r : LadderRun) (x : MediaSector), s.darn.runs.find? (fun q => q.id == n) = some r ∧ 1 ≤ r.step
      ∧ r.step ≤ 7 ∧ s.recoveredSector r = some x ∧ r.joined = []) ∧
    (∃ (s : State) (n : Nat) (k : Nat) (r : LadderRun), s.darn.runs.find? (fun q => q.id == n) = some r ∧ r.step ≠ 3 ∧
      s.nextStep r r.step = k ∧ k ≠ 8) ∧
    (∃ (s : State) (n : Nat) (r : LadderRun), s.darn.runs.find? (fun q => q.id == n) = some r ∧ r.step ≠ 3 ∧ s.nextStep r
      r.step = 8 ∧ r.joined = []) ∧
    (∃ (s : State) (n : Nat), s.darn.runs.find? (fun q => q.id == n) = none) ∧
    (∃ (s : State) (a : Nat) (d : Nat) (p : Nat), s.fld F.DRN_CTRL_SCRUB_EN = 1 ∧ s.hasAct a = true ∧ s.fld
      F.ORD_LEDGER_STATUS_WRITE_HOLD = 0 ∧ s.fld (F.ACT_STATUS_LOAD_STATE a) = 2 ∧ (s.actZoneRange a).2 ≠ 0 ∧ s.flow.ops.any
      (fun o => o.act == a && o.purpose == .scrub) = false ∧ (s.flow.claims.filter fun c => c.owner == 6).length < 40 ∧
      s.freeClaim.isSome = true ∧ s.darn.priority = [d] ∧ s.resolve d = .at p ∧ psaAct p = a) ∧
    (∃ (s : State) (a : Nat), (s.fld F.DRN_CTRL_SCRUB_EN = 0 ∨ s.fld F.ORD_LEDGER_STATUS_WRITE_HOLD = 1 ∨ s.fld
      (F.ACT_STATUS_LOAD_STATE a) ≠ 2)) ∧
    (∃ (s : State) (z : Nat), z < 2 ^ 19 ∧ s.rewriteRefusal z ≠ 0) ∧
    (∃ (s : State) (z : Nat), z < 2 ^ 19 ∧ s.rewriteRefusal z = 0 ∧ s.fld F.ORD_LEDGER_STATUS_WRITE_HOLD = 0 ∧ (s.zdesc
      z).gen ≠ 0xFFFFFFFF ∧ s.stitch.held = [] ∧ s.stitch.rebuilding = [] ∧ s.journalFull = false) ∧
    (∃ (s : State) (z : Nat), z < 2 ^ 19 ∧ s.rewriteRefusal z = 0 ∧ s.fld F.ORD_LEDGER_STATUS_WRITE_HOLD = 1) ∧
    (∃ (s : State) (z : Nat), z < 2 ^ 19 ∧ s.rewriteRefusal z = 0 ∧ s.fld F.ORD_LEDGER_STATUS_WRITE_HOLD = 0 ∧ (s.zdesc
      z).gen = 0xFFFFFFFF ∧ s.stitch.held = [] ∧ s.stitch.rebuilding = [] ∧ s.journalFull = false) ∧
    (∃ (s : State), s.darn.due.length ≤ 64) ∧
    (∃ (s : State) (r : Rewrite) (sh : ZoneShape), s.darn.rewrite = some r ∧ s.zoneShape r.zone = some sh ∧ s.darn.required =
      []) ∧
    (∃ (s : State), s.darn.rewrite = none) :=
  ⟨⟨laddering 2 |>.modDarn fun x => { x with runs := [] }, 1, 3, failedOne, by decide +kernel⟩,
   ⟨laddering 2, 1, failedOne, ladderRun 2, by decide +kernel⟩,
   ⟨laddering 2, 0, by decide +kernel⟩,
   ⟨laddering 2, 6, ladderRun 2, ⟨9, 0, 0, 0, [], [], [], false⟩, by decide +kernel⟩,
   ⟨laddering 2, 6, 3, ladderRun 2, by decide +kernel⟩,
   ⟨laddering 7, 6, ladderRun 7, by decide +kernel⟩,
   ⟨laddering 2, 7, by decide +kernel⟩,
   ⟨scrubbing, 0, 5, scrubbing.layoutPsa 5, by decide +kernel⟩,
   ⟨zoned, 0, by decide +kernel⟩,
   ⟨rewriting, 2, by decide +kernel⟩,
   ⟨zoneIn zoned .closed 0, 3, by decide +kernel⟩,
   ⟨(zoneIn zoned .closed 0).flag F.ORD_LEDGER_STATUS_WRITE_HOLD, 3, by decide +kernel⟩,
   ⟨zoned.setZdesc 3 ⟨0xFFFFFFFF, 0, 7, .full, 0⟩, 3, by decide +kernel⟩,
   ⟨zoned.modDarn fun x => { x with due := [3, 2] }, by decide +kernel⟩,
   ⟨rewriting, ⟨3, 0, 2, .closed⟩, (rewriting.zoneShape 3).getD ⟨true, 0, 0, 0, 0, 0⟩, by decide +kernel⟩,
   ⟨zoned, by decide +kernel⟩⟩

theorem witness_MemoryProtection :
    (∃ (s : State) (d : Nat) (p : Nat) (g : Nat), s.fld F.MEM_CTRL_SCRUB_EN = 1 ∧ d < 2 ∧ p < 2 ^ 20 ∧ s.regionOf d p ≠ 0 ∧
      s.prot.quarantined.contains (p, d) = false ∧ s.prot.retired.contains (p, d) = false ∧ s.prot.decoding.any (fun e => e.1
      == p && e.2.1 == d) = false ∧ s.correctedOf (64 * p + g % 64) d + 1 < s.fld F.MEM_THRESH_HARD_CE) ∧
    (∃ (s : State) (d : Nat) (p : Nat) (g : Nat), s.fld F.MEM_CTRL_SCRUB_EN = 1 ∧ d < 2 ∧ p < 2 ^ 20 ∧ s.regionOf d p ≠ 0 ∧
      s.prot.quarantined.contains (p, d) = false ∧ s.prot.retired.contains (p, d) = false ∧ s.prot.decoding.any (fun e => e.1
      == p && e.2.1 == d) = false ∧ s.fld F.MEM_THRESH_HARD_CE ≤ s.correctedOf (64 * p + g % 64) d + 1 ∧
      s.prot.remap.contains (64 * p + g % 64, d) = false ∧ s.prot.remap.length < 64) ∧
    (∃ (s : State) (d : Nat) (p : Nat) (g : Nat), s.fld F.MEM_CTRL_SCRUB_EN = 1 ∧ d < 2 ∧ p < 2 ^ 20 ∧ s.regionOf d p ≠ 0 ∧
      s.prot.quarantined.contains (p, d) = false ∧ s.prot.retired.contains (p, d) = false ∧ s.prot.decoding.any (fun e => e.1
      == p && e.2.1 == d) = false ∧ s.fld F.MEM_THRESH_HARD_CE ≤ s.correctedOf (64 * p + g % 64) d + 1 ∧
      s.prot.remap.contains (64 * p + g % 64, d) = false ∧ 64 ≤ s.prot.remap.length ∧ bufferRegion (s.regionOf d p) = true) ∧
    (∃ (s : State) (d : Nat) (p : Nat) (g : Nat), s.fld F.MEM_CTRL_SCRUB_EN = 1 ∧ d < 2 ∧ p < 2 ^ 20 ∧ s.regionOf d p ≠ 0 ∧
      s.prot.quarantined.contains (p, d) = false ∧ s.prot.retired.contains (p, d) = false ∧ s.prot.decoding.any (fun e => e.1
      == p && e.2.1 == d) = false ∧ s.prot.writtenBack.contains (64 * p + g % 64, d) = false) ∧
    (∃ (s : State) (d : Nat) (p : Nat), (s.fld F.MEM_CTRL_SCRUB_EN = 0 ∨ s.regionOf d p = 0)) ∧
    (∃ (s : State) (d : Nat) (p : Nat) (n : Nat) (e : Nat × Nat × List Nat), s.prot.decoding.find? (fun x => x.1 == p &&
      x.2.1 == d) = some e ∧ d < 2 ∧ 2 * n + 4 * e.2.2.length ≤ 16 ∧ s.prot.fixedOnce.contains (p, d) = false) ∧
    (∃ (s : State) (d : Nat) (p : Nat) (n : Nat) (e : Nat × Nat × List Nat), s.prot.decoding.find? (fun x => x.1 == p &&
      x.2.1 == d) = some e ∧ d < 2 ∧ 2 * n + 4 * e.2.2.length ≤ 16 ∧ s.prot.fixedOnce.contains (p, d) = true ∧ bufferRegion
      (s.regionOf d p) = true) ∧
    (∃ (s : State) (d : Nat) (p : Nat) (n : Nat) (e : Nat × Nat × List Nat), s.prot.decoding.find? (fun x => x.1 == p &&
      x.2.1 == d) = some e ∧ d < 2 ∧ 16 < 2 * n + 4 * e.2.2.length ∧ bufferRegion (s.regionOf d p) = true) ∧
    (∃ (s : State) (d : Nat) (p : Nat) (n : Nat) (e : Nat × Nat × List Nat), s.prot.decoding.find? (fun x => x.1 == p &&
      x.2.1 == d) = some e ∧ d < 2 ∧ 16 < 2 * n + 4 * e.2.2.length ∧ bufferRegion (s.regionOf d p) = false ∧
      (s.prot.retired.filter fun r => r.2 == d).length < 1024) ∧
    (∃ (s : State) (d : Nat) (p : Nat), s.prot.decoding.find? (fun x => x.1 == p && x.2.1 == d) = none) ∧
    (∃ (s : State) (d : Nat) (p : Nat) (b : Bool) (l : List PageRepair), s.prot.repairs = ⟨d, p, .free, b⟩ :: l ∧ s.avail
      Class.free ≠ 0) ∧
    (∃ (s : State) (d : Nat) (p : Nat) (y : Nat) (b : Bool) (l : List PageRepair), s.prot.repairs = ⟨d, p, .clean y, b⟩ :: l
      ∧ s.flow.clean.any (fun c => c.dla == y) = false) ∧
    (∃ (s : State), s.prot.repairs = []) ∧
    (∃ (_ : State) (n : Nat), n < 48 * 2 ^ 20) ∧
    (∃ (_ : State) (n : Nat), n < 48 * 2 ^ 20) ∧
    (∃ (s : State) (n : Nat) (k : Nat), n < 48 * 2 ^ 20 ∧ k < 6 ∧ s.pairs.length = 6) ∧
    (∃ (_ : State) (n : Nat), 48 * 2 ^ 20 ≤ n) :=
  ⟨⟨(paged 1).setFld F.MEM_THRESH_HARD_CE 2, 1, 8, 63, by decide +kernel⟩,
   ⟨(paged 1).setFld F.MEM_THRESH_HARD_CE 1, 1, 8, 63, by decide +kernel⟩,
   ⟨((paged 2).setFld F.MEM_THRESH_HARD_CE 1).modProt fun x => { x with remap := List.replicate 64 (7, 0) }, 1, 8, 63, by
     decide +kernel⟩,
   ⟨paged 1, 1, 8, 63, by decide +kernel⟩,
   ⟨running, 1, 8, by decide +kernel⟩,
   ⟨paged 1, 1, 9, 6, (9, 1, [3]), by decide +kernel⟩,
   ⟨(paged 3).modProt fun x => { x with fixedOnce := [(9, 1)] }, 1, 9, 6, (9, 1, [3]), by decide +kernel⟩,
   ⟨paged 6, 1, 9, 7, (9, 1, [3]), by decide +kernel⟩,
   ⟨paged 1, 1, 9, 7, (9, 1, [3]), by decide +kernel⟩,
   ⟨paged 1, 1, 10, by decide +kernel⟩,
   ⟨(paged 2).modProt (fun x => { x with repairs := [⟨1, 8, .free, true⟩] }) |>.modFlow fun f =>
     { f with census := List.replicate 23 3 }, 1, 8, true, [], by decide +kernel⟩,
   ⟨(paged 2).modProt fun x => { x with repairs := [⟨1, 8, .clean 5, true⟩] }, 1, 8, 5, true, [], by decide +kernel⟩,
   ⟨paged 2, by decide +kernel⟩,
   ⟨running, 0, by decide +kernel⟩,
   ⟨running, 50331647, by decide +kernel⟩,
   ⟨takingOver, 0, 3, by decide +kernel⟩,
   ⟨running, 50331648, by decide +kernel⟩⟩

theorem witness_CipherEngine :
    (∃ (s : State), s.hasCipher = true ∧ s.fld F.CIP_STATUS_STATE = 0) ∧
    (∃ (s : State), s.hasCipher = false) ∧
    (∃ (s : State) (n : Nat), s.fld F.CIP_STATUS_STATE = 1 ∧ (List.range 4).any (fun c => !s.cip.faulted.testBit c &&
      n.testBit c) = true) ∧
    (∃ (s : State) (n : Nat), s.fld F.CIP_STATUS_STATE = 1 ∧ (List.range 4).any (fun c => !s.cip.faulted.testBit c &&
      n.testBit c) = false) ∧
    (∃ (s : State), s.fld F.CIP_STATUS_STATE = 2) ∧
    (∃ (s : State) (w : CipherWork), s.fld F.CIP_STATUS_STATE = 2 ∧ s.cip.queue = [w] ∧ w.op = 0 ∧ s.cip.threads.length = 4 ∧
      s.cip.threads.all (fun x => x.work.isNone) = true) ∧
    (∃ (s : State), s.fld F.CIP_STATUS_STATE = 1) ∧
    (∃ (s : State), s.fld F.CIP_STATUS_STATE = 3 ∧ s.cip.cores.all (·.isEmpty) = true ∧ s.cip.threads.all (fun x =>
      x.work.isNone) = true) ∧
    (∃ (s : State), s.fld F.CIP_STATUS_STATE ≠ 3) ∧
    (∃ (s : State) (c : Nat) (w : CipherWork), s.coreOk c = true ∧ s.cip.cores.length = 4 ∧ s.cip.threads.length = 4 ∧
      (s.thread c).work = some w) ∧
    (∃ (s : State) (c : Nat), s.coreOk c = false) ∧
    (∃ (s : State), s.hasCipher = true ∧ s.cip.slots.length = 128) ∧
    (∃ (s : State), s.hasCipher = false) ∧
    (∃ (s : State) (k : Nat), s.cip.slots.length = 128 ∧ k < 128 ∧ (s.keySlot k).draining = true ∧ s.livePins (s.keySlot
      k).pinnedOld = []) ∧
    (∃ (s : State) (k : Nat), (s.keySlot k).draining = false) ∧
    (∃ (s : State) (a : Nat) (m : Nat) (k : Nat), s.hasCipher = true ∧ s.cip.slots.length = 128 ∧ k < 112 ∧ (s.keySlot
      k).test = true ∧ 1 ≤ a ∧ a ≤ 3 ∧ m ≤ 3 ∧ (s.keySlot k).draining = false) ∧
    (∃ (s : State) (k : Nat), s.hasCipher = true ∧ (112 ≤ k ∨ (s.keySlot k).test = false)) ∧
    (∃ (s : State) (a : Nat) (m : Nat) (k : Nat), s.hasCipher = true ∧ k < 112 ∧ (s.keySlot k).test = true ∧ 1 ≤ a ∧ a ≤ 3 ∧
      m ≤ 3 ∧ (s.keySlot k).draining = true) ∧
    (∃ (s : State) (k : Nat) (o : Nat), s.hasCipher = true ∧ s.fld F.CIP_JOB_STATUS_BUSY = 0 ∧ k < 112 ∧ o < 2 ∧ (s.keySlot
      k).test = true ∧ s.fld F.CIP_STATUS_STATE = 2 ∧ (s.keySlot k).bank.isSome = true) ∧
    (∃ (s : State) (k : Nat), s.hasCipher = true ∧ s.fld F.CIP_JOB_STATUS_BUSY = 0 ∧ (s.keySlot k).test = false) ∧
    (∃ (s : State) (k : Nat), s.hasCipher = true ∧ s.fld F.CIP_JOB_STATUS_BUSY = 0 ∧ k < 112 ∧ (s.keySlot k).test = true ∧
      s.fld F.CIP_STATUS_STATE ≠ 2) ∧
    (∃ (s : State) (r : Nat), s.fld F.CIP_JOB_STATUS_BUSY = 1 ∧ s.cip.jobResult = some r ∧ r < 4) ∧
    (∃ (s : State), s.cip.jobResult = none) ∧
    (∃ (s : State) (c : Nat) (b : CoreBlock) (l : List CoreBlock), s.cip.cores.getD c [] = b :: l ∧ s.cip.cores.length = 4 ∧
      s.cip.freed.length = 4 ∧ s.cip.threads.length = 4 ∧ c < 4 ∧ b.thread < 4 ∧ b.reg < 8 ∧ (s.thread b.thread).regs.length
      = 8) ∧
    (∃ (s : State) (c : Nat), s.cip.cores.getD c [] = []) ∧
    (∃ (s : State), s.hasCipher = true ∧ s.fld F.ROWT_STATUS_GUARD = 0 ∧ s.flow.census.length = 23 ∧ s.cip.taken.length = 4 ∧
      s.cip.freed.length = 4 ∧ s.flow.held = [] ∧ (∀ c : Nat, c < 4 → s.cip.taken.getD c 0 ≤ s.census (Class.tokenFree c) ∧
      s.cip.freed.getD c 0 ≤ s.census (Class.tokenHeld c) + s.cip.taken.getD c 0)) ∧
    (∃ (s : State), s.hasCipher = true ∧ s.fld F.CIP_STATUS_STATE = 0 ∧ s.fld F.CIP_CTRL_HOOK_WE = 1 ∧ s.cip.program.length =
      1024) ∧
    (∃ (s : State), s.hasCipher = true ∧ s.fld F.CIP_STATUS_STATE ≠ 0) ∧
    (∃ (s : State), s.hasCipher = true ∧ s.fld F.CIP_STATUS_STATE = 0) ∧
    (∃ (s : State), s.hasCipher = true ∧ s.fld F.CIP_STATUS_STATE ≠ 0) :=
  ⟨⟨running, by decide +kernel⟩,
   ⟨{ running with fuse := { running.fuse with nSuffix := true } }, by decide +kernel⟩,
   ⟨(running.setFld F.CIP_STATUS_STATE 1).modCip fun c => { c with faulted := 8 }, 11, by decide +kernel⟩,
   ⟨(running.setFld F.CIP_STATUS_STATE 1).modCip fun c => { c with faulted := 8 }, 8, by decide +kernel⟩,
   ⟨cipherUp, by decide +kernel⟩,
   ⟨cipherUp.modCip fun c => { c with queue := [jobWork] }, jobWork, by decide +kernel⟩,
   ⟨running.setFld F.CIP_STATUS_STATE 1, by decide +kernel⟩,
   ⟨running.setFld F.CIP_STATUS_STATE 3, by decide +kernel⟩,
   ⟨cipherUp, by decide +kernel⟩,
   ⟨hooked 4 0, 2, jobWork, by decide +kernel⟩,
   ⟨running, 3, by decide +kernel⟩,
   ⟨cipherUp.setFld F.CIP_SLOT_SEL_SLOT 115, by decide +kernel⟩,
   ⟨{ running with fuse := { running.fuse with nSuffix := true } }, by decide +kernel⟩,
   ⟨cipherUp.modKeySlot 115 fun x => { x with draining := true, pinnedOld := [9] }, 115, by decide +kernel⟩,
   ⟨cipherUp, 115, by decide +kernel⟩,
   ⟨cipherUp.modKeySlot 111 fun _ => testSlot, 3, 2, 111, by decide +kernel⟩,
   ⟨cipherUp, 111, by decide +kernel⟩,
   ⟨cipherUp.modKeySlot 111 fun _ => { testSlot with draining := true }, 3, 2, 111, by decide +kernel⟩,
   ⟨(cipherUp.clr F.CIP_JOB_STATUS_BUSY |>.setFld F.CIP_JOB_LEN_BLOCKS 3).modKeySlot 111 fun _ => testSlot, 111, 1, by
     decide +kernel⟩,
   ⟨cipherUp.clr F.CIP_JOB_STATUS_BUSY, 111, by decide +kernel⟩,
   ⟨((cipherUp.clr F.CIP_JOB_STATUS_BUSY).setFld F.CIP_STATUS_STATE 0).modKeySlot 111 fun _ => testSlot, 111, by
     decide +kernel⟩,
   ⟨cipherUp.modCip fun c => { c with jobResult := some 1 }, 1, by decide +kernel⟩,
   ⟨cipherUp, by decide +kernel⟩,
   ⟨(hooked 4 0).modCip fun c => { c with cores := putAt 2 [⟨2, 3, 99⟩] c.cores }, 2, ⟨2, 3, 99⟩, [], by decide +kernel⟩,
   ⟨cipherUp, 3, by decide +kernel⟩,
   ⟨cipherUp.modCip (fun c => { c with taken := [3, 0, 2, 1], freed := [1, 0, 2, 0] }) |>.modFlow fun f =>
     { f with census := List.replicate 23 9 }, by decide +kernel⟩,
   ⟨(running.flag F.CIP_CTRL_HOOK_WE).setFld F.CIP_HOOK_ADDR_ADDR 1023, by decide +kernel⟩,
   ⟨cipherUp, by decide +kernel⟩,
   ⟨running, by decide +kernel⟩,
   ⟨cipherUp, by decide +kernel⟩⟩

theorem witness_HookSequencer :
    (∃ (s : State) (n : Nat) (i : Word) (w : CipherWork) (b : BitVec 128) (l : List (BitVec 128)), n < 4 ∧
      s.cip.threads.length = 4 ∧ (s.thread n).work = some w ∧ s.cip.program.getD (s.thread n).pc 0 = i ∧ hookOp i = 1 ∧
      ((s.thread n).v (hookD i)).isSome = true ∧ hookImm i = 0 ∧ (s.thread n).input = b :: l) ∧
    (∃ (s : State) (n : Nat) (i : Word) (w : CipherWork), n < 4 ∧ s.cip.threads.length = 4 ∧ (s.thread n).work = some w ∧
      s.cip.program.getD (s.thread n).pc 0 = i ∧ hookOp i = 1 ∧ ((s.thread n).v (hookD i)).isSome = true ∧ hookImm i = 1) ∧
    (∃ (s : State) (n : Nat) (i : Word) (w : CipherWork), n < 4 ∧ s.cip.threads.length = 4 ∧ (s.thread n).work = some w ∧
      s.cip.program.getD (s.thread n).pc 0 = i ∧ hookOp i = 1 ∧ ((s.thread n).v (hookD i)).isSome = true ∧ hookImm i = 4) ∧
    (∃ (s : State) (n : Nat) (i : Word) (w : CipherWork), n < 4 ∧ s.cip.threads.length = 4 ∧ (s.thread n).work = some w ∧
      s.cip.program.getD (s.thread n).pc 0 = i ∧ hookOp i = 1 ∧ ((s.thread n).v (hookD i)).isSome = true ∧ 5 < hookImm i) ∧
    (∃ (s : State) (n : Nat) (i : Word) (w : CipherWork) (a : BitVec 128) (k : Bank), n < 4 ∧ s.cip.threads.length = 4 ∧
      (s.thread n).work = some w ∧ s.cip.program.getD (s.thread n).pc 0 = i ∧ hookOp i = 2 ∧ ((s.thread n).v (hookD
      i)).isSome = true ∧ (s.thread n).v (hookA i) = some a ∧ s.fld F.ROWT_STATUS_GUARD = 0 ∧ s.coreOk n = true ∧
      (s.cip.cores.getD n []).length < 64 ∧ s.cip.cores.length = 4 ∧ s.cip.taken.length = 4 ∧ (s.keySlot w.slot).bankOf w.op
      = some k) ∧
    (∃ (s : State) (n : Nat) (i : Word) (w : CipherWork) (a : BitVec 128) (k : Bank), n < 4 ∧ s.cip.threads.length = 4 ∧
      (s.thread n).work = some w ∧ s.cip.program.getD (s.thread n).pc 0 = i ∧ hookOp i = 3 ∧ ((s.thread n).v (hookD
      i)).isSome = true ∧ (s.thread n).v (hookA i) = some a ∧ s.fld F.ROWT_STATUS_GUARD = 0 ∧ s.coreOk n = true ∧
      (s.cip.cores.getD n []).length < 64 ∧ s.cip.cores.length = 4 ∧ s.cip.taken.length = 4 ∧ (s.keySlot w.slot).bankOf w.op
      = some k) ∧
    (∃ (s : State) (n : Nat) (i : Word) (w : CipherWork), n < 4 ∧ s.cip.threads.length = 4 ∧ (s.thread n).work = some w ∧
      s.cip.program.getD (s.thread n).pc 0 = i ∧ hookOp i = 2 ∧ s.fld F.ROWT_STATUS_GUARD = 1) ∧
    (∃ (s : State) (n : Nat) (i : Word) (w : CipherWork) (a : BitVec 128) (b : BitVec 128), n < 4 ∧ s.cip.threads.length = 4
      ∧ (s.thread n).work = some w ∧ s.cip.program.getD (s.thread n).pc 0 = i ∧ hookOp i = 4 ∧ ((s.thread n).v (hookD
      i)).isSome = true ∧ (s.thread n).v (hookA i) = some a ∧ (s.thread n).v (hookB i) = some b) ∧
    (∃ (s : State) (n : Nat) (i : Word) (w : CipherWork), n < 4 ∧ s.cip.threads.length = 4 ∧ (s.thread n).work = some w ∧
      s.cip.program.getD (s.thread n).pc 0 = i ∧ hookOp i = 4 ∧ (s.thread n).v (hookA i) = none) ∧
    (∃ (s : State) (n : Nat) (i : Word) (w : CipherWork) (a : BitVec 128) (b : BitVec 128), n < 4 ∧ s.cip.threads.length = 4
      ∧ (s.thread n).work = some w ∧ s.cip.program.getD (s.thread n).pc 0 = i ∧ hookOp i = 5 ∧ ((s.thread n).v (hookD
      i)).isSome = true ∧ (s.thread n).v (hookA i) = some a ∧ (s.thread n).v (hookB i) = some b ∧ hookImm i % 4 = 1) ∧
    (∃ (s : State) (n : Nat) (i : Word) (w : CipherWork) (a : BitVec 128) (b : BitVec 128), n < 4 ∧ s.cip.threads.length = 4
      ∧ (s.thread n).work = some w ∧ s.cip.program.getD (s.thread n).pc 0 = i ∧ hookOp i = 5 ∧ ((s.thread n).v (hookD
      i)).isSome = true ∧ (s.thread n).v (hookA i) = some a ∧ (s.thread n).v (hookB i) = some b ∧ hookImm i % 2 = 0) ∧
    (∃ (s : State) (n : Nat) (i : Word) (w : CipherWork) (a : BitVec 128), n < 4 ∧ s.cip.threads.length = 4 ∧ (s.thread
      n).work = some w ∧ s.cip.program.getD (s.thread n).pc 0 = i ∧ hookOp i = 5 ∧ ((s.thread n).v (hookD i)).isSome = true ∧
      (s.thread n).v (hookA i) = some a ∧ hookImm i % 4 = 3) ∧
    (∃ (s : State) (n : Nat) (i : Word) (w : CipherWork) (a : BitVec 128), n < 4 ∧ s.cip.threads.length = 4 ∧ (s.thread
      n).work = some w ∧ s.cip.program.getD (s.thread n).pc 0 = i ∧ hookOp i = 6 ∧ ((s.thread n).v (hookD i)).isSome = true ∧
      (s.thread n).v (hookA i) = some a) ∧
    (∃ (s : State) (n : Nat) (i : Word) (w : CipherWork), n < 4 ∧ s.cip.threads.length = 4 ∧ (s.thread n).work = some w ∧
      s.cip.program.getD (s.thread n).pc 0 = i ∧ hookOp i = 7 ∧ ((s.thread n).v (hookD i)).isSome = true) ∧
    (∃ (s : State) (n : Nat) (i : Word) (w : CipherWork) (a : BitVec 128), n < 4 ∧ s.cip.threads.length = 4 ∧ (s.thread
      n).work = some w ∧ s.cip.program.getD (s.thread n).pc 0 = i ∧ hookOp i = 8 ∧ (s.thread n).v (hookA i) = some a ∧
      s.cutRead w = none) ∧
    (∃ (s : State) (n : Nat) (i : Word) (w : CipherWork) (a : BitVec 128), n < 4 ∧ s.cip.threads.length = 4 ∧ (s.thread
      n).work = some w ∧ s.cip.program.getD (s.thread n).pc 0 = i ∧ hookOp i = 9 ∧ (s.thread n).v (hookA i) = some a ∧
      w.encrypt = true) ∧
    (∃ (s : State) (n : Nat) (i : Word) (w : CipherWork) (a : BitVec 128), n < 4 ∧ s.cip.threads.length = 4 ∧ (s.thread
      n).work = some w ∧ s.cip.program.getD (s.thread n).pc 0 = i ∧ hookOp i = 9 ∧ (s.thread n).v (hookA i) = some a ∧
      w.encrypt = false) ∧
    (∃ (s : State) (n : Nat) (i : Word) (w : CipherWork), n < 4 ∧ s.cip.threads.length = 4 ∧ (s.thread n).work = some w ∧
      s.cip.program.getD (s.thread n).pc 0 = i ∧ hookOp i = 10 ∧ hookImm i ≠ 0 ∧ (s.thread n).input ≠ []) ∧
    (∃ (s : State) (n : Nat) (i : Word) (w : CipherWork), n < 4 ∧ s.cip.threads.length = 4 ∧ (s.thread n).work = some w ∧
      s.cip.program.getD (s.thread n).pc 0 = i ∧ hookOp i = 10 ∧ (s.thread n).input = []) ∧
    (∃ (s : State) (n : Nat) (i : Word) (w : CipherWork), n < 4 ∧ s.cip.threads.length = 4 ∧ (s.thread n).work = some w ∧
      s.cip.program.getD (s.thread n).pc 0 = i ∧ hookOp i = 11 ∧ w.op = 0 ∧ w.mode = 2) ∧
    (∃ (s : State) (n : Nat) (o : Nat) (i : Word) (w : CipherWork), n < 4 ∧ s.cip.threads.length = 4 ∧ (s.thread n).work =
      some w ∧ s.cip.program.getD (s.thread n).pc 0 = i ∧ hookOp i = o ∧ (o = 0 ∨ 11 < o)) :=
  ⟨⟨hooked 1 0, 2, hookWord 1 0, jobWork, 7, [8], by decide +kernel⟩,
   ⟨hooked 1 1, 2, hookWord 1 1, jobWork, by decide +kernel⟩,
   ⟨hooked 1 4, 2, hookWord 1 4, jobWork, by decide +kernel⟩,
   ⟨hooked 1 6, 2, hookWord 1 6, jobWork, by decide +kernel⟩,
   ⟨hooked 2 0, 2, hookWord 2 0, jobWork, 5, testBank, by decide +kernel⟩,
   ⟨hooked 3 0, 2, hookWord 3 0, jobWork, 5, testBank, by decide +kernel⟩,
   ⟨(hooked 2 0).flag F.ROWT_STATUS_GUARD, 2, hookWord 2 0, jobWork, by decide +kernel⟩,
   ⟨hooked 4 0, 2, hookWord 4 0, jobWork, 5, 6, by decide +kernel⟩,
   ⟨(hooked 4 0).modThread 2 fun x => { x with regs := putAt 1 .waiting x.regs }, 2, hookWord 4 0, jobWork, by
     decide +kernel⟩,
   ⟨hooked 5 1, 2, hookWord 5 1, jobWork, 5, 6, by decide +kernel⟩,
   ⟨hooked 5 2, 2, hookWord 5 2, jobWork, 5, 6, by decide +kernel⟩,
   ⟨hooked 5 3, 2, hookWord 5 3, jobWork, 5, by decide +kernel⟩,
   ⟨hooked 6 0, 2, hookWord 6 0, jobWork, 5, by decide +kernel⟩,
   ⟨hooked 7 0, 2, hookWord 7 0, jobWork, by decide +kernel⟩,
   ⟨hooked 8 0, 2, hookWord 8 0, jobWork, 5, by decide +kernel⟩,
   ⟨hooked 9 0, 2, hookWord 9 0, jobWork, 5, by decide +kernel⟩,
   ⟨(hooked 9 0).modThread 2 fun x => { x with work := some { jobWork with encrypt := false } }, 2, hookWord 9 0,
     { jobWork with encrypt := false }, 5, by decide +kernel⟩,
   ⟨hooked 10 5, 2, hookWord 10 5, jobWork, by decide +kernel⟩,
   ⟨(hooked 10 5).modThread 2 fun x => { x with input := [] }, 2, hookWord 10 5, jobWork, by decide +kernel⟩,
   ⟨(hooked 11 0).modThread 2 fun x => { x with output := [3, 4] }, 2, hookWord 11 0, jobWork, by decide +kernel⟩,
   ⟨hooked 12 0, 2, 12, hookWord 12 0, jobWork, by decide +kernel⟩⟩

theorem witness_Calibrations :
    (∃ (s : State) (i : Nat), s.fld F.GAU_STATUS_BUSY = 0 ∧ s.calibAbsent 1 i 0 0 = false) ∧
    (∃ (s : State) (i : Nat), s.fld F.GAU_STATUS_BUSY = 0 ∧ s.calibAbsent 2 i 0 0 = false) ∧
    (∃ (s : State) (i : Nat), s.fld F.GAU_STATUS_BUSY = 0 ∧ s.calibAbsent 3 i 0 0 = false) ∧
    (∃ (s : State) (i : Nat), s.fld F.GAU_STATUS_BUSY = 0 ∧ i < 8 ∧ s.calibAbsent 1 i 0 0 = true) ∧
    (∃ (s : State), s.fld F.GAU_STATUS_BUSY = 1) ∧
    (∃ (s : State) (a : Nat) (h : Nat), s.fld F.GAU_STATUS_BUSY = 0 ∧ s.calibAbsent 4 0 a h = false) ∧
    (∃ (s : State) (a : Nat) (h : Nat), s.fld F.GAU_STATUS_BUSY = 0 ∧ s.calibAbsent 5 0 a h = false) ∧
    (∃ (s : State) (a : Nat) (h : Nat), s.fld F.GAU_STATUS_BUSY = 0 ∧ s.calibAbsent 6 0 a h = false) ∧
    (∃ (s : State) (a : Nat) (h : Nat), s.fld F.GAU_STATUS_BUSY = 0 ∧ s.calibAbsent 5 0 a h = true) ∧
    (∃ (s : State), s.fld F.GAU_STATUS_BUSY = 0) ∧
    (∃ (s : State) (a : Nat), s.fld F.GAU_STATUS_BUSY = 0 ∧ s.calibAbsent 8 0 a 0 = false) ∧
    (∃ (s : State), s.fld F.GAU_STATUS_BUSY = 0) ∧
    (∃ (s : State) (c : Calibration), s.gauge.running = some c ∧ c.waits = 2 ∧ s.opsAt c.act .issued = []) ∧
    (∃ (s : State) (c : Calibration), s.gauge.running = some c ∧ c.waits ≠ 2) ∧
    (∃ (s : State) (c : Calibration), s.gauge.running = some c ∧ c.waits = 0 ∧ c.kind = 1 ∧ c.slice < 5) ∧
    (∃ (s : State) (c : Calibration), s.gauge.running = some c ∧ c.waits = 0 ∧ c.kind = 9) ∧
    (∃ (s : State) (l : List Int) (k : Nat) (c : Calibration), s.gauge.running = some c ∧ c.waits = 0 ∧ c.kind = 5 ∧ c.act <
      2 ∧ c.head < 10 ∧ touchdownStep l = some k ∧ s.fld F.GAU_CFG_RD_BACKOFF ≤ k * s.fld F.GAU_CFG_TD_STEP ∧ s.fld
      F.GAU_CFG_WR_BACKOFF ≤ k * s.fld F.GAU_CFG_TD_STEP ∧ k * s.fld F.GAU_CFG_TD_STEP < 1024) ∧
    (∃ (s : State), s.gauge.running = none) :=
  ⟨⟨running.setFld (F.SLC_STATUS_ROLE 4) 2, 4, by decide +kernel⟩,
   ⟨running.setFld (F.SLC_STATUS_ROLE 4) 2, 4, by decide +kernel⟩,
   ⟨running.setFld (F.SLC_STATUS_ROLE 4) 2, 4, by decide +kernel⟩,
   ⟨running, 5, by decide +kernel⟩,
   ⟨running.flag F.GAU_STATUS_BUSY, by decide +kernel⟩,
   ⟨headed, 1, 9, by decide +kernel⟩,
   ⟨headed, 1, 9, by decide +kernel⟩,
   ⟨headed, 1, 9, by decide +kernel⟩,
   ⟨headed, 1, 10, by decide +kernel⟩,
   ⟨running, by decide +kernel⟩,
   ⟨headed, 1, by decide +kernel⟩,
   ⟨running, by decide +kernel⟩,
   ⟨headed.modGauge fun g => { g with running := some ⟨8, 0, 1, 0, 2, false, 0, 1, 0⟩ }, ⟨8, 0, 1, 0, 2, false, 0, 1, 0⟩, by
     decide +kernel⟩,
   ⟨headed.modGauge fun g => { g with running := some ⟨1, 4, 1, 9, 0, false, 2, 3, 0⟩ }, ⟨1, 4, 1, 9, 0, false, 2, 3, 0⟩, by
     decide +kernel⟩,
   ⟨headed.modGauge fun g => { g with running := some ⟨1, 4, 1, 9, 0, false, 2, 3, 0⟩ }, ⟨1, 4, 1, 9, 0, false, 2, 3, 0⟩, by
     decide +kernel⟩,
   ⟨headed.modGauge fun g => { g with running := some ⟨9, 4, 1, 9, 0, false, 2, 3, 0⟩ }, ⟨9, 4, 1, 9, 0, false, 2, 3, 0⟩, by
     decide +kernel⟩,
   ⟨(headed.modGauge fun g => { g with running := some ⟨5, 4, 1, 9, 0, false, 2, 3, 0⟩ }).setFld F.GAU_CFG_TD_STEP 9 |>.clr
     F.GAU_CFG_RD_BACKOFF |>.clr F.GAU_CFG_WR_BACKOFF, [5, 6, 11], 2, ⟨5, 4, 1, 9, 0, false, 2, 3, 0⟩, by decide +kernel⟩,
   ⟨headed, by decide +kernel⟩⟩

theorem witness_UpdateSessions :
    (∃ (s : State) (n : Nat) (x : Slot) (p : List Byte) (y : Session) (k : Nat), s.freshAdmin n 0x11 = some x ∧ s.heard x =
      true ∧ s.noInjection = true ∧ x.fromPf = true ∧ s.upd.session = some y ∧ x.sqe.cdw10 = 1023 ∧ x.sqe.cdw11 = 1024 * k ∧
      1 ≤ k ∧ 4096 * (k + 1) ≤ y.length ∧ y.members.testBit x.source = true ∧ p.length = 4096 ∧ kget k y.units = none) ∧
    (∃ (s : State) (n : Nat) (x : Slot), s.freshAdmin n 0x11 = some x ∧ s.heard x = true ∧ s.noInjection = true ∧ x.fromPf =
      true ∧ x.sqe.cdw10 = 1023 ∧ x.sqe.cdw11 % 1024 ≠ 0) ∧
    (∃ (s : State) (n : Nat) (x : Slot) (k : Nat), s.freshAdmin n 0x11 = some x ∧ s.heard x = true ∧ s.noInjection = true ∧
      x.fromPf = true ∧ s.upd.session = none ∧ x.sqe.cdw10 = 1023 ∧ x.sqe.cdw11 = 1024 * k ∧ 1 ≤ k) ∧
    (∃ (s : State) (n : Nat) (x : Slot) (y : Session), s.freshAdmin n 0x10 = some x ∧ s.heard x = true ∧ s.noInjection = true
      ∧ x.sqe.cdw10 / 8 % 8 = 0 ∧ s.commitStatus x = 0 ∧ s.upd.session = some y) ∧
    (∃ (s : State) (n : Nat) (x : Slot) (y : Session), s.freshAdmin n 0x10 = some x ∧ s.heard x = true ∧ s.noInjection = true
      ∧ x.sqe.cdw10 / 8 % 8 = 1 ∧ s.commitStatus x = 0 ∧ s.upd.session = some y) ∧
    (∃ (s : State) (n : Nat) (x : Slot) (y : Session), s.freshAdmin n 0x10 = some x ∧ s.heard x = true ∧ s.noInjection = true
      ∧ x.sqe.cdw10 / 8 % 8 = 3 ∧ s.commitStatus x = 0 ∧ s.upd.session = some y) ∧
    (∃ (s : State) (n : Nat) (x : Slot), s.freshAdmin n 0x10 = some x ∧ s.heard x = true ∧ s.noInjection = true ∧ x.sqe.cdw10
      / 8 % 8 = 0 ∧ s.commitStatus x ≠ 0) ∧
    (∃ (s : State) (n : Nat) (x : Slot), s.freshAdmin n 0x10 = some x ∧ s.heard x = true ∧ s.noInjection = true ∧ x.sqe.cdw10
      / 8 % 8 = 1 ∧ s.commitStatus x = 0 ∧ s.upd.session = none ∧ s.pattern.active.topology.legacy = false ∧ s.cast.recovery
      = false) ∧
    (∃ (s : State) (n : Nat) (x : Slot), s.freshAdmin n 0x10 = some x ∧ s.heard x = true ∧ s.noInjection = true ∧ x.sqe.cdw10
      / 8 % 8 = 2 ∧ s.commitStatus x = 0 ∧ s.upd.session = none ∧ s.pattern.active.topology.legacy = false ∧ s.cast.recovery
      = false) ∧
    (∃ (s : State) (n : Nat) (x : Slot), s.freshAdmin n 0x10 = some x ∧ s.heard x = true ∧ s.noInjection = true ∧ x.sqe.cdw10
      / 8 % 8 = 3 ∧ s.commitStatus x = 0 ∧ s.upd.session = none ∧ s.pattern.active.topology.legacy = true) ∧
    (∃ (s : State) (n : Nat) (x : Slot) (e : SlotEntry), s.freshAdmin n 0x10 = some x ∧ s.heard x = true ∧ s.noInjection =
      true ∧ x.sqe.cdw10 / 8 % 8 = 3 ∧ s.commitStatus x = 0 ∧ s.upd.session = none ∧ s.pattern.active.topology.legacy = false
      ∧ s.cast.recovery = false ∧ s.record.stagedSet = [e] ∧ e.component = 1) ∧
    (∃ (s : State) (n : Nat) (x : Slot) (y : Session), s.upd.verifying = some ⟨some n, 0⟩ ∧ s.upd.session = some y ∧ s.slot n
      = some x ∧ s.heard x = true ∧ s.noInjection = true) ∧
    (∃ (s : State) (y : Session) (e : BundleEntry), s.upd.verifying = some ⟨none, 0⟩ ∧ s.upd.session = some y ∧ y.entries =
      [e]) ∧
    (∃ (s : State), s.upd.verifying = none) ∧
    (∃ (s : State) (y : Session), s.upd.session = some y ∧ 604800000 ≤ s.optime - y.lastProgress ∧ s.upd.verifying = none) ∧
    (∃ (s : State) (y : Session), s.upd.session = some y ∧ s.optime - y.lastProgress < 604800000) ∧
    (∃ (s : State) (y : Session), s.upd.session = some y ∧ s.upd.verifying = none) ∧
    (∃ (s : State), s.upd.session = none) ∧
    (∃ (s : State), s.record.state = .tentative ∧ s.pattern.active.security.autoConfirm = true ∧ 259200000 ≤ s.optime - max
      s.record.actOptime s.record.faultOptime) ∧
    (∃ (s : State), (s.record.state ≠ .tentative ∨ s.pattern.active.security.autoConfirm = false)) ∧
    (∃ (s : State), s.record.state = .tentative) ∧
    (∃ (s : State), s.record.state ≠ .tentative) :=
  ⟨⟨(adm 0x11 1023 1024).modUpd fun u => { u with session := some staging }, 7, admSlot 17 1023 1024, unit4k, staging, 1, by
     decide +kernel⟩,
   ⟨adm 17 1023 1, 7, admSlot 17 1023 1, by decide +kernel⟩,
   ⟨adm 17 1023 1024, 7, admSlot 17 1023 1024, 1, by decide +kernel⟩,
   ⟨commitOf 0 ActRecord.blank (some staging), 7, admSlot 0x10 0 0, staging, by decide +kernel⟩,
   ⟨commitOf 1 ActRecord.blank (some staging), 7, admSlot 0x10 8 0, staging, by decide +kernel⟩,
   ⟨commitOf 3 ActRecord.blank (some staging), 7, admSlot 0x10 24 0, staging, by decide +kernel⟩,
   ⟨commitOf 0 tentativeRecord (some staging), 7, admSlot 0x10 0 0, by decide +kernel⟩,
   ⟨commitOf 1 stagedRecord none, 7, admSlot 0x10 8 0, by decide +kernel⟩,
   ⟨commitOf 2 stagedRecord none, 7, admSlot 0x10 16 0, by decide +kernel⟩,
   ⟨(commitOf 3 stagedRecord none).modPattern fun u =>
     { u with active := { u.active with topology := { u.active.topology with legacy := true } } }, 7, admSlot 0x10 24 0, by
     decide +kernel⟩,
   ⟨commitOf 3 stagedRecord none, 7, admSlot 0x10 24 0, ⟨1, 1, 1, true, 4096, 5, []⟩, by decide +kernel⟩,
   ⟨(inXfer (commitOf 0 ActRecord.blank (some staging))).modUpd fun u => { u with verifying := some ⟨some 7, 0⟩ }, 7,
     { admSlot 0x10 0 0 with stage := .xferOut }, staging, by decide +kernel⟩,
   ⟨running.modUpd fun u => { u with session := some staging, verifying := some ⟨none, 0⟩ }, staging, ⟨3, 2, 4096, 4096, 5,
     []⟩, by decide +kernel⟩,
   ⟨running, by decide +kernel⟩,
   ⟨(running.modUpd fun u => { u with session := some staging }).setReg R.KEEP_OPTIME_LO 604800000, staging, by
     decide +kernel⟩,
   ⟨(running.modUpd fun u => { u with session := some staging }).setReg R.KEEP_OPTIME_LO 604799999, staging, by
     decide +kernel⟩,
   ⟨running.modUpd fun u => { u with session := some staging }, staging, by decide +kernel⟩,
   ⟨running, by decide +kernel⟩,
   ⟨((running.modUpd fun u => { u with records := [tentativeRecord] }).setReg R.KEEP_OPTIME_LO 259200000).modPattern fun u =>
     { u with active := { u.active with security := { u.active.security with autoConfirm := true } } }, by decide +kernel⟩,
   ⟨running.modUpd fun u => { u with records := [tentativeRecord] }, by decide +kernel⟩,
   ⟨running.modUpd fun u => { u with records := [tentativeRecord] }, by decide +kernel⟩,
   ⟨running, by decide +kernel⟩⟩

theorem witness_RuntimeHandover :
    (∃ (s : State) (v : Activation), s.handing (· == 1) = some v ∧ v.ready = true ∧ s.allowed = true ∧ s.fld
      F.TIR_STATUS_STATE = 1) ∧
    (∃ (s : State), s.allowed = false) ∧
    (∃ (s : State), s.tiriumStarts = true ∧ s.handing (· == 1) = none ∧ s.tir.blocks.length = 8) ∧
    (∃ (s : State) (v : Activation), s.tiriumStarts = true ∧ s.handing (· == 1) = some v ∧ v.components = [1] ∧ v.commit =
      none ∧ s.tir.blocks.length = 8) ∧
    (∃ (s : State), s.fld F.TIR_STATUS_STATE ≠ 0) ∧
    (∃ (s : State) (v : Activation), s.tiriumStarts = true ∧ s.handing (· == 1) = some v) ∧
    (∃ (s : State), s.fld F.TIR_STATUS_STATE ≠ 0) ∧
    (∃ (s : State) (v : Activation), s.handing (fun c => c == 3 || c == 4) = some v ∧ v.step = 1) ∧
    (∃ (s : State), s.handing (fun c => c == 3 || c == 4) = none) ∧
    (∃ (s : State) (v : Activation), s.handing (fun c => c == 3 || c == 4) = some v ∧ v.step = 2) ∧
    (∃ (s : State) (v : Activation), s.handing (fun c => c == 3 || c == 4) = some v ∧ v.step ≠ 2) ∧
    (∃ (s : State) (v : Activation), s.handing (fun c => c == 3 || c == 4) = some v ∧ v.step = 3 ∧ v.quiesced = false) ∧
    (∃ (s : State) (v : Activation) (p : Nat) (l : List Nat), s.handing (fun c => c == 3 || c == 4) = some v ∧ v.step = 3 ∧
      v.quiesced = true ∧ v.pairs = p :: l ∧ p < 6 ∧ s.pairs.length = 6) ∧
    (∃ (s : State) (v : Activation) (p : Nat) (l : List Nat), s.handing (fun c => c == 3 || c == 4) = some v ∧ v.step = 4 ∧
      v.quiesced = false ∧ s.allowed = true ∧ v.pairs = p :: l ∧ p < 5 ∧ v.leg = 1) ∧
    (∃ (s : State) (v : Activation) (p : Nat) (l : List Nat), s.handing (fun c => c == 3 || c == 4) = some v ∧ v.step = 4 ∧
      v.quiesced = false ∧ s.allowed = true ∧ v.pairs = p :: l ∧ p < 5 ∧ v.leg = 2) ∧
    (∃ (s : State), s.allowed = false) ∧
    (∃ (s : State) (v : Activation) (p : Nat) (l : List Nat), s.handing (fun c => c == 3 || c == 4) = some v ∧ v.step = 5 ∧
      v.quiesced = false ∧ v.leg = 1 ∧ v.components = [3] ∧ v.pairs = p :: l ∧ p < 5) ∧
    (∃ (s : State) (v : Activation) (p : Nat), s.handing (fun c => c == 3 || c == 4) = some v ∧ v.step = 5 ∧ v.quiesced =
      false ∧ v.leg = 2 ∧ v.components = [3] ∧ v.pairs = [p] ∧ v.commit = none) ∧
    (∃ (s : State), s.handing (fun c => c == 3 || c == 4) = none) ∧
    (∃ (s : State) (v : Activation), s.handing (fun c => c == 3 || c == 4) = some v ∧ v.quiesced = false ∧ v.step = 3 ∧ 10 ≤
      s.rowCount - v.start ∧ v.attempts < 3) ∧
    (∃ (s : State) (v : Activation), s.handing (fun c => c == 3 || c == 4) = some v ∧ v.quiesced = false ∧ v.step = 3 ∧ 10 ≤
      s.rowCount - v.start ∧ 3 ≤ v.attempts) ∧
    (∃ (s : State) (v : Activation) (p : Nat) (l : List Nat), s.handing (fun c => c == 3 || c == 4) = some v ∧ v.quiesced =
      false ∧ v.step = 5 ∧ v.leg = 1 ∧ 17 ≤ s.rowCount - v.start ∧ v.pairs = p :: l ∧ p < 5) ∧
    (∃ (s : State) (v : Activation), s.handing (fun c => c == 3 || c == 4) = some v ∧ v.quiesced = true) ∧
    (∃ (s : State) (v : Activation) (p : Nat) (l : List Nat), s.handing (fun c => c == 3 || c == 4) = some v ∧ v.quiesced =
      true ∧ v.step = 0 ∧ v.pairs = p :: l) ∧
    (∃ (s : State) (v : Activation) (m : List Nat), s.upd.activation = some v ∧ v.components = 2 :: m ∧ v.quiesced = true ∧
      v.step = 0 ∧ (s.opsAt v.act .issued).isEmpty = false) ∧
    (∃ (s : State) (v : Activation), s.upd.activation = some v ∧ v.quiesced = false) ∧
    (∃ (s : State) (v : Activation) (p : Nat) (l : List Nat), s.handing (fun c => c == 3 || c == 4) = some v ∧ v.quiesced =
      true ∧ 3 ≤ v.step ∧ v.pairs = p :: l ∧ p < 6 ∧ s.pairs.length = 6) ∧
    (∃ (s : State) (v : Activation), s.handing (fun c => c == 3 || c == 4) = some v ∧ v.quiesced = false) :=
  ⟨⟨(acting (act [1] 1 0 false)).setFld F.TIR_STATUS_STATE 1, act [1] 1 0 false, by decide +kernel⟩,
   ⟨(acting (act [1] 1 0 false)).modRow fun r => { r with swapped := true }, by decide +kernel⟩,
   ⟨running.setFld F.SYS_CASTON_PHASE 8, by decide +kernel⟩,
   ⟨(acting (act [1] 1 1 false)).setFld F.SYS_CASTON_PHASE 8, act [1] 1 1 false, by decide +kernel⟩,
   ⟨tirUp, by decide +kernel⟩,
   ⟨(acting (act [1] 1 1 false)).setFld F.SYS_CASTON_PHASE 8, act [1] 1 1 false, by decide +kernel⟩,
   ⟨tirUp, by decide +kernel⟩,
   ⟨acting (act [3] 1 1 false), act [3] 1 1 false, by decide +kernel⟩,
   ⟨running, by decide +kernel⟩,
   ⟨acting (act [3] 1 2 false), act [3] 1 2 false, by decide +kernel⟩,
   ⟨acting (act [4] 1 3 false), act [4] 1 3 false, by decide +kernel⟩,
   ⟨acting (act [3] 1 3 false), act [3] 1 3 false, by decide +kernel⟩,
   ⟨acting (act [3] 1 3 true), act [3] 1 3 true, 3, [], by decide +kernel⟩,
   ⟨acting (act [3] 1 4 false), act [3] 1 4 false, 3, [], by decide +kernel⟩,
   ⟨acting (act [3] 2 4 false), act [3] 2 4 false, 3, [], by decide +kernel⟩,
   ⟨(acting (act [3] 1 4 false)).modRow fun r => { r with swapped := true }, by decide +kernel⟩,
   ⟨acting (act [3] 1 5 false), act [3] 1 5 false, 3, [], by decide +kernel⟩,
   ⟨acting (act [3] 2 5 false), act [3] 2 5 false, 3, by decide +kernel⟩,
   ⟨running, by decide +kernel⟩,
   ⟨acting (act [3] 1 3 false), act [3] 1 3 false, by decide +kernel⟩,
   ⟨acting ({ act [3] 1 3 false with attempts := 3 }), { act [3] 1 3 false with attempts := 3 }, by decide +kernel⟩,
   ⟨acting (act [3] 1 5 false), act [3] 1 5 false, 3, [], by decide +kernel⟩,
   ⟨acting (act [3] 1 3 true), act [3] 1 3 true, by decide +kernel⟩,
   ⟨acting (act [3] 1 0 true), act [3] 1 0 true, 3, [], by decide +kernel⟩,
   ⟨(acting (act [2] 1 0 true)).modFlow fun f => { f with ops := [readOp] }, act [2] 1 0 true, [], by decide +kernel⟩,
   ⟨acting (act [3] 1 0 false), act [3] 1 0 false, by decide +kernel⟩,
   ⟨acting (act [3] 1 3 true), act [3] 1 3 true, 3, [], by decide +kernel⟩,
   ⟨acting (act [3] 1 3 false), act [3] 1 3 false, by decide +kernel⟩⟩

theorem witness_EventRecorder :
    (∃ (s : State) (a : Nat) (l : Nat) (v : Nat), s.keeper.inReset = false ∧ s.fld F.REC_STATUS_STORE ≠ 2 ∧ s.fld
      F.REC_STATUS_FULL = 0 ∧ s.recorder.fifo.length < 240 ∧ s.recorder.writing.isSome = true ∧ 48 ≤ a ∧ a < 64 ∧ 1 ≤ l ∧ l <
      256 ∧ v < 8 ∧ s.fld F.REC_FILTER_MIN ≤ v ∧ s.fld (F.REC_SOURCES_HI_MASK_HI.at (a - 32)) = 1) ∧
    (∃ (_ : State) (a : Nat) (l : Nat), (a < 48 ∨ l = 0) ∧ a < 64 ∧ l < 256) ∧
    (∃ (s : State) (h : Nat) (x : Nat), s.keeper.inReset = false ∧ s.fld F.REC_STATUS_STORE ≠ 2 ∧ s.fld F.REC_STATUS_FULL = 0
      ∧ s.recorder.fifo.length < 240 ∧ s.recorder.writing.isSome = true ∧ h < 2 ^ 16 ∧ x < 256) ∧
    (∃ (s : State) (r : Record), s.recorder.writing = some r ∧ s.fld F.REC_STATUS_STORE = 0 ∧ s.noInjection = true ∧ s.fld
      F.REC_NEXT_INDEX + 1 < 262143) ∧
    (∃ (s : State) (r : Record), s.recorder.writing = some r ∧ s.fld F.REC_STATUS_STORE = 0 ∧ s.noInjection = true ∧ s.fld
      F.REC_NEXT_INDEX = 262143) ∧
    (∃ (s : State) (r : Record), s.recorder.writing = some r ∧ s.fld F.REC_STATUS_STORE = 1 ∧ s.fld F.REC_NEXT_INDEX + 1 <
      16383) ∧
    (∃ (s : State), s.recorder.writing = none) ∧
    (∃ (s : State), s.fld F.REC_STATUS_STORE = 0) ∧
    (∃ (s : State), s.fld F.REC_STATUS_STORE = 1) ∧
    (∃ (s : State), s.fld F.REC_STATUS_STORE = 2) ∧
    (∃ (s : State), s.recorder.reserve ≠ [] ∧ s.place7Ready = true) ∧
    (∃ (s : State), s.place7Ready = false) ∧
    (∃ (s : State) (r : Record), s.recorder.unit = [r] ∧ s.noInjection = true) ∧
    (∃ (s : State), s.recorder.unit = []) ∧
    (∃ (s : State), s.clearGranted = true ∧ s.fld F.REC_STATUS_CLEAR_BUSY = 0 ∧ s.fld F.REC_STATUS_STORE = 0) ∧
    (∃ (s : State), s.clearGranted = true ∧ s.fld F.REC_STATUS_CLEAR_BUSY = 0) ∧
    (∃ (s : State), (s.clearGranted = false ∨ s.fld F.REC_STATUS_CLEAR_BUSY = 1)) ∧
    (∃ (s : State) (c : Clearing), s.recorder.clearing = some c ∧ c.area = 0 ∧ c.headWritten = true ∧ c.nextSector < 255) ∧
    (∃ (s : State) (c : Clearing), s.recorder.clearing = some c ∧ c.area = 0 ∧ c.headWritten = true ∧ 255 ≤ c.nextSector) ∧
    (∃ (s : State) (c : Clearing) (n : Nat), s.recorder.clearing = some c ∧ c = ⟨0, 0, n, false⟩ ∧ s.fld F.REC_STATUS_STORE =
      0) ∧
    (∃ (s : State), s.recorder.clearing = none ∧ s.recorder.writing.isSome = true) ∧
    (∃ (s : State), s.recorder.scanned = false ∧ s.keeper.inReset = false ∧ s.cast.cold = true ∧ writePosition
      s.recorder.store < 2 ^ 18) ∧
    (∃ (s : State), s.recorder.scanned = true) :=
  ⟨⟨recording, 63, 255, 7, by decide +kernel⟩,
   ⟨recording, 47, 1, by decide +kernel⟩,
   ⟨recording, 65535, 255, by decide +kernel⟩,
   ⟨recording, anyRecord, by decide +kernel⟩,
   ⟨recording.setFld F.REC_NEXT_INDEX 262143, anyRecord, by decide +kernel⟩,
   ⟨onFallback, anyRecord, by decide +kernel⟩,
   ⟨running, by decide +kernel⟩,
   ⟨recording, by decide +kernel⟩,
   ⟨onFallback, by decide +kernel⟩,
   ⟨recording.setFld F.REC_STATUS_STORE 2, by decide +kernel⟩,
   ⟨(((recording.modRec fun u => { u with reserve := [anyRecord] }).flag F.STM_STATUS_READY).setFld (F.ACT_STATUS_LOAD_STATE
     0) 2).setFld (F.ACT_STATUS_LOAD_STATE 1) 2, by decide +kernel⟩,
   ⟨recording.modRec fun u => { u with reserve := [anyRecord] }, by decide +kernel⟩,
   ⟨onFallback.modRec fun u => { u with unit := [anyRecord], fallback := [storedAt 0] }, anyRecord, by decide +kernel⟩,
   ⟨onFallback, by decide +kernel⟩,
   ⟨clearable, by decide +kernel⟩,
   ⟨clearable.modRec fun u => { u with shadow := [(anyRecord, true)] }, by decide +kernel⟩,
   ⟨recording, by decide +kernel⟩,
   ⟨clearable.modRec fun u => { u with clearing := some ⟨0, 0, 5, true⟩ }, ⟨0, 0, 5, true⟩, by decide +kernel⟩,
   ⟨(clearable.flag F.REC_STATUS_CLEAR_BUSY).modRec fun u => { u with clearing := some ⟨0, 255, 5, true⟩ }, ⟨0, 255, 5,
     true⟩, by decide +kernel⟩,
   ⟨clearable.modRec fun u => { u with clearing := some ⟨0, 0, 5, false⟩ }, ⟨0, 0, 5, false⟩, 5, by decide +kernel⟩,
   ⟨clearable, by decide +kernel⟩,
   ⟨recording.modRec fun u => { u with scanned := false }, by decide +kernel⟩,
   ⟨recording, by decide +kernel⟩⟩

theorem witness_SnagUnit :
    (∃ (s : State), s.grants &&& 9 ≠ 0 ∧ s.fld F.SNG_STATUS_ARMED = 0) ∧
    (∃ (s : State), s.grants &&& 9 = 0) ∧
    (∃ (s : State), s.fld F.SNG_STATUS_ARMED = 1) ∧
    (∃ (s : State), s.fld F.SNG_STATUS_ARMED = 0) ∧
    (∃ (s : State) (n : Nat) (g : Word), s.fld F.SNG_STATUS_ARMED = 1 ∧ n < 8 ∧ s.snag.injectors.length = 8 ∧ snagLegal
      (getBits g 0 8) (s.fld (F.SNG_INJ_TARGET_INSTANCE n)) (getBits g 10 4) (s.fld (F.SNG_INJ_TARGET_PARAM n)) (s.fld
      (F.SNG_INJ_ADDR_ADDR n)) = true ∧ getBits g 8 2 ≠ 3 ∧ getBits g 0 8 ≠ 4 ∧ getBits g 0 8 ≠ 7 ∧ getBits g 0 8 ≠ 9) ∧
    (∃ (s : State) (n : Nat) (g : Word), s.fld F.SNG_STATUS_ARMED = 1 ∧ n < 8 ∧ s.snag.injectors.length = 8 ∧ snagLegal
      (getBits g 0 8) (s.fld (F.SNG_INJ_TARGET_INSTANCE n)) (getBits g 10 4) (s.fld (F.SNG_INJ_TARGET_PARAM n)) (s.fld
      (F.SNG_INJ_ADDR_ADDR n)) = true ∧ getBits g 8 2 ≠ 3 ∧ getBits g 0 8 = 4 ∧ getBits g 10 4 = 0 ∧ s.prot.flipped.contains
      (s.fld (F.SNG_INJ_TARGET_INSTANCE n), 8 * s.fld (F.SNG_INJ_ADDR_ADDR n)) = false) ∧
    (∃ (s : State) (n : Nat) (g : Word), s.fld F.SNG_STATUS_ARMED = 1 ∧ n < 8 ∧ s.snag.injectors.length = 8 ∧ snagLegal
      (getBits g 0 8) (s.fld (F.SNG_INJ_TARGET_INSTANCE n)) (getBits g 10 4) (s.fld (F.SNG_INJ_TARGET_PARAM n)) (s.fld
      (F.SNG_INJ_ADDR_ADDR n)) = true ∧ getBits g 8 2 ≠ 3 ∧ getBits g 0 8 = 7 ∧ getBits g 14 1 = 0 ∧ s.pairState 5 ≠ 3) ∧
    (∃ (s : State) (n : Nat) (g : Word) (p : Nat), s.fld F.SNG_STATUS_ARMED = 1 ∧ n < 8 ∧ s.snag.injectors.length = 8 ∧
      snagLegal (getBits g 0 8) (s.fld (F.SNG_INJ_TARGET_INSTANCE n)) (getBits g 10 4) (s.fld (F.SNG_INJ_TARGET_PARAM n))
      (s.fld (F.SNG_INJ_ADDR_ADDR n)) = true ∧ getBits g 8 2 ≠ 3 ∧ getBits g 0 8 = 7 ∧ s.pairState 5 = 3 ∧ s.fld
      (F.SNG_INJ_TARGET_INSTANCE n) = p ∧ p < 5 ∧ s.pairState p = 1 ∧ (s.pair p).checkpoint.isSome = true ∧ (s.takeoverPair
      p).isSome = true ∧ s.pairs.length = 6) ∧
    (∃ (s : State) (n : Nat) (g : Word), n < 8 ∧ (s.fld F.SNG_STATUS_ARMED = 0 ∨ snagLegal (getBits g 0 8) (s.fld
      (F.SNG_INJ_TARGET_INSTANCE n)) (getBits g 10 4) (s.fld (F.SNG_INJ_TARGET_PARAM n)) (s.fld (F.SNG_INJ_ADDR_ADDR n)) =
      false ∨ getBits g 8 2 = 3)) ∧
    (∃ (_ : State) (n : Nat), 7 < n) ∧
    (∃ (s : State) (n : Nat) (k : Nat) (r : Bool) (w : Word), n < 8 ∧ s.snag.injectors.length = 8 ∧ s.snag.injectors.getD n
      ⟨false, false, 0, 1⟩ = ⟨r, true, k, w⟩ ∧ s.fld (F.SNG_INJ_CFG_POINT n) = 6 ∧ s.fld (F.NDL_STATUS_ROLE 2) = 2) ∧
    (∃ (s : State) (n : Nat), (s.snag.injectors.getD n ⟨false, false, 0, 1⟩).held = false) ∧
    (∃ (s : State), s.coreDebug = true ∧ s.warmAllowed = true) ∧
    (∃ (s : State), s.coreDebug = false ∧ s.warmAllowed = true) ∧
    (∃ (s : State) (k : Nat), (k ≠ 0xA55A ∨ s.warmAllowed = false)) ∧
    (∃ (s : State) (m : Nat), m < 64 ∧ s.coreDebug = true ∧ s.pairs.length = 6) ∧
    (∃ (s : State) (m : Nat), s.coreDebug = false ∧ (List.range 6).any (fun p => m.testBit p && !(s.pair p).halted) = true) :=
  ⟨⟨running.setGrants 9, by decide +kernel⟩,
   ⟨running, by decide +kernel⟩,
   ⟨heldSnag 6, by decide +kernel⟩,
   ⟨running, by decide +kernel⟩,
   ⟨armed, 7, 0x0001, by decide +kernel⟩,
   ⟨armed.setReg (R.SNG_INJ_ADDR 7) 9, 7, 0x0004, by decide +kernel⟩,
   ⟨armed, 7, 0x0007, by decide +kernel⟩,
   ⟨(armed.setReg R.SYS_PAIR_STATUS 0x0F311111).setFld (F.SNG_INJ_TARGET_INSTANCE 7) 3 |>.modPair 3 fun x =>
     { x with checkpoint := some ⟨7, 0, []⟩ }, 7, 0x0007, 3, by decide +kernel⟩,
   ⟨armed, 7, 0x0301, by decide +kernel⟩,
   ⟨armed, 8, by decide +kernel⟩,
   ⟨heldSnag 6, 5, 0, true, 1, by decide +kernel⟩,
   ⟨armed, 5, by decide +kernel⟩,
   ⟨coreGrant, by decide +kernel⟩,
   ⟨running, by decide +kernel⟩,
   ⟨coreGrant, 0, by decide +kernel⟩,
   ⟨coreGrant.modPair 1 fun x => { x with halted := true }, 45, by decide +kernel⟩,
   ⟨running, 32, by decide +kernel⟩⟩

theorem witness_DebugPorts :
    (∃ (_ : State) (o : Nat), o ≠ 7 ∧ o ≠ 8 ∧ o ≠ 9) ∧
    (∃ (s : State) (g : Nat) (c : Nat) (l : List Byte), s.fld F.TIR_STATUS_STATE = 1 ∧ g < 2 ^ 23 ∧ s.tir.last.length = 5 ∧
      s.tir.challenges.length = 5 ∧ s.tir.last.getD 4 none = none ∧ s.fld F.TIR_STATUS_LOCKOUT = 0 ∧ leField l 0 4 = c ∧ 1 ≤
      c ∧ c ≤ 15) ∧
    (∃ (s : State) (u : Nat), u ≤ 5 ∧ s.coreDebug = true) ∧
    (∃ (s : State) (u : Nat), u ≤ 5 ∧ s.coreDebug = true) ∧
    (∃ (s : State) (u : Nat), u ≤ 5 ∧ s.coreDebug = false) ∧
    (∃ (s : State) (u : Nat), 6 ≤ u ∧ u ≤ 9 ∧ s.faDebug = false) ∧
    (∃ (s : State), s.uartPins = true ∧ s.dbg.txFifo.length < 16) ∧
    (∃ (s : State), s.uartPins = true ∧ 16 ≤ s.dbg.txFifo.length) ∧
    (∃ (s : State), s.uartPins = true ∧ s.fld F.DBG_UART_CTRL_EN = 1 ∧ s.dbg.txFifo.length ≤ 16) ∧
    (∃ (s : State), (s.uartPins = false ∨ s.fld F.DBG_UART_CTRL_EN = 0)) ∧
    (∃ (s : State), s.uartPins = true ∧ s.fld F.DBG_UART_CTRL_EN = 1 ∧ s.dbg.rxFifo.length < 16) ∧
    (∃ (s : State), s.uartPins = true ∧ s.fld F.DBG_UART_CTRL_EN = 1 ∧ 16 ≤ s.dbg.rxFifo.length) ∧
    (∃ (s : State), s.dbg.rxFifo.length ≤ 16) :=
  ⟨⟨tirUp, 6, by decide +kernel⟩,
   ⟨tirUp, 1, 15, [15, 0, 0, 0], by decide +kernel⟩,
   ⟨coreGrant, 5, by decide +kernel⟩,
   ⟨coreGrant, 5, by decide +kernel⟩,
   ⟨running, 0, by decide +kernel⟩,
   ⟨coreGrant, 9, by decide +kernel⟩,
   ⟨uartOn, by decide +kernel⟩,
   ⟨uartOn.modDbg fun d => { d with txFifo := List.replicate 16 0 }, by decide +kernel⟩,
   ⟨uartOn.modDbg fun d => { d with txFifo := [1, 2] }, by decide +kernel⟩,
   ⟨running, by decide +kernel⟩,
   ⟨uartOn, by decide +kernel⟩,
   ⟨uartOn.modDbg fun d => { d with rxFifo := List.replicate 16 0 }, by decide +kernel⟩,
   ⟨uartOn.modDbg fun d => { d with rxFifo := [1, 2] }, by decide +kernel⟩⟩

theorem witness_RegisterAccess :
    (∃ (s : State) (p : Nat), s.silent p = false) ∧
    (∃ (s : State) (p : Nat) (n : Nat), s.silent p = false ∧ s.fld F.PAT_STATUS_LOCKED = 0 ∧ n < 2) ∧
    (∃ (s : State) (p : Nat), s.silent p = false ∧ s.fld F.PAT_STATUS_LOCKED = 1) ∧
    (∃ (s : State) (p : Nat), s.silent p = false ∧ s.fld F.PAT_STATUS_LOCKED = 0) ∧
    (∃ (s : State) (p : Nat), s.silent p = false) ∧
    (∃ (s : State) (p : Nat), s.silent p = false) ∧
    (∃ (s : State) (p : Nat) (a : Nat) (n : Nat), p < 6 ∧ s.pairs.length = 6 ∧ s.pairRuns p = true ∧ (s.pair p).halted =
      false ∧ (s.pair p).stalled = [] ∧ (s.pair p).undo.length + (storeWords a n).length ≤ 4096 ∧ inSram a n = true) ∧
    (∃ (s : State) (p : Nat), s.silent p = true) ∧
    (∃ (s : State) (p : Nat), s.silent p = false) ∧
    (∃ (s : State) (p : Nat) (n : Nat), s.silent p = false ∧ n < 2) ∧
    (∃ (s : State) (p : Nat) (a : Nat) (n : Nat), s.silent p = false ∧ inSram a n = true) ∧
    (∃ (s : State) (p : Nat), s.silent p = true) :=
  ⟨⟨running, 3, by decide +kernel⟩,
   ⟨running, 3, 1, by decide +kernel⟩,
   ⟨running.flag F.PAT_STATUS_LOCKED, 3, by decide +kernel⟩,
   ⟨running, 3, by decide +kernel⟩,
   ⟨running.setReg R.SRM_EVENTS 0xF, 3, by decide +kernel⟩,
   ⟨running, 3, by decide +kernel⟩,
   ⟨pairsUp, 3, 0x12FFFFFC, 4, by decide +kernel⟩,
   ⟨pairsUp.setFld (pairFld 3) 2, 3, by decide +kernel⟩,
   ⟨running.setReg R.SNG_SEED 77, 3, by decide +kernel⟩,
   ⟨running, 3, 1, by decide +kernel⟩,
   ⟨{ running with sram := [(0x10000001, 3)] }, 3, 0x10000000, 4, by decide +kernel⟩,
   ⟨pairsUp.setFld (pairFld 3) 2, 3, by decide +kernel⟩⟩

end Sys2Proof.Tests
end

section
/-!
PROOFS. What every step keeps, and the register accesses of the scope chapter: capability values (R2), absent windows (R5),
identification registers (R6), and accesses to register space that are no aligned word (R9).
-/

namespace Sys2Proof.Machine

/-! ### Every step keeps -/

/-- Every command keeps: each constructor's case is the law of its meaning, in the scope of everything. -/
theorem exec_keeps (c : Instr) (s : State) : KeepsOut Scope.all s (exec c s) := by
  have hA := Scope.all_covers
  cases c with
  | registerWrite => rw [exec_registerWrite]; exact execRegisterWrite_keeps _ _ _ _ _ s (hA _) trivial
  | lockstepMismatch => rw [exec_lockstepMismatch]; exact execLockstepMismatch_keeps _ s (hA _)
  | pairStore => rw [exec_pairStore]; exact execPairStore_keeps _ _ _ _ s (hA _)
  | cablePacketReceive => rw [exec_cablePacketReceive]; exact execCablePacketReceive_keeps _ _ _ s (hA _)
  | cableFail => rw [exec_cableFail]; exact execCableFail_keeps _ _ s (hA _)
  | wedgeSample => rw [exec_wedgeSample]; exact execWedgeSample_keeps _ _ _ s (hA _)
  | idlePeriodExpiry => rw [exec_idlePeriodExpiry]; exact execIdlePeriodExpiry_keeps s (hA _)
  | flywheelBoundary => rw [exec_flywheelBoundary]; exact execFlywheelBoundary_keeps s (hA _)
  | flywheelMaxReached => rw [exec_flywheelMaxReached]; exact execFlywheelMaxReached_keeps s (hA _)
  | longRowTimeout => rw [exec_longRowTimeout]; exact execLongRowTimeout_keeps s (hA _)
  | guardStart => rw [exec_guardStart]; exact execGuardStart_keeps s (hA _)
  | ledgerCheck => rw [exec_ledgerCheck]; exact execLedgerCheck_keeps s (hA _)
  | writeHoldEnter => rw [exec_writeHoldEnter]; exact execWriteHoldEnter_keeps s (hA _)
  | pairTakeover => rw [exec_pairTakeover]; exact execPairTakeover_keeps s (hA _)
  | logicDieResetEnd => rw [exec_logicDieResetEnd]; exact execLogicDieResetEnd_keeps s (hA _)
  | vin5AonRise => rw [exec_vin5AonRise]; exact execVin5AonRise_keeps s (hA _)
  | keeperQualifyDone => rw [exec_keeperQualifyDone]; exact execKeeperQualifyDone_keeps s (hA _)
  | switchRampDone => rw [exec_switchRampDone]; exact execSwitchRampDone_keeps _ s (hA _)
  | inrushTimeout => rw [exec_inrushTimeout]; exact execInrushTimeout_keeps s (hA _)
  | powerRetry => rw [exec_powerRetry]; exact execPowerRetry_keeps s (hA _)
  | earlyLoss => rw [exec_earlyLoss]; exact execEarlyLoss_keeps s (hA _)
  | railPowerGood => rw [exec_railPowerGood]; exact execRailPowerGood_keeps s (hA _)
  | selftestDone => rw [exec_selftestDone]; exact execSelftestDone_keeps _ _ _ _ s (hA _)
  | patternPhaseDone => rw [exec_patternPhaseDone]; exact execPatternPhaseDone_keeps s (hA _)
  | dramTrainDone => rw [exec_dramTrainDone]; exact execDramTrainDone_keeps _ s (hA _)
  | loadDone => rw [exec_loadDone]; exact execLoadDone_keeps s (hA _)
  | legacyRelease => rw [exec_legacyRelease]; exact execLegacyRelease_keeps s (hA _)
  | hostReady => rw [exec_hostReady]; exact execHostReady_keeps s (hA _)
  | controllerReady => rw [exec_controllerReady]; exact execControllerReady_keeps _ s (hA _)
  | patLockCmd => rw [exec_patLockCmd]; exact execPatLockCmd_keeps s (hA _)
  | patReload => rw [exec_patReload]; exact execPatReload_keeps s (hA _)
  | patCancel => rw [exec_patCancel]; exact execPatCancel_keeps s (hA _)
  | repatternValidated => rw [exec_repatternValidated]; exact execRepatternValidated_keeps s (hA _)
  | repatternApply => rw [exec_repatternApply]; exact execRepatternApply_keeps s (hA _)
  | testModeRise => rw [exec_testModeRise]; exact execTestModeRise_keeps s (hA _)
  | testModeRelease => rw [exec_testModeRelease]; exact execTestModeRelease_keeps s (hA _)
  | outputRelease => rw [exec_outputRelease]; exact execOutputRelease_keeps s (hA _)
  | tempWarning => rw [exec_tempWarning]; exact execTempWarning_keeps _ s (hA _)
  | tempCritical => rw [exec_tempCritical]; exact execTempCritical_keeps _ s (hA _)
  | thermalBindOff => rw [exec_thermalBindOff]; exact execThermalBindOff_keeps s (hA _)
  | thermalRelease => rw [exec_thermalRelease]; exact execThermalRelease_keeps s (hA _)
  | reverseTrip => rw [exec_reverseTrip]; exact execReverseTrip_keeps _ s (hA _)
  | switchReclose => rw [exec_switchReclose]; exact execSwitchReclose_keeps _ s (hA _)
  | spinupCurrentSample => rw [exec_spinupCurrentSample]; exact execSpinupCurrentSample_keeps _ _ s (hA _)
  | energyUpdate => rw [exec_energyUpdate]; exact execEnergyUpdate_keeps s (hA _)
  | earlySaveDone => rw [exec_earlySaveDone]; exact execEarlySaveDone_keeps s (hA _)
  | energyHoldClear => rw [exec_energyHoldClear]; exact execEnergyHoldClear_keeps s (hA _)
  | bindOffStart => rw [exec_bindOffStart]; exact execBindOffStart_keeps _ s (hA _)
  | inputGlitch => rw [exec_inputGlitch]; exact execInputGlitch_keeps s (hA _)
  | inputReturn => rw [exec_inputReturn]; exact execInputReturn_keeps s (hA _)
  | inputLossInHold => rw [exec_inputLossInHold]; exact execInputLossInHold_keeps s (hA _)
  | saveRestore => rw [exec_saveRestore]; exact execSaveRestore_keeps s (hA _)
  | warmReset => rw [exec_warmReset]; exact execWarmReset_keeps _ s (hA _)
  | watchdogExpiry => rw [exec_watchdogExpiry]; exact execWatchdogExpiry_keeps _ s (hA _)
  | watchdogKick => rw [exec_watchdogKick]; exact execWatchdogKick_keeps _ s (hA _)
  | watchdogConfig => rw [exec_watchdogConfig]; exact execWatchdogConfig_keeps _ _ s (hA _)
  | nssr => rw [exec_nssr]; exact execNssr_keeps _ s (hA _)
  | perstAssert => rw [exec_perstAssert]; exact execPerstAssert_keeps _ s (hA _)
  | perstDeassert => rw [exec_perstDeassert]; exact execPerstDeassert_keeps _ s (hA _)
  | flr => rw [exec_flr]; exact execFlr_keeps _ _ s (hA _)
  | vfEnableClear => rw [exec_vfEnableClear]; exact execVfEnableClear_keeps _ s (hA _)
  | controllerReset => rw [exec_controllerReset]; exact execControllerReset_keeps _ s (hA _)
  | controllerEnable => rw [exec_controllerEnable]; exact execControllerEnable_keeps _ _ _ _ s (hA _)
  | spnStart => rw [exec_spnStart]; exact execSpnStart_keeps s (hA _)
  | spnStop => rw [exec_spnStop]; exact execSpnStop_keeps s (hA _)
  | spnCoast => rw [exec_spnCoast]; exact execSpnCoast_keeps s (hA _)
  | spnClear => rw [exec_spnClear]; exact execSpnClear_keeps s (hA _)
  | currentLoopRun => rw [exec_currentLoopRun]; exact execCurrentLoopRun_keeps _ s (hA _)
  | servoOffsetLearn => rw [exec_servoOffsetLearn]; exact execServoOffsetLearn_keeps s (hA _)
  | catchMeasureDone => rw [exec_catchMeasureDone]; exact execCatchMeasureDone_keeps _ _ _ _ s (hA _)
  | catchTimeout => rw [exec_catchTimeout]; exact execCatchTimeout_keeps s (hA _)
  | alignDone => rw [exec_alignDone]; exact execAlignDone_keeps _ s (hA _)
  | commutationTimeout => rw [exec_commutationTimeout]; exact execCommutationTimeout_keeps s (hA _)
  | speedBandReached => rw [exec_speedBandReached]; exact execSpeedBandReached_keeps s (hA _)
  | holdFloatWindow => rw [exec_holdFloatWindow]; exact execHoldFloatWindow_keeps _ _ _ s (hA _)
  | holdTimeout => rw [exec_holdTimeout]; exact execHoldTimeout_keeps s (hA _)
  | lockedRotor => rw [exec_lockedRotor]; exact execLockedRotor_keeps s (hA _)
  | coastStopped => rw [exec_coastStopped]; exact execCoastStopped_keeps s (hA _)
  | coastRetractTimeout => rw [exec_coastRetractTimeout]; exact execCoastRetractTimeout_keeps s (hA _)
  | brakeDone => rw [exec_brakeDone]; exact execBrakeDone_keeps s (hA _)
  | needleLatch => rw [exec_needleLatch]; exact execNeedleLatch_keeps _ _ _ _ s (hA _)
  | needleDeadline => rw [exec_needleDeadline]; exact execNeedleDeadline_keeps _ s (hA _)
  | needleInternalFault => rw [exec_needleInternalFault]; exact execNeedleInternalFault_keeps _ s (hA _)
  | needleTakeover => rw [exec_needleTakeover]; exact execNeedleTakeover_keeps _ s (hA _)
  | settleReached => rw [exec_settleReached]; exact execSettleReached_keeps _ s (hA _)
  | settleTimeout => rw [exec_settleTimeout]; exact execSettleTimeout_keeps _ s (hA _)
  | missMaxReached => rw [exec_missMaxReached]; exact execMissMaxReached_keeps _ s (hA _)
  | holdRowsExpired => rw [exec_holdRowsExpired]; exact execHoldRowsExpired_keeps _ s (hA _)
  | ndlMbxPush => rw [exec_ndlMbxPush]; exact execNdlMbxPush_keeps _ s (hA _)
  | ndlSeek => rw [exec_ndlSeek]; exact execNdlSeek_keeps _ s (hA _)
  | ndlOffset => rw [exec_ndlOffset]; exact execNdlOffset_keeps _ s (hA _)
  | ndlEngage => rw [exec_ndlEngage]; exact execNdlEngage_keeps _ s (hA _)
  | ndlHold => rw [exec_ndlHold]; exact execNdlHold_keeps _ s (hA _)
  | ndlRelease => rw [exec_ndlRelease]; exact execNdlRelease_keeps _ s (hA _)
  | ndlManual => rw [exec_ndlManual]; exact execNdlManual_keeps _ s (hA _)
  | ndlRetract => rw [exec_ndlRetract]; exact execNdlRetract_keeps _ s (hA _)
  | ndlUnknownOpcode => rw [exec_ndlUnknownOpcode]; exact execNdlUnknownOpcode_keeps _ s (hA _)
  | needleSwap => rw [exec_needleSwap]; exact execNeedleSwap_keeps _ s (hA _)
  | swapFaultAbort => rw [exec_swapFaultAbort]; exact execSwapFaultAbort_keeps _ s (hA _)
  | ndlDisable => rw [exec_ndlDisable]; exact execNdlDisable_keeps _ _ s (hA _)
  | actLoad => rw [exec_actLoad]; exact execActLoad_keeps _ s (hA _)
  | actUnload => rw [exec_actUnload]; exact execActUnload_keeps _ s (hA _)
  | actEretract => rw [exec_actEretract]; exact execActEretract_keeps _ s (hA _)
  | retractConstantPhase => rw [exec_retractConstantPhase]; exact execRetractConstantPhase_keeps _ s (hA _)
  | retractEnd => rw [exec_retractEnd]; exact execRetractEnd_keeps _ s (hA _)
  | actLinkClear => rw [exec_actLinkClear]; exact execActLinkClear_keeps _ s (hA _)
  | actDisable => rw [exec_actDisable]; exact execActDisable_keeps _ _ s (hA _)
  | actLinkEnable => rw [exec_actLinkEnable]; exact execActLinkEnable_keeps _ s (hA _)
  | headRequest => rw [exec_headRequest]; exact execHeadRequest_keeps _ _ s (hA _)
  | headSelect => rw [exec_headSelect]; exact execHeadSelect_keeps _ _ s (hA _)
  | actLinkGo => rw [exec_actLinkGo]; exact execActLinkGo_keeps _ _ _ _ s (hA _)
  | preampFrame => rw [exec_preampFrame]; exact execPreampFrame_keeps _ _ _ _ s (hA _)
  | loadComplete => rw [exec_loadComplete]; exact execLoadComplete_keeps _ _ s (hA _)
  | loadTimeout => rw [exec_loadTimeout]; exact execLoadTimeout_keeps _ s (hA _)
  | unloadRampStop => rw [exec_unloadRampStop]; exact execUnloadRampStop_keeps _ s (hA _)
  | unloadHoldEnd => rw [exec_unloadHoldEnd]; exact execUnloadHoldEnd_keeps _ s (hA _)
  | unloadTimeout => rw [exec_unloadTimeout]; exact execUnloadTimeout_keeps _ s (hA _)
  | vcmCurrentLoop => rw [exec_vcmCurrentLoop]; exact execVcmCurrentLoop_keeps _ _ _ _ s (hA _)
  | aenLeadStart => rw [exec_aenLeadStart]; exact execAenLeadStart_keeps _ _ _ s (hA _)
  | writeGateRaise => rw [exec_writeGateRaise]; exact execWriteGateRaise_keeps _ _ s (hA _)
  | laserCut => rw [exec_laserCut]; exact execLaserCut_keeps _ _ s (hA _)
  | sectorFrame => rw [exec_sectorFrame]; exact execSectorFrame_keeps _ _ s (hA _)
  | sectorBoundary => rw [exec_sectorBoundary]; exact execSectorBoundary_keeps _ s (hA _)
  | inlineDecodeDone => rw [exec_inlineDecodeDone]; exact execInlineDecodeDone_keeps _ _ s (hA _)
  | autoActionDone => rw [exec_autoActionDone]; exact execAutoActionDone_keeps _ _ _ s (hA _)
  | slcReDecode => rw [exec_slcReDecode]; exact execSlcReDecode_keeps _ _ _ s (hA _)
  | slcReframe => rw [exec_slcReframe]; exact execSlcReframe_keeps _ _ _ _ s (hA _)
  | slcCombine => rw [exec_slcCombine]; exact execSlcCombine_keeps _ _ _ s (hA _)
  | recoveryRequestDone => rw [exec_recoveryRequestDone]; exact execRecoveryRequestDone_keeps _ _ _ s (hA _)
  | slcUnpin => rw [exec_slcUnpin]; exact execSlcUnpin_keeps _ _ _ s (hA _)
  | sliceFault => rw [exec_sliceFault]; exact execSliceFault_keeps _ _ s (hA _)
  | sliceTakeover => rw [exec_sliceTakeover]; exact execSliceTakeover_keeps _ s (hA _)
  | slcDisable => rw [exec_slcDisable]; exact execSlcDisable_keeps _ _ s (hA _)
  | sliceDisabled => rw [exec_sliceDisabled]; exact execSliceDisabled_keeps _ s (hA _)
  | walkerLookup => rw [exec_walkerLookup]; exact execWalkerLookup_keeps _ _ _ s (hA _)
  | walkerMap => rw [exec_walkerMap]; exact execWalkerMap_keeps _ _ _ _ _ _ _ _ s (hA _)
  | walkerExtend => rw [exec_walkerExtend]; exact execWalkerExtend_keeps _ _ _ s (hA _)
  | walkerFlags => rw [exec_walkerFlags]; exact execWalkerFlags_keeps _ _ _ _ _ _ s (hA _)
  | walkerGenBump => rw [exec_walkerGenBump]; exact execWalkerGenBump_keeps _ s (hA _)
  | walkerDesc => rw [exec_walkerDesc]; exact execWalkerDesc_keeps _ _ _ _ s (hA _)
  | leafMerge => rw [exec_leafMerge]; exact execLeafMerge_keeps s (hA _)
  | staleEntryDelete => rw [exec_staleEntryDelete]; exact execStaleEntryDelete_keeps s (hA _)
  | journalPageWrite => rw [exec_journalPageWrite]; exact execJournalPageWrite_keeps s (hA _)
  | journalOnMedia => rw [exec_journalOnMedia]; exact execJournalOnMedia_keeps s (hA _)
  | checkpointStart => rw [exec_checkpointStart]; exact execCheckpointStart_keeps s (hA _)
  | ckptReq => rw [exec_ckptReq]; exact execCkptReq_keeps s (hA _)
  | checkpointDone => rw [exec_checkpointDone]; exact execCheckpointDone_keeps s (hA _)
  | mapRebuild => rw [exec_mapRebuild]; exact execMapRebuild_keeps _ s (hA _)
  | cacheZoneClean => rw [exec_cacheZoneClean]; exact execCacheZoneClean_keeps _ s (hA _)
  | doorbellWrite => rw [exec_doorbellWrite]; exact execDoorbellWrite_keeps _ _ _ _ _ s (hA _)
  | fetchRound => rw [exec_fetchRound]; exact execFetchRound_keeps _ s (hA _)
  | tlpError => rw [exec_tlpError]; exact execTlpError_keeps _ _ _ _ s (hA _)
  | deleteIoSq => rw [exec_deleteIoSq]; exact execDeleteIoSq_keeps _ s (hA _)
  | deleteIoCq => rw [exec_deleteIoCq]; exact execDeleteIoCq_keeps _ s (hA _)
  | createIoSq => rw [exec_createIoSq]; exact execCreateIoSq_keeps _ s (hA _)
  | createIoCq => rw [exec_createIoCq]; exact execCreateIoCq_keeps _ s (hA _)
  | getLogPage => rw [exec_getLogPage]; exact execGetLogPage_keeps _ s (hA _)
  | identify => rw [exec_identify]; exact execIdentify_keeps _ s (hA _)
  | abort => rw [exec_abort]; exact execAbort_keeps _ s (hA _)
  | setFeatures => rw [exec_setFeatures]; exact execSetFeatures_keeps _ _ s (hA _)
  | setDirtyCeiling => rw [exec_setDirtyCeiling]; exact execSetDirtyCeiling_keeps _ s (hA _)
  | setReadPath => rw [exec_setReadPath]; exact execSetReadPath_keeps _ s (hA _)
  | setConfirmActivation => rw [exec_setConfirmActivation]; exact execSetConfirmActivation_keeps _ s (hA _)
  | getFeatures => rw [exec_getFeatures]; exact execGetFeatures_keeps _ s (hA _)
  | asyncEventRequest => rw [exec_asyncEventRequest]; exact execAsyncEventRequest_keeps _ s (hA _)
  | firmwareImageDownload => rw [exec_firmwareImageDownload]; exact execFirmwareImageDownload_keeps _ _ s (hA _)
  | commitVerifyWrite => rw [exec_commitVerifyWrite]; exact execCommitVerifyWrite_keeps _ s (hA _)
  | commitActivateAtReset => rw [exec_commitActivateAtReset]; exact execCommitActivateAtReset_keeps _ s (hA _)
  | commitActivateStaged => rw [exec_commitActivateStaged]; exact execCommitActivateStaged_keeps _ s (hA _)
  | commitActivateNow => rw [exec_commitActivateNow]; exact execCommitActivateNow_keeps _ s (hA _)
  | deviceSelfTest => rw [exec_deviceSelfTest]; exact execDeviceSelfTest_keeps _ s (hA _)
  | virtualizationManagement => rw [exec_virtualizationManagement]; exact execVirtualizationManagement_keeps _ s (hA _)
  | nvmeMiSend => rw [exec_nvmeMiSend]; exact execNvmeMiSend_keeps _ _ s (hA _)
  | nvmeMiReceive => rw [exec_nvmeMiReceive]; exact execNvmeMiReceive_keeps _ s (hA _)
  | formatNvm => rw [exec_formatNvm]; exact execFormatNvm_keeps _ s (hA _)
  | securitySend => rw [exec_securitySend]; exact execSecuritySend_keeps _ _ s (hA _)
  | securityReceive => rw [exec_securityReceive]; exact execSecurityReceive_keeps _ s (hA _)
  | sanitize => rw [exec_sanitize]; exact execSanitize_keeps _ s (hA _)
  | sanitizeStepDone => rw [exec_sanitizeStepDone]; exact execSanitizeStepDone_keeps s (hA _)
  | invalidAdminOpcode => rw [exec_invalidAdminOpcode]; exact execInvalidAdminOpcode_keeps _ s (hA _)
  | flush => rw [exec_flush]; exact execFlush_keeps _ s (hA _)
  | read => rw [exec_read]; exact execRead_keeps _ s (hA _)
  | write => rw [exec_write]; exact execWrite_keeps _ s (hA _)
  | compare => rw [exec_compare]; exact execCompare_keeps _ _ s (hA _)
  | verify => rw [exec_verify]; exact execVerify_keeps _ s (hA _)
  | writeZeroes => rw [exec_writeZeroes]; exact execWriteZeroes_keeps _ s (hA _)
  | datasetManagement => rw [exec_datasetManagement]; exact execDatasetManagement_keeps _ _ s (hA _)
  | writeUncorrectable => rw [exec_writeUncorrectable]; exact execWriteUncorrectable_keeps _ s (hA _)
  | zoneOpen => rw [exec_zoneOpen]; exact execZoneOpen_keeps _ s (hA _)
  | zoneClose => rw [exec_zoneClose]; exact execZoneClose_keeps _ s (hA _)
  | zoneFinish => rw [exec_zoneFinish]; exact execZoneFinish_keeps _ s (hA _)
  | zoneReset => rw [exec_zoneReset]; exact execZoneReset_keeps _ s (hA _)
  | zoneOffline => rw [exec_zoneOffline]; exact execZoneOffline_keeps _ s (hA _)
  | zoneSetDescExt => rw [exec_zoneSetDescExt]; exact execZoneSetDescExt_keeps _ s (hA _)
  | zoneMgmtReceive => rw [exec_zoneMgmtReceive]; exact execZoneMgmtReceive_keeps _ s (hA _)
  | zoneAppend => rw [exec_zoneAppend]; exact execZoneAppend_keeps _ s (hA _)
  | invalidIoOpcode => rw [exec_invalidIoOpcode]; exact execInvalidIoOpcode_keeps _ s (hA _)
  | hifAenPost => rw [exec_hifAenPost]; exact execHifAenPost_keeps _ _ s (hA _)
  | hifCfsSet => rw [exec_hifCfsSet]; exact execHifCfsSet_keeps _ s (hA _)
  | fetchHold => rw [exec_fetchHold]; exact execFetchHold_keeps _ s (hA _)
  | interruptCoalesceTimer => rw [exec_interruptCoalesceTimer]; exact execInterruptCoalesceTimer_keeps _ _ s (hA _)
  | mctpMessage => rw [exec_mctpMessage]; exact execMctpMessage_keeps _ _ s (hA _)
  | setEndpointId => rw [exec_setEndpointId]; exact execSetEndpointId_keeps _ s (hA _)
  | nvmeMiBasic => rw [exec_nvmeMiBasic]; exact execNvmeMiBasic_keeps s (hA _)
  | nvmeMiCommand => rw [exec_nvmeMiCommand]; exact execNvmeMiCommand_keeps _ s (hA _)
  | miReset => rw [exec_miReset]; exact execMiReset_keeps s (hA _)
  | spdmGetVersion => rw [exec_spdmGetVersion]; exact execSpdmGetVersion_keeps _ s (hA _)
  | spdmGetCapabilities => rw [exec_spdmGetCapabilities]; exact execSpdmGetCapabilities_keeps _ s (hA _)
  | spdmNegotiateAlgorithms => rw [exec_spdmNegotiateAlgorithms]; exact execSpdmNegotiateAlgorithms_keeps _ _ _ s (hA _)
  | spdmGetDigests => rw [exec_spdmGetDigests]; exact execSpdmGetDigests_keeps _ s (hA _)
  | spdmGetCertificate => rw [exec_spdmGetCertificate]; exact execSpdmGetCertificate_keeps _ _ _ _ s (hA _)
  | spdmChallenge => rw [exec_spdmChallenge]; exact execSpdmChallenge_keeps _ _ _ s (hA _)
  | spdmGetMeasurements => rw [exec_spdmGetMeasurements]; exact execSpdmGetMeasurements_keeps _ _ _ _ s (hA _)
  | spdmRespondIfReady => rw [exec_spdmRespondIfReady]; exact execSpdmRespondIfReady_keeps _ _ s (hA _)
  | spdmUnsupported => rw [exec_spdmUnsupported]; exact execSpdmUnsupported_keeps _ _ s (hA _)
  | writeAdmit => rw [exec_writeAdmit]; exact execWriteAdmit_keeps s (hA _)
  | writeDataComplete => rw [exec_writeDataComplete]; exact execWriteDataComplete_keeps _ _ _ s (hA _)
  | windowEnter => rw [exec_windowEnter]; exact execWindowEnter_keeps _ s (hA _)
  | mediaPick => rw [exec_mediaPick]; exact execMediaPick_keeps _ _ s (hA _)
  | preempt => rw [exec_preempt]; exact execPreempt_keeps _ s (hA _)
  | ledgerRecount => rw [exec_ledgerRecount]; exact execLedgerRecount_keeps s (hA _)
  | ledgerRelease => rw [exec_ledgerRelease]; exact execLedgerRelease_keeps s (hA _)
  | writeHoldRelease => rw [exec_writeHoldRelease]; exact execWriteHoldRelease_keeps s (hA _)
  | mediaCompletion => rw [exec_mediaCompletion]; exact execMediaCompletion_keeps _ s (hA _)
  | readPoint => rw [exec_readPoint]; exact execReadPoint_keeps _ s (hA _)
  | readTransfer => rw [exec_readTransfer]; exact execReadTransfer_keeps _ _ _ s (hA _)
  | claimOpen => rw [exec_claimOpen]; exact execClaimOpen_keeps _ s (hA _)
  | claimClose => rw [exec_claimClose]; exact execClaimClose_keeps _ s (hA _)
  | ladderRunStart => rw [exec_ladderRunStart]; exact execLadderRunStart_keeps _ s (hA _)
  | ladderStepDone => rw [exec_ladderStepDone]; exact execLadderStepDone_keeps _ _ s (hA _)
  | scrubOperation => rw [exec_scrubOperation]; exact execScrubOperation_keeps _ s (hA _)
  | drnRewriteGo => rw [exec_drnRewriteGo]; exact execDrnRewriteGo_keeps _ s (hA _)
  | drnDuePop => rw [exec_drnDuePop]; exact execDrnDuePop_keeps s (hA _)
  | rewriteDone => rw [exec_rewriteDone]; exact execRewriteDone_keeps s (hA _)
  | lifelineBlockFail => rw [exec_lifelineBlockFail]; exact execLifelineBlockFail_keeps _ s (hA _)
  | memoryScrubRead => rw [exec_memoryScrubRead]; exact execMemoryScrubRead_keeps _ _ _ _ _ _ s (hA _)
  | pageDecodeDone => rw [exec_pageDecodeDone]; exact execPageDecodeDone_keeps _ _ _ _ s (hA _)
  | repairPost => rw [exec_repairPost]; exact execRepairPost_keeps s (hA _)
  | sramPatrol => rw [exec_sramPatrol]; exact execSramPatrol_keeps _ _ _ s (hA _)
  | verifyImage => rw [exec_verifyImage]; exact execVerifyImage_keeps _ _ _ _ s (hA _)
  | commitMeasurement => rw [exec_commitMeasurement]; exact execCommitMeasurement_keeps _ _ _ _ s (hA _)
  | loadKey => rw [exec_loadKey]; exact execLoadKey_keeps _ _ _ _ _ _ _ s (hA _)
  | nsKeyNew => rw [exec_nsKeyNew]; exact execNsKeyNew_keeps _ _ _ s (hA _)
  | kpio => rw [exec_kpio]; exact execKpio_keeps _ _ _ s (hA _)
  | random => rw [exec_random]; exact execRandom_keeps _ _ _ s (hA _)
  | tirChallenge => rw [exec_tirChallenge]; exact execTirChallenge_keeps _ _ _ s (hA _)
  | tirResponse => rw [exec_tirResponse]; exact execTirResponse_keeps _ _ _ _ s (hA _)
  | revoke => rw [exec_revoke]; exact execRevoke_keeps _ _ _ s (hA _)
  | svnAdvance => rw [exec_svnAdvance]; exact execSvnAdvance_keeps _ _ _ _ s (hA _)
  | provision => rw [exec_provision]; exact execProvision_keeps _ _ _ _ _ _ s (hA _)
  | genIdentity => rw [exec_genIdentity]; exact execGenIdentity_keeps _ _ s (hA _)
  | tirUnknownOpcode => rw [exec_tirUnknownOpcode]; exact execTirUnknownOpcode_keeps _ _ _ s (hA _)
  | challengeExpiry => rw [exec_challengeExpiry]; exact execChallengeExpiry_keeps _ s (hA _)
  | tamperAlarm => rw [exec_tamperAlarm]; exact execTamperAlarm_keeps _ s (hA _)
  | alarmClear => rw [exec_alarmClear]; exact execAlarmClear_keeps s (hA _)
  | cipherEnable => rw [exec_cipherEnable]; exact execCipherEnable_keeps s (hA _)
  | katDone => rw [exec_katDone]; exact execKatDone_keeps _ s (hA _)
  | cipherDisable => rw [exec_cipherDisable]; exact execCipherDisable_keeps s (hA _)
  | cipherDrained => rw [exec_cipherDrained]; exact execCipherDrained_keeps s (hA _)
  | cipherCoreFault => rw [exec_cipherCoreFault]; exact execCipherCoreFault_keeps _ s (hA _)
  | hookLdi => rw [exec_hookLdi]; exact execHookLdi_keeps _ s (hA _)
  | hookEnc => rw [exec_hookEnc]; exact execHookEnc_keeps _ s (hA _)
  | hookDec => rw [exec_hookDec]; exact execHookDec_keeps _ s (hA _)
  | hookXor => rw [exec_hookXor]; exact execHookXor_keeps _ s (hA _)
  | hookGmul => rw [exec_hookGmul]; exact execHookGmul_keeps _ s (hA _)
  | hookInc32 => rw [exec_hookInc32]; exact execHookInc32_keeps _ s (hA _)
  | hookLen => rw [exec_hookLen]; exact execHookLen_keeps _ s (hA _)
  | hookOut => rw [exec_hookOut]; exact execHookOut_keeps _ s (hA _)
  | hookTag => rw [exec_hookTag]; exact execHookTag_keeps _ s (hA _)
  | hookLoop => rw [exec_hookLoop]; exact execHookLoop_keeps _ s (hA _)
  | hookEnd => rw [exec_hookEnd]; exact execHookEnd_keeps _ s (hA _)
  | hookIllegalOp => rw [exec_hookIllegalOp]; exact execHookIllegalOp_keeps _ s (hA _)
  | blockReturn => rw [exec_blockReturn]; exact execBlockReturn_keeps _ s (hA _)
  | tokenPost => rw [exec_tokenPost]; exact execTokenPost_keeps s (hA _)
  | hookDataWrite => rw [exec_hookDataWrite]; exact execHookDataWrite_keeps _ s (hA _)
  | hookBindWrite => rw [exec_hookBindWrite]; exact execHookBindWrite_keeps _ s (hA _)
  | keySlotErase => rw [exec_keySlotErase]; exact execKeySlotErase_keeps s (hA _)
  | bankDrainEnd => rw [exec_bankDrainEnd]; exact execBankDrainEnd_keeps _ s (hA _)
  | testkeyLoad => rw [exec_testkeyLoad]; exact execTestkeyLoad_keeps _ _ _ s (hA _)
  | cipherJob => rw [exec_cipherJob]; exact execCipherJob_keeps _ _ s (hA _)
  | cipherJobDone => rw [exec_cipherJobDone]; exact execCipherJobDone_keeps s (hA _)
  | gauAdcOffset => rw [exec_gauAdcOffset]; exact execGauAdcOffset_keeps _ s (hA _)
  | gauAdcGain => rw [exec_gauAdcGain]; exact execGauAdcGain_keeps _ s (hA _)
  | gauAdcSkew => rw [exec_gauAdcSkew]; exact execGauAdcSkew_keeps _ s (hA _)
  | gauReaderBias => rw [exec_gauReaderBias]; exact execGauReaderBias_keeps _ _ s (hA _)
  | gauTouchdown => rw [exec_gauTouchdown]; exact execGauTouchdown_keeps _ _ s (hA _)
  | gauAssist => rw [exec_gauAssist]; exact execGauAssist_keeps _ _ s (hA _)
  | gauIsenseSpn => rw [exec_gauIsenseSpn]; exact execGauIsenseSpn_keeps s (hA _)
  | gauIsenseVcm => rw [exec_gauIsenseVcm]; exact execGauIsenseVcm_keeps _ s (hA _)
  | gauTemp => rw [exec_gauTemp]; exact execGauTemp_keeps s (hA _)
  | gaugeTargetIdle => rw [exec_gaugeTargetIdle]; exact execGaugeTargetIdle_keeps s (hA _)
  | calibrationEnd => rw [exec_calibrationEnd]; exact execCalibrationEnd_keeps _ s (hA _)
  | sessionExpiry => rw [exec_sessionExpiry]; exact execSessionExpiry_keeps s (hA _)
  | bundleWritten => rw [exec_bundleWritten]; exact execBundleWritten_keeps s (hA _)
  | tiriumHandover => rw [exec_tiriumHandover]; exact execTiriumHandover_keeps s (hA _)
  | tiriumReady => rw [exec_tiriumReady]; exact execTiriumReady_keeps s (hA _)
  | tiriumReadyTimeout => rw [exec_tiriumReadyTimeout]; exact execTiriumReadyTimeout_keeps s (hA _)
  | handoverSpareReady => rw [exec_handoverSpareReady]; exact execHandoverSpareReady_keeps s (hA _)
  | handoverRequest => rw [exec_handoverRequest]; exact execHandoverRequest_keeps s (hA _)
  | handoverQuiesced => rw [exec_handoverQuiesced]; exact execHandoverQuiesced_keeps s (hA _)
  | handoverSwitch => rw [exec_handoverSwitch]; exact execHandoverSwitch_keeps s (hA _)
  | handoverTaken => rw [exec_handoverTaken]; exact execHandoverTaken_keeps s (hA _)
  | handoverDeadlineMiss => rw [exec_handoverDeadlineMiss]; exact execHandoverDeadlineMiss_keeps s (hA _)
  | quiescedActivation => rw [exec_quiescedActivation]; exact execQuiescedActivation_keeps s (hA _)
  | quiescedTimeout => rw [exec_quiescedTimeout]; exact execQuiescedTimeout_keeps s (hA _)
  | autoConfirm => rw [exec_autoConfirm]; exact execAutoConfirm_keeps s (hA _)
  | updAbort => rw [exec_updAbort]; exact execUpdAbort_keeps s (hA _)
  | updFrog => rw [exec_updFrog]; exact execUpdFrog_keeps s (hA _)
  | recFwPost => rw [exec_recFwPost]; exact execRecFwPost_keeps _ _ _ s (hA _)
  | recordProgrammed => rw [exec_recordProgrammed]; exact execRecordProgrammed_keeps s (hA _)
  | recStoreFail => rw [exec_recStoreFail]; exact execRecStoreFail_keeps _ s (hA _)
  | recordMirrorCopy => rw [exec_recordMirrorCopy]; exact execRecordMirrorCopy_keeps s (hA _)
  | fallbackUnitProgram => rw [exec_fallbackUnitProgram]; exact execFallbackUnitProgram_keeps s (hA _)
  | recClear => rw [exec_recClear]; exact execRecClear_keeps _ s (hA _)
  | clearSectorErased => rw [exec_clearSectorErased]; exact execClearSectorErased_keeps s (hA _)
  | timeAnchor => rw [exec_timeAnchor]; exact execTimeAnchor_keeps _ _ s (hA _)
  | recorderCastonScan => rw [exec_recorderCastonScan]; exact execRecorderCastonScan_keeps _ s (hA _)
  | sngArm => rw [exec_sngArm]; exact execSngArm_keeps s (hA _)
  | sngDisarm => rw [exec_sngDisarm]; exact execSngDisarm_keeps s (hA _)
  | snagInjectorGo => rw [exec_snagInjectorGo]; exact execSnagInjectorGo_keeps _ _ s (hA _)
  | snagHeldRelease => rw [exec_snagHeldRelease]; exact execSnagHeldRelease_keeps _ s (hA _)
  | dbgWarmReset => rw [exec_dbgWarmReset]; exact execDbgWarmReset_keeps _ s (hA _)
  | dbgHalt => rw [exec_dbgHalt]; exact execDbgHalt_keeps _ _ s (hA _)
  | jtagBypass => rw [exec_jtagBypass]; exact execJtagBypass_keeps _ s (hA _)
  | jtagIdcode => rw [exec_jtagIdcode]; exact execJtagIdcode_keeps s (hA _)
  | jtagSamplePreload => rw [exec_jtagSamplePreload]; exact execJtagSamplePreload_keeps _ _ s (hA _)
  | jtagExtest => rw [exec_jtagExtest]; exact execJtagExtest_keeps _ s (hA _)
  | jtagTmbx => rw [exec_jtagTmbx]; exact execJtagTmbx_keeps _ _ _ s (hA _)
  | jtagDbgap => rw [exec_jtagDbgap]; exact execJtagDbgap_keeps _ _ s (hA _)
  | uartTxWrite => rw [exec_uartTxWrite]; exact execUartTxWrite_keeps _ s (hA _)
  | uartTxByteSent => rw [exec_uartTxByteSent]; exact execUartTxByteSent_keeps s (hA _)
  | uartRxByte => rw [exec_uartRxByte]; exact execUartRxByte_keeps _ _ s (hA _)
  | uartRxPop => rw [exec_uartRxPop]; exact execUartRxPop_keeps s (hA _)
  | registerRead => rw [exec_registerRead]; exact execRegisterRead_keeps _ _ _ s (hA _)
  | linkUp => rw [exec_linkUp]; exact execLinkUp_keeps _ _ _ s (hA _)
  | linkDown => rw [exec_linkDown]; exact execLinkDown_keeps _ s (hA _)
  | vfEnableSet => rw [exec_vfEnableSet]; exact execVfEnableSet_keeps _ _ s (hA _)
  | statActRelease => rw [exec_statActRelease]; exact execStatActRelease_keeps s (hA _)
  | leafRebuildDone => rw [exec_leafRebuildDone]; exact execLeafRebuildDone_keeps _ s (hA _)
  | formatNvmDone => rw [exec_formatNvmDone]; exact execFormatNvmDone_keeps _ s (hA _)

theorem step_idle {s : State} (h : s.pending = []) : step s = .next s := by simp only [step, h]

theorem step_front {s : State} {c : Instr} {rest : List Instr} (h : s.pending = c :: rest) :
    step s = exec c { s with pending := rest } := by simp only [step, h]

/-- A step takes the front of the queue away and keeps from there; on an empty queue that is no change. -/
theorem step_keeps {s t : State} (h : step s = .next t) : Keeps Scope.all { s with pending := s.pending.tail } t := by
  cases hrest : s.pending with
  | nil =>
    rw [step_idle hrest, Host.Outcome.next.injEq] at h
    subst h
    rw [List.tail_nil, ← hrest]
    exact Keeps.refl _ s
  | cons c rest =>
    rw [step_front hrest] at h
    exact exec_keeps c _ t h

/-- Settles O7: what a step keeps includes what the fuses fix, and the queue's rest has the fuses of the state itself. -/
theorem everyStepKeepsTheFuses : Obligations.EveryStepKeepsTheFuses := by
  intro s t h
  obtain ⟨_, hfuse, _⟩ := step_keeps h
  exact hfuse

/-! ### Where an access goes -/

theorem windowSpecs_eq_nil {w : Nat} (h : w < 0x0100 ∨ 0x0540 < w) : windowSpecs w = [] := by
  unfold windowSpecs
  repeat rw [if_neg (by omega)]

theorem foldWindow_div_lt {addr : Nat} (h : addr < 0x01000000) : foldWindow addr / 0x10000 < 0x0100 := by
  simp only [foldWindow]
  repeat' split
  all_goals omega

theorem lt_foldWindow_div {addr : Nat} (h : 0x05410000 ≤ addr) : 0x0540 < foldWindow addr / 0x10000 := by
  simp only [foldWindow]
  repeat' split
  all_goals omega

/-- Register space: every block window lies from 0x01000000 up to the end of the DBG window. -/
theorem inWindow_bounds {addr : Nat} (h : inWindow addr = true) : 0x01000000 ≤ addr ∧ addr < 0x05410000 := by
  have hempty (hw : foldWindow addr / 0x10000 < 0x0100 ∨ 0x0540 < foldWindow addr / 0x10000) : False := by
    rw [inWindow, windowSpecs_eq_nil hw] at h
    exact absurd h (by decide)
  constructor
  · exact Nat.le_of_not_lt fun hlow => hempty (.inl (foldWindow_div_lt hlow))
  · exact Nat.lt_of_not_le fun hhigh => hempty (.inr (lt_foldWindow_div hhigh))

theorem not_inSram_of_inWindow {addr : Nat} (h : inWindow addr = true) (size : Nat) : inSram addr size = false := by
  have := inWindow_bounds h
  simp only [inSram, Bool.and_eq_false_iff, decide_eq_false_iff_not]
  omega

theorem not_inRom_of_inWindow {addr : Nat} (h : inWindow addr = true) (size : Nat) : inRom addr size = false := by
  have := inWindow_bounds h
  simp only [inRom, decide_eq_false_iff_not]
  omega

theorem wordAccess_four {addr : Nat} (h : addr % 4 = 0) : wordAccess addr 4 = true := by
  simp only [wordAccess, h, BEq.rfl, Bool.and_self]

theorem wordAccess_eq_false {addr size : Nat} (h : addr % 4 ≠ 0 ∨ size ≠ 4) : wordAccess addr size = false := by
  rw [wordAccess, Bool.and_eq_false_iff]
  exact h.imp beq_eq_false_iff_ne.2 beq_eq_false_iff_ne.2

/-! ### The answer to an access -/

@[simp] theorem State.busAnswer_bus (s : State) (proc value : Nat) (error : Bool) :
    (s.busAnswer proc value error).bus = ⟨proc, value, error⟩ := rfl

theorem State.busAnswer_onlyChanged (s : State) (proc value : Nat) (error : Bool) :
    OnlyChanged s (s.busAnswer proc value error) [] [.bus] := by
  have hkeeps : Keeps ⟨(· ∈ []), (· ∈ [Part.bus])⟩ s (s.busAnswer proc value error) :=
    State.busAnswer_keeps s proc value error (Keeps.refl _ s)
      ((Scope.covers_cons ..).2 ⟨List.mem_singleton_self _, Scope.covers_nil _⟩)
  obtain ⟨_, _, _, hframe⟩ := hkeeps
  exact hframe

section
variable {s : State} {proc addr : Nat} (hproc : s.silent proc = false) (hwin : inWindow addr = true)
include hproc hwin

theorem execRegisterRead_misaligned {size : Nat} (h : addr % 4 ≠ 0 ∨ size ≠ 4) :
    execRegisterRead proc addr size s = .next (s.busAnswer proc 0 true) := by
  simp only [execRegisterRead, hproc, hwin, not_inSram_of_inWindow hwin, not_inRom_of_inWindow hwin, wordAccess_eq_false h,
    Bool.not_false, Bool.or_true, Bool.false_eq_true, if_true, if_false]

theorem execRegisterRead_absent (h : addr % 4 = 0) (habs : s.absent addr = true) :
    execRegisterRead proc addr 4 s = .next (s.busAnswer proc 0 false) := by
  simp only [execRegisterRead, hproc, hwin, not_inSram_of_inWindow hwin, not_inRom_of_inWindow hwin, wordAccess_four h, habs,
    Bool.not_true, Bool.or_self, Bool.false_eq_true, if_true, if_false]

theorem execRegisterRead_present (h : addr % 4 = 0) (habs : s.absent addr = false) :
    execRegisterRead proc addr 4 s = .next ((s.readReg proc addr).2.busAnswer proc (s.readReg proc addr).1 false) := by
  simp only [execRegisterRead, hproc, hwin, not_inSram_of_inWindow hwin, not_inRom_of_inWindow hwin, wordAccess_four h, habs,
    Bool.not_true, Bool.or_self, Bool.false_eq_true, if_false]

theorem execRegisterWrite_misaligned {size : Nat} (h : addr % 4 ≠ 0 ∨ size ≠ 4) (w : BusWrite) :
    execRegisterWrite proc false addr size w s = .next (s.busAnswer proc 0 true) := by
  simp only [execRegisterWrite, hproc, hwin, not_inSram_of_inWindow hwin, wordAccess_eq_false h, Bool.false_and,
    Bool.and_false, Bool.not_false, Bool.or_true, Bool.false_eq_true, if_true, if_false]

theorem execRegisterWrite_absent (h : addr % 4 = 0) (habs : s.absent addr = true) (w : BusWrite) :
    execRegisterWrite proc false addr 4 w s = .next (s.busAnswer proc 0 false) := by
  simp only [execRegisterWrite, hproc, hwin, not_inSram_of_inWindow hwin, wordAccess_four h, habs, Bool.false_and,
    Bool.and_false, Bool.not_true, Bool.or_self, Bool.false_eq_true, if_true, if_false]

end

/-- Settles O10: the access is answered with a bus error before any register is reached (R9). -/
theorem accessesThatAreNoAlignedWord : Obligations.AccessesThatAreNoAlignedWord := by
  intro s proc addr size value raised seq hproc hwin _ _ hword
  exact ⟨⟨_, execRegisterRead_misaligned hproc hwin hword, rfl, rfl, s.busAnswer_onlyChanged ..⟩,
    ⟨_, execRegisterWrite_misaligned hproc hwin hword _, rfl, rfl, s.busAnswer_onlyChanged ..⟩⟩

/-- Settles O12: the access is answered with 0 before any register is reached (R5). -/
theorem absentWindows : Obligations.AbsentWindows := by
  intro s proc addr value raised seq hproc habs hwin _ haddr
  exact ⟨⟨_, execRegisterRead_absent hproc hwin haddr habs, rfl, rfl, rfl, s.busAnswer_onlyChanged ..⟩,
    ⟨_, execRegisterWrite_absent hproc hwin haddr habs _, rfl, rfl, s.busAnswer_onlyChanged ..⟩⟩

/-! ### Reads that no unit computes -/

/-- The registers whose read `State.peek` takes from a unit, by a select register or a count, and not from the register file. -/
def unitViews : List Nat :=
  [R.FMT_ZONE_PLACE, R.FMT_ZONE_SHAPE, R.FMT_TOTALS, R.QUE_SKEIN_SQ, R.QUE_SKEIN_CQ, R.QUE_SKEIN_LIVE, R.QUE_SKEIN_SLOTS,
   R.QUE_RING_STATE, R.QUE_RING_CFG, R.SCH_WINDOW 0, R.SCH_WINDOW 1, R.ORD_LEDGER_VAL, R.ORD_LEDGER_CENSUS, R.ORD_OVL_STATUS,
   R.ORD_OVL_BLOCKED, R.MEM_REMAP_ENTRY, R.CIP_SLOT_CFG, R.CIP_SLOT_BIND, R.CIP_SLOT_GEN, R.CIP_SLOT_TAG, R.CIP_SLOT_USE_LO,
   R.CIP_SLOT_USE_HI, R.UPD_IDLE, R.REC_COAL_VAL]

/-- A register that is neither a unit's view nor one of the selected zone's descriptor words shows its basic word. -/
theorem State.peek_eq_peekBasic (s : State) {addr : Nat} (hview : addr ∉ unitViews)
    (hdesc : ¬ (R.FMT_ZONE_DESC 0 ≤ addr ∧ addr ≤ R.FMT_ZONE_DESC 3)) : s.peek addr = s.peekBasic addr := by
  simp only [unitViews, List.mem_cons, List.not_mem_nil, or_false, not_or] at hview
  by_cases habs : s.absent addr = true
  · simp only [State.peek, State.peekBasic, habs, if_true]
  · simp only [State.peek, habs, hdesc, hview, or_self, Bool.false_eq_true, if_false]

/-- A read outside the GPIO inputs and the latched pairs shows the register's word and changes nothing (R26). -/
theorem State.readReg_plain (s : State) (proc : Nat) {addr : Nat} (hgpio : addr ≠ R.SYS_GPIO_IN) (hlo : addr ∉ latchingRegs)
    (hhi : addr - 4 ∉ latchingRegs) : s.readReg proc addr = (s.peek addr, s) := by
  simp only [State.readReg, hgpio, hlo, hhi, List.contains_eq_mem, decide_false, Bool.false_eq_true, if_false]

/-! ### Identification registers (R6) -/

theorem unitViews_offset {r : Nat} (h : r ∈ unitViews) : r % 0x10000 ≠ 0xFFFC := by
  revert r
  decide

theorem latchingRegs_offset {r : Nat} (h : r ∈ latchingRegs) : r % 0x10000 < 0xFFF8 := by
  revert r
  decide

theorem zoneDesc_offset {addr : Nat} (h : R.FMT_ZONE_DESC 0 ≤ addr ∧ addr ≤ R.FMT_ZONE_DESC 3) : addr % 0x10000 ≠ 0xFFFC := by
  simp only [R.FMT_ZONE_DESC] at h
  omega

theorem State.peekBasic_blkId {s : State} {addr : Nat} (habs : s.absent addr = false) (hwin : inWindow addr = true)
    (hoff : addr % 0x10000 = 0xFFFC) : s.peekBasic addr = blkId addr := by
  rw [inWindow] at hwin
  simp only [State.peekBasic, habs, hoff, hwin, Bool.false_eq_true, and_self, if_true, if_false]

theorem State.readReg_blkId {s : State} (proc : Nat) {addr : Nat} (habs : s.absent addr = false) (hwin : inWindow addr = true)
    (hoff : addr % 0x10000 = 0xFFFC) : s.readReg proc addr = (blkId addr, s) := by
  have hgpio : addr ≠ R.SYS_GPIO_IN := by rintro rfl; exact absurd hoff (by decide)
  have hlo : addr ∉ latchingRegs := fun h => by have := latchingRegs_offset h; omega
  have hhi : addr - 4 ∉ latchingRegs := fun h => by have := latchingRegs_offset h; omega
  rw [s.readReg_plain proc hgpio hlo hhi,
    s.peek_eq_peekBasic (fun h => unitViews_offset h hoff) (fun h => zoneDesc_offset h hoff), peekBasic_blkId habs hwin hoff]

/-- Settles O9: no register of the tables and no unit's view stands at offset 0xFFFC, so the read shows the window's
identification, or 0 where the unit is absent. -/
theorem identificationRegisters : Obligations.IdentificationRegisters := by
  intro s proc addr hproc hwin _ hoff
  have haddr : addr % 4 = 0 := by omega
  cases habs : s.absent addr with
  | true => exact ⟨_, execRegisterRead_absent hproc hwin haddr habs, rfl, rfl, rfl⟩
  | false =>
    refine ⟨_, execRegisterRead_present hproc hwin haddr habs, rfl, rfl, ?_⟩
    simp only [State.readReg_blkId proc habs hwin hoff, State.busAnswer_bus, blkId, Bool.false_eq_true, if_false]
    omega

/-! ### Capability values (R2) -/

/-- Every unit a part may lack has its window at or above NDL_B's. -/
theorem State.absent_eq_false_of_lt (s : State) {addr : Nat} (h : addr < 0x01210000) : s.absent addr = false := by
  simp only [State.absent, Bool.or_eq_false_iff, Bool.and_eq_false_iff, beq_eq_false_iff_ne, decide_eq_false_iff_not]
  omega

theorem State.peekBasic_capLo (s : State) : s.peekBasic R.SYS_CAP_LO = s.fuse.capLo := by
  have hoff : ¬ R.SYS_CAP_LO % 0x10000 = 0xFFFC := by decide
  simp only [State.peekBasic, s.absent_eq_false_of_lt (addr := R.SYS_CAP_LO) (by decide), hoff, false_and,
    Bool.false_eq_true, if_true, if_false]

theorem State.peekBasic_capHi (s : State) : s.peekBasic R.SYS_CAP_HI = s.fuse.capHi := by
  have hoff : ¬ R.SYS_CAP_HI % 0x10000 = 0xFFFC := by decide
  have hlo : R.SYS_CAP_HI ≠ R.SYS_CAP_LO := by decide
  simp only [State.peekBasic, s.absent_eq_false_of_lt (addr := R.SYS_CAP_HI) (by decide), hoff, hlo, false_and,
    Bool.false_eq_true, if_true, if_false]

theorem State.readReg_capLo (s : State) (proc : Nat) : s.readReg proc R.SYS_CAP_LO = (s.fuse.capLo, s) := by
  rw [s.readReg_plain proc (by decide) (by decide) (by decide), s.peek_eq_peekBasic (by decide) (by decide),
    s.peekBasic_capLo]

theorem State.readReg_capHi (s : State) (proc : Nat) : s.readReg proc R.SYS_CAP_HI = (s.fuse.capHi, s) := by
  rw [s.readReg_plain proc (by decide) (by decide) (by decide), s.peek_eq_peekBasic (by decide) (by decide),
    s.peekBasic_capHi]

/-- SYS_CAP_LO of each ordering code, as R2 tabulates it. -/
theorem Fuses.capLo_table (f : Fuses) : f.capLo =
    match f.variant, f.nSuffix with
    | .d2h, false => 0x0033F7FF | .d2m, false => 0x0033FBFF | .s1h, false => 0x0033F675
    | .d2h, true => 0x0033C7FF | .d2m, true => 0x0033CBFF | .s1h, true => 0x0033C675 := by
  rw [Fuses.capLo]
  cases f.variant <;> cases f.nSuffix <;> rfl

/-- SYS_CAP_HI of each ordering code at stepping 0x00, as R2 tabulates it. -/
theorem Fuses.capHi_table {f : Fuses} (h : f.stepping = 0) : f.capHi =
    match f.variant, f.nSuffix with
    | .d2h, false => 0x00000108 | .d2m, false => 0x00000208 | .s1h, false => 0x00000308
    | .d2h, true => 0x00001108 | .d2m, true => 0x00001208 | .s1h, true => 0x00001308 := by
  rw [Fuses.capHi, h]
  cases f.variant <;> cases f.nSuffix <;> rfl

/-- Settles O8: the SYS window is always present and no unit's view stands in it, so the two reads show what the fuses
give, which is R2's table. -/
theorem capabilityValues : Obligations.CapabilityValues := by
  intro s proc hstep hproc
  constructor
  · refine ⟨_, execRegisterRead_present hproc (by decide) (by decide) (s.absent_eq_false_of_lt (by decide)), rfl, rfl, ?_⟩
    rw [s.readReg_capLo]
    exact s.fuse.capLo_table
  · refine ⟨_, execRegisterRead_present hproc (by decide) (by decide) (s.absent_eq_false_of_lt (by decide)), rfl, rfl, ?_⟩
    rw [s.readReg_capHi]
    exact Fuses.capHi_table hstep

end Sys2Proof.Machine
end

section
/-!
PROOFS. The spindle engine (chapter 6): from a measured stack to RUN (R140, R142 to R144), and the ways out of RUN (R145 to
R148). First what a field reads after the operations that these share, then what the entry to each state shows.
-/

namespace Sys2Proof.Machine

/-! ### A field that a write leaves alone -/

/-- A write of the first field leaves the second alone: it stays within its word and the two share no bit. -/
def Fld.spares (g f : Fld) : Bool :=
  decide (g.lo + g.width ≤ 32 ∧ (f.addr ≠ g.addr ∨ f.lo + f.width ≤ g.lo ∨ g.lo + g.width ≤ f.lo))

@[simp] theorem State.fld_setFld_of_spares (s : State) {g f : Fld} (v : Nat) (h : g.spares f = true) :
    (s.setFld g v).fld f = s.fld f := by
  obtain ⟨hfits, hapart⟩ := of_decide_eq_true h
  exact s.fld_setFld_apart v hfits hapart

@[simp] theorem State.setFld_spn (s : State) (f : Fld) (v : Nat) : (s.setFld f v).spn = s.spn := rfl
@[simp] theorem State.setFld_pattern (s : State) (f : Fld) (v : Nat) : (s.setFld f v).pattern = s.pattern := rfl
@[simp] theorem State.modSpn_fld (s : State) (u : Spindle → Spindle) (f : Fld) : (s.modSpn u).fld f = s.fld f := rfl

/-- A field reads the value written to it when the value fits. -/
theorem State.fld_setFld_of_lt (s : State) (f : Fld) {v : Nat} (hfits : f.lo + f.width ≤ 32) (hv : v < 2 ^ f.width) :
    (s.setFld f v).fld f = v := by
  rw [s.fld_setFld_same f v hfits, Nat.mod_eq_of_lt hv]

/-- A field that reads 1 after it was set. -/
theorem State.fld_flag_same (s : State) (f : Fld) (hfits : f.lo + f.width ≤ 32) (hwidth : 0 < f.width) :
    (s.flag f).fld f = 1 := by
  rw [State.flag, State.fld_setFld_same _ _ _ hfits, Nat.mod_eq_of_lt (Nat.one_lt_two_pow (Nat.ne_of_gt hwidth))]

/-! ### What the other units leave to the spindle engine -/

/-- The field stands in a register of the spindle engine. -/
def Fld.inSpn (f : Fld) : Bool := decide (R.SPN_CMD ≤ f.addr ∧ f.addr < R.NDL_CTRL 0)

/-- A field of the spindle engine that none of the listed writes touches. -/
def Fld.besides (f : Fld) (written : List Fld) : Bool := f.inSpn && written.all (·.spares f)

/-- What is not the spindle engine's: the registers outside its window, and every part but its own and the Pattern that gives
the rated speed. -/
def offSpindle : Scope where
  reg a := ¬ (R.SPN_CMD ≤ a ∧ a < R.NDL_CTRL 0)
  part p := p ≠ .spn ∧ p ≠ .pattern

section
variable {s t : State} (h : Keeps offSpindle s t)
include h

theorem Keeps.same_spn : t.spn = s.spn := by
  obtain ⟨_, _, _, _, hparts⟩ := h
  exact hparts .spn fun ⟨hspn, _⟩ => hspn rfl

theorem Keeps.same_pattern : t.pattern = s.pattern := by
  obtain ⟨_, _, _, _, hparts⟩ := h
  exact hparts .pattern fun ⟨_, hpattern⟩ => hpattern rfl

theorem Keeps.same_fld {f : Fld} (hf : f.inSpn = true) : t.fld f = s.fld f := by
  obtain ⟨_, _, _, hregs, _⟩ := h
  rw [State.fld, State.fld, hregs _ (not_not_intro (of_decide_eq_true hf))]

end

theorem offSpindle_covers_event : offSpindle.covers State.event_sites := by
  simp [State.event_sites, State.enterRecord_sites, State.fifoLevel_sites, State.shadowAlone_sites, State.startWriter_sites,
    State.coalesce_sites, State.carryCoalesced_sites, State.takeSeq_sites, offSpindle, R.SPN_CMD, R.NDL_CTRL, R.REC_STATUS,
    R.REC_SEQ, R.REC_EVENTS, R.REC_LOST]
  omega

theorem offSpindle_covers_eretractBoth : offSpindle.covers State.eretractBoth_sites := by
  simp [State.eretractBoth_sites, State.eretract_sites, State.leaveMedia_sites, State.abandonIf_sites,
    State.abandonCalibration_sites, State.gate_sites, State.lowerAen_sites, State.lowerWg_sites, State.wgDropped_sites,
    State.heatersOff_sites, State.queueFrames_sites, State.pendMode_sites, offSpindle, R.SPN_CMD, R.NDL_CTRL, R.ACT_COUNTS,
    R.ACT_STATUS, R.ACT_EVENTS, R.ACT_WSTOP, R.NDL_STATUS, R.GAU_EVENTS, R.GAU_STATUS]
  and_intros <;> intro i _ <;> omega

theorem offSpindle_covers_startUnload : offSpindle.covers State.startUnload_sites := by
  obtain ⟨hleave, _⟩ := (Scope.covers_append ..).1 offSpindle_covers_eretractBoth
  exact hleave

theorem offSpindle_covers_gates_abandonIf : offSpindle.covers State.gates_sites ∧ offSpindle.covers State.abandonIf_sites := by
  have hleave := offSpindle_covers_startUnload
  simp only [State.startUnload_sites, State.leaveMedia_sites, Scope.covers_append] at hleave
  obtain ⟨⟨⟨⟨habandon, hgate⟩, _⟩, _⟩, _⟩ := hleave
  exact ⟨hgate, habandon⟩

section
variable (s : State) {f : Fld} (hf : f.inSpn = true)

theorem State.event_offSpindle (src idx sev inst cause : Nat) : Keeps offSpindle s (s.event src idx sev inst cause) :=
  State.event_keeps _ _ _ _ _ _ (Keeps.refl _ s) offSpindle_covers_event

theorem State.gates_offSpindle : Keeps offSpindle s s.gates :=
  State.gates_keeps _ (Keeps.refl _ s) offSpindle_covers_gates_abandonIf.1

theorem State.abandonIf_offSpindle (p : Calibration → Bool) : Keeps offSpindle s (s.abandonIf p) :=
  State.abandonIf_keeps _ _ (Keeps.refl _ s) offSpindle_covers_gates_abandonIf.2

theorem State.startUnload_offSpindle (a : Nat) : Keeps offSpindle s (s.startUnload a) :=
  State.startUnload_keeps _ _ (Keeps.refl _ s) offSpindle_covers_startUnload

theorem State.eretractBoth_offSpindle (cause : Nat) : Keeps offSpindle s (s.eretractBoth cause) :=
  State.eretractBoth_keeps _ _ (Keeps.refl _ s) offSpindle_covers_eretractBoth

@[simp] theorem State.event_spn (src idx sev inst cause : Nat) : (s.event src idx sev inst cause).spn = s.spn :=
  (s.event_offSpindle ..).same_spn

@[simp] theorem State.event_pattern (src idx sev inst cause : Nat) : (s.event src idx sev inst cause).pattern = s.pattern :=
  (s.event_offSpindle ..).same_pattern

@[simp] theorem State.gates_spn : s.gates.spn = s.spn := s.gates_offSpindle.same_spn

@[simp] theorem State.gates_pattern : s.gates.pattern = s.pattern := s.gates_offSpindle.same_pattern

@[simp] theorem State.abandonIf_spn (p : Calibration → Bool) : (s.abandonIf p).spn = s.spn :=
  (s.abandonIf_offSpindle p).same_spn

include hf

@[simp] theorem State.event_fld (src idx sev inst cause : Nat) : (s.event src idx sev inst cause).fld f = s.fld f :=
  (s.event_offSpindle ..).same_fld hf

@[simp] theorem State.gates_fld : s.gates.fld f = s.fld f := s.gates_offSpindle.same_fld hf

@[simp] theorem State.abandonIf_fld (p : Calibration → Bool) : (s.abandonIf p).fld f = s.fld f :=
  (s.abandonIf_offSpindle p).same_fld hf

@[simp] theorem State.startUnload_fld (a : Nat) : (s.startUnload a).fld f = s.fld f := (s.startUnload_offSpindle a).same_fld hf

@[simp] theorem State.eretractBoth_fld (cause : Nat) : (s.eretractBoth cause).fld f = s.fld f :=
  (s.eretractBoth_offSpindle cause).same_fld hf

end

/-! ### WRITE_OK (R138) -/

/-- What R138 asks of WRITE_OK: RUN or HOLD, an uncertainty of at most 0.5 %, and the speed within WR_TOL of rated. -/
def State.writeSafe (s : State) : Bool :=
  (s.spnState == Spn.run || s.spnState == Spn.hold) && s.fld F.SPN_UNC_UNC ≤ 500 && s.speedWithin (s.fld F.SPN_CTRL_WR_TOL)

theorem State.writeSafe_iff (s : State) : s.writeSafe = true ↔
    (s.spnState = Spn.run ∨ s.spnState = Spn.hold) ∧ s.fld F.SPN_UNC_UNC ≤ 500 ∧
      s.speedWithin (s.fld F.SPN_CTRL_WR_TOL) = true := by
  simp [State.writeSafe, and_assoc]

/-- The write-unsafe stop that an evaluation of WRITE_OK leaves. -/
def State.stopsWrites (s : State) : Bool := !s.writeSafe && (s.on F.SPN_STATUS_WRITE_OK || s.spn.writeStop)

theorem State.evalWriteOk_eq (s : State) : s.evalWriteOk =
    let u := (s.setBit F.SPN_STATUS_WRITE_OK s.writeSafe).modSpn fun x => { x with writeStop := s.stopsWrites }
    (if s.on F.SPN_STATUS_WRITE_OK && !s.writeSafe then (u.flag F.SPN_EV_WRITE_INHIBIT).event 5 1 4 0 s.spnState else u).gates :=
  rfl

@[simp] theorem State.evalWriteOk_spn (s : State) : s.evalWriteOk.spn = { s.spn with writeStop := s.stopsWrites } := by
  rw [State.evalWriteOk_eq]
  split <;> simp [State.setBit, State.flag]

@[simp] theorem State.evalWriteOk_pattern (s : State) : s.evalWriteOk.pattern = s.pattern := by
  rw [State.evalWriteOk_eq]
  split <;> simp [State.setBit, State.flag]

@[simp] theorem State.evalWriteOk_fld (s : State) {f : Fld}
    (hf : f.besides [F.SPN_STATUS_WRITE_OK, F.SPN_EV_WRITE_INHIBIT] = true) : s.evalWriteOk.fld f = s.fld f := by
  simp only [Fld.besides, List.all_cons, List.all_nil, Bool.and_true, Bool.and_eq_true] at hf
  rw [State.evalWriteOk_eq]
  split <;> simp [State.setBit, State.flag, hf]

theorem State.evalWriteOk_fld_writeOk (s : State) :
    s.evalWriteOk.fld F.SPN_STATUS_WRITE_OK = if s.writeSafe then 1 else 0 := by
  have hset (v : Nat) : (s.setFld F.SPN_STATUS_WRITE_OK v).fld F.SPN_STATUS_WRITE_OK = v % 2 :=
    s.fld_setFld_same F.SPN_STATUS_WRITE_OK v (by decide)
  rw [State.evalWriteOk_eq]
  split <;> simp (disch := decide) only [State.setBit, State.flag, State.gates_fld, State.event_fld,
    State.fld_setFld_of_spares, State.modSpn_fld, hset] <;> split <;> rfl

/-- The fields that R138 looks at. -/
def writeSafeFlds : List Fld :=
  [F.SPN_STATUS_STATE, F.SPN_UNC_UNC, F.SPN_CTRL_WR_TOL, F.SPN_SPEED_RPM_X100, F.SPN_SPEED_REVERSE]

theorem State.writeSafe_congr {s t : State} (hpattern : t.pattern = s.pattern)
    (hfld : ∀ f ∈ writeSafeFlds, t.fld f = s.fld f) : t.writeSafe = s.writeSafe := by
  simp only [writeSafeFlds, List.forall_mem_cons] at hfld
  obtain ⟨hstate, hunc, htol, hrpm, hreverse, _⟩ := hfld
  have hwithin (tol : Nat) : t.speedWithin tol = s.speedWithin tol := by
    unfold State.speedWithin State.ratedSpeed State.on
    rw [hpattern, hrpm, hreverse]
  simp only [State.writeSafe, State.spnState, hstate, hunc, htol, hwithin]

/-- The evaluation changes nothing that it looks at. -/
theorem State.evalWriteOk_writeSafe (s : State) : s.evalWriteOk.writeSafe = s.writeSafe :=
  have hbesides : ∀ f ∈ writeSafeFlds, f.besides [F.SPN_STATUS_WRITE_OK, F.SPN_EV_WRITE_INHIBIT] = true := by decide
  State.writeSafe_congr s.evalWriteOk_pattern fun f hf => s.evalWriteOk_fld (hbesides f hf)

/-! ### Entry to a state (R140) -/

@[simp] theorem State.toSpn_spn (s : State) (st : Nat) :
    (s.toSpn st).spn = { s.spn with writeStop := (s.setFld F.SPN_STATUS_STATE st).stopsWrites } := by
  simp only [State.toSpn]
  split <;> simp

/-- Behind the entry itself a calibration may be abandoned, which is no matter of the spindle engine. -/
theorem State.toSpn_fld_evalWriteOk (s : State) (st : Nat) {f : Fld} (hf : f.inSpn = true) :
    (s.toSpn st).fld f = (s.setFld F.SPN_STATUS_STATE st).evalWriteOk.fld f := by
  simp only [State.toSpn]
  split <;> simp [hf]

@[simp] theorem State.toSpn_fld (s : State) (st : Nat) {f : Fld}
    (hf : f.besides [F.SPN_STATUS_STATE, F.SPN_STATUS_WRITE_OK, F.SPN_EV_WRITE_INHIBIT] = true) :
    (s.toSpn st).fld f = s.fld f := by
  simp only [Fld.besides, List.all_cons, List.all_nil, Bool.and_true, Bool.and_eq_true] at hf
  obtain ⟨hin, hstate, heval⟩ := hf
  rw [s.toSpn_fld_evalWriteOk st hin, State.evalWriteOk_fld _ (by simp [Fld.besides, hin, heval]),
    s.fld_setFld_of_spares st hstate]

@[simp] theorem State.toSpn_spnState (s : State) {st : Nat} (hst : st < 16) : (s.toSpn st).spnState = st := by
  rw [State.spnState, s.toSpn_fld_evalWriteOk st (by decide), State.evalWriteOk_fld _ (by decide),
    State.fld_setFld_same _ _ _ (by decide)]
  exact Nat.mod_eq_of_lt hst

@[simp] theorem State.driveOff_fld (s : State) {f : Fld} (hf : F.SPN_STATUS_FW_ACTIVE.spares f = true) :
    s.driveOff.fld f = s.fld f := by
  simp [State.driveOff, State.setIdRef, State.openBridge, State.setBit, hf]

@[simp] theorem State.noSpeed_fld (s : State) {f : Fld} (hsource : F.SPN_SPEED_SOURCE.spares f = true)
    (hunc : F.SPN_UNC_UNC.spares f = true) : s.noSpeed.fld f = s.fld f := by
  simp [State.noSpeed, hsource, hunc]

@[simp] theorem State.noSpeed_spn (s : State) : s.noSpeed.spn = s.spn := rfl

/-- To STOPPED no start is pending. -/
theorem State.spnStopped_shows (s : State) :
    s.spnStopped.spnState = Spn.stopped ∧ s.spnStopped.fld F.SPN_STATUS_START_PEND = 0 := by
  constructor
  · exact State.toSpn_spnState _ (by decide)
  · rw [State.spnStopped, State.toSpn_fld _ _ (by decide), State.clr, State.fld_setFld_of_lt _ _ (by decide) (by decide)]

/-- To BRAKE, with a start pending or not; a catch that runs is none of its matters. -/
theorem State.spnBrake_shows (s : State) (target : Nat) (pend : Bool) :
    (s.spnBrake target pend).spnState = Spn.brake ∧
    (s.spnBrake target pend).fld F.SPN_STATUS_START_PEND = (if pend then 1 else 0) ∧
    (s.spnBrake target pend).spn.catching = s.spn.catching := by
  refine ⟨State.toSpn_spnState _ (by decide), ?_, ?_⟩
  · rw [State.spnBrake, State.toSpn_fld _ _ (by decide), State.setBit,
      State.fld_setFld_of_lt _ _ (by decide) (by cases pend <;> decide)]
  · simp [State.spnBrake, State.setBit]

/-- To ALIGN no start is pending; the count of measurements stays. -/
theorem State.spnAlign_shows (s : State) (rock : Nat) :
    (s.spnAlign rock).spnState = Spn.align ∧ (s.spnAlign rock).fld F.SPN_STATUS_START_PEND = 0 ∧
    (s.spnAlign rock).spn.measurements = s.spn.measurements := by
  refine ⟨State.toSpn_spnState _ (by decide), ?_, ?_⟩
  · rw [State.spnAlign, State.toSpn_fld _ _ (by decide), State.modSpn_fld, State.clr,
      State.fld_setFld_of_lt _ _ (by decide) (by decide)]
  · simp [State.spnAlign, State.clr]

theorem State.spnAlign_fld (s : State) (rock : Nat) {f : Fld}
    (hsource : F.SPN_SPEED_SOURCE.spares f = true) (hunc : F.SPN_UNC_UNC.spares f = true)
    (hpend : F.SPN_STATUS_START_PEND.spares f = true)
    (hf : f.besides [F.SPN_STATUS_STATE, F.SPN_STATUS_WRITE_OK, F.SPN_EV_WRITE_INHIBIT] = true) :
    (s.spnAlign rock).fld f = s.fld f := by
  rw [State.spnAlign, State.toSpn_fld _ _ hf, State.modSpn_fld, State.clr, State.fld_setFld_of_spares _ _ hpend,
    s.noSpeed_fld hsource hunc]

/-- To COAST with its cause and event (R147). -/
theorem State.spnCoast_shows (s : State) {cause : Nat} (hcause : cause < 4) :
    (s.spnCoast cause).spnState = Spn.coast ∧ (s.spnCoast cause).fld F.SPN_STATUS_COAST_CAUSE = cause ∧
    (s.spnCoast cause).fld F.SPN_EV_COAST_ENTRY = 1 := by
  refine ⟨State.toSpn_spnState _ (by decide), ?_, ?_⟩
  · rw [State.spnCoast, State.toSpn_fld _ _ (by decide), State.clr, State.fld_setFld_of_spares _ _ (by decide),
      State.fld_setFld_of_lt _ _ (by decide) hcause]
  · have hentry := s.driveOff.fld_flag_same F.SPN_EV_COAST_ENTRY (by decide) (by decide)
    rw [State.spnCoast, State.toSpn_fld _ _ (by decide), State.clr, State.fld_setFld_of_spares _ _ (by decide),
      State.fld_setFld_of_spares _ _ (by decide)]
    split
    · rw [State.event_fld _ (by decide), State.count, State.addSat, State.fld_setFld_of_spares _ _ (by decide), hentry]
    · exact hentry

theorem State.spnCoast_fld_ctrl (s : State) (cause : Nat) :
    (s.spnCoast cause).fld F.SPN_CTRL_AUTO_CATCH = s.fld F.SPN_CTRL_AUTO_CATCH := by
  simp only [State.spnCoast]
  split <;> simp (disch := decide) only [State.toSpn_fld, State.clr, State.flag, State.count, State.addSat, State.event_fld,
    State.fld_setFld_of_spares, State.driveOff_fld]

/-- To LOCKED with its cause and event (R140); the retract that follows is the actuators'. -/
theorem State.spnLocked_shows (s : State) {cause : Nat} (hcause : cause < 4) :
    (s.spnLocked cause).spnState = Spn.locked ∧ (s.spnLocked cause).fld F.SPN_STATUS_LOCK_CAUSE = cause ∧
    (s.spnLocked cause).fld F.SPN_EV_LOCKED = 1 := by
  refine ⟨?_, ?_, ?_⟩
  · rw [State.spnLocked, State.spnState, State.eretractBoth_fld _ (by decide)]
    exact State.toSpn_spnState _ (by decide)
  · rw [State.spnLocked, State.eretractBoth_fld _ (by decide), State.toSpn_fld _ _ (by decide), State.event_fld _ (by decide),
      State.count, State.addSat, State.fld_setFld_of_spares _ _ (by decide), State.flag,
      State.fld_setFld_of_spares _ _ (by decide), State.fld_setFld_of_lt _ _ (by decide) hcause]
  · rw [State.spnLocked, State.eretractBoth_fld _ (by decide), State.toSpn_fld _ _ (by decide), State.event_fld _ (by decide),
      State.count, State.addSat, State.fld_setFld_of_spares _ _ (by decide), State.fld_flag_same _ _ (by decide) (by decide)]

/-! ### The current samples of a run (R130) -/

/-- The three phase currents of the last run, their offsets taken off. -/
def State.samples (s : State) : Int × Int × Int := (s.spn.iu, s.spn.iv, s.spn.iw)

section
variable (s : State)

@[simp] theorem State.setFld_samples (f : Fld) (v : Nat) : (s.setFld f v).samples = s.samples := rfl

theorem State.modSpn_samples {u : Spindle → Spindle} (hu : ∀ x, ((u x).iu, (u x).iv, (u x).iw) = (x.iu, x.iv, x.iw)) :
    (s.modSpn u).samples = s.samples := hu s.spn

@[simp] theorem State.evalWriteOk_samples : s.evalWriteOk.samples = s.samples := by
  simp only [State.samples, State.evalWriteOk_spn]

@[simp] theorem State.toSpn_samples (st : Nat) : (s.toSpn st).samples = s.samples := by
  simp only [State.samples, State.toSpn_spn]

@[simp] theorem State.observe_samples (ps : Nat) (i : Int × Int) : (s.observe ps i).samples = s.samples := by
  simp only [State.observe]
  repeat' split
  all_goals rfl

@[simp] theorem State.fieldWeaken_samples (vmax : Int) : (s.fieldWeaken vmax).samples = s.samples := by
  simp only [State.fieldWeaken]
  repeat' split
  all_goals rfl

@[simp] theorem State.floatWindow_samples (angle : Nat) (step : Int) : (s.floatWindow angle step).samples = s.samples := by
  unfold State.floatWindow
  exact s.modSpn_samples fun _ => rfl

@[simp] theorem State.drive_samples (obs : LoopObs) (ps : Nat) (dq : Int × Int) : (s.drive obs ps dq).samples = s.samples := by
  simp only [State.drive]
  repeat' split
  all_goals (simp only [State.floatWindow_samples, State.fieldWeaken_samples]; rfl)

@[simp] theorem State.rampRun_samples (ps : Nat) : (s.rampRun ps).samples = s.samples := by
  simp only [State.rampRun]
  repeat' split
  all_goals rfl

@[simp] theorem State.relock_samples : s.relock.samples = s.samples := by
  simp only [State.relock]
  split <;> rw [State.toSpn_samples] <;> rfl

@[simp] theorem State.spnHold_samples : s.spnHold.samples = s.samples := by
  rw [State.spnHold, State.toSpn_samples]
  rfl

/-- ACCEL may pass to HOLD, RUN to HOLD, HOLD to a relock and CATCH to ACCEL; elsewhere the observer moves no state. -/
@[simp] theorem State.observerState_samples (wasLocked : Bool) : (s.observerState wasLocked).samples = s.samples := by
  simp only [State.observerState]
  split
  · split
    · split
      · exact s.spnHold_samples
      · rfl
    · split <;> rfl
  · split
    · rfl
    · exact s.spnHold_samples
  · split
    · exact s.relock_samples
    · rfl
  · split
    · exact (State.toSpn_samples ..).trans rfl
    · rfl
  · rfl

theorem State.runCounted_samples : (s.modSpn fun x => { x with runInRow := x.runInRow + 1 }).samples = s.samples := rfl

/-- Outside device reset a run ends with the evaluation of WRITE_OK, and the samples stand as they were taken. -/
theorem execCurrentLoopRun_next (obs : LoopObs) (hreset : s.keeper.inReset = false) :
    ∃ u : State, execCurrentLoopRun obs s = .next u.evalWriteOk ∧
      u.samples = (obs.iu - roundDiv (s.sfld F.GAU_ISENSE_SPN_U) 2, obs.iv - roundDiv (s.sfld F.GAU_ISENSE_SPN_V) 2,
        obs.iw - roundDiv (s.sfld F.GAU_ISENSE_SPN_W) 2) := by
  simp only [execCurrentLoopRun, State.modSpn_keeper, hreset, Bool.false_eq_true, if_false]
  split
  · refine ⟨_, rfl, ?_⟩
    split <;> rfl
  · refine ⟨_, rfl, ?_⟩
    simp only [State.observerState_samples, State.runCounted_samples, State.rampRun_samples, State.drive_samples, State.setSfld,
      State.setFld_samples, State.observe_samples]
    rfl

end

/-! ### LOAD_STATE and RETRACT_CAUSE through a retract (R193, R194) -/

/-- A field at the place of ACT_STATUS in its window, clear of WG and AEN: LOAD_STATE and RETRACT_CAUSE are such. -/
def Fld.ofHeads (f : Fld) : Prop := f.addr % 0x1000 = 8 ∧ (f.lo + f.width ≤ 3 ∨ 5 ≤ f.lo)

theorem Fld.ofHeads_loadState (a : Nat) : (F.ACT_STATUS_LOAD_STATE a).ofHeads := by
  simp only [Fld.ofHeads, F.ACT_STATUS_LOAD_STATE, R.ACT_STATUS]
  omega

theorem Fld.ofHeads_retractCause (a : Nat) : (F.ACT_STATUS_RETRACT_CAUSE a).ofHeads := by
  simp only [Fld.ofHeads, F.ACT_STATUS_RETRACT_CAUSE, R.ACT_STATUS]
  omega

/-- Every register that stands elsewhere than ACT_STATUS in its window, and every part. -/
def offHeads : Scope where
  reg a := a % 0x1000 ≠ 8
  part _ := True

theorem Keeps.same_heads {s t : State} (h : Keeps offHeads s t) {f : Fld} (hf : f.ofHeads) : t.fld f = s.fld f := by
  obtain ⟨_, _, _, hregs, _⟩ := h
  rw [State.fld, State.fld, hregs _ (not_not_intro hf.1)]

theorem Fld.spares_of_ofHeads {g f : Fld} (hfits : g.lo + g.width ≤ 32) (hg : g.addr % 0x1000 ≠ 8) (hf : f.ofHeads) :
    g.spares f = true :=
  decide_eq_true ⟨hfits, .inl fun h => hg (h ▸ hf.1)⟩

section
variable (s : State) (a : Nat) {f : Fld} (hf : f.ofHeads)
include hf

theorem State.wgDropped_heads : (s.wgDropped a).fld f = s.fld f :=
  (State.wgDropped_keeps _ _ (Keeps.refl offHeads s) (by
    simp [State.wgDropped_sites, offHeads, R.ACT_EVENTS])).same_heads hf

theorem State.heatersOff_heads : (s.heatersOff a).fld f = s.fld f :=
  (State.heatersOff_keeps _ _ (Keeps.refl offHeads s) (by
    simp [State.heatersOff_sites, State.queueFrames_sites, offHeads])).same_heads hf

theorem State.pendMode_heads (n m : Nat) : (s.pendMode n m).fld f = s.fld f :=
  (State.pendMode_keeps _ _ _ (Keeps.refl offHeads s) (by
    simp [State.pendMode_sites, offHeads, R.NDL_STATUS]
    omega)).same_heads hf

theorem State.abandonIf_heads (p : Calibration → Bool) : (s.abandonIf p).fld f = s.fld f :=
  (State.abandonIf_keeps _ _ (Keeps.refl offHeads s) (by
    simp [State.abandonIf_sites, State.abandonCalibration_sites, offHeads, R.GAU_EVENTS, R.GAU_STATUS])).same_heads hf

theorem State.lowerAen_heads (t : Nat) : (s.lowerAen a t).fld f = s.fld f := by
  have haen : (F.ACT_STATUS_AEN a).spares f = true :=
    decide_eq_true ⟨by simp [F.ACT_STATUS_AEN], .inr (hf.2.imp Nat.le_succ_of_le id)⟩
  exact State.fld_setFld_of_spares _ 0 haen

theorem State.lowerWg_heads : (s.lowerWg a).fld f = s.fld f := by
  have hwg : (F.ACT_STATUS_WG a).spares f = true :=
    decide_eq_true ⟨by simp [F.ACT_STATUS_WG], .inr (hf.2.imp id Nat.le_of_succ_le)⟩
  exact State.fld_setFld_of_spares _ 0 hwg

theorem State.gate_heads : (s.gate a).fld f = s.fld f := by
  have hstop (u : State) (v : Nat) : (u.setFld (F.ACT_WSTOP_STOP a) v).fld f = u.fld f :=
    u.fld_setFld_of_spares v (Fld.spares_of_ofHeads (by simp [F.ACT_WSTOP_STOP])
      (by simp only [F.ACT_WSTOP_STOP, R.ACT_WSTOP]; omega) hf)
  simp only [State.gate]
  repeat' split
  all_goals simp only [State.lowerAen_heads, State.lowerWg_heads, State.wgDropped_heads, hstop, hf]

/-- Of the heads' fields an unload or retract writes LOAD_STATE alone. -/
theorem State.leaveMedia_heads (st : Nat) (coil : Coil) :
    (s.leaveMedia a st coil).fld f = (s.setFld (F.ACT_STATUS_LOAD_STATE a) st).fld f := by
  simp only [State.leaveMedia, State.abandonIf_heads _ hf, State.heatersOff_heads _ _ hf, State.gate_heads _ _ hf]
  split
  · rw [State.pendMode_heads _ hf]
    rfl
  · rfl

end

theorem Fld.spares_of_otherStatus {a b : Nat} {g f : Fld} (hg : g.addr = R.ACT_STATUS a) (hfits : g.lo + g.width ≤ 32)
    (hf : f.addr = R.ACT_STATUS b) (hab : b ≠ a) : g.spares f = true :=
  decide_eq_true ⟨hfits, .inl (by simp only [hg, hf, R.ACT_STATUS]; omega)⟩

section
variable (s : State) (a cause : Nat)

theorem State.eretractCounted_heads {f : Fld} (hf : f.ofHeads) : (s.count (F.ACT_COUNTS_ERETRACTS a)).fld f = s.fld f :=
  s.fld_setFld_of_spares _ (Fld.spares_of_ofHeads (by simp [F.ACT_COUNTS_ERETRACTS])
    (by simp only [F.ACT_COUNTS_ERETRACTS, R.ACT_COUNTS]; omega) hf)

/-- Loaded heads retract, with the cause. -/
theorem State.eretract_loaded (hloaded : s.fld (F.ACT_STATUS_LOAD_STATE a) = 2) (hcause : cause < 8) :
    (s.eretract a cause).fld (F.ACT_STATUS_LOAD_STATE a) = 4 ∧
    (s.eretract a cause).fld (F.ACT_STATUS_RETRACT_CAUSE a) = cause := by
  simp only [State.eretract, hloaded, Nat.reduceEqDiff, or_false, or_true, if_true]
  constructor
  · rw [State.leaveMedia_heads _ _ (Fld.ofHeads_loadState a), State.fld_setFld_of_lt _ _ (by simp [F.ACT_STATUS_LOAD_STATE])]
    simp [F.ACT_STATUS_LOAD_STATE]
  · have hspares : (F.ACT_STATUS_LOAD_STATE a).spares (F.ACT_STATUS_RETRACT_CAUSE a) = true :=
      decide_eq_true ⟨by simp [F.ACT_STATUS_LOAD_STATE],
        .inr (by simp [F.ACT_STATUS_LOAD_STATE, F.ACT_STATUS_RETRACT_CAUSE])⟩
    rw [State.leaveMedia_heads _ _ (Fld.ofHeads_retractCause a), State.fld_setFld_of_spares _ _ hspares,
      State.eretractCounted_heads _ _ (Fld.ofHeads_retractCause a)]
    exact s.fld_setFld_of_lt _ (by simp [F.ACT_STATUS_RETRACT_CAUSE]) hcause

/-- A retract of one actuator leaves the heads of the other. -/
theorem State.eretract_other {b : Nat} (hab : b ≠ a) {f : Fld} (hf : f.ofHeads) (haddr : f.addr = R.ACT_STATUS b) :
    (s.eretract a cause).fld f = s.fld f := by
  simp only [State.eretract]
  split
  · rw [State.leaveMedia_heads _ _ hf,
      State.fld_setFld_of_spares _ _ (Fld.spares_of_otherStatus rfl (by simp [F.ACT_STATUS_LOAD_STATE]) haddr hab),
      State.eretractCounted_heads _ _ hf,
      State.fld_setFld_of_spares _ _ (Fld.spares_of_otherStatus rfl (by simp [F.ACT_STATUS_RETRACT_CAUSE]) haddr hab)]
  · rfl

/-- A retract of both actuators retracts the loaded heads of each. -/
theorem State.eretractBoth_loaded (ha : a < 2) (hloaded : s.fld (F.ACT_STATUS_LOAD_STATE a) = 2) (hcause : cause < 8) :
    (s.eretractBoth cause).fld (F.ACT_STATUS_LOAD_STATE a) = 4 ∧
    (s.eretractBoth cause).fld (F.ACT_STATUS_RETRACT_CAUSE a) = cause := by
  rw [State.eretractBoth]
  obtain rfl | rfl : a = 0 ∨ a = 1 := by omega
  · rw [State.eretract_other _ 1 _ (Nat.zero_ne_one) (Fld.ofHeads_loadState 0) rfl,
      State.eretract_other _ 1 _ (Nat.zero_ne_one) (Fld.ofHeads_retractCause 0) rfl]
    exact s.eretract_loaded 0 cause hloaded hcause
  · refine State.eretract_loaded _ 1 cause ?_ hcause
    rw [State.eretract_other _ 0 _ (Nat.one_ne_zero) (Fld.ofHeads_loadState 1) rfl, hloaded]

end

/-! ### The start (R142 to R144) -/

/-- A change within the spindle engine is a change of that part alone. -/
theorem State.modSpn_onlyChanged (s : State) (u : Spindle → Spindle) : OnlyChanged s (s.modSpn u) [] [.spn] := by
  obtain ⟨_, _, _, hframe⟩ := State.modSpn_keeps (A := ⟨(· ∈ []), (· ∈ [Part.spn])⟩) s u (Keeps.refl _ s)
    (List.mem_singleton_self _)
  exact hframe

theorem toAngle_lt (x : Int) : toAngle x < 65536 := by
  simp only [toAngle]
  omega

@[simp] theorem State.modSpn_ratedSpeed (s : State) (u : Spindle → Spindle) : (s.modSpn u).ratedSpeed = s.ratedSpeed := rfl

@[simp] theorem State.setFld_ratedSpeed (s : State) (f : Fld) (v : Nat) : (s.setFld f v).ratedSpeed = s.ratedSpeed := rfl

@[simp] theorem State.modSpn_speedOfEmf (s : State) (u : Spindle → Spindle) (amplitude : Nat) :
    (s.modSpn u).speedOfEmf amplitude = s.speedOfEmf amplitude := rfl

/-- The state with one more measurement of CATCH taken, and its speed and direction shown (R142). -/
def State.measured (s : State) (forward : Bool) (rate : Nat) : State :=
  ((s.modSpn fun x => { x with measurements := x.measurements + 1 }).setFld F.SPN_SPEED_RPM_X100 rate).setBit
    F.SPN_SPEED_REVERSE (!forward)

section
variable {s : State} {rate amp : Nat} (hcatch : s.spnState = Spn.catchState) (hmeas : s.spn.catching = false)
include hcatch hmeas

/-- Both speeds lie below 0.3 % of rated: they count as consistent, and the stack is aligned. -/
theorem execCatchMeasureDone_slow (fw : Bool) (ang : Nat) (hrate : rate * 1000 < 3 * s.ratedSpeed)
    (hemf : s.speedOfEmf amp * 1000 < 3 * s.ratedSpeed) :
    execCatchMeasureDone fw rate amp ang s = .next ((s.measured fw rate).spnAlign 0) := by
  simp [execCatchMeasureDone, State.measured, State.setBit, hcatch, hmeas, hrate, hemf]

/-- The two speeds agree within 20 % and the stack turns forward at 5 % of rated or more: the catch begins (R143). -/
theorem execCatchMeasureDone_fast (ang : Nat)
    (hagree : (max rate (s.speedOfEmf amp) - min rate (s.speedOfEmf amp)) * 5 ≤ max rate (s.speedOfEmf amp))
    (hfast : s.ratedSpeed * 5 ≤ rate * 100) :
    execCatchMeasureDone true rate amp ang s = .next (((s.measured true rate).setFld F.SPN_ANGLE_OBS ang).modSpn fun x =>
      { x with catching := true, catchAngle := 0, obsSpeed := rate, reliableRpm := rate, obsRecent := [], catchIq := 0,
               intD := 0, intQ := (amp * 18919 / 32768 : Nat) * 2 ^ 12, driving := true, zeroVector := false,
               residOk := 0, residBad := 0, cut := 0 }) := by
  have hslow : ¬ rate * 1000 < 3 * s.ratedSpeed := by omega
  simp [execCatchMeasureDone, State.measured, State.setBit, hcatch, hmeas, hagree, hfast, hslow]

end

section
variable (s : State)

theorem catchMeasureDone_aligns (fw : Bool) (rate amp ang : Nat) (hcatch : s.spnState = Spn.catchState)
    (hmeas : s.spn.catching = false) (hrate : rate * 1000 < 3 * s.ratedSpeed)
    (hemf : s.speedOfEmf amp * 1000 < 3 * s.ratedSpeed) :
    Answers (.catchMeasureDone fw rate amp ang) s fun t =>
      t.spnState = Spn.align ∧ t.spn.measurements = s.spn.measurements + 1 := by
  obtain ⟨hstate, _, hcount⟩ := (s.measured fw rate).spnAlign_shows 0
  exact ⟨_, execCatchMeasureDone_slow hcatch hmeas fw ang hrate hemf, hstate, hcount⟩

theorem catchMeasureDone_catches (rate amp ang : Nat) (hcatch : s.spnState = Spn.catchState) (hmeas : s.spn.catching = false)
    (hagree : (max rate (s.speedOfEmf amp) - min rate (s.speedOfEmf amp)) * 5 ≤ max rate (s.speedOfEmf amp))
    (hfast : s.ratedSpeed * 5 ≤ rate * 100) (_ : 0 < rate) (hang : ang < 65536) :
    Answers (.catchMeasureDone true rate amp ang) s fun t =>
      t.spnState = Spn.catchState ∧ t.spn.catching = true ∧ t.spn.obsSpeed = rate ∧
      t.spn.intQ = (amp * 18919 / 32768 : Nat) * 2 ^ 12 ∧ t.fld F.SPN_ANGLE_OBS = ang := by
  refine ⟨_, execCatchMeasureDone_fast hcatch hmeas ang hagree hfast, ?_, rfl, rfl, rfl, ?_⟩
  · rw [State.spnState, State.modSpn_fld, State.fld_setFld_of_spares _ _ (by decide), State.measured, State.setBit,
      State.fld_setFld_of_spares _ _ (by decide), State.fld_setFld_of_spares _ _ (by decide)]
    exact hcatch
  · rw [State.modSpn_fld, State.fld_setFld_of_lt _ _ (by decide) hang]

theorem catchTimeout_brakes (hcatch : s.spnState = Spn.catchState) (hmeas : s.spn.catching = true)
    (hangle : 64 * 65536 ≤ s.spn.catchAngle) : Answers (.catchTimeout) s fun t =>
      t.spnState = Spn.brake ∧ t.spn.catching = false ∧ t.fld F.SPN_STATUS_START_PEND = 1 := by
  obtain ⟨hstate, hpend, hcatching⟩ := (s.modSpn fun x => { x with catching := false }).spnBrake_shows 3 true
  exact ⟨_, if_pos ⟨hcatch, hmeas, hangle⟩, hstate, hcatching, hpend⟩

theorem alignDone_accelerates (n : Nat) (halign : s.spnState = Spn.align) : Answers (.alignDone n) s fun t =>
    t.spnState = Spn.accel ∧ t.spn.stage = n := by
  refine ⟨_, if_neg (not_not_intro halign), State.toSpn_spnState _ (by decide), ?_⟩
  rw [State.toSpn_spn]
  rfl

theorem commutationTimeout_eventSeen (haccel : s.spnState = Spn.accel) (hevent : s.spn.eventInWindow = true) :
    Answers (.commutationTimeout) s fun t =>
      t.spnState = Spn.accel ∧ t.spn.eventInWindow = false ∧ OnlyChanged s t [] [.spn] :=
  ⟨_, (if_neg (not_not_intro haccel)).trans (if_pos hevent), haccel, rfl, s.modSpn_onlyChanged _⟩

/-- The retry counts itself in its field of two bits, which the way through ALIGN leaves alone. -/
theorem commutationTimeout_retries (haccel : s.spnState = Spn.accel) (hevent : s.spn.eventInWindow = false)
    (hretry : s.fld F.SPN_STATUS_RETRY < 3) : Answers (.commutationTimeout) s fun t =>
      t.spnState = Spn.align ∧ t.fld F.SPN_STATUS_RETRY = s.fld F.SPN_STATUS_RETRY + 1 ∧ t.fld F.SPN_EV_RETRY = 1 := by
  have hexec : exec .commutationTimeout s = .next ((((s.setFld F.SPN_STATUS_RETRY (s.fld F.SPN_STATUS_RETRY + 1)).flag
      F.SPN_EV_RETRY).event 5 3 3 0 (s.fld F.SPN_STATUS_RETRY + 1)).driveOff.spnAlign
      (if s.fld F.SPN_STATUS_RETRY = 1 then 2 else 1)) := by
    simp [execCommutationTimeout, haccel, hevent, Nat.ne_of_lt hretry]
  refine ⟨_, hexec, (State.spnAlign_shows _ _).1, ?_, ?_⟩
  · rw [State.spnAlign_fld _ _ (by decide) (by decide) (by decide) (by decide), State.driveOff_fld _ (by decide),
      State.event_fld _ (by decide), State.flag, State.fld_setFld_of_spares _ _ (by decide),
      State.fld_setFld_of_lt _ _ (by decide) (Nat.succ_lt_succ hretry)]
  · rw [State.spnAlign_fld _ _ (by decide) (by decide) (by decide) (by decide), State.driveOff_fld _ (by decide),
      State.event_fld _ (by decide), State.fld_flag_same _ _ (by decide) (by decide)]

theorem commutationTimeout_locks (haccel : s.spnState = Spn.accel) (hevent : s.spn.eventInWindow = false)
    (hretry : s.fld F.SPN_STATUS_RETRY = 3) : Answers (.commutationTimeout) s fun t =>
      t.spnState = Spn.locked ∧ t.fld F.SPN_STATUS_LOCK_CAUSE = 1 ∧ t.fld F.SPN_EV_LOCKED = 1 := by
  have hexec : exec .commutationTimeout s = .next (s.spnLocked 1) := by
    simp [execCommutationTimeout, haccel, hevent, hretry]
  exact ⟨_, hexec, s.spnLocked_shows (by decide)⟩

theorem speedBandReached_runs (haccel : s.spnState = Spn.accel) (hrows : 256 ≤ s.spn.bandRows) :
    Answers (.speedBandReached) s fun t => t.spnState = Spn.run ∧ t.fld F.SPN_STATUS_RETRY = 0 := by
  refine ⟨_, if_pos ⟨haccel, hrows⟩, State.toSpn_spnState _ (by decide), ?_⟩
  rw [State.toSpn_fld _ _ (by decide), State.modSpn_fld, State.clr, State.fld_setFld_of_lt _ _ (by decide) (by decide)]

theorem servoOffsetLearn_writes (hrows : 4096 ≤ s.spn.ofsRows) : Answers (.servoOffsetLearn) s fun t =>
    t.fld F.SPN_SERVO_OFS_OFS = toAngle (roundDiv s.spn.ofsSum s.spn.ofsRows) ∧ t.fld F.SPN_SERVO_OFS_VALID = 1 ∧
    t.spn.ofsRows = 0 ∧ OnlyChanged s t [R.SPN_SERVO_OFS] [.spn] := by
  have hexec : exec .servoOffsetLearn s = .next (((s.setFld F.SPN_SERVO_OFS_OFS (toAngle (roundDiv s.spn.ofsSum
      s.spn.ofsRows))).flag F.SPN_SERVO_OFS_VALID).modSpn fun x => { x with ofsSum := 0, ofsRows := 0 }) :=
    if_neg (Nat.not_lt.2 hrows)
  refine ⟨_, hexec, ?_, ?_, rfl, ?_⟩
  · rw [State.modSpn_fld, State.flag, State.fld_setFld_of_spares _ _ (by decide),
      State.fld_setFld_of_lt _ _ (by decide) (toAngle_lt _)]
  · rw [State.modSpn_fld, State.fld_flag_same _ _ (by decide) (by decide)]
  · obtain ⟨_, _, _, hframe⟩ := execServoOffsetLearn_keeps (A := ⟨(· ∈ [R.SPN_SERVO_OFS]), (· ∈ [Part.spn])⟩) s
      (by simp [execServoOffsetLearn_sites]) _ hexec
    exact hframe

theorem currentLoopRun_samples (obs : LoopObs) (hreset : s.keeper.inReset = false) :
    Answers (.currentLoopRun obs) s fun t =>
      t.spn.iu = obs.iu - roundDiv (s.sfld F.GAU_ISENSE_SPN_U) 2 ∧
      t.spn.iv = obs.iv - roundDiv (s.sfld F.GAU_ISENSE_SPN_V) 2 ∧
      t.spn.iw = obs.iw - roundDiv (s.sfld F.GAU_ISENSE_SPN_W) 2 ∧
      t.fld F.SPN_STATUS_WRITE_OK = (if (t.spnState = Spn.run ∨ t.spnState = Spn.hold) ∧ t.fld F.SPN_UNC_UNC ≤ 500 ∧
        t.speedWithin (t.fld F.SPN_CTRL_WR_TOL) = true then 1 else 0) := by
  obtain ⟨u, hexec, hsamples⟩ := execCurrentLoopRun_next s obs hreset
  rw [← u.evalWriteOk_samples, State.samples, Prod.mk.injEq, Prod.mk.injEq] at hsamples
  obtain ⟨hiu, hiv, hiw⟩ := hsamples
  refine ⟨_, hexec, hiu, hiv, hiw, ?_⟩
  rw [u.evalWriteOk_fld_writeOk, ← u.evalWriteOk_writeSafe]
  simp only [State.writeSafe_iff]

end

/-- Settles O26: the start decision, ALIGN, ACCEL and RUN are each entered through the operation that the entry's fields are
read from, and a run of the current loop ends with WRITE_OK evaluated on what it leaves. RETRY is 0 on entry to RUN, and one
over root 3 is 18919/32768 (assumption log 102 and 31). -/
theorem spindleStart : Obligations.SpindleStart :=
  ⟨catchMeasureDone_aligns, catchMeasureDone_catches, catchTimeout_brakes, alignDone_accelerates,
    commutationTimeout_eventSeen, commutationTimeout_retries, commutationTimeout_locks, speedBandReached_runs,
    servoOffsetLearn_writes, currentLoopRun_samples⟩

/-! ### The ways out of RUN (R145 to R148) -/

section
variable (s : State)

/-- With fewer than five good crossings before it, a window only counts (R145, R146). -/
theorem holdFloatWindow_counts (o : Int) (a i : Nat) (hhold : s.spnState = Spn.hold)
    (hmode : s.fld F.SPN_STATUS_HOLD_MODE = 1) (hinside : o.natAbs ≤ 728) (hok : s.spn.crossOk < 5) :
    Answers (.holdFloatWindow o a i) s fun t =>
      t.spnState = Spn.hold ∧ t.spn.crossOk = s.spn.crossOk + 1 ∧
      t.spn.crossLow = (if a * 10 < s.emfAt s.spn.reliableRpm then s.spn.crossLow + 1 else 0) ∧
      OnlyChanged s t [] [.spn] := by
  have hsix : s.spn.crossOk + 1 < 6 := Nat.succ_lt_succ hok
  have hexec : exec (.holdFloatWindow o a i) s = .next (s.modSpn fun x =>
      { x with crossOk := x.crossOk + 1, crossLow := if a * 10 < s.emfAt x.reliableRpm then x.crossLow + 1 else 0,
               floating := none, crossRecent := (i :: x.crossRecent).take 6 }) := by
    simp [execHoldFloatWindow, hhold, State.on, hmode, hinside, hsix]
  exact ⟨_, hexec, hhold, rfl, rfl, s.modSpn_onlyChanged _⟩

theorem holdTimeout_coasts (hhold : s.spnState = Spn.hold) (hangle : 64 * 65536 ≤ s.spn.holdAngle)
    (hcatch : s.fld F.SPN_CTRL_AUTO_CATCH = 0) : Answers (.holdTimeout) s fun t =>
      t.spnState = Spn.coast ∧ t.fld F.SPN_STATUS_COAST_CAUSE = 1 ∧ t.fld F.SPN_EV_COAST_ENTRY = 1 := by
  have hfld (f : Fld) (hf : f.inSpn = true) :
      (((s.spnCoast 1).startUnload 0).startUnload 1).fld f = (s.spnCoast 1).fld f := by
    rw [State.startUnload_fld _ hf, State.startUnload_fld _ hf]
  have hoff : (((s.spnCoast 1).startUnload 0).startUnload 1).on F.SPN_CTRL_AUTO_CATCH = false := by
    rw [State.on, hfld _ (by decide), s.spnCoast_fld_ctrl, hcatch]
    rfl
  have hexec : exec .holdTimeout s = .next (((s.spnCoast 1).startUnload 0).startUnload 1) := by
    simp [execHoldTimeout, hhold, hangle, hoff]
  obtain ⟨hstate, hcause, hentry⟩ := s.spnCoast_shows (cause := 1) (by decide)
  exact ⟨_, hexec, (hfld _ (by decide)).trans hstate, (hfld _ (by decide)).trans hcause, (hfld _ (by decide)).trans hentry⟩

theorem lockedRotor_locks (hhold : s.spnState = Spn.hold) (hmode : s.fld F.SPN_STATUS_HOLD_MODE = 1)
    (hlow : 8 ≤ s.spn.crossLow) : Answers (.lockedRotor) s fun t =>
      t.spnState = Spn.locked ∧ t.fld F.SPN_STATUS_LOCK_CAUSE = 3 ∧ t.fld F.SPN_EV_LOCKED = 1 := by
  have hrun : Spn.hold ≠ Spn.run := by decide
  have hexec : exec .lockedRotor s = .next (s.spnLocked 3) := by
    simp [execLockedRotor, hrun, hhold, State.on, hmode, hlow]
  exact ⟨_, hexec, s.spnLocked_shows (by decide)⟩

theorem coastStopped_stops (hcoast : s.spnState = Spn.coast) (hcause : s.fld F.SPN_STATUS_COAST_CAUSE = 0) :
    Answers (.coastStopped) s fun t => t.spnState = Spn.stopped ∧ t.fld F.SPN_STATUS_START_PEND = 0 :=
  ⟨_, if_pos ⟨hcoast, hcause⟩, s.spnStopped_shows⟩

theorem coastRetractTimeout_retracts (a : Nat) (hcoast : s.spnState = Spn.coast)
    (hcause : s.fld F.SPN_STATUS_COAST_CAUSE = 1) (hloaded : s.fld (F.ACT_STATUS_LOAD_STATE a) = 2) (ha : a < 2) :
    Answers (.coastRetractTimeout) s fun t =>
      t.fld (F.ACT_STATUS_LOAD_STATE a) = 4 ∧ t.fld (F.ACT_STATUS_RETRACT_CAUSE a) = 4 :=
  ⟨_, if_pos ⟨hcoast, hcause⟩, s.eretractBoth_loaded a 4 ha hloaded (by decide)⟩

section
variable (hbrake : s.spnState = Spn.brake) (hbelow : 50 * 10 ^ 9 ≤ s.spn.belowPs)
include hbrake hbelow

theorem execBrakeDone_below : exec .brakeDone s =
    .next (if s.on F.SPN_STATUS_START_PEND then s.spnAlign 0 else s.spnStopped) :=
  if_neg (not_or.2 ⟨not_not_intro hbrake, Nat.not_lt.2 hbelow⟩)

theorem brakeDone_stops (hpend : s.fld F.SPN_STATUS_START_PEND = 0) : Answers (.brakeDone) s fun t =>
    t.spnState = Spn.stopped := by
  refine ⟨_, execBrakeDone_below s hbrake hbelow, ?_⟩
  rw [State.on, hpend]
  exact s.spnStopped_shows.1

theorem brakeDone_aligns (hpend : s.fld F.SPN_STATUS_START_PEND = 1) : Answers (.brakeDone) s fun t =>
    t.spnState = Spn.align ∧ t.fld F.SPN_STATUS_START_PEND = 0 := by
  refine ⟨_, execBrakeDone_below s hbrake hbelow, ?_⟩
  rw [State.on, hpend]
  obtain ⟨hstate, hpend', _⟩ := s.spnAlign_shows 0
  exact ⟨hstate, hpend'⟩

end

end

/-- Settles O27: a float window counts, and the others enter COAST, LOCKED, STOPPED or ALIGN through the operation that the
entry's fields are read from; the retract of loaded heads is read from the actuator's own. -/
theorem spindleLosses : Obligations.SpindleLosses :=
  ⟨holdFloatWindow_counts, holdTimeout_coasts, lockedRotor_locks, coastStopped_stops, coastRetractTimeout_retracts,
    brakeDone_stops, brakeDone_aligns⟩

end Sys2Proof.Machine
end
